-- ==== Sys2Proof/Word.lean ====
section
/-! DEFINITION. The word types of the Kerrid W2 and the plainest arithmetic on them: bit fields numbered from 0 at the
least significant end and written [hi:lo] (R11), and the little-endian split of a word into bytes (R11). -/

namespace Sys2Proof

/-- A 64-bit word: a well word, an instruction word, a register (R11). -/
abbrev Word := BitVec 64

/-- One byte of a well, a reservoir, a frame or a payload. -/
abbrev Byte := BitVec 8

/-- The field [lo + n - 1 : lo] of a word, as a number (R11). -/
def fieldOf (w : Word) (lo n : Nat) : Nat := (w.toNat >>> lo) % 2 ^ n

/-- The bit of a word numbered `i` (R11). -/
def bitOf (w : Word) (i : Nat) : Bool := w.getLsbD i

/-- The word whose bits [lo + n - 1 : lo] are ones and whose other bits are zeros. -/
def maskOf (lo n : Nat) : Word := (BitVec.ofNat 64 (2 ^ n - 1)) <<< lo

/-- `w` with the field [lo + n - 1 : lo] replaced by `v` and every other bit kept. -/
def putField (w : Word) (lo n v : Nat) : Word :=
  (w &&& ~~~(maskOf lo n)) ||| ((BitVec.ofNat 64 v <<< lo) &&& maskOf lo n)

/-- The two's-complement value of an `n`-bit field holding `v`. -/
def signedOf (n v : Nat) : Int := if v % 2 ^ n < 2 ^ (n - 1) then ((v % 2 ^ n : Nat) : Int) else ((v % 2 ^ n : Nat) : Int) - 2 ^ n

/-- Byte `i` of a word, byte 0 being the least significant (R11). -/
def byteOf (w : Word) (i : Nat) : Byte := BitVec.ofNat 8 (w.toNat >>> (8 * i))

/-- The number whose little-endian bytes are `bs` (R11). -/
def natOfBytes : List Byte → Nat
  | [] => 0
  | b :: bs => b.toNat + 256 * natOfBytes bs

/-- The first `n` little-endian bytes of a number (R11). -/
def bytesOfNat : Nat → Nat → List Byte
  | 0, _ => []
  | n + 1, v => BitVec.ofNat 8 v :: bytesOfNat n (v / 256)

/-- The word whose little-endian bytes are `bs`, missing bytes reading as zero. -/
def wordOfBytes (bs : List Byte) : Word := BitVec.ofNat 64 (natOfBytes (bs.take 8))

/-- The eight little-endian bytes of a word. -/
def bytesOfWord (w : Word) : List Byte := bytesOfNat 8 w.toNat

/-- Division of a count, rounded up. -/
def ceilDiv (a b : Nat) : Nat := (a + b - 1) / b

/-- One if `b` holds, zero otherwise. -/
def bit (b : Bool) : Nat := if b then 1 else 0

end Sys2Proof
end

