-- ==== Sys2Proof/Syntax.lean ====
section
/-! DEFINITION. The commands of the block, one constructor per row of the opcode table. An instruction of a core carries the physical
core and the whole 64-bit instruction word; an event or a message carries what the manual gives it from outside. -/

namespace Sys2Proof

/-- A physical core, px + 84·py (R468). -/
abbrev CoreId := Fin 8064

/-- A cluster, cx + 12·cy (R7). -/
abbrev ClusterId := Fin 144

/-! ## What messages and fabric packets carry -/

/-- A started instruction of an engine at work: its place in the engine's list, and how many of the beats that it still has to present to the well are
served, in order, before it completes if it then can (R143, R147). (DESIGN CHOICE, log entry 13.) -/
structure RunAt where
  idx : Nat
  beats : Nat
  deriving DecidableEq, Repr

/-- What an upset has struck before a command: one of the three copies of a register that is held in copies, which now holds another value, or fails its parity (R435); or
a place of the event log's memory, which no longer holds what is written to it (R436); or a payload word that arrives with an error at the next crossing of a link by an access
(R252). (DESIGN CHOICE, log entry 84.) -/
inductive Upset where
  | copy (addr : Nat) (which : Fin 3) (value : Option Word)
  | log (place : Fin 8192)
  | mesh (core : CoreId) (dir : Fin 4) (word : Nat) (ue : Bool)
  deriving DecidableEq, Repr

/-- A digest that a mirror sends its primary's router: the packet that it is for, by kind, endpoint and sequence number, a read reply's by the request that it answers,
and its CRC-64 (R426, R427). -/
structure Digest where
  kind : Nat
  ep : Nat
  seq : Nat
  crc : Word
  deriving DecidableEq, Repr

/-- What a packet of the main mesh or a channel packet of the fabric carries (R188, R196, R197, R202, R206). -/
inductive Body where
  /-- A channel message: receiving endpoint, sending endpoint, sequence number, position, offset or first slot, payload. -/
  | message (ep srcEp seq pos off : Nat) (words : List (Word × Bool))
  /-- A return of credit units to a sending half, from a receiving endpoint. -/
  | credit (ep srcEp units : Nat)
  /-- A batch token for a batch, to a sending half. -/
  | token (ep batch : Nat)
  /-- A combining queue's grant, to a sending half of every member. -/
  | grant (ep : Nat)
  /-- A read request: the read window's endpoint, the requesting endpoint, copy slot and generation, and the words it asks for, each a
  window-relative word and the tag that its reply carries. -/
  | readReq (ep srcEp slot gen : Nat) (words : List (Nat × Nat))
  /-- A read reply: the requesting copy slot, and the tags of the request with the words and their poison. -/
  | readReply (slot : Nat) (words : List (Nat × Word × Bool))
  /-- What a gateway and a source of packets exchange on VC 3 for the waiting packet of a tag: 0 a reservation, 1 its grant, 2 a retry, 3 the packet
  itself (R293). -/
  | gate (kind tag : Nat)
  /-- A fabric read unit that the owner returns to the inbound gateway: the request of the words left (R324). -/
  | back (ep srcEp slot gen : Nat) (words : List (Nat × Nat))
  deriving DecidableEq, Repr

/-- The contents of a hello (R296). -/
structure Hello where
  eui : Word
  device : Nat
  port : Nat
  groups : Nat
  lifecycle : Nat
  admitted : Bool
  hseq : Nat
  epoch : Nat
  deriving DecidableEq, Repr

/-- What a fabric packet carries (R311). -/
inductive FabBody where
  /-- Kinds 0 to 4: what a channel sends. -/
  | channel (b : Body)
  /-- Kind 5: a far ligature operation, an arrive or a signal, with its operand and the sender's tag of it, and the binding and the index of the
  instruction that sent it, which a fault of it names (R225, R226). -/
  | lig (signal : Bool) (operand tag binding pc : Nat)
  /-- Kind 6: an ingress request for a client, with its payload. -/
  | ingress (client : Nat) (bytes : List Byte)
  /-- Kind 7: a management message that forwards the reset of a job, with the EUI-64 of its source (R337, R340). -/
  | jobReset (source : Word)
  /-- Kind 7 or 8: any other message for the Scribe Complex, with the EUI-64 of its source (R340). -/
  | scribe (source : Word) (bytes : List Byte)
  /-- Kind 9 (R296). -/
  | hello (h : Hello)
  /-- Kind 10: the sender's counter at transmission and, of the last packet it received from this end, when that was sent and when it arrived, in
  quarter nanoseconds (R330). -/
  | time (sent : Nat) (back : Option (Nat × Nat))
  /-- Kind 11: for each dimension and direction, 2·dimension + direction, the levels of the eight classes (R329). -/
  | cmap (levels : List (List Nat))
  deriving DecidableEq, Repr

/-- A fabric packet: the fields of its header (R311), the region-relative coordinates of the receiving and the sending core from its message
header (R188), its length in flits and what it carries. -/
structure FabPkt where
  dstDev : Nat
  srcDev : Nat
  cls : Nat
  epoch : Bool
  hops : Nat
  dstRegion : Nat
  gen : Nat
  kind : Nat
  injectUs : Nat
  srcRegion : Nat
  route : List Nat
  routeIdx : Nat
  downTaken : Bool
  x : Nat
  y : Nat
  sx : Nat
  sy : Nat
  flits : Nat
  body : FabBody
  deriving DecidableEq, Repr

/-! ## Link blocks -/

/-- What an Ethernet link comes up with: whether as CR4, and the settings that its four lanes' receivers have adapted to (R286, R299). (DESIGN CHOICE, log entry 149.) -/
structure EthFound where
  cr4 : Bool
  adapted : List Nat
  deriving DecidableEq, Repr

/-- A flit of a link block: its link class, the packet that begins in it, if one does, and its bytes (R290). What a port sends holds both; of a flit that it
receives it takes the packet as its headers and payload give it. (PRESUMED, log entry 121.) -/
structure Flit where
  cls : Nat
  head : Option FabPkt
  bytes : List Byte
  deriving DecidableEq, Repr

/-- A link block as a port receives it: the trailer's sequence number, acknowledgement, nak and width-change request, the lane groups that the partner
takes out of the link with that request, the flits freed by class, the sixteen slots, whether the CRC holds, and what the FEC did over the block: the
corrected codewords, the corrected symbols by lane group, and for each uncorrectable codeword its lane group (R287, R290, R292). The trailer's request is
one bit, and how the ends agree which groups it is for is not given: the list stands for it. (DESIGN CHOICE, log entry 116.) -/
structure LinkBlock where
  seq : Nat
  ack : Nat
  nak : Bool
  widthReq : Bool
  groups : List (Fin 8)
  credits : List Nat
  slots : List (Option Flit)
  crcOk : Bool
  corrected : Nat
  symbols : List (Fin 8 × Nat)
  uncorrectable : List (Fin 8)
  deriving DecidableEq, Repr

/-! ## What bring-up finds -/

/-- What the training passes find of a crossing: its windows idle and under stress at 0.70 GHz, then at 1.15 GHz, and the replica centre as its setting is
made (R350, R352). -/
structure XingFit where
  cluster : Nat
  side : Nat
  lowIdle : Nat × Nat
  lowStress : Nat × Nat
  highIdle : Nat × Nat
  highStress : Nat × Nat
  centre : Nat
  deriving DecidableEq, Repr

/-- What holds at a reset's end: whether RESET_N has been high for a microsecond, the rails that do not read within their limits, by interface and select (R457), and the fuse words
whose copies differ (R402). -/
structure ExitSeen where
  resetN : Bool
  railsOut : List (Nat × Nat)
  disagree : List Nat
  deriving DecidableEq, Repr

/-- What a phase of bring-up finds: clusters whose PLL did not lock or that failed a test, cores that failed one, the crossings, each cluster's voltage
points idle and under stress, each core's reservoir interfaces with their windows idle and under stress, the ports that the device image's training
parameters enable, with their modes, the receiver equaliser settings that those parameters give for a port, and the settings that a pass's
training reaches, by port and lane (R284, R286, R395 to R399). -/
structure Bringup where
  failedClusters : List Nat
  failedCores : List Nat
  crossings : List XingFit
  points : List (Nat × List (Nat × Nat))
  interfaces : List (Nat × (Nat × Nat) × (Nat × Nat))
  ports : List (Nat × Nat)
  given : List (Nat × List Nat)
  reached : List (Nat × List Nat)
  deriving DecidableEq, Repr

/-! ## What the Scribe firmware does with a frame -/

/-- A fabric manager's command to a device (R339, R340): the device's EUI-64 and its fabric ID, the escape route to it, and the registers that the command writes there,
by their rim addresses. -/
structure FmSend where
  eui : Nat
  dev : Nat
  route : List Nat
  writes : List (Word × Word)
  deriving DecidableEq, Repr

/-- The firmware's choice for a frame that has reached it (R338): a frame of its own sent in answer on a link of the frame's port, with a timestamp tag and the
quarter nanoseconds past the tick at which it goes out, or none; the frame passed to a client; or the frame discarded. Or what the firmware does of its own: the
work of the region whose turn it is (R277), given the region of a binding at the head of the management controller's requests; a frame that answers none; and the
commands of its fabric-manager role (R339). (DEDUCED, log entry 119.) -/
inductive ScrAct where
  | answer (link : Fin 8) (bytes : List Byte) (tag : Option (Fin 65536 × Fin 40))
  | pass (client : Fin 1024)
  | discard
  | serve (binding : Option (Fin 64))
  | own (port : Fin 16) (link : Fin 8) (bytes : List Byte) (tag : Option (Fin 65536 × Fin 40))
  | fabric (sends : List FmSend)
  deriving DecidableEq, Repr

/-- The commands, in the order of the table. (DESIGN CHOICE, log entry 112.) -/
inductive Instr where
  /-- NOP: Issues in one clock and changes no state (R42). -/
  | nop (core : CoreId) (w : Word)
  /-- CAP_READ: Writes the capability named by imm32[7:0] to sd (R71). -/
  | capRead (core : CoreId) (w : Word)
  /-- SR_RD: Reads a special register into sd, or raises a state trap if the index is not open to the program (R72). -/
  | srRd (core : CoreId) (w : Word)
  /-- SR_WR: Writes a special register by field type, or raises a state trap if the index is not writable (R72). -/
  | srWr (core : CoreId) (w : Word)
  /-- STOP: Ends issue and sets stopped; queued engine work completes (R74). -/
  | stop (core : CoreId) (w : Word)
  /-- S_ADD: Adds two scalar registers modulo 2^64 (R46). -/
  | sAdd (core : CoreId) (w : Word)
  /-- S_SUB: Subtracts two scalar registers modulo 2^64 (R46). -/
  | sSub (core : CoreId) (w : Word)
  /-- S_AND: Bitwise AND of two scalar registers (R46). -/
  | sAnd (core : CoreId) (w : Word)
  /-- S_OR: Bitwise OR of two scalar registers (R46). -/
  | sOr (core : CoreId) (w : Word)
  /-- S_XOR: Bitwise XOR of two scalar registers (R46). -/
  | sXor (core : CoreId) (w : Word)
  /-- S_SLL: Shifts left by the low 6 bits of sb (R46). -/
  | sSll (core : CoreId) (w : Word)
  /-- S_SRL: Logical right shift by the low 6 bits of sb (R46). -/
  | sSrl (core : CoreId) (w : Word)
  /-- S_SRA: Arithmetic right shift by the low 6 bits of sb (R46). -/
  | sSra (core : CoreId) (w : Word)
  /-- S_MUL: Multiplies two scalar registers, low 64 bits, latency 3 (R46). -/
  | sMul (core : CoreId) (w : Word)
  /-- S_MULHU: Unsigned multiply returning the high 64 bits, latency 3 (R46). -/
  | sMulhu (core : CoreId) (w : Word)
  /-- S_DIVU: Unsigned divide, all ones on division by zero, latency 20 (R46). -/
  | sDivu (core : CoreId) (w : Word)
  /-- S_REMU: Unsigned remainder, the dividend on division by zero, latency 20 (R46). -/
  | sRemu (core : CoreId) (w : Word)
  /-- S_MIN: Signed minimum of two scalar registers (R46). -/
  | sMin (core : CoreId) (w : Word)
  /-- S_MAX: Signed maximum of two scalar registers (R46). -/
  | sMax (core : CoreId) (w : Word)
  /-- S_MINU: Unsigned minimum of two scalar registers (R46). -/
  | sMinu (core : CoreId) (w : Word)
  /-- S_MAXU: Unsigned maximum of two scalar registers (R46). -/
  | sMaxu (core : CoreId) (w : Word)
  /-- S_ADDI: Adds a sign-extended immediate to a scalar register (R46). -/
  | sAddi (core : CoreId) (w : Word)
  /-- S_ANDI: ANDs an immediate into a scalar register (R46). -/
  | sAndi (core : CoreId) (w : Word)
  /-- S_ORI: ORs an immediate into a scalar register (R46). -/
  | sOri (core : CoreId) (w : Word)
  /-- S_XORI: XORs an immediate into a scalar register (R46). -/
  | sXori (core : CoreId) (w : Word)
  /-- S_SLLI: Shifts left by an immediate of 6 bits (R46). -/
  | sSlli (core : CoreId) (w : Word)
  /-- S_SRLI: Logical right shift by an immediate of 6 bits (R46). -/
  | sSrli (core : CoreId) (w : Word)
  /-- S_SRAI: Arithmetic right shift by an immediate of 6 bits (R46). -/
  | sSrai (core : CoreId) (w : Word)
  /-- S_LIH: Writes imm32 into sd[63:32] and keeps sd[31:0] (R46). -/
  | sLih (core : CoreId) (w : Word)
  /-- A_ADDI: Sets an address register to aa plus imm32 modulo 2^32 (R46). -/
  | aAddi (core : CoreId) (w : Word)
  /-- A_MV: Sets an address register to s[31:0] plus imm32 (R46). -/
  | aMv (core : CoreId) (w : Word)
  /-- A_RD: Writes aa plus imm32, zero-extended, to a scalar register (R46). -/
  | aRd (core : CoreId) (w : Word)
  /-- S_LD: Reads one well word into a scalar register through the control port, with optional post-increment (R47). -/
  | sLd (core : CoreId) (w : Word)
  /-- S_ST: Writes a scalar register to one well word, carrying its poison (R47). -/
  | sSt (core : CoreId) (w : Word)
  /-- P_EQ: Sets a predicate to sa equal to sb or the immediate (R46). -/
  | pEq (core : CoreId) (w : Word)
  /-- P_NE: Sets a predicate to sa not equal to the operand (R46). -/
  | pNe (core : CoreId) (w : Word)
  /-- P_LT: Sets a predicate to signed sa less than the operand (R46). -/
  | pLt (core : CoreId) (w : Word)
  /-- P_LTU: Sets a predicate to unsigned sa less than the operand (R46). -/
  | pLtu (core : CoreId) (w : Word)
  /-- P_GE: Sets a predicate to signed sa at least the operand (R46). -/
  | pGe (core : CoreId) (w : Word)
  /-- P_GEU: Sets a predicate to unsigned sa at least the operand (R46). -/
  | pGeu (core : CoreId) (w : Word)
  /-- P_AND: Sets a predicate to pa AND pb (R46). -/
  | pAnd (core : CoreId) (w : Word)
  /-- P_OR: Sets a predicate to pa OR pb (R46). -/
  | pOr (core : CoreId) (w : Word)
  /-- P_XOR: Sets a predicate to pa XOR pb (R46). -/
  | pXor (core : CoreId) (w : Word)
  /-- P_ANDN: Sets a predicate to pa AND NOT pb (R46). -/
  | pAndn (core : CoreId) (w : Word)
  /-- BR: Branches to pc plus off16, ending loops whose bodies do not contain the target (R52). -/
  | br (core : CoreId) (w : Word)
  /-- JL: Branches to pc plus off16 and writes pc plus 1 to s (R52). -/
  | jl (core : CoreId) (w : Word)
  /-- JR: Branches to the index in s[12:0] (R52). -/
  | jr (core : CoreId) (w : Word)
  /-- LOOP: Starts a zero-overhead loop over the following body, or skips it on a count of 0 (R53). -/
  | loop (core : CoreId) (w : Word)
  /-- CC_WAIT: Holds issue until a completion counter reaches s plus imm32 (R58). -/
  | ccWait (core : CoreId) (w : Word)
  /-- CC_SET: Sets a completion counter to s plus imm32 (R58). -/
  | ccSet (core : CoreId) (w : Word)
  /-- CC_RD: Copies a completion counter into s (R58). -/
  | ccRd (core : CoreId) (w : Word)
  /-- FENCE: Holds issue until every engine queue is empty and every engine instruction has completed (R59). -/
  | fence (core : CoreId) (w : Word)
  /-- WAIT_LIMIT_BREACH: A cc.wait or fence held for the wait limit raises a schedule-breach trap and has no effect (R60). -/
  | waitLimitBreach (core : CoreId)
  /-- EV_POP: Moves the oldest event record into sd, and a doorbell record selects its client (R61). -/
  | evPop (core : CoreId) (w : Word)
  /-- EV_WAIT: Holds issue until the event queue is not empty (R61). -/
  | evWait (core : CoreId) (w : Word)
  /-- EV_RET: Restores the loop stack, clears in_handler and resumes at CORE_EVT_PC (R63). -/
  | evRet (core : CoreId) (w : Word)
  /-- EV_CTL: Sets CORE_CTRL.ev_en from imm32[0] (R63). -/
  | evCtl (core : CoreId) (w : Word)
  /-- T_NOW: Returns the interpolated Global Time Counter in nanoseconds (R67). -/
  | tNow (core : CoreId) (w : Word)
  /-- T_ARM: Arms a timed-action slot with a target time and an action (R68). -/
  | tArm (core : CoreId) (w : Word)
  /-- T_CANCEL: Disarms a slot and reports whether its action was still pending (R69). -/
  | tCancel (core : CoreId) (w : Word)
  /-- HINT_PRESS: Announces a future level of matrix activity to the cluster's supply (R70). -/
  | hintPress (core : CoreId) (w : Word)
  /-- EVENT_ARRIVAL: An event record reaches a core's queue, or is discarded as stale or for a full queue (R61). -/
  | eventArrival (core : CoreId) (cls : Fin 7)
  /-- HANDLER_ENTRY: With events enabled and the queue not empty, the core saves state and enters the handler once pending writes land (R62). -/
  | handlerEntry (core : CoreId)
  /-- MX_HAND: Sets the hand and invalidates both planes (R104). -/
  | mxHand (core : CoreId) (w : Word)
  /-- MX_LOAD: Fills a plane with a stationary tile from the well or the load port (R105). -/
  | mxLoad (core : CoreId) (w : Word)
  /-- MX_ANCHOR: Clears an accumulator rectangle and sets its anchors, or writes the default anchor (R106). -/
  | mxAnchor (core : CoreId) (w : Word)
  /-- MX_STREAM: Passes n strokes through the grid into accumulator rows (R108). -/
  | mxStream (core : CoreId) (w : Word)
  /-- MX_DRAIN: Rounds accumulator entries into a format and writes them to the well (R111). -/
  | mxDrain (core : CoreId) (w : Word)
  /-- MX_FLAGS: Writes MX_FLAGS to sa and clears the masked fields (R114). -/
  | mxFlags (core : CoreId) (w : Word)
  /-- MX_LDACC: Adds LS96 records from the well into accumulator entries (R113). -/
  | mxLdacc (core : CoreId) (w : Word)
  /-- MATRIX_START: A queued matrix instruction starts once its start conditions hold (R103). -/
  | matrixStart (core : CoreId)
  /-- STROKE_ENTRY: A stroke enters the grid once its bytes are present, and its terms land at fixed clocks (R110). -/
  | strokeEntry (core : CoreId)
  /-- STREAM_FEED_TIMEOUT: A stroke that has waited 1,048,576 clocks for port bytes ends the stream with a schedule-breach trap (R110). -/
  | streamFeedTimeout (core : CoreId)
  /-- MATRIX_COMPLETION: A matrix instruction completes and increments its counter (R103). -/
  | matrixCompletion (core : CoreId) (idx : RunAt)
  /-- VX_LD: Loads and converts 64 elements into a vector register from the well or the operand port (R132). -/
  | vxLd (core : CoreId) (w : Word)
  /-- VX_ST: Converts active lanes and stores them to the well (R133). -/
  | vxSt (core : CoreId) (w : Word)
  /-- VX_ADD: Lane-wise binary32 addition (R127). -/
  | vxAdd (core : CoreId) (w : Word)
  /-- VX_SUB: Lane-wise binary32 subtraction (R127). -/
  | vxSub (core : CoreId) (w : Word)
  /-- VX_MUL: Lane-wise binary32 multiplication (R127). -/
  | vxMul (core : CoreId) (w : Word)
  /-- VX_FMA: Lane-wise fused multiply-add with a single rounding (R127). -/
  | vxFma (core : CoreId) (w : Word)
  /-- VX_MIN: Lane-wise minimum (R127). -/
  | vxMin (core : CoreId) (w : Word)
  /-- VX_MAX: Lane-wise maximum (R127). -/
  | vxMax (core : CoreId) (w : Word)
  /-- VX_FN: Applies a correctly rounded function to each active lane (R129). -/
  | vxFn (core : CoreId) (w : Word)
  /-- VX_CMP: Sets a mask register from a lane-wise comparison (R128). -/
  | vxCmp (core : CoreId) (w : Word)
  /-- VX_SEL: Selects lanes from two vectors by the mask (R128). -/
  | vxSel (core : CoreId) (w : Word)
  /-- VX_RED: Reduces active lanes to one value in the fixed order (R130). -/
  | vxRed (core : CoreId) (w : Word)
  /-- VX_PERM: Permutes lanes by index (R131). -/
  | vxPerm (core : CoreId) (w : Word)
  /-- VX_BCAST: Broadcasts a scalar or a lane to every active lane (R131). -/
  | vxBcast (core : CoreId) (w : Word)
  /-- VX_MASK: Combines, sets or reads mask registers (R128). -/
  | vxMask (core : CoreId) (w : Word)
  /-- VX_FLAGS: Writes VX_FLAGS to sa and clears the masked fields (R137). -/
  | vxFlags (core : CoreId) (w : Word)
  /-- VECTOR_START: A queued vector instruction starts once its interlocks hold (R136). -/
  | vectorStart (core : CoreId)
  /-- VECTOR_COMPLETION: A vector instruction writes its destination and increments its counter (R136). -/
  | vectorCompletion (core : CoreId) (idx : RunAt)
  /-- VX_PORT_LOAD_TIMEOUT: A port load that has waited 1,048,576 clocks raises a schedule-breach trap and completes (R135). -/
  | vxPortLoadTimeout (core : CoreId)
  /-- ASYNC_WORD_FORCED: An asynchronous word waiting for the limit takes its bank ahead of scheduled ports (R146). -/
  | asyncWordForced (core : CoreId) (port : Fin 16) (put : Bool) (run : Nat) (addr : Nat)
  /-- WELL_SCRUB_ACCESS: The scrub port reads, corrects and rewrites a word in a free bank clock (R159). -/
  | wellScrubAccess (core : CoreId) (addr : Nat) (upset : List (Nat × Bool))
  /-- CP_FETCH: Copies reservoir bytes to the well by a shape (R172). -/
  | cpFetch (core : CoreId) (w : Word)
  /-- CP_STORE: Copies well bytes to the reservoir by a shape (R172). -/
  | cpStore (core : CoreId) (w : Word)
  /-- CP_MOVE: Copies within the well on the move pipe (R175). -/
  | cpMove (core : CoreId) (w : Word)
  /-- CP_FEED: Feeds bytes to the stream port, vector operand port or code store (R177). -/
  | cpFeed (core : CoreId) (w : Word)
  /-- CP_FILL: Writes a byte pattern into the well or the reservoir (R172). -/
  | cpFill (core : CoreId) (w : Word)
  /-- CP_RPUT: Sends local well runs as messages into a remote direct window (R205). -/
  | cpRput (core : CoreId) (w : Word)
  /-- CP_RGET: Sends read requests to a remote read window and lands the replies (R206). -/
  | cpRget (core : CoreId) (w : Word)
  /-- CP_SWAP: Exchanges the recto and verso roles of a buffer pair (R152). -/
  | cpSwap (core : CoreId) (w : Word)
  /-- COPY_START: A queued copy starts once a slot or the move pipe and its overlap conditions allow (R174). -/
  | copyStart (core : CoreId) (clk : Nat)
  /-- RESERVOIR_LINE_GRANT: A reservoir channel grants one waiting line by promotion, deadline, background or scrub order (R179). -/
  | reservoirLineGrant (core : CoreId) (channel : Fin 16) (clk : Nat)
  /-- RESERVOIR_LINE_DELIVERY: A granted line is delivered to its destination or written with check bits (R168). -/
  | reservoirLineDelivery (core : CoreId) (slot : Fin 8) (line : Nat)
  /-- BACKGROUND_PROMOTION: A background line waiting promote_age microseconds is promoted to the next grant (R179). -/
  | backgroundPromotion (core : CoreId) (slot : Fin 8) (channel : Fin 16)
  /-- RESERVOIR_REFRESH: A reservoir bank is refreshed, possibly postponed while lines wait (R168). -/
  | reservoirRefresh (core : CoreId) (channel : Fin 16) (bank : Fin 16) (postpone : Bool)
  /-- RESERVOIR_SCRUB: The reservoir reads, corrects and rewrites a line in a free channel slot (R167). -/
  | reservoirScrub (core : CoreId) (upset : List (Nat × Bool))
  /-- RESERVOIR_ROW_SPARE: A failing reservoir row is copied to a spare row and its address redirected (R420). -/
  | reservoirRowSpare (core : CoreId) (channel : Fin 16) (bank : Fin 16) (row : Fin 320)
  /-- COPY_COMPLETION: A copy completes after its last byte is written and increments its counter (R176). -/
  | copyCompletion (core : CoreId) (idx : Nat)
  /-- CH_SEND: Sends a message on an endpoint once credits are held (R193). -/
  | chSend (core : CoreId) (w : Word)
  /-- CH_CREDIT: Returns credit units or batch tokens from a receiving half (R196). -/
  | chCredit (core : CoreId) (w : Word)
  /-- CH_COUNT: Writes CH_RXn or the sending credits to sa (R195). -/
  | chCount (core : CoreId) (w : Word)
  /-- CH_FLAGS: Writes CH_CQ_FLAGS to sa and clears masked fields (R195). -/
  | chFlags (core : CoreId) (w : Word)
  /-- CHANNEL_START: A queued channel instruction starts, a send taking its credits (R193). -/
  | channelStart (core : CoreId)
  /-- SEND_CREDIT_ABANDON: A send or cp.rput waiting on credits for the wait limit is abandoned with a schedule-breach trap (R194). -/
  | sendCreditAbandon (core : CoreId) (put : Option Nat)
  /-- CHANNEL_COMPLETION: A channel instruction completes after its last flit leaves and increments its counter (R193). -/
  | channelCompletion (core : CoreId) (idx : Nat)
  /-- MULTICAST_BRANCH_ADMIT: A multicast message is admitted to a tree branch once its branch buffer holds the whole message (R248). -/
  | multicastBranchAdmit (idx : Nat) (dir : Fin 5)
  /-- MESSAGE_ARRIVAL: A channel message reaches its receiving core and lands, or is dropped or discarded (R190). -/
  | messageArrival (idx : Nat)
  /-- COMBINING_ROUND_CLOSE: When every slot holds E terms the queue writes or forwards its sums and grants credits (R202). -/
  | combiningRoundClose (core : CoreId) (queue : Fin 16)
  /-- CREDIT_RETURN_ARRIVAL: A credit return adds units to a sending half, capped at its initial credits (R196). -/
  | creditReturnArrival (idx : Nat)
  /-- BATCH_TOKEN_ARRIVAL: A batch token counts toward a batch and releases its credits when all members have finished (R197). -/
  | batchTokenArrival (idx : Nat)
  /-- COMBINING_GRANT_ARRIVAL: A combining grant adds the ductus's batch to a contributor's credits (R202). -/
  | combiningGrantArrival (idx : Nat)
  /-- READ_REQUEST_ARRIVAL: A read request reaches a read window and is split into units or dropped (R206). -/
  | readRequestArrival (idx : Nat)
  /-- READ_UNIT_SERVICE: A queued read unit is served through port 10, merged with its twins, and replied (R207). -/
  | readUnitService (core : CoreId)
  /-- READ_REPLY_ARRIVAL: Read reply words land in the requester's well (R206). -/
  | readReplyArrival (idx : Nat)
  /-- LIG_ARRIVE: Adds one arrival to a ligature, firing it at the expected count (R219). -/
  | ligArrive (core : CoreId) (w : Word)
  /-- LIG_SIGNAL: Fires a ligature at once (R219). -/
  | ligSignal (core : CoreId) (w : Word)
  /-- LIG_WAIT: Holds issue until a ligature reaches a target phase (R219). -/
  | ligWait (core : CoreId) (w : Word)
  /-- LIG_RESET: Resets a ligature's count and phase and optionally its expect (R219). -/
  | ligReset (core : CoreId) (w : Word)
  /-- LIG_READ: Reads a ligature's phase, count and expect into sb (R219). -/
  | ligRead (core : CoreId) (w : Word)
  /-- LIG_TSTAT: Reads the state of a timed-action slot into sa (R232). -/
  | ligTstat (core : CoreId) (w : Word)
  /-- LIGATURE_OP_APPLIED: A ligature operation is applied at the owning unit in reset, arrive, signal, waiter order (R219). -/
  | ligatureOpApplied (cluster : ClusterId) (ops : List (CoreId × Bool))
  /-- WAITER_RELEASE: A release reaches a waiting core and its next instruction issues (R221). -/
  | waiterRelease (core : CoreId)
  /-- WAIT_REAPPLY: A wait held for a free waiter record is applied again when a record frees (R222). -/
  | waitReapply (cluster : ClusterId)
  /-- LIGATURE_WAIT_TIMEOUT: A waiter recorded for its timeout is removed and a fault sent to the core (R224). -/
  | ligatureWaitTimeout (core : CoreId)
  /-- LIGATURE_OP_COMPLETION: A ligature operation completes at the issuing core and increments its counter (R221). -/
  | ligatureOpCompletion (core : CoreId) (idx : Nat)
  /-- FAR_LIGATURE_ARRIVAL: A far ligature operation from another device is applied, or discarded as stale or invalid (R227). -/
  | farLigatureArrival (idx : Nat)
  /-- TIMED_ACTION_EXECUTE: An armed slot acts at the first tick at or after its target (R228). -/
  | timedActionExecute (core : CoreId) (slot : Fin 8)
  /-- CORE_MESH_CFG_WRITE: A router's link selection changes, applying to the next header it routes (R244). -/
  | coreMeshCfgWrite (core : CoreId) (value : Word)
  /-- MESH_FLIT_HOP: A flit crosses one router hop, with its words checked and corrected (R243). -/
  | meshFlitHop (idx : Nat) (flit : Nat) (ce : List Nat) (ue : List Nat)
  /-- MESH_LINK_REPLAY: A flit with a CRC failure is replayed from the retry buffer (R251). -/
  | meshLinkReplay (core : CoreId) (dir : Fin 4) (clears : Bool)
  /-- HAIRLINE_REPLAY: A hairline packet with a CRC failure is replayed (R258). -/
  | hairlineReplay (cluster : ClusterId) (dir : Fin 4) (clears : Bool)
  /-- TIME_BEACON: Every 1 µs the time base floods a beacon carrying its tick time (R360). -/
  | timeBeacon
  /-- BEACON_ARRIVAL: A cluster receives a beacon and slews its interpolated counter toward it (R360). -/
  | beaconArrival (cluster : ClusterId)
  /-- REGION_CREATE: Checks a rectangle and, if valid, locks it and enters wiping (R262). -/
  | regionCreate (region : Fin 64) (req : Bool) (upset : List Upset)
  /-- REGION_RESET: Starts a region reset, entering stopping or wiping and resetting its job (R271). -/
  | regionReset (region : Fin 64) (req : Bool)
  /-- REGION_RELEASE: Starts a ready region with a committed image and zeroes its ring control granules (R274). -/
  | regionRelease (region : Fin 64) (req : Bool)
  /-- REGION_DELETE: Returns a ready region with no valid clients to free (R261). -/
  | regionDelete (region : Fin 64) (req : Bool)
  /-- REGION_IDLE: A stopping region that becomes idle enters wiping and advances its generation (R272). -/
  | regionIdle (region : Fin 64)
  /-- IDLE_TIMEOUT: A region still stopping at its timeout enters forcing (R273). -/
  | idleTimeout (region : Fin 64)
  /-- FORCE_COMPLETE: A force completes and the region enters wiping (R273). -/
  | forceComplete (region : Fin 64)
  /-- FORCE_OVERRUN: A force not complete in 20 µs is reported as a cluster failure (R273). -/
  | forceOverrun (region : Fin 64) (cluster : ClusterId)
  /-- WIPING_DONE: When the wipes end and the 64 µs gap has passed, the region becomes ready (R263). -/
  | wipingDone (region : Fin 64)
  /-- CLIENT_ADMIT: Checks and fills a client entry, zeroes its rings, sets valid and writes its classification (R335). -/
  | clientAdmit (own : Option (List Byte)) (entries : List (Nat × Word × Word × Word)) (upset : List Upset) (mid : Bool)
  /-- CLIENT_REMOVE: Withdraws a client's classification entries and starts waiting for its traffic to drain (R266). -/
  | clientRemove (own : Option (List Byte))
  /-- CLIENT_REMOVE_COMPLETE: Once deliveries and egress are drained, or after 1 ms, the entry's valid clears (R266). -/
  | clientRemoveComplete (client : Fin 1024)
  /-- CLI_SEED_WRITE: Writes a client seed only while valid is 0 (R266). -/
  | cliSeedWrite (client : Fin 1024) (seed : Word)
  /-- INGRESS_DELIVERY: A waiting frame is delivered into a client's ingress ring, or dropped (R269). -/
  | ingressDelivery (port : Fin 16)
  /-- INGRESS_PROMOTION: A client whose oldest frame has waited promote_age is promoted for one delivery (R275). -/
  | ingressPromotion (port : Fin 16) (client : Fin 1024)
  /-- EGRESS_POLL: A port reads a client's egress tail word at its poll interval (R270). -/
  | egressPoll (client : Fin 1024)
  /-- EGRESS_FRAME_SEND: A port sends an egress frame and advances the done word (R270). -/
  | egressFrameSend (client : Fin 1024)
  /-- ENERGY_ESTIMATE: Every microsecond each cluster estimates each core's energy and adds it to region and client counters (R383). -/
  | energyEstimate (cluster : ClusterId) (counts : List (List Nat))
  /-- ENERGY_RECONCILE: Every millisecond a cluster reconciles its estimate with its rail reading (R383). -/
  | energyReconcile (cluster : ClusterId)
  /-- PORT_MODE_WRITE: Stages a port mode for the next block reset, or refuses it and sets mode_err (R281). -/
  | portModeWrite (port : Fin 16) (mode : Fin 4)
  /-- PORT_BLOCK_RESET: Drains the gateway, idles the transmitters, clears the link and starts training in the staged mode (R289). -/
  | portBlockReset (port : Fin 16)
  /-- PORT_RESET_TIMEOUT: A block reset whose gateway has not drained discards its flits and sets gw_forced (R289). -/
  | portResetTimeout (port : Fin 16)
  /-- PORT_ADMIT_WRITE: Sets the admission bit for a port with a valid, non-loopback partner (R298). -/
  | portAdmitWrite (port : Fin 16) (on : Bool)
  /-- LANE_GROUP_TRAINING_TIMEOUT: A lane group that does not finish a bring-up step in time is failed (R285). -/
  | laneGroupTrainingTimeout (port : Fin 16) (group : Fin 8) (stage : Fin 4)
  /-- LINK_INIT_COMPLETE: Both ends agree the width and the link comes up with escape traffic only (R285). -/
  | linkInitComplete (port : Fin 16) (good : List (Fin 8)) (peer : List (Fin 8)) (alloc : List Nat) (adapted : List Nat)
  /-- FEC_WINDOW_CHECK: A group's corrected-symbol count in a 1 ms window is tested and may start a retrain (R287). -/
  | fecWindowCheck (port : Fin 16) (group : Fin 8)
  /-- GROUP_RETRAIN_COMPLETE: A retrained group finishes and the link widens at the next agreed block (R287). -/
  | groupRetrainComplete (port : Fin 16) (group : Fin 8)
  /-- GROUP_RETRAIN_TIMEOUT: A group not retrained in 50 ms is failed and the link stays narrow (R287). -/
  | groupRetrainTimeout (port : Fin 16) (group : Fin 8)
  /-- LINK_BLOCK_RECEIVE: A link block is received, checked and its flits accepted, or discarded with a nak (R292). -/
  | linkBlockReceive (port : Fin 16) (block : LinkBlock)
  /-- GATEWAY_RESERVATION: A reservation reaches a gateway and is queued or answered with a retry (R293). -/
  | gatewayReservation (idx : Nat)
  /-- GATEWAY_GRANT: A queued reservation is granted once its class buffer has room (R319). -/
  | gatewayGrant (idx : Nat)
  /-- RESERVATION_RETRY: A source resends a refused reservation after 1 µs (R293). -/
  | reservationRetry (idx : Nat)
  /-- GATEWAY_HOLD_LIMIT: Flits held during a retrain beyond hold_limit are discarded (R295). -/
  | gatewayHoldLimit (port : Fin 16)
  /-- HELLO_SEND: A port in fabric mode sends a hello each interval (R296). -/
  | helloSend (port : Fin 16)
  /-- HELLO_RECEIVE: A received hello records the partner and reports appearance, change or loopback (R297). -/
  | helloReceive (port : Fin 16) (idx : Nat)
  /-- PEER_LOSS: Missing hellos for loss_count intervals lose the peer and clear the admission bit (R297). -/
  | peerLoss (port : Fin 16)
  /-- ETH_FRAME_RECEIVE: An Ethernet frame is checked, parsed, classified and queued, passed on or discarded (R299). -/
  | ethFrameReceive (port : Fin 16) (link : Fin 8) (bytes : List Byte) (fcsOk : Bool) (sub : Fin 40)
  /-- ETH_LINK_STATE_CHANGE: An Ethernet link going up or down moves its clients' egress to another link (R305). -/
  | ethLinkStateChange (port : Fin 16) (link : Fin 8) (up : Bool) (found : EthFound)
  /-- PORT_CLS_CMD_WRITE: Copies the staging registers into a classification entry atomically, or refuses reserved values (R302). -/
  | portClsCmdWrite (value : Word)
  /-- PTP_TX_TAG_READ: Removes the egress timestamp queue head and latches its time (R307). -/
  | ptpTxTagRead (port : Fin 16)
  /-- FABRIC_PACKET_ARRIVAL: A fabric packet arrives, is age and hop checked, and is routed by dimension order or delivered (R316). -/
  | fabricPacketArrival (port : Fin 16) (idx : Nat)
  /-- ESCAPE_PACKET_ARRIVAL: An escape packet follows its carried route or is delivered to the Scribe (R321). -/
  | escapePacketArrival (port : Fin 16) (idx : Nat)
  /-- GATEWAY_READ_REPRESENT: A stored fabric read unit is presented again after 1 µs (R324). -/
  | gatewayReadRepresent (port : Fin 16) (idx : Nat)
  /-- ENTERING_PROMOTION: An entering reservation waiting promote_age is promoted ahead of later continuing ones (R320). -/
  | enteringPromotion (idx : Nat)
  /-- FAB_RT_WRITE: Writes a routing-table entry, ignored for the version in force or while not idle (R327). -/
  | fabRtWrite (version : Fin 2) (dim : Fin 4) (coord : Fin 4096) (value : Word)
  /-- FAB_EPOCH_AT_WRITE: Arms a routing epoch switch at a time (R328). -/
  | fabEpochAtWrite (time : Word)
  /-- EPOCH_SWITCH: At the armed tick the epoch bit inverts and fm_epoch takes the staged value (R328). -/
  | epochSwitch
  /-- EPOCH_IDLE: max_life after a switch, idle sets and the other version may be written (R327). -/
  | epochIdle
  /-- CMAP_SEND: Each cmap_interval a port sends its partner its congestion levels (R329). -/
  | cmapSend (port : Fin 16)
  /-- CMAP_RECEIVE: A received congestion map updates FAB_CMAP (R329). -/
  | cmapReceive (port : Fin 16) (idx : Nat)
  /-- CMAP_STALE: With no map for four intervals the partner's levels are taken as 3 (R329). -/
  | cmapStale (port : Fin 16)
  /-- TIME_TRANSFER_SEND: Each tt_interval a port sends a timestamped time-transfer packet (R330). -/
  | timeTransferSend (port : Fin 16) (sub : Fin 40)
  /-- TIME_TRANSFER_RECEIVE: A time-transfer packet yields offset and delay and steers the counter on the parent port (R330). -/
  | timeTransferReceive (port : Fin 16) (idx : Nat) (sub : Fin 40)
  /-- TIME_PARENT_LOSS: No time packet on the parent for four intervals clears locked and holds over (R331). -/
  | timeParentLoss
  /-- MGMT_FRAME_RECEIVE: A management frame arrives, is authenticated and sequenced, or discarded (R341). -/
  | mgmtFrameReceive (iface : Fin 2) (addr : Fin 65536) (bytes : List Byte)
  /-- SEQUENCE_GAP_TIMEOUT: Requests waiting for a sequence gap 100 ms are discarded (R343). -/
  | sequenceGapTimeout (iface : Fin 2) (session : Fin 5)
  /-- SESSION_OPEN: Opens an authenticated session by signed ECDH exchange (R342). -/
  | sessionOpen (fresh : Nat)
  /-- SESSION_CLOSE: Ends a management session (R342). -/
  | sessionClose
  /-- STATUS: Returns lifecycle, start-OK, failed-start count and fault summary (R343). -/
  | status
  /-- IMAGE_CHUNK: Stages part of a container, a chunk at offset 0 starting a new load (R408). -/
  | imageChunk
  /-- IMAGE_COMMIT: Checks and verifies a staged container and applies it, or rejects it whole (R407). -/
  | imageCommit
  /-- IMAGE_ABORT: Discards a load in progress (R408). -/
  | imageAbort
  /-- COLOPHON: Accepts a device-bound licence or rejects it naming the failed check (R2). -/
  | colophon
  /-- REPAIR_LIST: Accepts or refuses the field repair list (R417). -/
  | repairList
  /-- REG_READ: Reads 1 to 64 management addresses with poison and not-performed masks (R473). -/
  | regRead (slow : Option Nat) (upset : List Upset)
  /-- REG_WRITE: Writes 1 to 64 management addresses in order (R473). -/
  | regWrite (slow : Option Nat)
  /-- REGISTER_WRITE: A write to a register with no row of its own acts on each field by its type (R12). -/
  | registerWrite (core : Fin 16) (addr : Word) (value : Word)
  /-- BINDING_SET: Sets a ready region's fabric binding or refuses it (R336). -/
  | bindingSet (region : Fin 64) (binding : Fin 256) (dev : Fin 262144) (rgn : Fin 64) (gen : Fin 256) (x : Fin 128) (y : Fin 128) (ep : Fin 64) (cls : Fin 8)
  /-- COUNTER_SNAP: Arms a counter snap at a target time from the management controller (R439). -/
  | counterSnap
  /-- LOG_READ: Returns up to 250 event-log entries from a first sequence number (R443). -/
  | logRead (bad : Bool)
  /-- FM_ENABLE: Turns on the fabric-manager role and names the managed devices (R339). -/
  | fmEnable (devices : List Nat) (sends : List FmSend)
  /-- FM_TRUST: Names the EUI-64 of the fabric manager this device obeys (R340). -/
  | fmTrust
  /-- FM_COMMAND_ARRIVAL: A fabric-manager command arrives and is executed if its source is trusted (R339). -/
  | fmCommandArrival (idx : Nat) (writes : List (Word × Word)) (reset : Bool)
  /-- JOB_RESET_ARRIVAL: A forwarded job reset resets its region only if the generation matches (R337). -/
  | jobResetArrival (idx : Nat)
  /-- DEVICE_RESET: Resets the device, or changes lifecycle state when the payload names one (R412). -/
  | deviceReset (target : Option (Fin 5)) (eui : Option Word)
  /-- FREEZE: Sets the freeze tick from a management message (R444). -/
  | freeze
  /-- SCRIBE_FRAME_RECEIVE: A frame reaching the Scribe is answered, passed to a ring, or discarded (R338). -/
  | scribeFrameReceive (act : ScrAct)
  /-- SCR_MC_KEY_WRITE: Writes the controller public key over I3C while unlocked (R342). -/
  | scrMcKeyWrite (word : Fin 12) (value : Word)
  /-- WATCHDOG_KICK: Restarts and arms a Scribe core's watchdog (R344). -/
  | watchdogKick (core : Fin 16) (value : Word)
  /-- WATCHDOG_EXPIRY: An expiring watchdog resets its core or the device (R344). -/
  | watchdogExpiry (core : Fin 16) (acks : Bool)
  /-- START_OK: Firmware declares start-OK, stopping the start timer and clearing failed starts (R399). -/
  | startOk
  /-- RST_DEVICE_RESET: A write of RST_CTRL.device_reset resets the device with cause 0x2 (R388). -/
  | rstDeviceReset
  /-- EXEMPLAR_COMMIT: Checks and accepts a staged exemplar record, or sets stage_err (R430). -/
  | exemplarCommit
  /-- EXEMPLAR_CLEAR_ALL: Discards every held exemplar record (R430). -/
  | exemplarClearAll
  /-- EXEMPLAR_RUN: The Scribe runs a held exemplar on idle cores or on a ready region (R431). -/
  | exemplarRun (id : Word) (cores : List CoreId) (region : Option (Fin 64))
  /-- EXEMPLAR_RUN_END: An exemplar run ends and passes or fails, repeating or failing the core (R432). -/
  | exemplarRunEnd (idx : Nat) (clean : Unit) (digest : Unit)
  /-- DETECTED_ERROR_REPORT: A detected-error report reaches the Scribe and adds to the core's suspect score (R419). -/
  | detectedErrorReport (core : CoreId)
  /-- SUSPECT_SCORE_HALVING: Every window_h hours each suspect score halves (R419). -/
  | suspectScoreHalving
  /-- FAILED_CORE_PROCEDURE: The failed core's region and job are reset and the failure reported (R421). -/
  | failedCoreProcedure (core : CoreId)
  /-- REPAIR_REMAP: Once the region is ready, the spare replaces the core and mesh links are rewritten (R421). -/
  | repairRemap (core : CoreId)
  /-- CHECK_VOTE: A primary's packet is released, corrected or poisoned once its mirrors' digests arrive (R427). -/
  | checkVote (fab : Bool) (idx : Nat) (own : Unit) (digests : List Digest)
  /-- VOTE_DIGEST_TIMEOUT: A digest missing for vote_limit counts as a differing copy (R427). -/
  | voteDigestTimeout (fab : Bool) (idx : Nat) (own : Unit) (digests : List (Option Digest))
  /-- CLK_FREQ_AT_WRITE: Arms a frequency change at a time (R348). -/
  | clkFreqAtWrite (value : Word)
  /-- CLK_FREQ_TARGET_WRITE: Sets a manual-mode target, clamping it to the permitted range (R378). -/
  | clkFreqTargetWrite (value : Word)
  /-- FREQUENCY_SLEW_START: At the armed tick the seed PLL slews to the target and the wave follows (R348). -/
  | frequencySlewStart
  /-- CROSSING_SWEEP: A replica sweep completes and the crossing's margin is measured (R352). -/
  | crossingSweep (cluster : ClusterId) (side : Fin 4) (a : Fin 512) (b : Fin 512)
  /-- REFERENCE_LOSS: A cluster PLL losing its reference holds over and switches to its alternate parent (R355). -/
  | referenceLoss (cluster : ClusterId)
  /-- PLL_RELOCK: After relock each crossing of the cluster retrains from a fresh sweep (R356). -/
  | pllRelock (cluster : ClusterId) (sweeps : List (ClusterId × Fin 4 × Fin 512 × Fin 512))
  /-- HOLDOVER_TIMEOUT: A cluster in holdover 1 ms without an alternate is reported failed (R356). -/
  | holdoverTimeout (cluster : ClusterId)
  /-- REFCLK_LOSS: Loss of REFCLK puts the seed, time base and management PLLs in holdover and asserts FAULT_N (R357). -/
  | refclkLoss
  /-- REFCLK_RETURN: REFCLK returns, the seed relocks and FAULT_N is released (R357). -/
  | refclkReturn
  /-- TIME_NS_READ: Reading TIME_NS returns the count and latches the seconds for the reader (R361). -/
  | timeNsRead (reader : Fin 18)
  /-- TIME_STAGE_ARM: Arms a staged commit of time and rate, or refuses it with stage_err (R362). -/
  | timeStageArm (value : Word)
  /-- TIME_COMMIT: At the commit tick the counter and rate take the staged values (R362). -/
  | timeCommit
  /-- PPS_IN_EDGE: A PPS_IN rising edge is timestamped and steers or steps the counter (R364). -/
  | ppsInEdge (sub : Fin 40)
  /-- PPS_IN_LOSS: No accepted edge for 2 s sets pps_lost and holdover (R364). -/
  | ppsInLoss
  /-- PPS_OUT_PULSE: PPS_OUT rises at the tick where TIME_NS returns to 0 (R365). -/
  | ppsOutPulse
  /-- PPS_OUT_END: PPS_OUT falls after pps_width milliseconds (R365). -/
  | ppsOutEnd
  /-- AVS_FRAME: Each 100 µs frame reads a row's currents and a voltage and serves queued rail writes (R369). -/
  | avsFrame (bus : Fin 13) (amps : List (Option Nat)) (volts : List (Option Nat)) (answered : List Bool)
  /-- RAIL_FAULT: A rail with three failed transactions or a fault status is faulted (R370). -/
  | railFault (bus : Fin 13) (rail : Fin 12) (reported : Bool)
  /-- VOLTAGE_LOOP_DECISION: Every 10 µs a cluster's loop raises, lowers or holds its rail (R372). -/
  | voltageLoopDecision (cluster : ClusterId) (slack : Nat) (lowerOk : Bool)
  /-- DROOP_DETECT: A cluster's supply departing from command triggers boost, skipping or shunt (R375). -/
  | droopDetect (cluster : ClusterId) (below : Int) (negative : Bool) (clocks : Nat) (paced : Bool)
  /-- HINT_RAIL_RAISE: With 3 µs lead before an announced rise, the cluster raises its rail (R376). -/
  | hintRailRaise (cluster : ClusterId) (activity : Fin 17) (answered : Bool)
  /-- BOOST_PRECHARGE: 200 ns before an announced rise, the cluster charges its boost reservoir (R376). -/
  | boostPrecharge (cluster : ClusterId) (activity : Fin 17)
  /-- HINT_RAIL_RETURN: 10 µs after an announced phase ends the rail returns to its loop (R376). -/
  | hintRailReturn (cluster : ClusterId) (answered : Bool)
  /-- PWR_MODE_WRITE: Selects fixed, governed or manual mode for the next governor period, refusing manual outside Maintenance (R377). -/
  | pwrModeWrite (mode : Fin 4)
  /-- GOVERNOR_PERIOD: Each period the governor chooses the frequency and starts a raise or lowering (R379). -/
  | governorPeriod
  /-- RAISE_SETTLE_ELAPSED: settle_us after the last rail write the frequency change is armed (R380). -/
  | raiseSettleElapsed
  /-- PEAK_LIMITER: An estimate above peak_w, or above sustain_w too long, paces every region (R381). -/
  | peakLimiter (rest : Nat) (eighths : Fin 8)
  /-- CLUSTER_CURRENT_LIMIT: A cluster rail above ilim_a over 100 µs paces its region (R381). -/
  | clusterCurrentLimit (cluster : ClusterId) (reading : Unit) (eighths : Fin 8)
  /-- TEMPERATURE_READ: Every 10 µs sensors are read and refresh, throttle or trip acts (R384). -/
  | temperatureRead (cluster : Option ClusterId) (celsius : Fin 256)
  /-- COOLANT_OK_LOW: COOLANT_OK low for 2 µs stops the device (R385). -/
  | coolantOkLow
  /-- ISLAND_RESTART: The AOI_CMD restart command restarts a stopped device once conditions hold (R386). -/
  | islandRestart
  /-- POWER_ON: VDD_AON entering its limits releases the island, which applies fuse states and sequences the rails (R457). -/
  | powerOn (coolant : Bool) (resetN : Bool)
  /-- RAIL_RAMP_TIMEOUT: A rail not within limits 10 ms after its enable is faulted (R458). -/
  | railRampTimeout (bus : Fin 13) (rail : Fin 12)
  /-- RESET_N_ASSERT: A low of 1 µs or longer on RESET_N starts a device reset (R390). -/
  | resetNAssert
  /-- RESET_N_HELD: RESET_N still low after 10 s sets held_latched and logs it (R390). -/
  | resetNHeld
  /-- RESET_EXIT: After every reset source releases, the device begins bring-up or Minimal Recovery Mode (R401). -/
  | resetExit (seen : ExitSeen) (bad : Bool)
  /-- BRINGUP_PHASE_COMPLETE: A bring-up phase ends when its work is done and the next begins (R395). -/
  | bringupPhaseComplete (found : Bringup)
  /-- PHASE_LIMIT_EXCEEDED: A phase exceeding its limit ends the start without start-OK (R395). -/
  | phaseLimitExceeded
  /-- START_TIMER_EXPIRY: The 120 s start timer expires before start-OK and the start fails (R400). -/
  | startTimerExpiry
  /-- SNAP_AT_WRITE: A write of DBG_SNAP_AT arms or replaces a counter snap (R439). -/
  | snapAtWrite (time : Word)
  /-- SNAP_COPY: At the snap time every counter copies into its shadow (R439). -/
  | snapCopy
  /-- FIRMWARE_LOG_WRITE: A write of AOI_LOG_WR logs a firmware entry (R450). -/
  | firmwareLogWrite (value : Word) (bad : Bool)
  /-- FREEZE_N_LOW: A low of 1 µs or longer on FREEZE_N sets the freeze tick (R444). -/
  | freezeNLow
  /-- FREEZE_TICK: At the freeze tick every domain but the island stops and readout begins (R444). -/
  | freezeTick
  /-- DBG_BLOT_SEL_WRITE: Selects a blotter chain and sets its position to 0 (R447). -/
  | dbgBlotSelWrite (value : Word)
  /-- DBG_BLOT_DATA_READ: Returns the next 64 chain bits and advances the position (R447). -/
  | dbgBlotDataRead
  /-- EXTEST: JTAG boundary test, accepted only in reset or frozen (R449). -/
  | extest (pins : List Bool) (load : List Bool)
  /-- SAMPLE_PRELOAD: JTAG samples or preloads the boundary register (R449). -/
  | samplePreload (pins : List Bool) (load : List Bool)
  /-- IDCODE: JTAG selects the 32-bit identification register (R449). -/
  | idcode
  /-- CLAMP: JTAG clamps outputs, accepted only in reset or frozen (R449). -/
  | clamp
  /-- HIGHZ: JTAG places outputs in high impedance, accepted only in reset or frozen (R449). -/
  | highz
  /-- EXTEST_PULSE: IEEE 1149.6 AC test, accepted only in reset or frozen (R449). -/
  | extestPulse (pins : List Bool) (load : List Bool)
  /-- EXTEST_TRAIN: IEEE 1149.6 AC train test, accepted only in reset or frozen (R449). -/
  | extestTrain (pins : List Bool) (load : List Bool)
  /-- DBGREG: JTAG reads DBG_ and AOI_ registers, writing only while frozen or in reset (R449). -/
  | dbgreg (offset : Fin 65536) (value : Option Word)
  /-- BLOTTER: JTAG reads DBG_BLOT_DATA, acting as BYPASS in Service and Retired (R448). -/
  | blotter
  /-- BYPASS: JTAG selects the bypass register (R449). -/
  | bypass
  /-- TIME_BASE_TICK: At every time-base tick TIME_NS advances by 10 and, on reaching 10^9, returns to 0 while TIME_SEC advances by 1 (R359). -/
  | timeBaseTick
  /-- FREQUENCY_SLEW_END: A frequency slew reaches its target, clears CLK_STATUS.slewing and leaves freq_mhz at the target (R348). -/
  | frequencySlewEnd
  /-- COOLANT_OK_HIGH: COOLANT_OK having been high for 1 s lets the island raise PWR_EN0 at power-up and permits a restart after a stop (R457). -/
  | coolantOkHigh
  /-- SCRIBE_CORE_BLOCK_RESET_TIMEOUT: A Scribe core block reset whose core has not acknowledged within 1 ms resets the core regardless (R344). -/
  | scribeCoreBlockResetTimeout (core : Fin 16)
  /-- EXEMPLAR_OVERDUE: A core with no exemplar pass within cadence_h hours sets RGN_CHECK_STATUS.ex_overdue and is reported to the management controller (R432). -/
  | exemplarOverdue (core : CoreId)
  deriving DecidableEq, Repr

end Sys2Proof
end

