-- ==== Sys2Proof/Decode.lean ====
section
/-! DEFINITION. The command a word of the opcode table spells. Every row of the table has an empty list of fields: no row gives its
command any bits, so no word spells a command. -/

namespace Sys2Proof

/-- The command whose table bits are `w`: none, since no row of the table gives bits. -/
def decodeTableWord (_nbits _w : Nat) : Option Instr := none

end Sys2Proof
end

