-- ==== Sys2Proof/Config.lean ====
section
/-! DEFINITION. What an implementation fixes and the manual leaves open: constants with no body, so that no proof can see a value
of one. Each is named in a row of notes/assumptions. -/

namespace Sys2Proof

/-- The detail field of a trap for which the manual states none, from the trap code and the instruction word (R64, R65). (DESIGN CHOICE, log entry 9.) -/
opaque Config.trapDetail : Nat → Word → BitVec 27

/-- Whether the name of a core outside the region in a trap's detail has its x below its y (R27, R64): no layout is given. (DESIGN CHOICE, log entry 9.) -/
opaque Config.nameOrder : Bool

/-- The bits of that detail above the two coordinates. (DESIGN CHOICE, log entry 9.) -/
opaque Config.nameRest : BitVec 13

/-- The instruction index in the info of a trap that no instruction raised, from the trap's detail (R64). (DESIGN CHOICE, log entry 9.) -/
opaque Config.trapIndex : Nat → BitVec 13

/-- What vx.fn writes should its enclosure not decide the rounding (R129): never used where the enclosure decides. (DESIGN CHOICE, log entry 16.) -/
opaque Config.fnUndecided : Nat → BitVec 32 → BitVec 32

/-- The bytes that fill out the last word of a cp.rput run whose length is not a multiple of eight, by the byte's place in the word (R205). (DESIGN CHOICE, log entry 18.) -/
opaque Config.padByte : Nat → Byte

/-- The drop code of a message that reaches a landing record whose target takes none (R186, R212). (DESIGN CHOICE, log entry 26.) -/
opaque Config.dropCode : Nat → BitVec 8

/-- The sequence number that the record of a dropped read request carries, by its requesting endpoint (R189, R212). (DESIGN CHOICE, log entry 26.) -/
opaque Config.readSeq : Nat → BitVec 16

/-- How far a cluster's interpolated counter stands from the Global Time Counter at a tick, in nanoseconds, offset by 4: the manual bounds
it to 4 ns either way and gives no value (R360, R366). By the cluster and the count of the tick. (DEDUCED, log entry 31.) -/
opaque Config.timeSkew : Nat → Nat → Fin 9

/-- The EUI-64 in the fuse array (FUSE_EUI): each part has its own. (DESIGN CHOICE, log entry 100.) -/
opaque Config.eui : Word

/-- The escape route by which the firmware sends a message to a device, by the device and the nanoseconds since power-on: the fabric manager computes it (R321, R339). (DESIGN CHOICE, log entry 117.) -/
opaque Config.escRoute : Nat → Nat → List Nat

/-- The bytes of the 16-byte message header by its fields, in order, and their place: the manual names the fields and not their bits (R188). (PRESUMED, log entry 121.) -/
opaque Config.messageByte : List Nat → Nat → Byte

/-- The bytes of a flit slot that no layout of the manual gives, by their place (R290): the packet's own past its headers, and those of a null flit. (PRESUMED, log entry 121.) -/
opaque Config.flitByte : Nat → Byte

/-- How a halved time-transfer offset or delay is rounded to a quarter nanosecond (R330): what is added before the halving is rounded down. (DESIGN CHOICE, log entry 48.) (DESIGN CHOICE, log entry 132.) -/
opaque Config.halfRound : Int → Fin 2

/-- The rate that a steering source sets, from the error it has measured in quarter nanoseconds and the rate in force (R359, R364): the manual gives the
limits of the rate and no control law. (DESIGN CHOICE, log entry 48.) -/
opaque Config.steer : Int → Int → Int

/-- The window that a crossing's replica path passes, by cluster, side and the timers' nanoseconds (R352, R356): the first setting and the last. (DEDUCED, log entry 61.) -/
opaque Config.replica : Nat → Nat → Nat → Fin 512 × Fin 512

/-- The forecast power in watts at a frequency in MHz, from the readings of the rails and the on-die estimate in watts, the sum of the announced levels of all
clusters in sixteenths and the frequency in force (R376, R379): the manual names these inputs and gives no formula. (DESIGN CHOICE, log entry 65.) -/
opaque Config.forecast : Nat → Nat → Nat → Nat → Nat → Nat

/-- The eighths of clocks that a region's cap asks, from the region's power in watts, its cap and the eighths in force (R278): the manual gives no formula. (DESIGN CHOICE, log entry 68.) -/
opaque Config.capPacing : Nat → Nat → Nat → Fin 8

/-- How many of copies A, B and C hold the new value of a lifecycle change that a reset or a stop has interrupted, by the island's nanoseconds (R413). (DESIGN CHOICE, log entry 155.) -/
opaque Config.blown : Nat → Fin 4

/-- The failed position of each physical row in the factory map of the fuse array, 7 for none (R416): each part has its own. (DESIGN CHOICE, log entry 100.) -/
opaque Config.factoryQx : Nat → Fin 8

/-- The digest SHA-384 of a list of bytes, as 48 bytes (FIPS 180-4). (DESIGN CHOICE, log entry 99.) -/
opaque Config.sha384 : List (BitVec 8) → List (BitVec 8)

/-- Whether a signature verifies: the algorithm (0 ECDSA P-384, 1 ML-DSA-87), the public key, the message and the signature (FIPS 186-5, FIPS 204). (DESIGN CHOICE, log entry 99.) -/
opaque Config.verifies : Nat → List (BitVec 8) → List (BitVec 8) → List (BitVec 8) → Bool

/-- Whether a digest is that of a Wiarn firmware key in the boot ROM (R405). (DESIGN CHOICE, log entry 99.) -/
opaque Config.firmwareKey : List (BitVec 8) → Bool

/-- Whether a digest is that of a Wiarn firmware key that signs factory device images (R411). (DESIGN CHOICE, log entry 99.) -/
opaque Config.factoryKey : List (BitVec 8) → Bool

/-- The first word of Scribe SRAM and the first line of a region core's reservoir of the space where containers are staged (R408): 48 MiB of 64, and 64 MiB of 160.
(DESIGN CHOICE, log entry 157.) -/
opaque Config.stageWord : Fin 2097153

/-- The first such line. (DESIGN CHOICE, log entry 157.) -/
opaque Config.stageLine : Fin 1572865

/-- Whether a message is signed by Wiarn's licence key or an exemplar key of the boot ROM (R2, R430): the kind of key, the message and the signature. (DESIGN CHOICE, log entry 99.) -/
opaque Config.wiarnSigned : Nat → List (BitVec 8) → List (BitVec 8) → Bool

/-- The die revision, the manufacturer's identity and the other bits of the fuse array that DBG_ID reads (R449, R450). (DESIGN CHOICE, log entry 100.) -/
opaque Config.debugId : Word

/-- The length of each blotter chain in bits (R447, R450). (DESIGN CHOICE, log entry 88.) -/
opaque Config.blotLen : Nat → BitVec 32

/-- The bit that a blotter chain holds at a position once the device is frozen (R447), by the time of the freeze as the block's timers count it. (DESIGN CHOICE, log entry 88.) -/
opaque Config.blotBit : Nat → Nat → Nat → Bool

/-- What a register held in copies reads as when no two copies that pass parity agree (R435), by its address. (DESIGN CHOICE, log entry 83.) -/
opaque Config.copyValue : Nat → Word

/-- The value that a management frame of an established session decrypts to, if its tag holds: the session key, the nonce, the additional data and the
ciphertext with its tag (R341; NIST SP 800-38D). (DESIGN CHOICE, log entry 99.) -/
opaque Config.gcmOpen : Nat → List (BitVec 8) → List (BitVec 8) → List (BitVec 8) → Option (List (BitVec 8))

/-- What a management frame of an established session encrypts to, with its tag. (DESIGN CHOICE, log entry 99.) -/
opaque Config.gcmSeal : Nat → List (BitVec 8) → List (BitVec 8) → List (BitVec 8) → List (BitVec 8)

/-- The keys of a session, from the controller's ephemeral key and the choice of the device's own (R342). (DESIGN CHOICE, log entry 98.) -/
opaque Config.sessionKey : List (BitVec 8) → Nat → Nat

/-- The body of the reply to SESSION_OPEN after the session's number, from the same two: the device's ephemeral key, its certificate and its signature over both
keys (R342). (DESIGN CHOICE, log entry 98.) -/
opaque Config.openReply : List (BitVec 8) → Nat → List (BitVec 8)

/-- The detail word of the log's entry for a failed exemplar, from its identifier and the physical core (R442): no layout is given. (DESIGN CHOICE, log entry 83.) -/
opaque Config.exemplarDetail : Word → Nat → Word

/-- The detail word of the log's entries for configuration copies, from the register's address (R442): no layout is given. (DESIGN CHOICE, log entry 83.) -/
opaque Config.copyDetail : Nat → Word

end Sys2Proof
end

