-- ==== Sys2Proof/Machine/Formats.lean ====
section
/-! DEFINITION. The element formats, their decoding, the rounding of an exact value into a format, the seeded draw of stochastic
rounding and the MX blocks (chapter 04, R75 to R78 and R89 to R97). Every value is an exact dyadic number, an infinity or
a NaN, so nothing is rounded before the one rounding a rule names. -/

namespace Sys2Proof.Machine

/-- An exact value: the signed number `m` times two to the `e`, an infinity, or a NaN (R76). The sign of a zero is kept. -/
inductive Num where
  | fin (neg : Bool) (m : Nat) (e : Int)
  | inf (neg : Bool)
  | nan
  deriving DecidableEq, Repr

/-- Whether a value is a NaN. -/
def Num.isNan : Num → Bool
  | .nan => true
  | _ => false

/-- Whether a value is an infinity. -/
def Num.isInf : Num → Bool
  | .inf _ => true
  | _ => false

/-- Whether a value is a zero of either sign. -/
def Num.isZero : Num → Bool
  | .fin _ m _ => m == 0
  | _ => false

/-- The sign of a value, true for negative. -/
def Num.neg : Num → Bool
  | .fin n _ _ => n
  | .inf n => n
  | .nan => false

/-- The value with the opposite sign. -/
def Num.negate : Num → Num
  | .fin n m e => .fin (!n) m e
  | .inf n => .inf (!n)
  | .nan => .nan

/-- The fields of a floating-point format: exponent bits, mantissa bits, bias, and whether it has an infinity and a NaN (R75). -/
structure FloatFmt where
  ebits : Nat
  mbits : Nat
  bias : Int
  hasInf : Bool
  hasNan : Bool
  deriving DecidableEq, Repr

/-- What a format code names (R75). -/
inductive FmtKind where
  | float (f : FloatFmt)
  | int (bits : Nat) (step : Int)
  | ls96
  | reserved
  deriving DecidableEq, Repr

/-- The format of a code (R75). -/
def fmtKind (code : Nat) : FmtKind :=
  match code with
  | 0 => .float ⟨8, 23, 127, true, true⟩
  | 1 => .float ⟨8, 7, 127, true, true⟩
  | 2 => .float ⟨5, 10, 15, true, true⟩
  | 3 => .float ⟨4, 3, 7, false, true⟩
  | 4 => .float ⟨5, 2, 15, true, true⟩
  | 5 => .int 8 0
  | 6 => .int 32 0
  | 7 => .ls96
  | 8 => .float ⟨2, 1, 1, false, false⟩
  | 9 => .float ⟨2, 3, 1, false, false⟩
  | 10 => .float ⟨3, 2, 3, false, false⟩
  | 11 => .int 8 (-6)
  | _ => .reserved

/-- The bits of one element of a format (R75). -/
def fmtBits (code : Nat) : Nat :=
  match code with
  | 0 => 32 | 1 => 16 | 2 => 16 | 3 => 8 | 4 => 8 | 5 => 8 | 6 => 32 | 7 => 128
  | 8 => 4 | 9 => 6 | 10 => 6 | 11 => 8 | _ => 0

/-- Whether a code is one of the block formats, which carry a shared scale (R77). -/
def isMx (code : Nat) : Bool := decide (8 ≤ code) && decide (code ≤ 11)

/-- The base-2 logarithm of the smallest step of a format (R75, R87). -/
def fmtStep (code : Nat) : Int :=
  match fmtKind code with
  | .float f => 1 - f.bias - f.mbits
  | .int _ s => s
  | _ => 0

/-- The value of a floating-point field (R76). -/
def decodeFloat (f : FloatFmt) (bits : Nat) : Num :=
  let m := bits % 2 ^ f.mbits
  let e := bits / 2 ^ f.mbits % 2 ^ f.ebits
  let s := decide (bits / 2 ^ (f.mbits + f.ebits) % 2 = 1)
  let ones := 2 ^ f.ebits - 1
  if f.hasInf && decide (e = ones) then (if m = 0 then .inf s else .nan)
  else if !f.hasInf && f.hasNan && decide (e = ones) && decide (m = 2 ^ f.mbits - 1) then .nan
  else if e = 0 then .fin s m (1 - f.bias - f.mbits)
  else .fin s (2 ^ f.mbits + m) ((e : Int) - f.bias - f.mbits)

/-- The value of an element field of a format, before any block scale (R75, R76). -/
def decodeElem (code bits : Nat) : Num :=
  match fmtKind code with
  | .float f => decodeFloat f bits
  | .int n step =>
    let v := signedOf n bits
    .fin (decide (v < 0)) v.natAbs step
  | _ => .nan

/-- The value of a block element under its scale byte; 0xFF makes it a NaN (R78). -/
def scaleElem (v : Num) (scale : Nat) : Num :=
  if scale = 0xFF then .nan
  else match v with
    | .fin s m e => .fin s m (e + (scale : Int) - 127)
    | x => x

/-- The canonical NaN of a format; the integer formats receive zero (R76, R91). -/
def canonicalNan (code : Nat) : Nat :=
  match code with
  | 0 => 0x7FC00000 | 1 => 0x7FC0 | 2 => 0x7E00 | 3 => 0x7F | 4 => 0x7E | _ => 0

/-! The sticky flags, as the low six bits of the flag registers (R97). -/

/-- spill. -/
def flagSpill : BitVec 6 := 1
/-- range. -/
def flagRange : BitVec 6 := 2
/-- inexact. -/
def flagInexact : BitVec 6 := 4
/-- overflow. -/
def flagOverflow : BitVec 6 := 8
/-- nan_out. -/
def flagNanOut : BitVec 6 := 16
/-- poison. -/
def flagPoison : BitVec 6 := 32

/-- `f` if `b`, no flag otherwise. -/
def flagIf (b : Bool) (f : BitVec 6) : BitVec 6 := if b then f else 0

/-- A rounding mode with its draw: the mode code of R89, and in mode 5 the 24-bit draw of R93. -/
structure RMode where
  code : Nat
  draw : Nat
  deriving DecidableEq, Repr

/-- Which of the neighbours `k` and `k + 1` a mode chooses for the magnitude `m·2^e` lying between `k·2^q` and `(k + 1)·2^q`,
where `r` of `d` parts lie above `k` (R89, R94). -/
def chooseUp (r : RMode) (neg : Bool) (k num den : Nat) : Bool :=
  match r.code with
  | 0 => decide (den < 2 * num) || (decide (2 * num = den) && decide (k % 2 = 1))
  | 1 => false
  | 2 => !neg
  | 3 => neg
  | 4 => decide (k % 2 = 0)
  | 5 => decide (2 ^ 24 ≤ num * 2 ^ 24 / den + r.draw)
  | _ => false

/-- The magnitude `m·2^e` as a count of steps `2^q`: the count, rounded under the mode, and whether it was inexact (R89). -/
def roundSteps (r : RMode) (neg : Bool) (m : Nat) (e q : Int) : Nat × Bool :=
  if q ≤ e then (m * 2 ^ (e - q).toNat, false)
  else
    let den := 2 ^ (q - e).toNat
    let k := m / den
    let rem := m % den
    if rem = 0 then (k, false)
    else ((if chooseUp r neg k rem den then k + 1 else k), true)

/-- The floor of the base-2 logarithm of the magnitude `m·2^e`, for a nonzero `m`. -/
def log2Floor (m : Nat) (e : Int) : Int := (Nat.log2 m : Int) + e

/-- The infinity field of a format that has one. -/
def infBits (f : FloatFmt) (neg : Bool) : Nat := bit neg * 2 ^ (f.ebits + f.mbits) + (2 ^ f.ebits - 1) * 2 ^ f.mbits

/-- The largest finite field of a format (R75). -/
def maxBits (f : FloatFmt) (neg : Bool) : Nat :=
  let top := if f.hasInf then (2 ^ f.ebits - 1) * 2 ^ f.mbits - 1
    else if f.hasNan then 2 ^ (f.ebits + f.mbits) - 2
    else 2 ^ (f.ebits + f.mbits) - 1
  bit neg * 2 ^ (f.ebits + f.mbits) + top

/-- The magnitude of the largest finite value of a format, as a count of `2^e` (R75). -/
def maxMag (f : FloatFmt) : Nat × Int :=
  match decodeFloat f (maxBits f false) with
  | .fin _ m e => (m, e)
  | _ => (0, 0)

/-- Whether the magnitude `k·2^q` exceeds `m·2^e`. -/
def magGt (k : Nat) (q : Int) (m : Nat) (e : Int) : Bool :=
  if q ≤ e then decide (m * 2 ^ (e - q).toNat < k) else decide (m < k * 2 ^ (q - e).toNat)

/-- Whether an overflow under a mode and saturate bit gives the infinity rather than the largest finite value (R90). -/
def overflowToInf (r : RMode) (sat neg : Bool) : Bool :=
  if sat then false
  else match r.code with
    | 0 => true | 5 => true | 2 => !neg | 3 => neg | _ => false

/-- The field and flags an infinity of a format is written as (R90, R91). -/
def writeInf (code : Nat) (f : FloatFmt) (sat neg : Bool) : Nat × BitVec 6 :=
  if f.hasInf then (infBits f neg, 0)
  else if code = 3 && !sat then (canonicalNan 3, flagOverflow)
  else (maxBits f neg, flagOverflow)

/-- The field of the finite magnitude `k·2^q` of a format, `q` being the step of its binade or the subnormal step. -/
def packFloat (f : FloatFmt) (neg : Bool) (k : Nat) (q : Int) : Nat :=
  let s := bit neg * 2 ^ (f.ebits + f.mbits)
  if k = 0 then s
  else
    let l := Nat.log2 k
    let ex := (l : Int) + q
    if ex < 1 - f.bias then s + k
    else s + (ex + f.bias).toNat * 2 ^ f.mbits + ((if f.mbits ≤ l then k / 2 ^ (l - f.mbits) else k * 2 ^ (f.mbits - l)) - 2 ^ f.mbits)

/-- The field and flags that rounding the value `v` into a floating-point format gives (R89 to R91). A zero keeps its sign only
where `keepZero` says so (R127). -/
def roundFloat (code : Nat) (f : FloatFmt) (r : RMode) (sat keepZero : Bool) (v : Num) : Nat × BitVec 6 :=
  match v with
  | .nan => (canonicalNan code, flagNanOut)
  | .inf n => writeInf code f sat n
  | .fin n m e =>
    if m = 0 then (bit (n && keepZero) * 2 ^ (f.ebits + f.mbits), 0)
    else
      let q := max (log2Floor m e) (1 - f.bias) - f.mbits
      let (k, inex) := roundSteps r n m e q
      let (mm, me) := maxMag f
      if magGt k q mm me then
        if overflowToInf r sat n && (f.hasInf || decide (code = 3)) then
          ((if f.hasInf then infBits f n else canonicalNan code), flagOverflow ||| flagInexact)
        else (maxBits f n, flagOverflow ||| flagInexact)
      else (packFloat f n k q, flagIf inex flagInexact)

/-- The field and flags that rounding the value `v` into an integer format gives (R89 to R91). -/
def roundInt (n : Nat) (step : Int) (r : RMode) (v : Num) : Nat × BitVec 6 :=
  let top := 2 ^ (n - 1)
  let put (neg : Bool) (k : Nat) : Nat := if neg then (2 ^ n - k) % 2 ^ n else k
  match v with
  | .nan => (0, flagNanOut)
  | .inf neg => (put neg (if neg then top else top - 1), flagOverflow)
  | .fin neg m e =>
    let (k, inex) := roundSteps r neg m e step
    let lim := if neg then top else top - 1
    if lim < k then (put neg lim, flagOverflow ||| flagInexact) else (put neg k, flagIf inex flagInexact)

/-- The field and flags that rounding an exact value into the format of a code gives (R89 to R91, R95). -/
def roundTo (code : Nat) (r : RMode) (sat : Bool) (v : Num) : Nat × BitVec 6 :=
  match fmtKind code with
  | .float f => roundFloat code f r sat false v
  | .int n step => roundInt n step r v
  | _ => (0, 0)

/-- The draw of R93 from the seed, the key and the element index, all arithmetic modulo two to the 64. -/
def srDraw (seed key e : Word) : Nat :=
  let z0 := seed + key * 0x9E3779B97F4A7C15#64 + e * 0xC2B2AE3D27D4EB4F#64
  let once (z : Word) : Word :=
    let a := (z ^^^ (z >>> 30)) * 0xBF58476D1CE4E5B9#64
    let b := (a ^^^ (a >>> 27)) * 0x94D049BB133111EB#64
    b ^^^ (b >>> 31)
  fieldOf (once (once z0)) 40 24

/-- The mode an instruction's rounding code executes as: code 5 draws, and under the compatibility bit it is mode 0 (R38, R94). -/
def modeOf (compat : Bool) (rmode : Nat) (seed key e : Word) : RMode :=
  if rmode = 5 then (if compat then ⟨0, 0⟩ else ⟨5, srDraw seed key e⟩) else ⟨rmode, 0⟩

/-! Exact arithmetic on values. -/

/-- The exact product, with the class of R81 and the sign of R127. -/
def Num.mul (a b : Num) : Num :=
  match a, b with
  | .nan, _ => .nan
  | _, .nan => .nan
  | .inf s, .inf t => .inf (s != t)
  | .inf s, .fin t m _ => if m = 0 then .nan else .inf (s != t)
  | .fin s m _, .inf t => if m = 0 then .nan else .inf (s != t)
  | .fin s m e, .fin t n f => .fin (s != t) (m * n) (e + f)

/-- The integer `m·2^e` of a finite value in units of `2^q`, `q` being at most `e`. -/
def scaledInt (neg : Bool) (m : Nat) (e q : Int) : Int :=
  let k : Int := (m * 2 ^ (e - q).toNat : Nat)
  if neg then -k else k

/-- The exact sum, with the zero signs of R127. -/
def Num.add (a b : Num) : Num :=
  match a, b with
  | .nan, _ => .nan
  | _, .nan => .nan
  | .inf s, .inf t => if s = t then .inf s else .nan
  | .inf s, .fin _ _ _ => .inf s
  | .fin _ _ _, .inf t => .inf t
  | .fin s m e, .fin t n f =>
    if m = 0 && n = 0 then .fin (s && t) 0 0
    else
      let q := min e f
      let z := scaledInt s m e q + scaledInt t n f q
      .fin (decide (z < 0)) z.natAbs q

/-- The comparison of two values that are not NaN: whether the first is less than the second (R128). -/
def Num.lt (a b : Num) : Bool :=
  match a, b with
  | .nan, _ => false
  | _, .nan => false
  | .inf s, .inf t => s && !t
  | .inf s, .fin _ _ _ => s
  | .fin _ _ _, .inf t => !t
  | .fin s m e, .fin t n f => decide (scaledInt s m e (min e f) < scaledInt t n f (min e f))

/-- The equality of two values, false where either is a NaN (R128). -/
def Num.eqv (a b : Num) : Bool :=
  match a, b with
  | .nan, _ => false
  | _, .nan => false
  | .inf s, .inf t => s = t
  | .inf _, .fin _ _ _ => false
  | .fin _ _ _, .inf _ => false
  | .fin s m e, .fin t n f => decide (scaledInt s m e (min e f) = scaledInt t n f (min e f))

/-! MX blocks (R77, R78, R96). -/

/-- Element `i` of width `w` in a little-endian bit string (R77). -/
def bitStringElem (s w i : Nat) : Nat := s / 2 ^ (w * i) % 2 ^ w

/-- The elements of `n` fields of width `w` packed in a list of bytes. -/
def unpackElems (bs : List Byte) (w n : Nat) : List Nat :=
  let s := natOfBytes bs
  (List.range n).map (bitStringElem s w)

/-- The bytes that pack fields of width `w`, the first at the least significant end. -/
def packElems (xs : List Nat) (w : Nat) : List Byte :=
  let s := xs.foldr (fun x acc => x % 2 ^ w + 2 ^ w * acc) 0
  bytesOfNat (xs.length * w / 8) s

/-- The exponent of the largest finite value of an element format (R96). -/
def mxEmax (code : Nat) : Int :=
  match code with
  | 8 => 2 | 9 => 2 | 10 => 4 | _ => 0

/-- The floor of the base-2 logarithm of the largest magnitude among finite nonzero values, if there is one. -/
def maxLog2 (vs : List Num) : Option Int :=
  vs.foldl (fun acc v =>
    match v with
    | .fin _ m e => if m = 0 then acc else
        match acc with
        | none => some (log2Floor m e)
        | some a => some (max a (log2Floor m e))
    | _ => acc) none

/-- The scale byte of a block of values (R96). -/
def mxScale (code : Nat) (vs : List Num) : Nat :=
  if vs.any (fun v => v.isNan || v.isInf) then 0xFF
  else match maxLog2 vs with
    | none => 0
    | some l => min 254 (l - mxEmax code + 127).toNat

/-- The scale byte, the 32 element fields and the flags of a block conversion (R96); element `i` is rounded under `mode i`. -/
def mxBlock (code : Nat) (mode : Nat → RMode) (sat : Bool) (vs : List Num) : Nat × List Nat × BitVec 6 :=
  let sc := mxScale code vs
  if sc = 0xFF then (sc, vs.map (fun _ => 0), flagNanOut)
  else
    let rs := vs.zipIdx.map (fun (v, i) =>
      match v with
      | .fin s m e => roundTo code (mode i) sat (.fin s m (e - (sc : Int) + 127))
      | _ => (0, 0))
    (sc, rs.map Prod.fst, rs.foldl (fun f r => f ||| r.2) 0)

end Sys2Proof.Machine
end

