-- ==== Sys2Proof/Machine/Ls96.lean ====
section
/-! DEFINITION. LS96, the exact long-sum format: entries, records, terms and their addition (R79 to R88). -/

namespace Sys2Proof.Machine

/-- The class of an LS96 value (R79). -/
inductive LsClass where
  | finite | nan | pinf | ninf
  deriving DecidableEq, Repr

/-- An LS96 integer with its tag; the anchor is kept beside it (R79). -/
structure LsEntry where
  n : BitVec 96
  cls : LsClass
  spill : Bool
  range : Bool
  poison : Bool
  deriving DecidableEq, Repr

/-- A cleared entry: the integer zero and every tag field 0 (R79). -/
def lsZero : LsEntry := ⟨0, .finite, false, false, false⟩

/-- The code of a class in a record (R80). -/
def lsClassCode : LsClass → Nat
  | .finite => 0 | .nan => 1 | .pinf => 2 | .ninf => 3

/-- The class of a record's code (R80). -/
def lsClassOf (c : Nat) : LsClass :=
  match c with
  | 0 => .finite | 1 => .nan | 2 => .pinf | _ => .ninf

/-- Word 0 of the record of a value (R80). -/
def lsWord0 (e : LsEntry) : Word := e.n.truncate 64

/-- Word 1 of the record of a value with anchor `a` (R80). -/
def lsWord1 (e : LsEntry) (a : Int) : Word :=
  BitVec.ofNat 64 (e.n.toNat / 2 ^ 64 + (a % 1024).toNat * 2 ^ 32 + lsClassCode e.cls * 2 ^ 42 + bit e.spill * 2 ^ 44 + bit e.range * 2 ^ 45)

/-- The value and anchor a record of two words holds. A record with reserved bits set is of class NaN, and poison comes with
the words (R80). -/
def lsOfRecord (w0 w1 : Word) (poison : Bool) : LsEntry × Int :=
  let cls := if fieldOf w1 46 18 = 0 then lsClassOf (fieldOf w1 42 2) else .nan
  (⟨BitVec.ofNat 96 (w0.toNat + fieldOf w1 0 32 * 2 ^ 64), cls, bitOf w1 44, bitOf w1 45, poison⟩, signedOf 10 (fieldOf w1 32 10))

/-- The exact value of an LS96 value at its anchor (R79). -/
def lsNum (e : LsEntry) (a : Int) : Num :=
  match e.cls with
  | .finite => .fin (decide (e.n.toInt < 0)) e.n.toInt.natAbs a
  | .nan => .nan
  | .pinf => .inf false
  | .ninf => .inf true

/-- A term ready to be added: its integer, class and flags (R81 to R84). -/
structure LsTerm where
  q : Int
  cls : LsClass
  spill : Bool
  range : Bool
  poison : Bool
  deriving DecidableEq, Repr

/-- The class of a value as a term (R81). -/
def lsClassOfNum (v : Num) : LsClass :=
  match v with
  | .nan => .nan
  | .inf n => if n then .ninf else .pinf
  | .fin _ _ _ => .finite

/-- The magnitude `m·2^e` in units of `2^a`, truncated toward zero with bit 0 set when it was not exact, and whether it spilled
(R82). -/
def lsOdd (m : Nat) (e a : Int) : Nat × Bool :=
  if a ≤ e then (m * 2 ^ (e - a).toNat, false)
  else
    let d := 2 ^ (a - e).toNat
    if m % d = 0 then (m / d, false) else (m / d ||| 1, true)

/-- The term of an exact value at anchor `a`, out of range at `2^lim` (R82, R83): 80 for a product, 95 for a record. -/
def lsTermOf (v : Num) (a : Int) (lim : Nat) (poison : Bool) : LsTerm :=
  match v with
  | .fin s m e =>
    let (k, spill) := lsOdd m e a
    let out := decide (2 ^ lim ≤ k)
    let k' := if out then 2 ^ lim - 1 else k
    ⟨if s then -(k' : Int) else (k' : Int), .finite, spill, out, poison⟩
  | x => ⟨0, lsClassOfNum x, false, false, poison⟩

/-- The join of two classes (R84). -/
def lsJoin (a b : LsClass) : LsClass :=
  match a, b with
  | .nan, _ => .nan
  | _, .nan => .nan
  | .finite, y => y
  | x, .finite => x
  | .pinf, .pinf => .pinf
  | .ninf, .ninf => .ninf
  | .pinf, .ninf => .nan
  | .ninf, .pinf => .nan

/-- An entry after one term is added (R84). -/
def lsAdd (e : LsEntry) (t : LsTerm) : LsEntry :=
  { n := e.n + BitVec.ofInt 96 t.q
    cls := lsJoin e.cls t.cls
    spill := e.spill || t.spill
    range := e.range || t.range
    poison := e.poison || t.poison }

/-- The term a record contributes at anchor `a`: its exact value converted, and its own tag fields with the conversion's (R88). -/
def lsRecordTerm (rec : LsEntry × Int) (a : Int) : LsTerm :=
  let t := lsTermOf (lsNum rec.1 rec.2) a 95 rec.1.poison
  { t with spill := t.spill || rec.1.spill, range := t.range || rec.1.range }

/-- The anchor clamped to the range it can hold (R87). -/
def clampAnchor (a : Int) : Int := max (-512) (min 511 a)

/-- Whether format mode takes a pair of formats (R87). -/
def formatModeOk (a w : Nat) : Bool :=
  let ok (c : Nat) : Bool := decide (c = 5) || decide (c = 3) || decide (c = 4) || decide (c = 2)
  ok a && ok w

/-- The anchor of format mode (R87). -/
def formatAnchor (a w : Nat) : Int := clampAnchor (fmtStep a + fmtStep w)

/-- The anchor of bound mode, `ea` being the tile's largest exponent (R87). -/
def boundAnchor (ea ew : Int) : Int := clampAnchor (ea + ew - 78)

end Sys2Proof.Machine
end

