-- ==== Sys2Proof/Machine/Regs.lean ====
section
/-! DEFINITION. The register tables of the manual, one row per register: its offset in its unit (R468, R469), how many of it
there are and at which strides, and its fields with their access types (R12) and reset values (R16). A field whose reset
column reads "fuse" or names another rule is listed with 0 here, and its value is laid over it where registers are read.
The text is written out from the tables of chapters 03 to 21. -/

namespace Sys2Proof.Machine

/-- The access types of R12. -/
inductive Access where
  | ro | rw | w1c | wo | sc | rwl
  deriving DecidableEq, Repr

/-- A field of a register: its least bit, its width, its access type and its reset value (R12, R16). -/
structure FieldRow where
  lo : Nat
  width : Nat
  access : Access
  reset : Nat
  deriving DecidableEq, Repr

/-- A register of the tables: its first offset, an outer count and stride (per region, client, port or cluster), an inner
count and stride (R469), and its fields. -/
structure RegRow where
  base : Nat
  n1 : Nat
  s1 : Nat
  n2 : Nat
  s2 : Nat
  fields : List FieldRow
  deriving DecidableEq, Repr

/-- A field named by the offset of its register in its unit, its least bit and its width. -/
structure Fld where
  off : Nat
  lo : Nat
  width : Nat
  deriving DecidableEq, Repr

/-- The same field of the register `d` bytes further on. -/
def fldAt (f : Fld) (d : Nat) : Fld := { f with off := f.off + d }

/-- Whether a row's register lies at an offset of its unit. -/
def RegRow.holds (r : RegRow) (off : Nat) : Bool :=
  decide (r.base ≤ off) &&
  (let d := off - r.base
   let i := if r.s1 = 0 then 0 else min (d / r.s1) (r.n1 - 1)
   let e := d - i * r.s1
   let j := if r.s2 = 0 then 0 else e / r.s2
   decide (i < r.n1) && decide (j < r.n2) && decide (e = j * r.s2))

/-- The word a register holds after a reset that reaches it (R16). -/
def RegRow.resetWord (r : RegRow) : Word := r.fields.foldl (fun w f => putField w f.lo f.width f.reset) 0

/-- The row of the register at an offset, if the table has one there. -/
def findReg (rows : List RegRow) (off : Nat) : Option RegRow := rows.find? (fun r => r.holds off)

/-- The reset word of the register at an offset, zero where there is none (R471). -/
def resetAt (rows : List RegRow) (off : Nat) : Word :=
  match findReg rows off with
  | some r => r.resetWord
  | none => 0

/-- Registers of the core blocks, part 0. -/
def coreRegs0 : List RegRow := [
  -- CORE_STATUS
  ⟨0x0, 1, 0x0, 1, 0x0, [⟨0, 1, .ro, 0⟩, ⟨1, 1, .ro, 0⟩, ⟨2, 1, .ro, 0⟩, ⟨3, 1, .ro, 0⟩, ⟨4, 3, .ro, 0⟩, ⟨7, 1, .w1c, 0⟩, ⟨8, 1, .w1c, 0⟩, ⟨9, 6, .ro, 0⟩, ⟨15, 1, .w1c, 0⟩]⟩,
  -- CORE_CTRL
  ⟨0x8, 1, 0x0, 1, 0x0, [⟨0, 1, .rw, 0⟩, ⟨1, 4, .rw, 0xf⟩]⟩,
  -- CORE_EVT_VEC
  ⟨0x10, 1, 0x0, 1, 0x0, [⟨0, 13, .rw, 0⟩]⟩,
  -- CORE_EVT_PC
  ⟨0x18, 1, 0x0, 1, 0x0, [⟨0, 13, .rw, 0⟩]⟩,
  -- CORE_PC
  ⟨0x30, 1, 0x0, 1, 0x0, [⟨0, 13, .ro, 0⟩]⟩,
  -- CORE_EVT_STALE
  ⟨0x20, 1, 0x0, 1, 0x0, [⟨0, 32, .ro, 0⟩]⟩,
  -- MX_FLAGS
  ⟨0x1100, 1, 0x0, 1, 0x0, [⟨0, 1, .w1c, 0⟩, ⟨1, 1, .w1c, 0⟩, ⟨2, 1, .w1c, 0⟩, ⟨3, 1, .w1c, 0⟩, ⟨4, 1, .w1c, 0⟩, ⟨5, 1, .w1c, 0⟩]⟩,
  -- MX_STATUS
  ⟨0x1000, 1, 0x0, 1, 0x0, [⟨0, 2, .ro, 0⟩, ⟨2, 1, .ro, 0⟩, ⟨3, 1, .ro, 0⟩, ⟨4, 4, .ro, 0⟩, ⟨8, 1, .ro, 0⟩, ⟨9, 1, .ro, 0⟩, ⟨10, 1, .ro, 0⟩, ⟨11, 1, .ro, 0⟩]⟩,
  -- MX_ANCHOR_DEF
  ⟨0x1008, 1, 0x0, 1, 0x0, [⟨0, 2, .rw, 1⟩, ⟨2, 10, .rw, 0⟩]⟩,
  -- MX_CK_CHECKED
  ⟨0x1110, 1, 0x0, 1, 0x0, [⟨0, 64, .ro, 0⟩]⟩,
  -- MX_CK_SKIPPED
  ⟨0x1118, 1, 0x0, 1, 0x0, [⟨0, 64, .ro, 0⟩]⟩,
  -- MX_CK_MISMATCH
  ⟨0x1120, 1, 0x0, 1, 0x0, [⟨0, 64, .ro, 0⟩]⟩
  ]

/-- Registers of the core blocks, part 1. -/
def coreRegs1 : List RegRow := [
  -- MX_STROKES
  ⟨0x1140, 1, 0x0, 1, 0x0, [⟨0, 64, .ro, 0⟩]⟩,
  -- MX_STALL_FEED
  ⟨0x1148, 1, 0x0, 1, 0x0, [⟨0, 64, .ro, 0⟩]⟩,
  -- MX_STALL_WELL
  ⟨0x1150, 1, 0x0, 1, 0x0, [⟨0, 64, .ro, 0⟩]⟩,
  -- MX_CK_LAST
  ⟨0x1128, 1, 0x0, 1, 0x0, [⟨0, 9, .ro, 0⟩, ⟨9, 6, .ro, 0⟩, ⟨15, 8, .ro, 0⟩, ⟨23, 1, .w1c, 0⟩]⟩,
  -- VX_STATUS
  ⟨0x2000, 1, 0x0, 1, 0x0, [⟨0, 5, .ro, 0⟩, ⟨5, 1, .ro, 0⟩, ⟨6, 1, .ro, 0⟩, ⟨7, 15, .ro, 0⟩]⟩,
  -- VX_FLAGS
  ⟨0x2100, 1, 0x0, 1, 0x0, [⟨0, 1, .w1c, 0⟩, ⟨1, 1, .w1c, 0⟩, ⟨2, 1, .w1c, 0⟩, ⟨3, 1, .w1c, 0⟩, ⟨4, 1, .w1c, 0⟩, ⟨5, 1, .w1c, 0⟩]⟩,
  -- VX_INSTR
  ⟨0x2140, 1, 0x0, 1, 0x0, [⟨0, 64, .ro, 0⟩]⟩,
  -- VX_STALL_FEED
  ⟨0x2148, 1, 0x0, 1, 0x0, [⟨0, 64, .ro, 0⟩]⟩,
  -- VX_STALL_WELL
  ⟨0x2150, 1, 0x0, 1, 0x0, [⟨0, 64, .ro, 0⟩]⟩,
  -- WELL_STATUS
  ⟨0x6000, 1, 0x0, 1, 0x0, [⟨0, 1, .ro, 0⟩, ⟨1, 1, .ro, 0⟩, ⟨2, 1, .w1c, 0⟩, ⟨3, 1, .w1c, 0⟩]⟩,
  -- WELL_CTRL
  ⟨0x6008, 1, 0x0, 1, 0x0, [⟨0, 1, .rwl, 0⟩, ⟨1, 4, .rw, 7⟩, ⟨5, 1, .rw, 1⟩]⟩,
  -- WELL_BUF
  ⟨0x6040, 1, 0x0, 8, 0x8, [⟨0, 1, .rwl, 0⟩, ⟨1, 1, .rwl, 0⟩, ⟨2, 1, .ro, 0⟩, ⟨3, 13, .rwl, 0⟩, ⟨16, 12, .rwl, 0⟩]⟩
  ]

/-- Registers of the core blocks, part 2. -/
def coreRegs2 : List RegRow := [
  -- WELL_BREACH
  ⟨0x6080, 1, 0x0, 1, 0x0, [⟨0, 19, .ro, 0⟩, ⟨19, 4, .ro, 0⟩, ⟨23, 3, .ro, 0⟩, ⟨26, 1, .ro, 0⟩, ⟨27, 8, .ro, 0⟩, ⟨35, 1, .w1c, 0⟩]⟩,
  -- WELL_ECC_LAST
  ⟨0x6088, 1, 0x0, 1, 0x0, [⟨0, 19, .ro, 0⟩, ⟨19, 8, .ro, 0⟩, ⟨27, 1, .w1c, 0⟩]⟩,
  -- WELL_STALL_SCHED
  ⟨0x6100, 1, 0x0, 1, 0x0, [⟨0, 64, .ro, 0⟩]⟩,
  -- WELL_ASYNC_WAIT
  ⟨0x6108, 1, 0x0, 1, 0x0, [⟨0, 64, .ro, 0⟩]⟩,
  -- WELL_ASYNC_FORCED
  ⟨0x6110, 1, 0x0, 1, 0x0, [⟨0, 64, .ro, 0⟩]⟩,
  -- WELL_BREACH_COUNT
  ⟨0x6118, 1, 0x0, 1, 0x0, [⟨0, 64, .ro, 0⟩]⟩,
  -- WELL_WSW_TRAPS
  ⟨0x6120, 1, 0x0, 1, 0x0, [⟨0, 64, .ro, 0⟩]⟩,
  -- WELL_ECC_CE
  ⟨0x6128, 1, 0x0, 1, 0x0, [⟨0, 64, .ro, 0⟩]⟩,
  -- WELL_ECC_UE
  ⟨0x6130, 1, 0x0, 1, 0x0, [⟨0, 64, .ro, 0⟩]⟩,
  -- WELL_WSW
  ⟨0x7000, 1, 0x0, 128, 0x8, [⟨0, 64, .ro, 0⟩]⟩,
  -- CP_STATUS
  ⟨0x3000, 1, 0x0, 1, 0x0, [⟨0, 6, .ro, 0⟩, ⟨6, 8, .ro, 0⟩, ⟨14, 1, .ro, 0⟩, ⟨15, 16, .ro, 0⟩]⟩,
  -- CP_CTRL
  ⟨0x3008, 1, 0x0, 1, 0x0, [⟨0, 8, .rw, 0x40⟩]⟩
  ]

/-- Registers of the core blocks, part 3. -/
def coreRegs3 : List RegRow := [
  -- CP_SHAPE_A
  ⟨0x3200, 1, 0x0, 32, 0x10, [⟨0, 1, .rwl, 0⟩, ⟨1, 20, .rwl, 0⟩, ⟨21, 16, .rwl, 0⟩, ⟨37, 3, .rwl, 0⟩]⟩,
  -- CP_SHAPE_B
  ⟨0x3208, 1, 0x0, 32, 0x10, [⟨0, 32, .rwl, 0⟩, ⟨32, 32, .rwl, 0⟩]⟩,
  -- CP_LINES
  ⟨0x3100, 1, 0x0, 1, 0x0, [⟨0, 64, .ro, 0⟩]⟩,
  -- CP_LATE
  ⟨0x3108, 1, 0x0, 1, 0x0, [⟨0, 64, .ro, 0⟩]⟩,
  -- CP_PROMOTED
  ⟨0x3110, 1, 0x0, 1, 0x0, [⟨0, 64, .ro, 0⟩]⟩,
  -- CP_INSTR
  ⟨0x3118, 1, 0x0, 1, 0x0, [⟨0, 64, .ro, 0⟩]⟩,
  -- RSV_STATUS
  ⟨0x20000, 1, 0x0, 1, 0x0, [⟨0, 1, .ro, 0⟩, ⟨1, 1, .w1c, 0⟩, ⟨2, 1, .ro, 0⟩]⟩,
  -- RSV_CTRL
  ⟨0x20008, 1, 0x0, 1, 0x0, [⟨0, 1, .rwl, 0⟩, ⟨1, 1, .rw, 1⟩]⟩,
  -- RSV_ECC_LAST
  ⟨0x20088, 1, 0x0, 1, 0x0, [⟨0, 28, .ro, 0⟩, ⟨28, 8, .ro, 0⟩, ⟨36, 1, .w1c, 0⟩]⟩,
  -- RSV_ECC_CE
  ⟨0x20100, 1, 0x0, 1, 0x0, [⟨0, 64, .ro, 0⟩]⟩,
  -- RSV_ECC_UE
  ⟨0x20108, 1, 0x0, 1, 0x0, [⟨0, 64, .ro, 0⟩]⟩,
  -- RSV_ROW_OPEN
  ⟨0x20110, 1, 0x0, 1, 0x0, [⟨0, 64, .ro, 0⟩]⟩
  ]

/-- Registers of the core blocks, part 4. -/
def coreRegs4 : List RegRow := [
  -- RSV_REFRESH
  ⟨0x20118, 1, 0x0, 1, 0x0, [⟨0, 64, .ro, 0⟩]⟩,
  -- RSV_WSW_TRAPS
  ⟨0x20120, 1, 0x0, 1, 0x0, [⟨0, 64, .ro, 0⟩]⟩,
  -- RSV_WSW
  ⟨0x30000, 1, 0x0, 5120, 0x8, [⟨0, 64, .ro, 0⟩]⟩,
  -- CH_STATUS
  ⟨0x4000, 1, 0x0, 1, 0x0, [⟨0, 6, .ro, 0⟩, ⟨6, 1, .ro, 0⟩, ⟨7, 1, .ro, 0⟩, ⟨8, 6, .ro, 0⟩]⟩,
  -- CH_CQ_FLAGS
  ⟨0x4100, 1, 0x0, 1, 0x0, [⟨0, 1, .w1c, 0⟩, ⟨1, 1, .w1c, 0⟩, ⟨2, 1, .w1c, 0⟩, ⟨3, 1, .w1c, 0⟩, ⟨4, 1, .w1c, 0⟩, ⟨5, 1, .w1c, 0⟩]⟩,
  -- CH_SENT
  ⟨0x4140, 1, 0x0, 1, 0x0, [⟨0, 64, .ro, 0⟩]⟩,
  -- CH_LANDED
  ⟨0x4148, 1, 0x0, 1, 0x0, [⟨0, 64, .ro, 0⟩]⟩,
  -- CH_DROP
  ⟨0x4150, 1, 0x0, 1, 0x0, [⟨0, 64, .ro, 0⟩]⟩,
  -- CH_STALE
  ⟨0x4158, 1, 0x0, 1, 0x0, [⟨0, 64, .ro, 0⟩]⟩,
  -- CH_MERGED
  ⟨0x4160, 1, 0x0, 1, 0x0, [⟨0, 64, .ro, 0⟩]⟩,
  -- CH_STALL
  ⟨0x4168, 1, 0x0, 1, 0x0, [⟨0, 64, .ro, 0⟩]⟩,
  -- CH_CREDIT_EXCESS
  ⟨0x4170, 1, 0x0, 1, 0x0, [⟨0, 64, .ro, 0⟩]⟩
  ]

/-- Registers of the core blocks, part 5. -/
def coreRegs5 : List RegRow := [
  -- CH_DROP_LAST
  ⟨0x4180, 1, 0x0, 1, 0x0, [⟨0, 43, .ro, 0⟩, ⟨43, 8, .ro, 0⟩, ⟨51, 8, .ro, 0⟩, ⟨59, 1, .w1c, 0⟩]⟩,
  -- CH_DUCTUS_A
  ⟨0x4400, 1, 0x0, 64, 0x10, [⟨0, 1, .rwl, 0⟩, ⟨1, 2, .rwl, 0⟩, ⟨3, 1, .rwl, 0⟩, ⟨4, 7, .rwl, 0⟩, ⟨11, 7, .rwl, 0⟩, ⟨18, 6, .rwl, 0⟩, ⟨24, 12, .rwl, 0⟩, ⟨36, 16, .rwl, 0⟩, ⟨52, 1, .rwl, 0⟩]⟩,
  -- CH_DUCTUS_B
  ⟨0x4408, 1, 0x0, 64, 0x10, [⟨0, 8, .rwl, 0⟩, ⟨8, 6, .rwl, 0⟩, ⟨14, 16, .rwl, 0⟩, ⟨30, 13, .rwl, 0⟩, ⟨43, 8, .rwl, 0⟩, ⟨51, 1, .ro, 0⟩]⟩,
  -- CH_LAND_A
  ⟨0x4800, 1, 0x0, 64, 0x10, [⟨0, 1, .rwl, 0⟩, ⟨1, 3, .rwl, 0⟩, ⟨4, 3, .rwl, 0⟩, ⟨7, 1, .rwl, 0⟩, ⟨8, 19, .rwl, 0⟩, ⟨27, 19, .rwl, 0⟩, ⟨46, 9, .rwl, 0⟩, ⟨55, 4, .rwl, 0⟩]⟩,
  -- CH_LAND_B
  ⟨0x4808, 1, 0x0, 64, 0x10, [⟨0, 1, .rwl, 0⟩, ⟨1, 7, .rwl, 0⟩, ⟨8, 7, .rwl, 0⟩, ⟨15, 6, .rwl, 0⟩]⟩,
  -- CH_CQ_A
  ⟨0x4c00, 1, 0x0, 16, 0x10, [⟨0, 1, .rwl, 0⟩, ⟨1, 11, .rwl, 0⟩, ⟨12, 11, .rwl, 0⟩, ⟨23, 10, .rwl, 0⟩, ⟨33, 12, .rwl, 0⟩, ⟨45, 1, .rwl, 0⟩, ⟨46, 6, .rwl, 0⟩, ⟨52, 12, .rwl, 0⟩]⟩,
  -- CH_CQ_B
  ⟨0x4c08, 1, 0x0, 16, 0x10, [⟨0, 19, .rwl, 0⟩, ⟨19, 6, .rwl, 0⟩, ⟨32, 3, .rwl, 0⟩, ⟨35, 1, .rwl, 0⟩, ⟨36, 8, .ro, 0⟩, ⟨44, 2, .ro, 2⟩]⟩,
  -- CH_TX
  ⟨0x4d00, 1, 0x0, 64, 0x8, [⟨0, 16, .ro, 0⟩, ⟨16, 16, .ro, 0⟩, ⟨32, 32, .ro, 0⟩]⟩,
  -- CH_RX
  ⟨0x4f00, 1, 0x0, 64, 0x8, [⟨0, 32, .ro, 0⟩]⟩,
  -- CH_MEMBER
  ⟨0x5200, 1, 0x0, 256, 0x8, [⟨0, 7, .rwl, 0⟩, ⟨7, 7, .rwl, 0⟩, ⟨14, 6, .rwl, 0⟩, ⟨20, 16, .ro, 0⟩, ⟨36, 16, .ro, 0⟩]⟩,
  -- CORE_TA
  ⟨0x100, 1, 0x0, 8, 0x8, [⟨0, 1, .ro, 0⟩, ⟨1, 1, .ro, 0⟩, ⟨2, 1, .ro, 0⟩, ⟨3, 1, .ro, 0⟩, ⟨32, 32, .ro, 0⟩]⟩,
  -- CORE_MESH_CFG
  ⟨0x200, 1, 0x0, 1, 0x0, [⟨0, 2, .rw, 0⟩, ⟨2, 2, .rw, 0⟩, ⟨4, 2, .rw, 0⟩, ⟨6, 2, .rw, 0⟩, ⟨8, 1, .rw, 0⟩]⟩
  ]

/-- Registers of the core blocks, part 6. -/
def coreRegs6 : List RegRow := [
  -- CORE_MESH_STATUS
  ⟨0x208, 1, 0x0, 1, 0x0, [⟨0, 4, .w1c, 0⟩, ⟨4, 4, .ro, 0⟩]⟩,
  -- CORE_MESH_FLITS
  ⟨0x210, 1, 0x0, 1, 0x0, [⟨0, 64, .ro, 0⟩]⟩,
  -- CORE_MESH_TRANSIT
  ⟨0x218, 1, 0x0, 1, 0x0, [⟨0, 64, .ro, 0⟩]⟩,
  -- CORE_MESH_RETRY
  ⟨0x220, 1, 0x0, 1, 0x0, [⟨0, 64, .ro, 0⟩]⟩,
  -- CORE_MESH_CE
  ⟨0x228, 1, 0x0, 1, 0x0, [⟨0, 64, .ro, 0⟩]⟩,
  -- CORE_MESH_UE
  ⟨0x230, 1, 0x0, 1, 0x0, [⟨0, 64, .ro, 0⟩]⟩,
  -- CORE_MESH_MISROUTE
  ⟨0x238, 1, 0x0, 1, 0x0, [⟨0, 64, .ro, 0⟩]⟩,
  -- CORE_CLI_SEL
  ⟨0x40, 1, 0x0, 1, 0x0, [⟨0, 10, .ro, 0⟩]⟩,
  -- CORE_CHECK
  ⟨0x300, 1, 0x0, 1, 0x0, [⟨0, 2, .ro, 0⟩, ⟨2, 1, .ro, 0⟩]⟩,
  -- CORE_SUSPECT
  ⟨0x308, 1, 0x0, 1, 0x0, [⟨0, 4, .ro, 0⟩, ⟨4, 1, .ro, 0⟩]⟩,
  -- CORE_EX_LAST
  ⟨0x310, 1, 0x0, 1, 0x0, [⟨0, 48, .ro, 0⟩, ⟨48, 1, .ro, 0⟩]⟩,
  -- RSV_ROW_SPARED
  ⟨0x20128, 1, 0x0, 1, 0x0, [⟨0, 64, .ro, 0⟩]⟩
  ]

/-- Registers of the core blocks, part 7. -/
def coreRegs7 : List RegRow := [
  -- CORE_HALT_REC
  ⟨0x28, 1, 0x0, 1, 0x0, [⟨0, 64, .ro, 0⟩]⟩,
  -- CORE_CC
  ⟨0x80, 1, 0x0, 8, 0x8, [⟨0, 32, .ro, 0⟩]⟩
  ]

/-- Every register of the core blocks. -/
def coreRegs : List RegRow := coreRegs0 ++ coreRegs1 ++ coreRegs2 ++ coreRegs3 ++ coreRegs4 ++ coreRegs5 ++ coreRegs6 ++ coreRegs7

/-- Registers of the cluster blocks, part 0. -/
def clusterRegs0 : List RegRow := [
  -- LIG_STATUS
  ⟨0x0, 1, 0x0, 1, 0x0, [⟨0, 11, .ro, 0⟩, ⟨11, 1, .w1c, 0⟩]⟩,
  -- LIG_OPS
  ⟨0x100, 1, 0x0, 1, 0x0, [⟨0, 64, .ro, 0⟩]⟩,
  -- LIG_FIRES
  ⟨0x108, 1, 0x0, 1, 0x0, [⟨0, 64, .ro, 0⟩]⟩,
  -- LIG_TIMEOUTS
  ⟨0x110, 1, 0x0, 1, 0x0, [⟨0, 64, .ro, 0⟩]⟩,
  -- LIG_STALE
  ⟨0x118, 1, 0x0, 1, 0x0, [⟨0, 64, .ro, 0⟩]⟩,
  -- LIG_FAR_IN
  ⟨0x120, 1, 0x0, 1, 0x0, [⟨0, 64, .ro, 0⟩]⟩,
  -- LIG_FAR_DROP
  ⟨0x128, 1, 0x0, 1, 0x0, [⟨0, 64, .ro, 0⟩]⟩,
  -- LIG_FAULT_LAST
  ⟨0x180, 1, 0x0, 1, 0x0, [⟨0, 43, .ro, 0⟩, ⟨43, 8, .ro, 0⟩, ⟨51, 8, .ro, 0⟩, ⟨59, 1, .w1c, 0⟩]⟩,
  -- LIG_CFG
  ⟨0x1000, 1, 0x0, 512, 0x8, [⟨0, 1, .rwl, 0⟩, ⟨1, 16, .rwl, 0⟩, ⟨17, 4, .rwl, 0⟩]⟩,
  -- LIG_STATE
  ⟨0x2000, 1, 0x0, 512, 0x8, [⟨0, 16, .ro, 0⟩, ⟨16, 16, .ro, 0⟩, ⟨32, 16, .ro, 0⟩]⟩,
  -- LIG_HL_STATUS
  ⟨0x200, 1, 0x0, 1, 0x0, [⟨0, 4, .w1c, 0⟩, ⟨4, 1, .rw, 0⟩]⟩,
  -- LIG_HL_PACKETS
  ⟨0x208, 1, 0x0, 1, 0x0, [⟨0, 64, .ro, 0⟩]⟩
  ]

/-- Registers of the cluster blocks, part 1. -/
def clusterRegs1 : List RegRow := [
  -- LIG_HL_RETRY
  ⟨0x210, 1, 0x0, 1, 0x0, [⟨0, 64, .ro, 0⟩]⟩,
  -- LIG_HL_DROP
  ⟨0x218, 1, 0x0, 1, 0x0, [⟨0, 64, .ro, 0⟩]⟩,
  -- LIG_HL_BEACONS
  ⟨0x220, 1, 0x0, 1, 0x0, [⟨0, 64, .ro, 0⟩]⟩
  ]

/-- Every register of the cluster blocks. -/
def clusterRegs : List RegRow := clusterRegs0 ++ clusterRegs1

/-- Registers of the rim blocks, part 0. -/
def rimRegs0 : List RegRow := [
  -- RGN_QOS_CTRL
  ⟨0x2c0000, 1, 0x0, 1, 0x0, [⟨0, 8, .rw, 0x40⟩]⟩,
  -- RGN_CFG
  ⟨0x2c1000, 64, 0x40, 1, 0x0, [⟨0, 1, .ro, 0⟩, ⟨1, 4, .rwl, 0⟩, ⟨5, 4, .rwl, 0⟩, ⟨9, 4, .rwl, 0⟩, ⟨13, 4, .rwl, 0⟩, ⟨17, 6, .rwl, 0⟩, ⟨23, 10, .rwl, 0⟩, ⟨33, 1, .ro, 0⟩]⟩,
  -- RGN_CMD
  ⟨0x2c1008, 64, 0x40, 1, 0x0, [⟨0, 3, .wo, 0⟩]⟩,
  -- RGN_STATUS
  ⟨0x2c1010, 64, 0x40, 1, 0x0, [⟨0, 3, .ro, 0⟩, ⟨3, 8, .ro, 0⟩, ⟨11, 1, .w1c, 0⟩, ⟨12, 1, .w1c, 0⟩, ⟨13, 1, .ro, 0⟩]⟩,
  -- RGN_TIMING
  ⟨0x2c1018, 64, 0x40, 1, 0x0, [⟨0, 4, .rw, 0xa⟩]⟩,
  -- RGN_QOS
  ⟨0x2c1020, 64, 0x40, 1, 0x0, [⟨0, 8, .rw, 0x10⟩, ⟨8, 8, .rw, 0x10⟩]⟩,
  -- RGN_PWR
  ⟨0x2c1028, 64, 0x40, 1, 0x0, [⟨0, 16, .rw, 0⟩]⟩,
  -- RGN_ENERGY
  ⟨0x2c1030, 64, 0x40, 1, 0x0, [⟨0, 64, .ro, 0⟩]⟩,
  -- RGN_PACED
  ⟨0x2c1038, 64, 0x40, 1, 0x0, [⟨0, 64, .ro, 0⟩]⟩,
  -- CLI_CFG
  ⟨0x280000, 1024, 0x80, 1, 0x0, [⟨0, 1, .rw, 0⟩, ⟨1, 6, .rwl, 0⟩, ⟨7, 4, .rwl, 0⟩, ⟨11, 8, .rwl, 0x10⟩, ⟨19, 1, .rwl, 0⟩]⟩,
  -- CLI_SEED
  ⟨0x280008, 1024, 0x80, 1, 0x0, [⟨0, 64, .wo, 0⟩]⟩,
  -- CLI_ING
  ⟨0x280010, 1024, 0x80, 1, 0x0, [⟨0, 7, .rwl, 0⟩, ⟨7, 7, .rwl, 0⟩, ⟨14, 19, .rwl, 0⟩, ⟨33, 4, .rwl, 0⟩, ⟨37, 5, .rwl, 0⟩]⟩
  ]

/-- Registers of the rim blocks, part 1. -/
def rimRegs1 : List RegRow := [
  -- CLI_EGR
  ⟨0x280018, 1024, 0x80, 1, 0x0, [⟨0, 7, .rwl, 0⟩, ⟨7, 7, .rwl, 0⟩, ⟨14, 19, .rwl, 0⟩, ⟨33, 4, .rwl, 0⟩, ⟨37, 5, .rwl, 0⟩, ⟨42, 8, .rwl, 0xa⟩]⟩,
  -- CLI_ING_FRAMES
  ⟨0x280020, 1024, 0x80, 1, 0x0, [⟨0, 64, .ro, 0⟩]⟩,
  -- CLI_ING_DROP
  ⟨0x280028, 1024, 0x80, 1, 0x0, [⟨0, 64, .ro, 0⟩]⟩,
  -- CLI_EGR_FRAMES
  ⟨0x280030, 1024, 0x80, 1, 0x0, [⟨0, 64, .ro, 0⟩]⟩,
  -- CLI_ENERGY
  ⟨0x280038, 1024, 0x80, 1, 0x0, [⟨0, 64, .ro, 0⟩]⟩,
  -- CLI_EGR_DROP
  ⟨0x280040, 1024, 0x80, 1, 0x0, [⟨0, 64, .ro, 0⟩]⟩,
  -- PORT_CTRL
  ⟨0x2d0000, 16, 0x1000, 1, 0x0, [⟨0, 2, .rw, 0⟩, ⟨2, 1, .rw, 0⟩, ⟨3, 1, .sc, 0⟩, ⟨4, 4, .rw, 8⟩, ⟨8, 4, .rw, 0xa⟩, ⟨12, 4, .rw, 4⟩]⟩,
  -- PORT_STATUS
  ⟨0x2d0008, 16, 0x1000, 1, 0x0, [⟨0, 3, .ro, 0⟩, ⟨3, 4, .ro, 0⟩, ⟨7, 8, .ro, 0⟩, ⟨15, 1, .ro, 0⟩, ⟨16, 1, .ro, 0⟩, ⟨17, 1, .w1c, 0⟩, ⟨18, 1, .w1c, 0⟩]⟩,
  -- PORT_HELLO
  ⟨0x2d0010, 16, 0x1000, 1, 0x0, [⟨0, 8, .rw, 0xa⟩, ⟨8, 4, .rw, 3⟩, ⟨12, 18, .rw, 0x3ffff⟩]⟩,
  -- PORT_PEER_EUI
  ⟨0x2d0018, 16, 0x1000, 1, 0x0, [⟨0, 64, .ro, 0⟩]⟩,
  -- PORT_PEER
  ⟨0x2d0020, 16, 0x1000, 1, 0x0, [⟨0, 18, .ro, 0⟩, ⟨18, 4, .ro, 0⟩, ⟨22, 4, .ro, 0⟩, ⟨26, 3, .ro, 0⟩, ⟨29, 16, .ro, 0⟩]⟩,
  -- PORT_RXBUF
  ⟨0x2d0030, 16, 0x1000, 1, 0x0, [⟨0, 64, .rw, 0x2020202020202020⟩]⟩
  ]

/-- Registers of the rim blocks, part 2. -/
def rimRegs2 : List RegRow := [
  -- PORT_BLOCKS_TX
  ⟨0x2d0080, 16, 0x1000, 1, 0x0, [⟨0, 64, .ro, 0⟩]⟩,
  -- PORT_BLOCKS_RX
  ⟨0x2d0088, 16, 0x1000, 1, 0x0, [⟨0, 64, .ro, 0⟩]⟩,
  -- PORT_REPLAY
  ⟨0x2d0090, 16, 0x1000, 1, 0x0, [⟨0, 64, .ro, 0⟩]⟩,
  -- PORT_FEC_CE
  ⟨0x2d0098, 16, 0x1000, 1, 0x0, [⟨0, 64, .ro, 0⟩]⟩,
  -- PORT_FEC_UE
  ⟨0x2d00a0, 16, 0x1000, 1, 0x0, [⟨0, 64, .ro, 0⟩]⟩,
  -- PORT_RETRAIN
  ⟨0x2d00a8, 16, 0x1000, 1, 0x0, [⟨0, 64, .ro, 0⟩]⟩,
  -- PORT_NOT_ADMITTED
  ⟨0x2d00b0, 16, 0x1000, 1, 0x0, [⟨0, 64, .ro, 0⟩]⟩,
  -- PORT_GW_DROP
  ⟨0x2d00b8, 16, 0x1000, 1, 0x0, [⟨0, 64, .ro, 0⟩]⟩,
  -- PORT_ETH_CTRL
  ⟨0x2d0100, 16, 0x1000, 1, 0x0, [⟨0, 1, .rw, 1⟩, ⟨1, 1, .rw, 1⟩, ⟨2, 14, .rw, 0x2400⟩]⟩,
  -- PORT_ETH_STATUS
  ⟨0x2d0108, 16, 0x1000, 1, 0x0, [⟨0, 8, .ro, 0⟩, ⟨8, 8, .ro, 0⟩]⟩,
  -- PORT_ETH_MAC
  ⟨0x2d0140, 16, 0x1000, 8, 0x8, [⟨0, 48, .rw, 0⟩, ⟨48, 1, .rw, 0⟩]⟩,
  -- PORT_ETH_EGR_MAP
  ⟨0x2d0180, 16, 0x1000, 1, 0x0, [⟨0, 24, .rw, 0xfac688⟩]⟩
  ]

/-- Registers of the rim blocks, part 3. -/
def rimRegs3 : List RegRow := [
  -- PORT_ETH_RX_FRAMES
  ⟨0x2d0200, 16, 0x1000, 1, 0x0, [⟨0, 64, .ro, 0⟩]⟩,
  -- PORT_ETH_FCS_DROP
  ⟨0x2d0208, 16, 0x1000, 1, 0x0, [⟨0, 64, .ro, 0⟩]⟩,
  -- PORT_ETH_CSUM_DROP
  ⟨0x2d0210, 16, 0x1000, 1, 0x0, [⟨0, 64, .ro, 0⟩]⟩,
  -- PORT_ETH_BUF_DROP
  ⟨0x2d0218, 16, 0x1000, 1, 0x0, [⟨0, 64, .ro, 0⟩]⟩,
  -- PORT_ETH_NOCLI_DROP
  ⟨0x2d0220, 16, 0x1000, 1, 0x0, [⟨0, 64, .ro, 0⟩]⟩,
  -- PORT_ETH_CLS_DROP
  ⟨0x2d0228, 16, 0x1000, 1, 0x0, [⟨0, 64, .ro, 0⟩]⟩,
  -- PORT_ETH_PAUSE_DROP
  ⟨0x2d0230, 16, 0x1000, 1, 0x0, [⟨0, 64, .ro, 0⟩]⟩,
  -- PORT_ETH_TO_SCRIBE
  ⟨0x2d0238, 16, 0x1000, 1, 0x0, [⟨0, 64, .ro, 0⟩]⟩,
  -- PORT_ETH_TX_FRAMES
  ⟨0x2d0240, 16, 0x1000, 1, 0x0, [⟨0, 64, .ro, 0⟩]⟩,
  -- PORT_PTP_TX_LOST
  ⟨0x2d0248, 16, 0x1000, 1, 0x0, [⟨0, 64, .ro, 0⟩]⟩,
  -- PORT_PTP_RX_ADJ
  ⟨0x2d0300, 16, 0x1000, 1, 0x0, [⟨0, 16, .rw, 0⟩]⟩,
  -- PORT_PTP_TX_ADJ
  ⟨0x2d0308, 16, 0x1000, 1, 0x0, [⟨0, 16, .rw, 0⟩]⟩
  ]

/-- Registers of the rim blocks, part 4. -/
def rimRegs4 : List RegRow := [
  -- PORT_PTP_TX_TAG
  ⟨0x2d0310, 16, 0x1000, 1, 0x0, [⟨0, 16, .ro, 0⟩, ⟨16, 3, .ro, 0⟩, ⟨19, 1, .ro, 0⟩]⟩,
  -- PORT_PTP_TX_TS
  ⟨0x2d0318, 16, 0x1000, 1, 0x0, [⟨0, 64, .ro, 0⟩]⟩,
  -- PORT_CLS_STAGE0
  ⟨0x2cc000, 1, 0x0, 1, 0x0, [⟨0, 1, .rw, 0⟩, ⟨1, 16, .rw, 0⟩, ⟨17, 1, .rw, 0⟩, ⟨18, 12, .rw, 0⟩, ⟨30, 2, .rw, 0⟩, ⟨32, 1, .rw, 0⟩, ⟨33, 16, .rw, 0⟩, ⟨49, 2, .rw, 0⟩, ⟨51, 10, .rw, 0⟩]⟩,
  -- PORT_CLS_STAGE1
  ⟨0x2cc008, 1, 0x0, 1, 0x0, [⟨0, 64, .rw, 0⟩]⟩,
  -- PORT_CLS_STAGE2
  ⟨0x2cc010, 1, 0x0, 1, 0x0, [⟨0, 64, .rw, 0⟩]⟩,
  -- PORT_CLS_CMD
  ⟨0x2cc018, 1, 0x0, 1, 0x0, [⟨0, 12, .wo, 0⟩, ⟨12, 1, .wo, 0⟩]⟩,
  -- PORT_CLS_STATUS
  ⟨0x2cc020, 1, 0x0, 1, 0x0, [⟨0, 1, .w1c, 0⟩]⟩,
  -- FAB_ID
  ⟨0x200000, 1, 0x0, 1, 0x0, [⟨0, 18, .rw, 0x3ffff⟩, ⟨18, 1, .rw, 0⟩]⟩,
  -- FAB_DIMS
  ⟨0x200008, 1, 0x0, 1, 0x0, [⟨0, 2, .rw, 0⟩, ⟨2, 16, .rw, 0⟩, ⟨18, 4, .rw, 0⟩]⟩,
  -- FAB_RING
  ⟨0x200010, 1, 0x0, 1, 0x0, [⟨0, 48, .rw, 0⟩]⟩,
  -- FAB_PORTMAP
  ⟨0x200018, 1, 0x0, 1, 0x0, [⟨0, 64, .rw, 0⟩]⟩,
  -- FAB_EPOCH
  ⟨0x200020, 1, 0x0, 1, 0x0, [⟨0, 16, .ro, 0⟩, ⟨16, 1, .ro, 0⟩, ⟨17, 1, .ro, 1⟩, ⟨18, 1, .w1c, 0⟩, ⟨19, 1, .w1c, 0⟩, ⟨20, 16, .rw, 0⟩]⟩
  ]

/-- Registers of the rim blocks, part 5. -/
def rimRegs5 : List RegRow := [
  -- FAB_EPOCH_AT
  ⟨0x200028, 1, 0x0, 1, 0x0, [⟨0, 64, .wo, 0⟩]⟩,
  -- FAB_CTRL
  ⟨0x200030, 1, 0x0, 1, 0x0, [⟨0, 8, .rw, 0x40⟩, ⟨8, 8, .rw, 0x7d⟩, ⟨16, 8, .rw, 5⟩, ⟨24, 6, .rw, 0x30⟩]⟩,
  -- FAB_ESC_DIR
  ⟨0x200038, 1, 0x0, 1, 0x0, [⟨0, 16, .rw, 0⟩]⟩,
  -- FAB_TIME
  ⟨0x200040, 1, 0x0, 1, 0x0, [⟨0, 4, .rw, 0⟩, ⟨4, 1, .rw, 0⟩, ⟨5, 1, .ro, 0⟩, ⟨6, 8, .rw, 0xc⟩]⟩,
  -- FAB_TT_OFFSET
  ⟨0x200048, 1, 0x0, 1, 0x0, [⟨0, 32, .ro, 0⟩, ⟨32, 32, .ro, 0⟩]⟩,
  -- FAB_CMAP
  ⟨0x200100, 1, 0x0, 16, 0x8, [⟨0, 16, .ro, 0⟩, ⟨16, 16, .ro, 0xffff⟩]⟩,
  -- FAB_UNREACH
  ⟨0x200200, 1, 0x0, 1, 0x0, [⟨0, 64, .ro, 0⟩]⟩,
  -- FAB_ORDER_DROP
  ⟨0x200208, 1, 0x0, 1, 0x0, [⟨0, 64, .ro, 0⟩]⟩,
  -- FAB_AGE_DROP
  ⟨0x200210, 1, 0x0, 1, 0x0, [⟨0, 64, .ro, 0⟩]⟩,
  -- FAB_HOP_DROP
  ⟨0x200218, 1, 0x0, 1, 0x0, [⟨0, 64, .ro, 0⟩]⟩,
  -- FAB_ESC_DROP
  ⟨0x200220, 1, 0x0, 1, 0x0, [⟨0, 64, .ro, 0⟩]⟩,
  -- FAB_CLASS_DROP
  ⟨0x200228, 1, 0x0, 1, 0x0, [⟨0, 64, .ro, 0⟩]⟩
  ]

/-- Registers of the rim blocks, part 6. -/
def rimRegs6 : List RegRow := [
  -- FAB_TRANSIT
  ⟨0x200230, 1, 0x0, 1, 0x0, [⟨0, 64, .ro, 0⟩]⟩,
  -- FAB_PROMOTED
  ⟨0x200238, 1, 0x0, 1, 0x0, [⟨0, 64, .ro, 0⟩]⟩,
  -- FAB_RT
  ⟨0x210000, 8, 0x8000, 4096, 0x8, [⟨0, 2, .rw, 0⟩, ⟨2, 16, .rw, 0⟩]⟩,
  -- SCR_STATUS
  ⟨0x0, 1, 0x0, 1, 0x0, [⟨0, 16, .ro, 0⟩, ⟨16, 3, .ro, 0⟩, ⟨19, 1, .ro, 0⟩, ⟨20, 1, .ro, 0⟩, ⟨21, 1, .ro, 0⟩]⟩,
  -- SCR_MGMT_CTRL
  ⟨0x8, 1, 0x0, 1, 0x0, [⟨0, 16, .rw, 0xc030⟩]⟩,
  -- SCR_MC_KEY
  ⟨0x40, 1, 0x0, 12, 0x8, [⟨0, 64, .rwl, 0⟩]⟩,
  -- SCR_FM_EUI
  ⟨0xa0, 1, 0x0, 1, 0x0, [⟨0, 64, .rw, 0⟩]⟩,
  -- SCR_WDOG_CTRL
  ⟨0x100, 1, 0x0, 16, 0x8, [⟨0, 4, .rw, 0xb⟩, ⟨4, 1, .ro, 0⟩]⟩,
  -- SCR_WDOG_KICK
  ⟨0x180, 1, 0x0, 16, 0x8, [⟨0, 1, .wo, 0⟩]⟩,
  -- SCR_WDOG_EXPIRED
  ⟨0x200, 1, 0x0, 1, 0x0, [⟨0, 64, .ro, 0⟩]⟩,
  -- SCR_AUTH_FAIL
  ⟨0x208, 1, 0x0, 1, 0x0, [⟨0, 64, .ro, 0⟩]⟩,
  -- SCR_FRAMES_IN
  ⟨0x210, 1, 0x0, 1, 0x0, [⟨0, 64, .ro, 0⟩]⟩
  ]

/-- Registers of the rim blocks, part 7. -/
def rimRegs7 : List RegRow := [
  -- SCR_FRAMES_DROP
  ⟨0x218, 1, 0x0, 1, 0x0, [⟨0, 64, .ro, 0⟩]⟩,
  -- SCR_ESC_DROP
  ⟨0x220, 1, 0x0, 1, 0x0, [⟨0, 64, .ro, 0⟩]⟩,
  -- CLK_STATUS
  ⟨0x2a0000, 1, 0x0, 1, 0x0, [⟨0, 1, .ro, 0⟩, ⟨1, 1, .w1c, 0⟩, ⟨2, 1, .ro, 0⟩, ⟨3, 1, .w1c, 0⟩, ⟨4, 11, .ro, 0x352⟩, ⟨15, 1, .w1c, 0⟩]⟩,
  -- CLK_CTRL
  ⟨0x2a0008, 1, 0x0, 1, 0x0, [⟨0, 8, .rw, 8⟩, ⟨8, 6, .rw, 0xc⟩, ⟨14, 6, .rw, 4⟩]⟩,
  -- CLK_FREQ_TARGET
  ⟨0x2a0010, 1, 0x0, 1, 0x0, [⟨0, 11, .rw, 0x352⟩]⟩,
  -- CLK_FREQ_AT
  ⟨0x2a0018, 1, 0x0, 1, 0x0, [⟨0, 64, .wo, 0⟩]⟩,
  -- CLK_CL_CFG of clusters (0, cy), cy < 5
  ⟨0x2a1000, 5, 0xc00, 1, 0x0, [⟨0, 2, .rw, 3⟩, ⟨2, 2, .rw, 0⟩, ⟨4, 1, .rw, 1⟩]⟩,
  -- CLK_CL_CFG of clusters (0, cy), cy > 5
  ⟨0x2a5800, 6, 0xc00, 1, 0x0, [⟨0, 2, .rw, 2⟩, ⟨2, 2, .rw, 0⟩, ⟨4, 1, .rw, 1⟩]⟩,
  -- CLK_CL_CFG
  ⟨0x2a1000, 144, 0x100, 1, 0x0, [⟨0, 2, .rw, 0⟩, ⟨2, 2, .rw, 0⟩, ⟨4, 1, .rw, 1⟩]⟩,
  -- CLK_CL_STATUS
  ⟨0x2a1008, 144, 0x100, 1, 0x0, [⟨0, 1, .ro, 0⟩, ⟨1, 1, .ro, 0⟩, ⟨2, 1, .ro, 0⟩, ⟨3, 1, .ro, 0⟩]⟩,
  -- CLK_XING
  ⟨0x2a1010, 144, 0x100, 4, 0x8, [⟨0, 9, .ro, 0⟩, ⟨9, 9, .ro, 0⟩, ⟨18, 6, .w1c, 0x3f⟩, ⟨24, 1, .ro, 0⟩, ⟨25, 1, .ro, 0⟩]⟩,
  -- CLK_RETRAIN
  ⟨0x2a1040, 144, 0x100, 1, 0x0, [⟨0, 64, .ro, 0⟩]⟩,
  -- CLK_REF_SWITCH
  ⟨0x2a1048, 144, 0x100, 1, 0x0, [⟨0, 64, .ro, 0⟩]⟩,
  -- TIME_NS
  ⟨0x2c8000, 1, 0x0, 1, 0x0, [⟨0, 30, .ro, 0⟩]⟩
  ]

/-- Registers of the rim blocks, part 8. -/
def rimRegs8 : List RegRow := [
  -- TIME_SEC
  ⟨0x2c8008, 1, 0x0, 1, 0x0, [⟨0, 48, .ro, 0⟩]⟩,
  -- TIME_SEC_LATCH
  ⟨0x2c8010, 1, 0x0, 1, 0x0, [⟨0, 48, .ro, 0⟩]⟩,
  -- TIME_SEC_STAGE
  ⟨0x2c8020, 1, 0x0, 1, 0x0, [⟨0, 48, .rw, 0⟩]⟩,
  -- TIME_NS_STAGE
  ⟨0x2c8028, 1, 0x0, 1, 0x0, [⟨0, 30, .rw, 0⟩]⟩,
  -- TIME_RATE_STAGE
  ⟨0x2c8030, 1, 0x0, 1, 0x0, [⟨0, 32, .rw, 0⟩]⟩,
  -- TIME_COMMIT_AT
  ⟨0x2c8038, 1, 0x0, 1, 0x0, [⟨0, 64, .rw, 0⟩]⟩,
  -- TIME_STAGE_CTRL
  ⟨0x2c8040, 1, 0x0, 1, 0x0, [⟨0, 1, .rw, 0⟩, ⟨1, 1, .rw, 0⟩, ⟨2, 1, .rw, 0⟩, ⟨3, 1, .rw, 0⟩]⟩,
  -- TIME_RATE
  ⟨0x2c8048, 1, 0x0, 1, 0x0, [⟨0, 32, .ro, 0⟩]⟩,
  -- TIME_CTRL
  ⟨0x2c8050, 1, 0x0, 1, 0x0, [⟨0, 1, .rw, 0⟩, ⟨1, 1, .rw, 0⟩, ⟨2, 8, .rw, 0x64⟩]⟩,
  -- TIME_STATUS
  ⟨0x2c8058, 1, 0x0, 1, 0x0, [⟨0, 1, .ro, 0⟩, ⟨1, 1, .ro, 0⟩, ⟨2, 1, .w1c, 0⟩, ⟨3, 1, .w1c, 0⟩, ⟨4, 1, .w1c, 0⟩]⟩,
  -- TIME_PPS_IN
  ⟨0x2c8060, 1, 0x0, 1, 0x0, [⟨0, 64, .ro, 0⟩]⟩,
  -- TIME_PPS_GLITCH
  ⟨0x2c8068, 1, 0x0, 1, 0x0, [⟨0, 64, .ro, 0⟩]⟩
  ]

/-- Registers of the rim blocks, part 9. -/
def rimRegs9 : List RegRow := [
  -- PWR_STATUS
  ⟨0x2b0000, 1, 0x0, 1, 0x0, [⟨0, 2, .ro, 0⟩, ⟨2, 1, .ro, 0⟩, ⟨3, 1, .ro, 0⟩, ⟨4, 1, .w1c, 0⟩, ⟨5, 11, .ro, 0x47e⟩, ⟨16, 3, .ro, 0⟩]⟩,
  -- PWR_CTRL
  ⟨0x2b0008, 1, 0x0, 1, 0x0, [⟨0, 2, .rw, 0⟩, ⟨2, 1, .rw, 1⟩]⟩,
  -- PWR_LIMIT
  ⟨0x2b0010, 1, 0x0, 1, 0x0, [⟨0, 16, .rw, 0x3a98⟩, ⟨16, 16, .rw, 0x445c⟩, ⟨32, 4, .rw, 0xa⟩]⟩,
  -- PWR_GOV
  ⟨0x2b0018, 1, 0x0, 1, 0x0, [⟨0, 8, .rw, 0x64⟩, ⟨8, 6, .rw, 0xf⟩, ⟨14, 8, .rw, 0x14⟩, ⟨22, 6, .rw, 4⟩]⟩,
  -- PWR_THERM
  ⟨0x2b0020, 1, 0x0, 1, 0x0, [⟨0, 8, .rw, 0x5f⟩, ⟨8, 8, .rw, 0x6e⟩, ⟨16, 4, .rw, 5⟩]⟩,
  -- PWR_EST
  ⟨0x2b0028, 1, 0x0, 1, 0x0, [⟨0, 16, .ro, 0⟩, ⟨16, 16, .ro, 0⟩, ⟨32, 8, .ro, 0⟩]⟩,
  -- PWR_COEF
  ⟨0x2b0040, 1, 0x0, 8, 0x8, [⟨0, 32, .rw, 0⟩]⟩,
  -- PWR_ENERGY_DEV
  ⟨0x2b0100, 1, 0x0, 1, 0x0, [⟨0, 64, .ro, 0⟩]⟩,
  -- PWR_ENERGY_RIM
  ⟨0x2b0108, 1, 0x0, 1, 0x0, [⟨0, 64, .ro, 0⟩]⟩,
  -- PWR_ENERGY_FREE
  ⟨0x2b0110, 1, 0x0, 1, 0x0, [⟨0, 64, .ro, 0⟩]⟩,
  -- PWR_PEAK_EVENTS
  ⟨0x2b0118, 1, 0x0, 1, 0x0, [⟨0, 64, .ro, 0⟩]⟩,
  -- PWR_AVS_ERR
  ⟨0x2b0120, 1, 0x0, 1, 0x0, [⟨0, 64, .ro, 0⟩]⟩
  ]

/-- Registers of the rim blocks, part 10. -/
def rimRegs10 : List RegRow := [
  -- PWR_THROTTLE_US
  ⟨0x2b0128, 1, 0x0, 1, 0x0, [⟨0, 64, .ro, 0⟩]⟩,
  -- PWR_CL_STATUS
  ⟨0x2b1000, 144, 0x100, 1, 0x0, [⟨0, 10, .ro, 0x320⟩, ⟨10, 8, .ro, 0⟩, ⟨18, 8, .ro, 0⟩, ⟨26, 4, .ro, 0⟩]⟩,
  -- PWR_CL_CTRL
  ⟨0x2b1008, 144, 0x100, 1, 0x0, [⟨0, 8, .rw, 0x91⟩, ⟨8, 4, .rw, 4⟩, ⟨12, 6, .rw, 0x14⟩]⟩,
  -- PWR_CL_VF
  ⟨0x2b1010, 144, 0x100, 10, 0x8, [⟨0, 10, .rw, 0x352⟩]⟩,
  -- PWR_CL_CAL
  ⟨0x2b1060, 144, 0x100, 1, 0x0, [⟨0, 16, .ro, 0x4000⟩]⟩,
  -- PWR_CL_BOOST
  ⟨0x2b1080, 144, 0x100, 1, 0x0, [⟨0, 64, .ro, 0⟩]⟩,
  -- PWR_CL_SKIP
  ⟨0x2b1088, 144, 0x100, 1, 0x0, [⟨0, 64, .ro, 0⟩]⟩,
  -- PWR_CL_SHUNT
  ⟨0x2b1090, 144, 0x100, 1, 0x0, [⟨0, 64, .ro, 0⟩]⟩,
  -- PWR_CL_DROOP_ERR
  ⟨0x2b1098, 144, 0x100, 1, 0x0, [⟨0, 64, .ro, 0⟩]⟩,
  -- RST_CTRL
  ⟨0x2c4000, 1, 0x0, 1, 0x0, [⟨0, 1, .wo, 0⟩, ⟨1, 1, .wo, 0⟩]⟩,
  -- RST_STATUS
  ⟨0x2c4008, 1, 0x0, 1, 0x0, [⟨0, 4, .ro, 1⟩, ⟨4, 1, .ro, 0⟩, ⟨5, 1, .ro, 0⟩, ⟨6, 3, .ro, 0⟩]⟩,
  -- RST_LOAD_LAST
  ⟨0x2c4010, 1, 0x0, 1, 0x0, [⟨0, 8, .ro, 0⟩, ⟨8, 16, .ro, 0⟩, ⟨24, 7, .ro, 0⟩, ⟨31, 1, .w1c, 0⟩]⟩
  ]

/-- Registers of the rim blocks, part 11. -/
def rimRegs11 : List RegRow := [
  -- FUSE_EUI
  ⟨0x2cb000, 1, 0x0, 1, 0x0, [⟨0, 64, .ro, 0⟩]⟩,
  -- FUSE_STATUS
  ⟨0x2cb008, 1, 0x0, 1, 0x0, [⟨0, 1, .ro, 0⟩, ⟨1, 1, .w1c, 0⟩]⟩,
  -- FUSE_PIN_RESET0
  ⟨0x2cb010, 1, 0x0, 1, 0x0, [⟨0, 48, .ro, 0xa30884896c3⟩]⟩,
  -- FUSE_PIN_RESET1
  ⟨0x2cb018, 1, 0x0, 1, 0x0, [⟨0, 48, .ro, 0⟩]⟩,
  -- AOI_CAUSE
  ⟨0x2c9000, 1, 0x0, 1, 0x0, [⟨0, 4, .ro, 0⟩, ⟨4, 4, .ro, 0⟩, ⟨8, 32, .ro, 0⟩, ⟨40, 1, .w1c, 0⟩]⟩,
  -- AOI_START
  ⟨0x2c9008, 1, 0x0, 1, 0x0, [⟨0, 2, .ro, 0⟩, ⟨2, 1, .ro, 0⟩, ⟨3, 1, .ro, 0⟩]⟩,
  -- AOI_LIFECYCLE
  ⟨0x2c9010, 1, 0x0, 1, 0x0, [⟨0, 3, .ro, 0⟩, ⟨3, 8, .ro, 0⟩]⟩,
  -- AOI_CMD
  ⟨0x2c9018, 1, 0x0, 1, 0x0, [⟨0, 8, .wo, 0⟩]⟩,
  -- RST_REPAIR_CTRL
  ⟨0x2c4018, 1, 0x0, 1, 0x0, [⟨0, 4, .rw, 3⟩, ⟨4, 8, .rw, 0x18⟩, ⟨12, 4, .rw, 4⟩]⟩,
  -- RST_CFG_VOTES
  ⟨0x2c4020, 1, 0x0, 1, 0x0, [⟨0, 64, .ro, 0⟩]⟩,
  -- RST_ROWMAP
  ⟨0x2c5000, 1, 0x0, 1152, 0x8, [⟨0, 3, .ro, 0⟩, ⟨3, 3, .ro, 7⟩, ⟨6, 1, .ro, 0⟩, ⟨7, 1, .ro, 0⟩]⟩,
  -- RGN_CHECK
  ⟨0x2c2000, 64, 0x40, 1, 0x0, [⟨0, 2, .rwl, 0⟩, ⟨2, 4, .rwl, 0⟩, ⟨6, 4, .rwl, 0⟩, ⟨10, 8, .rw, 8⟩]⟩
  ]

/-- Registers of the rim blocks, part 12. -/
def rimRegs12 : List RegRow := [
  -- RGN_CHECK_STATUS
  ⟨0x2c2008, 64, 0x40, 1, 0x0, [⟨0, 13, .ro, 0⟩, ⟨13, 1, .ro, 0⟩, ⟨14, 1, .ro, 0⟩]⟩,
  -- RGN_VOTES_AGREE
  ⟨0x2c2010, 64, 0x40, 1, 0x0, [⟨0, 64, .ro, 0⟩]⟩,
  -- RGN_VOTES_CORRECTED
  ⟨0x2c2018, 64, 0x40, 1, 0x0, [⟨0, 64, .ro, 0⟩]⟩,
  -- RGN_VOTES_FAILED
  ⟨0x2c2020, 64, 0x40, 1, 0x0, [⟨0, 64, .ro, 0⟩]⟩,
  -- SCR_EX_CTRL
  ⟨0x300, 1, 0x0, 1, 0x0, [⟨0, 8, .rw, 0xc⟩, ⟨8, 1, .rw, 1⟩]⟩,
  -- SCR_EX_STATUS
  ⟨0x308, 1, 0x0, 1, 0x0, [⟨0, 7, .ro, 0⟩, ⟨7, 1, .w1c, 0⟩]⟩,
  -- SCR_EX_CMD
  ⟨0x320, 1, 0x0, 1, 0x0, [⟨0, 1, .wo, 0⟩, ⟨1, 1, .wo, 0⟩]⟩,
  -- SCR_EX_RUNS
  ⟨0x310, 1, 0x0, 1, 0x0, [⟨0, 64, .ro, 0⟩]⟩,
  -- SCR_EX_FAILS
  ⟨0x318, 1, 0x0, 1, 0x0, [⟨0, 64, .ro, 0⟩]⟩,
  -- SCR_EX_STAGE
  ⟨0x100000, 1, 0x0, 131072, 0x8, [⟨0, 64, .rw, 0⟩]⟩,
  -- AOI_RECOVER
  ⟨0x2c9020, 1, 0x0, 1, 0x0, [⟨0, 1, .ro, 0⟩]⟩,
  -- AOI_LOG_STATUS
  ⟨0x2c9028, 1, 0x0, 1, 0x0, [⟨0, 1, .ro, 0⟩, ⟨1, 16, .ro, 0⟩]⟩
  ]

/-- Registers of the rim blocks, part 13. -/
def rimRegs13 : List RegRow := [
  -- DBG_SNAP_AT
  ⟨0x2ca000, 1, 0x0, 1, 0x0, [⟨0, 64, .wo, 0⟩]⟩,
  -- DBG_SNAP_TIME
  ⟨0x2ca010, 1, 0x0, 1, 0x0, [⟨0, 64, .ro, 0⟩]⟩,
  -- DBG_FREEZE_AT
  ⟨0x2ca018, 1, 0x0, 1, 0x0, [⟨0, 64, .wo, 0⟩]⟩,
  -- DBG_FREEZE_TIME
  ⟨0x2ca028, 1, 0x0, 1, 0x0, [⟨0, 64, .ro, 0⟩]⟩,
  -- DBG_SNAP_STATUS
  ⟨0x2ca008, 1, 0x0, 1, 0x0, [⟨0, 32, .ro, 0⟩, ⟨32, 1, .ro, 0⟩, ⟨33, 1, .w1c, 0⟩, ⟨34, 1, .w1c, 0⟩]⟩,
  -- DBG_FREEZE_STATUS
  ⟨0x2ca020, 1, 0x0, 1, 0x0, [⟨0, 1, .ro, 0⟩, ⟨1, 1, .ro, 0⟩, ⟨2, 1, .ro, 0⟩, ⟨3, 1, .ro, 0⟩]⟩,
  -- DBG_BLOT_SEL
  ⟨0x2ca040, 1, 0x0, 1, 0x0, [⟨0, 8, .rw, 0⟩]⟩,
  -- DBG_BLOT_LEN
  ⟨0x2ca048, 1, 0x0, 1, 0x0, [⟨0, 32, .ro, 0⟩]⟩,
  -- DBG_BLOT_POS
  ⟨0x2ca050, 1, 0x0, 1, 0x0, [⟨0, 32, .ro, 0⟩]⟩,
  -- DBG_BLOT_DATA
  ⟨0x2ca058, 1, 0x0, 1, 0x0, [⟨0, 64, .ro, 0⟩]⟩,
  -- DBG_ID
  ⟨0x2ca060, 1, 0x0, 1, 0x0, [⟨0, 32, .ro, 0⟩, ⟨32, 4, .ro, 0⟩]⟩,
  -- DBG_STATUS
  ⟨0x2ca068, 1, 0x0, 1, 0x0, [⟨0, 1, .w1c, 0⟩]⟩
  ]

/-- Registers of the rim blocks, part 14. -/
def rimRegs14 : List RegRow := [
  -- AOI_LOG_HEAD
  ⟨0x2c9030, 1, 0x0, 1, 0x0, [⟨0, 32, .ro, 0⟩, ⟨32, 14, .ro, 0⟩]⟩,
  -- AOI_LOG_WR_DETAIL
  ⟨0x2c9038, 1, 0x0, 1, 0x0, [⟨0, 64, .rw, 0⟩]⟩,
  -- AOI_LOG_WR
  ⟨0x2c9040, 1, 0x0, 1, 0x0, [⟨0, 8, .wo, 0⟩, ⟨8, 2, .wo, 0⟩]⟩,
  -- AOI_LAST_GASP
  ⟨0x2c9060, 1, 0x0, 4, 0x8, [⟨0, 64, .ro, 0⟩]⟩
  ]

/-- Every register of the rim blocks. (DESIGN CHOICE, log entry 60.) -/
def rimRegs : List RegRow := rimRegs0 ++ rimRegs1 ++ rimRegs2 ++ rimRegs3 ++ rimRegs4 ++ rimRegs5 ++ rimRegs6 ++ rimRegs7 ++ rimRegs8 ++ rimRegs9 ++ rimRegs10 ++ rimRegs11 ++ rimRegs12 ++ rimRegs13 ++ rimRegs14

/-- The first offsets of the counters of the core blocks (R438, R439). -/
def coreCounters : List Nat := [
  0x1110, 0x1118, 0x1120, 0x1140, 0x1148, 0x1150, 0x2140, 0x2148, 0x2150, 0x6100, 0x6108, 0x6110,
  0x6118, 0x6120, 0x6128, 0x6130, 0x3100, 0x3108, 0x3110, 0x3118, 0x20100, 0x20108, 0x20110, 0x20118,
  0x20120, 0x4140, 0x4148, 0x4150, 0x4158, 0x4160, 0x4168, 0x4170, 0x210, 0x218, 0x220, 0x228,
  0x230, 0x238, 0x20128
  ]

/-- The first offsets of the counters of the cluster blocks (R438, R439). -/
def clusterCounters : List Nat := [
  0x100, 0x108, 0x110, 0x118, 0x120, 0x128, 0x208, 0x210, 0x218, 0x220
  ]

/-- The first offsets of the counters of the rim blocks (R438, R439). -/
def rimCounters : List Nat := [
  0x2c1030, 0x2c1038, 0x280020, 0x280028, 0x280030, 0x280038, 0x280040, 0x2d0080, 0x2d0088, 0x2d0090, 0x2d0098, 0x2d00a0,
  0x2d00a8, 0x2d00b0, 0x2d00b8, 0x2d0200, 0x2d0208, 0x2d0210, 0x2d0218, 0x2d0220, 0x2d0228, 0x2d0230, 0x2d0238, 0x2d0240,
  0x2d0248, 0x200200, 0x200208, 0x200210, 0x200218, 0x200220, 0x200228, 0x200230, 0x200238, 0x200, 0x208, 0x210,
  0x218, 0x220, 0x2a1040, 0x2a1048, 0x2b0100, 0x2b0108, 0x2b0110, 0x2b0118, 0x2b0120, 0x2b0128, 0x2b1080, 0x2b1088,
  0x2b1090, 0x2b1098, 0x2c4020, 0x2c2010, 0x2c2018, 0x2c2020, 0x2c8068, 0x310, 0x318
  ]

/-! The fields by name: block, register and field, in that order. -/

/-- CORE_STATUS.running (R72). -/
def fCoreStatusRunning : Fld := ⟨0x0, 0, 1⟩
/-- CORE_STATUS.halted (R72). -/
def fCoreStatusHalted : Fld := ⟨0x0, 1, 1⟩
/-- CORE_STATUS.stopped (R72). -/
def fCoreStatusStopped : Fld := ⟨0x0, 2, 1⟩
/-- CORE_STATUS.in_handler (R72). -/
def fCoreStatusInHandler : Fld := ⟨0x0, 3, 1⟩
/-- CORE_STATUS.loop_depth (R72). -/
def fCoreStatusLoopDepth : Fld := ⟨0x0, 4, 3⟩
/-- CORE_STATUS.breach (R72). -/
def fCoreStatusBreach : Fld := ⟨0x0, 7, 1⟩
/-- CORE_STATUS.poison_seen (R72). -/
def fCoreStatusPoisonSeen : Fld := ⟨0x0, 8, 1⟩
/-- CORE_STATUS.evq_count (R72). -/
def fCoreStatusEvqCount : Fld := ⟨0x0, 9, 6⟩
/-- CORE_STATUS.evq_overflow (R72). -/
def fCoreStatusEvqOverflow : Fld := ⟨0x0, 15, 1⟩
/-- CORE_CTRL.ev_en (R72). -/
def fCoreCtrlEvEn : Fld := ⟨0x8, 0, 1⟩
/-- CORE_CTRL.wait_limit (R72). -/
def fCoreCtrlWaitLimit : Fld := ⟨0x8, 1, 4⟩
/-- CORE_EVT_VEC.index (R72). -/
def fCoreEvtVecIndex : Fld := ⟨0x10, 0, 13⟩
/-- CORE_EVT_PC.index (R72). -/
def fCoreEvtPcIndex : Fld := ⟨0x18, 0, 13⟩
/-- CORE_PC.index (R72). -/
def fCorePcIndex : Fld := ⟨0x30, 0, 13⟩
/-- CORE_EVT_STALE.count (R72). -/
def fCoreEvtStaleCount : Fld := ⟨0x20, 0, 32⟩
/-- MX_FLAGS.spill (R97). -/
def fMxFlagsSpill : Fld := ⟨0x1100, 0, 1⟩
/-- MX_FLAGS.range (R97). -/
def fMxFlagsRange : Fld := ⟨0x1100, 1, 1⟩
/-- MX_FLAGS.inexact (R97). -/
def fMxFlagsInexact : Fld := ⟨0x1100, 2, 1⟩
/-- MX_FLAGS.overflow (R97). -/
def fMxFlagsOverflow : Fld := ⟨0x1100, 3, 1⟩
/-- MX_FLAGS.nan_out (R97). -/
def fMxFlagsNanOut : Fld := ⟨0x1100, 4, 1⟩
/-- MX_FLAGS.poison (R97). -/
def fMxFlagsPoison : Fld := ⟨0x1100, 5, 1⟩
/-- MX_STATUS.hand (R122). -/
def fMxStatusHand : Fld := ⟨0x1000, 0, 2⟩
/-- MX_STATUS.plane0_valid (R122). -/
def fMxStatusPlane0Valid : Fld := ⟨0x1000, 2, 1⟩
/-- MX_STATUS.plane1_valid (R122). -/
def fMxStatusPlane1Valid : Fld := ⟨0x1000, 3, 1⟩
/-- MX_STATUS.queued (R122). -/
def fMxStatusQueued : Fld := ⟨0x1000, 4, 4⟩
/-- MX_STATUS.streaming (R122). -/
def fMxStatusStreaming : Fld := ⟨0x1000, 8, 1⟩
/-- MX_STATUS.loading (R122). -/
def fMxStatusLoading : Fld := ⟨0x1000, 9, 1⟩
/-- MX_STATUS.draining (R122). -/
def fMxStatusDraining : Fld := ⟨0x1000, 10, 1⟩
/-- MX_STATUS.feed_wait (R122). -/
def fMxStatusFeedWait : Fld := ⟨0x1000, 11, 1⟩
/-- MX_ANCHOR_DEF.mode (R122). -/
def fMxAnchorDefMode : Fld := ⟨0x1008, 0, 2⟩
/-- MX_ANCHOR_DEF.value (R122). -/
def fMxAnchorDefValue : Fld := ⟨0x1008, 2, 10⟩
/-- MX_CK_CHECKED.count (R122). -/
def fMxCkCheckedCount : Fld := ⟨0x1110, 0, 64⟩
/-- MX_CK_SKIPPED.count (R122). -/
def fMxCkSkippedCount : Fld := ⟨0x1118, 0, 64⟩
/-- MX_CK_MISMATCH.count (R122). -/
def fMxCkMismatchCount : Fld := ⟨0x1120, 0, 64⟩
/-- MX_STROKES.count (R122). -/
def fMxStrokesCount : Fld := ⟨0x1140, 0, 64⟩
/-- MX_STALL_FEED.count (R122). -/
def fMxStallFeedCount : Fld := ⟨0x1148, 0, 64⟩
/-- MX_STALL_WELL.count (R122). -/
def fMxStallWellCount : Fld := ⟨0x1150, 0, 64⟩
/-- MX_CK_LAST.row (R122). -/
def fMxCkLastRow : Fld := ⟨0x1128, 0, 9⟩
/-- MX_CK_LAST.column (R122). -/
def fMxCkLastColumn : Fld := ⟨0x1128, 9, 6⟩
/-- MX_CK_LAST.generation (R122). -/
def fMxCkLastGeneration : Fld := ⟨0x1128, 15, 8⟩
/-- MX_CK_LAST.valid (R122). -/
def fMxCkLastValid : Fld := ⟨0x1128, 23, 1⟩
/-- VX_STATUS.queued (R138). -/
def fVxStatusQueued : Fld := ⟨0x2000, 0, 5⟩
/-- VX_STATUS.busy (R138). -/
def fVxStatusBusy : Fld := ⟨0x2000, 5, 1⟩
/-- VX_STATUS.feed_wait (R138). -/
def fVxStatusFeedWait : Fld := ⟨0x2000, 6, 1⟩
/-- VX_STATUS.port_bytes (R138). -/
def fVxStatusPortBytes : Fld := ⟨0x2000, 7, 15⟩
/-- VX_FLAGS.spill (R138). -/
def fVxFlagsSpill : Fld := ⟨0x2100, 0, 1⟩
/-- VX_FLAGS.range (R138). -/
def fVxFlagsRange : Fld := ⟨0x2100, 1, 1⟩
/-- VX_FLAGS.inexact (R138). -/
def fVxFlagsInexact : Fld := ⟨0x2100, 2, 1⟩
/-- VX_FLAGS.overflow (R138). -/
def fVxFlagsOverflow : Fld := ⟨0x2100, 3, 1⟩
/-- VX_FLAGS.nan_out (R138). -/
def fVxFlagsNanOut : Fld := ⟨0x2100, 4, 1⟩
/-- VX_FLAGS.poison (R138). -/
def fVxFlagsPoison : Fld := ⟨0x2100, 5, 1⟩
/-- VX_INSTR.count (R138). -/
def fVxInstrCount : Fld := ⟨0x2140, 0, 64⟩
/-- VX_STALL_FEED.count (R138). -/
def fVxStallFeedCount : Fld := ⟨0x2148, 0, 64⟩
/-- VX_STALL_WELL.count (R138). -/
def fVxStallWellCount : Fld := ⟨0x2150, 0, 64⟩
/-- WELL_STATUS.wiping (R162). -/
def fWellStatusWiping : Fld := ⟨0x6000, 0, 1⟩
/-- WELL_STATUS.async_waiting (R162). -/
def fWellStatusAsyncWaiting : Fld := ⟨0x6000, 1, 1⟩
/-- WELL_STATUS.breach_seen (R162). -/
def fWellStatusBreachSeen : Fld := ⟨0x6000, 2, 1⟩
/-- WELL_STATUS.ue_seen (R162). -/
def fWellStatusUeSeen : Fld := ⟨0x6000, 3, 1⟩
/-- WELL_CTRL.wsw_trap (R162). -/
def fWellCtrlWswTrap : Fld := ⟨0x6008, 0, 1⟩
/-- WELL_CTRL.async_limit (R162). -/
def fWellCtrlAsyncLimit : Fld := ⟨0x6008, 1, 4⟩
/-- WELL_CTRL.scrub_en (R162). -/
def fWellCtrlScrubEn : Fld := ⟨0x6008, 5, 1⟩
/-- WELL_BUF.enable (R162). -/
def fWellBufEnable : Fld := ⟨0x6040, 0, 1⟩
/-- WELL_BUF.kind (R162). -/
def fWellBufKind : Fld := ⟨0x6040, 1, 1⟩
/-- WELL_BUF.verso (R162). -/
def fWellBufVerso : Fld := ⟨0x6040, 2, 1⟩
/-- WELL_BUF.base (R162). -/
def fWellBufBase : Fld := ⟨0x6040, 3, 13⟩
/-- WELL_BUF.half (R162). -/
def fWellBufHalf : Fld := ⟨0x6040, 16, 12⟩
/-- WELL_BREACH.address (R162). -/
def fWellBreachAddress : Fld := ⟨0x6080, 0, 19⟩
/-- WELL_BREACH.port (R162). -/
def fWellBreachPort : Fld := ⟨0x6080, 19, 4⟩
/-- WELL_BREACH.pair (R162). -/
def fWellBreachPair : Fld := ⟨0x6080, 23, 3⟩
/-- WELL_BREACH.write (R162). -/
def fWellBreachWrite : Fld := ⟨0x6080, 26, 1⟩
/-- WELL_BREACH.generation (R162). -/
def fWellBreachGeneration : Fld := ⟨0x6080, 27, 8⟩
/-- WELL_BREACH.valid (R162). -/
def fWellBreachValid : Fld := ⟨0x6080, 35, 1⟩
/-- WELL_ECC_LAST.address (R162). -/
def fWellEccLastAddress : Fld := ⟨0x6088, 0, 19⟩
/-- WELL_ECC_LAST.generation (R162). -/
def fWellEccLastGeneration : Fld := ⟨0x6088, 19, 8⟩
/-- WELL_ECC_LAST.valid (R162). -/
def fWellEccLastValid : Fld := ⟨0x6088, 27, 1⟩
/-- WELL_STALL_SCHED.count (R162). -/
def fWellStallSchedCount : Fld := ⟨0x6100, 0, 64⟩
/-- WELL_ASYNC_WAIT.count (R162). -/
def fWellAsyncWaitCount : Fld := ⟨0x6108, 0, 64⟩
/-- WELL_ASYNC_FORCED.count (R162). -/
def fWellAsyncForcedCount : Fld := ⟨0x6110, 0, 64⟩
/-- WELL_BREACH_COUNT.count (R162). -/
def fWellBreachCountCount : Fld := ⟨0x6118, 0, 64⟩
/-- WELL_WSW_TRAPS.count (R162). -/
def fWellWswTrapsCount : Fld := ⟨0x6120, 0, 64⟩
/-- WELL_ECC_CE.count (R162). -/
def fWellEccCeCount : Fld := ⟨0x6128, 0, 64⟩
/-- WELL_ECC_UE.count (R162). -/
def fWellEccUeCount : Fld := ⟨0x6130, 0, 64⟩
/-- WELL_WSW.granule (R162). -/
def fWellWswGranule : Fld := ⟨0x7000, 0, 64⟩
/-- CP_STATUS.queued (R183). -/
def fCpStatusQueued : Fld := ⟨0x3000, 0, 6⟩
/-- CP_STATUS.slots (R183). -/
def fCpStatusSlots : Fld := ⟨0x3000, 6, 8⟩
/-- CP_STATUS.move_busy (R183). -/
def fCpStatusMoveBusy : Fld := ⟨0x3000, 14, 1⟩
/-- CP_STATUS.port_bytes (R183). -/
def fCpStatusPortBytes : Fld := ⟨0x3000, 15, 16⟩
/-- CP_CTRL.promote_age (R183). -/
def fCpCtrlPromoteAge : Fld := ⟨0x3008, 0, 8⟩
/-- CP_SHAPE_A.enable (R183). -/
def fCpShapeAEnable : Fld := ⟨0x3200, 0, 1⟩
/-- CP_SHAPE_A.run (R183). -/
def fCpShapeARun : Fld := ⟨0x3200, 1, 20⟩
/-- CP_SHAPE_A.rows (R183). -/
def fCpShapeARows : Fld := ⟨0x3200, 21, 16⟩
/-- CP_SHAPE_A.elem (R183). -/
def fCpShapeAElem : Fld := ⟨0x3200, 37, 3⟩
/-- CP_SHAPE_B.src_stride (R183). -/
def fCpShapeBSrcStride : Fld := ⟨0x3208, 0, 32⟩
/-- CP_SHAPE_B.dst_stride (R183). -/
def fCpShapeBDstStride : Fld := ⟨0x3208, 32, 32⟩
/-- CP_LINES.count (R183). -/
def fCpLinesCount : Fld := ⟨0x3100, 0, 64⟩
/-- CP_LATE.count (R183). -/
def fCpLateCount : Fld := ⟨0x3108, 0, 64⟩
/-- CP_PROMOTED.count (R183). -/
def fCpPromotedCount : Fld := ⟨0x3110, 0, 64⟩
/-- CP_INSTR.count (R183). -/
def fCpInstrCount : Fld := ⟨0x3118, 0, 64⟩
/-- RSV_STATUS.wiping (R183). -/
def fRsvStatusWiping : Fld := ⟨0x20000, 0, 1⟩
/-- RSV_STATUS.ue_seen (R183). -/
def fRsvStatusUeSeen : Fld := ⟨0x20000, 1, 1⟩
/-- RSV_STATUS.refresh_hot (R183). -/
def fRsvStatusRefreshHot : Fld := ⟨0x20000, 2, 1⟩
/-- RSV_CTRL.wsw_trap (R183). -/
def fRsvCtrlWswTrap : Fld := ⟨0x20008, 0, 1⟩
/-- RSV_CTRL.scrub_en (R183). -/
def fRsvCtrlScrubEn : Fld := ⟨0x20008, 1, 1⟩
/-- RSV_ECC_LAST.address (R183). -/
def fRsvEccLastAddress : Fld := ⟨0x20088, 0, 28⟩
/-- RSV_ECC_LAST.generation (R183). -/
def fRsvEccLastGeneration : Fld := ⟨0x20088, 28, 8⟩
/-- RSV_ECC_LAST.valid (R183). -/
def fRsvEccLastValid : Fld := ⟨0x20088, 36, 1⟩
/-- RSV_ECC_CE.count (R183). -/
def fRsvEccCeCount : Fld := ⟨0x20100, 0, 64⟩
/-- RSV_ECC_UE.count (R183). -/
def fRsvEccUeCount : Fld := ⟨0x20108, 0, 64⟩
/-- RSV_ROW_OPEN.count (R183). -/
def fRsvRowOpenCount : Fld := ⟨0x20110, 0, 64⟩
/-- RSV_REFRESH.count (R183). -/
def fRsvRefreshCount : Fld := ⟨0x20118, 0, 64⟩
/-- RSV_WSW_TRAPS.count (R183). -/
def fRsvWswTrapsCount : Fld := ⟨0x20120, 0, 64⟩
/-- RSV_WSW.granule (R183). -/
def fRsvWswGranule : Fld := ⟨0x30000, 0, 64⟩
/-- CH_STATUS.queued (R214). -/
def fChStatusQueued : Fld := ⟨0x4000, 0, 6⟩
/-- CH_STATUS.sending (R214). -/
def fChStatusSending : Fld := ⟨0x4000, 6, 1⟩
/-- CH_STATUS.credit_wait (R214). -/
def fChStatusCreditWait : Fld := ⟨0x4000, 7, 1⟩
/-- CH_STATUS.closing (R214). -/
def fChStatusClosing : Fld := ⟨0x4000, 8, 6⟩
/-- CH_CQ_FLAGS.spill (R214). -/
def fChCqFlagsSpill : Fld := ⟨0x4100, 0, 1⟩
/-- CH_CQ_FLAGS.range (R214). -/
def fChCqFlagsRange : Fld := ⟨0x4100, 1, 1⟩
/-- CH_CQ_FLAGS.inexact (R214). -/
def fChCqFlagsInexact : Fld := ⟨0x4100, 2, 1⟩
/-- CH_CQ_FLAGS.overflow (R214). -/
def fChCqFlagsOverflow : Fld := ⟨0x4100, 3, 1⟩
/-- CH_CQ_FLAGS.nan_out (R214). -/
def fChCqFlagsNanOut : Fld := ⟨0x4100, 4, 1⟩
/-- CH_CQ_FLAGS.poison (R214). -/
def fChCqFlagsPoison : Fld := ⟨0x4100, 5, 1⟩
/-- CH_SENT.count (R214). -/
def fChSentCount : Fld := ⟨0x4140, 0, 64⟩
/-- CH_LANDED.count (R214). -/
def fChLandedCount : Fld := ⟨0x4148, 0, 64⟩
/-- CH_DROP.count (R214). -/
def fChDropCount : Fld := ⟨0x4150, 0, 64⟩
/-- CH_STALE.count (R214). -/
def fChStaleCount : Fld := ⟨0x4158, 0, 64⟩
/-- CH_MERGED.count (R214). -/
def fChMergedCount : Fld := ⟨0x4160, 0, 64⟩
/-- CH_STALL.count (R214). -/
def fChStallCount : Fld := ⟨0x4168, 0, 64⟩
/-- CH_CREDIT_EXCESS.count (R214). -/
def fChCreditExcessCount : Fld := ⟨0x4170, 0, 64⟩
/-- CH_DROP_LAST.info (R214). -/
def fChDropLastInfo : Fld := ⟨0x4180, 0, 43⟩
/-- CH_DROP_LAST.code (R214). -/
def fChDropLastCode : Fld := ⟨0x4180, 43, 8⟩
/-- CH_DROP_LAST.generation (R214). -/
def fChDropLastGeneration : Fld := ⟨0x4180, 51, 8⟩
/-- CH_DROP_LAST.valid (R214). -/
def fChDropLastValid : Fld := ⟨0x4180, 59, 1⟩
/-- CH_DUCTUS_A.enable (R214). -/
def fChDuctusAEnable : Fld := ⟨0x4400, 0, 1⟩
/-- CH_DUCTUS_A.kind (R214). -/
def fChDuctusAKind : Fld := ⟨0x4400, 1, 2⟩
/-- CH_DUCTUS_A.order (R214). -/
def fChDuctusAOrder : Fld := ⟨0x4400, 3, 1⟩
/-- CH_DUCTUS_A.dest_x (R214). -/
def fChDuctusADestX : Fld := ⟨0x4400, 4, 7⟩
/-- CH_DUCTUS_A.dest_y (R214). -/
def fChDuctusADestY : Fld := ⟨0x4400, 11, 7⟩
/-- CH_DUCTUS_A.dest_ep (R214). -/
def fChDuctusADestEp : Fld := ⟨0x4400, 18, 6⟩
/-- CH_DUCTUS_A.group (R214). -/
def fChDuctusAGroup : Fld := ⟨0x4400, 24, 12⟩
/-- CH_DUCTUS_A.credits (R214). -/
def fChDuctusACredits : Fld := ⟨0x4400, 36, 16⟩
/-- CH_DUCTUS_A.cunit (R214). -/
def fChDuctusACunit : Fld := ⟨0x4400, 52, 1⟩
/-- CH_DUCTUS_B.first_member (R214). -/
def fChDuctusBFirstMember : Fld := ⟨0x4408, 0, 8⟩
/-- CH_DUCTUS_B.members (R214). -/
def fChDuctusBMembers : Fld := ⟨0x4408, 8, 6⟩
/-- CH_DUCTUS_B.batch (R214). -/
def fChDuctusBBatch : Fld := ⟨0x4408, 14, 16⟩
/-- CH_DUCTUS_B.group_size (R214). -/
def fChDuctusBGroupSize : Fld := ⟨0x4408, 30, 13⟩
/-- CH_DUCTUS_B.binding (R214). -/
def fChDuctusBBinding : Fld := ⟨0x4408, 43, 8⟩
/-- CH_DUCTUS_B.rd_window (R214). -/
def fChDuctusBRdWindow : Fld := ⟨0x4408, 51, 1⟩
/-- CH_LAND_A.enable (R214). -/
def fChLandAEnable : Fld := ⟨0x4800, 0, 1⟩
/-- CH_LAND_A.target (R214). -/
def fChLandATarget : Fld := ⟨0x4800, 1, 3⟩
/-- CH_LAND_A.counter (R214). -/
def fChLandACounter : Fld := ⟨0x4800, 4, 3⟩
/-- CH_LAND_A.count_en (R214). -/
def fChLandACountEn : Fld := ⟨0x4800, 7, 1⟩
/-- CH_LAND_A.base (R214). -/
def fChLandABase : Fld := ⟨0x4800, 8, 19⟩
/-- CH_LAND_A.size (R214). -/
def fChLandASize : Fld := ⟨0x4800, 27, 19⟩
/-- CH_LAND_A.slot (R214). -/
def fChLandASlot : Fld := ⟨0x4800, 46, 9⟩
/-- CH_LAND_A.queue (R214). -/
def fChLandAQueue : Fld := ⟨0x4800, 55, 4⟩
/-- CH_LAND_B.ret_mode (R214). -/
def fChLandBRetMode : Fld := ⟨0x4808, 0, 1⟩
/-- CH_LAND_B.ret_x (R214). -/
def fChLandBRetX : Fld := ⟨0x4808, 1, 7⟩
/-- CH_LAND_B.ret_y (R214). -/
def fChLandBRetY : Fld := ⟨0x4808, 8, 7⟩
/-- CH_LAND_B.ret_ep (R214). -/
def fChLandBRetEp : Fld := ⟨0x4808, 15, 6⟩
/-- CH_CQ_A.enable (R214). -/
def fChCqAEnable : Fld := ⟨0x4c00, 0, 1⟩
/-- CH_CQ_A.first (R214). -/
def fChCqAFirst : Fld := ⟨0x4c00, 1, 11⟩
/-- CH_CQ_A.slots (R214). -/
def fChCqASlots : Fld := ⟨0x4c00, 12, 11⟩
/-- CH_CQ_A.anchor (R214). -/
def fChCqAAnchor : Fld := ⟨0x4c00, 23, 10⟩
/-- CH_CQ_A.expect (R214). -/
def fChCqAExpect : Fld := ⟨0x4c00, 33, 12⟩
/-- CH_CQ_A.out_mode (R214). -/
def fChCqAOutMode : Fld := ⟨0x4c00, 45, 1⟩
/-- CH_CQ_A.fwd_ep (R214). -/
def fChCqAFwdEp : Fld := ⟨0x4c00, 46, 6⟩
/-- CH_CQ_A.group (R214). -/
def fChCqAGroup : Fld := ⟨0x4c00, 52, 12⟩
/-- CH_CQ_B.out_base (R214). -/
def fChCqBOutBase : Fld := ⟨0x4c08, 0, 19⟩
/-- CH_CQ_B.ret_ep (R214). -/
def fChCqBRetEp : Fld := ⟨0x4c08, 19, 6⟩
/-- CH_CQ_B.counter (R214). -/
def fChCqBCounter : Fld := ⟨0x4c08, 32, 3⟩
/-- CH_CQ_B.count_en (R214). -/
def fChCqBCountEn : Fld := ⟨0x4c08, 35, 1⟩
/-- CH_CQ_B.round (R214). -/
def fChCqBRound : Fld := ⟨0x4c08, 36, 8⟩
/-- CH_CQ_B.out_credits (R214). -/
def fChCqBOutCredits : Fld := ⟨0x4c08, 44, 2⟩
/-- CH_TX.credits (R214). -/
def fChTxCredits : Fld := ⟨0x4d00, 0, 16⟩
/-- CH_TX.seq (R214). -/
def fChTxSeq : Fld := ⟨0x4d00, 16, 16⟩
/-- CH_TX.position (R214). -/
def fChTxPosition : Fld := ⟨0x4d00, 32, 32⟩
/-- CH_RX.landed (R214). -/
def fChRxLanded : Fld := ⟨0x4f00, 0, 32⟩
/-- CH_MEMBER.x (R214). -/
def fChMemberX : Fld := ⟨0x5200, 0, 7⟩
/-- CH_MEMBER.y (R214). -/
def fChMemberY : Fld := ⟨0x5200, 7, 7⟩
/-- CH_MEMBER.ep (R214). -/
def fChMemberEp : Fld := ⟨0x5200, 14, 6⟩
/-- CH_MEMBER.credits (R214). -/
def fChMemberCredits : Fld := ⟨0x5200, 20, 16⟩
/-- CH_MEMBER.seq (R214). -/
def fChMemberSeq : Fld := ⟨0x5200, 36, 16⟩
/-- LIG_STATUS.waiters (R236). -/
def fLigStatusWaiters : Fld := ⟨0x0, 0, 11⟩
/-- LIG_STATUS.wait_full (R236). -/
def fLigStatusWaitFull : Fld := ⟨0x0, 11, 1⟩
/-- LIG_OPS.count (R236). -/
def fLigOpsCount : Fld := ⟨0x100, 0, 64⟩
/-- LIG_FIRES.count (R236). -/
def fLigFiresCount : Fld := ⟨0x108, 0, 64⟩
/-- LIG_TIMEOUTS.count (R236). -/
def fLigTimeoutsCount : Fld := ⟨0x110, 0, 64⟩
/-- LIG_STALE.count (R236). -/
def fLigStaleCount : Fld := ⟨0x118, 0, 64⟩
/-- LIG_FAR_IN.count (R236). -/
def fLigFarInCount : Fld := ⟨0x120, 0, 64⟩
/-- LIG_FAR_DROP.count (R236). -/
def fLigFarDropCount : Fld := ⟨0x128, 0, 64⟩
/-- LIG_FAULT_LAST.info (R236). -/
def fLigFaultLastInfo : Fld := ⟨0x180, 0, 43⟩
/-- LIG_FAULT_LAST.code (R236). -/
def fLigFaultLastCode : Fld := ⟨0x180, 43, 8⟩
/-- LIG_FAULT_LAST.generation (R236). -/
def fLigFaultLastGeneration : Fld := ⟨0x180, 51, 8⟩
/-- LIG_FAULT_LAST.valid (R236). -/
def fLigFaultLastValid : Fld := ⟨0x180, 59, 1⟩
/-- LIG_CFG.enable (R236). -/
def fLigCfgEnable : Fld := ⟨0x1000, 0, 1⟩
/-- LIG_CFG.expect (R236). -/
def fLigCfgExpect : Fld := ⟨0x1000, 1, 16⟩
/-- LIG_CFG.timeout (R236). -/
def fLigCfgTimeout : Fld := ⟨0x1000, 17, 4⟩
/-- LIG_STATE.phase (R236). -/
def fLigStatePhase : Fld := ⟨0x2000, 0, 16⟩
/-- LIG_STATE.count (R236). -/
def fLigStateCount : Fld := ⟨0x2000, 16, 16⟩
/-- LIG_STATE.expect (R236). -/
def fLigStateExpect : Fld := ⟨0x2000, 32, 16⟩
/-- CORE_TA.armed (R236). -/
def fCoreTaArmed : Fld := ⟨0x100, 0, 1⟩
/-- CORE_TA.executed (R236). -/
def fCoreTaExecuted : Fld := ⟨0x100, 1, 1⟩
/-- CORE_TA.late (R236). -/
def fCoreTaLate : Fld := ⟨0x100, 2, 1⟩
/-- CORE_TA.cancelled (R236). -/
def fCoreTaCancelled : Fld := ⟨0x100, 3, 1⟩
/-- CORE_TA.lateness (R236). -/
def fCoreTaLateness : Fld := ⟨0x100, 32, 32⟩
/-- CORE_MESH_CFG.xp_sel (R259). -/
def fCoreMeshCfgXpSel : Fld := ⟨0x200, 0, 2⟩
/-- CORE_MESH_CFG.xm_sel (R259). -/
def fCoreMeshCfgXmSel : Fld := ⟨0x200, 2, 2⟩
/-- CORE_MESH_CFG.yp_sel (R259). -/
def fCoreMeshCfgYpSel : Fld := ⟨0x200, 4, 2⟩
/-- CORE_MESH_CFG.ym_sel (R259). -/
def fCoreMeshCfgYmSel : Fld := ⟨0x200, 6, 2⟩
/-- CORE_MESH_CFG.used (R259). -/
def fCoreMeshCfgUsed : Fld := ⟨0x200, 8, 1⟩
/-- CORE_MESH_STATUS.link_down (R259). -/
def fCoreMeshStatusLinkDown : Fld := ⟨0x208, 0, 4⟩
/-- CORE_MESH_STATUS.vc_busy (R259). -/
def fCoreMeshStatusVcBusy : Fld := ⟨0x208, 4, 4⟩
/-- CORE_MESH_FLITS.count (R259). -/
def fCoreMeshFlitsCount : Fld := ⟨0x210, 0, 64⟩
/-- CORE_MESH_TRANSIT.count (R259). -/
def fCoreMeshTransitCount : Fld := ⟨0x218, 0, 64⟩
/-- CORE_MESH_RETRY.count (R259). -/
def fCoreMeshRetryCount : Fld := ⟨0x220, 0, 64⟩
/-- CORE_MESH_CE.count (R259). -/
def fCoreMeshCeCount : Fld := ⟨0x228, 0, 64⟩
/-- CORE_MESH_UE.count (R259). -/
def fCoreMeshUeCount : Fld := ⟨0x230, 0, 64⟩
/-- CORE_MESH_MISROUTE.count (R259). -/
def fCoreMeshMisrouteCount : Fld := ⟨0x238, 0, 64⟩
/-- LIG_HL_STATUS.link_down (R259). -/
def fLigHlStatusLinkDown : Fld := ⟨0x200, 0, 4⟩
/-- LIG_HL_STATUS.detour (R259). -/
def fLigHlStatusDetour : Fld := ⟨0x200, 4, 1⟩
/-- LIG_HL_PACKETS.count (R259). -/
def fLigHlPacketsCount : Fld := ⟨0x208, 0, 64⟩
/-- LIG_HL_RETRY.count (R259). -/
def fLigHlRetryCount : Fld := ⟨0x210, 0, 64⟩
/-- LIG_HL_DROP.count (R259). -/
def fLigHlDropCount : Fld := ⟨0x218, 0, 64⟩
/-- LIG_HL_BEACONS.count (R259). -/
def fLigHlBeaconsCount : Fld := ⟨0x220, 0, 64⟩
/-- RGN_QOS_CTRL.promote_age (R280). -/
def fRgnQosCtrlPromoteAge : Fld := ⟨0x2c0000, 0, 8⟩
/-- RGN_CFG.enable (R280). -/
def fRgnCfgEnable : Fld := ⟨0x2c1000, 0, 1⟩
/-- RGN_CFG.cx0 (R280). -/
def fRgnCfgCx0 : Fld := ⟨0x2c1000, 1, 4⟩
/-- RGN_CFG.cy0 (R280). -/
def fRgnCfgCy0 : Fld := ⟨0x2c1000, 5, 4⟩
/-- RGN_CFG.width (R280). -/
def fRgnCfgWidth : Fld := ⟨0x2c1000, 9, 4⟩
/-- RGN_CFG.height (R280). -/
def fRgnCfgHeight : Fld := ⟨0x2c1000, 13, 4⟩
/-- RGN_CFG.job (R280). -/
def fRgnCfgJob : Fld := ⟨0x2c1000, 17, 6⟩
/-- RGN_CFG.seed_client (R280). -/
def fRgnCfgSeedClient : Fld := ⟨0x2c1000, 23, 10⟩
/-- RGN_CFG.compat (R280). -/
def fRgnCfgCompat : Fld := ⟨0x2c1000, 33, 1⟩
/-- RGN_CMD.cmd (R280). -/
def fRgnCmdCmd : Fld := ⟨0x2c1008, 0, 3⟩
/-- RGN_STATUS.state (R280). -/
def fRgnStatusState : Fld := ⟨0x2c1010, 0, 3⟩
/-- RGN_STATUS.generation (R280). -/
def fRgnStatusGeneration : Fld := ⟨0x2c1010, 3, 8⟩
/-- RGN_STATUS.forced (R280). -/
def fRgnStatusForced : Fld := ⟨0x2c1010, 11, 1⟩
/-- RGN_STATUS.cmd_err (R280). -/
def fRgnStatusCmdErr : Fld := ⟨0x2c1010, 12, 1⟩
/-- RGN_STATUS.idle (R280). -/
def fRgnStatusIdle : Fld := ⟨0x2c1010, 13, 1⟩
/-- RGN_TIMING.idle_timeout (R280). -/
def fRgnTimingIdleTimeout : Fld := ⟨0x2c1018, 0, 4⟩
/-- RGN_QOS.port_weight (R280). -/
def fRgnQosPortWeight : Fld := ⟨0x2c1020, 0, 8⟩
/-- RGN_QOS.scribe_weight (R280). -/
def fRgnQosScribeWeight : Fld := ⟨0x2c1020, 8, 8⟩
/-- RGN_PWR.cap_w (R280). -/
def fRgnPwrCapW : Fld := ⟨0x2c1028, 0, 16⟩
/-- RGN_ENERGY.count (R280). -/
def fRgnEnergyCount : Fld := ⟨0x2c1030, 0, 64⟩
/-- RGN_PACED.count (R280). -/
def fRgnPacedCount : Fld := ⟨0x2c1038, 0, 64⟩
/-- CLI_CFG.valid (R280). -/
def fCliCfgValid : Fld := ⟨0x280000, 0, 1⟩
/-- CLI_CFG.region (R280). -/
def fCliCfgRegion : Fld := ⟨0x280000, 1, 6⟩
/-- CLI_CFG.port (R280). -/
def fCliCfgPort : Fld := ⟨0x280000, 7, 4⟩
/-- CLI_CFG.weight (R280). -/
def fCliCfgWeight : Fld := ⟨0x280000, 11, 8⟩
/-- CLI_CFG.egress_en (R280). -/
def fCliCfgEgressEn : Fld := ⟨0x280000, 19, 1⟩
/-- CLI_SEED.seed (R280). -/
def fCliSeedSeed : Fld := ⟨0x280008, 0, 64⟩
/-- CLI_ING.x (R280). -/
def fCliIngX : Fld := ⟨0x280010, 0, 7⟩
/-- CLI_ING.y (R280). -/
def fCliIngY : Fld := ⟨0x280010, 7, 7⟩
/-- CLI_ING.base (R280). -/
def fCliIngBase : Fld := ⟨0x280010, 14, 19⟩
/-- CLI_ING.slots (R280). -/
def fCliIngSlots : Fld := ⟨0x280010, 33, 4⟩
/-- CLI_ING.slot_size (R280). -/
def fCliIngSlotSize : Fld := ⟨0x280010, 37, 5⟩
/-- CLI_EGR.x (R280). -/
def fCliEgrX : Fld := ⟨0x280018, 0, 7⟩
/-- CLI_EGR.y (R280). -/
def fCliEgrY : Fld := ⟨0x280018, 7, 7⟩
/-- CLI_EGR.base (R280). -/
def fCliEgrBase : Fld := ⟨0x280018, 14, 19⟩
/-- CLI_EGR.slots (R280). -/
def fCliEgrSlots : Fld := ⟨0x280018, 33, 4⟩
/-- CLI_EGR.slot_size (R280). -/
def fCliEgrSlotSize : Fld := ⟨0x280018, 37, 5⟩
/-- CLI_EGR.poll (R280). -/
def fCliEgrPoll : Fld := ⟨0x280018, 42, 8⟩
/-- CLI_ING_FRAMES.count (R280). -/
def fCliIngFramesCount : Fld := ⟨0x280020, 0, 64⟩
/-- CLI_ING_DROP.count (R280). -/
def fCliIngDropCount : Fld := ⟨0x280028, 0, 64⟩
/-- CLI_EGR_FRAMES.count (R280). -/
def fCliEgrFramesCount : Fld := ⟨0x280030, 0, 64⟩
/-- CLI_ENERGY.count (R280). -/
def fCliEnergyCount : Fld := ⟨0x280038, 0, 64⟩
/-- CLI_EGR_DROP.count (R280). -/
def fCliEgrDropCount : Fld := ⟨0x280040, 0, 64⟩
/-- CORE_CLI_SEL.client (R280). -/
def fCoreCliSelClient : Fld := ⟨0x40, 0, 10⟩
/-- PORT_CTRL.mode (R308). -/
def fPortCtrlMode : Fld := ⟨0x2d0000, 0, 2⟩
/-- PORT_CTRL, admission (R308). -/
def fPortCtrlAdmit : Fld := ⟨0x2d0000, 2, 1⟩
/-- PORT_CTRL.reset (R308). -/
def fPortCtrlReset : Fld := ⟨0x2d0000, 3, 1⟩
/-- PORT_CTRL.ber_limit (R308). -/
def fPortCtrlBerLimit : Fld := ⟨0x2d0000, 4, 4⟩
/-- PORT_CTRL.reset_timeout (R308). -/
def fPortCtrlResetTimeout : Fld := ⟨0x2d0000, 8, 4⟩
/-- PORT_CTRL.hold_limit (R308). -/
def fPortCtrlHoldLimit : Fld := ⟨0x2d0000, 12, 4⟩
/-- PORT_STATUS.state (R308). -/
def fPortStatusState : Fld := ⟨0x2d0008, 0, 3⟩
/-- PORT_STATUS.width (R308). -/
def fPortStatusWidth : Fld := ⟨0x2d0008, 3, 4⟩
/-- PORT_STATUS.groups_failed (R308). -/
def fPortStatusGroupsFailed : Fld := ⟨0x2d0008, 7, 8⟩
/-- PORT_STATUS.peer_valid (R308). -/
def fPortStatusPeerValid : Fld := ⟨0x2d0008, 15, 1⟩
/-- PORT_STATUS.loopback (R308). -/
def fPortStatusLoopback : Fld := ⟨0x2d0008, 16, 1⟩
/-- PORT_STATUS.mode_err (R308). -/
def fPortStatusModeErr : Fld := ⟨0x2d0008, 17, 1⟩
/-- PORT_STATUS.gw_forced (R308). -/
def fPortStatusGwForced : Fld := ⟨0x2d0008, 18, 1⟩
/-- PORT_HELLO.interval (R308). -/
def fPortHelloInterval : Fld := ⟨0x2d0010, 0, 8⟩
/-- PORT_HELLO.loss_count (R308). -/
def fPortHelloLossCount : Fld := ⟨0x2d0010, 8, 4⟩
/-- PORT_HELLO.device_id (R308). -/
def fPortHelloDeviceId : Fld := ⟨0x2d0010, 12, 18⟩
/-- PORT_PEER_EUI.eui (R308). -/
def fPortPeerEuiEui : Fld := ⟨0x2d0018, 0, 64⟩
/-- PORT_PEER.device_id (R308). -/
def fPortPeerDeviceId : Fld := ⟨0x2d0020, 0, 18⟩
/-- PORT_PEER.port (R308). -/
def fPortPeerPort : Fld := ⟨0x2d0020, 18, 4⟩
/-- PORT_PEER.groups (R308). -/
def fPortPeerGroups : Fld := ⟨0x2d0020, 22, 4⟩
/-- PORT_PEER.lifecycle (R308). -/
def fPortPeerLifecycle : Fld := ⟨0x2d0020, 26, 3⟩
/-- PORT_PEER.fm_epoch (R308). -/
def fPortPeerFmEpoch : Fld := ⟨0x2d0020, 29, 16⟩
/-- PORT_RXBUF.class (R308). -/
def fPortRxbufClass : Fld := ⟨0x2d0030, 0, 64⟩
/-- PORT_BLOCKS_TX.count (R308). -/
def fPortBlocksTxCount : Fld := ⟨0x2d0080, 0, 64⟩
/-- PORT_BLOCKS_RX.count (R308). -/
def fPortBlocksRxCount : Fld := ⟨0x2d0088, 0, 64⟩
/-- PORT_REPLAY.count (R308). -/
def fPortReplayCount : Fld := ⟨0x2d0090, 0, 64⟩
/-- PORT_FEC_CE.count (R308). -/
def fPortFecCeCount : Fld := ⟨0x2d0098, 0, 64⟩
/-- PORT_FEC_UE.count (R308). -/
def fPortFecUeCount : Fld := ⟨0x2d00a0, 0, 64⟩
/-- PORT_RETRAIN.count (R308). -/
def fPortRetrainCount : Fld := ⟨0x2d00a8, 0, 64⟩
/-- PORT_NOT_ADMITTED.count (R308). -/
def fPortNotAdmittedCount : Fld := ⟨0x2d00b0, 0, 64⟩
/-- PORT_GW_DROP.count (R308). -/
def fPortGwDropCount : Fld := ⟨0x2d00b8, 0, 64⟩
/-- PORT_ETH_CTRL.csum_ins (R308). -/
def fPortEthCtrlCsumIns : Fld := ⟨0x2d0100, 0, 1⟩
/-- PORT_ETH_CTRL.src_check (R308). -/
def fPortEthCtrlSrcCheck : Fld := ⟨0x2d0100, 1, 1⟩
/-- PORT_ETH_CTRL.max_frame (R308). -/
def fPortEthCtrlMaxFrame : Fld := ⟨0x2d0100, 2, 14⟩
/-- PORT_ETH_STATUS.link_up (R308). -/
def fPortEthStatusLinkUp : Fld := ⟨0x2d0108, 0, 8⟩
/-- PORT_ETH_STATUS.cr4 (R308). -/
def fPortEthStatusCr4 : Fld := ⟨0x2d0108, 8, 8⟩
/-- PORT_ETH_MAC.address (R308). -/
def fPortEthMacAddress : Fld := ⟨0x2d0140, 0, 48⟩
/-- PORT_ETH_MAC.enable (R308). -/
def fPortEthMacEnable : Fld := ⟨0x2d0140, 48, 1⟩
/-- PORT_ETH_EGR_MAP.link (R308). -/
def fPortEthEgrMapLink : Fld := ⟨0x2d0180, 0, 24⟩
/-- PORT_ETH_RX_FRAMES.count (R308). -/
def fPortEthRxFramesCount : Fld := ⟨0x2d0200, 0, 64⟩
/-- PORT_ETH_FCS_DROP.count (R308). -/
def fPortEthFcsDropCount : Fld := ⟨0x2d0208, 0, 64⟩
/-- PORT_ETH_CSUM_DROP.count (R308). -/
def fPortEthCsumDropCount : Fld := ⟨0x2d0210, 0, 64⟩
/-- PORT_ETH_BUF_DROP.count (R308). -/
def fPortEthBufDropCount : Fld := ⟨0x2d0218, 0, 64⟩
/-- PORT_ETH_NOCLI_DROP.count (R308). -/
def fPortEthNocliDropCount : Fld := ⟨0x2d0220, 0, 64⟩
/-- PORT_ETH_CLS_DROP.count (R308). -/
def fPortEthClsDropCount : Fld := ⟨0x2d0228, 0, 64⟩
/-- PORT_ETH_PAUSE_DROP.count (R308). -/
def fPortEthPauseDropCount : Fld := ⟨0x2d0230, 0, 64⟩
/-- PORT_ETH_TO_SCRIBE.count (R308). -/
def fPortEthToScribeCount : Fld := ⟨0x2d0238, 0, 64⟩
/-- PORT_ETH_TX_FRAMES.count (R308). -/
def fPortEthTxFramesCount : Fld := ⟨0x2d0240, 0, 64⟩
/-- PORT_PTP_TX_LOST.count (R308). -/
def fPortPtpTxLostCount : Fld := ⟨0x2d0248, 0, 64⟩
/-- PORT_PTP_RX_ADJ.adj (R308). -/
def fPortPtpRxAdjAdj : Fld := ⟨0x2d0300, 0, 16⟩
/-- PORT_PTP_TX_ADJ.adj (R308). -/
def fPortPtpTxAdjAdj : Fld := ⟨0x2d0308, 0, 16⟩
/-- PORT_PTP_TX_TAG.tag (R308). -/
def fPortPtpTxTagTag : Fld := ⟨0x2d0310, 0, 16⟩
/-- PORT_PTP_TX_TAG.link (R308). -/
def fPortPtpTxTagLink : Fld := ⟨0x2d0310, 16, 3⟩
/-- PORT_PTP_TX_TAG.valid (R308). -/
def fPortPtpTxTagValid : Fld := ⟨0x2d0310, 19, 1⟩
/-- PORT_PTP_TX_TS.time (R308). -/
def fPortPtpTxTsTime : Fld := ⟨0x2d0318, 0, 64⟩
/-- PORT_CLS_STAGE0.valid (R308). -/
def fPortClsStage0Valid : Fld := ⟨0x2cc000, 0, 1⟩
/-- PORT_CLS_STAGE0.port_mask (R308). -/
def fPortClsStage0PortMask : Fld := ⟨0x2cc000, 1, 16⟩
/-- PORT_CLS_STAGE0.vlan_en (R308). -/
def fPortClsStage0VlanEn : Fld := ⟨0x2cc000, 17, 1⟩
/-- PORT_CLS_STAGE0.vid (R308). -/
def fPortClsStage0Vid : Fld := ⟨0x2cc000, 18, 12⟩
/-- PORT_CLS_STAGE0.ip_ver (R308). -/
def fPortClsStage0IpVer : Fld := ⟨0x2cc000, 30, 2⟩
/-- PORT_CLS_STAGE0.udp_en (R308). -/
def fPortClsStage0UdpEn : Fld := ⟨0x2cc000, 32, 1⟩
/-- PORT_CLS_STAGE0.udp_port (R308). -/
def fPortClsStage0UdpPort : Fld := ⟨0x2cc000, 33, 16⟩
/-- PORT_CLS_STAGE0.action (R308). -/
def fPortClsStage0Action : Fld := ⟨0x2cc000, 49, 2⟩
/-- PORT_CLS_STAGE0.client (R308). -/
def fPortClsStage0Client : Fld := ⟨0x2cc000, 51, 10⟩
/-- PORT_CLS_STAGE1.addr (R308). -/
def fPortClsStage1Addr : Fld := ⟨0x2cc008, 0, 64⟩
/-- PORT_CLS_STAGE2.addr (R308). -/
def fPortClsStage2Addr : Fld := ⟨0x2cc010, 0, 64⟩
/-- PORT_CLS_CMD.index (R308). -/
def fPortClsCmdIndex : Fld := ⟨0x2cc018, 0, 12⟩
/-- PORT_CLS_CMD.write (R308). -/
def fPortClsCmdWrite : Fld := ⟨0x2cc018, 12, 1⟩
/-- PORT_CLS_STATUS.cls_err (R308). -/
def fPortClsStatusClsErr : Fld := ⟨0x2cc020, 0, 1⟩
/-- FAB_ID.device_id (R332). -/
def fFabIdDeviceId : Fld := ⟨0x200000, 0, 18⟩
/-- FAB_ID.valid (R332). -/
def fFabIdValid : Fld := ⟨0x200000, 18, 1⟩
/-- FAB_DIMS.ndims (R332). -/
def fFabDimsNdims : Fld := ⟨0x200008, 0, 2⟩
/-- FAB_DIMS.width_i (R332). -/
def fFabDimsWidthI : Fld := ⟨0x200008, 2, 16⟩
/-- FAB_DIMS.line (R332). -/
def fFabDimsLine : Fld := ⟨0x200008, 18, 4⟩
/-- FAB_RING.size (R332). -/
def fFabRingSize : Fld := ⟨0x200010, 0, 48⟩
/-- FAB_PORTMAP.port (R332). -/
def fFabPortmapPort : Fld := ⟨0x200018, 0, 64⟩
/-- FAB_EPOCH.fm_epoch (R332). -/
def fFabEpochFmEpoch : Fld := ⟨0x200020, 0, 16⟩
/-- FAB_EPOCH.bit (R332). -/
def fFabEpochBit : Fld := ⟨0x200020, 16, 1⟩
/-- FAB_EPOCH.idle (R332). -/
def fFabEpochIdle : Fld := ⟨0x200020, 17, 1⟩
/-- FAB_EPOCH.late (R332). -/
def fFabEpochLate : Fld := ⟨0x200020, 18, 1⟩
/-- FAB_EPOCH.wr_err (R332). -/
def fFabEpochWrErr : Fld := ⟨0x200020, 19, 1⟩
/-- FAB_EPOCH.staged_epoch (R332). -/
def fFabEpochStagedEpoch : Fld := ⟨0x200020, 20, 16⟩
/-- FAB_EPOCH_AT.time (R332). -/
def fFabEpochAtTime : Fld := ⟨0x200028, 0, 64⟩
/-- FAB_CTRL.promote_age (R332). -/
def fFabCtrlPromoteAge : Fld := ⟨0x200030, 0, 8⟩
/-- FAB_CTRL.max_life (R332). -/
def fFabCtrlMaxLife : Fld := ⟨0x200030, 8, 8⟩
/-- FAB_CTRL.cmap_interval (R332). -/
def fFabCtrlCmapInterval : Fld := ⟨0x200030, 16, 8⟩
/-- FAB_CTRL.hop_limit (R332). -/
def fFabCtrlHopLimit : Fld := ⟨0x200030, 24, 6⟩
/-- FAB_ESC_DIR.up (R332). -/
def fFabEscDirUp : Fld := ⟨0x200038, 0, 16⟩
/-- FAB_TIME.parent (R332). -/
def fFabTimeParent : Fld := ⟨0x200040, 0, 4⟩
/-- FAB_TIME.parent_en (R332). -/
def fFabTimeParentEn : Fld := ⟨0x200040, 4, 1⟩
/-- FAB_TIME.locked (R332). -/
def fFabTimeLocked : Fld := ⟨0x200040, 5, 1⟩
/-- FAB_TIME.tt_interval (R332). -/
def fFabTimeTtInterval : Fld := ⟨0x200040, 6, 8⟩
/-- FAB_TT_OFFSET.offset (R332). -/
def fFabTtOffsetOffset : Fld := ⟨0x200048, 0, 32⟩
/-- FAB_TT_OFFSET.delay (R332). -/
def fFabTtOffsetDelay : Fld := ⟨0x200048, 32, 32⟩
/-- FAB_CMAP.local (R332). -/
def fFabCmapLocal : Fld := ⟨0x200100, 0, 16⟩
/-- FAB_CMAP.partner (R332). -/
def fFabCmapPartner : Fld := ⟨0x200100, 16, 16⟩
/-- FAB_UNREACH.count (R332). -/
def fFabUnreachCount : Fld := ⟨0x200200, 0, 64⟩
/-- FAB_ORDER_DROP.count (R332). -/
def fFabOrderDropCount : Fld := ⟨0x200208, 0, 64⟩
/-- FAB_AGE_DROP.count (R332). -/
def fFabAgeDropCount : Fld := ⟨0x200210, 0, 64⟩
/-- FAB_HOP_DROP.count (R332). -/
def fFabHopDropCount : Fld := ⟨0x200218, 0, 64⟩
/-- FAB_ESC_DROP.count (R332). -/
def fFabEscDropCount : Fld := ⟨0x200220, 0, 64⟩
/-- FAB_CLASS_DROP.count (R332). -/
def fFabClassDropCount : Fld := ⟨0x200228, 0, 64⟩
/-- FAB_TRANSIT.count (R332). -/
def fFabTransitCount : Fld := ⟨0x200230, 0, 64⟩
/-- FAB_PROMOTED.count (R332). -/
def fFabPromotedCount : Fld := ⟨0x200238, 0, 64⟩
/-- FAB_RT.dir (R332). -/
def fFabRtDir : Fld := ⟨0x210000, 0, 2⟩
/-- FAB_RT.ports (R332). -/
def fFabRtPorts : Fld := ⟨0x210000, 2, 16⟩
/-- SCR_STATUS.cores_up (R345). -/
def fScrStatusCoresUp : Fld := ⟨0x0, 0, 16⟩
/-- SCR_STATUS.sessions (R345). -/
def fScrStatusSessions : Fld := ⟨0x0, 16, 3⟩
/-- SCR_STATUS.fm_role (R345). -/
def fScrStatusFmRole : Fld := ⟨0x0, 19, 1⟩
/-- SCR_STATUS.mc_key_valid (R345). -/
def fScrStatusMcKeyValid : Fld := ⟨0x0, 20, 1⟩
/-- SCR_STATUS.fm_named (R345). -/
def fScrStatusFmNamed : Fld := ⟨0x0, 21, 1⟩
/-- SCR_MGMT_CTRL.udp_port (R345). -/
def fScrMgmtCtrlUdpPort : Fld := ⟨0x8, 0, 16⟩
/-- SCR_MC_KEY.key (R345). -/
def fScrMcKeyKey : Fld := ⟨0x40, 0, 64⟩
/-- SCR_FM_EUI.eui (R345). -/
def fScrFmEuiEui : Fld := ⟨0xa0, 0, 64⟩
/-- SCR_WDOG_CTRL.timeout (R345). -/
def fScrWdogCtrlTimeout : Fld := ⟨0x100, 0, 4⟩
/-- SCR_WDOG_CTRL.armed (R345). -/
def fScrWdogCtrlArmed : Fld := ⟨0x100, 4, 1⟩
/-- SCR_WDOG_KICK.kick (R345). -/
def fScrWdogKickKick : Fld := ⟨0x180, 0, 1⟩
/-- SCR_WDOG_EXPIRED.count (R345). -/
def fScrWdogExpiredCount : Fld := ⟨0x200, 0, 64⟩
/-- SCR_AUTH_FAIL.count (R345). -/
def fScrAuthFailCount : Fld := ⟨0x208, 0, 64⟩
/-- SCR_FRAMES_IN.count (R345). -/
def fScrFramesInCount : Fld := ⟨0x210, 0, 64⟩
/-- SCR_FRAMES_DROP.count (R345). -/
def fScrFramesDropCount : Fld := ⟨0x218, 0, 64⟩
/-- SCR_ESC_DROP.count (R345). -/
def fScrEscDropCount : Fld := ⟨0x220, 0, 64⟩
/-- CLK_STATUS.seed_locked (R367). -/
def fClkStatusSeedLocked : Fld := ⟨0x2a0000, 0, 1⟩
/-- CLK_STATUS.refclk_lost (R367). -/
def fClkStatusRefclkLost : Fld := ⟨0x2a0000, 1, 1⟩
/-- CLK_STATUS.slewing (R367). -/
def fClkStatusSlewing : Fld := ⟨0x2a0000, 2, 1⟩
/-- CLK_STATUS.late (R367). -/
def fClkStatusLate : Fld := ⟨0x2a0000, 3, 1⟩
/-- CLK_STATUS.freq_mhz (R367). -/
def fClkStatusFreqMhz : Fld := ⟨0x2a0000, 4, 11⟩
/-- CLK_STATUS.clamped (R367). -/
def fClkStatusClamped : Fld := ⟨0x2a0000, 15, 1⟩
/-- CLK_CTRL.slew (R367). -/
def fClkCtrlSlew : Fld := ⟨0x2a0008, 0, 8⟩
/-- CLK_CTRL.margin_warn (R367). -/
def fClkCtrlMarginWarn : Fld := ⟨0x2a0008, 8, 6⟩
/-- CLK_CTRL.margin_fail (R367). -/
def fClkCtrlMarginFail : Fld := ⟨0x2a0008, 14, 6⟩
/-- CLK_FREQ_TARGET.mhz (R367). -/
def fClkFreqTargetMhz : Fld := ⟨0x2a0010, 0, 11⟩
/-- CLK_FREQ_AT.time (R367). -/
def fClkFreqAtTime : Fld := ⟨0x2a0018, 0, 64⟩
/-- CLK_CL_CFG.parent (R367). -/
def fClkClCfgParent : Fld := ⟨0x2a1000, 0, 2⟩
/-- CLK_CL_CFG.alt (R367). -/
def fClkClCfgAlt : Fld := ⟨0x2a1000, 2, 2⟩
/-- CLK_CL_CFG.alt_en (R367). -/
def fClkClCfgAltEn : Fld := ⟨0x2a1000, 4, 1⟩
/-- CLK_CL_STATUS.locked (R367). -/
def fClkClStatusLocked : Fld := ⟨0x2a1008, 0, 1⟩
/-- CLK_CL_STATUS.holdover (R367). -/
def fClkClStatusHoldover : Fld := ⟨0x2a1008, 1, 1⟩
/-- CLK_CL_STATUS.on_alt (R367). -/
def fClkClStatusOnAlt : Fld := ⟨0x2a1008, 2, 1⟩
/-- CLK_CL_STATUS.failed (R367). -/
def fClkClStatusFailed : Fld := ⟨0x2a1008, 3, 1⟩
/-- CLK_XING.setting (R367). -/
def fClkXingSetting : Fld := ⟨0x2a1010, 0, 9⟩
/-- CLK_XING.ref_centre (R367). -/
def fClkXingRefCentre : Fld := ⟨0x2a1010, 9, 9⟩
/-- CLK_XING.margin_min (R367). -/
def fClkXingMarginMin : Fld := ⟨0x2a1010, 18, 6⟩
/-- CLK_XING.failed (R367). -/
def fClkXingFailed : Fld := ⟨0x2a1010, 24, 1⟩
/-- CLK_XING.present (R367). -/
def fClkXingPresent : Fld := ⟨0x2a1010, 25, 1⟩
/-- CLK_RETRAIN.count (R367). -/
def fClkRetrainCount : Fld := ⟨0x2a1040, 0, 64⟩
/-- CLK_REF_SWITCH.count (R367). -/
def fClkRefSwitchCount : Fld := ⟨0x2a1048, 0, 64⟩
/-- TIME_NS.ns (R367). -/
def fTimeNsNs : Fld := ⟨0x2c8000, 0, 30⟩
/-- TIME_SEC.sec (R367). -/
def fTimeSecSec : Fld := ⟨0x2c8008, 0, 48⟩
/-- TIME_SEC_LATCH.sec (R367). -/
def fTimeSecLatchSec : Fld := ⟨0x2c8010, 0, 48⟩
/-- TIME_SEC_STAGE.sec (R367). -/
def fTimeSecStageSec : Fld := ⟨0x2c8020, 0, 48⟩
/-- TIME_NS_STAGE.ns (R367). -/
def fTimeNsStageNs : Fld := ⟨0x2c8028, 0, 30⟩
/-- TIME_RATE_STAGE.rate (R367). -/
def fTimeRateStageRate : Fld := ⟨0x2c8030, 0, 32⟩
/-- TIME_COMMIT_AT.time (R367). -/
def fTimeCommitAtTime : Fld := ⟨0x2c8038, 0, 64⟩
/-- TIME_STAGE_CTRL.arm (R367). -/
def fTimeStageCtrlArm : Fld := ⟨0x2c8040, 0, 1⟩
/-- TIME_STAGE_CTRL.mode (R367). -/
def fTimeStageCtrlMode : Fld := ⟨0x2c8040, 1, 1⟩
/-- TIME_STAGE_CTRL.what_time (R367). -/
def fTimeStageCtrlWhatTime : Fld := ⟨0x2c8040, 2, 1⟩
/-- TIME_STAGE_CTRL.what_rate (R367). -/
def fTimeStageCtrlWhatRate : Fld := ⟨0x2c8040, 3, 1⟩
/-- TIME_RATE.rate (R367). -/
def fTimeRateRate : Fld := ⟨0x2c8048, 0, 32⟩
/-- TIME_CTRL.pps_en (R367). -/
def fTimeCtrlPpsEn : Fld := ⟨0x2c8050, 0, 1⟩
/-- TIME_CTRL.pps_out_en (R367). -/
def fTimeCtrlPpsOutEn : Fld := ⟨0x2c8050, 1, 1⟩
/-- TIME_CTRL.pps_width (R367). -/
def fTimeCtrlPpsWidth : Fld := ⟨0x2c8050, 2, 8⟩
/-- TIME_STATUS.valid (R367). -/
def fTimeStatusValid : Fld := ⟨0x2c8058, 0, 1⟩
/-- TIME_STATUS.holdover (R367). -/
def fTimeStatusHoldover : Fld := ⟨0x2c8058, 1, 1⟩
/-- TIME_STATUS.pps_lost (R367). -/
def fTimeStatusPpsLost : Fld := ⟨0x2c8058, 2, 1⟩
/-- TIME_STATUS.late (R367). -/
def fTimeStatusLate : Fld := ⟨0x2c8058, 3, 1⟩
/-- TIME_STATUS.stage_err (R367). -/
def fTimeStatusStageErr : Fld := ⟨0x2c8058, 4, 1⟩
/-- TIME_PPS_IN.value (R367). -/
def fTimePpsInValue : Fld := ⟨0x2c8060, 0, 64⟩
/-- TIME_PPS_GLITCH.value (R367). -/
def fTimePpsGlitchValue : Fld := ⟨0x2c8068, 0, 64⟩
/-- PWR_STATUS.mode (R387). -/
def fPwrStatusMode : Fld := ⟨0x2b0000, 0, 2⟩
/-- PWR_STATUS.peak_active (R387). -/
def fPwrStatusPeakActive : Fld := ⟨0x2b0000, 2, 1⟩
/-- PWR_STATUS.throttling (R387). -/
def fPwrStatusThrottling : Fld := ⟨0x2b0000, 3, 1⟩
/-- PWR_STATUS.mode_err (R387). -/
def fPwrStatusModeErr : Fld := ⟨0x2b0000, 4, 1⟩
/-- PWR_STATUS.f_ceiling_mhz (R387). -/
def fPwrStatusFCeilingMhz : Fld := ⟨0x2b0000, 5, 11⟩
/-- PWR_STATUS.stop_cause (R387). -/
def fPwrStatusStopCause : Fld := ⟨0x2b0000, 16, 3⟩
/-- PWR_CTRL.mode (R387). -/
def fPwrCtrlMode : Fld := ⟨0x2b0008, 0, 2⟩
/-- PWR_CTRL.hint_en (R387). -/
def fPwrCtrlHintEn : Fld := ⟨0x2b0008, 2, 1⟩
/-- PWR_LIMIT.sustain_w (R387). -/
def fPwrLimitSustainW : Fld := ⟨0x2b0010, 0, 16⟩
/-- PWR_LIMIT.peak_w (R387). -/
def fPwrLimitPeakW : Fld := ⟨0x2b0010, 16, 16⟩
/-- PWR_LIMIT.peak_ms (R387). -/
def fPwrLimitPeakMs : Fld := ⟨0x2b0010, 32, 4⟩
/-- PWR_GOV.period_us (R387). -/
def fPwrGovPeriodUs : Fld := ⟨0x2b0018, 0, 8⟩
/-- PWR_GOV.raise_mv (R387). -/
def fPwrGovRaiseMv : Fld := ⟨0x2b0018, 8, 6⟩
/-- PWR_GOV.settle_us (R387). -/
def fPwrGovSettleUs : Fld := ⟨0x2b0018, 14, 8⟩
/-- PWR_GOV.slack_target (R387). -/
def fPwrGovSlackTarget : Fld := ⟨0x2b0018, 22, 6⟩
/-- PWR_THERM.throttle_c (R387). -/
def fPwrThermThrottleC : Fld := ⟨0x2b0020, 0, 8⟩
/-- PWR_THERM.trip_c (R387). -/
def fPwrThermTripC : Fld := ⟨0x2b0020, 8, 8⟩
/-- PWR_THERM.hyst_c (R387). -/
def fPwrThermHystC : Fld := ⟨0x2b0020, 16, 4⟩
/-- PWR_EST.est_w (R387). -/
def fPwrEstEstW : Fld := ⟨0x2b0028, 0, 16⟩
/-- PWR_EST.read_w (R387). -/
def fPwrEstReadW : Fld := ⟨0x2b0028, 16, 16⟩
/-- PWR_EST.temp_max_c (R387). -/
def fPwrEstTempMaxC : Fld := ⟨0x2b0028, 32, 8⟩
/-- PWR_COEF.coef (R387). -/
def fPwrCoefCoef : Fld := ⟨0x2b0040, 0, 32⟩
/-- PWR_ENERGY_DEV.count (R387). -/
def fPwrEnergyDevCount : Fld := ⟨0x2b0100, 0, 64⟩
/-- PWR_ENERGY_RIM.count (R387). -/
def fPwrEnergyRimCount : Fld := ⟨0x2b0108, 0, 64⟩
/-- PWR_ENERGY_FREE.count (R387). -/
def fPwrEnergyFreeCount : Fld := ⟨0x2b0110, 0, 64⟩
/-- PWR_PEAK_EVENTS.count (R387). -/
def fPwrPeakEventsCount : Fld := ⟨0x2b0118, 0, 64⟩
/-- PWR_AVS_ERR.count (R387). -/
def fPwrAvsErrCount : Fld := ⟨0x2b0120, 0, 64⟩
/-- PWR_THROTTLE_US.count (R387). -/
def fPwrThrottleUsCount : Fld := ⟨0x2b0128, 0, 64⟩
/-- PWR_CL_STATUS.v_mv (R387). -/
def fPwrClStatusVMv : Fld := ⟨0x2b1000, 0, 10⟩
/-- PWR_CL_STATUS.i_a (R387). -/
def fPwrClStatusIA : Fld := ⟨0x2b1000, 10, 8⟩
/-- PWR_CL_STATUS.temp_c (R387). -/
def fPwrClStatusTempC : Fld := ⟨0x2b1000, 18, 8⟩
/-- PWR_CL_STATUS.announced (R387). -/
def fPwrClStatusAnnounced : Fld := ⟨0x2b1000, 26, 4⟩
/-- PWR_CL_CTRL.ilim_a (R387). -/
def fPwrClCtrlIlimA : Fld := ⟨0x2b1008, 0, 8⟩
/-- PWR_CL_CTRL.hint_step (R387). -/
def fPwrClCtrlHintStep : Fld := ⟨0x2b1008, 8, 4⟩
/-- PWR_CL_CTRL.hint_mv (R387). -/
def fPwrClCtrlHintMv : Fld := ⟨0x2b1008, 12, 6⟩
/-- PWR_CL_VF.mv (R387). -/
def fPwrClVfMv : Fld := ⟨0x2b1010, 0, 10⟩
/-- PWR_CL_CAL.factor (R387). -/
def fPwrClCalFactor : Fld := ⟨0x2b1060, 0, 16⟩
/-- PWR_CL_BOOST.count (R387). -/
def fPwrClBoostCount : Fld := ⟨0x2b1080, 0, 64⟩
/-- PWR_CL_SKIP.count (R387). -/
def fPwrClSkipCount : Fld := ⟨0x2b1088, 0, 64⟩
/-- PWR_CL_SHUNT.count (R387). -/
def fPwrClShuntCount : Fld := ⟨0x2b1090, 0, 64⟩
/-- PWR_CL_DROOP_ERR.count (R387). -/
def fPwrClDroopErrCount : Fld := ⟨0x2b1098, 0, 64⟩
/-- RST_CTRL.start_ok (R414). -/
def fRstCtrlStartOk : Fld := ⟨0x2c4000, 0, 1⟩
/-- RST_CTRL.device_reset (R414). -/
def fRstCtrlDeviceReset : Fld := ⟨0x2c4000, 1, 1⟩
/-- RST_STATUS.phase (R414). -/
def fRstStatusPhase : Fld := ⟨0x2c4008, 0, 4⟩
/-- RST_STATUS.start_ok (R414). -/
def fRstStatusStartOk : Fld := ⟨0x2c4008, 4, 1⟩
/-- RST_STATUS.mrm (R414). -/
def fRstStatusMrm : Fld := ⟨0x2c4008, 5, 1⟩
/-- RST_STATUS.lifecycle (R414). -/
def fRstStatusLifecycle : Fld := ⟨0x2c4008, 6, 3⟩
/-- RST_LOAD_LAST.reason (R414). -/
def fRstLoadLastReason : Fld := ⟨0x2c4010, 0, 8⟩
/-- RST_LOAD_LAST.section (R414). -/
def fRstLoadLastSection : Fld := ⟨0x2c4010, 8, 16⟩
/-- RST_LOAD_LAST.target (R414). -/
def fRstLoadLastTarget : Fld := ⟨0x2c4010, 24, 7⟩
/-- RST_LOAD_LAST.valid (R414). -/
def fRstLoadLastValid : Fld := ⟨0x2c4010, 31, 1⟩
/-- FUSE_EUI.eui (R414). -/
def fFuseEuiEui : Fld := ⟨0x2cb000, 0, 64⟩
/-- FUSE_STATUS.voted_ok (R414). -/
def fFuseStatusVotedOk : Fld := ⟨0x2cb008, 0, 1⟩
/-- FUSE_STATUS.copies_disagree (R414). -/
def fFuseStatusCopiesDisagree : Fld := ⟨0x2cb008, 1, 1⟩
/-- FUSE_PIN_RESET0.group (R414). -/
def fFusePinReset0Group : Fld := ⟨0x2cb010, 0, 48⟩
/-- FUSE_PIN_RESET1.group (R414). -/
def fFusePinReset1Group : Fld := ⟨0x2cb018, 0, 48⟩
/-- AOI_CAUSE.last (R414). -/
def fAoiCauseLast : Fld := ⟨0x2c9000, 0, 4⟩
/-- AOI_CAUSE.previous (R414). -/
def fAoiCausePrevious : Fld := ⟨0x2c9000, 4, 4⟩
/-- AOI_CAUSE.resets (R414). -/
def fAoiCauseResets : Fld := ⟨0x2c9000, 8, 32⟩
/-- AOI_CAUSE.held_latched (R414). -/
def fAoiCauseHeldLatched : Fld := ⟨0x2c9000, 40, 1⟩
/-- AOI_START.failed_starts (R414). -/
def fAoiStartFailedStarts : Fld := ⟨0x2c9008, 0, 2⟩
/-- AOI_START.mrm (R414). -/
def fAoiStartMrm : Fld := ⟨0x2c9008, 2, 1⟩
/-- AOI_START.timer_running (R414). -/
def fAoiStartTimerRunning : Fld := ⟨0x2c9008, 3, 1⟩
/-- AOI_LIFECYCLE.state (R414). -/
def fAoiLifecycleState : Fld := ⟨0x2c9010, 0, 3⟩
/-- AOI_LIFECYCLE.counter (R414). -/
def fAoiLifecycleCounter : Fld := ⟨0x2c9010, 3, 8⟩
/-- AOI_CMD.code (R414). -/
def fAoiCmdCode : Fld := ⟨0x2c9018, 0, 8⟩
/-- RST_REPAIR_CTRL.suspect_limit (R437). -/
def fRstRepairCtrlSuspectLimit : Fld := ⟨0x2c4018, 0, 4⟩
/-- RST_REPAIR_CTRL.window_h (R437). -/
def fRstRepairCtrlWindowH : Fld := ⟨0x2c4018, 4, 8⟩
/-- RST_REPAIR_CTRL.rsv_ce_limit (R437). -/
def fRstRepairCtrlRsvCeLimit : Fld := ⟨0x2c4018, 12, 4⟩
/-- RST_CFG_VOTES.count (R437). -/
def fRstCfgVotesCount : Fld := ⟨0x2c4020, 0, 64⟩
/-- RST_ROWMAP.factory_qx (R437). -/
def fRstRowmapFactoryQx : Fld := ⟨0x2c5000, 0, 3⟩
/-- RST_ROWMAP.fail_qx (R437). -/
def fRstRowmapFailQx : Fld := ⟨0x2c5000, 3, 3⟩
/-- RST_ROWMAP.short (R437). -/
def fRstRowmapShort : Fld := ⟨0x2c5000, 6, 1⟩
/-- RST_ROWMAP.field (R437). -/
def fRstRowmapField : Fld := ⟨0x2c5000, 7, 1⟩
/-- RGN_CHECK.share (R437). -/
def fRgnCheckShare : Fld := ⟨0x2c2000, 0, 2⟩
/-- RGN_CHECK.mx0 (R437). -/
def fRgnCheckMx0 : Fld := ⟨0x2c2000, 2, 4⟩
/-- RGN_CHECK.my0 (R437). -/
def fRgnCheckMy0 : Fld := ⟨0x2c2000, 6, 4⟩
/-- RGN_CHECK.vote_limit (R437). -/
def fRgnCheckVoteLimit : Fld := ⟨0x2c2000, 10, 8⟩
/-- RGN_CHECK_STATUS.groups (R437). -/
def fRgnCheckStatusGroups : Fld := ⟨0x2c2008, 0, 13⟩
/-- RGN_CHECK_STATUS.degraded (R437). -/
def fRgnCheckStatusDegraded : Fld := ⟨0x2c2008, 13, 1⟩
/-- RGN_CHECK_STATUS.ex_overdue (R437). -/
def fRgnCheckStatusExOverdue : Fld := ⟨0x2c2008, 14, 1⟩
/-- RGN_VOTES_AGREE.count (R437). -/
def fRgnVotesAgreeCount : Fld := ⟨0x2c2010, 0, 64⟩
/-- RGN_VOTES_CORRECTED.count (R437). -/
def fRgnVotesCorrectedCount : Fld := ⟨0x2c2018, 0, 64⟩
/-- RGN_VOTES_FAILED.count (R437). -/
def fRgnVotesFailedCount : Fld := ⟨0x2c2020, 0, 64⟩
/-- CORE_CHECK.role (R437). -/
def fCoreCheckRole : Fld := ⟨0x300, 0, 2⟩
/-- CORE_CHECK.degraded (R437). -/
def fCoreCheckDegraded : Fld := ⟨0x300, 2, 1⟩
/-- CORE_SUSPECT.score (R437). -/
def fCoreSuspectScore : Fld := ⟨0x308, 0, 4⟩
/-- CORE_SUSPECT.failed (R437). -/
def fCoreSuspectFailed : Fld := ⟨0x308, 4, 1⟩
/-- CORE_EX_LAST.sec (R437). -/
def fCoreExLastSec : Fld := ⟨0x310, 0, 48⟩
/-- CORE_EX_LAST.valid (R437). -/
def fCoreExLastValid : Fld := ⟨0x310, 48, 1⟩
/-- RSV_ROW_SPARED.count (R437). -/
def fRsvRowSparedCount : Fld := ⟨0x20128, 0, 64⟩
/-- SCR_EX_CTRL.cadence_h (R437). -/
def fScrExCtrlCadenceH : Fld := ⟨0x300, 0, 8⟩
/-- SCR_EX_CTRL.run_en (R437). -/
def fScrExCtrlRunEn : Fld := ⟨0x300, 8, 1⟩
/-- SCR_EX_STATUS.held (R437). -/
def fScrExStatusHeld : Fld := ⟨0x308, 0, 7⟩
/-- SCR_EX_STATUS.stage_err (R437). -/
def fScrExStatusStageErr : Fld := ⟨0x308, 7, 1⟩
/-- SCR_EX_CMD.commit (R437). -/
def fScrExCmdCommit : Fld := ⟨0x320, 0, 1⟩
/-- SCR_EX_CMD.clear_all (R437). -/
def fScrExCmdClearAll : Fld := ⟨0x320, 1, 1⟩
/-- SCR_EX_RUNS.count (R437). -/
def fScrExRunsCount : Fld := ⟨0x310, 0, 64⟩
/-- SCR_EX_FAILS.count (R437). -/
def fScrExFailsCount : Fld := ⟨0x318, 0, 64⟩
/-- SCR_EX_STAGE.data (R437). -/
def fScrExStageData : Fld := ⟨0x100000, 0, 64⟩
/-- AOI_RECOVER.force_mrm (R437). -/
def fAoiRecoverForceMrm : Fld := ⟨0x2c9020, 0, 1⟩
/-- AOI_LOG_STATUS.log_lost (R437). -/
def fAoiLogStatusLogLost : Fld := ⟨0x2c9028, 0, 1⟩
/-- AOI_LOG_STATUS.lost_entries (R437). -/
def fAoiLogStatusLostEntries : Fld := ⟨0x2c9028, 1, 16⟩
/-- DBG_SNAP_AT.time (R450). -/
def fDbgSnapAtTime : Fld := ⟨0x2ca000, 0, 64⟩
/-- DBG_SNAP_TIME.time (R450). -/
def fDbgSnapTimeTime : Fld := ⟨0x2ca010, 0, 64⟩
/-- DBG_FREEZE_AT.time (R450). -/
def fDbgFreezeAtTime : Fld := ⟨0x2ca018, 0, 64⟩
/-- DBG_FREEZE_TIME.time (R450). -/
def fDbgFreezeTimeTime : Fld := ⟨0x2ca028, 0, 64⟩
/-- DBG_SNAP_STATUS.seq (R450). -/
def fDbgSnapStatusSeq : Fld := ⟨0x2ca008, 0, 32⟩
/-- DBG_SNAP_STATUS.pending (R450). -/
def fDbgSnapStatusPending : Fld := ⟨0x2ca008, 32, 1⟩
/-- DBG_SNAP_STATUS.late (R450). -/
def fDbgSnapStatusLate : Fld := ⟨0x2ca008, 33, 1⟩
/-- DBG_SNAP_STATUS.replaced (R450). -/
def fDbgSnapStatusReplaced : Fld := ⟨0x2ca008, 34, 1⟩
/-- DBG_FREEZE_STATUS.armed (R450). -/
def fDbgFreezeStatusArmed : Fld := ⟨0x2ca020, 0, 1⟩
/-- DBG_FREEZE_STATUS.frozen (R450). -/
def fDbgFreezeStatusFrozen : Fld := ⟨0x2ca020, 1, 1⟩
/-- DBG_FREEZE_STATUS.late (R450). -/
def fDbgFreezeStatusLate : Fld := ⟨0x2ca020, 2, 1⟩
/-- DBG_FREEZE_STATUS.source (R450). -/
def fDbgFreezeStatusSource : Fld := ⟨0x2ca020, 3, 1⟩
/-- DBG_BLOT_SEL.chain (R450). -/
def fDbgBlotSelChain : Fld := ⟨0x2ca040, 0, 8⟩
/-- DBG_BLOT_LEN.bits (R450). -/
def fDbgBlotLenBits : Fld := ⟨0x2ca048, 0, 32⟩
/-- DBG_BLOT_POS.position (R450). -/
def fDbgBlotPosPosition : Fld := ⟨0x2ca050, 0, 32⟩
/-- DBG_BLOT_DATA.data (R450). -/
def fDbgBlotDataData : Fld := ⟨0x2ca058, 0, 64⟩
/-- DBG_ID.idcode (R450). -/
def fDbgIdIdcode : Fld := ⟨0x2ca060, 0, 32⟩
/-- DBG_ID.die_rev (R450). -/
def fDbgIdDieRev : Fld := ⟨0x2ca060, 32, 4⟩
/-- DBG_STATUS.jtag_refused (R450). -/
def fDbgStatusJtagRefused : Fld := ⟨0x2ca068, 0, 1⟩
/-- AOI_LOG_HEAD.next_seq (R450). -/
def fAoiLogHeadNextSeq : Fld := ⟨0x2c9030, 0, 32⟩
/-- AOI_LOG_HEAD.held (R450). -/
def fAoiLogHeadHeld : Fld := ⟨0x2c9030, 32, 14⟩
/-- AOI_LOG_WR_DETAIL.detail (R450). -/
def fAoiLogWrDetailDetail : Fld := ⟨0x2c9038, 0, 64⟩
/-- AOI_LOG_WR.code (R450). -/
def fAoiLogWrCode : Fld := ⟨0x2c9040, 0, 8⟩
/-- AOI_LOG_WR.severity (R450). -/
def fAoiLogWrSeverity : Fld := ⟨0x2c9040, 8, 2⟩
/-- AOI_LAST_GASP.word (R450). -/
def fAoiLastGaspWord : Fld := ⟨0x2c9060, 0, 64⟩
/-- CORE_HALT_REC.rec (R72). -/
def fCoreHaltRecRec : Fld := ⟨0x28, 0, 64⟩
/-- CORE_CC.count (R72). -/
def fCoreCcCount : Fld := ⟨0x80, 0, 32⟩

end Sys2Proof.Machine
end

