-- ==== Sys2Proof/Machine/Tbl.lean ====
section
/-! DEFINITION. Sparse tables: a list of key and value pairs, keys strictly rising, holding no entry equal to the default
that an unlisted key reads as. Registers, memories and per-core state are held in this one form, so that equal contents are
equal data. -/

namespace Sys2Proof.Machine

/-- A sparse table of values by key. -/
abbrev Tbl (α : Type) := List (Nat × α)

/-- The value at `k`, `d` where the table lists none. -/
def Tbl.look {α : Type} (t : Tbl α) (k : Nat) (d : α) : α :=
  match t with
  | [] => d
  | (k', v) :: r => if k' = k then v else Tbl.look r k d

/-- The table without any entry at `k`. -/
def Tbl.drop {α : Type} (t : Tbl α) (k : Nat) : Tbl α :=
  match t with
  | [] => []
  | (k', v) :: r => if k' = k then Tbl.drop r k else (k', v) :: Tbl.drop r k

/-- The table with the entry `v` at `k`, placed in key order. -/
def Tbl.insert {α : Type} (t : Tbl α) (k : Nat) (v : α) : Tbl α :=
  match t with
  | [] => [(k, v)]
  | (k', v') :: r =>
    if k < k' then (k, v) :: (k', v') :: r
    else if k' = k then (k, v) :: r
    else (k', v') :: Tbl.insert r k v

/-- The table after a write of `v` at `k`, where an unlisted `k` reads as `d`: writing `d` removes the entry. -/
def Tbl.put {α : Type} [DecidableEq α] (t : Tbl α) (k : Nat) (v d : α) : Tbl α :=
  if v = d then Tbl.drop t k else Tbl.insert t k v

/-- The table with the entries whose key satisfies `p` removed: those keys read as their defaults again. -/
def Tbl.clear {α : Type} (t : Tbl α) (p : Nat → Bool) : Tbl α := t.filter (fun e => !(p e.1))

/-- Keys strictly rising, all above `lo` when one is given. -/
def Tbl.sortedFrom {α : Type} : Option Nat → Tbl α → Bool
  | _, [] => true
  | none, (k, _) :: r => Tbl.sortedFrom (some k) r
  | some l, (k, _) :: r => decide (l < k) && Tbl.sortedFrom (some k) r

/-- Keys strictly rising. -/
def Tbl.sorted {α : Type} (t : Tbl α) : Bool := Tbl.sortedFrom none t

/-- The canonical form: keys strictly rising and no entry equal to the default `d` of its key. -/
def Tbl.wf {α : Type} [DecidableEq α] (t : Tbl α) (d : Nat → α) : Bool :=
  Tbl.sorted t && t.all (fun e => decide (e.2 ≠ d e.1))

end Sys2Proof.Machine
end

