-- ==== Sys2Proof/Machine/State.lean ====
section
/-! DEFINITION. The state of the block as plain data: the cores, the clusters, the rim and the packets between them, with the
queue of waiting commands; and the state at power-on. -/

namespace Sys2Proof.Machine

/-! ## Memory -/

/-- The check state of a stored word: good, a single-bit error, or an uncorrectable error (R156, R164). -/
inductive Ecc where
  | ok | ce | ue
  deriving DecidableEq, Repr

/-- A well or a reservoir: its bytes (an unlisted byte reads as zero, the value a wipe leaves, R160, R165), and per word the poison
bit and check state, and per 512-byte granule the written-since-wipe bit. -/
structure Mem where
  bytes : Tbl Byte
  poison : Tbl Bool
  ecc : Tbl Ecc
  wsw : Tbl Bool
  deriving DecidableEq, Repr

/-- A wiped memory (R160, R165). (DESIGN CHOICE, log entry 109.) -/
def Mem.wiped : Mem := ⟨[], [], [], []⟩

/-- The canonical form of a memory. -/
def Mem.wf (m : Mem) : Bool :=
  Tbl.wf m.bytes (fun _ => 0) && Tbl.wf m.poison (fun _ => false) && Tbl.wf m.ecc (fun _ => .ok) && Tbl.wf m.wsw (fun _ => false)

/-! ## The control unit -/

/-- An active loop: the runs left, counting the one under way, and the first and last index of the body (R40, R53). -/
structure LoopRec where
  count : Nat
  start : Nat
  last : Nat
  deriving DecidableEq, Repr

/-- A timed-action slot: its flags and lateness (R232), and what t.arm gave it (R68). -/
structure TimedSlot where
  armed : Bool
  executed : Bool
  late : Bool
  cancelled : Bool
  lateness : Nat
  target : Nat
  armedAt : Nat
  kind : Nat
  strict : Bool
  operand : Word
  counter : Nat
  tag : Nat
  /-- A step of the time has come since, whose tick counts as that of its arming (R231, R363). -/
  stepped : Bool
  deriving DecidableEq, Repr, Inhabited

/-- A slot that was never armed. -/
def slotIdle : TimedSlot := ⟨false, false, false, false, 0, 0, 0, 0, false, 0, 0, 0, false⟩

/-- An instruction in an engine's queue: its word, its index, the values of the registers it names taken at issue, and for the
matrix engine the hand, plane format and plane width that R102 checked it against, and the seed of the selected client (R267). -/
structure EngOp where
  w : Word
  pc : Nat
  sa : Word
  sb : Word
  aa : Nat
  ab : Nat
  hand : Nat
  fmt : Nat
  u : Nat
  seed : Word
  /-- Whether the register sa was poisoned (R128). -/
  saPoison : Bool
  deriving DecidableEq, Repr

/-- A pressure hint in force: its level, and the time it was issued with its lead and duration in clocks (R70). -/
structure Hint where
  level : Nat
  lead : Nat
  duration : Nat
  since : Nat
  deriving DecidableEq, Repr

/-- The control unit and the program state of R40. -/
structure Ctl where
  sreg : Vector Word 32
  spoison : Vector Bool 32
  /-- A scalar register an engine instruction has yet to write (R50). -/
  sbusy : Vector Bool 32
  areg : Vector (BitVec 32) 16
  preg : Vector Bool 8
  cc : Vector (BitVec 32) 8
  loops : List LoopRec
  loopShadow : List LoopRec
  slots : Vector TimedSlot 8
  pc : Nat
  evq : List Word
  /-- Events were discarded since the last record was delivered (R30, R64). -/
  evLost : Bool
  running : Bool
  halted : Bool
  stopped : Bool
  inHandler : Bool
  breach : Bool
  poisonSeen : Bool
  evqOverflow : Bool
  evEn : Bool
  waitLimit : Nat
  evtVec : Nat
  evtPc : Nat
  evtStale : Nat
  haltRec : Word
  cliSel : Nat
  /-- A precise trap waits for its handler (R65). -/
  trapped : Bool
  /-- A trap has been raised since the core was started: what an exemplar's run is judged by (R432). -/
  trapSeen : Bool
  /-- The instruction word held at issue, if one is. -/
  held : Option Word
  /-- The lig.wait that holds issue, if one does (R221). -/
  ligWait : Option EngOp
  hint : Option Hint
  /-- The code store (R42): a wiped word is zero, which is nop. -/
  code : Tbl Word
  /-- Code-store words written with poison by a feed (R181). -/
  codePoison : Tbl Bool
  deriving DecidableEq, Repr

/-- A control unit as at reset: CORE_CTRL.wait_limit 0xF, everything else zero (R72). -/
def Ctl.reset : Ctl :=
  { sreg := Vector.replicate 32 0, spoison := Vector.replicate 32 false, sbusy := Vector.replicate 32 false
    areg := Vector.replicate 16 0, preg := Vector.replicate 8 false, cc := Vector.replicate 8 0
    loops := [], loopShadow := [], slots := Vector.replicate 8 slotIdle, pc := 0, evq := [], evLost := false
    running := false, halted := false, stopped := false, inHandler := false, breach := false, poisonSeen := false
    evqOverflow := false, evEn := false, waitLimit := 15, evtVec := 0, evtPc := 0, evtStale := 0, haltRec := 0, cliSel := 0
    trapped := false, trapSeen := false, held := none, ligWait := none, hint := none, code := [], codePoison := [] }

/-! ## The well's own records -/

/-- The well beside its registers: its words, the pair swaps' first-breach marks, the forced-access mark and the scrub queue. -/
structure Well where
  mem : Mem
  /-- The half of each pair that is verso: true for the upper half (R152). -/
  verso : Vector Bool 8
  /-- A breach on the pair has raised its event since the last swap or region start (R151). -/
  breached : Vector Bool 8
  /-- A forced access has raised its event since region start (R146). -/
  forcedTrap : Bool
  /-- The words queued for write-back by the scrub port (R156). -/
  scrubQ : List Nat
  /-- The next word of the address-order scrub (R159). -/
  scrubNext : Nat
  wiping : Bool
  deriving DecidableEq, Repr

/-- A well as at power-on: wiped, lower halves verso. -/
def Well.reset : Well := ⟨Mem.wiped, Vector.replicate 8 false, Vector.replicate 8 false, false, [], 0, false⟩

/-! ## The reservoir -/

/-- The reservoir beside its registers: its lines, the open row of each bank of each channel, and its scrub place. -/
structure Rsv where
  mem : Mem
  /-- The row open in each bank, keyed 16·channel + bank, plus one; 0 is none (R163). -/
  openRow : Tbl Nat
  scrubNext : Nat
  wiping : Bool
  hot : Bool
  /-- The background slot each channel last served, for the cyclic order of R179. -/
  lastBg : Tbl Nat
  /-- Refresh intervals each bank has been postponed, at most eight. -/
  postponed : Tbl Nat
  /-- The spare row that stands in for a failing row, keyed (256·row + 16·channel + bank), plus one (R420). -/
  spared : Tbl Nat
  /-- The spare rows that each bank has used, keyed 16·channel + bank: a spare row that fails in its turn uses another (R420). -/
  spares : Tbl Nat
  /-- Reads with corrected errors, counted per row with the same key (R420). -/
  rowCe : Tbl Nat
  /-- Rows that have returned an uncorrectable word. -/
  rowUe : Tbl Bool
  /-- The setting of its interface's sampling phases, the midpoint of the two pass centres (R397). -/
  phase : Nat
  deriving DecidableEq, Repr

/-- A reservoir as at power-on. -/
def Rsv.reset : Rsv := ⟨Mem.wiped, [], 0, false, false, [], [], [], [], [], [], 0⟩

/-! ## The matrix engine -/

/-- The anchor of a row-segment: pending under a mode (0 fixed, 1 format, 2 bound) with its value, or resolved (R106, R107, R112). -/
inductive Anchor where
  | pending (mode : Nat) (value : Int)
  | at (a : Int)
  deriving DecidableEq, Repr

/-- A row-segment: its anchor, its checksum entry and its checksum range (R107, R116). -/
structure Segment where
  anchor : Anchor
  /-- The checksum range: its first column and its width, when set. -/
  ckRange : Option (Nat × Nat)
  ckSum : BitVec 96
  unchecked : Bool
  deriving DecidableEq, Repr

/-- A row-segment as at region start: pending in format mode, range unset (R120). -/
def segReset : Segment := ⟨.pending 1 0, none, 0, false⟩

/-- A stationary element: its exact value and whether its word was poisoned. -/
structure Elem where
  v : Num
  poison : Bool
  deriving DecidableEq, Repr

/-- A plane of the grid: the loaded format and width and the columns' elements, column 0 first (R105). -/
structure Plane where
  fmt : Nat
  u : Nat
  cols : List (List Elem)
  deriving DecidableEq, Repr, Inhabited

/-- A matrix instruction that has started and not completed: how many strokes have entered, whether the feed timeout ended it,
whether it has raised its unwritten-memory event, the bytes a load from the well or a load of records has read, the anchor default
that a drain sampled at its start, and how many of its beats the well has served (R147). -/
structure MxRun where
  op : EngOp
  entered : Nat
  ended : Bool
  wsw : Bool
  data : List (Byte × Bool)
  defMode : Nat
  defValue : Nat
  beats : Nat
  deriving DecidableEq, Repr

/-- An engine port: the bytes feeds have entered, in order; the message bytes that have arrived, by position; the read point; the bytes taken
since the last credit return; the length of each message by the position it starts at; and the bytes still to take of a message taken in
part (R177, R190, R196). -/
structure Port where
  fifo : List (Byte × Bool)
  /-- Message bytes by position: one more than the byte, with 256 added for poison; 0 is absent. -/
  msg : Tbl Nat
  readPt : Nat
  taken : Nat
  lens : Tbl Nat
  left : Nat
  deriving DecidableEq, Repr

/-- An empty port with its read point at 0 (R213). -/
def Port.reset : Port := ⟨[], [], 0, 0, [], 0⟩

/-- The matrix engine beside its registers (R99 to R122). -/
structure Matrix where
  /-- The hand, plane valid bits, formats and widths that the control unit keeps (R102). -/
  ctlHand : Nat
  ctlValid : Vector Bool 2
  ctlFmt : Vector Nat 2
  ctlU : Vector Nat 2
  /-- The hand in force in the grid (R104). -/
  hand : Nat
  planes : Vector Plane 2
  acc : Tbl LsEntry
  segs : Tbl Segment
  queue : List EngOp
  running : List MxRun
  load : Port
  stream : Port
  flags : BitVec 6
  deriving DecidableEq, Repr

/-- The matrix engine as at region start (R120). -/
def Matrix.reset : Matrix :=
  ⟨0, Vector.replicate 2 false, Vector.replicate 2 0, Vector.replicate 2 0, 0, Vector.replicate 2 ⟨0, 0, []⟩, [], [], [], [],
    Port.reset, Port.reset, 0⟩

/-! ## The vector engine -/

/-- A lane: its 32 bits and its poison bit (R123). -/
structure Lane where
  v : BitVec 32
  poison : Bool
  deriving DecidableEq, Repr, Inhabited

/-- A mask register: its 64 bits and its poison bit (R123). -/
structure Mask where
  bits : Word
  poison : Bool
  deriving DecidableEq, Repr, Inhabited

/-- A write to one well word: the enabled bytes, the data and the poison it carries (R148). -/
structure WordWrite where
  addr : Nat
  en : BitVec 8
  data : Word
  poison : Bool
  deriving DecidableEq, Repr

/-- A vector instruction that has started and not completed (R136): what it will write at completion, and to the well in each of its beats; for a load, the
mask and the lanes of its destination that it read at its start, the bytes it has read from the well, and whether it has raised its unwritten-memory
event; and how many of its beats the well has served (R147). -/
structure VxRun where
  op : EngOp
  lanes : Option (List Lane)
  mask : Option Mask
  scalar : Option (Word × Bool)
  writes : List (List WordWrite)
  flags : BitVec 6
  under : Mask
  old : List Lane
  data : List (Byte × Bool)
  wsw : Bool
  beats : Nat
  deriving DecidableEq, Repr

/-- The vector engine beside its registers (R123, R135). -/
structure Vec where
  regs : Vector (Vector Lane 64) 32
  masks : Vector Mask 8
  queue : List EngOp
  running : List VxRun
  port : Port
  flags : BitVec 6
  deriving DecidableEq, Repr

/-- The vector engine as at region start (R138). -/
def Vec.reset : Vec :=
  ⟨Vector.replicate 32 (Vector.replicate 64 ⟨0, false⟩), Vector.replicate 8 ⟨BitVec.allOnes 64, false⟩, [], [], Port.reset, 0⟩

/-! ## The copy engine -/

/-- A copy that has started and not completed: the slot it runs in (0 to 7, 8 the move pipe, 9 a swap), its operation, the byte address
that its qualified well base resolved to (R172), the lines not yet granted and those granted and not yet delivered, by their place in
descriptor order, the bytes a feed has entered or the messages a remote put has sent, the words a remote get awaits, per channel one more than
the time since which a line has waited (R179), the promoted channels, the start clock, and whether it has raised its unwritten-memory
event. -/
structure CpRun where
  slot : Nat
  op : EngOp
  base : Nat
  waiting : List Nat
  granted : List Nat
  moved : Nat
  awaiting : Nat
  ages : Tbl Nat
  promoted : List Nat
  clk : Nat
  wsw : Bool
  deriving DecidableEq, Repr

/-- The copy engine beside its registers. -/
structure Copy where
  queue : List EngOp
  running : List CpRun
  deriving DecidableEq, Repr

/-! ## The channel engine -/

/-- A sending half's counters (R189, R197): the eight token counters by batch modulo 8, and the batch next to release. -/
structure TxTokens where
  counters : List Nat
  next : Nat
  deriving DecidableEq, Repr

/-- The token counters as at region start. -/
def tokensReset : TxTokens := ⟨List.replicate 8 0, 0⟩

/-- A request a read unit serves: the device and region it came from if it came over the fabric, the requesting core's coordinates
(logical on this device, region-relative on another), its copy slot and generation, its region, the words it asks for with their tags, and whether the request has raised its unwritten-memory event (R155). -/
structure ReadFrom where
  dev : Option (Nat × Nat)
  x : Nat
  y : Nat
  slot : Nat
  region : Nat
  gen : Nat
  words : List (Nat × Nat)
  wsw : Bool
  deriving DecidableEq, Repr

/-- A read unit waiting in the owner's read queue: the aligned group of 16 well words it names, and the requests it serves (R207). -/
structure ReadUnit where
  group : Nat
  reqs : List ReadFrom
  deriving DecidableEq, Repr

/-- The channel engine beside its registers. -/
structure Chan where
  queue : List EngOp
  running : List EngOp
  tokens : Tbl TxTokens
  /-- Positions and sequence numbers that the member registers do not hold: the position per member (R199). -/
  memberPos : Tbl Nat
  /-- The combining store: the LS96 value and the term count of each slot (R200). -/
  store : Tbl LsEntry
  terms : Tbl Nat
  /-- Batch tokens a receiving half has sent, per endpoint (R197). -/
  sentTokens : Tbl Nat
  readQ : List ReadUnit
  /-- Records of a close in forwarding mode that have left, per queue (R202). -/
  closing : Tbl Nat
  /-- The device and region that sent the last message a receiving half landed over the fabric, per endpoint (R208). -/
  retTo : Tbl (Option (Nat × Nat))
  /-- The cores of other devices that have contributed to the round of a combining queue: device, region and region-relative place, per queue (R202, R208). -/
  contrib : Tbl (List (Nat × Nat × Nat × Nat))
  deriving DecidableEq, Repr

/-- The channel engine with nothing at work (R213). -/
def Chan.reset : Chan := ⟨[], [], [], [], [], [], [], [], [], [], []⟩

/-! ## The ligature port of a core -/

/-- An operation applied at its unit whose completion has not reached the core, with the value a lig.read returns (R221). -/
structure LigDone where
  op : EngOp
  value : Word
  deriving DecidableEq, Repr

/-- A ligature operation that a timed action has sent: 0xE0 arrive or 0xE1 signal, the operand and the slot (R228). -/
structure TimedOp where
  op : Nat
  operand : Nat
  slot : Nat
  deriving DecidableEq, Repr

/-- The core's ligature queue, the operations applied but not completed, the timed actions' operations on their way, the number of far
operations sent, which tags each, and the operands of operations that a reset of the region left on their way to their units (R227). -/
structure LigPort where
  queue : List EngOp
  applied : List LigDone
  timed : List TimedOp
  farSeq : Nat
  strays : List Nat
  deriving DecidableEq, Repr

/-- An event on its way to a core (R29, R64). -/
structure EventMsg where
  cls : Nat
  code : Nat
  info : Nat
  gen : Nat
  deriving DecidableEq, Repr

/-- What a report to the Scribe Complex names (R157, R164, R118, R252, R375). -/
inductive ReportKind where
  | wellUe | rsvUe | checksum | meshUe | droop
  deriving DecidableEq, Repr

/-- A detected-error report on its way to the Scribe Complex: what found it, the region and generation, and an address (R419). -/
structure Report where
  kind : ReportKind
  region : Nat
  gen : Nat
  detail : Nat
  deriving DecidableEq, Repr

/-- A core: its control unit, engines and memories, the other registers of its block by offset, and the shadow copies. -/
structure Core where
  ctl : Ctl
  well : Well
  rsv : Rsv
  mx : Matrix
  vx : Vec
  cp : Copy
  ch : Chan
  lig : LigPort
  /-- Events on their way to this core, in the order they were raised. -/
  inbound : List EventMsg
  /-- Detected-error reports that have not reached the Scribe Complex. -/
  reports : List Report
  /-- The group table of its router: a 5-bit output mask per multicast group (R246). -/
  groups : Tbl Nat
  /-- Replays in a row on each of its router's links (R253). -/
  replays : Tbl Nat
  /-- For each output of its router the VC granted last, by direction, and the input that took the output last in each VC, at 16 + 4·output + VC, each
  plus one (R249). -/
  arb : Tbl Nat
  /-- The code-store index at which the image starts this core (R73, R476). -/
  entry : Nat
  /-- Registers of the core block not held above, by offset. -/
  regs : Tbl Word
  /-- The shadow copies of the counters, by live offset (R439). -/
  shadow : Tbl Word
  deriving DecidableEq, Repr

/-- A core as at power-on. (DESIGN CHOICE, log entry 110.) -/
def Core.reset : Core :=
  { ctl := Ctl.reset, well := Well.reset, rsv := Rsv.reset, mx := Matrix.reset, vx := Vec.reset, cp := ⟨[], []⟩
    ch := Chan.reset, lig := ⟨[], [], [], 0, []⟩, inbound := [], reports := [], groups := [], replays := [], arb := [], entry := 0
    regs := [], shadow := [] }

/-! ## The cluster -/

/-- A ligature's phase, count and expect (R215). -/
structure LigSt where
  phase : Nat
  count : Nat
  expect : Nat
  deriving DecidableEq, Repr

/-- A ligature that holds nothing. -/
def ligZero : LigSt := ⟨0, 0, 0⟩

/-- A recorded waiter: the waiting core, the ligature, the target phase, the region-relative operand, the instruction's index and the
time it was recorded (R219, R224). -/
structure Waiter where
  core : Nat
  lig : Nat
  target : Nat
  operand : Nat
  pc : Nat
  since : Nat
  deriving DecidableEq, Repr

/-- A cluster: its ligature unit, the releases on their way to cores, its interpolated counter's offset from the time base in
nanoseconds, the floods its hub has seen, and its other registers. -/
structure Cluster where
  ligs : Tbl LigSt
  waiters : List Waiter
  /-- Waits that found no record free, in arrival order (R222). -/
  waitQ : List Waiter
  /-- Cores whose release is on its way (R221). -/
  releases : List Nat
  interp : Int
  /-- The sequence number of the last flooded packet its hub kept (R256), plus one. -/
  floodSeq : Nat
  /-- Replays in a row on each of its hub's links (R258). -/
  replays : Tbl Nat
  regs : Tbl Word
  shadow : Tbl Word
  deriving DecidableEq, Repr

/-- A cluster as at power-on. -/
def Cluster.reset : Cluster := ⟨[], [], [], [], 0, 0, [], [], []⟩

/-! ## The whole block -/

/-! ## Packets of the main mesh -/

/-- A packet in the mesh: its virtual channel, region and generation, the logical router where it entered, its sending core's
region-relative coordinates, the device and region it came from if it came over the fabric, with the inbound port and the microsecond of its
injection (R312, R324), the multicast group whose tree it follows if it
does, the logical routers of its path, for each flit how many routers of the path it has entered, and what it carries (R188, R245). -/
structure Packet where
  vc : Nat
  region : Nat
  gen : Nat
  src : Nat × Nat
  sx : Nat
  sy : Nat
  dev : Option (Nat × Nat)
  gate : Option (Nat × Nat)
  group : Option Nat
  path : List (Nat × Nat)
  flits : List Nat
  body : Body
  /-- The outputs of the branch router at the path's end to which the packet is still to be admitted (R248). -/
  outs : List Nat
  /-- One more than the time since which the primary's router has held it for its group's vote; 0 where it is free (R427). -/
  hold : Nat
  /-- For a read request: whether it has raised its unwritten-memory event (R155). -/
  raised : Bool
  /-- When its header came to the input buffer that it stands in, in the order of all such arrivals. -/
  came : Nat
  /-- Whether its path begins in a branch buffer (R248). -/
  copy : Bool
  deriving DecidableEq, Repr

/-- A payload word that arrives with an error at the next crossing of a link by an access: the router that sends it, the link's direction, the word's place in the payload, and
whether the error is uncorrectable (R252). -/
structure WordErr where
  core : Nat
  dir : Nat
  word : Nat
  ue : Bool
  deriving DecidableEq, Repr

/-- A fabric binding of a region (R208, R336). -/
structure Binding where
  dev : Nat
  region : Nat
  gen : Nat
  x : Nat
  y : Nat
  ep : Nat
  cls : Nat
  deriving DecidableEq, Repr

/-- A fabric packet waiting at its source or in transit for its reservation at an outbound gateway, or on its way there (R293, R319): the packet, the
port it came in by, 16 at a source core and 17 at the Scribe gateway, the port it is to leave by, 16 until it is routed, whether it continues in its
ring, how its reservation stands (0 not made, 1 queued, 2 refused and to be retried, 3 promoted, 4 held for a vote, 5 on its way to the gateway, 6 granted
with the grant on its way back, 7 the packet on its way, 9 refused with the retry on its way back), the time it began to wait, and the tag of the
mesh packets that carry all this. -/
structure FabWait where
  pkt : FabPkt
  inPort : Nat
  port : Nat
  continues : Bool
  stage : Nat
  since : Nat
  tag : Nat
  deriving DecidableEq, Repr

/-- The condition of the device as a whole: without its rails, held in reset, up (bringing up or in service), frozen, or stopped by the
island (R385, R389, R444, R457). -/
inductive DevState where
  | off | inReset | up | frozen | stopped
  deriving DecidableEq, Repr

/-- What FAULT_N is asserted for. -/
inductive FaultCause where
  | powerOn | stop | rail | refclk | failedStart | recovery | logLost | freeze
  deriving DecidableEq, Repr

/-- A report that has reached the Scribe Complex: a halted core (R66), a mesh link between two cores down (R253), a hub link of a
cluster down by direction (R258), a cluster failed (R273, R356), a port with no good
lane group (R285), a partner that has appeared or been lost (R297), the loss of the time parent (R331), a core failed
(R419), a failure with its field repair entry and whether it leaves the row short (R418), a ready region that needs a new mapping (R422), a vote that stops a region (R427), a
condition that the island reports over I3C, RESET_N held low among them (R390), and a region with a core overdue for an exemplar (R432). -/
inductive Note where
  | coreHalted (core region gen : Nat)
  | meshLink (core other : Nat)
  | hubLink (cluster dir : Nat)
  | clusterFailed (cluster : Nat)
  | portFailed (port : Nat)
  | peer (port : Nat) (appeared : Bool)
  | timeParentLost
  | coreFailed (core : Nat)
  | repairEntry (entry : Word) (short : Bool)
  | vote (region core : Nat)
  | island (what : FaultCause)
  | resetHeld
  | regionOverdue (region : Nat)
  | needsMapping (region : Nat)
  deriving DecidableEq, Repr

/-- A message between the Scribe Complex and a cluster that waits at a crossing of the hairline network (R356): a report on its way to the Scribe, or an event on its way to a
core; with the clusters that it goes from and to. -/
inductive HubMsg where
  | report (src dst : Nat) (what : Note)
  | event (src dst : Nat) (core : Nat) (what : EventMsg)
  deriving DecidableEq, Repr

/-- The clusters that a waiting message goes from and to. -/
def HubMsg.ends : HubMsg → Nat × Nat
  | .report a b _ => (a, b)
  | .event a b _ _ => (a, b)

/-- A far ligature operation that has reached this device: its region and generation, whether it signals, its operand (R226), the microsecond of its
injection (R312), and the binding and instruction that its fault names (R225). -/
structure FarOp where
  region : Nat
  gen : Nat
  signal : Bool
  operand : Nat
  injectUs : Nat
  binding : Nat
  pc : Nat
  deriving DecidableEq, Repr

/-- The last beacon the time base flooded: its sequence number, the time it carries, and the count of committed time steps before it (R256,
R360). -/
structure Beacon where
  seq : Nat
  time : Nat
  steps : Nat
  deriving DecidableEq, Repr

/-- An entry of the event log (R442). -/
structure LogEntry where
  seq : Nat
  code : Nat
  severity : Nat
  cluster : Nat
  region : Option Nat
  time : Nat
  resets : Nat
  detail : Word
  deriving DecidableEq, Repr

/-! ## Regions -/

/-- A ring area of a region's image: a region-relative core, the base word and the length in words (R265, R403). -/
structure RingArea where
  x : Nat
  y : Nat
  base : Nat
  len : Nat
  deriving DecidableEq, Repr

/-- What the Scribe Complex keeps of a region beside its registers: the time it entered its state, the time its generation advanced, whether an
image is committed, that image's ring areas, whether a force overran, and whether its release has locked the fields that R14
names. -/
structure RgnSt where
  since : Nat
  genAt : Nat
  image : Bool
  rings : List RingArea
  overrun : Bool
  locked : Bool
  deriving DecidableEq, Repr

/-- A free region. -/
def rgnFree : RgnSt := ⟨0, 0, false, [], false, false⟩

/-! ## Clients and ports -/

/-- A frame or request waiting in a port for a client's ingress ring (R269, R275, R303): the client, the region it was for, its kind, the port and
its payload, its arrival time in nanoseconds, the time since which its age counts, and the microsecond of its injection if it came over the
fabric (R312). -/
structure IngFrame where
  client : Nat
  region : Nat
  kind : Nat
  bytes : List Byte
  time : Nat
  since : Nat
  injectUs : Option Nat
  deriving DecidableEq, Repr

/-- What a port knows of a client's egress ring: the count at which its sending stops, the tail it read last or the ring's size past the done count it then had; the
time of the read; and whether it has read it (R270). -/
structure EgrSt where
  tail : Nat
  polled : Nat
  known : Bool
  deriving DecidableEq, Repr

/-- A ring not read yet. -/
def egrNew : EgrSt := ⟨0, 0, false⟩

/-- A fabric packet in a gateway's outbound buffer, with the time it came (R293, R295). -/
structure GwPkt where
  pkt : FabPkt
  since : Nat
  deriving DecidableEq, Repr

/-- A link block that a port has sent: its sixteen slots, and the fields of its trailer (R290). -/
structure TxBlock where
  seq : Nat
  ack : Nat
  nak : Bool
  widthReq : Bool
  credits : List Nat
  slots : List (Option Flit)
  deriving DecidableEq, Repr

/-- The last time-transfer packet received from a port's partner, with its timestamps in quarter nanoseconds: when the partner sent it and when it
arrived (R330). -/
structure TtStamp where
  sent : Int
  arrived : Int
  deriving DecidableEq, Repr

/-- A frame in a port's Scribe egress queue: its link, its bytes, and its timestamp tag with the quarter nanoseconds past a tick at which it goes out, or none (R307,
R338). -/
structure ScrSend where
  link : Nat
  bytes : List Byte
  tag : Option (Nat × Nat)
  deriving DecidableEq, Repr

/-- A port beside its registers: the mode in force; the time a block reset began to drain its gateway; the time its training began; the receiver
equaliser settings by lane in force, stored at bring-up and reached in the idle pass (R286); the lane groups
that came up and those active, the groups retraining with one more than the times they began, and the corrected symbols of each group's
window with one more than the time it began; the groups that wait for an agreed block boundary to leave the link and to come back to it, and whether this
end has sent and has seen a width-change request (R287); whether link initialisation is done and a hello has come since (R285); the link layer's sequence
numbers, replays in a row, the flits that leave next, unacknowledged blocks, the blocks sent since one last came in, credits held and freed by class, the
receive allocation in flits by class, the packets partly received by class with the flits still to come and those received; the
gateway's buffer with the turn of its regions, one more than the region served last, and the times since which their ages count; hellos, congestion maps and
time packets with the quarter nanoseconds past a tick at which the next leaves; the fabric read units kept for another try; the Ethernet ingress buffer, its
deficits and turn, one more than the client served last; what is known of egress rings; the last frame sent; the Scribe egress queue; and the egress timestamp queue. -/
structure PortSt where
  mode : Nat
  resetAt : Option Nat
  trainAt : Nat
  eq : List Nat
  eqStored : List Nat
  eqIdle : List Nat
  trained : List Nat
  active : List Nat
  retrain : Tbl Nat
  symbols : Tbl Nat
  windows : Tbl Nat
  leaving : List Nat
  coming : List Nat
  asked : Bool
  heard : Bool
  linked : Bool
  greeted : Bool
  txSeq : Nat
  rxSeq : Nat
  nak : Bool
  awaiting : Bool
  peerReq : Bool
  replays : Nat
  tx : List Flit
  unacked : List TxBlock
  wire : List TxBlock
  credits : Tbl Nat
  freed : Tbl Nat
  rxAlloc : List Nat
  rxPart : Tbl (Option (FabPkt × Nat))
  arrived : List FabPkt
  gw : List GwPkt
  gwTurn : Nat
  gwAges : Tbl Nat
  helloAt : Nat
  helloTx : Nat
  helloSeq : Nat
  cmapAt : Nat
  cmapTx : Nat
  ttTx : Nat
  ttAt : Nat
  ttLast : Option TtStamp
  ttGood : Nat
  ttSub : Nat
  ttCame : List Nat
  units : List (Packet × Nat)
  ingress : List IngFrame
  promoted : List Nat
  ages : Tbl Nat
  deficit : Tbl Nat
  turn : Nat
  egress : Tbl EgrSt
  sentFrame : Option (Nat × List Byte)
  scribeQ : List ScrSend
  ptpQ : List (Nat × Nat × Nat)
  deriving DecidableEq, Repr

/-- A port after a reset: off. -/
def portNew : PortSt :=
  { mode := 0, resetAt := none, trainAt := 0, eq := [], eqStored := [], eqIdle := [], trained := [], active := [], retrain := [], symbols := []
    windows := [], leaving := [], coming := [], asked := false, heard := false, linked := false, greeted := false, txSeq := 0, rxSeq := 0, nak := false
    awaiting := false, peerReq := false, replays := 0, tx := [], unacked := [], wire := [], credits := [], freed := [], rxAlloc := [], rxPart := [], arrived := [], gw := [], gwTurn := 0
    gwAges := [], helloAt := 0, helloTx := 0, helloSeq := 0, cmapAt := 0, cmapTx := 0, ttTx := 0, ttAt := 0, ttLast := none, ttGood := 0, ttSub := 0, ttCame := [], units := [], ingress := [], promoted := [], ages := [], deficit := []
    turn := 0, egress := [], sentFrame := none, scribeQ := [], ptpQ := [] }

/-- An entry of the classification table: the three words it was staged in (R301, R302). -/
structure ClsEntry where
  w0 : Word
  w1 : Word
  w2 : Word
  deriving DecidableEq, Repr

/-- An empty entry. -/
def clsNone : ClsEntry := ⟨0, 0, 0⟩

/-- A frame that a port has passed to the Scribe Complex: port, link, bytes, arrival time in quarter nanoseconds, and the results of the IPv4 and
UDP checksum checks (R304, R306). -/
structure ScrFrame where
  port : Nat
  link : Nat
  bytes : List Byte
  time : Nat
  ipOk : Bool
  udpOk : Bool
  deriving DecidableEq, Repr

/-! ## Licences -/

/-- The accepted colophons in force: the Tenancy tier, the post-quantum feature, and the owner keys by hash and algorithm (R3, R4, R410). -/
structure Licence where
  tenancy : Bool
  pq : Bool
  owners : List (Nat × Nat)
  deriving DecidableEq, Repr

/-! ## The Scribe Complex -/

/-- A management request, with the time it came (R341). The interface is 0 for the management port and 1 for I3C. -/
structure MReq where
  iface : Nat
  session : Nat
  seq : Nat
  opcode : Nat
  payload : List Byte
  since : Nat
  deriving DecidableEq, Repr

/-- What the Scribe Complex does for a region apart from the management controller's requests: an admission of the firmware's own with its classification entries (R334),
a frame passed into a client's ring (R338), and a job reset forwarded to the device, region and generation of a binding (R264, R337). -/
inductive ScrJob where
  | enrolOwn (payload : List Byte) (entries : List (Nat × Word × Word × Word))
  | pass (port : Nat) (frame : IngFrame)
  | forward (dev region gen : Nat)
  deriving DecidableEq, Repr

/-- An entry of a region's queue of Scribe work, with the time it came (R277). -/
structure ScrWork where
  region : Nat
  since : Nat
  job : ScrJob
  deriving DecidableEq, Repr

/-- A reply to a management request (R334, R341). -/
structure Reply where
  iface : Nat
  session : Nat
  seq : Nat
  opcode : Nat
  status : Nat
  payload : List Byte
  deriving DecidableEq, Repr

/-- A session's key material, the last sequence number executed, the next to be queued, the kept replies, newest first, and the requests that wait for a gap with the times
they came (R342, R343). -/
structure Session where
  key : Nat
  last : Nat
  next : Nat
  kept : List Reply
  waiting : List (Nat × MReq)
  deriving DecidableEq, Repr

/-- A session as it opens. -/
def sessionNew : Session := ⟨0, 0, 1, [], []⟩

/-- A Scribe core's watchdog: the time of its last kick, the times it has expired, and the time its block reset began (R344). -/
structure Wdog where
  kicked : Nat
  expired : List Nat
  resetting : Option Nat
  deriving DecidableEq, Repr

/-- The Scribe Complex beside its registers: its SRAM of 64 MiB (R333), the escape packets in its receive space (R323), sessions by number, session 0 by interface,
the accepted requests in order, the last reply sent, the last reply to the firmware's own requests (opcode, status and payload, R334), the watchdogs, the cores whose
watchdogs have interrupted core 0 (R344), the queues of its work for regions in the order of arrival, with the region served last, one more than it, the deficits and one
more than the times since which ages count after a promotion (R277), the job resets that
it has acknowledged with ok (device and region, R337), the devices that its fabric-manager role names by EUI-64, and whether SCR_MC_KEY is locked (R342). (DEDUCED, log entry 136.) -/
structure Scribe where
  sram : Mem
  escape : List FabPkt
  sessions : Tbl (Option Session)
  zero : Tbl Session
  reqs : List MReq
  sent : Option Reply
  own : Option (Nat × Nat × List Byte)
  wdog : Tbl Wdog
  irqs : List Nat
  work : List ScrWork
  turn : Nat
  deficit : Tbl Nat
  ages : Tbl Nat
  acked : List (Nat × Nat)
  managed : List Nat
  keyLocked : Bool
  deriving DecidableEq, Repr

/-- The Scribe Complex after a reset. -/
def Scribe.reset : Scribe :=
  { sram := Mem.wiped, escape := [], sessions := [], zero := [], reqs := [], sent := none, own := none, wdog := [], irqs := [], work := [], turn := 0
    deficit := [], ages := [], acked := [], managed := [], keyLocked := false }

/-- Routing epochs beside FAB_EPOCH: the armed switch with whether its time was past when armed, the time of its arming, and the time of the last switch
(R327, R328). -/
structure Epoch where
  armed : Option (Nat × Bool)
  armedAt : Nat
  switched : Nat
  deriving DecidableEq, Repr

/-! ## Clocks and time -/

/-- A crossing beside CLK_XING: its settings at 0.70 and 1.15 GHz (R350), and the window of its last replica sweep (R352). -/
structure Crossing where
  low : Int
  high : Int
  window : Option (Int × Int)
  deriving DecidableEq, Repr

/-- A crossing never aligned. -/
def crossingNew : Crossing := ⟨0, 0, none⟩

/-- An armed frequency change: its target, its time, whether that time was past when armed, and the timer's count at its arming (R348). -/
structure FreqArm where
  target : Nat
  time : Nat
  past : Bool
  armedAt : Nat
  deriving DecidableEq, Repr

/-- A slew under way: its target, the time it began and its rate (R348). (DEDUCED, log entry 123.) -/
structure Slew where
  target : Nat
  since : Nat
  rate : Nat
  deriving DecidableEq, Repr

/-- The clocks beside their registers: the armed frequency change, the slew under way (R348), the crossings by 4·cluster + side, and one more than the time
since which each cluster has held over (R355). -/
structure Clocks where
  freqAt : Option FreqArm
  slew : Option Slew
  xings : Tbl Crossing
  held : Tbl Nat
  deriving DecidableEq, Repr

/-- The time base beside its registers: whether the staged commit was armed with a past time and the time of its arming (R362), the last accepted edge of
PPS_IN in quarter nanoseconds of the timers (R364), whether a steering source is lost (R331, R364), and the seconds latched by requester: 0 to 15 the
Scribe cores, 16 the management window, 17 the debug path (R361); the timer's count at the last device reset; and the nanoseconds to which the
next tick steps the counter after an edge of PPS_IN (R364). -/
structure TimeBase where
  past : Bool
  armedAt : Nat
  pps : Option Nat
  lost : Bool
  latches : Tbl Nat
  began : Nat
  toStep : Option Nat
  deriving DecidableEq, Repr

/-! ## Power -/

/-- A cluster's power beside its registers: the decision that waits for the row's interface (R372), the time of its last rail write, the rail's failed
transactions in a row and whether it is faulted (R370), the voltage read back last (R369), the rail's voltage before a hint raised it (R376), whether the boost reservoir is charged, the eighths of its clocks that a current limit withholds (R381), its energy
since the last reconciliation, in femtojoules before correction, and that read from its rail, the corrected energy of its last microsecond (R383), how many clocks ago it skipped, of the last 64, and how many
of those it skipped since the last estimate pacing would have withheld as well (R375). -/
structure ClPower where
  want : Option Nat
  written : Nat
  fails : Nat
  faulted : Bool
  readMv : Nat
  hint : Option Nat
  charged : Bool
  paced : Nat
  spent : Nat
  readFj : Nat
  lastFj : Nat
  skips : List Nat
  both : Nat
  deriving DecidableEq, Repr

/-- A cluster's power after a reset. -/
def clPowerNew : ClPower := ⟨none, 0, 0, false, 800, none, false, 0, 0, 0, 0, [], 0⟩

/-- Power control beside its registers: the clusters; the cluster each row's interface served last (R372); a raise on its way, with its target frequency
and the time of its last rail write (R380); the eighths of clocks that the peak limiter withheld when it acted last, the frequency it acted at, the time its release began, and the time its
excursion above sustain_w began (R381); the eighths that each region's cap withholds, and its energy in femtojoules since the governor's last period (R278); the rail of each row whose
voltage is read next (R369); the hottest rim sensor, once one has been read (R384); failed transactions of the rim and DRAM rails, and their
latest voltages in millivolts and currents in amperes, by rail select; what is left of energies below a microjoule, by counter (R279); and the time of the governor's last period. -/
structure Power where
  cl : Tbl ClPower
  served : Tbl Nat
  raise : Option (Nat × Nat)
  peak : Nat
  peakMhz : Nat
  release : Option Nat
  excess : Option Nat
  caps : Tbl Nat
  rgnSpent : Tbl Nat
  turns : Tbl Nat
  rimTemp : Option Nat
  railFails : Tbl Nat
  rimMv : Tbl Nat
  rimA : Tbl Nat
  rest : Tbl Nat
  governed : Nat
  deriving DecidableEq, Repr

/-- Power control after a reset. -/
def Power.reset : Power := ⟨[], [], none, 0, 0, none, none, [], [], [], none, [], [], [], [], 0⟩

/-! ## The Always-On Island and the pins -/

/-- The state of a pin group: what its fuse code gives it (R393, R454), electrical idle, what the boundary register drives (R449), or the block's own signals. -/
inductive Pad where
  | highZ | pullDown | pullUp | low | high | idle | boundary | signal
  deriving DecidableEq, Repr

/-- The island beside its registers: the PWR_EN outputs that are high; THERM_TRIP_N asserted; what FAULT_N is asserted for; while PPS_OUT is high, the time at which it falls;
COOLANT_OK high, and high for a second; RESET_N low, and whether this low has been recorded (R390); REFCLK present; a low of
FREEZE_N that waits for bring-up phase 2 (R444); whether the start has ended without start-OK (R395); a restart command refused (R386);
whether the fuse vote failed (R402); the causes of the reset in progress, in arrival order (R392); the nanoseconds that its own clock has counted, through every reset but
power-on (R365); the dynamic address that SETDASA gave the I3C target, 0 while it has none (R456); and the states of the pin groups by number, high impedance until power-on
(R453 to R455). (DESIGN CHOICE, log entry 58.) -/
structure Island where
  pwrEn : Nat
  thermTrip : Bool
  faults : List FaultCause
  pps : Option Nat
  coolant : Bool
  coolantLong : Bool
  resetLow : Bool
  heldDone : Bool
  refclk : Bool
  freezeLow : Bool
  startEnded : Bool
  refused : Bool
  badFuses : Bool
  causes : List Nat
  ns : Nat
  i3c : Nat
  pads : Tbl Pad
  deriving DecidableEq, Repr

/-- The island without VDD_AON: FAULT_N reads as asserted (R453, R455). -/
def Island.off : Island := ⟨0, false, [.powerOn], none, false, false, false, false, true, false, false, false, false, [], 0, 0, []⟩

/-! ## Images -/

/-- A load in progress: the bytes of its container up to the end of the furthest chunk. The bytes themselves lie in the staging space, in Scribe SRAM or in the region's
reservoirs (R408). -/
structure Load where
  extent : Nat
  deriving DecidableEq, Repr

/-- The images beside the regions: loads by target, 0 the device and n + 1 region n; whether a device image is verified; and the accepted field repair
list (R395, R408, R417). -/
structure Images where
  loads : Tbl (Option Load)
  device : Bool
  repairs : List Word
  listed : Bool
  deriving DecidableEq, Repr

/-! ## Exemplars -/

/-- A held exemplar record (R430). -/
structure Exemplar where
  id : Word
  kind : Nat
  outBase : Nat
  outWords : Nat
  expected : List Byte
  runLimit : Nat
  container : List Byte
  deriving DecidableEq, Repr

/-- A run of an exemplar: its identifier, the cores it runs on, whether it is a repeat, the region it runs in, if it does, and the time at which it started (R431,
R432). -/
structure ExRun where
  id : Word
  cores : List Nat
  again : Bool
  region : Option Nat
  since : Nat
  deriving DecidableEq, Repr

/-- Repair and checking beside their registers: held exemplars, runs, cores failed with the procedure of R421 to run, and the time of the last halving of
the scores (R419). -/
structure Repair where
  exemplars : List Exemplar
  runs : List ExRun
  failed : List Nat
  halved : Nat
  deriving DecidableEq, Repr

/-! ## Debug -/

/-- The TAP: the instruction in force, what a scan of its data register gives, and the boundary register: the levels captured at the pins and those that its
update stage holds (R449). -/
structure Tap where
  ir : Nat
  dr : Word
  captured : List Bool
  boundary : List Bool
  deriving DecidableEq, Repr

/-- Debug beside its registers: the armed snap with the earliest time it may copy, the clusters that its flood has reached, and the armed freeze tick (R256, R439,
R440, R444). -/
structure Debug where
  snap : Option Nat
  reach : List Nat
  freeze : Option Nat
  tap : Tap
  deriving DecidableEq, Repr

/-- Debug after a reset: the TAP at IDCODE, as IEEE 1149.1 has it. (PRESUMED, log entry 89.) -/
def Debug.reset : Debug := ⟨none, [], none, ⟨2, 0, [], []⟩⟩

/-- The state of the block. (DESIGN CHOICE, log entry 114.) -/
structure State where
  dev : DevState
  /-- The event log of the island, oldest entry first (R442). -/
  log : List LogEntry
  /-- Reports that have reached the Scribe Complex. -/
  notes : List Note
  cores : Tbl Core
  clusters : Tbl Cluster
  /-- Packets in the main mesh. -/
  mesh : List Packet
  /-- Fabric packets waiting for an outbound gateway. -/
  fabWait : List FabWait
  /-- The tag of the next packet to wait there. -/
  fabTag : Nat
  /-- The fabric bindings, keyed 256·region + binding (R208). -/
  bindings : Tbl (Option Binding)
  /-- Rim registers by address, an unlisted one at its reset value. -/
  rim : Tbl Word
  rimShadow : Tbl Word
  /-- The copies of registers held in three that an upset has parted, by address: each copy's value, or none where it fails its parity (R435). -/
  copies : Tbl (List (Option Word))
  /-- The places of the event log's memory that no longer hold what is written to them (R436). -/
  logBad : Tbl Bool
  /-- Far ligature operations that have reached this device (R227). -/
  farOps : List FarOp
  /-- Messages that wait at a crossing of the hairline network, oldest first (R356). -/
  hubHeld : List HubMsg
  /-- The payload words that are struck when accesses next cross links of the mesh (R252). -/
  wordErrs : List WordErr
  beacon : Beacon
  /-- Committed steps of the time since power-on. -/
  timeSteps : Nat
  /-- The nanoseconds that the time base has ticked, whatever time is committed: what the block's timers count. -/
  mono : Nat
  clocks : Clocks
  timeBase : TimeBase
  power : Power
  island : Island
  images : Images
  repair : Repair
  dbg : Debug
  /-- What the last read of a register by a Scribe core or over JTAG returned. -/
  lastRead : Word
  rgns : Tbl RgnSt
  /-- Clusters that a repair holds, which no region may take (R262). -/
  heldClusters : List Nat
  /-- The lifecycle counter of the fuse array, as the last vote of its copies read it (R402, R412). -/
  life : Nat
  /-- The counter's copies A, B and C (R402, R413). -/
  lifeCopies : Nat × Nat × Nat
  /-- The value of a lifecycle change whose bits have still to be blown (R413). -/
  blowing : Option Nat
  lic : Licence
  scribe : Scribe
  ports : Tbl PortSt
  /-- The classification table (R301). -/
  cls : Tbl ClsEntry
  epoch : Epoch
  /-- Frames passed to the Scribe Complex and not yet handled. -/
  scrFrames : List ScrFrame
  /-- Clients being removed, with one more than the time it began (R266). -/
  removing : Tbl Nat
  /-- The waiting commands, first in, first out. -/
  pending : List Instr
  deriving DecidableEq, Repr

/-- The block at power-on. (DESIGN CHOICE, log entry 1.) (DESIGN CHOICE, log entry 75.) -/
def State.reset : State :=
  { dev := .off, log := [], notes := [], cores := [], clusters := [], mesh := [], fabWait := [], fabTag := 0, bindings := [], rim := []
    rimShadow := [], copies := [], logBad := [], farOps := [], hubHeld := [], wordErrs := [], beacon := ⟨0, 0, 0⟩, timeSteps := 0, mono := 0
    clocks := ⟨none, none, [], []⟩, timeBase := ⟨false, 0, none, false, [], 0, none⟩, power := Power.reset, island := Island.off
    images := ⟨[], false, [], false⟩, repair := ⟨[], [], [], 0⟩, dbg := Debug.reset, lastRead := 0, rgns := [], heldClusters := [], life := 1, lifeCopies := (1, 1, 1)
    blowing := none
    lic := ⟨false, false, []⟩, scribe := Scribe.reset, ports := [], cls := [], epoch := ⟨none, 0, 0⟩, scrFrames := [], removing := []
    pending := [] }

/-- Why a step stops with a fault. -/
inductive Fault where
  /-- Raised by no command: every exception and error that the manual describes is taken as a next state. Safe. -/
  | none
  deriving DecidableEq, Repr

/-- Why a command is refused. -/
inductive Refusal where
  /-- Raised by the arm of a command that has no meaning yet; no arm is left so. Safe. -/
  | notModelled (mnemonic : String)
  /-- Raised by an instruction's row that is given a word with the opcode of another row: that word is the other row's command, and this one does not exist. Safe. -/
  | wordOfAnotherRow (opcode : Nat)
  deriving DecidableEq, Repr

/-- The outcome of a command. -/
abbrev Out := Host.Outcome State Fault Refusal

end Sys2Proof.Machine
end

