-- ==== Sys2Proof/Machine/Ops.lean ====
section
/-! DEFINITION. The named operations over registers, events and traps of a core, and over its well and reservoir. -/

namespace Sys2Proof.Machine

/-! ## Register files -/

/-- The register at an offset of a core's sparse file: its reset word where the file lists none (R16). -/
def Core.reg (c : Core) (off : Nat) : Word := c.regs.look off (resetAt coreRegs off)

/-- A core with a register of its sparse file set. -/
def Core.setReg (c : Core) (off : Nat) (w : Word) : Core := { c with regs := c.regs.put off w (resetAt coreRegs off) }

/-- A field of a core's sparse file. -/
def Core.fld (c : Core) (f : Fld) : Nat := fieldOf (c.reg f.off) f.lo f.width

/-- A core with a field of its sparse file set. -/
def Core.setFld (c : Core) (f : Fld) (v : Nat) : Core := c.setReg f.off (putField (c.reg f.off) f.lo f.width v)

/-- A core with a counter of its sparse file advanced by `n`; the counter wraps at its width. -/
def Core.bump (c : Core) (f : Fld) (n : Nat) : Core := c.setFld f (c.fld f + n)

/-- The register at an offset of a cluster's sparse file. -/
def Cluster.reg (k : Cluster) (off : Nat) : Word := k.regs.look off (resetAt clusterRegs off)

/-- A cluster with a register of its sparse file set. -/
def Cluster.setReg (k : Cluster) (off : Nat) (w : Word) : Cluster := { k with regs := k.regs.put off w (resetAt clusterRegs off) }

/-- A field of a cluster's sparse file. -/
def Cluster.fld (k : Cluster) (f : Fld) : Nat := fieldOf (k.reg f.off) f.lo f.width

/-- A cluster with a field of its sparse file set. -/
def Cluster.setFld (k : Cluster) (f : Fld) (v : Nat) : Cluster := k.setReg f.off (putField (k.reg f.off) f.lo f.width v)

/-- A cluster with a counter advanced by `n`. -/
def Cluster.bump (k : Cluster) (f : Fld) (n : Nat) : Cluster := k.setFld f (k.fld f + n)

/-- Whether a rim register is held in copies: RST_ROWMAP, RGN_CFG, RGN_CHECK, CLI_CFG and FAB_ID (R435). -/
def voted (a : Nat) : Bool :=
  (decide (0x2C5000 ≤ a) && decide (a < 0x2C7400)) || (decide (0x2C1000 ≤ a) && decide (a < 0x2C3000) && decide (a % 0x40 = 0)) ||
  (decide (0x280000 ≤ a) && decide (a < 0x2A0000) && decide (a % 0x80 = 0)) || decide (a = 0x200000)

/-- The rim register at an address. -/
def State.reg (s : State) (off : Nat) : Word := s.rim.look off (resetAt rimRegs off)

/-- The state with a rim register set, in every copy of one that is held in copies. -/
def State.setReg (s : State) (off : Nat) (w : Word) : State :=
  { s with rim := s.rim.put off w (resetAt rimRegs off), copies := if voted off then s.copies.put off [] [] else s.copies }

/-- A field of a rim register. -/
def State.fld (s : State) (f : Fld) : Nat := fieldOf (s.reg f.off) f.lo f.width

/-- The state with a field of a rim register set. -/
def State.setFld (s : State) (f : Fld) (v : Nat) : State := s.setReg f.off (putField (s.reg f.off) f.lo f.width v)

/-- The state with a rim counter advanced by `n`. -/
def State.bump (s : State) (f : Fld) (n : Nat) : State := s.setFld f (s.fld f + n)

/-- A core of the block. -/
def State.core (s : State) (i : Nat) : Core := s.cores.look i Core.reset

/-- The block with a core replaced. -/
def State.setCore (s : State) (i : Nat) (c : Core) : State := { s with cores := s.cores.put i c Core.reset }

/-- The block with a core changed. -/
def State.mapCore (s : State) (i : Nat) (f : Core → Core) : State := s.setCore i (f (s.core i))

/-- A cluster of the block. -/
def State.cluster (s : State) (n : Nat) : Cluster := s.clusters.look n Cluster.reset

/-- The block with a cluster replaced. -/
def State.setCluster (s : State) (n : Nat) (k : Cluster) : State := { s with clusters := s.clusters.put n k Cluster.reset }

/-- The block with a cluster changed. -/
def State.mapCluster (s : State) (n : Nat) (f : Cluster → Cluster) : State := s.setCluster n (f (s.cluster n))

/-! ## What a core is told of the rest of the block -/

/-- What an instruction of a core can depend on outside the core: whether the core's clock runs, its region and place in it, the
region's generation and compatibility bit, the time interpolated at its cluster, the nanoseconds that its timers have counted and the seed of its
selected client. -/
structure Env where
  core : Nat
  alive : Bool
  region : Nat
  inRegion : Bool
  gen : Nat
  compat : Bool
  /-- The region's origin and size in logical cores (R9). -/
  ox : Nat
  oy : Nat
  width : Nat
  height : Nat
  /-- The core's own logical coordinates (R470). -/
  x : Nat
  y : Nat
  now : Nat
  mono : Nat
  seed : Word
  deriving DecidableEq, Repr

/-! ## Events and traps (R60 to R66) -/

/-- An entry put into a list in increasing order of a key, before those of its own key. -/
def insertBy {α : Type} (key : α → Nat) (x : α) : List α → List α
  | [] => [x]
  | y :: t => if key x ≤ key y then x :: y :: t else y :: insertBy key x t

/-- A list in increasing order of a key; entries of one key keep their order. -/
def sortBy {α : Type} (key : α → Nat) (l : List α) : List α := l.foldr (insertBy key) []

/-- An event record (R64). -/
def eventRecord (cls code info gen : Nat) : Word :=
  BitVec.ofNat 64 (cls % 16 * 2 ^ 60 + gen % 256 * 2 ^ 51 + code % 256 * 2 ^ 43 + info % 2 ^ 43)

/-- The info field of a trap: instruction index, source and detail (R64). -/
def trapInfo (idx source detail : Nat) : Nat := idx % 2 ^ 13 * 2 ^ 30 + source % 8 * 2 ^ 27 + detail % 2 ^ 27

/-- An event record reaches the queue, or is discarded for a full queue: thirty-one entries take events, and the last is kept for a
synchronous trap (R30, R61). -/
def Core.enqueue (c : Core) (r : Word) : Core :=
  if c.ctl.evq.length < 31 then { c with ctl := { c.ctl with evq := c.ctl.evq ++ [r] } }
  else { c with ctl := { c.ctl with evLost := true, evqOverflow := true } }

/-- An asynchronous trap enters the queue as an ordinary event, and a schedule breach sets CORE_STATUS.breach (R60, R65). (DESIGN CHOICE, log entry 12.) -/
def Core.asyncTrap (e : Env) (code idx source detail : Nat) (c : Core) : Core :=
  let c := { c with ctl := { c.ctl with breach := c.ctl.breach || decide (code = 4), trapSeen := true } }
  c.enqueue (eventRecord 2 code (trapInfo idx source detail) e.gen)

/-- Taking a precise trap (R65, R66): the instruction has no effect, CORE_EVT_PC takes its index, and the record either enters the
queue's reserved entry, holding issue until the handler is entered, or halts the core when events are disabled or the core is in
the handler. A schedule breach sets CORE_STATUS.breach (R60). -/
def Core.preciseTrap (e : Env) (code source detail : Nat) (c : Core) : Core :=
  let ev := eventRecord 2 code (trapInfo c.ctl.pc source detail) e.gen
  let k := { c.ctl with breach := c.ctl.breach || decide (code = 4), evtPc := c.ctl.pc, held := none, trapSeen := true }
  if k.evEn && !k.inHandler then { c with ctl := { k with evq := k.evq ++ [ev], trapped := true } }
  else { c with ctl := { k with halted := true, running := false, haltRec := ev } }

/-- A detected error for the region, where the core lies in one, is reported to the Scribe Complex (R419). -/
def Core.report (e : Env) (kind : ReportKind) (detail : Nat) (c : Core) : Core :=
  if e.inRegion then { c with reports := c.reports ++ [⟨kind, e.region, e.gen, detail⟩] } else c

/-- A completing engine instruction with ce = 1 increments its counter (R56, R58). -/
def Core.complete (w : Word) (c : Core) : Core :=
  if bitOf w 48 then
    let n := fieldOf w 49 3
    { c with ctl := { c.ctl with cc := c.ctl.cc.set! n (c.ctl.cc[n]! + 1) } }
  else c

/-- A completion counter is incremented by one (R58). -/
def Core.count (n : Nat) (c : Core) : Core :=
  { c with ctl := { c.ctl with cc := c.ctl.cc.set! n (c.ctl.cc[n]! + 1) } }

/-! ## Memory words -/

/-- The word at a word address of a memory. -/
def Mem.word (m : Mem) (a : Nat) : Word :=
  wordOfBytes ((List.range 8).map (fun i => m.bytes.look (8 * a + i) 0))

/-- The byte at a byte address of a memory. -/
def Mem.byte (m : Mem) (b : Nat) : Byte := m.bytes.look b 0

/-- Whether the word at a word address carries poison. -/
def Mem.pois (m : Mem) (a : Nat) : Bool := m.poison.look a false

/-- The check state of a word. -/
def Mem.check (m : Mem) (a : Nat) : Ecc := m.ecc.look a .ok

/-- The written-since-wipe bit of a granule of 64 words. -/
def Mem.written (m : Mem) (g : Nat) : Bool := m.wsw.look g false

/-- The memory after the enabled bytes of one word are replaced. -/
def Mem.putBytes (m : Mem) (a : Nat) (en : BitVec 8) (data : Word) : Mem :=
  { m with bytes := (List.range 8).foldl (fun t i => if en.getLsbD i then t.put (8 * a + i) (byteOf data i) 0 else t) m.bytes }

/-- The memory with a word's poison bit set to a value. -/
def Mem.setPois (m : Mem) (a : Nat) (p : Bool) : Mem := { m with poison := m.poison.put a p false }

/-- The memory with a word's check state set. -/
def Mem.setCheck (m : Mem) (a : Nat) (x : Ecc) : Mem := { m with ecc := m.ecc.put a x .ok }

/-- The memory with a word's bits turned by an upset: one bit, or beyond correction; a word that had an error already is beyond correction (R156,
R164). (DESIGN CHOICE, log entry 142.) -/
def Mem.upset (m : Mem) (x : Nat × Bool) : Mem := m.setCheck x.1 (if x.2 || decide (m.check x.1 ≠ .ok) then .ue else .ce)

/-- The memory with a granule's written-since-wipe bit set. -/
def Mem.mark (m : Mem) (g : Nat) : Mem := { m with wsw := m.wsw.put g true false }

/-- Whether a word write does nothing: it enables no byte and carries no poison. -/
def WordWrite.void (ww : WordWrite) : Bool := decide (ww.en = 0) && !ww.poison

/-- One word write with byte enables: the enabled bytes, valid check bits, and poison if the write carries it or if any byte of a
word that was poisoned or uncorrectable is kept (R148, R168). A write that enables no byte and carries poison keeps every byte and
poisons the word (R124), and it marks no granule (R154). -/
def Mem.write (m : Mem) (ww : WordWrite) : Mem :=
  if ww.void then m
  else
    let kept := ww.en != BitVec.allOnes 8
    let p := ww.poison || (kept && (m.pois ww.addr || decide (m.check ww.addr = .ue)))
    let m := ((m.putBytes ww.addr ww.en ww.data).setPois ww.addr p).setCheck ww.addr .ok
    if ww.en = 0 then m else m.mark (ww.addr / 64)

/-! ## Byte runs as word writes -/

/-- The writes of a run of optional bytes whose first lies at byte `8·w`: one per word, with poison where any of its bytes carries
it (R148, R181). -/
def chunkWrites : Nat → Nat → List (Option Byte × Bool) → List WordWrite
  | 0, _, _ => []
  | fuel + 1, w, bs =>
    match bs with
    | [] => []
    | b :: r =>
      let now := (b :: r).take 8
      let en := now.zipIdx.foldl (fun (e : BitVec 8) x => if x.1.1.isSome then e ||| (1#8 <<< x.2) else e) 0
      let data := wordOfBytes (now.map (fun x => x.1.getD 0))
      let p := now.any (fun x => x.1.isSome && x.2)
      ⟨w, en, data, p⟩ :: chunkWrites fuel (w + 1) ((b :: r).drop 8)

/-- The word writes of a run of optional bytes from byte address `b`. -/
def byteWrites (b : Nat) (bs : List (Option Byte × Bool)) : List WordWrite :=
  let l := List.replicate (b % 8) (none, false) ++ bs
  (chunkWrites (l.length + 1) (b / 8) l).filter (fun w => w.en != 0)

/-- A list cut into pieces of `n`, in order. -/
def chunksOf {α : Type} (n : Nat) : Nat → List α → List (List α)
  | 0, _ => []
  | fuel + 1, l =>
    match l with
    | [] => []
    | x :: r => ((x :: r).take n) :: chunksOf n fuel ((x :: r).drop n)

/-- The word writes of one beat: its bytes with their byte addresses and poison, merged into one write for each word they touch. -/
def beatWrites (xs : List (Nat × Byte × Bool)) : List WordWrite :=
  ((xs.map (fun x => x.1 / 8)).eraseDups).map (fun a =>
    let here := xs.filter (fun x => x.1 / 8 = a)
    { addr := a
      en := here.foldl (fun (e : BitVec 8) x => e ||| (1#8 <<< (x.1 % 8))) 0
      data := here.foldl (fun d x => putField d (8 * (x.1 % 8)) 8 x.2.1.toNat) 0
      poison := here.any (fun x => x.2.2) })

/-! ## The well (R139 to R162) -/

/-- Who makes a well access: the crossbar port, the source number of its traps, and the index of the instruction (R141, R151). -/
structure Acc where
  port : Nat
  source : Nat
  pc : Nat
  deriving DecidableEq, Repr

/-- Whether a port is of the asynchronous class (R141). -/
def portAsync (p : Nat) : Bool := decide (8 ≤ p)

/-- The enabled buffer pair a word address lies in, with whether it lies in the upper half (R149). -/
def Core.pairOf (c : Core) (a : Nat) : Option (Nat × Bool) :=
  (List.range 8).findSome? (fun n =>
    let o := 8 * n
    let base := c.fld (fldAt fWellBufBase o) * 64
    let half := (c.fld (fldAt fWellBufHalf o) + 1) * 64
    if c.fld (fldAt fWellBufEnable o) = 1 && base ≤ a && a < base + 2 * half then some (n, decide (base + half ≤ a)) else none)

/-- Whether an access of a pair is a breach of its roles (R150). -/
def roleBreach (kindOut verso async write : Bool) : Bool :=
  match kindOut, verso with
  | false, false => !(async && write)
  | false, true => async && write
  | true, false => async
  | true, true => write

/-- The effect of a breach on a pair: the counter, the mark in WELL_STATUS, and for the first since the pair's last swap the trap, the
breach bit and the record (R151). -/
def Core.wellBreach (e : Env) (acc : Acc) (a pair : Nat) (write : Bool) (c : Core) : Core :=
  let c := (c.bump fWellBreachCountCount 1).setFld fWellStatusBreachSeen 1
  if c.well.breached[pair]! then c
  else
    let d := a + acc.port * 2 ^ 19 + pair * 2 ^ 23 + bit write * 2 ^ 26
    let c := { c with well := { c.well with breached := c.well.breached.set! pair true } }
    let c := c.asyncTrap e 4 acc.pc acc.source d
    if c.fld fWellBreachValid = 1 then c
    else c.setReg fWellBreachValid.off (BitVec.ofNat 64 (d + e.gen * 2 ^ 27 + 2 ^ 35))

/-- Whether an access of a port to a word breaches, and the core after the breach's effects: ports 13 and 14 are not checked (R150). -/
def Core.checkRoles (e : Env) (acc : Acc) (a : Nat) (write : Bool) (c : Core) : Bool × Core :=
  if acc.port = 13 || acc.port = 14 then (false, c)
  else match c.pairOf a with
    | none => (false, c)
    | some (n, upper) =>
      let kindOut := decide (c.fld (fldAt fWellBufKind (8 * n)) = 1)
      let verso := upper == c.well.verso[n]!
      if roleBreach kindOut verso (portAsync acc.port) write then (true, c.wellBreach e acc a n write) else (false, c)

/-- Whether the unwritten-memory trap of the well is enabled: under the compatibility bit it reads as 0 (R38, R155). -/
def Core.wellTraps (e : Env) (c : Core) : Bool := decide (c.fld fWellCtrlWswTrap = 1) && !e.compat

/-- The effects of reading a word's check bits: a corrected word is counted and queued for write-back, an uncorrectable one counted,
recorded and reported (R156, R157). -/
def Core.wellCheck (e : Env) (a : Nat) (c : Core) : Core :=
  match c.well.mem.check a with
  | .ok => c
  | .ce =>
    let c := c.bump fWellEccCeCount 1
    { c with well := { c.well with scrubQ := c.well.scrubQ ++ [a] } }
  | .ue =>
    let c := (c.bump fWellEccUeCount 1).setFld fWellStatusUeSeen 1
    let c := if c.fld fWellEccLastValid = 1 then c
      else c.setReg fWellEccLastValid.off (BitVec.ofNat 64 (a + e.gen * 2 ^ 19 + 2 ^ 27))
    c.report e .wellUe a

/-- What a run of reads has gathered: the core, whether the instruction or message has raised its unwritten-memory event, and the
words read, the last first. -/
structure Reads where
  c : Core
  wsw : Bool
  out : List (Word × Bool)
  deriving DecidableEq, Repr

/-- One word read through a port: the pair check, the check bits, the written-since-wipe check and the poison bit (R150, R155 to R158). -/
def Reads.word (e : Env) (acc : Acc) (r : Reads) (a : Nat) : Reads :=
  let (br, c) := r.c.checkRoles e acc a false
  if !(c.well.mem.written (a / 64)) && c.wellTraps e && acc.port != 13 && acc.port != 14 then
    let c := c.wellCheck e a
    if r.wsw then { c := c, wsw := true, out := (0, true) :: r.out }
    else
      let c := c.bump fWellWswTrapsCount 1
      { c := c.asyncTrap e 3 acc.pc acc.source (a + acc.port * 2 ^ 19), wsw := true, out := (0, true) :: r.out }
  else
    let v := c.well.mem.word a
    let p := c.well.mem.pois a || br || decide (c.well.mem.check a = .ue)
    { c := c.wellCheck e a, wsw := r.wsw, out := (v, p) :: r.out }

/-- The words at a list of addresses, in order, with the core after the reads and whether the unwritten-memory event has been raised. (DESIGN CHOICE, log entry 13.) -/
def Core.wellRead (e : Env) (acc : Acc) (wsw : Bool) (as : List Nat) (c : Core) : List (Word × Bool) × Core × Bool :=
  let r := as.foldl (Reads.word e acc) ⟨c, wsw, []⟩
  (r.out.reverse, r.c, r.wsw)

/-- The bytes from byte address `b`, each with its word's poison, with the core after the reads. -/
def Core.wellBytes (e : Env) (acc : Acc) (wsw : Bool) (b n : Nat) (c : Core) : List (Byte × Bool) × Core × Bool :=
  if n = 0 then ([], c, wsw)
  else
    let w0 := b / 8
    let k := (b + n - 1) / 8 - w0 + 1
    let (ws, c', f) := c.wellRead e acc wsw ((List.range k).map (w0 + ·))
    let bs := ws.flatMap (fun w => (bytesOfWord w.1).map (fun x => (x, w.2)))
    ((bs.drop (b % 8)).take n, c', f)

/-- The bytes at a list of byte addresses, read in one beat: each word that holds some of them is read once. -/
def Core.wellBeat (e : Env) (acc : Acc) (wsw : Bool) (as : List Nat) (c : Core) : List (Byte × Bool) × Core × Bool :=
  let ws := (as.map (· / 8)).eraseDups
  let (vs, c, f) := c.wellRead e acc wsw ws
  let got := List.zip ws vs
  (as.map (fun a => match got.find? (fun x => x.1 = a / 8) with
    | some (_, v, p) => (byteOf v (a % 8), p)
    | none => (0, true)), c, f)

/-- One word write through a port: the pair check, which poisons a breaching write, the merge read's check bits, and the write (R148,
R150, R154). Port 13 sets no written-since-wipe bit, and no access of this operation is port 13's. -/
def Core.wellWrite (e : Env) (acc : Acc) (c : Core) (ww : WordWrite) : Core :=
  if ww.void then c
  else
    let (br, c) := c.checkRoles e acc ww.addr true
    let c := if ww.en = BitVec.allOnes 8 then c else c.wellCheck e ww.addr
    { c with well := { c.well with mem := c.well.mem.write { ww with poison := ww.poison || br } } }

/-- A list of word writes through a port, in order. -/
def Core.wellWrites (e : Env) (acc : Acc) (ws : List WordWrite) (c : Core) : Core := ws.foldl (Core.wellWrite e acc) c

/-! ## The reservoir (R163 to R168) -/

/-- The channel of a reservoir byte address (R163). -/
def rsvChannel (b : Nat) : Nat := b / 2 ^ 6 % 16

/-- The bank of a reservoir byte address (R163). -/
def rsvBank (b : Nat) : Nat := Nat.xor (b / 2 ^ 15 % 16) (b / 2 ^ 19 % 16)

/-- The row of a reservoir byte address (R163). -/
def rsvRow (b : Nat) : Nat := b / 2 ^ 19 % 2 ^ 9

/-- The key of the row of a reservoir byte address: 256·row + 16·channel + bank. -/
def rsvRowKey (b : Nat) : Nat := 256 * rsvRow b + 16 * rsvChannel b + rsvBank b

/-- Whether the unwritten-memory trap of the reservoir is enabled (R38, R166). -/
def Core.rsvTraps (e : Env) (c : Core) : Bool := decide (c.fld fRsvCtrlWswTrap = 1) && !e.compat

/-- The effects of reading a reservoir word's check bits: a corrected word is counted and rewritten, an uncorrectable one counted,
recorded and reported (R164). -/
def Core.rsvCheck (e : Env) (a : Nat) (c : Core) : Core :=
  match c.rsv.mem.check a with
  | .ok => c
  | .ce =>
    let c := c.bump fRsvEccCeCount 1
    { c with rsv := { c.rsv with mem := c.rsv.mem.setCheck a .ok } }
  | .ue =>
    let line := 8 * a / 64 * 64
    let c := (c.bump fRsvEccUeCount 1).setFld fRsvStatusUeSeen 1
    let c := { c with rsv := { c.rsv with rowUe := c.rsv.rowUe.put (rsvRowKey (8 * a)) true false } }
    let c := if c.fld fRsvEccLastValid = 1 then c
      else c.setReg fRsvEccLastValid.off (BitVec.ofNat 64 (line + e.gen * 2 ^ 28 + 2 ^ 36))
    c.report e .rsvUe line

/-- A read of reservoir words of one line: where it returns corrected words, it counts once for their row (R420). -/
def Core.rowRead (as : List Nat) (c : Core) : Core :=
  if as.any (fun a => decide (c.rsv.mem.check a = .ce)) then
    let row := rsvRowKey (8 * as.headD 0)
    { c with rsv := { c.rsv with rowCe := c.rsv.rowCe.put row (c.rsv.rowCe.look row 0 + 1) 0 } }
  else c

/-- A row of the reservoir opened for a line, where it is not open, and counted (R163, R183). -/
def Core.rowOpen (line : Nat) (c : Core) : Core :=
  let b := 64 * line
  let key := 16 * rsvChannel b + rsvBank b
  if c.rsv.openRow.look key 0 = rsvRow b + 1 then c
  else { c with rsv := { c.rsv with openRow := c.rsv.openRow.put key (rsvRow b + 1) 0 } }.bump fRsvRowOpenCount 1

/-- The word addresses of a reservoir line. -/
def lineWords (line : Nat) : List Nat := (List.range 8).map (8 * line + ·)

/-- One reservoir word read by a copy: a word of a granule never written since the wipe reads as poisoned zero and raises the trap
once for the instruction where enabled (R164, R166). `window` is a read of the management window, which R166 exempts. -/
def Core.rsvReadWord (e : Env) (pc : Nat) (window wsw : Bool) (a : Nat) (c : Core) : (Word × Bool) × Core × Bool :=
  let g := a / 64
  if !(c.rsv.mem.written g) && c.rsvTraps e && !window then
    let c := c.rsvCheck e a
    if wsw then ((0, true), c, true)
    else
      let c := c.bump fRsvWswTrapsCount 1
      ((0, true), c.asyncTrap e 3 pc 3 (g + 2 ^ 26), true)
  else
    let v := c.rsv.mem.word a
    let p := c.rsv.mem.pois a || decide (c.rsv.mem.check a = .ue)
    ((v, p), c.rsvCheck e a, wsw)

/-- The eight words of a reservoir line. -/
def Core.rsvReadLine (e : Env) (pc : Nat) (window wsw : Bool) (line : Nat) (c : Core) : List (Word × Bool) × Core × Bool :=
  (List.range 8).foldl (fun (r : List (Word × Bool) × Core × Bool) i =>
    let (v, c', f) := r.2.1.rsvReadWord e pc window r.2.2 (8 * line + i)
    (r.1 ++ [v], c', f)) ([], c.rowRead (lineWords line), wsw)

/-- The writes of one reservoir line: when they do not cover it whole, the line is read and merged, so every word of it is checked, and a
kept uncorrectable word is rewritten with poison (R164, R168). -/
def Core.rsvWriteLine (e : Env) (line : Nat) (ws : List WordWrite) (c : Core) : Core :=
  let whole := decide (ws.length = 8) && ws.all (fun w => w.en = BitVec.allOnes 8)
  if whole then ws.foldl (fun (c : Core) w => { c with rsv := { c.rsv with mem := c.rsv.mem.write w } }) c
  else
    let c := (lineWords line).foldl (fun (c : Core) a =>
      let bad := decide (c.rsv.mem.check a = .ue)
      let c := c.rsvCheck e a
      if bad && !(ws.any (fun w => w.addr = a && w.en != 0)) then
        { c with rsv := { c.rsv with mem := (c.rsv.mem.setCheck a .ok).setPois a true } }
      else c) (c.rowRead (lineWords line))
    ws.foldl (fun (c : Core) w => { c with rsv := { c.rsv with mem := c.rsv.mem.write w } }) c

/-- A line of a reservoir opened for a window's access, and counted (R163, R472). -/
def Core.windowLine (line lines : Nat) (c : Core) : Core :=
  (c.rowOpen line).bump fCpLinesCount lines

/-- A run of bytes written into the reservoir line by line: a line written in part is read and merged (R164, R168). -/
def Core.rsvWriteBytes (e : Env) (c : Core) (dest : Nat) (bs : List (Byte × Bool)) : Core :=
  let ws := byteWrites dest (bs.map (fun b => (some b.1, b.2)))
  (List.range (if bs.isEmpty then 0 else (dest + bs.length - 1) / 64 - dest / 64 + 1)).foldl (fun (c : Core) k =>
    let line := dest / 64 + k
    let first := 8 * line - dest / 8
    c.rsvWriteLine e line (((ws.drop first).take (8 * line + 8 - dest / 8 - first)))) c

/-- A memory with the bytes from `lo` to `hi` as a wipe leaves them. -/
def Mem.blank (m : Mem) (lo hi : Nat) : Mem :=
  { bytes := m.bytes.clear (fun b => decide (lo ≤ b) && decide (b < hi)), poison := m.poison.clear (fun a => decide (lo ≤ 8 * a) && decide (8 * a < hi))
    ecc := m.ecc.clear (fun a => decide (lo ≤ 8 * a) && decide (8 * a < hi)), wsw := m.wsw.clear (fun g => decide (lo ≤ 512 * g) && decide (512 * g < hi)) }

/-! ## Registers of the program (R40, R41, R48) -/

/-- A scalar register: s0 reads as zero (R41). -/
def Ctl.s (k : Ctl) (i : Nat) : Word := if i % 32 = 0 then 0 else k.sreg[i % 32]!

/-- A scalar register's poison bit: s0 has none. -/
def Ctl.sp (k : Ctl) (i : Nat) : Bool := if i % 32 = 0 then false else k.spoison[i % 32]!

/-- An address register: a0 reads as zero (R41). -/
def Ctl.a (k : Ctl) (i : Nat) : Nat := if i % 16 = 0 then 0 else (k.areg[i % 16]!).toNat

/-- A predicate: p0 reads as 1 (R41). -/
def Ctl.p (k : Ctl) (i : Nat) : Bool := if i % 8 = 0 then true else k.preg[i % 8]!

/-- A scalar result: a write to s0 is discarded, and a register that becomes poisoned sets poison_seen (R41, R48). -/
def Ctl.setS (k : Ctl) (i : Nat) (v : Word) (poison : Bool) : Ctl :=
  if i % 32 = 0 then k
  else { k with sreg := k.sreg.set! (i % 32) v, spoison := k.spoison.set! (i % 32) poison, poisonSeen := k.poisonSeen || poison }

/-- An address result: a write to a0 is discarded (R41), and the value is kept modulo two to the 32 (R46). -/
def Ctl.setA (k : Ctl) (i : Nat) (v : Nat) : Ctl :=
  if i % 16 = 0 then k else { k with areg := k.areg.set! (i % 16) (BitVec.ofNat 32 v) }

/-- A predicate result: a write to p0 is discarded (R41). -/
def Ctl.setP (k : Ctl) (i : Nat) (v : Bool) : Ctl :=
  if i % 8 = 0 then k else { k with preg := k.preg.set! (i % 8) v }

/-- A scalar register with a write pending from an engine, from issue to completion (R50); s0 never has one. -/
def Ctl.hold (k : Ctl) (i : Nat) : Ctl := if i % 32 = 0 then k else { k with sbusy := k.sbusy.set! (i % 32) true }

/-- Whether a scalar register has a write pending. -/
def Ctl.busy (k : Ctl) (i : Nat) : Bool := if i % 32 = 0 then false else k.sbusy[i % 32]!

/-- A pending scalar write lands (R50). -/
def Ctl.land (k : Ctl) (i : Nat) (v : Word) (poison : Bool) : Ctl :=
  if i % 32 = 0 then k else { k.setS i v poison with sbusy := k.sbusy.set! (i % 32) false }

/-! ## Where the next instruction is (R42, R53 to R55) -/

/-- The loop stack and the next index after an instruction at `idx`: the innermost loop ending there decides its back edge first, and
when it is exhausted the next enclosing loop decides (R54). -/
def afterIndex (idx : Nat) : List LoopRec → List LoopRec × Nat
  | [] => ([], idx + 1)
  | l :: r =>
    if l.last = idx then
      if 1 < l.count then ({ l with count := l.count - 1 } :: r, l.start) else afterIndex idx r
    else (l :: r, idx + 1)

/-- Issue moves to an index. Past 8,191 the fetch trap is raised, with index and CORE_EVT_PC 8,191 and detail 0x2000 (R42). -/
def Core.goto (e : Env) (n : Nat) (c : Core) : Core :=
  if n < 8192 then { c with ctl := { c.ctl with pc := n, held := none } }
  else Core.preciseTrap e 7 0 0x2000 { c with ctl := { c.ctl with pc := 8191, held := none } }

/-- Issue moves past an index, over a loop's back edge where one ends there. -/
def Core.past (e : Env) (idx : Nat) (c : Core) : Core :=
  let (l, n) := afterIndex idx c.ctl.loops
  Core.goto e n { c with ctl := { c.ctl with loops := l } }

/-- A taken branch: every active loop whose body does not contain the target ends (R55). -/
def Core.branch (e : Env) (n : Nat) (c : Core) : Core :=
  Core.goto e n { c with ctl := { c.ctl with loops := c.ctl.loops.filter (fun l => decide (l.start ≤ n) && decide (n ≤ l.last)) } }

/-! ## Where a core lies, and what it is told (R6 to R9, R470) -/

/-- The physical column of a core index (R468). -/
def pxOf (i : Nat) : Nat := i % 84

/-- The row of a core index, the same in both grids (R7). -/
def pyOf (i : Nat) : Nat := i / 84

/-- The cluster index of a physical core (R7). -/
def clusterOfCore (i : Nat) : Nat := pxOf i / 7 + 12 * (pyOf i / 8)

/-- The row map register of a row of seven: cluster column `cx`, row `y` (R470). -/
def rowOffset (cx y : Nat) : Nat := 8 * (cx + 12 * y)

/-- The logical column of a physical core under the repair map in force, if it carries a logical core (R8, R470). -/
def State.logicalX (s : State) (i : Nat) : Option Nat :=
  let cx := pxOf i / 7
  let qx := pxOf i % 7
  let o := rowOffset cx (pyOf i)
  let f := s.fld (fldAt fRstRowmapFailQx o)
  let lx := if qx < f then qx else qx - 1
  if s.fld (fldAt fRstRowmapShort o) = 1 || qx = f || 6 ≤ lx then none else some (6 * cx + lx)

/-- The physical index of a logical core (R470). -/
def State.physical (s : State) (x y : Nat) : Nat :=
  let cx := x / 6
  let lx := x % 6
  let f := s.fld (fldAt fRstRowmapFailQx (rowOffset cx y))
  7 * cx + (if lx < f then lx else lx + 1) + 84 * y

/-- A field of region `r`. -/
def State.rgn (s : State) (r : Nat) (f : Fld) : Nat := s.fld (fldAt f (0x40 * r))

/-- The state with a field of region `r` set. -/
def State.setRgn (s : State) (r : Nat) (f : Fld) (v : Nat) : State := s.setFld (fldAt f (0x40 * r)) v

/-- A field of client `k`. -/
def State.cli (s : State) (k : Nat) (f : Fld) : Nat := s.fld (fldAt f (0x80 * k))

/-- The state with a field of client `k` set. -/
def State.setCli (s : State) (k : Nat) (f : Fld) (v : Nat) : State := s.setFld (fldAt f (0x80 * k)) v

/-- Whether a cluster lies in the rectangle of region `r` (R260). -/
def State.holds (s : State) (r n : Nat) : Bool :=
  let cx := n % 12
  let cy := n / 12
  let x0 := s.rgn r fRgnCfgCx0
  let y0 := s.rgn r fRgnCfgCy0
  decide (s.rgn r fRgnCfgEnable = 1) && decide (x0 ≤ cx) && decide (cx ≤ x0 + s.rgn r fRgnCfgWidth) && decide (y0 ≤ cy) &&
    decide (cy ≤ y0 + s.rgn r fRgnCfgHeight)

/-- The enabled region that holds a cluster. -/
def State.regionOf (s : State) (n : Nat) : Option Nat := (List.range 64).find? (fun r => s.holds r n)

/-- The enabled regions. -/
def State.regionsOn (s : State) : List Nat := (List.range 64).filter (fun r => decide (s.rgn r fRgnCfgEnable = 1))

/-- The check share of region `r` (R424). (DESIGN CHOICE, log entry 54.) -/
def State.share (s : State) (r : Nat) : Nat := s.rgn r fRgnCheckShare

/-- The clusters of region `r`'s mirror rectangle, at share 2 (R425). -/
def State.mirrorClusters (s : State) (r : Nat) : List Nat :=
  if s.share r = 2 then
    let x0 := s.rgn r fRgnCheckMx0
    let y0 := s.rgn r fRgnCheckMy0
    (List.range (s.rgn r fRgnCfgHeight + 1)).flatMap (fun j => (List.range (s.rgn r fRgnCfgWidth + 1)).map (fun i => (x0 + i) + 12 * (y0 + j)))
  else []

/-- The enabled region that a cluster works for: the one that holds it, or whose mirror rectangle does (R426, R429). -/
def State.ownerOf (s : State) (n : Nat) : Option Nat :=
  match s.regionOf n with
  | some r => some r
  | none => s.regionsOn.find? (fun r => (s.mirrorClusters r).contains n)

/-- Whether a core runs an exemplar under the Scribe Complex (R431). -/
def State.exemplarOn (s : State) (i : Nat) : Bool := s.repair.runs.any (fun x => x.cores.contains i)

/-- The Global Time Counter as a count of nanoseconds (R67, R359). -/
def State.time (s : State) : Nat := s.fld fTimeSecSec * 10 ^ 9 + s.fld fTimeNsNs

/-- The counter as interpolated at a cluster: within 4 ns of the time the cluster follows, the difference being free (R67, R360, R366). -/
def State.timeAt (s : State) (n : Nat) : Nat :=
  ((s.time : Int) + (s.cluster n).interp + ((Config.timeSkew n s.time).val : Int) - 4).toNat

/-- The seed of a client for a region: zero when the client is not valid or belongs to another region (R267). -/
def State.seedOf (s : State) (client region : Nat) : Word :=
  if s.cli client fCliCfgValid = 1 && s.cli client fCliCfgRegion = region then s.reg (fCliSeedSeed.off + 0x80 * client) else 0

/-- Whether a cluster's clock runs: the device is up and the cluster's PLL is locked (R471). -/
def State.alive (s : State) (n : Nat) : Bool :=
  decide (s.dev = .up) && decide (s.fld (fldAt fClkClStatusLocked (0x100 * n)) = 1)

/-- What a core is told of the rest of the block. A core of a mirror rectangle is told of the region it mirrors, and runs nothing of its own (R426); one that runs an
exemplar sees its cluster as the whole of its region, and a spare takes the first column there (R431). (DESIGN CHOICE, log entries 82, 158.) (DESIGN CHOICE, log entry 144.) -/
def State.env (s : State) (i : Nat) : Env :=
  let n := clusterOfCore i
  let r := s.ownerOf n
  let rid := r.getD 0
  let lx := s.logicalX i
  let run := s.exemplarOn i
  { core := i
    alive := s.alive n && (run || (lx.isSome && (s.regionOf n).isSome))
    region := rid
    inRegion := r.isSome
    gen := s.rgn rid fRgnStatusGeneration
    compat := r.isSome && decide (s.rgn rid fRgnCfgCompat = 1)
    ox := if run then 6 * (n % 12) else 6 * s.rgn rid fRgnCfgCx0
    oy := if run then 8 * (n / 12) else 8 * s.rgn rid fRgnCfgCy0
    width := if run then 6 else 6 * (s.rgn rid fRgnCfgWidth + 1)
    height := if run then 8 else 8 * (s.rgn rid fRgnCfgHeight + 1)
    x := lx.getD (6 * (n % 12))
    y := pyOf i
    now := s.timeAt n
    mono := s.mono
    seed := s.seedOf (s.core i).ctl.cliSel rid }

/-! ## The event log and reports (R442, R443, R478) -/

/-- Word 0 of a log entry (R442). -/
def LogEntry.word0 (l : LogEntry) : Word :=
  BitVec.ofNat 64 (l.seq % 2 ^ 32 + l.code % 256 * 2 ^ 32 + l.severity % 4 * 2 ^ 40 + l.cluster % 256 * 2 ^ 42 +
    (l.region.getD 0) % 64 * 2 ^ 50 + bit l.region.isSome * 2 ^ 56 + 2 ^ 63)

/-- The four words of a log entry (R442). -/
def LogEntry.words (l : LogEntry) : List Word :=
  [l.word0, BitVec.ofNat 64 l.time, BitVec.ofNat 64 (l.resets % 2 ^ 32), l.detail]

/-- FAULT_N is asserted for a cause. (DEDUCED, log entry 56.) -/
def State.faultOn (s : State) (f : FaultCause) : State :=
  { s with island := { s.island with faults := s.island.faults.filter (fun g => g != f) ++ [f] } }

/-- FAULT_N is released for a cause. -/
def State.faultOff (s : State) (f : FaultCause) : State :=
  { s with island := { s.island with faults := s.island.faults.filter (fun g => g != f) } }

/-- The log memory has failed: it takes no further entries until power-on (R436). (DESIGN CHOICE, log entry 90.) -/
def State.loseLog (s : State) : State := (s.setFld fAoiLogStatusLogLost 1).faultOn .logLost

/-- The place of an entry in the log's memory, which holds 8,192. -/
def logPlace (seq : Nat) : Nat := seq % 8192

/-- An event is logged: in the log unless a failed readback has stopped it, as one does that is written where an upset has struck, and a critical one in the last-gasp
register as well (R442, R443, R436). -/
def State.logEvent (s : State) (code severity cluster : Nat) (region : Option Nat) (detail : Word) : State :=
  let e : LogEntry := ⟨s.fld fAoiLogHeadNextSeq, code, severity, cluster, region, s.time, s.fld fAoiCauseResets, detail⟩
  let s := if severity = 2 then
      (e.words.zipIdx).foldl (fun (t : State) x => t.setReg (fAoiLastGaspWord.off + 8 * x.2) x.1) s
    else s
  if s.fld fAoiLogStatusLogLost = 1 then s.setFld fAoiLogStatusLostEntries (min 65535 (s.fld fAoiLogStatusLostEntries + 1))
  else
    let l := s.log ++ [e]
    let l := if 8192 < l.length then l.drop (l.length - 8192) else l
    let s := ({ s with log := l }.bump fAoiLogHeadNextSeq 1).setFld fAoiLogHeadHeld l.length
    if s.logBad.look (logPlace e.seq) false then s.loseLog else s

/-- A report reaches the Scribe Complex. (DESIGN CHOICE, log entry 72.) -/
def State.note (s : State) (n : Note) : State := { s with notes := s.notes ++ [n] }

/-- The field repair entry of a failure: its kind, cluster, place in the row and row in the cluster (R417). -/
def repairEntry (kind cluster qx ly : Nat) : Word := BitVec.ofNat 64 (kind + 16 * cluster + 2 ^ 12 * qx + 2 ^ 15 * ly)

/-- The entry of a row of a core's reservoir (R417). -/
def rowEntry (i channel bank row : Nat) : Word :=
  repairEntry 3 (clusterOfCore i) (pxOf i % 7) (pyOf i % 8) + BitVec.ofNat 64 (2 ^ 18 * channel + 2 ^ 22 * bank + 2 ^ 26 * row)

/-! ## The hairline network (R254 to R258) -/

/-- The hub one step in a direction: 0 +x, 1 −x, 2 +y, 3 −y. -/
def hubStep (n d : Nat) : Nat :=
  match d with
  | 0 => n + 1
  | 1 => n - 1
  | 2 => n + 12
  | _ => n - 12

/-- Whether a hub has a neighbour in a direction. -/
def hubHas (n d : Nat) : Bool :=
  match d with
  | 0 => decide (n % 12 < 11)
  | 1 => decide (0 < n % 12)
  | 2 => decide (n / 12 < 11)
  | _ => decide (0 < n / 12)

/-- Whether a hub's link in a direction is marked down (R258). -/
def State.hubCut (s : State) (n d : Nat) : Bool := ((s.cluster n).fld fLigHlStatusLinkDown).testBit d

/-- The direction in which hub `a` sends a packet for cluster `b`: x first; where the hub detours, y first, the other way where that link is down, and
along y to the next row where the packet has only the down link to take (R254, R258). -/
def State.hubDir (s : State) (a b : Nat) : Nat :=
  let dx := if a % 12 = b % 12 then none else some (if a % 12 < b % 12 then 0 else 1)
  let dy := if a / 12 = b / 12 then none else some (if a / 12 < b / 12 then 2 else 3)
  let aside (d : Nat) (ds : List Nat) : Nat := if s.hubCut a d then (ds.find? (fun d => hubHas a d && !s.hubCut a d)).getD d else d
  if (s.cluster a).fld fLigHlStatusDetour = 0 then (dx.orElse (fun _ => dy)).getD 0
  else match dx, dy with
    | some x, some y => if s.hubCut a y then x else y
    | none, some y => aside y [0, 1]
    | some x, none => aside x [2, 3]
    | none, none => 0

/-- The hubs of a packet's route from `a` to `b`, each with the link that it sends the packet on by. One that a hub sends aside in x, around a link in y, goes on in y from the
next: `turn` holds that direction (R254, R258). (DESIGN CHOICE, log entry 28.) -/
def State.hubRoute (s : State) (b : Nat) : Nat → Option Nat → Nat → List (Nat × Nat)
  | 0, _, _ => []
  | fuel + 1, turn, a =>
    if a = b then []
    else
      let d := turn.getD (s.hubDir a b)
      let aside := turn.isNone && a % 12 = b % 12 && d < 2
      (a, d) :: State.hubRoute s b fuel (if aside then some (if a / 12 < b / 12 then 2 else 3) else none) (hubStep a d)

/-- The route of a packet between two clusters; none takes more than 28 steps. -/
def State.hubWay (s : State) (a b : Nat) : List (Nat × Nat) := s.hubRoute b 28 none a

/-- A routed packet from one cluster to another: each hub on the way counts it as forwarded, and one whose link is down discards and counts it.
The answer says whether it arrived (R255, R258). (DESIGN CHOICE, log entry 28.) -/
def State.hairline (s : State) : List (Nat × Nat) → Bool × State
  | [] => (true, s)
  | (a, d) :: r =>
    if s.hubCut a d then (false, s.mapCluster a (fun k => k.bump fLigHlDropCount 1))
    else State.hairline (s.mapCluster a (fun k => k.bump fLigHlPacketsCount 1)) r

/-- A routed packet between two clusters: it arrives where its route ends there. -/
def State.send (s : State) (a b : Nat) : Bool × State :=
  let r := s.hubWay a b
  let x := s.hairline r
  (x.1 && (r.getLast?).elim (decide (a = b)) (fun y => hubStep y.1 y.2 = b), x.2)

/-- Whether a cluster's PLL holds over during a switch of its reference, which withholds the credits of every crossing into and out of it (R356). The seed's
holdover, which no switch follows, withholds none (R357). -/
def State.heldOver (s : State) (n : Nat) : Bool := s.clocks.held.look n 0 != 0

/-- The link at which a routed packet between two clusters waits: the first on its way whose crossing withholds credits (R356). -/
def State.waitsAt (s : State) (a b : Nat) : Option (Nat × Nat) := (s.hubWay a b).find? (fun x => s.heldOver x.1 || s.heldOver (hubStep x.1 x.2))

/-- Whether a routed packet between two clusters waits. -/
def State.hubWaits (s : State) (a b : Nat) : Bool := (s.waitsAt a b).isSome

/-- The hub by which the Scribe Complex joins the hairline for a cluster: the first of the cluster's row. -/
def scribeHub (n : Nat) : Nat := 12 * (n / 12)

/-- A message between the Scribe Complex and a cluster, on class 1: it waits where a crossing on its way withholds credits, and a down link on its way discards it (R254, R258,
R356). -/
def State.hubSend (s : State) (m : HubMsg) : State :=
  match m with
  | .report a b x =>
    if s.hubWaits a b then { s with hubHeld := s.hubHeld ++ [m] }
    else
      let (ok, s) := s.send a b
      if ok then s.note x else s
  | .event a b i x =>
    if s.hubWaits a b then { s with hubHeld := s.hubHeld ++ [m] }
    else
      let (ok, s) := s.send a b
      if ok then s.mapCore i (fun c => { c with inbound := c.inbound ++ [x] }) else s

/-- A report that a cluster sends the Scribe Complex. -/
def State.noteFrom (s : State) (cluster : Nat) (x : Note) : State := s.hubSend (.report cluster (scribeHub cluster) x)

/-- An event that the Scribe Complex sends to a core. -/
def State.eventTo (s : State) (i : Nat) (x : EventMsg) : State := s.hubSend (.event (scribeHub (clusterOfCore i)) (clusterOfCore i) i x)

/-- The messages that waited at a crossing go on, in order, once it returns credits (R356). -/
def State.hubRelease (s : State) : State := s.hubHeld.foldl State.hubSend { s with hubHeld := [] }

/-- A core replaced, with a core-halted fault for its region reported when it has halted (R66). -/
def State.putCore (s : State) (i : Nat) (c : Core) : State :=
  let s' := s.setCore i c
  if c.ctl.halted && !(s.core i).ctl.halted then s'.noteFrom (clusterOfCore i) (.coreHalted i (s.env i).region (s.env i).gen) else s'

/-! ## Registers held in copies (R435) -/

/-- The three copies of a register: all hold its value where no upset has parted them. -/
def State.copiesOf (s : State) (a : Nat) : List (Option Word) :=
  if s.copies.look a [] = [] then List.replicate 3 (some (s.reg a)) else s.copies.look a []

/-- What an upset does. (DESIGN CHOICE, log entry 84.) -/
def State.upset (s : State) (x : Upset) : State :=
  match x with
  | .copy a k v => if voted a then { s with copies := s.copies.put a ((s.copiesOf a).set k.val v) [] } else s
  | .log k => { s with logBad := s.logBad.put k.val true false }
  | .mesh i d w ue => { s with wordErrs := s.wordErrs ++ [⟨i.val, d.val, w, ue⟩] }

/-- The value on which two copies that pass parity agree, if two do. -/
def majority (l : List (Option Word)) : Option Word := (l.find? (fun c => c.isSome && decide (2 ≤ l.count c))).join

/-- A read that votes the copies of a register, with whether two agree: then the third is rewritten and counted where it differs, and without a majority the device
enters recovery. The log names the register in either case. -/
def State.voteReg (s : State) (a : Nat) : Bool × State :=
  match majority (s.copiesOf a) with
  | some w =>
    if (s.copiesOf a).all (fun c => c = some w) then (true, s)
    else (true, ((s.setReg a w).bump fRstCfgVotesCount 1).logEvent 0x0C 1 0xFF none (Config.copyDetail a))
  | none => (false, ((s.setFld fAoiRecoverForceMrm 1).faultOn .recovery).logEvent 0x0D 2 0xFF none (Config.copyDetail a))

/-- The reads that a command makes of registers held in copies, those that upsets have parted among them: whether each found a majority, without which the command goes no
further. (DESIGN CHOICE, log entry 84.) -/
def State.voteWhere (s : State) (p : Nat → Bool) : Bool × State :=
  ((s.copies.map (·.1)).filter p).foldl (fun (r : Bool × State) a =>
    let x := r.2.voteReg a
    (r.1 && x.1, x.2)) (true, s)

/-- The rim address of the row of the repair map that holds row `y` of cluster column `cx`. -/
def rowAddr (cx y : Nat) : Nat := fRstRowmapFailQx.off + rowOffset cx y

/-! ## The lifecycle, and what the device serves (R395, R399, R411, R412) -/

/-- The lifecycle state of the fuse counter (R411, R412): 0 Blank, 1 Provisioned, 2 Service, 3 Maintenance, 4 Retired. -/
def lifecycleOf (v : Nat) : Nat := if v = 0 then 0 else if v = 1 then 1 else if 255 ≤ v then 4 else if v % 2 = 0 then 2 else 3

/-- The device's lifecycle state. -/
def State.lifecycle (s : State) : Nat := lifecycleOf s.life

/-- Whether the device is up and start-OK, so that it accepts region, client and fabric commands (R395, R399). -/
def State.serving (s : State) : Bool := decide (s.dev = .up) && decide (s.fld fRstStatusStartOk = 1)

/-! ## Pin groups (R391, R393, R453 to R455) -/

/-- The fused reset codes of pin groups 0 to 15; those of the port lanes, groups 16 to 31, are zero (R453). (DEDUCED, log entry 94.) -/
def pinCodes : List Nat := [3, 0, 3, 3, 1, 1, 2, 2, 0, 1, 2, 0, 3, 4, 2, 0]

/-- The state that a code gives a group (R393). -/
def padOf (code : Nat) : Pad :=
  match code with
  | 1 => .pullDown
  | 2 => .pullUp
  | 3 => .low
  | 4 => .high
  | _ => .highZ

/-- The state that a code gives a group of its type: for an input only a pull, an open-drain output is not driven high, and a lane is idle (R454). -/
def fusedPad (g code : Nat) : Pad :=
  if 15 ≤ g then .idle
  else if [4, 5, 6, 7, 9, 10, 14].contains g && 3 ≤ code then .highZ
  else if (g = 1 || g = 2) && code = 4 then .highZ
  else padOf code

/-- The state in which a pin group is. -/
def State.pad (s : State) (g : Nat) : Pad := s.island.pads.look g .highZ

/-- The state with pin groups in a state each. -/
def State.setPads (s : State) (gs : List Nat) (f : Nat → Pad) : State :=
  { s with island := { s.island with pads := gs.foldl (fun t g => t.put g (f g) .highZ) s.island.pads } }

/-- Pin groups in their fuse-defined states. -/
def State.fusePads (s : State) (gs : List Nat) : State := s.setPads gs (fun g => fusedPad g (pinCodes.getD g 0))

/-- The pin groups outside the island: TCK, TMS and TDI, TDO, the AVS interfaces and the lanes. -/
def outerPads : List Nat := (List.range 32).drop 9

/-- The outputs outside the island: TDO, AVS_CLK and AVS_MDATA, and the lanes. -/
def outerOutputs : List Nat := [11, 12, 13] ++ (List.range 32).drop 15

/-! ## Replies of the Scribe Complex (R334, R343) -/

/-- The session of a request: session 0 has one record for each interface. -/
def State.session (s : State) (iface n : Nat) : Session :=
  if n = 0 then s.scribe.zero.look iface sessionNew else (s.scribe.sessions.look n none).getD sessionNew

/-- The state with the session of a request replaced. -/
def State.setSession (s : State) (iface n : Nat) (x : Session) : State :=
  if n = 0 then { s with scribe := { s.scribe with zero := s.scribe.zero.put iface x sessionNew } }
  else { s with scribe := { s.scribe with sessions := s.scribe.sessions.put n (some x) none } }

/-- A session ends: its keys, its replies and its requests are gone, and SCR_STATUS counts one fewer (R342). -/
def State.endSession (s : State) (n : Nat) : State :=
  let t := s.scribe.sessions.put n none none
  { s with scribe := { s.scribe with sessions := t, reqs := s.scribe.reqs.filter (fun r => r.session != n) } }.setFld fScrStatusSessions t.length

/-- A reply is sent and kept among its session's last sixty-four (R343); the last sequence number of an established session ends it (R342). -/
def State.sendReply (s : State) (r : Reply) : State :=
  let x := s.session r.iface r.session
  let s := { s with scribe := { s.scribe with sent := some r } }
  if r.session = 0 then s.setSession r.iface 0 { x with kept := (r :: x.kept).take 64, last := r.seq }
  else if (s.scribe.sessions.look r.session none).isNone then s
  else if r.seq = 2 ^ 32 - 1 then s.endSession r.session
  else s.setSession r.iface r.session { x with kept := (r :: x.kept).take 64, last := r.seq }

/-- Whether the request at the head of the Scribe's queue has an opcode. -/
def State.asked (s : State) (op : Nat) : Bool := (s.scribe.reqs.head?).any (fun r => decide (r.opcode = op))

/-- The time at which the request at the head of the Scribe's queue came. -/
def State.headSince (s : State) : Nat := ((s.scribe.reqs.head?).map (·.since)).getD s.mono

/-- A status with a detail in the first payload word (R334). -/
def detailWord (v : Nat) : List Byte := bytesOfNat 8 v

/-- The offset of the first bad field of a payload, of fields given in order by the byte each begins at, its bytes and whether its value is good: one that the payload
cuts short or lacks is bad too (R334). -/
def badField (p : List Byte) (fields : List (Nat × Nat × Bool)) : Option Nat :=
  (fields.find? (fun f => decide (p.length < f.1 + f.2.1) || !f.2.2)).map (·.1)

/-- The same of a payload of `n` bytes, in which the first byte past them is bad. -/
def badPayload (p : List Byte) (n : Nat) (fields : List (Nat × Nat × Bool)) : Option Nat :=
  (badField p fields).orElse (fun _ => if p.length ≤ n then none else some n)

/-- The opcodes of management messages (R343). -/
def mgmtOpcodes : List Nat :=
  [0x01, 0x02, 0x03, 0x10, 0x11, 0x12, 0x13, 0x14, 0x20, 0x21, 0x22, 0x23, 0x24, 0x25, 0x30, 0x31, 0x40, 0x41, 0x50, 0x51]

/-- The opcodes allowed on session 0: SESSION_OPEN and STATUS, and in Minimal Recovery Mode the loading of an image (R343). -/
def State.openOpcodes (s : State) : List Nat := if s.fld fRstStatusMrm = 1 then [0x01, 0x03, 0x10, 0x11, 0x12] else [0x01, 0x03]

/-- The opcodes that the boot ROM answers before the firmware runs (R396). -/
def bootOpcodes : List Nat := [0x01, 0x02, 0x03, 0x10, 0x11, 0x12, 0x13, 0x14]

/-- Those of regions, clients and the fabric, which wait for start-OK (R399). -/
def lateOpcodes : List Nat := [0x22, 0x23, 0x24, 0x25, 0x40, 0x41]

/-- Those that a frozen device answers (R446). -/
def frozenOpcodes : List Nat := [0x03, 0x20, 0x31, 0x50]

/-- The status and detail with which a request is answered whatever its payload holds, if it may not be executed: on session 0, frozen, retired, during
bring-up, or in Blank (R343, R396, R399, R411, R446). -/
def State.barred (s : State) (r : MReq) : Option (Nat × List Byte) :=
  let no : Option (Nat × List Byte) := some (5, detailWord s.lifecycle)
  if r.session = 0 && !s.openOpcodes.contains r.opcode then no
  else if s.dev = .frozen && !frozenOpcodes.contains r.opcode then no
  else if s.lifecycle = 4 && r.opcode != 3 then no
  else if s.dev = .frozen then none
  else if s.fld fRstStatusPhase < 8 && !bootOpcodes.contains r.opcode then some (1, [])
  else if !mgmtOpcodes.contains r.opcode then some (2, detailWord 8)
  else if s.lifecycle = 0 && [0x22, 0x23, 0x24, 0x25].contains r.opcode then no
  else if s.fld fRstStatusStartOk = 0 && lateOpcodes.contains r.opcode then some (1, [])
  else none

/-- The requests at the head of the queue that may not be executed are answered, up to the first that may (R343). -/
def State.drain : Nat → State → State
  | 0, s => s
  | fuel + 1, s =>
    match s.scribe.reqs with
    | [] => s
    | r :: q =>
      match s.barred r with
      | none => s
      | some (st, d) => State.drain fuel ({ s with scribe := { s.scribe with reqs := q } }.sendReply ⟨r.iface, r.session, r.seq, r.opcode, st, d⟩)

/-- Every such request answered. -/
def State.settle (s : State) : State := s.drain (s.scribe.reqs.length)

/-- The request at the head of the queue, when it has the opcode, is answered and leaves the queue (R334). -/
def State.answerHead (s : State) (op status : Nat) (payload : List Byte) : State :=
  match s.scribe.reqs with
  | [] => s
  | r :: q =>
    if r.opcode = op then { s with scribe := { s.scribe with reqs := q } }.sendReply ⟨r.iface, r.session, r.seq, op, status, payload⟩ else s

/-- The same, and those after it that may not be executed are answered as well. -/
def State.answer (s : State) (op status : Nat) (payload : List Byte) : State := (s.answerHead op status payload).settle

/-- The payload of the request at the head of the queue, when it has an opcode. -/
def State.payload (s : State) (op : Nat) : Option (List Byte) :=
  if s.asked op then (s.scribe.reqs.head?).map (·.payload) else none

/-! ## Management windows (R268, R472) -/

/-- A well word written through port 14: all eight bytes, its poison cleared and its granule marked. -/
def Core.windowWrite (a : Nat) (v : Word) (poison : Bool) (c : Core) : Core :=
  { c with well := { c.well with mem := c.well.mem.write ⟨a, BitVec.allOnes 8, v, poison⟩ } }

/-- A port beside its registers. -/
def State.port (s : State) (p : Nat) : PortSt := s.ports.look p portNew

/-- The state with a port changed. -/
def State.mapPort (s : State) (p : Nat) (f : PortSt → PortSt) : State := { s with ports := s.ports.put p (f (s.port p)) portNew }

/-- A field of the registers of port `p`. -/
def State.pfld (s : State) (p : Nat) (f : Fld) : Nat := s.fld (fldAt f (0x1000 * p))

/-- The state with a field of the registers of port `p` set. -/
def State.setP (s : State) (p : Nat) (f : Fld) (v : Nat) : State := s.setFld (fldAt f (0x1000 * p)) v

/-- A counter of port `p` advanced. -/
def State.bumpP (s : State) (p : Nat) (f : Fld) (n : Nat) : State := s.bump (fldAt f (0x1000 * p)) n

/-- A counter of client `k` advanced. -/
def State.bumpCli (s : State) (k : Nat) (f : Fld) (n : Nat) : State := s.bump (fldAt f (0x80 * k)) n

/-- The physical core of a region-relative core of region `r` (R470). -/
def State.regionCore (s : State) (r x y : Nat) : Nat := s.physical (6 * s.rgn r fRgnCfgCx0 + x) (8 * s.rgn r fRgnCfgCy0 + y)

/-- What the Scribe keeps of region `r`. -/
def State.rgnSt (s : State) (r : Nat) : RgnSt := s.rgns.look r rgnFree

/-- The state with that record changed. -/
def State.mapRgn (s : State) (r : Nat) (f : RgnSt → RgnSt) : State := { s with rgns := s.rgns.put r (f (s.rgnSt r)) rgnFree }

end Sys2Proof.Machine
end

