-- ==== Sys2Proof/Machine/Frames.lean ====
section
/-! DEFINITION. Ethernet frames: what the parser reads of one, its checksums, and the classification table (R300 to R302, R304, R305). -/

namespace Sys2Proof.Machine

/-! ## Parsing (R300) -/

/-- The number whose first octet is the most significant: network order. -/
def netNum (bs : List Byte) : Nat := bs.foldl (fun n b => 256 * n + b.toNat) 0

/-- The octets [i, i + n) of a frame as a number in network order. -/
def octets (bs : List Byte) (i n : Nat) : Nat := netNum ((bs.drop i).take n)

/-- What the parser reads of a frame: the VID, the EtherType after the tag and where the header after it begins, the IP version with the destination
address and where the next header begins, the IP next header where the parser goes on past IP, and the UDP destination port. -/
structure Parsed where
  vid : Option Nat
  etype : Nat
  l3 : Nat
  ip : Option (Nat × Nat)
  proto : Option Nat
  l4 : Nat
  udp : Option Nat
  deriving DecidableEq, Repr

/-- A frame parsed to the layer reached (R300): one VLAN tag, IPv4 with any header length or IPv6 with UDP next, and a UDP header. A fragment of IPv4
is not parsed beyond IP, a tag of TPID 0x88A8 not beyond itself, and a header that the frame does not hold whole not at all. (DEDUCED, log entry 159.) -/
def parseFrame (bs : List Byte) : Parsed :=
  let t0 := octets bs 12 2
  let tagged := decide (t0 = 0x8100)
  let vid := if tagged then some (octets bs 14 2 % 2 ^ 12) else none
  let et := if tagged then octets bs 16 2 else t0
  let l3 := if tagged then 18 else 14
  let none_ : Parsed := ⟨vid, et, l3, none, none, l3, none⟩
  if et = 0x0800 then
    let l4 := l3 + 4 * (octets bs l3 1 % 16)
    let frag := octets bs (l3 + 6) 2 % 2 ^ 14 != 0
    let proto := octets bs (l3 + 9) 1
    let ip := some (4, octets bs (l3 + 16) 4)
    if bs.length < l3 + 20 || bs.length < l4 then none_
    else if frag then ⟨vid, et, l3, ip, none, l4, none⟩
    else ⟨vid, et, l3, ip, some proto, l4, if proto = 17 && l4 + 8 ≤ bs.length then some (octets bs (l4 + 2) 2) else none⟩
  else if et = 0x86DD then
    let next := octets bs (l3 + 6) 1
    let l4 := l3 + 40
    let ip := some (6, octets bs (l3 + 24) 16)
    if bs.length < l4 then none_
    else if next = 17 && l4 + 8 ≤ bs.length then ⟨vid, et, l3, ip, some 17, l4, some (octets bs (l4 + 2) 2)⟩ else ⟨vid, et, l3, ip, some next, l4, none⟩
  else none_

/-- Whether a frame goes to the Scribe Complex without classification: LLDP, ARP, PTP, ICMPv6, and UDP to ports 319 and 320 (R300). -/
def Parsed.forScribe (p : Parsed) : Bool :=
  decide (p.etype = 0x88CC) || decide (p.etype = 0x0806) || decide (p.etype = 0x88F7) ||
  (decide (p.etype = 0x86DD) && decide (p.proto = some 58)) || decide (p.udp = some 319) || decide (p.udp = some 320)

/-! ## Checksums (R304, R305) -/

/-- The sixteen-bit words of octets in network order, the last padded with a zero octet. -/
def netWords : Nat → List Byte → List Nat
  | 0, _ => []
  | fuel + 1, bs =>
    match bs with
    | [] => []
    | [a] => [256 * a.toNat]
    | a :: b :: r => (256 * a.toNat + b.toNat) :: netWords fuel r

/-- The ones'-complement sum of sixteen-bit words. -/
def onesSum (ws : List Nat) : Nat :=
  let t := ws.foldl (· + ·) 0
  let t := t / 2 ^ 16 + t % 2 ^ 16
  let t := t / 2 ^ 16 + t % 2 ^ 16
  t / 2 ^ 16 + t % 2 ^ 16

/-- The octets [i, i + n) of a frame. -/
def span (bs : List Byte) (i n : Nat) : List Byte := (bs.drop i).take n

/-- Whether the IPv4 header checksum of a frame holds; a frame without IPv4 has none. -/
def ipCsumOk (bs : List Byte) (p : Parsed) : Bool :=
  match p.ip with
  | some (4, _) => decide (onesSum (netWords 64 (span bs p.l3 (p.l4 - p.l3))) = 0xFFFF)
  | _ => true

/-- The words that a UDP checksum covers: the pseudo-header and the datagram. -/
def udpWords (bs : List Byte) (p : Parsed) : List Nat :=
  let len := octets bs (p.l4 + 4) 2
  let body := netWords (len + 1) (span bs p.l4 len)
  match p.ip with
  | some (4, _) => netWords 8 (span bs (p.l3 + 12) 8) ++ [17, len] ++ body
  | _ => netWords 32 (span bs (p.l3 + 8) 32) ++ [17, len] ++ body

/-- Whether the UDP checksum of a frame holds; an IPv4 checksum field of zero is not checked, and a frame without UDP has none. -/
def udpCsumOk (bs : List Byte) (p : Parsed) : Bool :=
  match p.udp with
  | none => true
  | some _ =>
    let v4 := match p.ip with
      | some (4, _) => true
      | _ => false
    (v4 && octets bs (p.l4 + 6) 2 = 0) || decide (onesSum (udpWords bs p) = 0xFFFF)

/-- A frame with the two octets at `i` replaced. -/
def putNet16 (bs : List Byte) (i v : Nat) : List Byte :=
  bs.take i ++ [BitVec.ofNat 8 (v / 256), BitVec.ofNat 8 v] ++ bs.drop (i + 2)

/-- The IPv4 header checksum and the UDP checksum written into a frame that parses; a UDP checksum over IPv6 of zero is written as ones (R305). -/
def insertCsums (bs : List Byte) : List Byte :=
  let p := parseFrame bs
  let v4 := match p.ip with
    | some (4, _) => true
    | _ => false
  let bs := if v4 then
      let z := putNet16 bs (p.l3 + 10) 0
      putNet16 z (p.l3 + 10) (0xFFFF - onesSum (netWords 64 (span z p.l3 (p.l4 - p.l3))))
    else bs
  match p.udp with
  | none => bs
  | some _ =>
    let z := putNet16 bs (p.l4 + 6) 0
    let c := 0xFFFF - onesSum (udpWords z p)
    putNet16 z (p.l4 + 6) (if c = 0 && !v4 then 0xFFFF else c)

/-! ## Classification (R301, R302) -/

/-- An entry of the table. -/
def State.clsAt (s : State) (i : Nat) : ClsEntry := s.cls.look i clsNone

/-- A field of an entry's first word. -/
def ClsEntry.f (x : ClsEntry) (f : Fld) : Nat := fieldOf x.w0 f.lo f.width

/-- Whether an entry matches a frame that arrived at a port (R301). -/
def ClsEntry.matchesFrame (x : ClsEntry) (port : Nat) (p : Parsed) : Bool :=
  let addr := x.w1.toNat + x.w2.toNat * 2 ^ 64
  x.f fPortClsStage0Valid = 1 && (x.f fPortClsStage0PortMask).testBit port &&
  (x.f fPortClsStage0VlanEn = 0 || decide (p.vid = some (x.f fPortClsStage0Vid))) &&
  (match x.f fPortClsStage0IpVer with
    | 1 => decide (p.ip = some (4, addr))
    | 2 => decide (p.ip = some (6, addr))
    | _ => true) &&
  (x.f fPortClsStage0UdpEn = 0 || decide (p.udp = some (x.f fPortClsStage0UdpPort)))

/-- The lowest-numbered matching entry. The table lists its entries in rising order. -/
def State.classify (s : State) (port : Nat) (p : Parsed) : Option ClsEntry := (s.cls.find? (fun x => x.2.matchesFrame port p)).map (·.2)

/-- The staging registers copied into an entry whole, or refused for a reserved value (R302). -/
def State.clsCommand (s : State) (index : Nat) : State :=
  let x : ClsEntry := ⟨s.reg fPortClsStage0Valid.off, s.reg fPortClsStage1Addr.off, s.reg fPortClsStage2Addr.off⟩
  if x.f fPortClsStage0Action = 3 || x.f fPortClsStage0IpVer = 3 then s.setFld fPortClsStatusClsErr 1
  else { s with cls := s.cls.put (index % 2 ^ 12) x clsNone }

/-- An entry loaded through the staging registers and written (R302). -/
def State.clsWrite (s : State) (e : Nat × Word × Word × Word) : State :=
  (((s.setReg fPortClsStage0Valid.off (BitVec.ofNat 64 (fieldOf e.2.1 0 61))).setReg fPortClsStage1Addr.off e.2.2.1).setReg
    fPortClsStage2Addr.off e.2.2.2).clsCommand e.1

end Sys2Proof.Machine
end

