-- ==== Sys2Proof/Machine/Flags.lean ====
section
/-! DEFINITION. The sticky flags of the matrix engine, the vector engine and the combining queues, and the status words of the control
unit (R72, R97, R137, R204). -/

namespace Sys2Proof.Machine

/-- Flags are ORed into MX_FLAGS (R92, R97). -/
def Core.mxFlag (f : BitVec 6) (c : Core) : Core := { c with mx := { c.mx with flags := c.mx.flags ||| f } }

/-- Flags are ORed into VX_FLAGS (R137). -/
def Core.vxFlag (f : BitVec 6) (c : Core) : Core := { c with vx := { c.vx with flags := c.vx.flags ||| f } }

/-- CH_CQ_FLAGS (R204). -/
def Core.cqFlags (c : Core) : BitVec 6 := BitVec.ofNat 6 (c.reg fChCqFlagsSpill.off).toNat

/-- Flags are ORed into CH_CQ_FLAGS (R204). -/
def Core.cqFlag (f : BitVec 6) (c : Core) : Core := c.setReg fChCqFlagsSpill.off (BitVec.ofNat 64 (c.cqFlags ||| f).toNat)

/-- The flags after a clear mask: each field whose bit is set is cleared (R114, R137, R195). -/
def clearFlags (f : BitVec 6) (mask : Nat) : BitVec 6 := f &&& ~~~(BitVec.ofNat 6 mask)

/-- CORE_STATUS as it reads (R72). -/
def Ctl.status (k : Ctl) : Word :=
  BitVec.ofNat 64 (bit k.running + bit k.halted * 2 + bit k.stopped * 4 + bit k.inHandler * 8 + k.loops.length % 8 * 16 +
    bit k.breach * 2 ^ 7 + bit k.poisonSeen * 2 ^ 8 + k.evq.length % 64 * 2 ^ 9 + bit k.evqOverflow * 2 ^ 15)

/-- A write of CORE_STATUS: each 1 in a W1C field clears it, and the other fields are read-only (R12, R72). -/
def Ctl.writeStatus (k : Ctl) (v : Word) : Ctl :=
  { k with breach := k.breach && !bitOf v 7, poisonSeen := k.poisonSeen && !bitOf v 8, evqOverflow := k.evqOverflow && !bitOf v 15 }

/-- CORE_CTRL as it reads (R72). -/
def Ctl.ctrl (k : Ctl) : Word := BitVec.ofNat 64 (bit k.evEn + k.waitLimit % 16 * 2)

/-- A write of CORE_CTRL (R72). -/
def Ctl.writeCtrl (k : Ctl) (v : Word) : Ctl := { k with evEn := bitOf v 0, waitLimit := fieldOf v 1 4 }

end Sys2Proof.Machine
end

