-- ==== Sys2Proof/Machine/Operands.lean ====
section
/-! DEFINITION. The instruction word: its formats and operand fields, the fields each format reserves, and the issue of one
instruction by the control unit (R43 to R45, R49, R50, R65). -/

namespace Sys2Proof.Machine

/-! ## Fields of the formats (R43) -/

/-- The opcode, bits [63:56]. -/
def opOf (w : Word) : Nat := fieldOf w 56 8

/-- Whether an opcode is assigned (R45, R101, R125, R152, R172, R191, R217). -/
def assigned (op : Nat) : Bool :=
  let r (a b : Nat) : Bool := decide (a ≤ op) && decide (op ≤ b)
  r 0x00 0x04 || r 0x10 0x27 || r 0x30 0x32 || r 0x38 0x39 || r 0x40 0x45 || r 0x48 0x4B || r 0x50 0x52 || r 0x54 0x54 || r 0x60 0x63 ||
  r 0x68 0x6B || r 0x70 0x72 || r 0x78 0x78 || r 0x80 0x86 || r 0xA0 0xAF || r 0xC0 0xC6 || r 0xCF 0xCF || r 0xD0 0xD3 || r 0xE0 0xE5

/-- Whether the guard predicate lets the instruction execute (R43). -/
def guardOn (w : Word) (k : Ctl) : Bool := k.p (fieldOf w 53 3) != bitOf w 52

/-- imm32. -/
def imm32 (w : Word) : Nat := fieldOf w 0 32

/-- imm32, sign-extended to 64 bits. -/
def imm64 (w : Word) : Word := BitVec.ofInt 64 (signedOf 32 (imm32 w))

/-- sd or s of formats S, I, A, M, B and X, bits [51:47]. -/
def fSd (w : Word) : Nat := fieldOf w 47 5

/-- sa of formats S, I and X, bits [46:42]; s of format C. -/
def fSa (w : Word) : Nat := fieldOf w 42 5

/-- sb of format S, bits [41:37]. -/
def fSb (w : Word) : Nat := fieldOf w 37 5

/-- ad of format A, aa of format M, bits [46:43]. -/
def fAd (w : Word) : Nat := fieldOf w 43 4

/-- aa of format A, bits [42:39]. -/
def fAa (w : Word) : Nat := fieldOf w 39 4

/-- sa of format E, bits [47:43]. -/
def eSa (w : Word) : Nat := fieldOf w 43 5

/-- sb of format E, bits [42:38]. -/
def eSb (w : Word) : Nat := fieldOf w 38 5

/-- aa of format E, bits [37:34]. -/
def eAa (w : Word) : Nat := fieldOf w 34 4

/-- ab of format E, bits [33:30]. -/
def eAb (w : Word) : Nat := fieldOf w 30 4

/-- The engine field of format E, bits [29:0]. -/
def engField (w : Word) (lo n : Nat) : Nat := fieldOf w lo n

/-- Whether a field that should be zero is not (R44). -/
def nz (w : Word) (lo n : Nat) : Bool := fieldOf w lo n != 0

/-- Reserved fields of format S. -/
def resvS (w : Word) : Bool := nz w 0 37
/-- Reserved fields of format I. -/
def resvI (w : Word) : Bool := nz w 32 10
/-- Reserved fields of format I for the shifts: imm32 [31:6] as well (R46). -/
def resvShift (w : Word) : Bool := nz w 32 10 || nz w 6 26
/-- Reserved fields of a compare: pa and pb, and the operand that use_imm does not select (R46). -/
def resvCmp (w : Word) : Bool := nz w 43 6 || (if bitOf w 32 then nz w 33 5 else nz w 0 32)
/-- Reserved fields of the predicate logic: sa, sb, use_imm and imm32 (R46). -/
def resvPred (w : Word) : Bool := nz w 0 43
/-- Reserved fields of format M. -/
def resvM (w : Word) : Bool := nz w 32 10

/-- The register fields of format E that an instruction uses: sa, sb, aa, ab; the others are reserved, and so is c when ce is 0 (R43,
R56). -/
def resvE (w : Word) (sa sb aa ab : Bool) : Bool :=
  (!bitOf w 48 && nz w 49 3) || (!sa && nz w 43 5) || (!sb && nz w 38 5) || (!aa && nz w 34 4) || (!ab && nz w 30 4)

/-! ## Issue -/

/-- What an instruction's own work at issue comes to: it holds, it traps, it takes effect and issue moves on, it branches, issue
moves past a later index, issue stays at the instruction, or issue resumes at an index. (DESIGN CHOICE, log entry 4.) -/
inductive Issue where
  | stall
  | trap (code source detail : Nat)
  | next (c : Core)
  | jump (c : Core) (target : Nat)
  | skip (c : Core) (idx : Nat)
  | stay (c : Core)
  | resume (c : Core) (target : Nat)
  deriving DecidableEq, Repr

/-- A handler entry is due, so no instruction issues before it (R62). (DEDUCED, log entry 7.) -/
def Ctl.handlerDue (k : Ctl) : Bool := k.evEn && !k.inHandler && k.evq != []

/-- Whether the control unit can issue: its clock runs, it is running, no trap waits for its handler, no lig.wait holds it and no
handler entry is due. -/
def Core.canIssue (e : Env) (c : Core) : Bool :=
  e.alive && c.ctl.running && !c.ctl.halted && !c.ctl.stopped && !c.ctl.trapped && c.ctl.ligWait.isNone && !c.ctl.handlerDue

/-- The detail of a trap for which the manual states none. (DESIGN CHOICE, log entry 9.) -/
def freeDetail (code : Nat) (w : Word) : Nat := (Config.trapDetail code w).toNat

/-- What the work at issue leaves of the core. -/
def Core.settle (e : Env) (w : Word) (c : Core) : Issue → Core
  | .stall => { c with ctl := { c.ctl with held := some w } }
  | .trap code source detail => c.preciseTrap e code source detail
  | .next c' => Core.past e c.ctl.pc c'
  | .jump c' n =>
    if n < 8192 then Core.branch e n c' else c.preciseTrap e 7 0 0
  | .skip c' n => Core.past e n c'
  | .stay c' => { c' with ctl := { c'.ctl with held := none } }
  | .resume c' n => Core.goto e n c'

/-- One instruction word at issue (R43, R44, R65). The encoding is checked before the guard, a false guard issues as a nop, and
otherwise the instruction does its work. While a word is held at issue no other issues. (DESIGN CHOICE, log entry 5.) -/
def Core.issueWord (e : Env) (op source : Nat) (bad : Word → Bool) (body : Env → Word → Core → Issue) (w : Word) (c : Core) : Core :=
  if !c.canIssue e then c
  else if c.ctl.held.isSome && c.ctl.held != some w then c
  else if opOf w != op || c.ctl.codePoison.look c.ctl.pc false then c.preciseTrap e 1 0 (freeDetail 1 w)
  else if bad w then c.preciseTrap e 1 source (freeDetail 1 w)
  else if !guardOn w c.ctl then Core.past e c.ctl.pc c
  else c.settle e w (body e w c)

/-- An instruction of the row with opcode `op` issued by a core. A word of another row's opcode is no command of this row and is refused;
an unassigned opcode takes the illegal-encoding trap (R44). (DEDUCED, log entry 6.) -/
def issueRow (op source : Nat) (bad : Word → Bool) (body : Env → Word → Core → Issue) (i : Nat) (w : Word) (s : State) : Out :=
  if opOf w != op && assigned (opOf w) then .refused (.wordOfAnotherRow (opOf w))
  else .next (s.putCore i (Core.issueWord (s.env i) op source bad body w (s.core i)))

/-- The same for an engine's instruction, whose encoding the engine's chapter judges by what the control unit keeps of the engine as well: `early` does
so, before the guard like every other check of the encoding. -/
def issueEngine (op source : Nat) (bad : Word → Bool) (early : Word → Core → Bool) (body : Env → Word → Core → Issue) (i : Nat) (w : Word) (s : State) : Out :=
  issueRow op source (fun v => bad v || early v (s.core i)) body i w s

/-- The encoding depends on nothing but the word. -/
def noEarly (_ : Word) (_ : Core) : Bool := false

/-! ## Issue to the engines (R56, R57) -/

/-- The values an engine instruction takes at issue. -/
def Core.engOp (e : Env) (w : Word) (c : Core) : EngOp :=
  { w := w, pc := c.ctl.pc, sa := c.ctl.s (eSa w), sb := c.ctl.s (eSb w), aa := c.ctl.a (eAa w), ab := c.ctl.a (eAb w)
    hand := c.mx.ctlHand, fmt := c.mx.ctlFmt[fieldOf w 25 1]!, u := c.mx.ctlU[fieldOf w 25 1]!, seed := e.seed, saPoison := c.ctl.sp (eSa w) }

/-- The interlock of R50 on the scalar registers an engine instruction names: those it reads and the one it will write. -/
def Core.regsReady (w : Word) (sa sb : Bool) (c : Core) : Bool :=
  !(sa && c.ctl.busy (eSa w)) && !(sb && c.ctl.busy (eSb w))

/-- Whether an operand of an engine instruction is poisoned (R49). -/
def Core.regsPoisoned (w : Word) (sa sb : Bool) (c : Core) : Bool :=
  (sa && c.ctl.sp (eSa w)) || (sb && c.ctl.sp (eSb w))

/-- An engine instruction at issue: the interlock on the scalar registers it reads or writes (R50), the poisoned-control trap (R49), the
engine's own checks, which answer a trap code and detail, the wait for room in the queue (R56), and the entry into the queue. `dest`
says that sa is a destination, not an operand. (DEDUCED, log entry 10.) -/
def engIssue (source : Nat) (sa sb dest : Bool) (check : Env → Word → Core → Option (Nat × Nat)) (full : Core → Bool)
    (put : EngOp → Core → Core) (e : Env) (w : Word) (c : Core) : Issue :=
  if !c.regsReady w (sa || dest) sb then .stall
  else if c.regsPoisoned w sa sb then .trap 6 source (freeDetail 6 w)
  else match check e w c with
    | some (code, detail) => .trap code source detail
    | none =>
      if full c then .stall
      else
        let c' := put (c.engOp e w) c
        .next (if dest then { c' with ctl := c'.ctl.hold (eSa w) } else c')

/-- The words at or above a limit among runs of words given by their first word and length. -/
def offenders (limit : Nat) (rs : List (Nat × Nat)) : List Nat :=
  rs.flatMap (fun r => if r.1 + r.2 ≤ limit then [] else (List.range (r.1 + r.2 - max r.1 limit)).map (max r.1 limit + ·))

/-- Whether a run of words reaches a limit. -/
def beyond (limit : Nat) (rs : List (Nat × Nat)) : Bool := rs.any (fun r => r.2 != 0 && decide (limit < r.1 + r.2))

/-- The detail of an address-range trap over runs of words (R64): the offending address where there is one alone; the manual does not say
which of several it names. -/
def rangeDetail (w : Word) (limit : Nat) (rs : List (Nat × Nat)) : Nat :=
  match offenders limit rs with
  | [] => freeDetail 5 w
  | a :: l => if l.all (fun b => b == a) then a % 2 ^ 27 else freeDetail 5 w

end Sys2Proof.Machine
end

