-- ==== Sys2Proof/Machine/Control.lean ====
section
/-! DEFINITION. Branches, loops, completion counters, events and the handler, time and hints (rows BR to HANDLER_ENTRY; R52 to R55, R58 to
R70, and R228 to R232 for the slots). -/

namespace Sys2Proof.Machine

/-! ## Branches and loops -/

/-- The target pc + off16 of br and jl, if it is not below 0 (R52). -/
def branchTarget (w : Word) (c : Core) : Option Nat :=
  let t := (c.ctl.pc : Int) + signedOf 16 (fieldOf w 0 16)
  if t < 0 then none else some t.toNat

/-- br branches to pc + off16 (R52). -/
def workBr (_ : Env) (w : Word) (c : Core) : Issue :=
  match branchTarget w c with
  | some t => .jump c t
  | none => .trap 7 0 0

/-- br; its s field must be zero. -/
def execBr (i : CoreId) (w : Word) (s : State) : Out := issueRow 0x50 0 (fun w => nz w 16 36) workBr i.val w s

/-- jl branches as br and writes pc + 1 to s (R52). -/
def workJl (_ : Env) (w : Word) (c : Core) : Issue :=
  if c.ctl.busy (fSd w) then .stall
  else match branchTarget w c with
    | some t => .jump { c with ctl := c.ctl.setS (fSd w) (BitVec.ofNat 64 (c.ctl.pc + 1)) false } t
    | none => .trap 7 0 0

/-- jl. -/
def execJl (i : CoreId) (w : Word) (s : State) : Out := issueRow 0x51 0 (fun w => nz w 16 31) workJl i.val w s

/-- jr branches to the index in s[12:0]; a poisoned s takes the poisoned-control trap, and any bit of [63:13] the code-range trap
(R49, R52). -/
def workJr (_ : Env) (w : Word) (c : Core) : Issue :=
  if c.ctl.busy (fSd w) then .stall
  else if c.ctl.sp (fSd w) then .trap 6 0 (freeDetail 6 w)
  else .jump c (c.ctl.s (fSd w)).toNat

/-- jr; its off16 must be zero. -/
def execJr (i : CoreId) (w : Word) (s : State) : Out := issueRow 0x52 0 (fun w => nz w 0 47) workJr i.val w s

/-- loop (R53, R54): the count comes from sa[31:0] or the count field; a body past index 8,191 takes the code-range trap; a fifth loop,
or one ending beyond the innermost active body, the loop-nesting trap; a count of 0 skips the body, which counts as reaching its
last index. (DEDUCED, log entry 129.) -/
def workLoop (_ : Env) (w : Word) (c : Core) : Issue :=
  let sa := fieldOf w 45 5
  let last := c.ctl.pc + fieldOf w 32 13
  if c.ctl.busy sa then .stall
  else if c.ctl.sp sa then .trap 6 0 (freeDetail 6 w)
  else if 8192 ≤ last then .trap 7 0 0
  else if 4 ≤ c.ctl.loops.length || c.ctl.loops.head?.any (fun l => decide (l.last < last)) then .trap 8 0 (freeDetail 8 w)
  else
    let n := if sa = 0 then fieldOf w 0 32 else fieldOf (c.ctl.s sa) 0 32
    if n = 0 then .skip c last
    else .next { c with ctl := { c.ctl with loops := ⟨n, c.ctl.pc + 1, last⟩ :: c.ctl.loops } }

/-- loop: bits [51:50] are reserved, the count field when sa is not s0, and a body of 0 is an illegal encoding (R43, R53). -/
def execLoop (i : CoreId) (w : Word) (s : State) : Out :=
  issueRow 0x54 0 (fun w => nz w 50 2 || (nz w 45 5 && nz w 0 32) || !nz w 32 13) workLoop i.val w s

/-! ## Completion counters (R58, R59) -/

/-- The value s + imm32 of cc.wait and cc.set, modulo two to the 32. -/
def ccOperand (w : Word) (k : Ctl) : BitVec 32 := BitVec.ofNat 32 (fieldOf (k.s (fSa w)) 0 32 + imm32 w)

/-- cc.wait holds issue until the counter's distance past the operand, read as signed, is zero or positive. -/
def workCcWait (_ : Env) (w : Word) (c : Core) : Issue :=
  if c.ctl.busy (fSa w) then .stall
  else if c.ctl.sp (fSa w) then .trap 6 0 (freeDetail 6 w)
  else if (c.ctl.cc[fieldOf w 49 3]! - ccOperand w c.ctl).toInt < 0 then .stall
  else .next c

/-- cc.wait. -/
def execCcWait (i : CoreId) (w : Word) (s : State) : Out := issueRow 0x60 0 (fun w => nz w 47 2 || nz w 32 10) workCcWait i.val w s

/-- cc.set sets a counter. -/
def workCcSet (_ : Env) (w : Word) (c : Core) : Issue :=
  if c.ctl.busy (fSa w) then .stall
  else if c.ctl.sp (fSa w) then .trap 6 0 (freeDetail 6 w)
  else .next { c with ctl := { c.ctl with cc := c.ctl.cc.set! (fieldOf w 49 3) (ccOperand w c.ctl) } }

/-- cc.set. -/
def execCcSet (i : CoreId) (w : Word) (s : State) : Out := issueRow 0x61 0 (fun w => nz w 47 2 || nz w 32 10) workCcSet i.val w s

/-- cc.rd copies a counter, zero-extended, into s. -/
def workCcRd (_ : Env) (w : Word) (c : Core) : Issue :=
  if c.ctl.busy (fSa w) then .stall
  else .next { c with ctl := c.ctl.setS (fSa w) ((c.ctl.cc[fieldOf w 49 3]!).setWidth 64) false }

/-- cc.rd; its imm32 is reserved. -/
def execCcRd (i : CoreId) (w : Word) (s : State) : Out :=
  issueRow 0x62 0 (fun w => nz w 47 2 || nz w 32 10 || nz w 0 32) workCcRd i.val w s

/-- Whether every engine queue is empty and every issued engine instruction has completed (R59). -/
def Core.quiet (c : Core) : Bool :=
  c.mx.queue.isEmpty && c.mx.running.isEmpty && c.vx.queue.isEmpty && c.vx.running.isEmpty && c.cp.queue.isEmpty &&
  c.cp.running.isEmpty && c.ch.queue.isEmpty && c.ch.running.isEmpty && c.lig.queue.isEmpty && c.lig.applied.isEmpty

/-- fence holds issue until the engines are quiet. -/
def workFence (_ : Env) (_ : Word) (c : Core) : Issue := if c.quiet then .next c else .stall

/-- fence; every field below the guard is reserved. -/
def execFence (i : CoreId) (w : Word) (s : State) : Out := issueRow 0x63 0 (fun w => nz w 0 52) workFence i.val w s

/-- Whether a word held at issue is a cc.wait or a fence whose condition does not hold. -/
def Core.waits (e : Env) (c : Core) : Bool :=
  match c.ctl.held with
  | none => false
  | some w =>
    (decide (opOf w = 0x60) && decide (workCcWait e w c = .stall) && !c.ctl.busy (fSa w)) || (decide (opOf w = 0x63) && !c.quiet)

/-- A core whose cc.wait or fence has held issue for the wait limit: the schedule-breach trap, the waiting instruction having no
effect (R60). With wait_limit 0 there is no limit. -/
def Core.waitLimitBreach (e : Env) (c : Core) : Core :=
  if c.canIssue e && c.ctl.waitLimit != 0 && c.waits e then
    c.preciseTrap e 4 0 (freeDetail 4 (c.ctl.held.getD 0))
  else c

/-- WAIT_LIMIT_BREACH. -/
def execWaitLimitBreach (i : CoreId) (s : State) : Out := .next (s.putCore i (Core.waitLimitBreach (s.env i) (s.core i)))

/-! ## Events and the handler (R61 to R64) -/

/-- The record ev.pop delivers: the oldest, with the overflow flag if events were discarded since the previous delivery; zero when the
queue is empty (R30, R61, R64). -/
def Ctl.oldest (k : Ctl) : Word :=
  match k.evq with
  | [] => 0
  | r :: _ => if k.evLost then r ||| (1#64 <<< 59) else r

/-- ev.pop moves the oldest record into sd, and a doorbell record selects its client (R61, R267). (DEDUCED, log entry 8.) -/
def workEvPop (_ : Env) (w : Word) (c : Core) : Issue :=
  if c.ctl.busy (fSd w) then .stall
  else
    let r := c.ctl.oldest
    let k := c.ctl.setS (fSd w) r false
    .next { c with ctl := { k with
      evq := k.evq.drop 1
      evLost := if k.evq.isEmpty then k.evLost else false
      cliSel := if fieldOf r 60 4 = 1 then fieldOf r 0 10 else k.cliSel } }

/-- ev.pop; sa and imm32 are reserved. -/
def execEvPop (i : CoreId) (w : Word) (s : State) : Out := issueRow 0x68 0 (fun w => nz w 0 47) workEvPop i.val w s

/-- ev.wait holds issue until the queue is not empty and removes nothing. -/
def workEvWait (_ : Env) (_ : Word) (c : Core) : Issue := if c.ctl.evq.isEmpty then .stall else .next c

/-- ev.wait; every field below the guard is reserved. -/
def execEvWait (i : CoreId) (w : Word) (s : State) : Out := issueRow 0x69 0 (fun w => nz w 0 52) workEvWait i.val w s

/-- ev.ret restores the loop stack, clears in_handler and resumes at CORE_EVT_PC; outside the handler it takes the state trap (R63). -/
def workEvRet (_ : Env) (w : Word) (c : Core) : Issue :=
  if c.ctl.inHandler then
    .resume { c with ctl := { c.ctl with loops := c.ctl.loopShadow, loopShadow := [], inHandler := false } } c.ctl.evtPc
  else .trap 9 0 (freeDetail 9 w)

/-- ev.ret; every field below the guard is reserved. -/
def execEvRet (i : CoreId) (w : Word) (s : State) : Out := issueRow 0x6A 0 (fun w => nz w 0 52) workEvRet i.val w s

/-- ev.ctl sets CORE_CTRL.ev_en to imm32[0] (R63). -/
def workEvCtl (_ : Env) (w : Word) (c : Core) : Issue := .next { c with ctl := { c.ctl with evEn := bitOf w 0 } }

/-- ev.ctl; imm32[31:1] is reserved. -/
def execEvCtl (i : CoreId) (w : Word) (s : State) : Out := issueRow 0x6B 0 (fun w => nz w 1 51) workEvCtl i.val w s

/-- The lig.wait that holds issue completes: its counter advances and the next instruction issues (R221, R224). -/
def Core.endWait (e : Env) (c : Core) : Core :=
  match c.ctl.ligWait with
  | none => c
  | some op => Core.past e c.ctl.pc (Core.complete op.w { c with ctl := { c.ctl with ligWait := none } })

/-- Whether a ligature fault ends the lig.wait that holds issue: a disabled ligature or a timeout met by that very instruction (R219,
R224). -/
def EventMsg.endsWait (m : EventMsg) (c : Core) : Bool :=
  decide (m.cls = 3) && (decide (m.code = 2) || decide (m.code = 3)) && decide (m.info / 2 ^ 28 % 2 = 0) &&
  c.ctl.ligWait.any (fun op => decide (op.pc = m.info / 2 ^ 29 % 2 ^ 13))

/-- Whether a ligature fault sets CORE_STATUS.breach (R225). -/
def EventMsg.setsBreach (m : EventMsg) : Bool :=
  decide (m.cls = 3) && (decide (m.code = 1) || decide (m.code = 2) || decide (m.code = 3) || decide (m.code = 5))

/-- An event reaches its core: one of another generation is discarded and counted, any other is queued or discarded for a full queue
(R29, R61), with what a ligature fault does besides (R224, R225). -/
def Core.receive (e : Env) (m : EventMsg) (c : Core) : Core :=
  if m.gen % 256 ≠ e.gen then { c with ctl := { c.ctl with evtStale := (c.ctl.evtStale + 1) % 2 ^ 32 } }
  else
    let c := c.enqueue (eventRecord m.cls m.code m.info m.gen)
    let c := if m.setsBreach then { c with ctl := { c.ctl with breach := true } } else c
    if m.endsWait c then c.endWait e else c

/-- EVENT_ARRIVAL: the oldest event of a class on its way to a core arrives, events of one class arriving in the order they were
raised (R30). -/
def execEventArrival (i : CoreId) (cls : Fin 7) (s : State) : Out :=
  if s.dev != .up then .next s else
  let c := s.core i
  match c.inbound.find? (fun m => decide (m.cls = cls.val)) with
  | none => .next s
  | some m =>
    let c := { c with inbound := c.inbound.eraseP (fun m => decide (m.cls = cls.val)) }
    .next (s.putCore i (c.receive (s.env i) m))

/-- Whether the control unit can enter the handler: the clock runs, the core is running, an entry is due, and every pending register
write has landed (R62). -/
def Core.entersHandler (e : Env) (c : Core) : Bool :=
  e.alive && c.ctl.running && !c.ctl.halted && !c.ctl.stopped && c.ctl.handlerDue && c.ctl.sbusy.toList.all (fun b => !b)

/-- Taking the handler (R62): the index of the next unissued instruction goes to CORE_EVT_PC, the loop stack to the shadow, in_handler is
set and issue moves to CORE_EVT_VEC. A lig.wait that holds issue is withdrawn, and its instruction counts as unissued (R223). -/
def Core.enterHandler (c : Core) : Core :=
  { c with
    ctl := { c.ctl with
      evtPc := c.ctl.pc, loopShadow := c.ctl.loops, loops := [], inHandler := true, pc := c.ctl.evtVec
      held := none, trapped := false, ligWait := none }
    lig := { c.lig with queue := match c.ctl.ligWait with
      | none => c.lig.queue
      | some op => c.lig.queue.erase op } }

/-- The cluster index a region-relative ligature operand names on the device (R28, R218), if it lies in the region. -/
def ligCluster (e : Env) (operand : Nat) : Option Nat :=
  let rel := operand / 512
  let rcx := rel % 12
  let rcy := rel / 12
  if operand < 2 ^ 17 && rel ≤ 143 && 6 * rcx < e.width && 8 * rcy < e.height then some (e.ox / 6 + rcx + 12 * (e.oy / 8 + rcy)) else none

/-- A core's wait is withdrawn from its unit: its waiter or its place for a record, and a release on its way (R223). -/
def Cluster.withdraw (core : Nat) (k : Cluster) : Cluster :=
  { k with
    waiters := k.waiters.filter (fun w => w.core != core)
    waitQ := k.waitQ.filter (fun w => w.core != core)
    releases := k.releases.filter (fun c => c != core) }

/-- HANDLER_ENTRY. -/
def execHandlerEntry (i : CoreId) (s : State) : Out :=
  let e := s.env i
  let c := s.core i
  if c.entersHandler e then
    let s' := s.putCore i c.enterHandler
    match c.ctl.ligWait with
    | none => .next s'
    | some op =>
      match ligCluster e op.sa.toNat with
      | none => .next s'
      | some n => .next (s'.mapCluster n (Cluster.withdraw i.val))
  else .next s

/-! ## Timed actions (R228 to R233) -/

/-- The info of a ligature fault of an instruction (R225). -/
def ligInfo (operand binding pc : Nat) : Nat := operand % 2 ^ 17 + binding % 256 * 2 ^ 17 + pc % 2 ^ 13 * 2 ^ 29

/-- The info of a ligature fault of a timed action (R225). -/
def slotInfo (operand slot : Nat) : Nat := operand % 2 ^ 17 + slot % 8 * 2 ^ 25 + 2 ^ 28

/-- A ligature fault that the core itself raises (R218, R225, R226, R230): it enters the queue at once, or, while faults raised before it are on their
way from a unit, behind them (R30). (DEDUCED, log entry 130.) (DESIGN CHOICE, log entry 148.) -/
def Core.ligFault (e : Env) (code info : Nat) (c : Core) : Core :=
  let c := if code = 4 then c else { c with ctl := { c.ctl with breach := true } }
  if c.inbound.any (fun m => decide (m.cls = 3)) then { c with inbound := c.inbound ++ [⟨3, code, info, e.gen⟩] }
  else c.enqueue (eventRecord 3 code info e.gen)

/-- Whether the target of a slot was past when it was armed (R229). -/
def TimedSlot.past (t : TimedSlot) : Bool := decide (t.target < t.armedAt)

/-- The tick at which an armed slot acts: the first at or after its target, or for a past target the first after its arming; for one that a step of the time made past, the tick
of the step (R228, R229, R231, R363). (DEDUCED, log entry 30.) -/
def TimedSlot.tick (t : TimedSlot) : Nat :=
  if t.past then (if t.stepped then ceilDiv t.armedAt 10 * 10 else (t.armedAt / 10 + 1) * 10) else ceilDiv t.target 10 * 10

/-- The lateness of a slot that acts on a past target (R229). -/
def TimedSlot.delay (t : TimedSlot) : Nat := min (t.tick - t.target) (2 ^ 32 - 1)

/-- What a slot's action does: a timer event, a ligature operation or a counter (R68, R228). -/
def Core.timedAct (e : Env) (n : Nat) (t : TimedSlot) (c : Core) : Core :=
  match t.kind with
  | 0 => c.enqueue (eventRecord 5 1 (n * 2 ^ 40 + t.tag % 2 ^ 32) e.gen)
  | 3 => c.count t.counter
  | k =>
    match ligCluster e t.operand.toNat with
    | none => c.ligFault e 1 (slotInfo t.operand.toNat n)
    | some _ => { c with lig := { c.lig with timed := c.lig.timed ++ [⟨if k = 1 then 0xE1 else 0xE0, t.operand.toNat, n⟩] } }

/-- An armed slot acts, or with the strict bit and a past target is cancelled with its fault (R228 to R230). -/
def Core.timedExec (e : Env) (n : Nat) (c : Core) : Core :=
  let t := c.ctl.slots[n]!
  let set (x : TimedSlot) (c : Core) : Core := { c with ctl := { c.ctl with slots := c.ctl.slots.set! n x } }
  if t.past && t.strict && !e.compat then
    (set { t with armed := false, cancelled := true, late := true, lateness := t.delay } c).ligFault e 4 (slotInfo t.operand.toNat n)
  else
    Core.timedAct e n t (set { t with armed := false, executed := true, late := t.past, lateness := if t.past then t.delay else 0 } c)

/-- Whether a slot's tick has come: a step of the time past its target is that tick, before the cluster's counter follows the step (R363). -/
def TimedSlot.due (now : Nat) (t : TimedSlot) : Bool := t.armed && ((t.stepped && t.past) || decide (t.tick ≤ now))

/-- The slot that acts next: of those whose tick has come, the one of the earliest tick, and of one tick the lowest (R228). -/
def Core.nextDue (now : Nat) (c : Core) : Option Nat :=
  let at_ (n : Nat) : TimedSlot := c.ctl.slots[n]!
  (List.range 8).find? (fun n => (at_ n).due now && (List.range 8).all (fun m =>
    !((at_ m).due now) || decide ((at_ n).tick < (at_ m).tick) || (decide ((at_ n).tick = (at_ m).tick) && decide (n ≤ m))))

/-- Every slot whose tick has come has acted: what an instruction that looks at a slot finds, since a slot acts in the clock in which its tick comes
(R69, R228). -/
def Core.timedDue (e : Env) (c : Core) : Core :=
  (List.range 8).foldl (fun (c : Core) _ =>
    match c.nextDue e.now with
    | none => c
    | some n => c.timedExec e n) c

/-! ## Time and hints (R67 to R70) -/

/-- t.now returns the Global Time Counter in nanoseconds, interpolated at the core's cluster (R67). -/
def workTNow (e : Env) (w : Word) (c : Core) : Issue :=
  if c.ctl.busy (fSd w) then .stall
  else .next { c with ctl := c.ctl.setS (fSd w) (BitVec.ofNat 64 e.now) false }

/-- t.now; sa and imm32 are reserved. -/
def execTNow (i : CoreId) (w : Word) (s : State) : Out := issueRow 0x70 0 (fun w => nz w 0 47) workTNow i.val w s

/-- t.arm arms its slot, clearing its flags and lateness, and replaces an earlier arm whose tick has not come (R68, R69, R232). -/
def workTArm (e : Env) (w : Word) (c : Core) : Issue :=
  let kind := fieldOf w 46 3
  let sa := fieldOf w 40 5
  let sb := fieldOf w 35 5
  let usesB := decide (kind = 1) || decide (kind = 2)
  if c.ctl.busy sa || (usesB && c.ctl.busy sb) then .stall
  else if c.ctl.sp sa || (usesB && c.ctl.sp sb) then .trap 6 0 (freeDetail 6 w)
  else
    let t : TimedSlot :=
      { armed := true, executed := false, late := false, cancelled := false, lateness := 0, target := (c.ctl.s sa).toNat, armedAt := e.now
        kind := kind, strict := bitOf w 45, operand := c.ctl.s sb, counter := fieldOf w 32 3, tag := fieldOf w 0 32, stepped := false }
    let c := c.timedDue e
    .next { c with ctl := { c.ctl with slots := c.ctl.slots.set! (fieldOf w 49 3) t } }

/-- The fields t.arm reserves: kinds 4 to 7; sb for kinds 0 and 3; c for kinds 0 to 2; tag for kinds 1 to 3 (R68). -/
def resvTArm (w : Word) : Bool :=
  let kind := fieldOf w 46 3
  decide (4 ≤ kind) || ((decide (kind = 0) || decide (kind = 3)) && nz w 35 5) || (decide (kind ≤ 2) && nz w 32 3) ||
  (decide (1 ≤ kind) && nz w 0 32)

/-- t.arm. -/
def execTArm (i : CoreId) (w : Word) (s : State) : Out := issueRow 0x71 0 resvTArm workTArm i.val w s

/-- t.cancel disarms a slot and reports whether its action was still pending; from the clock in which the slot's tick comes it finds the action
executed (R69). -/
def workTCancel (e : Env) (w : Word) (c : Core) : Issue :=
  if c.ctl.busy (fSd w) then .stall
  else
    let c := c.timedDue e
    let n := fieldOf w 0 3
    let t := c.ctl.slots[n]!
    let k := c.ctl.setS (fSd w) (if t.armed then 1 else 0) false
    .next { c with ctl := { k with slots := k.slots.set! n { t with armed := false } } }

/-- t.cancel; sa and imm32[31:3] are reserved. -/
def execTCancel (i : CoreId) (w : Word) (s : State) : Out := issueRow 0x72 0 (fun w => nz w 32 15 || nz w 3 29) workTCancel i.val w s

/-- hint.press records the announcement for the cluster's supply, replacing an earlier one (R70). -/
def workHintPress (e : Env) (w : Word) (c : Core) : Issue :=
  .next { c with ctl := { c.ctl with hint := some ⟨fieldOf w 48 4, fieldOf w 16 16, fieldOf w 0 16, e.mono⟩ } }

/-- hint.press. -/
def execHintPress (i : CoreId) (w : Word) (s : State) : Out := issueRow 0x78 0 (fun w => nz w 32 16) workHintPress i.val w s

end Sys2Proof.Machine
end

