-- ==== Sys2Proof/Machine/Hairline.lean ====
section
/-! DEFINITION. The hairline network: routes between hubs, packets forwarded and discarded, replays, and the beacons of the time base (R254
to R258, R360; rows TIME_BEACON and BEACON_ARRIVAL). -/

namespace Sys2Proof.Machine

/-- The two hubs of a link that is down route around it, y first (R258). -/
def State.detour (s : State) (m n : Nat) : State :=
  (s.mapCluster m (fun k => k.setFld fLigHlStatusDetour 1)).mapCluster n (fun k => k.setFld fLigHlStatusDetour 1)

/-- A hub link marked down: the routed packets that wait for it are discarded and counted, and the failure is reported to the Scribe Complex, by the way around that the two hubs
then take (R258). (DESIGN CHOICE, log entry 28.) -/
def State.hubDown (s : State) (n d : Nat) : State :=
  let lost (m : HubMsg) : Bool := decide (s.waitsAt m.ends.1 m.ends.2 = some (n, d))
  let k := (s.cluster n).bump fLigHlDropCount (s.hubHeld.filter lost).length
  let s := { s with hubHeld := s.hubHeld.filter (fun m => !lost m) }.setCluster n (k.setFld fLigHlStatusLinkDown (k.fld fLigHlStatusLinkDown ||| 2 ^ d))
  (s.detour n (hubStep n d)).noteFrom n (.hubLink n d)

/-! ## Floods (R256, R360) -/

/-- The directions in which a hub's links are up. -/
def State.hubLinks (s : State) (n : Nat) : List Nat := (List.range 4).filter (fun d => hubHas n d && !s.hubCut n d)

/-- The hubs that a flood from the time base has reached after so many steps, those first reached last in front; it waits at a crossing that withholds credits (R356). -/
def State.floodFrom (s : State) : Nat → List Nat → List Nat → List Nat
  | 0, seen, _ => seen
  | fuel + 1, seen, edge =>
    let next := ((edge.flatMap (fun n => if s.heldOver n then [] else (s.hubLinks n).map (hubStep n))).eraseDups).filter (fun n => !seen.contains n && !s.heldOver n)
    if next.isEmpty then seen else s.floodFrom fuel (next ++ seen) next

/-- The clusters that a flood from the time base, at cluster 60, reaches: every one while no hub link is down and no crossing withholds credits. -/
def State.flooded (s : State) : List Nat :=
  if s.clocks.held.isEmpty && s.clusters.all (fun x => decide (x.2.fld fLigHlStatusLinkDown = 0)) then List.range 144 else s.floodFrom 144 [60] [60]

/-- A flooded packet reaches hubs, each of which forwards it on every link that is up but the one it came by (R254, R256). -/
def State.floodOn (s : State) (on : List Nat) : State :=
  let fwd (n : Nat) : Nat := (s.hubLinks n).length - (if n = 60 then 0 else 1)
  let ks := (List.range 144).map (fun n => (n, if on.contains n then (s.cluster n).bump fLigHlPacketsCount (fwd n) else s.cluster n))
  { s with clusters := ks.filter (fun x => x.2 != Cluster.reset) }

/-- A flood of a counter snap or a freeze. -/
def State.flood (s : State) : State := s.floodOn s.flooded

/-- A snap's flood that waited at a crossing reaches the hubs beyond it (R356). -/
def State.refresh (s : State) : State :=
  if s.dbg.snap.isNone then s
  else
    let on := s.flooded
    { s.floodOn (on.filter (fun n => !s.dbg.reach.contains n)) with dbg := { s.dbg with reach := on } }

/-- Whether a copy of the time base's last beacon reaches a hub: it is the time base's own, or a neighbour has kept the beacon and forwards it over a
link that is up and whose crossing gives credits (R356). -/
def State.beaconAt (s : State) (n : Nat) : Bool :=
  decide (n = 60) || (List.range 4).any (fun d => hubHas n d && !s.heldOver n && !s.heldOver (hubStep n d) &&
    decide ((s.cluster (hubStep n d)).floodSeq = s.beacon.seq + 1) && !s.hubCut (hubStep n d) (Nat.xor d 1))

/-- TIME_BEACON: at each whole microsecond the time base floods a beacon that carries the time of its tick. -/
def execTimeBeacon (s : State) : Out :=
  if s.dev = .up && s.time % 1000 = 0 then .next { s with beacon := ⟨s.beacon.seq + 1, s.time, s.timeSteps⟩ } else .next s

/-- BEACON_ARRIVAL: a hub keeps the first copy of a beacon that a path of links brings it, forwards it on its other links, and drops later ones; the
cluster's counter follows the time base, so a step that was committed before the beacon was sent is followed at once (R256, R360, R363). (DEDUCED, log entry 31.) -/
def execBeaconArrival (cluster : ClusterId) (s : State) : Out :=
  let n := cluster.val
  let k := s.cluster n
  if !s.alive n || s.beacon.seq = 0 || k.floodSeq = s.beacon.seq + 1 || !s.beaconAt n then .next s
  else
    let out := (s.hubLinks n).length - (if n = 60 then 0 else 1)
    let k := { (k.bump fLigHlBeaconsCount 1).bump fLigHlPacketsCount out with floodSeq := s.beacon.seq + 1 }
    .next (s.setCluster n (if s.beacon.steps = s.timeSteps then { k with interp := 0 } else k))

end Sys2Proof.Machine
end

