-- ==== Sys2Proof/Machine/Packets.lean ====
section
/-! DEFINITION. Engine ports as first-in, first-out buffers, and packets entering the main mesh with their routes (R177, R188 to R190,
R196, R197, R242 to R248). -/

namespace Sys2Proof.Machine

/-! ## Engine ports -/

/-- A message byte at a position of a port, if it has arrived. -/
def Port.at (p : Port) (pos : Nat) : Option (Byte × Bool) :=
  match p.msg.look (pos % 2 ^ 32) 0 with
  | 0 => none
  | v + 1 => some (BitVec.ofNat 8 v, decide (256 ≤ v))

/-- How many of the next `n` message bytes from the read point on have arrived without a gap. -/
def Port.run (p : Port) : Nat → Nat → Nat
  | 0, _ => 0
  | n + 1, pos => if (p.at pos).isSome then 1 + Port.run p n (pos + 1) else 0

/-- Whether the engine can take `n` bytes: those that feeds entered, then those of messages from the read point on (R190). -/
def Port.has (p : Port) (n : Nat) : Bool := decide (n ≤ p.fifo.length + p.run (n - p.fifo.length) p.readPt)

/-- How many of the next `n` bytes the engine can take. -/
def Port.avail (p : Port) (n : Nat) : Nat := min n (p.fifo.length + p.run (n - p.fifo.length) p.readPt)

/-- The message bytes the engine takes from the read point on. -/
def Port.drop (p : Port) : Nat → List (Byte × Bool) × Port
  | 0 => ([], p)
  | n + 1 =>
    let b := (p.at p.readPt).getD (0, true)
    let at_ := p.readPt % 2 ^ 32
    let (bs, q) := Port.drop
      { p with msg := p.msg.put at_ 0 0, readPt := (p.readPt + 1) % 2 ^ 32, taken := p.taken + 1, lens := p.lens.put at_ 0 0
               left := (if p.left = 0 then p.lens.look at_ 0 else p.left) - 1 } n
    (b :: bs, q)

/-- The next `n` bytes of a port taken by its engine: the rest of a message taken in part, what feeds have entered, then further messages, so that
each message and each feed line is read whole (R177). -/
def Port.take (p : Port) (n : Nat) : List (Byte × Bool) × Port :=
  let (r, p) := p.drop (min n p.left)
  let k := n - r.length
  let a := p.fifo.take k
  let (b, q) := Port.drop { p with fifo := p.fifo.drop k } (k - a.length)
  (r ++ a ++ b, q)

/-- The bytes in a port. -/
def Port.bytes (p : Port) : Nat := p.fifo.length + p.msg.length

/-- Message bytes enter a port at a position (R190). -/
def Port.enter (p : Port) (pos : Nat) (bs : List (Byte × Bool)) : Port :=
  { p with lens := p.lens.put (pos % 2 ^ 32) bs.length 0, msg := bs.zipIdx.foldl (fun (t : Tbl Nat) x => t.put ((pos + x.2) % 2 ^ 32) (x.1.1.toNat + (if x.1.2 then 256 else 0) + 1) 0) p.msg }

/-! ## Routes -/

/-- The coordinates from `a` to `b`, both included, one step at a time. -/
def steps (a b : Nat) : List Nat :=
  if a ≤ b then (List.range (b - a + 1)).map (a + ·) else (List.range (a - b + 1)).map (a - ·)

/-- The routers of an x-first path, both ends included (R245). -/
def xFirst (a b : Nat × Nat) : List (Nat × Nat) :=
  (steps a.1 b.1).map (fun x => (x, a.2)) ++ ((steps a.2 b.2).drop 1).map (fun y => (b.1, y))

/-- The routers of a y-first path, both ends included (R245). -/
def yFirst (a b : Nat × Nat) : List (Nat × Nat) :=
  (steps a.2 b.2).map (fun y => (a.1, y)) ++ ((steps a.1 b.1).drop 1).map (fun x => (x, b.2))

/-- The logical router of a port's gateway nearest a place along its edge (R250). -/
def attach (p : Nat) (a : Nat × Nat) : Nat × Nat :=
  let clamp (lo n v : Nat) : Nat := min (max v lo) (lo + n - 1)
  match p / 4 with
  | 0 => (clamp (18 * p) 12 a.1, 0)
  | 1 => (71, clamp (24 * (p - 4)) 16 a.2)
  | 2 => (clamp (18 * (p - 8)) 12 a.1, 95)
  | _ => (0, clamp (24 * (p - 12)) 16 a.2)

/-- The router one step in a direction: 0 +x, 1 −x, 2 +y, 3 −y. -/
def stepDir (p : Nat × Nat) (d : Nat) : Nat × Nat :=
  match d with
  | 0 => (p.1 + 1, p.2)
  | 1 => (p.1 - 1, p.2)
  | 2 => (p.1, p.2 + 1)
  | _ => (p.1, p.2 - 1)

/-- The outputs of a group's table entry at a router: 0 to 3 the directions, 4 local (R246). -/
def State.treeOuts (s : State) (g : Nat) (p : Nat × Nat) : List Nat :=
  let m := (s.core (s.physical p.1 p.2)).groups.look g 0
  (List.range 5).filter (fun i => m.testBit i)

/-- The routers of a tree from `p` on, up to the first router that has not exactly one output or that is a leaf (R198, R248). -/
def State.treeRun (s : State) (g : Nat) : Nat → Nat × Nat → List (Nat × Nat)
  | 0, p => [p]
  | fuel + 1, p =>
    match s.treeOuts g p with
    | [d] => if d < 4 then p :: State.treeRun s g fuel (stepDir p d) else [p]
    | _ => [p]

/-- The flits of a message of `w` payload words (R188). -/
def flitsOf (w : Nat) : Nat := ceilDiv (16 + 8 * w) 128

/-- The packet with its tree outputs at its path's end filled in, where it follows a tree and that end is a branch. -/
def State.withOuts (s : State) (p : Packet) : Packet :=
  match p.group with
  | none => p
  | some g =>
    let o := s.treeOuts g (p.path.getLastD (0, 0))
    { p with outs := if o.length ≤ 1 then [] else o }

/-- The vote mark of a packet that a core injects: set on a primary of a check group (R427). -/
def State.voteMark (s : State) (i : Nat) : Nat := if (s.core i).fld fCoreCheckRole = 1 then s.mono + 1 else 0

/-- A packet of `f` flits enters the mesh at its sender, on a path over the routers given. -/
def State.inject (s : State) (e : Env) (vc : Nat) (path : List (Nat × Nat)) (f : Nat) (b : Body) : State :=
  { s with mesh := s.mesh ++ [⟨vc, e.region, e.gen, (e.x, e.y), e.x - e.ox, e.y - e.oy, none, none, none, path, List.replicate f 0, b, [], s.voteMark e.core, false, 0, false⟩] }

/-- A multicast packet enters the mesh at its root (R198). (DEDUCED, log entry 23.) -/
def State.injectTree (s : State) (e : Env) (g f : Nat) (b : Body) : State :=
  let src := (e.x, e.y)
  { s with mesh := s.mesh ++ [s.withOuts
    ⟨0, e.region, e.gen, src, e.x - e.ox, e.y - e.oy, none, none, some g, s.treeRun g 168 src, List.replicate f 0, b, [], s.voteMark e.core, false, 0, false⟩] }

/-- The device-logical coordinates of a core of the sender's region (R27). -/
def Env.abs (e : Env) (x y : Nat) : Nat × Nat := (e.ox + x, e.oy + y)

/-- Whether region-relative coordinates lie in the region (R27). -/
def Env.inside (e : Env) (x y : Nat) : Bool := decide (x < e.width) && decide (y < e.height)

/-! ## Credit returns of operand ports (R196, R197) -/

/-- The landing record of endpoint `n`: a field of word 0 or 1. -/
def Core.land (c : Core) (n : Nat) (f : Fld) : Nat := c.fld (fldAt f (16 * n))

/-- The ductus of endpoint `n`: a field of word 0 or 1. -/
def Core.duct (c : Core) (n : Nat) (f : Fld) : Nat := c.fld (fldAt f (16 * n))

/-- The endpoint of a core whose enabled landing record has a target (R186): an operand port has at most one (R187). -/
def Core.portEp (c : Core) (target : Nat) : Option Nat :=
  (List.range 64).find? (fun n => decide (c.land n fChLandAEnable = 1) && decide (c.land n fChLandATarget = target))

/-- The batch of the sending half that a receiving half returns to (R197). -/
def State.batchOf (s : State) (e : Env) (c : Core) (n : Nat) : Nat :=
  let a := e.abs (c.land n fChLandBRetX) (c.land n fChLandBRetY)
  (s.core (s.physical a.1 a.2)).duct (c.land n fChLandBRetEp) fChDuctusBBatch

/-! ### Packets for the fabric (R208, R311) -/

/-- The fabric binding that a ductus of kind 3 names, if the supervisor has set it (R208). -/
def State.bindingOf (s : State) (e : Env) (c : Core) (ep : Nat) : Option Binding :=
  s.bindings.look (256 * e.region + c.duct ep fChDuctusBBinding) none

/-- A fabric packet begins to wait for a reservation at an outbound gateway, with a tag of its own (R293). -/
def State.await (s : State) (x : FabPkt) (inPort port : Nat) (continues : Bool) (stage : Nat) : State :=
  { s with fabWait := s.fabWait ++ [⟨x, inPort, port, continues, stage, s.mono, s.fabTag⟩], fabTag := s.fabTag + 1 }

/-- A packet injected for the fabric (R311): it waits for a reservation at a gateway. -/
def State.injectFabric (s : State) (e : Env) (b : Binding) (cls kind bytes : Nat) (body : Body) : State :=
  let p : FabPkt :=
    { dstDev := b.dev, srcDev := if s.fld fFabIdValid = 1 then s.fld fFabIdDeviceId else 0x3FFFF, cls := cls
      epoch := decide (s.fld fFabEpochBit = 1), hops := 0, dstRegion := b.region, gen := b.gen, kind := kind
      injectUs := s.time / 1000 % 2 ^ 32, srcRegion := e.region, route := [], routeIdx := 0, downTaken := false
      x := b.x, y := b.y, sx := e.x - e.ox, sy := e.y - e.oy, flits := ceilDiv (32 + 16 + bytes) 128, body := .channel body }
  s.await p 16 16 false (if s.voteMark e.core = 0 then 0 else 4)

/-- A return to a sending half on another device (R208, R313): in the reply class, for the region and generation of the region's first binding that
names that device and region; without one there is no generation to send it under, and nothing is sent. -/
def State.returnFar (s : State) (e : Env) (d : Nat × Nat) (kind x y : Nat) (body : Body) : State :=
  let b := (List.range 256).findSome? (fun n => (s.bindings.look (256 * e.region + n) none).bind (fun b => if b.dev = d.1 && b.region = d.2 then some b else none))
  match b with
  | some b => s.injectFabric e { b with x := x, y := y } 1 kind 0 body
  | none => s

/-- What a receiving half sends back to its sending half (R196, R197, R245): on VC 2 in its region, or over the fabric where its last message came
from there. A return to a core outside the region, where flits of VC 2 never go, is not sent (R247). (DEDUCED, log entry 161.) -/
def State.sendBack (s : State) (e : Env) (n : Nat) (body : Body) : State :=
  let c := s.core e.core
  let x := c.land n fChLandBRetX
  let y := c.land n fChLandBRetY
  match c.ch.retTo.look n none with
  | some d => s.returnFar e d 1 x y body
  | none => if e.inside x y then s.inject e 2 (xFirst (e.x, e.y) (e.abs x y)) 1 body else s

/-- A return of units from a receiving half to the sending half it names (R196). -/
def State.sendCredit (s : State) (e : Env) (n units : Nat) : State :=
  s.sendBack e n (.credit ((s.core e.core).land n fChLandBRetEp) n units)

/-- Batch tokens, numbered on from those the receiving half has sent (R197). -/
def State.sendTokens (s : State) (e : Env) (n : Nat) : Nat → State
  | 0 => s
  | k + 1 =>
    let c := s.core e.core
    let b := c.ch.sentTokens.look n 0
    let s := s.sendBack e n (.token (c.land n fChLandBRetEp) b)
    let s := s.setCore e.core { c with ch := { c.ch with sentTokens := c.ch.sentTokens.put n (b + 1) 0 } }
    State.sendTokens s e n k

/-- What an operand port returns after its engine has taken bytes: with unit returns one return when eight units are pending or the port
is empty, with batch tokens one token per whole batch (R196, R197). `get` and `set` name the port in the core. (DEDUCED, log entry 24.) (DESIGN CHOICE, log entry 147.) -/
def State.returnPort (s : State) (e : Env) (target : Nat) (get : Core → Port) (set : Core → Port → Core) : State :=
  let c := s.core e.core
  let p := get c
  match c.portEp target with
  | none => s
  | some n =>
    let units := p.taken / 64
    if c.land n fChLandBRetMode = 0 then
      if 8 ≤ units || (p.bytes = 0 && 0 < units) then
        (s.setCore e.core (set c { p with taken := p.taken - 64 * units })).sendCredit e n units
      else s
    else
      let b := s.batchOf e c n
      let k := if b = 0 then 0 else units / b
      if k = 0 then s else (s.setCore e.core (set c { p with taken := p.taken - 64 * b * k })).sendTokens e n k

/-- Returns of the three operand ports of a core (R186, R196). -/
def State.returnPorts (s : State) (i : Nat) : State :=
  let e := s.env i
  let s := s.returnPort e 2 (fun c => c.mx.load) (fun c p => { c with mx := { c.mx with load := p } })
  let s := s.returnPort e 3 (fun c => c.mx.stream) (fun c p => { c with mx := { c.mx with stream := p } })
  s.returnPort e 4 (fun c => c.vx.port) (fun c p => { c with vx := { c.vx with port := p } })

/-! ## Ages of fabric packets (R312) -/

/-- Whether a fabric packet injected at a microsecond has outlived max_life, whose values above 160 act as 160 (R312). -/
def State.tooOld (s : State) (us : Nat) : Bool :=
  decide (64 * min 160 (s.fld fFabCtrlMaxLife) < (s.time / 1000 + 2 ^ 32 - us % 2 ^ 32) % 2 ^ 32)

/-- Whether a packet that came over the fabric is too old to act on (R312). -/
def State.aged (s : State) (p : Packet) : Bool := p.gate.any (fun g => s.tooOld g.2)

/-- A packet discarded for its age is counted (R312). -/
def State.ageDrop (s : State) : State := s.bump fFabAgeDropCount 1

/-! ## Sending halves (R185, R189, R193, R199, R208) -/

/-- A field of CH_TXn. -/
def Core.tx (c : Core) (n : Nat) (f : Fld) : Nat := c.fld (fldAt f (8 * n))

/-- A core with a field of CH_TXn set. -/
def Core.setTx (c : Core) (n : Nat) (f : Fld) (v : Nat) : Core := c.setFld (fldAt f (8 * n)) v

/-- A field of CH_MEMBERn. -/
def Core.member (c : Core) (n : Nat) (f : Fld) : Nat := c.fld (fldAt f (8 * n))

/-- A core with a field of CH_MEMBERn set. -/
def Core.setMember (c : Core) (n : Nat) (f : Fld) (v : Nat) : Core := c.setFld (fldAt f (8 * n)) v

/-- The credit units a message of `w` words takes on a ductus (R193). -/
def Core.sendNeed (c : Core) (ep w : Nat) : Nat := if c.duct ep fChDuctusACunit = 0 then ceilDiv (8 * w) 64 else 1

/-- The member table entries that a selective mask selects; bits at or above the member count are ignored (R192, R199). -/
def Core.selected (c : Core) (ep : Nat) (mask : Word) : List Nat :=
  ((List.range 64).filter (fun i => decide (i ≤ c.duct ep fChDuctusBMembers) && bitOf mask i)).map (c.duct ep fChDuctusBFirstMember + ·)

/-- Whether a sending half, or each selected member of it, holds the credits for a message of `w` words. -/
def Core.creditsFor (c : Core) (ep w : Nat) (mask : Word) : Bool :=
  let n := c.sendNeed ep w
  if c.duct ep fChDuctusAKind = 2 then (c.selected ep mask).all (fun m => decide (n ≤ c.member m fChMemberCredits))
  else decide (n ≤ c.tx ep fChTxCredits)

/-- The credits of a message of `w` words taken. -/
def Core.takeCredits (c : Core) (ep w : Nat) (mask : Word) : Core :=
  let n := c.sendNeed ep w
  if c.duct ep fChDuctusAKind = 2 then
    (c.selected ep mask).foldl (fun (c : Core) m => c.setMember m fChMemberCredits (c.member m fChMemberCredits - n)) c
  else c.setTx ep fChTxCredits (c.tx ep fChTxCredits - n)

/-- One message leaves a sending half (R185, R189): it takes the half's sequence number and position, which then advance, and is counted. -/
def State.launch (s : State) (e : Env) (ep off : Nat) (ws : List (Word × Bool)) : State :=
  let c := s.core e.core
  let seq := c.tx ep fChTxSeq
  let pos := c.tx ep fChTxPosition
  let n := ws.length
  let c' := ((c.setTx ep fChTxSeq (seq + 1)).setTx ep fChTxPosition (pos + 8 * n)).bump fChSentCount 1
  let s' := s.setCore e.core c'
  let goal := e.abs (c.duct ep fChDuctusADestX) (c.duct ep fChDuctusADestY)
  match c.duct ep fChDuctusAKind with
  | 1 => s'.injectTree e (c.duct ep fChDuctusAGroup) (flitsOf n) (.message (c.duct ep fChDuctusADestEp) ep seq pos off ws)
  | 3 =>
    match s.bindingOf e c ep with
    | some b => s'.injectFabric e b b.cls 0 (8 * n) (.message b.ep ep seq pos off ws)
    | none => s
  | _ =>
    let body : Body := .message (c.duct ep fChDuctusADestEp) ep seq pos off ws
    if c.duct ep fChDuctusAOrder = 0 then s'.inject e 0 (xFirst (e.x, e.y) goal) (flitsOf n) body
    else s'.inject e 1 (yFirst (e.x, e.y) goal) (flitsOf n) body

/-- One copy of a selective message to a member, with the member's own sequence number and position (R199). -/
def State.launchMember (s : State) (e : Env) (ep off : Nat) (ws : List (Word × Bool)) (m : Nat) : State :=
  let c := s.core e.core
  let seq := c.member m fChMemberSeq
  let pos := c.ch.memberPos.look m 0
  let n := ws.length
  let c' := (c.setMember m fChMemberSeq (seq + 1)).bump fChSentCount 1
  let c' := { c' with ch := { c'.ch with memberPos := c'.ch.memberPos.put m ((pos + 8 * n) % 2 ^ 32) 0 } }
  let s' := s.setCore e.core c'
  let goal := e.abs (c.member m fChMemberX) (c.member m fChMemberY)
  let body : Body := .message (c.member m fChMemberEp) ep seq pos off ws
  if c.duct ep fChDuctusAOrder = 0 then s'.inject e 0 (xFirst (e.x, e.y) goal) (flitsOf n) body
  else s'.inject e 1 (yFirst (e.x, e.y) goal) (flitsOf n) body

/-- Whether the packet of a waiting fabric message still has a flit at its source: it has not been let go, or its last flit has not left. -/
def State.atSource (s : State) (x : FabWait) : Bool :=
  x.stage != 7 || s.mesh.any (fun p => decide (p.body = .gate 3 x.tag) && p.flits.contains 0)

/-- Whether a packet carries a message of a sending endpoint of a core that has a flit still to leave the core, or a fabric message of it
has one. -/
def State.leaving (s : State) (e : Env) (ep : Nat) : Bool :=
  s.mesh.any (fun p => decide (p.src = (e.x, e.y)) && p.dev.isNone && p.flits.contains 0 &&
    (match p.body with
      | .message _ f _ _ _ _ => decide (f = ep)
      | _ => false)) ||
  s.fabWait.any (fun x => decide (x.pkt.srcRegion = e.region) && decide (x.pkt.sx = e.x - e.ox) && decide (x.pkt.sy = e.y - e.oy) &&
    decide (x.pkt.hops = 0) && s.atSource x &&
    (match x.pkt.body with
      | .channel (.message _ f _ _ _ _) => decide (f = ep)
      | _ => false))

end Sys2Proof.Machine
end

