-- ==== Sys2Proof/Machine/Ligature.lean ====
section
/-! DEFINITION. Ligatures and timed actions (rows LIG_ARRIVE to TIMED_ACTION_EXECUTE; R215 to R235). -/

namespace Sys2Proof.Machine

/-! ## Issue (R217, R218) -/

/-- The reserved fields of lig.arrive and lig.signal: the binding too, unless the operation is far. -/
def resvLigFire (w : Word) : Bool := resvE w true false false false || nz w 9 21 || (!bitOf w 0 && nz w 1 8)
/-- The reserved fields of lig.wait, lig.reset and lig.read. -/
def resvLigTwo (w : Word) : Bool := resvE w true true false false || nz w 0 30
/-- The reserved fields of lig.tstat. -/
def resvLigTstat (w : Word) : Bool := resvE w true false false false || nz w 3 27

/-- The ligature queue holds sixteen, counting far operations that their port has not accepted (R56). -/
def Core.ligFull (c : Core) : Bool := decide (16 ≤ c.lig.queue.length + (c.lig.applied.filter (fun d => bitOf d.op.w 0 && opOf d.op.w != 0xE5)).length)

/-- An operation enters the ligature queue. -/
def ligPut (o : EngOp) (c : Core) : Core := { c with lig := { c.lig with queue := c.lig.queue ++ [o] } }

/-- A far operation leaves for the fabric, tagged with the count of those before it; it completes when its port accepts it (R226). -/
def ligFar (o : EngOp) (c : Core) : Core :=
  { c with lig := { c.lig with applied := c.lig.applied ++ [⟨o, BitVec.ofNat 64 c.lig.farSeq⟩], farSeq := c.lig.farSeq + 1 } }

/-- What a ligature instruction does at issue: the interlocks, the poisoned-control trap, the check of the operand and the wait for room in the
queue. `sb` says that sb is read, `dest` that it is a destination; `bound` says whether a region's binding is set. -/
def workLig (sb dest : Bool) (bound : Nat → Bool) (e : Env) (w : Word) (c : Core) : Issue :=
  let o := c.engOp e w
  let far := bitOf w 0 && decide (opOf w ≤ 0xE1)
  let fault (code : Nat) : Core := c.ligFault e code (ligInfo o.sa.toNat (if far then fieldOf w 1 8 else 0) c.ctl.pc)
  if !c.regsReady w true (sb || dest) then .stall
  else if c.regsPoisoned w true sb then .trap 6 5 (freeDetail 6 w)
  else if far then
    if 2 ^ 17 ≤ o.sa.toNat then .next (fault 1)
    else if !bound (fieldOf w 1 8) then .next (fault 5)
    else if c.ligFull then .stall
    else .next (ligFar o c)
  else match ligCluster e o.sa.toNat with
    | none => .next (fault 1)
    | some _ =>
      if c.ligFull then .stall
      else
        let c := ligPut o c
        if opOf w = 0xE2 then .stay { c with ctl := { c.ctl with ligWait := some o } }
        else .next (if dest then { c with ctl := c.ctl.hold (eSb w) } else c)

/-- Whether the supervisor has set a binding of the core's region. -/
def State.bound (s : State) (i b : Nat) : Bool := (s.bindings.look (256 * (s.env i).region + b) none).isSome

/-- A far operation that has just left a core is injected for the fabric in the request class (R226, R313). -/
def State.farOut (before : State) (i : Nat) (s : State) : State :=
  let e := before.env i
  let n := (before.core i).lig.farSeq
  match (s.core i).lig.applied.getLast? with
  | none => s
  | some d =>
    if (s.core i).lig.farSeq = n then s
    else match s.bindings.look (256 * e.region + fieldOf d.op.w 1 8) none with
      | none => s
      | some b =>
        let p : FabPkt :=
          { dstDev := b.dev, srcDev := if s.fld fFabIdValid = 1 then s.fld fFabIdDeviceId else 0x3FFFF, cls := 3
            epoch := decide (s.fld fFabEpochBit = 1), hops := 0, dstRegion := b.region, gen := b.gen, kind := 5
            injectUs := s.time / 1000 % 2 ^ 32, srcRegion := e.region, route := [], routeIdx := 0, downTaken := false
            x := 0, y := 0, sx := e.x - e.ox, sy := e.y - e.oy, flits := 1
            body := .lig (opOf d.op.w = 0xE1) (d.op.sa.toNat % 2 ^ 17) n (fieldOf d.op.w 1 8) d.op.pc }
        s.await p 16 16 false (if s.voteMark e.core = 0 then 0 else 4)

/-- lig.arrive and lig.signal issued: a far one leaves for the fabric. -/
def ligFire (op : Nat) (i : CoreId) (w : Word) (s : State) : Out :=
  match issueRow op 5 resvLigFire (workLig false false (s.bound i.val)) i.val w s with
  | .next t => .next (s.farOut i.val t)
  | .fault f => .fault f
  | .refused r => .refused r

/-- lig.arrive. -/
def execLigArrive (i : CoreId) (w : Word) (s : State) : Out := ligFire 0xE0 i w s

/-- lig.signal. -/
def execLigSignal (i : CoreId) (w : Word) (s : State) : Out := ligFire 0xE1 i w s

/-- lig.wait holds issue until its release or its fault (R221). -/
def execLigWait (i : CoreId) (w : Word) (s : State) : Out :=
  issueRow 0xE2 5 resvLigTwo (workLig true false (fun _ => false)) i.val w s

/-- lig.reset. -/
def execLigReset (i : CoreId) (w : Word) (s : State) : Out :=
  issueRow 0xE3 5 resvLigTwo (workLig true false (fun _ => false)) i.val w s

/-- lig.read: sb has a write pending until completion (R221). -/
def execLigRead (i : CoreId) (w : Word) (s : State) : Out :=
  issueRow 0xE4 5 resvLigTwo (workLig false true (fun _ => false)) i.val w s

/-- What lig.tstat does at issue: sa is its destination, and it names no ligature (R219). -/
def workLigTstat (e : Env) (w : Word) (c : Core) : Issue :=
  if !c.regsReady w true false then .stall
  else if c.ligFull then .stall
  else
    let c' := ligPut (c.engOp e w) c
    .next { c' with ctl := c'.ctl.hold (eSa w) }

/-- lig.tstat. -/
def execLigTstat (i : CoreId) (w : Word) (s : State) : Out := issueRow 0xE5 5 resvLigTstat workLigTstat i.val w s

/-! ## The ligature unit (R215, R216, R219 to R222) -/

/-- Whether a ligature of a cluster is enabled. -/
def Cluster.ligOn (k : Cluster) (l : Nat) : Bool := decide (k.fld (fldAt fLigCfgEnable (8 * l)) = 1)

/-- A ligature of a cluster: an enabled one that nothing has changed holds the image's expect, which is never 0 (R215). -/
def Cluster.lig (k : Cluster) (l : Nat) : LigSt :=
  let x := k.ligs.look l ligZero
  if x.expect = 0 && k.ligOn l then { x with expect := k.fld (fldAt fLigCfgExpect (8 * l)) } else x

/-- A cluster with a ligature set. -/
def Cluster.setLig (k : Cluster) (l : Nat) (x : LigSt) : Cluster := { k with ligs := k.ligs.put l x ligZero }

/-- A fire: the count becomes 0 and the phase advances (R216). -/
def Cluster.fire (l : Nat) (k : Cluster) : Cluster :=
  let x := k.lig l
  (k.setLig l { x with phase := (x.phase + 1) % 2 ^ 16, count := 0 }).bump fLigFiresCount 1

/-- An arrive adds 1 to the count and fires the ligature at its expect (R216). -/
def Cluster.arrive (l : Nat) (k : Cluster) : Cluster :=
  let x := k.lig l
  if x.count + 1 = x.expect then k.fire l else k.setLig l { x with count := (x.count + 1) % 2 ^ 16 }

/-- A reset: count and phase 0, and a new expect when one is given (R219). -/
def Cluster.resetLig (l expect : Nat) (k : Cluster) : Cluster :=
  let x := k.lig l
  k.setLig l ⟨0, 0, if expect = 0 then x.expect else expect⟩

/-- Whether a phase satisfies a wait for a target (R219). -/
def ligMet (phase target : Nat) : Bool := decide ((phase + 2 ^ 16 - target % 2 ^ 16) % 2 ^ 16 < 2 ^ 15)

/-- The word a lig.read returns (R219). -/
def Cluster.readLig (l : Nat) (k : Cluster) : Word :=
  let x := k.lig l
  BitVec.ofNat 64 (x.phase % 2 ^ 16 + x.count % 2 ^ 16 * 2 ^ 16 + x.expect % 2 ^ 16 * 2 ^ 32)

/-- A unit's first fault since region start is recorded (R225). -/
def Cluster.recordFault (code info gen : Nat) (k : Cluster) : Cluster :=
  if k.fld fLigFaultLastValid = 1 then k
  else k.setReg fLigFaultLastInfo.off (BitVec.ofNat 64 (info % 2 ^ 43 + code * 2 ^ 43 + gen % 256 * 2 ^ 51 + 2 ^ 59))

/-- A fault that a unit sends to a core (R225). -/
def State.unitFault (s : State) (n i code info gen : Nat) : State :=
  let s := s.mapCluster n (Cluster.recordFault code info gen)
  let (ok, s) := s.send n (clusterOfCore i)
  if ok then s.mapCore i (fun c => { c with inbound := c.inbound ++ [⟨3, code, info, gen⟩] }) else s

/-- The recorded waiters whose test the phases now meet are released, in the order they were recorded (R219, R221). -/
def Cluster.test (k : Cluster) : Cluster :=
  let met (x : Waiter) : Bool := ligMet (k.lig x.lig).phase x.target
  { k with waiters := k.waiters.filter (fun x => !met x), releases := k.releases ++ (k.waiters.filter met).map (·.core) }

/-- A wait is applied: released at once when satisfied, recorded when a record is free, and otherwise waiting for one (R219, R222). -/
def Cluster.wait (x : Waiter) (k : Cluster) : Cluster :=
  if ligMet (k.lig x.lig).phase x.target then { k with releases := k.releases ++ [x.core] }
  else if k.waiters.length < 1024 && k.waitQ.isEmpty then { k with waiters := k.waiters ++ [x] }
  else { k with waitQ := k.waitQ ++ [x] }.setFld fLigStatusWaitFull 1

/-- An operation that a unit applies in one clock: its core, the opcode, the ligature, the region-relative operand, sb, the instruction it
comes from or else the slot of the timed action. -/
structure LigOp where
  core : Nat
  op : Nat
  lig : Nat
  operand : Nat
  arg : Nat
  src : Option EngOp
  slot : Nat
  deriving DecidableEq, Repr

/-- The operation at the head of a core's queue, or of its timed actions' operations, if it goes to cluster `n`. -/
def State.ligHead (s : State) (n : Nat) (x : CoreId × Bool) : Option LigOp :=
  let i := x.1.val
  let e := s.env i
  let c := s.core i
  if x.2 then
    match c.lig.timed with
    | [] => none
    | t :: _ => if ligCluster e t.operand = some n then some ⟨i, t.op, t.operand % 512, t.operand, 0, none, t.slot⟩ else none
  else
    match c.lig.queue with
    | [] => none
    | o :: _ =>
      if opOf o.w != 0xE5 && ligCluster e o.sa.toNat = some n then
        some ⟨i, opOf o.w, o.sa.toNat % 512, o.sa.toNat, fieldOf o.sb 0 16, some o, 0⟩
      else none

/-- An operation leaves its core. -/
def State.ligLeave (s : State) (x : LigOp) : State :=
  s.mapCore x.core (fun c => { c with lig :=
    if x.src.isSome then { c.lig with queue := c.lig.queue.drop 1 } else { c.lig with timed := c.lig.timed.drop 1 } })

/-- An operation applied is held at its core until it completes, with the value it reads. -/
def State.ligHold (s : State) (x : LigOp) (v : Word) : State :=
  match x.src with
  | none => s
  | some o => if x.op = 0xE2 then s else s.mapCore x.core (fun c => { c with lig := { c.lig with applied := c.lig.applied ++ [⟨o, v⟩] } })

/-- The info of a fault that an operation meets. -/
def LigOp.info (x : LigOp) : Nat :=
  match x.src with
  | some o => ligInfo x.operand 0 o.pc
  | none => slotInfo x.operand x.slot

/-- One operation's effect on its unit, by its kind: 0 resets, 1 arrives, 2 signals (R219, R220). -/
def Cluster.ligEffect (pass : Nat) (k : Cluster) (x : LigOp) : Cluster :=
  match pass, x.op with
  | 0, 0xE3 => k.resetLig x.lig x.arg
  | 1, 0xE0 => k.arrive x.lig
  | 2, 0xE1 => k.fire x.lig
  | _, _ => k

/-- The operations that a unit applies in one clock, in the order of R220: resets, arrives, signals, then reads see the state, then the waiters
are tested and the waits applied. -/
def State.applyOps (s : State) (n : Nat) (xs : List LigOp) : State :=
  let k := s.cluster n
  let on := xs.filter (fun x => k.ligOn x.lig)
  let off := xs.filter (fun x => !k.ligOn x.lig)
  let k := k.bump fLigOpsCount xs.length
  let k := [0, 1, 2].foldl (fun (k : Cluster) pass => on.foldl (Cluster.ligEffect pass) k) k
  let s := on.foldl (fun (s : State) x => s.ligHold x (if x.op = 0xE4 then k.readLig x.lig else 0)) (s.setCluster n k)
  let s := s.mapCluster n (fun k => on.foldl (fun (k : Cluster) x =>
    if x.op = 0xE2 then k.wait ⟨x.core, x.lig, x.arg, x.operand, (x.src.map (·.pc)).getD 0, s.timeAt n⟩ else k) k.test)
  off.foldl (fun (s : State) x => (s.ligHold x 0).unitFault n x.core 2 x.info (s.env x.core).gen) s

/-- An operation that a reset of its region left on its way: it reaches cluster `n`, if it goes there, and is discarded as stale (R227). -/
def State.ligStray (s : State) (n i : Nat) : Option State :=
  match (s.core i).lig.strays with
  | [] => none
  | o :: r =>
    if ligCluster (s.env i) o = some n then
      let (ok, t) := (s.mapCore i (fun c => { c with lig := { c.lig with strays := r } })).send (clusterOfCore i) n
      some (if ok then t.mapCluster n (fun k => k.bump fLigStaleCount 1) else t)
    else none

/-- A core's clock runs and its hairline reaches the unit; one whose way is cut loses its operation, and one whose way crosses a cluster in holdover
waits (R258, R356). An operation of a generation that has ended goes before any of the present one. -/
def State.ligTake (s : State) (n : Nat) : List (CoreId × Bool) → List LigOp → State × List LigOp
  | [], acc => (s, acc.reverse)
  | x :: r, acc =>
    let up := (s.env x.1.val).alive && !s.hubWaits (clusterOfCore x.1.val) n
    match (if up then s.ligStray n x.1.val else none), (if up then s.ligHead n x else none) with
    | some t, _ => t.ligTake n r acc
    | none, none => s.ligTake n r acc
    | none, some o =>
      let (ok, t) := (s.ligLeave o).send (clusterOfCore o.core) n
      t.ligTake n r (if ok then o :: acc else acc)

/-- LIGATURE_OP_APPLIED: a unit applies in one clock up to four operations, at most one of a core's instructions (R220, R221). -/
def execLigatureOpApplied (cluster : ClusterId) (ops : List (CoreId × Bool)) (s : State) : Out :=
  if !s.alive cluster.val || 4 < ops.length || ops.eraseDups != ops then .next s
  else
    let (s, xs) := s.ligTake cluster.val ops []
    .next (if xs.isEmpty then s else s.applyOps cluster.val xs)

/-! ## Releases and timeouts (R221, R222, R224) -/

/-- The cluster at which a core's lig.wait waits. -/
def State.waitAt (s : State) (i : Nat) : Option Nat := (s.core i).ctl.ligWait.bind (fun o => ligCluster (s.env i) o.sa.toNat)

/-- WAITER_RELEASE: a release on its way reaches its core, whose lig.wait completes. -/
def execWaiterRelease (i : CoreId) (s : State) : Out :=
  let e := s.env i
  match s.waitAt i with
  | none => .next s
  | some n =>
    let k := s.cluster n
    if !e.alive || !k.releases.contains i.val || s.hubWaits n (clusterOfCore i.val) then .next s
    else
      let (ok, s) := (s.setCluster n { k with releases := k.releases.filter (fun c => c != i.val) }).send n (clusterOfCore i.val)
      if ok then .next (s.putCore i ((s.core i).endWait e)) else .next s

/-- A wait that waits for a record is applied again when one is free (R222). -/
def Cluster.reapply (now : Nat) (k : Cluster) : Cluster :=
  match k.waitQ with
  | [] => k
  | x :: q =>
    if 1024 ≤ k.waiters.length then k
    else if ligMet (k.lig x.lig).phase x.target then { k with waitQ := q, releases := k.releases ++ [x.core] }
    else { k with waitQ := q, waiters := k.waiters ++ [{ x with since := now }] }

/-- WAIT_REAPPLY. -/
def execWaitReapply (cluster : ClusterId) (s : State) : Out :=
  if s.alive cluster.val then .next (s.mapCluster cluster.val (Cluster.reapply (s.timeAt cluster.val))) else .next s

/-- LIGATURE_WAIT_TIMEOUT: a core's recorded waiter that has waited for its ligature's timeout is removed, counted and told (R224). -/
def execLigatureWaitTimeout (i : CoreId) (s : State) : Out :=
  match s.waitAt i with
  | none => .next s
  | some n =>
    let k := s.cluster n
    match k.waiters.find? (fun x => x.core = i.val) with
    | none => .next s
    | some x =>
      let t := k.fld (fldAt fLigCfgTimeout (8 * x.lig))
      if !s.alive n || t = 0 || s.hubWaits n (clusterOfCore i.val) || s.timeAt n < x.since + 1000 * 2 ^ (t - 1) then .next s
      else
        let k := { k with waiters := k.waiters.filter (fun y => y.core != i.val) }.bump fLigTimeoutsCount 1
        .next ((s.setCluster n k).unitFault n i.val 3 (ligInfo x.operand 0 x.pc) (s.env i).gen)

/-! ## Completion (R221) -/

/-- The word lig.tstat writes (R232). -/
def TimedSlot.word (t : TimedSlot) : Word :=
  BitVec.ofNat 64 (bit t.armed + bit t.executed * 2 + bit t.late * 4 + bit t.cancelled * 8 + t.lateness % 2 ^ 32 * 2 ^ 32)

/-- Whether a core's far operation of a tag still waits for its port (R226). -/
def State.farWaits (s : State) (e : Env) (tag : Nat) : Bool :=
  s.fabWait.any (fun x => decide (x.pkt.hops = 0) && decide (x.pkt.srcRegion = e.region) && decide (x.pkt.sx = e.x - e.ox) &&
    decide (x.pkt.sy = e.y - e.oy) &&
    (match x.pkt.body with
      | .lig _ _ t _ _ => decide (t = tag)
      | _ => false))

/-- LIGATURE_OP_COMPLETION: the applied operation at a place completes at its core, a read writing sb; past them, a lig.tstat at the head of the
queue writes sa (R219, R221, R226). -/
def execLigatureOpCompletion (i : CoreId) (idx : Nat) (s : State) : Out :=
  let e := s.env i
  let c := s.core i
  if !e.alive then .next s
  else match c.lig.applied[idx]? with
    | some d =>
      let far := bitOf d.op.w 0 && decide (opOf d.op.w ≤ 0xE1)
      if far && s.farWaits e d.value.toNat then .next s
      else
        let c := { c with lig := { c.lig with applied := c.lig.applied.eraseIdx idx } }
        let c := if opOf d.op.w = 0xE4 then { c with ctl := c.ctl.land (eSb d.op.w) d.value false } else c
        .next (s.putCore i (Core.complete d.op.w c))
    | none =>
      match c.lig.queue with
      | [] => .next s
      | o :: q =>
        if opOf o.w = 0xE5 then
          let c := c.timedDue e
          let c := { c with lig := { c.lig with queue := q }, ctl := c.ctl.land (eSa o.w) (c.ctl.slots[fieldOf o.w 0 3]!).word false }
          .next (s.putCore i (Core.complete o.w c))
        else .next s

/-! ## Far operations (R226, R227) -/

/-- The unit that counts a far operation: that of the cluster it names, or the region's origin cluster's where it names none of the region. (DEDUCED, log entry 29.) -/
def farUnit (e : Env) (operand : Nat) : Nat := (ligCluster e operand).getD (e.ox / 6 + 12 * (e.oy / 8))

/-- What a core of a region's origin is told: the place of the region on the device. -/
def State.regionEnv (s : State) (r : Nat) : Env :=
  s.env (s.physical (6 * s.rgn r fRgnCfgCx0) (8 * s.rgn r fRgnCfgCy0))

/-- FAR_LIGATURE_ARRIVAL: the far operation at a place acts on its ligature as R216 says, or is discarded as stale, or for a name outside the
region or a ligature not enabled, which the region's control core is told, and while the region is being wiped (R225, R227, R274). -/
def execFarLigatureArrival (idx : Nat) (s : State) : Out :=
  if s.dev != .up then .next s else
  match s.farOps[idx]? with
  | none => .next s
  | some x =>
    let e := s.regionEnv x.region
    let n := farUnit e x.operand
    let s := { s with farOps := s.farOps.eraseIdx idx }
    if s.tooOld x.injectUs then .next s.ageDrop
    else if s.rgn x.region fRgnCfgEnable = 0 then .next s
    else
      let s := s.mapCluster n (fun k => k.bump fLigFarInCount 1)
      if x.gen != s.rgn x.region fRgnStatusGeneration then .next (s.mapCluster n (fun k => k.bump fLigStaleCount 1))
      else if s.rgn x.region fRgnStatusState = 5 then .next s
      else
        let l := x.operand % 512
        if (ligCluster e x.operand).isNone || !(s.cluster n).ligOn l then
          .next ((s.mapCluster n (fun k => k.bump fLigFarDropCount 1)).unitFault n e.core 6 (ligInfo x.operand x.binding x.pc) x.gen)
        else .next (s.mapCluster n (fun k =>
          let k := k.bump fLigOpsCount 1
          (if x.signal then k.fire l else k.arrive l).test))

/-! ## Timed actions (R228) -/

/-- TIMED_ACTION_EXECUTE: a slot whose tick has come on the core's interpolated counter acts, in the order of their ticks and at one tick in slot order
(R228). A stopped or halted core's slots act too (R233). -/
def execTimedActionExecute (i : CoreId) (slot : Fin 8) (s : State) : Out :=
  let e := s.env i
  let c := s.core i
  if e.alive && c.nextDue e.now = some slot.val then .next (s.putCore i (Core.timedExec e slot.val c)) else .next s

end Sys2Proof.Machine
end

