-- ==== Sys2Proof/Machine/Copy.lean ====
section
/-! DEFINITION. The copy engine and the reservoir: shapes, the copy instructions at issue, their start, the grant and delivery of reservoir
lines, remote copies, refresh, scrub and row sparing (rows CP_FETCH to COPY_COMPLETION; R152, R163 to R183, R205, R206, R420). -/

namespace Sys2Proof.Machine

/-! ## Shapes (R171) -/

/-- A shape: run and rows, element size with 0 for untransposed, and the signed strides. -/
structure Shape where
  run : Nat
  rows : Nat
  elem : Nat
  ss : Int
  ds : Int
  deriving DecidableEq, Repr

/-- The element size of an elem code. -/
def elemSize (code : Nat) : Nat := if code = 0 then 0 else 2 ^ (code - 1)

/-- A field of shape descriptor `n`. -/
def Core.shapeFld (c : Core) (n : Nat) (f : Fld) : Nat := c.fld (fldAt f (16 * n))

/-- The shape an instruction names. -/
def Core.shape (c : Core) (w : Word) : Shape :=
  let n := fieldOf w 0 5
  ⟨c.shapeFld n fCpShapeARun + 1, c.shapeFld n fCpShapeARows + 1, elemSize (c.shapeFld n fCpShapeAElem),
    signedOf 32 (c.shapeFld n fCpShapeBSrcStride), signedOf 32 (c.shapeFld n fCpShapeBDstStride)⟩

/-- Bytes that move together: the source and destination byte and how many. -/
structure Part where
  src : Nat
  dst : Nat
  len : Nat
  deriving DecidableEq, Repr

/-- A byte address `k` strides of `s` from a base. -/
def stride (base : Nat) (k : Nat) (s : Int) : Nat := ((base : Int) + k * s).toNat

/-- The parts of a shape in descriptor order: runs, or for a transposed shape the elements of each row (R171). -/
def Shape.parts (t : Shape) (src dst : Nat) : List Part :=
  if t.elem = 0 then (List.range t.rows).map (fun i => ⟨stride src i t.ss, stride dst i t.ds, t.run⟩)
  else (List.range t.rows).flatMap (fun i => (List.range (t.run / t.elem)).map (fun j =>
    ⟨stride src i t.ss + j * t.elem, stride dst j t.ds + i * t.elem, t.elem⟩))

/-- One side of a copy: `n` runs of `len` bytes from a base, a stride apart. -/
structure Side where
  base : Int
  n : Nat
  len : Nat
  s : Int
  deriving DecidableEq, Repr

/-- The lowest and the highest byte of a side. -/
def Side.span (r : Side) : Int × Int :=
  let far := ((r.n : Int) - 1) * r.s
  (r.base + min 0 far, r.base + max 0 far + r.len - 1)

/-- The first and the last byte of each run of a side. -/
def Side.runs (r : Side) : List (Int × Int) := (List.range r.n).map (fun (i : Nat) => (r.base + i * r.s, r.base + i * r.s + r.len - 1))

/-- The source side of a shape. -/
def Shape.srcSide (t : Shape) (base : Int) : Side := ⟨base, t.rows, t.run, t.ss⟩

/-- The destination side of a shape: a transposed shape's runs are its columns. -/
def Shape.dstSide (t : Shape) (base : Int) : Side :=
  if t.elem = 0 then ⟨base, t.rows, t.run, t.ds⟩ else ⟨base, t.run / t.elem, t.rows * t.elem, t.ds⟩

/-! ## The instructions at issue (R172, R173) -/

/-- The bytes of the reservoir. -/
def rsvBytes : Nat := 0x0A000000

/-- Whether pair `p` is enabled. -/
def Core.pairOn (c : Core) (p : Nat) : Bool := decide (c.fld (fldAt fWellBufEnable (8 * p)) = 1)

/-- The half size of pair `p` in words (R149). -/
def Core.pairHalf (c : Core) (p : Nat) : Nat := (c.fld (fldAt fWellBufHalf (8 * p)) + 1) * 64

/-- The base word of pair `p`. -/
def Core.pairBase (c : Core) (p : Nat) : Nat := c.fld (fldAt fWellBufBase (8 * p)) * 64

/-- The base word of the recto of pair `p`. -/
def Core.recto (c : Core) (p : Nat) : Nat := if c.well.verso[p % 8]! then c.pairBase p else c.pairBase p + c.pairHalf p

/-- pr of cp.fetch, cp.store and cp.move. -/
def cpPr (w : Word) : Bool := bitOf w 5 && (opOf w = 0xC0 || opOf w = 0xC1 || opOf w = 0xC2)

/-- pair. -/
def cpPair (w : Word) : Nat := if opOf w = 0xCF then fieldOf w 0 3 else fieldOf w 6 3

/-- dest of cp.feed. -/
def cpDest (w : Word) : Nat := fieldOf w 5 2

/-- src of cp.feed: the well. -/
def cpFromWell (w : Word) : Bool := bitOf w 7

/-- target of cp.fill: the reservoir. -/
def cpFillRsv (w : Word) : Bool := bitOf w 5

/-- endpoint of cp.rput and cp.rget. -/
def cpEp (w : Word) : Nat := fieldOf w 5 6

/-- The reserved fields of cp.fetch and cp.store. -/
def resvCpRsv (w : Word) : Bool := resvE w true false true false || nz w 9 5
/-- The reserved fields of cp.move. -/
def resvCpMove (w : Word) : Bool := resvE w false false true true || nz w 9 21
/-- The reserved fields and values of cp.feed. -/
def resvCpFeed (w : Word) : Bool :=
  resvE w (!cpFromWell w) (cpDest w = 2) (cpFromWell w) false || cpDest w = 3 || nz w 8 6
/-- The reserved fields of cp.fill: due is for the reservoir only. -/
def resvCpFill (w : Word) : Bool := resvE w true (cpFillRsv w) (!cpFillRsv w) false || nz w 6 8 || (!cpFillRsv w && nz w 14 16)
/-- The reserved fields of cp.rput and cp.rget. -/
def resvCpRemote (w : Word) : Bool := resvE w false true true false || nz w 11 19
/-- The reserved fields of cp.swap. -/
def resvCpSwap (w : Word) : Bool := resvE w false false false false || nz w 3 27

/-- The one address that lies in some of the intervals, if they hold one alone. -/
def loneIn (l : List (Int × Int)) : Option Int :=
  match l.filter (fun x => decide (x.1 ≤ x.2)) with
  | [] => none
  | x :: r => if x.1 = x.2 && r.all (fun y => y = x) then some x.1 else none

/-- An address-range trap where a side leaves the addresses from `lo` to below `hi`, counted in units of `unit` bytes; the detail is the
low 27 bits of the offending address where there is one alone (R64). -/
def sideCheck (w : Word) (unit : Nat) (lo hi : Int) (r : Side) : Option (Nat × Nat) :=
  if r.span.1 / unit < lo || hi ≤ r.span.2 / unit then
    let bad : List (Int × Int) := r.runs.flatMap (fun (x : Int × Int) => [(x.1 / unit, min (x.2 / unit) (lo - 1)), (max (x.1 / unit) hi, x.2 / unit)])
    some (5, match loneIn bad with
      | some a => (a % 2 ^ 27).toNat
      | none => freeDetail 5 w)
  else none

/-- The first trap of a list of checks. -/
def firstTrap (l : List (Option (Nat × Nat))) : Option (Nat × Nat) := l.findSome? id

/-- The check of the well side of a copy at word `a`: within the well, and within the recto of its pair when pr is 1. -/
def Core.wellSide (c : Core) (w : Word) (pr : Bool) (a : Nat) (side : Int → Side) : Option (Nat × Nat) :=
  if pr then
    let b := c.recto (cpPair w)
    sideCheck w 8 b (min (b + c.pairHalf (cpPair w)) (2 ^ 19) : Nat) (side (8 * (b + a : Nat)))
  else sideCheck w 8 0 (2 ^ 19) (side (8 * a : Nat))

/-- The check of the reservoir side of a copy at byte `b`. -/
def rsvSide (w : Word) (b : Word) (side : Int → Side) : Option (Nat × Nat) := sideCheck w 1 0 rsvBytes (side b.toNat)

/-- The name of a core in a trap's detail (R27, R64): its x and y of seven bits each, in an order that the manual leaves open, as it leaves what
stands in the other bits. -/
def nameDetail (x y : Nat) : Nat :=
  let (a, b) := if Config.nameOrder then (x, y) else (y, x)
  a % 128 + b % 128 * 2 ^ 7 + Config.nameRest.toNat * 2 ^ 14

/-- The trap of an instruction that names a core outside the region, with the name (R27). -/
def nameCheck (e : Env) (x y : Nat) : Option (Nat × Nat) := if e.inside x y then none else some (2, nameDetail x y)

/-- The trap of an instruction on an endpoint whose unicast ductus names a core outside the region (R27). -/
def Core.ductName (e : Env) (ep : Nat) (c : Core) : Option (Nat × Nat) :=
  if c.duct ep fChDuctusAKind = 0 then nameCheck e (c.duct ep fChDuctusADestX) (c.duct ep fChDuctusADestY) else none

/-- The illegal encodings that depend on the shape, the pair and the ductus (R173). -/
def Core.cpIllegal (c : Core) (w : Word) : Bool :=
  let n := fieldOf w 0 5
  let t := c.shape w
  let op := opOf w
  let tr := c.shapeFld n fCpShapeAElem != 0
  c.shapeFld n fCpShapeAEnable = 0 || decide (6 ≤ c.shapeFld n fCpShapeAElem) ||
  (tr && (op != 0xC0 && op != 0xC1 && op != 0xC2 || t.run % (8 * t.elem) != 0 || t.rows % 8 != 0)) ||
  (op = 0xC3 && cpDest w = 2 && t.rows * t.run % 8 != 0) ||
  (cpPr w && !c.pairOn (cpPair w)) ||
  (op = 0xC5 && c.duct (cpEp w) fChDuctusBRdWindow = 1) ||
  (op = 0xC6 && (c.duct (cpEp w) fChDuctusBRdWindow = 0 || c.duct (cpEp w) fChDuctusAKind = 1 || c.duct (cpEp w) fChDuctusAKind = 2))

/-- The trap of a remote word address with a bit set above its field: the address that offends is sb itself (R64, R173). -/
def remoteBeyond (sb : Word) : Option (Nat × Nat) := if fieldOf sb 19 45 != 0 then some (5, fieldOf sb 0 27) else none

/-- The address ranges of a copy (R173), and for a remote copy the core its endpoint names (R27). -/
def Core.cpRange (e : Env) (c : Core) (o : EngOp) : Option (Nat × Nat) :=
  let w := o.w
  let t := c.shape w
  match opOf w with
  | 0xC0 => firstTrap [rsvSide w o.sa t.srcSide, c.wellSide w (cpPr w) o.aa t.dstSide]
  | 0xC1 => firstTrap [rsvSide w o.sa t.dstSide, c.wellSide w (cpPr w) o.aa t.srcSide]
  | 0xC2 => firstTrap [c.wellSide w false o.aa t.srcSide, c.wellSide w (cpPr w) o.ab t.dstSide]
  | 0xC3 =>
    let code := if cpDest w = 2 then
        let rs := [(o.sb.toNat, t.rows * t.run / 8)]
        if beyond 8192 rs then some (5, rangeDetail w 8192 rs) else none
      else none
    firstTrap [if cpFromWell w then c.wellSide w false o.aa t.srcSide else rsvSide w o.sa t.srcSide, code]
  | 0xC4 => if cpFillRsv w then rsvSide w o.sb t.dstSide else c.wellSide w false o.aa t.dstSide
  | 0xC5 =>
    firstTrap [c.ductName e (cpEp w), remoteBeyond o.sb, c.wellSide w false o.aa t.srcSide]
  | _ =>
    firstTrap [c.ductName e (cpEp w), remoteBeyond o.sb, c.wellSide w false o.aa t.dstSide]

/-- The same by the word first. -/
def earlyCp (w : Word) (c : Core) : Bool := c.cpIllegal w

/-- The checks of a copy instruction. -/
def checkCp (e : Env) (w : Word) (c : Core) : Option (Nat × Nat) := c.cpRange e (c.engOp e w)

/-- The copy queue holds thirty-two (R56). -/
def Core.cpFull (c : Core) : Bool := decide (32 ≤ c.cp.queue.length)

/-- An instruction enters the copy queue. -/
def cpPut (o : EngOp) (c : Core) : Core := { c with cp := { c.cp with queue := c.cp.queue ++ [o] } }

/-- cp.fetch. -/
def execCpFetch (i : CoreId) (w : Word) (s : State) : Out :=
  issueEngine 0xC0 3 resvCpRsv earlyCp (engIssue 3 true false false checkCp Core.cpFull cpPut) i.val w s

/-- cp.store. -/
def execCpStore (i : CoreId) (w : Word) (s : State) : Out :=
  issueEngine 0xC1 3 resvCpRsv earlyCp (engIssue 3 true false false checkCp Core.cpFull cpPut) i.val w s

/-- cp.move. -/
def execCpMove (i : CoreId) (w : Word) (s : State) : Out :=
  issueEngine 0xC2 3 resvCpMove earlyCp (engIssue 3 false false false checkCp Core.cpFull cpPut) i.val w s

/-- What cp.feed does at issue: sa names the reservoir, sb the code store. -/
def workCpFeed (e : Env) (w : Word) (c : Core) : Issue :=
  engIssue 3 (!cpFromWell w) (cpDest w = 2) false checkCp Core.cpFull cpPut e w c

/-- cp.feed. -/
def execCpFeed (i : CoreId) (w : Word) (s : State) : Out := issueEngine 0xC3 3 resvCpFeed earlyCp workCpFeed i.val w s

/-- What cp.fill does at issue: sa is the pattern, sb names the reservoir. -/
def workCpFill (e : Env) (w : Word) (c : Core) : Issue := engIssue 3 true (cpFillRsv w) false checkCp Core.cpFull cpPut e w c

/-- cp.fill. -/
def execCpFill (i : CoreId) (w : Word) (s : State) : Out := issueEngine 0xC4 3 resvCpFill earlyCp workCpFill i.val w s

/-- cp.rput. -/
def execCpRput (i : CoreId) (w : Word) (s : State) : Out :=
  issueEngine 0xC5 3 resvCpRemote earlyCp (engIssue 3 false true false checkCp Core.cpFull cpPut) i.val w s

/-- cp.rget. -/
def execCpRget (i : CoreId) (w : Word) (s : State) : Out :=
  issueEngine 0xC6 3 resvCpRemote earlyCp (engIssue 3 false true false checkCp Core.cpFull cpPut) i.val w s

/-- The check of cp.swap: a pair that is not enabled is a schedule breach (R152). -/
def checkCpSwap (_ : Env) (w : Word) (c : Core) : Option (Nat × Nat) :=
  if c.pairOn (cpPair w) then none else some (4, freeDetail 4 w)

/-- cp.swap. -/
def execCpSwap (i : CoreId) (w : Word) (s : State) : Out :=
  issueRow 0xCF 3 resvCpSwap (engIssue 3 false false false checkCpSwap Core.cpFull cpPut) i.val w s

/-! ## Lines (R163, R168, R178) -/

/-- A line of 64 bytes that a copy moves, with the parts of the copy that lie in it. -/
structure Line where
  line : Nat
  parts : List Part
  deriving DecidableEq, Repr

/-- The bytes of a copy that lie in a line. -/
def Line.bytes (l : Line) : Nat := l.parts.foldl (fun n p => n + p.len) 0

/-- Whether the parts of a line that is written cover all of it (R168). -/
def Line.whole (l : Line) : Bool :=
  (List.range 64).all (fun j => l.parts.any (fun p => decide (p.dst ≤ 64 * l.line + j) && decide (64 * l.line + j < p.dst + p.len)))

/-- A part cut at the line boundaries of its source or destination side. -/
def Part.cut (dst : Bool) : Nat → Part → List (Nat × Part)
  | 0, _ => []
  | fuel + 1, p =>
    if p.len = 0 then []
    else
      let a := if dst then p.dst else p.src
      let n := min p.len (64 - a % 64)
      (a / 64, { p with len := n }) :: Part.cut dst fuel ⟨p.src + n, p.dst + n, p.len - n⟩

/-- Pieces that follow one another in one line make one line (R168). -/
def linesOf : List (Nat × Part) → List Line
  | [] => []
  | (a, p) :: r =>
    match linesOf r with
    | l :: ls => if l.line = a then ⟨a, p :: l.parts⟩ :: ls else ⟨a, [p]⟩ :: l :: ls
    | [] => [⟨a, [p]⟩]

/-- Whether the lines of a copy lie on its destination side. -/
def cpDstSide (w : Word) : Bool := opOf w = 0xC1 || opOf w = 0xC4

/-- The parts of a copy: a feed's destinations follow one another, and a fill's sources are the offsets of its runs. -/
def Core.cpParts (c : Core) (o : EngOp) (base : Nat) : List Part :=
  let t := c.shape o.w
  match opOf o.w with
  | 0xC0 => t.parts o.sa.toNat base
  | 0xC1 => t.parts base o.sa.toNat
  | 0xC2 => t.parts (8 * o.aa) base
  | 0xC3 => { t with ds := t.run }.parts (if cpFromWell o.w then 8 * o.aa else o.sa.toNat) 0
  | 0xC4 => { t with ss := 0 }.parts 0 (if cpFillRsv o.w then o.sb.toNat else 8 * o.aa)
  | 0xC5 => t.parts (8 * o.aa) 0
  | _ => t.parts 0 (8 * o.aa)

/-- The lines of a copy in descriptor order. -/
def Core.cpLines (c : Core) (o : EngOp) (base : Nat) : List Line :=
  linesOf ((c.cpParts o base).flatMap (fun p => Part.cut (cpDstSide o.w) (p.len + 1) p))

/-- Whether a copy moves reservoir lines. -/
def cpOnRsv (w : Word) : Bool :=
  opOf w = 0xC0 || opOf w = 0xC1 || (opOf w = 0xC3 && !cpFromWell w) || (opOf w = 0xC4 && cpFillRsv w)

/-- Whether a copy writes the reservoir. -/
def cpWritesRsv (w : Word) : Bool := opOf w = 0xC1 || (opOf w = 0xC4 && cpFillRsv w)

/-- Whether a copy runs on the move pipe. -/
def cpOnPipe (w : Word) : Bool := opOf w = 0xC2 || (opOf w = 0xC4 && !cpFillRsv w)

/-- The sides of a copy that lie in the well. -/
def Core.cpWell (c : Core) (o : EngOp) (base : Nat) : List Side :=
  let t := c.shape o.w
  let aa : Int := (8 * o.aa : Nat)
  match opOf o.w with
  | 0xC0 => [t.dstSide base]
  | 0xC1 => [t.srcSide base]
  | 0xC2 => [t.srcSide aa, t.dstSide base]
  | 0xC3 => if cpFromWell o.w then [t.srcSide aa] else []
  | 0xC4 => if cpFillRsv o.w then [] else [t.dstSide aa]
  | 0xC5 => [t.srcSide aa]
  | 0xC6 => [t.dstSide aa]
  | _ => []

/-- Whether a copy touches either half of a pair. -/
def Core.cpTouches (c : Core) (p : Nat) (r : CpRun) : Bool :=
  let lo : Int := 8 * c.pairBase p
  let hi : Int := 8 * (c.pairBase p + 2 * c.pairHalf p) - 1
  (c.cpWell r.op r.base).any (fun d => d.runs.any (fun x => decide (x.1 ≤ hi) && decide (lo ≤ x.2)))

/-! ## Starting (R174) -/

/-- The byte address the qualified well base of a copy resolves to at its start (R172). -/
def Core.cpBase (c : Core) (o : EngOp) : Nat :=
  let a := if opOf o.w = 0xC2 then o.ab else o.aa
  if cpPr o.w then 8 * (c.recto (cpPair o.w) + a) else 8 * a

/-- The lowest free stream slot. -/
def Core.cpSlot (c : Core) : Option Nat := (List.range 8).find? (fun n => c.cp.running.all (fun r => r.slot != n))

/-- The pieces a copy on the move pipe has (R175). -/
def Shape.pieceCount (t : Shape) : Nat := if t.elem = 0 then t.rows * ceilDiv t.run 256 else t.rows / 8 * (t.run / 8)

/-- Whether the move pipe is still with a copy at a clock: it is released one clock for each piece after the start (R174, R175). -/
def Core.pipeBusy (c : Core) (clk : Nat) (r : CpRun) : Bool := r.slot = 8 && decide (clk < r.clk + (c.shape r.op.w).pieceCount)

/-- The start conditions of a copy at a clock, with the slot it takes: 8 for the move pipe, 9 for a swap (R174). -/
def Core.cpMayStart (c : Core) (clk : Nat) (o : EngOp) : Option Nat :=
  let run := c.cp.running
  if run.any (fun r => opOf r.op.w = 0xCF) then none
  else if opOf o.w = 0xCF then (if run.any (c.cpTouches (cpPair o.w)) then none else some 9)
  else if cpOnPipe o.w then (if run.any (c.pipeBusy clk) then none else some 8)
  else
    let mine := if cpOnRsv o.w then (c.cpLines o (c.cpBase o)).map (fun l => l.line) else []
    let clash := run.any (fun r => cpOnRsv r.op.w && (cpWritesRsv o.w || cpWritesRsv r.op.w) &&
      (c.cpLines r.op r.base).any (fun l => mine.contains l.line))
    let sameFeed := opOf o.w = 0xC3 && run.any (fun r => opOf r.op.w = 0xC3 && cpDest r.op.w = cpDest o.w)
    if clash || sameFeed then none else c.cpSlot

/-! ### The move pipe (R175) -/

/-- The parts of a run of up to 256 bytes, from its start. -/
def runPieces (p : Part) : List (List Part) :=
  (List.range (ceilDiv p.len 256)).map (fun k => [⟨p.src + 256 * k, p.dst + 256 * k, min 256 (p.len - 256 * k)⟩])

/-- The pieces of a copy within the well: parts of runs, or for a transposed shape blocks of eight rows by eight source bytes. (DESIGN CHOICE, log entry 143.) -/
def Shape.pieces (t : Shape) (src dst : Nat) : List (List Part) :=
  if t.elem = 0 then (t.parts src dst).flatMap runPieces
  else (List.range (t.rows / 8)).flatMap (fun ib => (List.range (t.run / 8)).map (fun jb =>
    (List.range 8).flatMap (fun i => (List.range 8).map (fun b =>
      let row := 8 * ib + i
      let byte := 8 * jb + b
      ⟨stride src row t.ss + byte, stride dst (byte / t.elem) t.ds + row * t.elem + byte % t.elem, 1⟩))))

/-- The words of one side of a piece, each once. -/
def partWords (ps : List Part) (dst : Bool) : List Nat :=
  (ps.flatMap (fun p =>
    let a := if dst then p.dst else p.src
    if p.len = 0 then [] else (List.range ((a + p.len - 1) / 8 + 1 - a / 8)).map (a / 8 + ·))).eraseDups

/-- A byte of words that were read. -/
def byteIn (ws : List (Nat × Word × Bool)) (a : Nat) : Byte × Bool :=
  match ws.find? (fun w => w.1 = a / 8) with
  | some w => (byteOf w.2.1 (a % 8), w.2.2)
  | none => (0, false)

/-- The bytes of parts at their destinations, taken from words that were read. -/
def partBytes (ps : List Part) (ws : List (Nat × Word × Bool)) : List (Nat × Byte × Bool) :=
  ps.flatMap (fun p => (List.range p.len).map (fun k => (p.dst + k, byteIn ws (p.src + k))))

/-- Byte `o` of a fill's run (R172). -/
def fillByte (sa : Word) (o : Nat) : Byte := byteOf sa (o % 8)

/-- The pieces of a move or fill in turn: piece i reads on port 6 and writes on port 7 two clocks later, so its read sees the writes of the
pieces up to i − 3 (R143, R175). `late` holds the writes still to land, the oldest first. -/
def Core.movePieces (e : Env) (o : EngOp) (fill : Bool) : List (List Part) → List (List WordWrite) → Bool → Core → Core
  | [], late, _, c => late.foldl (fun c ws => c.wellWrites e ⟨7, 3, o.pc⟩ ws) c
  | p :: r, late, wsw, c =>
    let (now, rest) := if late.length < 3 then ([], late) else (late.headD [], late.drop 1)
    let c := c.wellWrites e ⟨7, 3, o.pc⟩ now
    if fill then
      let bs := p.flatMap (fun x => (List.range x.len).map (fun k => (x.dst + k, fillByte o.sa (x.src + k), false)))
      Core.movePieces e o fill r (rest ++ [beatWrites bs]) wsw c
    else
      let as := partWords p false
      let (ws, c, f) := c.wellRead e ⟨6, 3, o.pc⟩ wsw as
      Core.movePieces e o fill r (rest ++ [beatWrites (partBytes p (List.zip as ws))]) f c

/-- The whole work of a copy on the move pipe. -/
def Core.moveAll (e : Env) (o : EngOp) (base : Nat) (c : Core) : Core :=
  let t := c.shape o.w
  if opOf o.w = 0xC2 then c.movePieces e o false (t.pieces (8 * o.aa) base) [] false
  else c.movePieces e o true ({ t with ss := 0 }.pieces 0 (8 * o.aa)) [] false

/-- The halves of a pair exchange roles (R152). -/
def Core.swapPair (p : Nat) (c : Core) : Core :=
  { c with well := { c.well with
    verso := c.well.verso.set! (p % 8) (!c.well.verso[p % 8]!)
    breached := c.well.breached.set! (p % 8) false } }

/-- The oldest queued copy starts if its conditions hold; `clk` is the clock of its start, from which its deadlines count. -/
def Core.cpStart (e : Env) (clk : Nat) (c : Core) : Core × Option CpRun :=
  match c.cp.queue with
  | [] => (c, none)
  | o :: q =>
    match (if e.alive then c.cpMayStart clk o else none) with
    | none => (c, none)
    | some slot =>
      let base := c.cpBase o
      let ls := if cpOnRsv o.w || opOf o.w = 0xC3 then c.cpLines o base else []
      let r : CpRun :=
        { slot := slot, op := o, base := base, waiting := List.range ls.length, granted := [], moved := 0, awaiting := 0
          ages := [], promoted := [], clk := clk, wsw := false }
      let c := if slot = 9 then c.swapPair (cpPair o.w) else if slot = 8 then c.moveAll e o base else c
      ({ c with cp := { c.cp with queue := q, running := c.cp.running ++ [r] } }, some r)

/-! ### Remote copies (R205, R206) -/

/-- The messages of a cp.rput: for each run its pieces of at most 512 words, as the run, the first word in it and the words. (DEDUCED, log entry 19.) -/
def Shape.putMessages (t : Shape) : List (Nat × Nat × Nat) :=
  let w := ceilDiv t.run 8
  (List.range t.rows).flatMap (fun i => (List.range (ceilDiv w 512)).map (fun k => (i, 512 * k, min 512 (w - 512 * k))))

/-- One message of a cp.rput: its offset and payload, with the core after the reads on port 10. -/
def Core.putMessage (e : Env) (r : CpRun) (m : Nat × Nat × Nat) (c : Core) : Nat × List (Word × Bool) × Core × Bool :=
  let t := c.shape r.op.w
  let b := stride (8 * r.op.aa) m.1 t.ss + 8 * m.2.1
  let n := min (8 * m.2.2) (t.run - 8 * m.2.1)
  let (bs, c, f) := c.wellBytes e ⟨10, 3, r.op.pc⟩ r.wsw b n
  let pad := (List.range (8 * m.2.2 - n)).map (fun k => (Config.padByte (n % 8 + k), false))
  let ws := (chunksOf 8 (m.2.2 + 1) (bs ++ pad)).map (fun x => (wordOfBytes (x.map Prod.fst), x.any Prod.snd))
  let off := (((fieldOf r.op.sb 0 19 : Nat) : Int) + (m.1 * t.ds) / 8 + m.2.1) % 2 ^ 19
  (off.toNat, ws, c, f)

/-- The running copy at a place replaced. -/
def Core.setRun (k : Nat) (r : CpRun) (c : Core) : Core := { c with cp := { c.cp with running := c.cp.running.set k r } }

/-- A cp.rput sends its remaining messages while the endpoint holds the credits of the next (R205). (DESIGN CHOICE, log entry 146.) -/
def State.pumpPut (e : Env) (k : Nat) : List (Nat × Nat × Nat) → State → State
  | [], s => s
  | m :: r, s =>
    let c := s.core e.core
    match c.cp.running[k]? with
    | none => s
    | some x =>
      let ep := cpEp x.op.w
      if c.creditsFor ep m.2.2 0 then
        let (off, ws, c, f) := Core.putMessage e x m c
        let c := (c.takeCredits ep m.2.2 0).setRun k { x with moved := x.moved + 1, wsw := f }
        let s := s.setCore e.core c
        State.pumpPut e k r (if c.duct ep fChDuctusAKind = 2 then s else s.launch e ep off ws)
      else s

/-- Every running cp.rput of a core sends what its credits allow. -/
def State.pumpPuts (s : State) (i : Nat) : State :=
  let e := s.env i
  (List.range (s.core i).cp.running.length).foldl (fun (s : State) k =>
    match (s.core i).cp.running[k]? with
    | some x => if opOf x.op.w = 0xC5 then s.pumpPut e k (((s.core i).shape x.op.w).putMessages.drop x.moved) else s
    | none => s) s

/-- The words run `i` of a cp.rget asks for: window-relative words with the tags of their replies. -/
def Core.getWords (c : Core) (o : EngOp) (i : Nat) : List (Nat × Nat) :=
  let t := c.shape o.w
  let b : Int := 8 * ((fieldOf o.sb 0 19 : Nat) : Int) + i * t.ss
  let first := b / 8
  let n := ((b + t.run - 1) / 8 + 1 - first).toNat
  (List.range n).map (fun k => (((first + k) % 2 ^ 19).toNat, i * 2 ^ 20 + k))

/-- The read requests of a cp.rget leave, one for each run, along the endpoint's ductus (R206, R245). -/
def State.sendGets (s : State) (e : Env) (r : CpRun) : State :=
  let c := s.core e.core
  let ep := cpEp r.op.w
  (List.range (c.shape r.op.w).rows).foldl (fun (s : State) i =>
    let ws := c.getWords r.op i
    let goal := e.abs (c.duct ep fChDuctusADestX) (c.duct ep fChDuctusADestY)
    let s := match c.duct ep fChDuctusAKind with
      | 3 =>
        match s.bindingOf e c ep with
        | some b => s.injectFabric e b 3 3 0 (.readReq b.ep ep r.slot e.gen ws)
        | none => s
      | _ =>
        let body : Body := .readReq (c.duct ep fChDuctusADestEp) ep r.slot e.gen ws
        if c.duct ep fChDuctusAOrder = 0 then s.inject e 0 (xFirst (e.x, e.y) goal) 1 body else s.inject e 1 (yFirst (e.x, e.y) goal) 1 body
    s.mapCore e.core (fun c =>
      let k := (c.cp.running.findIdx? (fun x => x.slot = r.slot)).getD 0
      match c.cp.running[k]? with
      | some x => c.setRun k { x with awaiting := x.awaiting + ws.length }
      | none => c)) s

/-! ## Grants (R178, R179) -/

/-- The port a feed enters and the room it has. -/
def Core.feedRoom (c : Core) (w : Word) : Nat :=
  match cpDest w with
  | 0 => 2 ^ 15 - c.mx.stream.bytes
  | 1 => 2 ^ 14 - c.vx.port.bytes
  | _ => 2 ^ 32

/-- The bytes a feed's destination port holds. -/
def Core.feedHeld (c : Core) (w : Word) : Nat :=
  match cpDest w with
  | 0 => c.mx.stream.bytes
  | 1 => c.vx.port.bytes
  | _ => 0

/-- The bytes of some lines of a copy. -/
def lineBytes (ls : List Line) (ks : List Nat) : Nat := ks.foldl (fun n k => n + (ls.getD k ⟨0, []⟩).bytes) 0

/-- The next line a copy offers on a channel: the first not granted, while fewer than 64 granted lines are undelivered, and for a feed while
the port has room for it with every earlier line not yet entered (R177, R178). -/
def Core.offered (c : Core) (r : CpRun) (ls : List Line) (ch : Nat) : Option Nat :=
  match r.waiting.find? (fun k => rsvChannel (64 * (ls.getD k ⟨0, []⟩).line) = ch) with
  | none => none
  | some k =>
    if 64 ≤ r.granted.length || !cpOnRsv r.op.w then none
    else if opOf r.op.w = 0xC3 && c.feedRoom r.op.w < lineBytes ls (r.granted ++ r.waiting.filter (fun j => decide (j ≤ k))) then none
    else some k

/-- The time since which a started copy's line has waited on each channel, kept up: a channel on which it offers a line that it did not offer before
starts to count, and one on which it offers none counts no more (R179). -/
def Core.aged (e : Env) (c : Core) (r : CpRun) : CpRun :=
  if !cpOnRsv r.op.w then r
  else
    let ls := c.cpLines r.op r.base
    { r with ages := (List.range 16).foldl (fun (t : Tbl Nat) ch =>
      match c.offered r ls ch with
      | none => t.put ch 0 0
      | some _ => if t.look ch 0 = 0 then t.put ch (e.now + 1) 0 else t) r.ages }

/-- The same for every started copy. -/
def Core.ageCopies (e : Env) (c : Core) : Core := { c with cp := { c.cp with running := c.cp.running.map (c.aged e) } }

/-- COPY_START. (DESIGN CHOICE, log entry 17.) -/
def execCopyStart (i : CoreId) (clk : Nat) (s : State) : Out :=
  let e := s.env i
  let (c, r) := Core.cpStart e clk (s.core i)
  let s := s.putCore i (if r.isSome then c.ageCopies e else c)
  match r with
  | none => .next s
  | some r =>
    if opOf r.op.w = 0xC5 then .next (s.pumpPuts i)
    else if opOf r.op.w = 0xC6 then .next (s.sendGets e r)
    else .next s

/-- The deadline of a copy's line, or none for a background line (R178). -/
def Core.deadline (c : Core) (r : CpRun) (ls : List Line) (k clk : Nat) : Option Int :=
  let n := fieldOf r.op.w 14 16
  if n = 0 then none
  else if opOf r.op.w = 0xC3 then some ((clk + (c.feedHeld r.op.w + lineBytes ls r.granted) / n : Nat) : Int)
  else some ((r.clk : Int) + 16 * n - 97 - ceilDiv (ls.length - 1 - k) 8)

/-- A line that waits on a channel: the place of its copy in the list, the copy's slot, the line, its deadline and whether the copy is
promoted there. -/
structure Offer where
  at_ : Nat
  slot : Nat
  line : Nat
  dl : Option Int
  promoted : Bool
  deriving DecidableEq, Repr

/-- The lines that wait on a channel, one for each copy. -/
def Core.offers (c : Core) (ch clk : Nat) : List Offer :=
  c.cp.running.zipIdx.filterMap (fun x =>
    let ls := c.cpLines x.1.op x.1.base
    match c.offered x.1 ls ch with
    | none => none
    | some k => some ⟨x.2, x.1.slot, k, c.deadline x.1 ls k clk, x.1.promoted.contains ch⟩)

/-- The line a channel grants: a promoted one, the earliest deadline with ties to the lower slot, or a background line of the next slot in
cyclic order (R179). -/
def pickLine (last : Nat) (os : List Offer) : Option Offer :=
  let better (a b : Offer) : Bool :=
    match a.dl, b.dl with
    | some x, some y => decide (x < y) || (decide (x = y) && decide (a.slot < b.slot))
    | some _, none => true
    | none, some _ => false
    | none, none => decide ((a.slot + 7 - last) % 8 < (b.slot + 7 - last) % 8)
  let best (os : List Offer) : Option Offer := os.foldl (fun acc o => match acc with
    | none => some o
    | some a => if better o a then some o else some a) none
  let pr := os.filter (fun o => o.promoted && o.dl.isNone)
  if pr.isEmpty then best os else best pr

/-- A channel grants one waiting line (R163, R168, R179): the row opens if another was open, a write of part of a line counts as two in every counter, a line
past its deadline counts as late, and the slot's age on the channel starts again. -/
def Core.grant (e : Env) (ch clk : Nat) (c : Core) : Core :=
  if !e.alive || c.rsv.wiping then c
  else
    match pickLine (c.rsv.lastBg.look ch 7) (c.offers ch clk) with
    | none => c
    | some o =>
      match c.cp.running[o.at_]? with
      | none => c
      | some r =>
        let ls := c.cpLines r.op r.base
        let l := ls.getD o.line ⟨0, []⟩
        let lines := if cpWritesRsv r.op.w && !l.whole then 2 else 1
        let c := (c.rowOpen l.line).bump fCpLinesCount lines
        let c := if o.dl.any (fun d => decide (d < (clk : Int))) then c.bump fCpLateCount lines else c
        let c := if o.dl.isNone then { c with rsv := { c.rsv with lastBg := c.rsv.lastBg.put ch o.slot 7 } } else c
        Core.ageCopies e (c.setRun o.at_ { r with
          waiting := r.waiting.filter (fun k => k != o.line)
          granted := r.granted ++ [o.line]
          promoted := r.promoted.filter (fun x => x != ch)
          ages := r.ages.put ch 0 0 })

/-- RESERVOIR_LINE_GRANT. -/
def execReservoirLineGrant (i : CoreId) (channel : Fin 16) (clk : Nat) (s : State) : Out :=
  .next (s.putCore i (Core.grant (s.env i) channel.val clk (s.core i)))

/-- A background line that has waited promote_age microseconds of its cluster's time promotes its slot on the channel (R179). -/
def Core.promote (e : Env) (slot ch : Nat) (c : Core) : Core :=
  match c.cp.running.findIdx? (fun r => r.slot = slot) with
  | none => c
  | some k =>
    match c.cp.running[k]? with
    | none => c
    | some r =>
      let ls := c.cpLines r.op r.base
      let age := c.fld fCpCtrlPromoteAge
      let since := r.ages.look ch 0
      let old := age != 0 && since != 0 && decide (since - 1 + 1000 * age ≤ e.now)
      if e.alive && old && fieldOf r.op.w 14 16 = 0 && (c.offered r ls ch).isSome && !r.promoted.contains ch then
        (c.bump fCpPromotedCount 1).setRun k { r with promoted := r.promoted ++ [ch], ages := r.ages.put ch (e.now + 1) 0 }
      else c

/-- BACKGROUND_PROMOTION. -/
def execBackgroundPromotion (i : CoreId) (slot : Fin 8) (channel : Fin 16) (s : State) : Out :=
  .next (s.putCore i (Core.promote (s.env i) slot.val channel.val (s.core i)))

/-! ## Delivery (R168, R176, R181) -/

/-- The reservoir words at a list of addresses of one line read by a copy. -/
def Core.rsvWords (e : Env) (pc : Nat) (wsw : Bool) (as : List Nat) (c : Core) : List (Nat × Word × Bool) × Core × Bool :=
  as.foldl (fun (r : List (Nat × Word × Bool) × Core × Bool) a =>
    let (v, c, f) := r.2.1.rsvReadWord e pc false r.2.2 a
    (r.1 ++ [(a, v)], c, f)) ([], c.rowRead as, wsw)

/-- Bytes enter a feed's destination: a port, or the code store from its first index on, a word with any poisoned byte being poisoned. -/
def Core.feedEnter (w : Word) (idx0 moved : Nat) (bs : List (Byte × Bool)) (c : Core) : Core :=
  match cpDest w with
  | 0 => { c with mx := { c.mx with stream := { c.mx.stream with fifo := c.mx.stream.fifo ++ bs } } }
  | 1 => { c with vx := { c.vx with port := { c.vx.port with fifo := c.vx.port.fifo ++ bs } } }
  | _ => bs.zipIdx.foldl (fun (c : Core) x =>
      let n := moved + x.2
      let a := idx0 + n / 8
      let p := x.1.2 || (n % 8 != 0 && c.ctl.codePoison.look a false)
      { c with ctl := { c.ctl with
        code := c.ctl.code.put a (putField (c.ctl.code.look a 0) (8 * (n % 8)) 8 x.1.1.toNat) 0
        codePoison := c.ctl.codePoison.put a p false } }) c

/-- The bytes of a line's parts in order, from words read on its source side. -/
def lineData (l : Line) (ws : List (Nat × Word × Bool)) : List (Byte × Bool) := (partBytes l.parts ws).map (fun x => x.2)

/-- The work of one line delivered: for a feed its bytes enter the port, for a fetch they are written to the well through port 8, for a store
they are read from the well through port 9 and written to the reservoir, for a fill the pattern is written. -/
def Core.deliverLine (e : Env) (r : CpRun) (l : Line) (c : Core) : Core × CpRun :=
  let o := r.op
  let as := partWords l.parts false
  match opOf o.w with
  | 0xC0 =>
    let (ws, c, f) := c.rsvWords e o.pc r.wsw as
    (c.wellWrites e ⟨8, 3, o.pc⟩ (beatWrites (partBytes l.parts ws)), { r with wsw := f })
  | 0xC3 =>
    if cpFromWell o.w then
      let (ws, c, f) := c.wellRead e ⟨15, 3, o.pc⟩ r.wsw as
      (c.feedEnter o.w (fieldOf o.sb 0 13) r.moved (lineData l (List.zip as ws)), { r with wsw := f, moved := r.moved + l.bytes })
    else
      let (ws, c, f) := c.rsvWords e o.pc r.wsw as
      (c.feedEnter o.w (fieldOf o.sb 0 13) r.moved (lineData l ws), { r with wsw := f, moved := r.moved + l.bytes })
  | 0xC1 =>
    let (ws, c, f) := c.wellRead e ⟨9, 3, o.pc⟩ r.wsw as
    (c.rsvWriteLine e l.line (beatWrites (partBytes l.parts (List.zip as ws))), { r with wsw := f })
  | _ =>
    let bs := l.parts.flatMap (fun x => (List.range x.len).map (fun k => (x.dst + k, fillByte o.sa (x.src + k), false)))
    (c.rsvWriteLine e l.line (beatWrites bs), r)

/-- Whether a line may be delivered: it has been granted, and a feed's line is the next in order; a feed from the well takes its next line when
the port has room for it (R176, R177). -/
def Core.mayDeliver (c : Core) (r : CpRun) (k : Nat) (l : Line) : Bool :=
  let first := (r.granted ++ r.waiting).all (fun j => decide (k ≤ j))
  if opOf r.op.w = 0xC3 && cpFromWell r.op.w then r.waiting.contains k && first && decide (l.bytes ≤ c.feedRoom r.op.w)
  else r.granted.contains k && (opOf r.op.w != 0xC3 || first)

/-- A line of the copy in a slot is delivered. -/
def Core.deliver (e : Env) (slot k : Nat) (c : Core) : Core :=
  match c.cp.running.findIdx? (fun r => r.slot = slot) with
  | none => c
  | some j =>
    match c.cp.running[j]? with
    | none => c
    | some r =>
      match (c.cpLines r.op r.base)[k]? with
      | none => c
      | some l =>
        if e.alive && c.mayDeliver r k l then
          let (c, r) := c.deliverLine e r l
          Core.ageCopies e (c.setRun j { r with waiting := r.waiting.filter (fun x => x != k), granted := r.granted.filter (fun x => x != k) })
        else c

/-- RESERVOIR_LINE_DELIVERY. -/
def execReservoirLineDelivery (i : CoreId) (slot : Fin 8) (line : Nat) (s : State) : Out :=
  .next (s.putCore i (Core.deliver (s.env i) slot.val line (s.core i)))

/-! ## Completion (R175, R176) -/

/-- Whether a started copy has done all its work. -/
def Core.cpDone (c : Core) (r : CpRun) : Bool :=
  r.waiting.isEmpty && r.granted.isEmpty && decide (r.awaiting = 0) &&
  (opOf r.op.w != 0xC5 || decide ((c.shape r.op.w).putMessages.length ≤ r.moved))

/-- A copy taken from the list, counted in CP_INSTR and in its counter. -/
def Core.cpRetire (k : Nat) (r : CpRun) (c : Core) : Core :=
  (Core.complete r.op.w { c with cp := { c.cp with running := c.cp.running.eraseIdx k } }).bump fCpInstrCount 1

/-- The started copy at a place of the list completes if its work is done. -/
def Core.cpComplete (e : Env) (k : Nat) (c : Core) : Core :=
  match c.cp.running[k]? with
  | none => c
  | some r => if e.alive && c.cpDone r then c.cpRetire k r else c

/-- COPY_COMPLETION: a cp.rput completes once its last message has left the core (R205). -/
def execCopyCompletion (i : CoreId) (idx : Nat) (s : State) : Out :=
  let e := s.env i
  match (s.core i).cp.running[idx]? with
  | none => .next s
  | some r =>
    if opOf r.op.w = 0xC5 && s.leaving e (cpEp r.op.w) then .next s
    else .next (s.putCore i (Core.cpComplete e idx (s.core i)))

/-! ## Refresh, scrub and sparing (R167, R168, R420) -/

/-- Whether a copy offers a line on a channel, so that the line waits there (R167, R177). -/
def Core.lineWaits (c : Core) (ch : Nat) : Bool :=
  c.cp.running.any (fun r => (c.offered r (c.cpLines r.op r.base) ch).isSome)

/-- Whether a copy line waits for a bank. -/
def Core.bankWaits (c : Core) (ch bank : Nat) : Bool :=
  c.cp.running.any (fun r => cpOnRsv r.op.w &&
    (let ls := c.cpLines r.op r.base
     r.waiting.any (fun k =>
      let b := 64 * (ls.getD k ⟨0, []⟩).line
      rsvChannel b = ch && rsvBank b = bank)))

/-- A bank's refresh falls due: it is postponed, at most eight times, while lines wait for the bank and the controller chooses so, and is
performed otherwise. (DESIGN CHOICE, log entry 20.) -/
def Core.refresh (ch bank : Nat) (postpone : Bool) (c : Core) : Core :=
  let key := 16 * ch + bank
  let n := c.rsv.postponed.look key 0
  if postpone && c.bankWaits ch bank && n < 8 then { c with rsv := { c.rsv with postponed := c.rsv.postponed.put key (n + 1) 0 } }
  else { c with rsv := { c.rsv with postponed := c.rsv.postponed.put key 0 0 } }.bump fRsvRefreshCount 1

/-- RESERVOIR_REFRESH: the reservoir's cluster must have its clock. -/
def execReservoirRefresh (i : CoreId) (channel bank : Fin 16) (postpone : Bool) (s : State) : Out :=
  if s.alive (clusterOfCore i.val) then .next (s.putCore i (Core.refresh channel.val bank.val postpone (s.core i))) else .next s

/-- The next line of the address-order scrub is read, corrected and rewritten while no copy line waits on its channel (R167). (DESIGN CHOICE, log entry 145.) -/
def Core.rsvScrub (e : Env) (c : Core) : Core :=
  let line := c.rsv.scrubNext
  if c.fld fRsvCtrlScrubEn = 0 || c.rsv.wiping || c.lineWaits (rsvChannel (64 * line)) then c
  else
    let c := (lineWords line).foldl (fun (c : Core) a => c.rsvCheck e a) ((c.rowOpen line).rowRead (lineWords line))
    { c with rsv := { c.rsv with scrubNext := if line + 1 = rsvBytes / 64 then 0 else line + 1 } }

/-- Reservoir words whose bits an upset has turned since: each with whether the error is beyond correction (R164). -/
def Core.rsvUpset (upset : List (Nat × Bool)) (c : Core) : Core :=
  { c with rsv := { c.rsv with mem := (upset.filter (fun x => decide (x.1 < rsvBytes / 8))).foldl Mem.upset c.rsv.mem } }

/-- RESERVOIR_SCRUB. -/
def execReservoirScrub (i : CoreId) (upset : List (Nat × Bool)) (s : State) : Out :=
  let s := s.putCore i ((s.core i).rsvUpset upset)
  if s.alive (clusterOfCore i.val) then .next (s.putCore i (Core.rsvScrub (s.env i) (s.core i))) else .next s

/-- Whether a row is to be spared: it has returned an uncorrectable word, or corrected words on the limit's number of reads (R420). -/
def Core.rowFails (limit key : Nat) (c : Core) : Bool := c.rsv.rowUe.look key false || (limit != 0 && decide (limit ≤ c.rsv.rowCe.look key 0))

/-- The spare rows a bank has used. -/
def Core.sparesUsed (ch bank : Nat) (c : Core) : Nat := c.rsv.spares.look (16 * ch + bank) 0

/-- The address of a row, by its key, redirected to the next spare row of its bank, and counted (R420). -/
def Core.redirect (key : Nat) (c : Core) : Core :=
  let n := c.rsv.spares.look (key % 256) 0 + 1
  { c with rsv := { c.rsv with spared := c.rsv.spared.put key n 0, spares := c.rsv.spares.put (key % 256) n 0 } }.bump fRsvRowSparedCount 1

/-- A failing row is copied to a spare row of its bank and its address redirected: corrected words are rewritten, uncorrectable ones carry
poison, and the row's record starts again. While a copy line wants the channel the row waits; with no spare row left it stays in place, and a row that has
reached the limit of corrected errors is reported (R419, R420). -/
def Core.spareRow (e : Env) (limit ch bank row : Nat) (c : Core) : Core :=
  let key := 256 * row + 16 * ch + bank
  if !c.rowFails limit key || c.lineWaits ch then c
  else if 24 ≤ c.sparesUsed ch bank then
    if c.rsv.rowUe.look key false then c
    else
      let c := c.report e .rsvUe (row * 2 ^ 19 + Nat.xor bank (row % 16) * 2 ^ 15 + ch * 2 ^ 6)
      { c with rsv := { c.rsv with rowCe := c.rsv.rowCe.put key 0 0 } }
  else
    let mem := c.rsv.mem.ecc.foldl (fun (m : Mem) x =>
      if rsvRowKey (8 * x.1) = key then
        let m := m.setCheck x.1 .ok
        if x.2 = .ue then m.setPois x.1 true else m
      else m) c.rsv.mem
    { c with rsv := { c.rsv with mem := mem, rowCe := c.rsv.rowCe.put key 0 0, rowUe := c.rsv.rowUe.put key false false } }.redirect key

/-- RESERVOIR_ROW_SPARE. -/
def execReservoirRowSpare (i : CoreId) (channel bank : Fin 16) (row : Fin 320) (s : State) : Out :=
  if s.alive (clusterOfCore i.val) then
    let c := Core.spareRow (s.env i) (s.fld fRstRepairCtrlRsvCeLimit) channel.val bank.val row.val (s.core i)
    let done := decide (c.sparesUsed channel.val bank.val ≠ (s.core i).sparesUsed channel.val bank.val)
    let s := s.putCore i c
    .next (if done then s.noteFrom (clusterOfCore i.val) (.repairEntry (rowEntry i.val channel.val bank.val row.val) false) else s)
  else .next s

end Sys2Proof.Machine
end

