-- ==== Sys2Proof/Machine/Matrix.lean ====
section
/-! DEFINITION. The matrix engine: the hands, the seven instructions at issue, their start, the strokes and their completion (rows MX_HAND
to MATRIX_COMPLETION; R99 to R122, R95 for what each step holds). -/

namespace Sys2Proof.Machine

/-! ## Hands and formats (R99, R100) -/

/-- The rows k of a hand. -/
def handK (h : Nat) : Nat := 128 * 2 ^ (h % 4)

/-- The columns m of a hand. -/
def handM (h : Nat) : Nat := 64 / 2 ^ (h % 4)

/-- The stationary depth k′ for a stationary format: two elements in each nib for MXFP4. -/
def depthOf (fmt h : Nat) : Nat := if fmt = 8 then 2 * handK h else handK h

/-- The group of formats that may meet in the grid. -/
def pairGroup (code : Nat) : Nat :=
  if code = 5 then 1 else if code = 3 || code = 4 then 2 else if code = 1 || code = 2 then 3
  else if code = 9 || code = 10 || code = 11 then 4 else if code = 8 then 5 else 0

/-- Whether the grid takes a format at all. -/
def gridFormat (code : Nat) : Bool := pairGroup code != 0

/-- Whether the pair of stationary format `a` and streamed format `w` is accepted (R100). -/
def pairOk (a w : Nat) : Bool :=
  gridFormat a && (pairGroup a = pairGroup w || (pairGroup a = 3 && pairGroup w = 2))

/-- The bytes of `n` elements of a format. -/
def elemBytes (code n : Nat) : Nat := n * fmtBits code / 8

/-- The scale bytes of `n` elements of a format (R77). -/
def scaleBytes (code n : Nat) : Nat := if isMx code then n / 32 else 0

/-- The elements of a run of bytes, with their scales and poison (R76 to R78). -/
def elemsOf (code n : Nat) (bs scales : List (Byte × Bool)) : List Elem :=
  let w := fmtBits code
  ((unpackElems (bs.map Prod.fst) w n).zipIdx).map (fun x =>
    let lo := w * x.2 / 8
    let p := ((bs.drop lo).take ((w * x.2 + w - 1) / 8 + 1 - lo)).any Prod.snd
    let v := decodeElem code x.1
    if isMx code then
      let sc := scales.getD (x.2 / 32) (0, false)
      ⟨scaleElem v sc.1.toNat, p || sc.2⟩
    else ⟨v, p⟩)

/-! ## What the instructions name -/

/-- aa + sa, formed modulo two to the 32 (R105, R108). -/
def EngOp.base (o : EngOp) : Nat := (o.aa + fieldOf o.sa 0 32) % 2 ^ 32

/-- A rectangle of accumulator rows and columns. -/
structure Rect where
  r0 : Nat
  n : Nat
  c0 : Nat
  w : Nat
  deriving DecidableEq, Repr

/-- Whether two rectangles share an entry. -/
def Rect.meets (a b : Rect) : Bool :=
  decide (a.r0 < b.r0 + b.n) && decide (b.r0 < a.r0 + a.n) && decide (a.c0 < b.c0 + b.w) && decide (b.c0 < a.c0 + a.w)

/-- The rectangle of mx.drain and mx.ldacc, from the word and sb. -/
def drainRect (w sb : Word) : Rect := ⟨fieldOf sb 0 9, fieldOf sb 9 9 + 1, fieldOf w 0 6, 2 ^ fieldOf w 6 3⟩

/-- The accumulator entries an instruction touches (R103). -/
def EngOp.footprint (o : EngOp) : Option Rect :=
  match opOf o.w with
  | 0x82 => if bitOf o.w 26 then none
    else some ⟨fieldOf o.w 0 9, fieldOf o.w 9 9 + 1, 8 * fieldOf o.w 18 3, 8 * (fieldOf o.w 21 3 + 1)⟩
  | 0x83 => some ⟨fieldOf o.w 0 9, fieldOf o.w 9 9 + 1, fieldOf o.w 18 3 * handM o.hand, handM o.hand⟩
  | 0x84 => some (drainRect o.w o.sb)
  | 0x86 => some (drainRect o.w o.sb)
  | _ => none

/-- The output element size of a drain in bytes (R111). -/
def drainSize (w : Word) : Nat := if opOf w = 0x86 then 16 else fmtBits (fieldOf w 9 4) / 8

/-- Whether a drain or a load of records lies column-major (R111). -/
def drainColumns (w : Word) : Bool := if opOf w = 0x86 then bitOf w 9 else bitOf w 18

/-- The byte address of entry (r, c) of a drain, both counted from the rectangle's corner (R111). -/
def drainByte (w : Word) (aa ld r c : Nat) : Nat :=
  if drainColumns w then 8 * aa + 8 * ld * c + drainSize w * r else 8 * aa + 8 * ld * r + drainSize w * c

/-- The runs of words a drain or a load of records touches: their bytes, and how many there are. -/
def drainRun (w sb : Word) : Nat × Nat :=
  let t := drainRect w sb
  if drainColumns w then (t.n * drainSize w, t.w) else (t.w * drainSize w, t.n)

/-! ## The checks at issue (R102) -/

/-- The reserved fields of mx.hand. -/
def resvMxHand (w : Word) : Bool := resvE w false false false false || nz w 2 28

/-- The reserved fields and values of mx.load: a format the grid takes, and for the port no register. -/
def resvMxLoad (w : Word) : Bool :=
  let well := !bitOf w 5
  resvE w well well well (well && isMx (fieldOf w 0 4)) || nz w 12 18 || !gridFormat (fieldOf w 0 4)

/-- The reserved fields and values of mx.anchor. -/
def resvMxAnchor (w : Word) : Bool :=
  resvE w (fieldOf w 24 2 != 1) false false false || fieldOf w 24 2 = 3 || nz w 27 3 ||
    (if bitOf w 26 then nz w 0 24 else decide (512 < fieldOf w 0 9 + fieldOf w 9 9 + 1) || decide (8 < fieldOf w 18 3 + fieldOf w 21 3 + 1))

/-- The reserved fields and values of mx.stream. -/
def resvMxStream (w : Word) : Bool :=
  let well := fieldOf w 26 2 != 1
  resvE w well false well (well && isMx (fieldOf w 21 4)) || fieldOf w 26 2 = 3 || nz w 28 2 || !gridFormat (fieldOf w 21 4) ||
    decide (512 < fieldOf w 0 9 + fieldOf w 9 9 + 1)

/-- Columns of a drain that are not aligned or pass the last (R102). -/
def badColumns (w : Word) : Bool :=
  let n := 2 ^ fieldOf w 6 3
  fieldOf w 0 6 % n != 0 || decide (64 < fieldOf w 0 6 + n)

/-- The reserved fields and values of mx.drain. -/
def resvMxDrain (w : Word) : Bool :=
  resvE w (fieldOf w 13 3 = 5) true true false || fieldOf w 6 3 = 7 || decide (8 ≤ fieldOf w 9 4) || decide (6 ≤ fieldOf w 13 3) || nz w 19 11 ||
    badColumns w || (bitOf w 17 && decide (fieldOf w 6 3 < 3))

/-- The reserved fields of mx.flags. -/
def resvMxFlags (w : Word) : Bool := resvE w true false false false || nz w 6 24

/-- The reserved fields and values of mx.ldacc. -/
def resvMxLdacc (w : Word) : Bool := resvE w false true true false || fieldOf w 6 3 = 7 || nz w 10 20 || badColumns w

/-- No check. -/
def checkNone (_ : Env) (_ : Word) (_ : Core) : Option (Nat × Nat) := none

/-- An illegal-encoding trap where `b` holds. -/
def illegalIf (b : Bool) (w : Word) (rest : Option (Nat × Nat)) : Option (Nat × Nat) := if b then some (1, freeDetail 1 w) else rest

/-- An address-range trap where a run of words leaves the well, or where `tight` says a stride is too small. -/
def rangeIf (tight : Bool) (w : Word) (rs : List (Nat × Nat)) : Option (Nat × Nat) :=
  if beyond (2 ^ 19) rs then some (5, rangeDetail w (2 ^ 19) rs) else if tight then some (5, freeDetail 5 w) else none

/-- The runs of words mx.load reads from the well (R105). -/
def loadRuns (o : EngOp) : List (Nat × Nat) :=
  let fmt := fieldOf o.w 0 4
  let k := depthOf fmt o.hand
  let u := fieldOf o.w 6 6 + 1
  let sc := u * scaleBytes fmt k
  (List.range u).map (fun j => (o.base + j * fieldOf o.sb 0 20, elemBytes fmt k / 8)) ++ [(o.ab, ceilDiv sc 8)]

/-- A width of mx.load that the hand in force does not have. -/
def earlyMxLoad (w : Word) (c : Core) : Bool := decide (handM c.mx.ctlHand < fieldOf w 6 6 + 1)

/-- The checks of mx.load. -/
def checkMxLoad (e : Env) (w : Word) (c : Core) : Option (Nat × Nat) :=
  let o := c.engOp e w
  if bitOf w 5 then none
  else rangeIf (decide (1 < fieldOf w 6 6 + 1) &&
    decide (fieldOf o.sb 0 20 < elemBytes (fieldOf w 0 4) (depthOf (fieldOf w 0 4) c.mx.ctlHand) / 8)) w (loadRuns o)

/-- The element bytes of one stroke that come from the well: all, none, or the first half (R108). -/
def strokeWell (w : Word) (s : Nat) : Nat :=
  match fieldOf w 26 2 with
  | 0 => s
  | 2 => s / 2
  | _ => 0

/-- The element bytes S of one stroke of mx.stream (R108). -/
def EngOp.strokeElems (o : EngOp) : Nat := elemBytes (fieldOf o.w 21 4) (depthOf o.fmt o.hand)

/-- The scale bytes of one stroke. -/
def EngOp.strokeScales (o : EngOp) : Nat := scaleBytes (fieldOf o.w 21 4) (depthOf o.fmt o.hand)

/-- The bytes one stroke takes from the stream port. -/
def EngOp.strokePort (o : EngOp) : Nat :=
  match fieldOf o.w 26 2 with
  | 1 => o.strokeElems + o.strokeScales
  | 2 => o.strokeElems / 2
  | _ => 0

/-- The runs of words mx.stream reads from the well. -/
def streamRuns (o : EngOp) : List (Nat × Nat) :=
  if fieldOf o.w 26 2 = 1 then []
  else
    let n := fieldOf o.w 9 9 + 1
    [(o.base, n * strokeWell o.w o.strokeElems / 8), (o.ab, ceilDiv (n * o.strokeScales) 8)]

/-- A column group that the hand in force does not have, and, for a plane that is loaded, a format that its own does not go with or a split feed whose
stroke does not halve. -/
def earlyMxStream (w : Word) (c : Core) : Bool :=
  let a := c.mx.ctlFmt[fieldOf w 25 1]!
  let f := fieldOf w 21 4
  decide (64 / handM c.mx.ctlHand ≤ fieldOf w 18 3) ||
    (c.mx.ctlValid[fieldOf w 25 1]! && (!pairOk a f || (fieldOf w 26 2 = 2 && elemBytes f (depthOf a c.mx.ctlHand) % 16 != 0)))

/-- The checks of mx.stream. -/
def checkMxStream (e : Env) (w : Word) (c : Core) : Option (Nat × Nat) :=
  if !(c.mx.ctlValid[fieldOf w 25 1]!) then some (4, freeDetail 4 w) else rangeIf false w (streamRuns (c.engOp e w))

/-- The checks of mx.drain and mx.ldacc; the rows and the length of a run depend on sb. -/
def checkRect (e : Env) (w : Word) (c : Core) : Option (Nat × Nat) :=
  let o := c.engOp e w
  let t := drainRect w o.sb
  let (run, k) := drainRun w o.sb
  let ld := fieldOf o.sb 18 20
  illegalIf (decide (512 < t.r0 + t.n) || run % 8 != 0) w
    (rangeIf (decide (1 < k) && decide (8 * ld < run)) w ((List.range k).map (fun i => (o.aa + ld * i, run / 8))))

/-! ## Issue -/

/-- The matrix queue holds eight (R56). -/
def Core.mxFull (c : Core) : Bool := decide (8 ≤ c.mx.queue.length)

/-- An instruction enters the matrix queue. -/
def mxPut (o : EngOp) (c : Core) : Core := { c with mx := { c.mx with queue := c.mx.queue ++ [o] } }

/-- mx.hand at issue names the hand and clears both valid bits (R102). -/
def mxPutHand (o : EngOp) (c : Core) : Core :=
  mxPut o { c with mx := { c.mx with ctlHand := fieldOf o.w 0 2, ctlValid := Vector.replicate 2 false } }

/-- mx.load at issue sets its plane's valid bit, format and width (R102). -/
def mxPutLoad (o : EngOp) (c : Core) : Core :=
  let p := fieldOf o.w 4 1
  mxPut o { c with mx := { c.mx with
    ctlValid := c.mx.ctlValid.set! p true
    ctlFmt := c.mx.ctlFmt.set! p (fieldOf o.w 0 4)
    ctlU := c.mx.ctlU.set! p (fieldOf o.w 6 6 + 1) } }

/-- mx.hand. -/
def execMxHand (i : CoreId) (w : Word) (s : State) : Out :=
  issueRow 0x80 1 resvMxHand (engIssue 1 false false false checkNone Core.mxFull mxPutHand) i.val w s

/-- What mx.load does at issue: from the well it reads sa and sb. -/
def workMxLoad (e : Env) (w : Word) (c : Core) : Issue :=
  engIssue 1 (!bitOf w 5) (!bitOf w 5) false checkMxLoad Core.mxFull mxPutLoad e w c

/-- mx.load. -/
def execMxLoad (i : CoreId) (w : Word) (s : State) : Out := issueEngine 0x81 1 resvMxLoad earlyMxLoad workMxLoad i.val w s

/-- What mx.anchor does at issue: modes 0 and 2 read sa. -/
def workMxAnchor (e : Env) (w : Word) (c : Core) : Issue :=
  engIssue 1 (fieldOf w 24 2 != 1) false false checkNone Core.mxFull mxPut e w c

/-- mx.anchor. -/
def execMxAnchor (i : CoreId) (w : Word) (s : State) : Out := issueRow 0x82 1 resvMxAnchor workMxAnchor i.val w s

/-- What mx.stream does at issue: sources 0 and 2 read sa. -/
def workMxStream (e : Env) (w : Word) (c : Core) : Issue :=
  engIssue 1 (fieldOf w 26 2 != 1) false false checkMxStream Core.mxFull mxPut e w c

/-- mx.stream. -/
def execMxStream (i : CoreId) (w : Word) (s : State) : Out := issueEngine 0x83 1 resvMxStream earlyMxStream workMxStream i.val w s

/-- What mx.drain does at issue: sb always, sa when it rounds stochastically. -/
def workMxDrain (e : Env) (w : Word) (c : Core) : Issue :=
  engIssue 1 (fieldOf w 13 3 = 5) true false checkRect Core.mxFull mxPut e w c

/-- mx.drain. -/
def execMxDrain (i : CoreId) (w : Word) (s : State) : Out := issueRow 0x84 1 resvMxDrain workMxDrain i.val w s

/-- mx.flags: sa has a write pending until completion (R114). -/
def execMxFlags (i : CoreId) (w : Word) (s : State) : Out :=
  issueRow 0x85 1 resvMxFlags (engIssue 1 false false true checkNone Core.mxFull mxPut) i.val w s

/-- mx.ldacc. -/
def execMxLdacc (i : CoreId) (w : Word) (s : State) : Out :=
  issueRow 0x86 1 resvMxLdacc (engIssue 1 false true false checkRect Core.mxFull mxPut) i.val w s

/-! ## The accumulator file -/

/-- The entry at a row and column. -/
def Matrix.entry (m : Matrix) (r c : Nat) : LsEntry := m.acc.look (64 * r + c) lsZero

/-- The file with an entry set. -/
def Matrix.setEntry (m : Matrix) (r c : Nat) (x : LsEntry) : Matrix := { m with acc := m.acc.put (64 * r + c) x lsZero }

/-- The row-segment at a row. -/
def Matrix.seg (m : Matrix) (r g : Nat) : Segment := m.segs.look (8 * r + g) segReset

/-- The file with a row-segment set. -/
def Matrix.setSeg (m : Matrix) (r g : Nat) (x : Segment) : Matrix := { m with segs := m.segs.put (8 * r + g) x segReset }

/-- The anchor of a row-segment, 0 while it is pending (R107). -/
def Matrix.anchorAt (m : Matrix) (r g : Nat) : Int :=
  match (m.seg r g).anchor with
  | .at a => a
  | .pending _ _ => 0

/-- A row-segment cleared: its eight entries zero, its anchor as given, its checksum range unset (R106, R112). -/
def Matrix.clearSeg (a : Anchor) (m : Matrix) (r g : Nat) : Matrix :=
  ((List.range 8).foldl (fun (m : Matrix) i => m.setEntry r (8 * g + i) lsZero) m).setSeg r g ⟨a, none, 0, false⟩

/-- The row-segments of a rectangle cleared. -/
def Matrix.clearRect (a : Anchor) (t : Rect) (m : Matrix) : Matrix :=
  (List.range t.n).foldl (fun (m : Matrix) i =>
    (List.range (t.w / 8)).foldl (fun (m : Matrix) g => m.clearSeg a (t.r0 + i) (t.c0 / 8 + g)) m) m

/-- A term's integer added to the checksum of a row (R116): `c0` and `w` are the columns that the instruction adds to, and `none` for
the integer adds nothing and marks the range unchecked. A set range that differs, and every range of another row-segment that the columns
enter, is marked unchecked. -/
def Matrix.ckAdd (m : Matrix) (r c0 w : Nat) (q : Option Int) : Matrix :=
  let g := c0 / 8
  let hit := (List.range 8).filter (fun h => h != g && (m.seg r h).ckRange.any (fun x => decide (x.1 < c0 + w) && decide (c0 < x.1 + x.2)))
  let m := hit.foldl (fun (m : Matrix) h => m.setSeg r h { m.seg r h with unchecked := true }) m
  let x := m.seg r g
  let x := match x.ckRange with
    | none => { x with ckRange := some (c0, w) }
    | some y => { x with unchecked := x.unchecked || y != (c0, w) }
  let x := { x with unchecked := x.unchecked || q.isNone || hit != [] }
  m.setSeg r g { x with ckSum := x.ckSum + BitVec.ofInt 96 (q.getD 0) }

/-! ## Starting (R103) -/

/-- Whether a started stream has no stroke left to enter. -/
def MxRun.done (r : MxRun) : Bool := r.ended || decide (fieldOf r.op.w 9 9 + 1 ≤ r.entered)

/-- Whether two instructions' footprints meet. -/
def EngOp.meets (a b : EngOp) : Bool :=
  match a.footprint, b.footprint with
  | some x, some y => x.meets y
  | _, _ => false

/-- The start conditions of R103 for an instruction, over those that have started and not completed. -/
def mxMayStart (running : List MxRun) (o : EngOp) : Bool :=
  let is (k : Nat) (r : MxRun) : Bool := decide (opOf r.op.w = k)
  running.all (fun r => !is 0x80 r) &&
  match opOf o.w with
  | 0x80 => running.isEmpty
  | 0x81 => running.all (fun r => !is 0x81 r && (!is 0x83 r || fieldOf r.op.w 25 1 != fieldOf o.w 4 1 || r.done))
  | 0x82 => running.all (fun r => !o.meets r.op)
  | 0x83 => running.all (fun r =>
      (!is 0x83 r || r.done) && (!is 0x81 r || fieldOf r.op.w 4 1 != fieldOf o.w 25 1) && (is 0x83 r || !o.meets r.op))
  | 0x85 => running.isEmpty
  | _ => running.all (fun r => !is 0x84 r && !is 0x86 r && (is 0x81 r || !o.meets r.op))

/-- The largest exponent of a plane's elements (R87). -/
def Plane.maxExp (p : Plane) : Int :=
  (maxLog2 (p.cols.flatMap (fun col => col.map (fun x => x.v)))).getD (fmtStep p.fmt)

/-- What a pending anchor resolves to at the start of a stream (R87, R107). -/
def resolveStream (p : Plane) (wfmt mode : Nat) (value : Int) : Int :=
  match mode with
  | 0 => value
  | 1 => if formatModeOk p.fmt wfmt then formatAnchor p.fmt wfmt else boundAnchor p.maxExp 0
  | _ => boundAnchor p.maxExp value

/-- The pending anchors of some row-segments of rows resolved. -/
def Matrix.resolve (rows segs : List Nat) (f : Nat → Nat → Nat → Int → Int) (m : Matrix) : Matrix :=
  rows.foldl (fun (m : Matrix) r => segs.foldl (fun (m : Matrix) g =>
    match (m.seg r g).anchor with
    | .pending mode v => m.setSeg r g { m.seg r g with anchor := .at (f r g mode v) }
    | .at _ => m) m) m

/-- The segments that columns `c0` to `c0 + w - 1` lie in. -/
def segsOf (c0 w : Nat) : List Nat := (List.range ((c0 + w - 1) / 8 + 1 - c0 / 8)).map (c0 / 8 + ·)

/-- The record at entry (r, c) of a load of records, by the sixteen bytes read for it. -/
def recordOf (data : List (Byte × Bool)) (k : Nat) : LsEntry × Int :=
  let b := (data.drop (16 * k)).take 16
  lsOfRecord (wordOfBytes ((b.take 8).map Prod.fst)) (wordOfBytes ((b.drop 8).map Prod.fst)) (b.any Prod.snd)

/-- A run just started. -/
def mxRunOf (o : EngOp) : MxRun := ⟨o, 0, false, false, [], 0, 0, 0⟩

/-- The element bytes and the scale bytes of one column of mx.load. -/
def EngOp.loadColumn (o : EngOp) : Nat × Nat :=
  let fmt := fieldOf o.w 0 4
  let k := depthOf fmt o.hand
  (elemBytes fmt k, scaleBytes fmt k)

/-- The bytes of mx.load, elements and scales together (R105). -/
def EngOp.loadBytes (o : EngOp) : Nat := (fieldOf o.w 6 6 + 1) * (o.loadColumn.1 + o.loadColumn.2)

/-- The byte of the well that holds byte `b` of mx.load: column by column, each column's elements and then its scales (R105). (DEDUCED, log entry 14.) -/
def EngOp.loadByte (o : EngOp) (b : Nat) : Nat :=
  let (eb, sb) := o.loadColumn
  let j := b / (eb + sb)
  let i := b % (eb + sb)
  if i < eb then 8 * (o.base + j * fieldOf o.sb 0 20) + i else 8 * o.ab + j * sb + (i - eb)

/-- The beats that a matrix instruction presents to the well, a stream's strokes apart: 256 bytes of a load, or sixteen entries of the drain pipe (R147). -/
def EngOp.mxBeats (o : EngOp) : Nat :=
  match opOf o.w with
  | 0x81 => if bitOf o.w 5 then 0 else ceilDiv o.loadBytes 256
  | 0x84 => ceilDiv ((drainRect o.w o.sb).n * (drainRect o.w o.sb).w) 16
  | 0x86 => ceilDiv ((drainRect o.w o.sb).n * (drainRect o.w o.sb).w) 16
  | _ => 0

/-- The beats that a started instruction has still to present. -/
def MxRun.left (r : MxRun) : Nat := r.op.mxBeats - r.beats

/-- What the start of a matrix instruction does (R104 to R107, R112), with the record of it as running. (DEDUCED, log entry 14.) -/
def Core.mxBegin (o : EngOp) (c : Core) : Core × MxRun :=
  let r := mxRunOf o
  match opOf o.w with
  | 0x80 => ({ c with mx := { c.mx with hand := fieldOf o.w 0 2, planes := Vector.replicate 2 ⟨0, 0, []⟩ } }, r)
  | 0x82 =>
    let mode := fieldOf o.w 24 2
    let v := if mode = 1 then 0 else fieldOf o.sa 0 10
    if bitOf o.w 26 then ((c.setFld fMxAnchorDefMode mode).setFld fMxAnchorDefValue v, r)
    else
      let a : Anchor := if mode = 0 then .at (signedOf 10 v) else .pending mode (signedOf 10 v)
      match o.footprint with
      | some t => ({ c with mx := c.mx.clearRect a t }, r)
      | none => (c, r)
  | 0x83 =>
    let p := c.mx.planes[fieldOf o.w 25 1]!
    let rows := (List.range (fieldOf o.w 9 9 + 1)).map (fieldOf o.w 0 9 + ·)
    ({ c with mx := c.mx.resolve rows (segsOf (fieldOf o.w 18 3 * handM o.hand) p.u) (fun _ _ => resolveStream p (fieldOf o.w 21 4)) }, r)
  | 0x84 => (c, { r with defMode := c.fld fMxAnchorDefMode, defValue := c.fld fMxAnchorDefValue })
  | _ => (c, r)

/-- The oldest queued matrix instruction starts if its conditions hold. -/
def Core.mxStart (e : Env) (c : Core) : Core :=
  match c.mx.queue with
  | [] => c
  | o :: q =>
    if e.alive && mxMayStart c.mx.running o then
      let (c, r) := Core.mxBegin o { c with mx := { c.mx with queue := q } }
      { c with mx := { c.mx with running := c.mx.running ++ [r] } }
    else c

/-- The bytes a load takes from the port in all (R105). -/
def loadPort (o : EngOp) : Nat := if bitOf o.w 5 then o.loadBytes else 0

/-- The bytes of a started load that its port has not given it. -/
def MxRun.wants (r : MxRun) : Nat := if opOf r.op.w = 0x81 then loadPort r.op - r.data.length else 0

/-- A started load from the port takes the bytes that have arrived for it (R105, R190). -/
def Core.mxFeed (e : Env) (c : Core) : Core :=
  match c.mx.running.findIdx? (fun r => decide (0 < r.wants)) with
  | none => c
  | some k =>
    match c.mx.running[k]? with
    | none => c
    | some r =>
      if e.alive then
        let (bs, p) := c.mx.load.take (c.mx.load.avail r.wants)
        { c with mx := { c.mx with load := p, running := c.mx.running.set k { r with data := r.data ++ bs } } }
      else c

/-- MATRIX_START: the port's credits are returned as a load takes its bytes (R196). (DEDUCED, log entry 3.) -/
def execMatrixStart (i : CoreId) (s : State) : Out :=
  let e := s.env i
  .next ((s.putCore i ((Core.mxStart e (s.core i)).mxFeed e)).returnPorts i)

/-! ## Strokes (R101, R108, R116) -/

/-- The elements of stroke `n` of a stream, with the core after its reads and whether it has raised its unwritten-memory event. -/
def Core.stroke (e : Env) (o : EngOp) (n : Nat) (wsw : Bool) (c : Core) : List Elem × Core × Bool :=
  let fmt := fieldOf o.w 21 4
  let k := depthOf o.fmt o.hand
  let acc : Acc := ⟨1, 1, o.pc⟩
  let (bs, p) := c.mx.stream.take o.strokePort
  let c := { c with mx := { c.mx with stream := p } }
  if fieldOf o.w 26 2 = 1 then (elemsOf fmt k (bs.take o.strokeElems) (bs.drop o.strokeElems), c, wsw)
  else
    let wb := strokeWell o.w o.strokeElems
    let (d, c, f) := c.wellBytes e acc wsw (8 * o.base + n * wb) wb
    let (sc, c, f) := c.wellBytes e acc f (8 * o.ab + n * o.strokeScales) o.strokeScales
    (elemsOf fmt k (d ++ bs) sc, c, f)

/-- The terms of one column's elements with a stroke's, added to an entry (R81 to R84). -/
def addColumn (a : Int) (col ws : List Elem) (x : LsEntry) : LsEntry :=
  (List.zip col ws).foldl (fun x y => lsAdd x (lsTermOf (y.1.v.mul y.2.v) a 80 (y.1.poison || y.2.poison))) x

/-- The exact sum of each row's stationary values (R105). -/
def Plane.rowSums (p : Plane) : List Num :=
  match p.cols with
  | [] => []
  | c :: r => r.foldl (fun s col => List.zipWith (fun x y => x.add y.v) s col) (c.map (fun x => x.v))

/-- A finite value. -/
def Num.isFin : Num → Bool
  | .fin _ _ _ => true
  | _ => false

/-- The checksum of a stroke at an anchor: none where it lies out of range or a weight or row sum is not finite (R116). -/
def strokeSum (a : Int) (p : Plane) (ws : List Elem) : Option Int :=
  let cs := p.rowSums
  if ws.all (fun x => x.v.isFin) && cs.all Num.isFin then
    let v := (List.zip ws cs).foldl (fun (s : Num) y => s.add (y.1.v.mul y.2)) (.fin false 0 0)
    let t := lsTermOf v a 95 false
    if t.range then none else some t.q
  else none

/-- A stroke's contribution to its accumulator row and to the row's checksum (R101, R116). (DESIGN CHOICE, log entry 140.) -/
def Matrix.addStroke (m : Matrix) (p : Plane) (row c0 : Nat) (ws : List Elem) : Matrix :=
  let m' := p.cols.zipIdx.foldl (fun (m : Matrix) x =>
    m.setEntry row (c0 + x.2) (addColumn (m.anchorAt row ((c0 + x.2) / 8)) x.1 ws (m.entry row (c0 + x.2)))) m
  m'.ckAdd row c0 p.u (strokeSum (m.anchorAt row (c0 / 8)) p ws)

/-- Whether a running instruction is a stream with a stroke left to enter. -/
def MxRun.streaming (r : MxRun) : Bool := decide (opOf r.op.w = 0x83) && !r.done

/-- The next stroke of the running stream enters once its port bytes are there (R110), MX_STROKES counting it. -/
def Core.strokeEnter (e : Env) (c : Core) : Core :=
  match c.mx.running.findIdx? MxRun.streaming with
  | none => c
  | some k =>
    match c.mx.running[k]? with
    | none => c
    | some r =>
      if e.alive && c.mx.stream.has r.op.strokePort then
        let (ws, c, f) := c.stroke e r.op r.entered r.wsw
        let p := c.mx.planes[fieldOf r.op.w 25 1]!
        let m := c.mx.addStroke p (fieldOf r.op.w 0 9 + r.entered) (fieldOf r.op.w 18 3 * handM r.op.hand) ws
        { c with mx := { m with running := m.running.set k { r with entered := r.entered + 1, wsw := f } } }.bump fMxStrokesCount 1
      else c

/-- STROKE_ENTRY: the port's credits are returned as its bytes are taken (R196), and a feed that had no room may offer its next line (R177). -/
def execStrokeEntry (i : CoreId) (s : State) : Out :=
  let e := s.env i
  .next ((s.putCore i ((Core.strokeEnter e (s.core i)).ageCopies e)).returnPorts i)

/-- A stream whose stroke has waited for port bytes ends with the schedule-breach trap and completes at once (R110). The stroke that waited has added
to no range, so no range is left unchecked for it (R117). -/
def Core.feedTimeout (e : Env) (c : Core) : Core :=
  match c.mx.running.findIdx? MxRun.streaming with
  | none => c
  | some k =>
    match c.mx.running[k]? with
    | none => c
    | some r =>
      if e.alive && !c.mx.stream.has r.op.strokePort then
        let c := c.asyncTrap e 4 r.op.pc 1 (freeDetail 4 r.op.w)
        Core.complete r.op.w { c with mx := { c.mx with running := c.mx.running.eraseIdx k } }
      else c

/-- STREAM_FEED_TIMEOUT. -/
def execStreamFeedTimeout (i : CoreId) (s : State) : Out := .next (s.putCore i (Core.feedTimeout (s.env i) (s.core i)))

/-! ## The drain (R111, R112, R117, R118) -/

/-- What a drain's test finds of a checksum range of a row. -/
inductive CkFound where
  | checked | skipped | mismatch
  deriving DecidableEq, Repr

/-- A range with a tag, a non-finite entry or the unchecked mark is skipped; otherwise its entries' sum is compared (R117). -/
def Matrix.ckTest (m : Matrix) (row g a n : Nat) : CkFound :=
  let xs := (List.range n).map (fun i => m.entry row (a + i))
  let x := m.seg row g
  if x.unchecked || xs.any (fun y => y.spill || y.range || y.poison || decide (y.cls ≠ .finite)) then .skipped
  else if xs.foldl (fun (t : BitVec 96) y => t + y.n) 0 = x.ckSum then .checked else .mismatch

/-- The ranges that lie wholly inside a rectangle, row by row: row, first column, width and what the test finds. -/
def Matrix.ckTests (m : Matrix) (t : Rect) : List (Nat × Nat × Nat × CkFound) :=
  (List.range t.n).flatMap (fun i => (List.range 8).filterMap (fun g =>
    match (m.seg (t.r0 + i) g).ckRange with
    | some (a, n) => if t.c0 ≤ a && a + n ≤ t.c0 + t.w then some (t.r0 + i, a, n, m.ckTest (t.r0 + i) g a n) else none
    | none => none))

/-- One range's test counted, and a mismatch recorded, flagged and reported (R117, R118). -/
def Core.ckCount (e : Env) (c : Core) (x : Nat × Nat × Nat × CkFound) : Core :=
  match x.2.2.2 with
  | .checked => c.bump fMxCkCheckedCount 1
  | .skipped => c.bump fMxCkSkippedCount 1
  | .mismatch =>
    let c := (c.bump fMxCkMismatchCount 1).mxFlag flagPoison
    let d := x.1 + x.2.1 * 2 ^ 9 + e.gen % 256 * 2 ^ 15
    (c.setReg fMxCkLastRow.off (BitVec.ofNat 64 (d + 2 ^ 23))).report e .checksum d

/-- One entry of a drain: its bytes, its flags and its poison (R92, R111). (DESIGN CHOICE, log entry 139.) -/
def drainEntry (e : Env) (o : EngOp) (x : LsEntry) (a : Int) (idx : Nat) : List Byte × BitVec 6 :=
  let fmt := fieldOf o.w 9 4
  let tags := flagIf x.spill flagSpill ||| flagIf x.range flagRange ||| flagIf x.poison flagPoison
  if fmt = 7 then (bytesOfWord (lsWord0 x) ++ bytesOfWord (lsWord1 x a), tags)
  else
    let (v, f) := roundTo fmt (modeOf e.compat (fieldOf o.w 13 3) o.seed o.sa (BitVec.ofNat 64 idx)) (bitOf o.w 16) (lsNum x a)
    (bytesOfNat (drainSize o.w) v, tags ||| f)

/-- Entry `k` of a drain, in order of row, then column: its bytes with their addresses and poison, and the flags it raises (R111, R117). `bad` names what the
drain's checksum test has found. -/
def Core.drainAt (e : Env) (o : EngOp) (bad : List (Nat × Nat × Nat × CkFound)) (k : Nat) (c : Core) : List (Nat × Byte × Bool) × BitVec 6 :=
  let t := drainRect o.w o.sb
  let i := k / t.w
  let j := k % t.w
  let row := t.r0 + i
  let col := t.c0 + j
  let pend := match (c.mx.seg row (col / 8)).anchor with
    | .pending _ _ => true
    | .at _ => false
  let x := if pend then lsZero else c.mx.entry row col
  let (bs, f) := drainEntry e o x (c.mx.anchorAt row (col / 8)) (64 * i + col)
  let p := x.poison || bad.any (fun y => decide (y.2.2.2 = .mismatch) && decide (y.1 = row) && decide (y.2.1 ≤ col) && decide (col < y.2.1 + y.2.2.1))
  let b := drainByte o.w o.aa (fieldOf o.sb 18 20) i j
  (bs.zipIdx.map (fun z => (b + z.2, z.1, p)), f)

/-- The entries of beat `n` of the drain pipe, by their place. -/
def EngOp.beatEntries (o : EngOp) (n : Nat) : List Nat :=
  let t := drainRect o.w o.sb
  (List.range (min 16 (t.n * t.w - 16 * n))).map (16 * n + ·)

/-- The writes of beat `n` of a drain (R147). -/
def Core.drainBeat (e : Env) (o : EngOp) (n : Nat) (c : Core) : List WordWrite :=
  let bad := c.mx.ckTests (drainRect o.w o.sb)
  beatWrites ((o.beatEntries n).flatMap (fun k => (c.drainAt e o bad k).1))

/-- A drain's work at its completion: the checksum test counted, the flags, and the clear under the default anchor sampled at its start (R92, R112, R117). -/
def Core.drain (e : Env) (r : MxRun) (c : Core) : Core :=
  let o := r.op
  let t := drainRect o.w o.sb
  let tests := c.mx.ckTests t
  let f := (List.range (t.n * t.w)).foldl (fun f k => f ||| (c.drainAt e o tests k).2) 0
  let c := (tests.foldl (Core.ckCount e) c).mxFlag f
  if bitOf o.w 17 then { c with mx := c.mx.clearRect (.pending r.defMode (signedOf 10 r.defValue)) t } else c

/-! ## Completion -/

/-- The plane a load's bytes fill: column by column, each column's elements and then its scales (R105). -/
def planeOf (fmt k u : Nat) (data : List (Byte × Bool)) : Plane :=
  let eb := elemBytes fmt k
  let sb := scaleBytes fmt k
  ⟨fmt, u, (List.range u).map (fun j =>
    let d := data.drop (j * (eb + sb))
    elemsOf fmt k (d.take eb) ((d.drop eb).take sb))⟩

/-- The records of mx.ldacc added to their entries and to the checksums, a pending anchor having resolved to that of the first record of its row-segment
(R107, R113, R116). -/
def Matrix.addRecords (m : Matrix) (t : Rect) (data : List (Byte × Bool)) : Matrix :=
  let m := m.resolve ((List.range t.n).map (t.r0 + ·)) (segsOf t.c0 t.w)
    (fun row g _ _ => (recordOf data ((row - t.r0) * t.w + (max t.c0 (8 * g) - t.c0))).2)
  (List.range t.n).foldl (fun (m : Matrix) i => (List.range t.w).foldl (fun (m : Matrix) j =>
    let row := t.r0 + i
    let col := t.c0 + j
    let y := lsRecordTerm (recordOf data (i * t.w + j)) (m.anchorAt row (col / 8))
    (m.setEntry row col (lsAdd (m.entry row col) y)).ckAdd row t.c0 t.w (some y.q)) m) m

/-- Whether a started instruction can complete. A drain does not complete before an mx.flags that is at work: that started before it and takes one
clock (R114), so what it reads is fixed by the instruction stream (R98). -/
def Core.mxReady (c : Core) (r : MxRun) : Bool :=
  match opOf r.op.w with
  | 0x81 => r.wants = 0 && r.left = 0
  | 0x83 => r.done
  | 0x84 => r.left = 0 && c.mx.running.all (fun q => opOf q.op.w != 0x85)
  | _ => r.left = 0

/-- What the completion of a matrix instruction does. -/
def Core.mxFinish (e : Env) (r : MxRun) (c : Core) : Core :=
  let o := r.op
  match opOf o.w with
  | 0x81 =>
    let fmt := fieldOf o.w 0 4
    { c with mx := { c.mx with
      planes := c.mx.planes.set! (fieldOf o.w 4 1) (planeOf fmt (depthOf fmt o.hand) (fieldOf o.w 6 6 + 1) r.data) } }
  | 0x84 => c.drain e r
  | 0x85 =>
    { c with
      ctl := c.ctl.land (eSa o.w) (c.mx.flags.setWidth 64) false
      mx := { c.mx with flags := clearFlags c.mx.flags (fieldOf o.w 0 6) } }
  | 0x86 => { c with mx := c.mx.addRecords (drainRect o.w o.sb) r.data }
  | _ => c

/-- The next beat of a started instruction served by the well: a load reads its bytes, a drain writes its entries (R143, R147). -/
def Core.mxBeat (e : Env) (r : MxRun) (c : Core) : Core × MxRun :=
  let o := r.op
  let n := r.beats
  match opOf o.w with
  | 0x81 =>
    let (bs, c, f) := c.wellBeat e ⟨2, 1, o.pc⟩ r.wsw ((List.range (min 256 (o.loadBytes - 256 * n))).map (fun i => o.loadByte (256 * n + i)))
    (c, { r with data := r.data ++ bs, wsw := f, beats := n + 1 })
  | 0x84 => (c.wellWrites e ⟨3, 1, o.pc⟩ (c.drainBeat e o n), { r with beats := n + 1 })
  | 0x86 =>
    let t := drainRect o.w o.sb
    let as := (o.beatEntries n).flatMap (fun k =>
      let b := drainByte o.w o.aa (fieldOf o.sb 18 20) (k / t.w) (k % t.w)
      (List.range 16).map (b + ·))
    let (bs, c, f) := c.wellBeat e ⟨3, 1, o.pc⟩ r.wsw as
    (c, { r with data := r.data ++ bs, wsw := f, beats := n + 1 })
  | _ => (c, r)

/-- The next beats of the started instruction at a place of the list, as many as it has left of those given. -/
def Core.mxServe (e : Env) (k : Nat) : Nat → Core → Core
  | 0, c => c
  | n + 1, c =>
    match c.mx.running[k]? with
    | none => c
    | some r =>
      if e.alive && 0 < r.left then
        let (c, r) := c.mxBeat e r
        Core.mxServe e k n { c with mx := { c.mx with running := c.mx.running.set k r } }
      else c

/-- The started instruction at a place of the list completes if it can, and counts (R56). -/
def Core.mxComplete (e : Env) (k : Nat) (c : Core) : Core :=
  match c.mx.running[k]? with
  | none => c
  | some r =>
    if e.alive && c.mxReady r then
      Core.complete r.op.w (Core.mxFinish e r { c with mx := { c.mx with running := c.mx.running.eraseIdx k } })
    else c

/-- MATRIX_COMPLETION: the instruction's beats that are due are served, and it completes if it then can. -/
def execMatrixCompletion (i : CoreId) (idx : RunAt) (s : State) : Out :=
  let e := s.env i
  .next ((s.putCore i (Core.mxComplete e idx.idx (Core.mxServe e idx.idx idx.beats (s.core i)))).returnPorts i)

end Sys2Proof.Machine
end

