-- ==== Sys2Proof/Machine/Channel.lean ====
section
/-! DEFINITION. The channel engine: sends, credits, counts and flags, messages landing, combining queues and the owner's side of remote
reads (rows CH_SEND to READ_REPLY_ARRIVAL; R184 to R213, R248). -/

namespace Sys2Proof.Machine

/-! ## Issue (R191, R192) -/

/-- The endpoint an instruction names. -/
def chEp (w : Word) : Nat := fieldOf w 0 6

/-- The reserved fields of ch.send: sb and aa are read; sa is read by a selective send alone, which depends on the ductus. -/
def resvChSend (w : Word) : Bool := resvE w true true true false || nz w 15 15
/-- The reserved fields of ch.credit, and a count of 0. -/
def resvChCredit (w : Word) : Bool := resvE w false false false false || nz w 22 8 || fieldOf w 6 16 = 0
/-- The reserved fields and values of ch.count. -/
def resvChCount (w : Word) : Bool := resvE w true false false false || decide (2 ≤ fieldOf w 6 2) || nz w 8 22
/-- The reserved fields of ch.flags. -/
def resvChFlags (w : Word) : Bool := resvE w true false false false || nz w 6 24

/-- Whether the ductus of a send is selective, so that the send reads its member mask from sa (R191). -/
def Core.selective (c : Core) (w : Word) : Bool := decide (c.duct (chEp w) fChDuctusAKind = 2)

/-- The illegal encodings of ch.send by its ductus (R191, R192). -/
def earlyChSend (w : Word) (c : Core) : Bool :=
  c.duct (chEp w) fChDuctusAEnable = 0 || c.duct (chEp w) fChDuctusBRdWindow = 1 || (!c.selective w && nz w 43 5)

/-- The checks of ch.send: the cores it names lie in the region (R27), and its payload in the well (R192). -/
def checkChSend (e : Env) (w : Word) (c : Core) : Option (Nat × Nat) :=
  let members := if c.selective w then c.selected (chEp w) (c.ctl.s (eSa w)) else []
  firstTrap ([c.ductName e (chEp w)] ++ members.map (fun m => nameCheck e (c.member m fChMemberX) (c.member m fChMemberY)) ++
    [rangeIf false w [(c.ctl.a (eAa w), fieldOf w 6 9 + 1)]])

/-- The illegal encodings of ch.credit by its landing record (R192). -/
def earlyChCredit (w : Word) (c : Core) : Bool :=
  c.land (chEp w) fChLandAEnable = 0 || (c.land (chEp w) fChLandBRetMode = 1 && decide (8 < fieldOf w 6 16))

/-- The check of ch.credit: the core that its returns name lies in the region (R27). Returns over the fabric and to a combining queue name none. -/
def checkChCredit (e : Env) (w : Word) (c : Core) : Option (Nat × Nat) :=
  let n := chEp w
  if c.land n fChLandATarget = 5 || (c.ch.retTo.look n none).isSome then none else nameCheck e (c.land n fChLandBRetX) (c.land n fChLandBRetY)

/-- The illegal encodings of ch.count by its endpoint (R192). -/
def earlyChCount (w : Word) (c : Core) : Bool :=
  if fieldOf w 6 2 = 0 then c.land (chEp w) fChLandAEnable = 0 else c.duct (chEp w) fChDuctusAKind = 2

/-- The channel queue holds thirty-two (R56). -/
def Core.chFull (c : Core) : Bool := decide (32 ≤ c.ch.queue.length)

/-- An instruction enters the channel queue. -/
def chPut (o : EngOp) (c : Core) : Core := { c with ch := { c.ch with queue := c.ch.queue ++ [o] } }

/-- What ch.send does at issue: it reads sb always, and sa when its ductus is selective. -/
def workChSend (e : Env) (w : Word) (c : Core) : Issue :=
  engIssue 4 (c.selective w) true false checkChSend Core.chFull chPut e w c

/-- ch.send. -/
def execChSend (i : CoreId) (w : Word) (s : State) : Out := issueEngine 0xD0 4 resvChSend earlyChSend workChSend i.val w s

/-- ch.credit. -/
def execChCredit (i : CoreId) (w : Word) (s : State) : Out :=
  issueEngine 0xD1 4 resvChCredit earlyChCredit (engIssue 4 false false false checkChCredit Core.chFull chPut) i.val w s

/-- ch.count: sa has a write pending until completion (R195). -/
def execChCount (i : CoreId) (w : Word) (s : State) : Out :=
  issueEngine 0xD2 4 resvChCount earlyChCount (engIssue 4 false false true checkNone Core.chFull chPut) i.val w s

/-- ch.flags: sa has a write pending until completion (R195). -/
def execChFlags (i : CoreId) (w : Word) (s : State) : Out :=
  issueRow 0xD3 4 resvChFlags (engIssue 4 false false true checkNone Core.chFull chPut) i.val w s

/-! ## Start (R193, R196, R197) -/

/-- The payload words of a ch.send. -/
def sendWords (w : Word) : Nat := fieldOf w 6 9 + 1

/-- Whether the engine is still with an earlier send of the core (R193). -/
def State.sending (s : State) (e : Env) : Bool := (s.core e.core).ch.running.any (fun o => opOf o.w = 0xD0 && s.leaving e (chEp o.w))

/-- An instruction leaves the channel queue and runs. -/
def Core.chRun (o : EngOp) (c : Core) : Core :=
  { c with ch := { c.ch with queue := c.ch.queue.drop 1, running := c.ch.running ++ [o] } }

/-- Output credits returned to a combining queue: it holds at most two, and an excess is counted once (R202). -/
def Core.returnOutput (q n : Nat) (c : Core) : Core :=
  let f := fldAt fChCqBOutCredits (16 * q)
  let v := c.fld f + n
  if v ≤ 2 then c.setFld f v else (c.setFld f 2).bump fChCreditExcessCount 1

/-- A ch.credit starts: it returns units, tokens, or output credits of a combining queue (R196, R197, R202). -/
def State.creditStart (s : State) (e : Env) (o : EngOp) : State :=
  let s := s.mapCore e.core (Core.chRun o)
  let c := s.core e.core
  let n := chEp o.w
  let k := fieldOf o.w 6 16
  if c.land n fChLandATarget = 5 then s.setCore e.core (c.returnOutput (c.land n fChLandAQueue) k)
  else if c.land n fChLandBRetMode = 0 then s.sendCredit e n k
  else s.sendTokens e n k

/-- Whether a ch.send names a fabric binding that the supervisor has not set (R208). -/
def State.unbound (s : State) (e : Env) (o : EngOp) : Bool :=
  let c := s.core e.core
  c.duct (chEp o.w) fChDuctusAKind = 3 && (s.bindingOf e c (chEp o.w)).isNone

/-- A send is abandoned: nothing is sent, the trap is raised and the send completes (R194). -/
def State.abandonSend (s : State) (e : Env) (o : EngOp) : State :=
  s.mapCore e.core (fun c =>
    Core.complete o.w ({ c with ch := { c.ch with queue := c.ch.queue.drop 1 } }.asyncTrap e 4 o.pc 4 (freeDetail 4 o.w)))

/-- A ch.send starts: it takes its credits, reads its payload through port 10 and sends its message, or a copy to each selected member
(R193, R199). -/
def State.sendStart (s : State) (e : Env) (o : EngOp) : State :=
  let c := Core.chRun o (s.core e.core)
  let ep := chEp o.w
  let n := sendWords o.w
  let off := fieldOf o.sb 0 19
  let (ws, c, _) := c.wellRead e ⟨10, 4, o.pc⟩ false ((List.range n).map (o.aa + ·))
  let s := s.setCore e.core (c.takeCredits ep n o.sa)
  if c.selective o.w then (c.selected ep o.sa).foldl (fun s m => s.launchMember e ep off ws m) s
  else s.launch e ep off ws

/-- The oldest queued channel instruction starts if it can. -/
def State.chStart (s : State) (e : Env) : State :=
  let c := s.core e.core
  match c.ch.queue with
  | [] => s
  | o :: _ =>
    if !e.alive || s.sending e then s
    else if opOf o.w = 0xD0 then
      if s.unbound e o then s.abandonSend e o
      else if c.creditsFor (chEp o.w) (sendWords o.w) o.sa then s.sendStart e o
      else s
    else if opOf o.w = 0xD1 then s.creditStart e o
    else s.mapCore e.core (Core.chRun o)

/-- CHANNEL_START. -/
def execChannelStart (i : CoreId) (s : State) : Out := .next (s.chStart (s.env i))

/-- Whether the oldest queued instruction is a send that waits for its credits. -/
def State.sendWaits (s : State) (e : Env) : Bool :=
  let c := s.core e.core
  match c.ch.queue with
  | [] => false
  | o :: _ => e.alive && opOf o.w = 0xD0 && !s.sending e && !c.creditsFor (chEp o.w) (sendWords o.w) o.sa

/-- Whether a started cp.rput waits for the credits of its next message. -/
def Core.putWaits (r : CpRun) (c : Core) : Bool :=
  opOf r.op.w = 0xC5 &&
  (match ((c.shape r.op.w).putMessages)[r.moved]? with
    | some m => !c.creditsFor (cpEp r.op.w) m.2.2 0
    | none => false)

/-- SEND_CREDIT_ABANDON (R194): a ch.send, or the cp.rput at a place of the copy list, has waited for credits for the wait limit; with a limit of
0 none is abandoned. (DEDUCED, log entry 21.) -/
def execSendCreditAbandon (i : CoreId) (put : Option Nat) (s : State) : Out :=
  let e := s.env i
  let c := s.core i
  if c.ctl.waitLimit = 0 || !e.alive then .next s
  else match put with
    | none =>
      match c.ch.queue with
      | [] => .next s
      | o :: _ => if s.sendWaits e then .next (s.abandonSend e o) else .next s
    | some k =>
      match c.cp.running[k]? with
      | none => .next s
      | some r =>
        if c.putWaits r then .next (s.putCore i (Core.cpRetire k r (c.asyncTrap e 4 r.op.pc 3 (freeDetail 4 r.op.w)))) else .next s

/-! ## Completion (R193, R195) -/

/-- What the completion of ch.count and ch.flags writes to sa (R195). -/
def Core.chFinish (o : EngOp) (c : Core) : Core :=
  let n := chEp o.w
  if opOf o.w = 0xD2 then
    let v := if fieldOf o.w 6 2 = 0 then c.fld (fldAt fChRxLanded (8 * n)) else c.tx n fChTxCredits
    { c with ctl := c.ctl.land (eSa o.w) (BitVec.ofNat 64 v) false }
  else if opOf o.w = 0xD3 then
    let f := c.cqFlags
    { c with ctl := c.ctl.land (eSa o.w) (f.setWidth 64) false }.setReg fChCqFlagsSpill.off ((clearFlags f (fieldOf o.w 0 6)).setWidth 64)
  else c

/-- CHANNEL_COMPLETION: the started instruction at a place completes; a send does once its last flit has left. -/
def execChannelCompletion (i : CoreId) (idx : Nat) (s : State) : Out :=
  let e := s.env i
  let c := s.core i
  match c.ch.running[idx]? with
  | none => .next s
  | some o =>
    if !e.alive || (opOf o.w = 0xD0 && s.leaving e (chEp o.w)) then .next s
    else .next (s.putCore i (Core.complete o.w ({ c with ch := { c.ch with running := c.ch.running.eraseIdx idx } }.chFinish o)))

/-! ## Packets at their ends -/

/-- The router at the end of a packet's path. -/
def Packet.stop (p : Packet) : Nat × Nat := p.path.getLastD (0, 0)

/-- Where a packet's flits end: at the router where its tree branches, or one place beyond its path, past the last router's local output or the link of a gateway (R242, R248,
R250). -/
def Packet.last (p : Packet) : Nat := p.path.length + (if p.outs.isEmpty then 1 else 0)

/-- Whether every flit of a packet has come to its end. -/
def Packet.atEnd (p : Packet) : Bool := p.flits.all (fun f => decide (p.last ≤ f))

/-- The packet without its place in the mesh. -/
def State.dropPacket (s : State) (k : Nat) : State := { s with mesh := s.mesh.eraseIdx k }

/-- A packet of the mesh whole at its receiving router, with the physical core there. -/
def State.arrived (s : State) (k : Nat) : Option (Packet × Nat) :=
  match s.mesh[k]? with
  | none => none
  | some p =>
    let i := s.physical p.stop.1 p.stop.2
    if p.atEnd && p.outs.isEmpty && s.alive (clusterOfCore i) then some (p, i) else none

/-- Whether a packet's region or generation is not that of its receiving core (R211). -/
def Env.stale (e : Env) (p : Packet) : Bool := !e.inRegion || p.region != e.region || p.gen != e.gen

/-- A stale arrival is counted and nothing else (R211). -/
def State.stale (s : State) (i : Nat) : State := s.mapCore i (fun c => c.bump fChStaleCount 1)

/-- Whether a packet at router `at_` that has been admitted to the branch buffer towards `next` still has flits there, and how many (R248). -/
def State.inBranch (s : State) (at_ : Nat × Nat) (next : Option (Nat × Nat)) (p : Packet) : Nat :=
  match p.group with
  | none => 0
  | some g =>
    if p.path.head? = some at_ && p.path[1]? = next && 1 < (s.treeOuts g at_).length && (next.isSome || p.outs.isEmpty) then
      (p.flits.filter (fun f => decide (f = 1))).length
    else 0

/-- The flits in a branch buffer (R248). -/
def State.branchHolds (s : State) (at_ : Nat × Nat) (next : Option (Nat × Nat)) : Nat :=
  s.mesh.foldl (fun n p => n + s.inBranch at_ next p) 0

/-- MULTICAST_BRANCH_ADMIT (R198, R246, R248): the whole message at a branch router is admitted to one of the outputs still to be served when the
branch buffer of 36 flits has room for all of it, as a packet on that output; the local output lands it. With the last output the packet at
the branch is done. -/
def execMulticastBranchAdmit (idx : Nat) (dir : Fin 5) (s : State) : Out :=
  if s.dev != .up then .next s else
  match s.mesh[idx]?, s.mesh[idx]?.bind (·.group) with
  | some p, some g =>
    let next := if dir.val = 4 then none else some (stepDir p.stop dir.val)
    if p.atEnd && p.outs.contains dir.val && decide (s.branchHolds p.stop next + p.flits.length ≤ 36) then
      let outs := p.outs.filter (fun d => d != dir.val)
      let path := if dir.val = 4 then [p.stop] else p.stop :: s.treeRun g 168 (stepDir p.stop dir.val)
      let q := { p with path := path, flits := p.flits.map (fun _ => 1), outs := [], copy := true }
      let q := if dir.val = 4 then q else s.withOuts q
      let mesh := if outs.isEmpty then s.mesh.eraseIdx idx else s.mesh.set idx { p with outs := outs }
      .next { s with mesh := mesh ++ [q] }
    else .next s
  | _, _ => .next s

/-! ## Landing (R190, R201, R203, R209 to R212) -/

/-- The info of a channel event (R212). -/
def dropInfo (p : Packet) (ep srcEp seq : Nat) : Nat :=
  ep % 64 + p.sx % 128 * 2 ^ 6 + p.sy % 128 * 2 ^ 13 + srcEp % 64 * 2 ^ 20 + seq % 2 ^ 16 * 2 ^ 26

/-- A message is dropped: counted, recorded if no drop is, and told to the core's control unit (R212). -/
def Core.dropMsg (e : Env) (code info : Nat) (c : Core) : Core :=
  let c := c.bump fChDropCount 1
  let c := if c.fld fChDropLastValid = 1 then c
    else c.setReg fChDropLastInfo.off (BitVec.ofNat 64 (info % 2 ^ 43 + code % 256 * 2 ^ 43 + e.gen % 256 * 2 ^ 51 + 2 ^ 59))
  { c with inbound := c.inbound ++ [⟨4, code, info, e.gen⟩] }

/-- A message has landed whole (R190). -/
def Core.landed (ep : Nat) (c : Core) : Core :=
  let c := (c.bump (fldAt fChRxLanded (8 * ep)) 1).bump fChLandedCount 1
  if c.land ep fChLandACountEn = 1 then c.count (c.land ep fChLandACounter) else c

/-- The writes of whole words from a word address on. -/
def wordWrites (a : Nat) (ws : List (Word × Bool)) : List WordWrite :=
  ws.zipIdx.map (fun x => ⟨a + x.2, BitVec.allOnes 8, x.1.1, x.1.2⟩)

/-- The bytes of words with their poison. -/
def wordBytes (ws : List (Word × Bool)) : List (Byte × Bool) := ws.flatMap (fun x => (bytesOfWord x.1).map (fun b => (b, x.2)))

/-- A message lands in the well through port 11; one that would pass the well's end is dropped, with a code the manual does not give. -/
def Core.landWell (e : Env) (ep a info : Nat) (ws : List (Word × Bool)) (c : Core) : Core :=
  if 2 ^ 19 < a + ws.length then c.dropMsg e (Config.dropCode 0).toNat info
  else (c.wellWrites e ⟨11, 4, (Config.trapIndex a).toNat⟩ (wordWrites a ws)).landed ep

/-- Whether a message's bytes at a position fit a port of `cap` bytes without overwriting bytes not taken (R190, R212). -/
def Port.fits (cap pos n : Nat) (p : Port) : Bool :=
  decide ((pos + 2 ^ 32 - p.readPt + n) % 2 ^ 32 ≤ cap) && (List.range n).all (fun k => (p.at (pos + k)).isNone)

/-- A message enters an operand port. -/
def Core.landPort (e : Env) (ep cap pos info : Nat) (ws : List (Word × Bool)) (p : Port) (set : Port → Core) (c : Core) : Core :=
  if p.fits cap pos (8 * ws.length) then (set (p.enter pos (wordBytes ws))).landed ep else c.dropMsg e 3 info

/-- The first slot of a combining queue in the store, and its slot count. -/
def Core.cqSlots (c : Core) (q : Nat) : Nat × Nat := (c.fld (fldAt fChCqAFirst (16 * q)), c.fld (fldAt fChCqASlots (16 * q)) + 1)

/-- The anchor of a combining queue. -/
def Core.cqAnchor (c : Core) (q : Nat) : Int := signedOf 10 (c.fld (fldAt fChCqAAnchor (16 * q)))

/-- The terms a slot of the store holds. -/
def Core.cqTerms (c : Core) (k : Nat) : Nat := c.ch.terms.look k 0

/-- The pairs of words of records. -/
def recordsOf : List (Word × Bool) → List (LsEntry × Int)
  | a :: b :: r => lsOfRecord a.1 b.1 (a.2 || b.2) :: recordsOf r
  | _ => []

/-- Records are added to slots from `k` on, each counted as a term (R88, R201). -/
def Core.cqAdd (anchor : Int) (k : Nat) (rs : List (LsEntry × Int)) (c : Core) : Core :=
  rs.zipIdx.foldl (fun (c : Core) x =>
    let n := k + x.2
    { c with ch := { c.ch with
      store := c.ch.store.put n (lsAdd (c.ch.store.look n lsZero) (lsRecordTerm x.1 anchor)) lsZero
      terms := c.ch.terms.put n (c.ch.terms.look n 0 + 1) 0 } }) c

/-- A contribution reaches a combining queue: dropped when it is odd or passes the last slot, or when a slot it reaches is full (R201, R203). -/
def Core.contribute (e : Env) (ep q off info : Nat) (ws : List (Word × Bool)) (c : Core) : Core :=
  let (first, slots) := c.cqSlots q
  let f := off % 2 ^ 11
  let rs := recordsOf ws
  if ws.length % 2 = 1 || slots < f + rs.length then c.dropMsg e 5 info
  else if (List.range rs.length).any (fun j => decide (c.fld (fldAt fChCqAExpect (16 * q)) ≤ c.cqTerms (first + f + j))) then c.dropMsg e 4 info
  else (c.cqAdd (c.cqAnchor q) (first + f) rs).landed ep

/-- A channel message lands at its receiving half, by its target (R186, R189, R210). -/
def Core.landMessage (e : Env) (p : Packet) (ep srcEp seq pos off : Nat) (ws : List (Word × Bool)) (c : Core) : Core :=
  let info := dropInfo p ep srcEp seq
  let base := c.land ep fChLandABase
  let size := c.land ep fChLandASize
  let slot := c.land ep fChLandASlot + 1
  if c.land ep fChLandAEnable = 0 then c.dropMsg e 1 info
  else match c.land ep fChLandATarget with
    | 0 => if size < off + ws.length then c.dropMsg e 2 info else c.landWell e ep (base + off) info ws
    | 1 => if slot < ws.length then c.dropMsg e 2 info else c.landWell e ep (base + seq % (size / slot) * slot) info ws
    | 2 => c.landPort e ep (2 ^ 14) pos info ws c.mx.load (fun p => { c with mx := { c.mx with load := p } })
    | 3 => c.landPort e ep (2 ^ 15) pos info ws c.mx.stream (fun p => { c with mx := { c.mx with stream := p } })
    | 4 => c.landPort e ep (2 ^ 14) pos info ws c.vx.port (fun p => { c with vx := { c.vx with port := p } })
    | 5 => c.contribute e ep (c.land ep fChLandAQueue) off info ws
    | t => c.dropMsg e (Config.dropCode t).toNat info

/-- The contributors to a queue's round with one more core of another device. -/
def Core.contributor (q : Nat) (x : Nat × Nat × Nat × Nat) (c : Core) : Core :=
  let l := c.ch.contrib.look q []
  if l.contains x then c else { c with ch := { c.ch with contrib := c.ch.contrib.put q (l ++ [x]) [] } }

/-- A message landed whole that came over the fabric: the returns of its receiving half go to its sender, and a combining queue remembers the core that
contributed (R202, R208). -/
def Core.heard (p : Packet) (ep : Nat) (was : Nat) (c : Core) : Core :=
  if c.fld fChLandedCount = was then c
  else
    let c := { c with ch := { c.ch with retTo := c.ch.retTo.put ep p.dev none } }
    match p.dev with
    | some (d, r) => if c.land ep fChLandATarget = 5 then c.contributor (c.land ep fChLandAQueue) (d, r, p.sx, p.sy) else c
    | none => c

/-- MESSAGE_ARRIVAL: the message of a packet that has arrived whole. -/
def execMessageArrival (idx : Nat) (s : State) : Out :=
  match s.arrived idx with
  | none => .next s
  | some (p, i) =>
    match p.body with
    | .message ep srcEp seq pos off ws =>
      let e := s.env i
      let s := s.dropPacket idx
      if s.aged p then .next s.ageDrop
      else if e.stale p then .next (s.stale i)
      else if (s.core i).well.wiping then .next s
      else
        let c := s.core i
        .next ((s.putCore i (((Core.landMessage e p ep srcEp seq pos off ws c).heard p ep (c.fld fChLandedCount)).mxFeed e)).returnPorts i)
    | _ => .next s

/-! ## Combining rounds (R202, R204) -/

/-- Whether every slot of an enabled queue holds its expected terms. -/
def Core.cqFull (q : Nat) (c : Core) : Bool :=
  let (first, slots) := c.cqSlots q
  c.fld (fldAt fChCqAEnable (16 * q)) = 1 &&
  (List.range slots).all (fun j => decide (c.cqTerms (first + j) = c.fld (fldAt fChCqAExpect (16 * q))))

/-- The two words of a slot's record. -/
def Core.cqRecord (q k : Nat) (c : Core) : List (Word × Bool) :=
  let x := c.ch.store.look ((c.cqSlots q).1 + k) lsZero
  [(lsWord0 x, x.poison), (lsWord1 x (c.cqAnchor q), x.poison)]

/-- The flags that the records of a round set (R204). -/
def cqOutFlags (xs : List LsEntry) : BitVec 6 :=
  flagIf (xs.any (·.spill)) flagSpill ||| flagIf (xs.any (·.range)) flagRange ||| flagIf (xs.any (fun x => decide (x.cls = .nan))) flagNanOut |||
    flagIf (xs.any (·.poison)) flagPoison

/-- The round ends: its flags, cleared slots, the next round, the grant through the return group and to each core of another device that contributed, and
the count (R202, R208). -/
def State.cqEnd (s : State) (e : Env) (q : Nat) : State :=
  let c := s.core e.core
  let (first, slots) := c.cqSlots q
  let c := c.cqFlag (cqOutFlags ((List.range slots).map (fun k => c.ch.store.look (first + k) lsZero)))
  let own (k : Nat) : Bool := decide (first ≤ k) && decide (k < first + slots)
  let far := c.ch.contrib.look q []
  let c := { c with ch := { c.ch with
    contrib := c.ch.contrib.put q [] []
    store := c.ch.store.clear own
    terms := c.ch.terms.clear own
    closing := c.ch.closing.put q 0 0 } }
  let c := c.bump (fldAt fChCqBRound (16 * q)) 1
  let c := if c.fld (fldAt fChCqBCountEn (16 * q)) = 1 then c.count (c.fld (fldAt fChCqBCounter (16 * q))) else c
  let s := (s.setCore e.core c).injectTree e (c.fld (fldAt fChCqAGroup (16 * q))) 1 (.grant (c.fld (fldAt fChCqBRetEp (16 * q))))
  far.foldl (fun (s : State) x => s.returnFar e (x.1, x.2.1) 2 x.2.2.1 x.2.2.2 (.grant (c.fld (fldAt fChCqBRetEp (16 * q))))) s

/-- The records of a round written to the half of the output area that the round selects, eight to a beat, through port 11 (R202). -/
def Core.cqWrite (e : Env) (q : Nat) (c : Core) : Core :=
  let slots := (c.cqSlots q).2
  let a := c.fld (fldAt fChCqBOutBase (16 * q)) + c.fld (fldAt fChCqBRound (16 * q)) % 2 * (2 * slots)
  let c := c.setFld (fldAt fChCqBOutCredits (16 * q)) (c.fld (fldAt fChCqBOutCredits (16 * q)) - 1)
  c.wellWrites e ⟨11, 4, (Config.trapIndex a).toNat⟩ (wordWrites a ((List.range slots).flatMap (fun k => c.cqRecord q k)))

/-- A round that forwards sends its records in messages of at most 256, each when the forwarding endpoint has its credits (R202). -/
def State.cqForward (e : Env) (q : Nat) : Nat → State → State
  | 0, s => s
  | fuel + 1, s =>
    let c := s.core e.core
    let slots := (c.cqSlots q).2
    let done := c.ch.closing.look q 0
    let n := min 256 (slots - done)
    let ep := c.fld (fldAt fChCqAFwdEp (16 * q))
    let unset := c.duct ep fChDuctusAKind = 3 && (s.bindingOf e c ep).isNone
    if n = 0 || unset || c.duct ep fChDuctusAKind = 2 || !c.creditsFor ep (2 * n) 0 then s
    else
      let ws := (List.range n).flatMap (fun k => c.cqRecord q (done + k))
      let c := c.takeCredits ep (2 * n) 0
      let c := { c with ch := { c.ch with closing := c.ch.closing.put q (done + n) 0 } }
      State.cqForward e q fuel ((s.setCore e.core c).launch e ep done ws)

/-- COMBINING_ROUND_CLOSE (R202): a full queue writes its records once it holds an output credit, or forwards those its credits allow, and the
round ends once every record has left. (DEDUCED, log entry 27.) -/
def execCombiningRoundClose (i : CoreId) (queue : Fin 16) (s : State) : Out :=
  let e := s.env i
  let c := s.core i
  let q := queue.val
  if !e.alive || !c.cqFull q then .next s
  else if c.fld (fldAt fChCqAOutMode (16 * q)) = 0 then
    if c.fld (fldAt fChCqBOutCredits (16 * q)) = 0 then .next s
    else .next ((s.setCore i (c.cqWrite e q)).cqEnd e q)
  else
    let s := State.cqForward e q 8 s
    let c := s.core i
    if c.ch.closing.look q 0 = (c.cqSlots q).2 && !s.leaving e (c.fld (fldAt fChCqAFwdEp (16 * q))) then .next (s.cqEnd e q) else .next s

/-! ## Credits arriving (R196, R197, R199, R202) -/

/-- Units reach the credits of a sending half, capped at its initial credits, an excess counted (R196). -/
def Core.addCredits (ep n : Nat) (c : Core) : Core :=
  let top := c.duct ep fChDuctusACredits
  let v := c.tx ep fChTxCredits + n
  if v ≤ top then c.setTx ep fChTxCredits v else (c.setTx ep fChTxCredits top).bump fChCreditExcessCount 1

/-- Units reach the member entry of a selective half that names the returning receiving half (R199). -/
def Core.addMember (ep n x y from_ : Nat) (c : Core) : Core :=
  let top := c.duct ep fChDuctusACredits
  let ms := (List.range (c.duct ep fChDuctusBMembers + 1)).map (c.duct ep fChDuctusBFirstMember + ·)
  match ms.find? (fun m => decide (c.member m fChMemberX = x) && decide (c.member m fChMemberY = y) && decide (c.member m fChMemberEp = from_)) with
  | none => c
  | some m =>
    let v := c.member m fChMemberCredits + n
    if v ≤ top then c.setMember m fChMemberCredits v else (c.setMember m fChMemberCredits top).bump fChCreditExcessCount 1

/-- CREDIT_RETURN_ARRIVAL. (DEDUCED, log entry 25.) -/
def execCreditReturnArrival (idx : Nat) (s : State) : Out :=
  match s.arrived idx with
  | none => .next s
  | some (p, i) =>
    match p.body with
    | .credit ep srcEp n =>
      let e := s.env i
      let s := s.dropPacket idx
      if s.aged p then .next s.ageDrop
      else if e.stale p then .next (s.stale i)
      else if (s.core i).well.wiping then .next s
      else
        let c := s.core i
        let c := if c.duct ep fChDuctusAKind = 2 then c.addMember ep n p.sx p.sy srcEp else c.addCredits ep n
        .next ((s.setCore i c).pumpPuts i)
    | _ => .next s

/-- The batches that every member has finished with are released in order (R197). -/
def Core.releaseBatches (ep : Nat) : Nat → Core → Core
  | 0, c => c
  | fuel + 1, c =>
    let t := c.ch.tokens.look ep tokensReset
    let size := c.duct ep fChDuctusBGroupSize
    if size != 0 && decide (size ≤ t.counters.getD (t.next % 8) 0) then
      let t := { t with counters := t.counters.set (t.next % 8) 0, next := t.next + 1 }
      let c := { c with ch := { c.ch with tokens := c.ch.tokens.put ep t tokensReset } }
      Core.releaseBatches ep fuel (c.addCredits ep (c.duct ep fChDuctusBBatch))
    else c

/-- A batch token counts toward its batch (R197). -/
def Core.addToken (ep b : Nat) (c : Core) : Core :=
  let t := c.ch.tokens.look ep tokensReset
  let t := { t with counters := t.counters.set (b % 8) (t.counters.getD (b % 8) 0 + 1) }
  Core.releaseBatches ep 8 { c with ch := { c.ch with tokens := c.ch.tokens.put ep t tokensReset } }

/-- BATCH_TOKEN_ARRIVAL. -/
def execBatchTokenArrival (idx : Nat) (s : State) : Out :=
  match s.arrived idx with
  | none => .next s
  | some (p, i) =>
    match p.body with
    | .token ep b =>
      let e := s.env i
      let s := s.dropPacket idx
      if s.aged p then .next s.ageDrop
      else if e.stale p then .next (s.stale i)
      else if (s.core i).well.wiping then .next s
      else .next ((s.mapCore i (Core.addToken ep b)).pumpPuts i)
    | _ => .next s

/-- COMBINING_GRANT_ARRIVAL: the sending half adds the batch of its own ductus (R202). -/
def execCombiningGrantArrival (idx : Nat) (s : State) : Out :=
  match s.arrived idx with
  | none => .next s
  | some (p, i) =>
    match p.body with
    | .grant ep =>
      let e := s.env i
      let s := s.dropPacket idx
      if s.aged p then .next s.ageDrop
      else if e.stale p then .next (s.stale i)
      else if (s.core i).well.wiping then .next s
      else
        let c := s.core i
        .next ((s.setCore i (c.addCredits ep (c.duct ep fChDuctusBBatch))).pumpPuts i)
    | _ => .next s

/-! ## Reads of a window (R206, R207) -/

/-- A reply leaves the owner for a requester: on VC 2 inside the device, over the fabric otherwise (R206, R245). -/
def State.reply (s : State) (e : Env) (r : ReadFrom) (ws : List (Nat × Word × Bool)) : State :=
  let b : Body := .readReply r.slot ws
  match r.dev with
  | none => s.inject e 2 (xFirst (e.x, e.y) (r.x, r.y)) (flitsOf ws.length) b
  | some (d, g) => s.injectFabric e ⟨d, g, r.gen, r.x, r.y, 0, 1⟩ 1 4 (8 * ws.length) b

/-- The units of a request in address order: each aligned group of 16 words with the words of it asked for. -/
def readUnits (base : Nat) (ws : List (Nat × Nat)) : List (Nat × List (Nat × Nat)) :=
  let abs := ws.map (fun x => (base + x.1, x.2))
  ((abs.map (fun x => x.1 / 16)).eraseDups).map (fun g => (g, abs.filter (fun x => x.1 / 16 = g)))

/-- A unit joins its twin in the read queue, or takes a place in it; with the queue full it does neither (R207). -/
def Core.enterUnit (g : Nat) (r : ReadFrom) (c : Core) : Option Core :=
  match c.ch.readQ.findIdx? (fun u => u.group = g) with
  | some k =>
    let q := c.ch.readQ.modify k (fun u => { u with reqs := u.reqs ++ [r] })
    some ({ c with ch := { c.ch with readQ := q } }.bump fChMergedCount 1)
  | none =>
    if c.ch.readQ.length < 32 then some { c with ch := { c.ch with readQ := c.ch.readQ ++ [⟨g, [r]⟩] } } else none

/-- The units of a request enter the read queue in order, as far as it has room; what is left waits in the mesh (R207). -/
def Core.enterUnits (r : ReadFrom) : List (Nat × List (Nat × Nat)) → Core → Core × List (Nat × Nat)
  | [], c => (c, [])
  | (g, ws) :: rest, c =>
    match c.enterUnit g { r with words := ws } with
    | some c => Core.enterUnits r rest c
    | none => (c, ((g, ws) :: rest).flatMap (fun x => x.2))

/-- The requester of a packet: its device and region if it came over the fabric, and its core. -/
def State.requester (p : Packet) (slot gen : Nat) : ReadFrom :=
  { dev := p.dev, x := if p.dev.isSome then p.sx else p.src.1, y := if p.dev.isSome then p.sy else p.src.2
    slot := slot, region := p.region, gen := gen, words := [], wsw := p.raised }

/-- The units of a fabric request that find the read queue full go back at once on VC 3 to the inbound gateway, which keeps each to present it again
(R324). -/
def State.returnUnits (s : State) (g : Nat) (p : Packet) (ep srcEp slot gen base : Nat) (ws : List (Nat × Nat)) : State :=
  let us := ((ws.map (fun x => x.1 / 16)).eraseDups).map (fun u => (ws.filter (fun x => x.1 / 16 = u)).map (fun x => (x.1 - base, x.2)))
  let here := p.stop
  let path := xFirst here (attach g here)
  { s with mesh := s.mesh ++ us.map (fun w => { p with src := here, path := path, flits := [0], body := .back ep srcEp slot gen w, copy := false }) }

/-- READ_REQUEST_ARRIVAL (R206, R207, R212): the request is split into units; those outside the window return poisoned zeros and drop the
request, and the others enter the read queue. Window-relative words become well words, so the packet that waits for room names well words of a
window at 0: its words are kept relative. -/
def execReadRequestArrival (idx : Nat) (s : State) : Out :=
  match s.arrived idx with
  | none => .next s
  | some (p, i) =>
    match p.body with
    | .readReq ep srcEp slot gen ws =>
      let e := s.env i
      let c := s.core i
      let info := dropInfo p ep srcEp (Config.readSeq srcEp).toNat
      let base := c.land ep fChLandABase
      let size := c.land ep fChLandASize
      if s.aged p then .next (s.dropPacket idx).ageDrop
      else if e.stale p then .next ((s.dropPacket idx).stale i)
      else if c.well.wiping then .next (s.dropPacket idx)
      else if c.land ep fChLandAEnable = 0 then .next ((s.dropPacket idx).putCore i (c.dropMsg e 1 info))
      else if c.land ep fChLandATarget != 6 then .next ((s.dropPacket idx).putCore i (c.dropMsg e (Config.dropCode 6).toNat info))
      else
        let r := State.requester p slot gen
        let us := readUnits base ws
        let out (u : Nat × List (Nat × Nat)) : Bool := u.2.any (fun x => decide (base + size ≤ x.1))
        let bad := us.filter out
        let s := if bad.isEmpty then s else s.putCore i (c.dropMsg e 6 info)
        let s := bad.foldl (fun (s : State) u => s.reply e r (u.2.map (fun x => (x.2, 0, true)))) s
        let (c, rest) := Core.enterUnits r (us.filter (fun u => !out u)) (s.core i)
        let s := s.putCore i c
        if rest.isEmpty then .next (s.dropPacket idx)
        else match p.gate.filter (fun g => decide (g.1 < 16)) with
        | some (g, _) => .next ((s.dropPacket idx).returnUnits g p ep srcEp slot gen base rest)
        | none => .next { s with mesh := s.mesh.set idx { p with body := .readReq ep srcEp slot gen (rest.map (fun x => (x.1 - base, x.2))) } }
    | _ => .next s

/-- Whether two entries of the read queue are units of one request: the same run of the same copy of the same core (R206). -/
def ReadFrom.same (a b : ReadFrom) : Bool :=
  a.dev = b.dev && a.x = b.x && a.y = b.y && a.slot = b.slot && a.region = b.region && a.gen = b.gen &&
    (a.words.head?.map (fun x => x.2 / 2 ^ 20)) = (b.words.head?.map (fun x => x.2 / 2 ^ 20))

/-- Units that wait are marked where a request of theirs has raised its unwritten-memory event (R155). -/
def markRaised (rs : List ReadFrom) (q : List ReadUnit) : List ReadUnit :=
  q.map (fun u => { u with reqs := u.reqs.map (fun r => { r with wsw := r.wsw || rs.any r.same }) })

/-- A request whose units wait in the mesh or at a gateway is marked where it is one of some requests that have raised their event (R155). -/
def Packet.markRaised (rs : List ReadFrom) (p : Packet) : Packet :=
  let mark (slot gen : Nat) (ws : List (Nat × Nat)) : Packet :=
    { p with raised := p.raised || rs.any { State.requester p slot gen with words := ws }.same }
  match p.body with
  | .readReq _ _ slot gen ws => mark slot gen ws
  | .back _ _ slot gen ws => mark slot gen ws
  | _ => p

/-- The same for every packet of the block. -/
def State.markRequests (rs : List ReadFrom) (s : State) : State :=
  let s := { s with mesh := s.mesh.map (Packet.markRaised rs) }
  (List.range 16).foldl (fun (s : State) p => s.mapPort p (fun q => { q with units := q.units.map (fun x => (x.1.markRaised rs, x.2)) })) s

/-- The unit at the head of the read queue is served through port 10: its words are read once, and each requester gets its own (R207); requests that
have all raised their unwritten-memory event raise none again (R155). -/
def State.serveUnit (s : State) (e : Env) (u : ReadUnit) : State :=
  let c := s.core e.core
  let as := (List.range 16).map (16 * u.group + ·) |>.filter (fun a => u.reqs.any (fun r => r.words.any (fun x => x.1 = a)))
  let once := u.reqs.all (fun r => r.wsw)
  let (vs, c, f) := c.wellRead e ⟨10, 4, (Config.trapIndex (16 * u.group)).toNat⟩ once as
  let got := List.zip as vs
  let rest := c.ch.readQ.drop 1
  let s := s.setCore e.core { c with ch := { c.ch with readQ := if f then markRaised u.reqs rest else rest } }
  let s := if f && !once then s.markRequests u.reqs else s
  u.reqs.foldl (fun (s : State) r =>
    s.reply e r (r.words.map (fun x => (x.2, ((got.find? (fun y => y.1 = x.1)).map (·.2)).getD (0, true))))) s

/-- READ_UNIT_SERVICE. -/
def execReadUnitService (i : CoreId) (s : State) : Out :=
  let e := s.env i
  match (s.core i).ch.readQ with
  | [] => .next s
  | u :: _ => if e.alive then .next (s.serveUnit e u) else .next s

/-- The bytes of the requester's well that a reply word of a cp.rget fills: run `i` and word `k` of the run's words are in its tag (R206). -/
def Core.getBytes (o : EngOp) (c : Core) (tag : Nat) (v : Word) (poison : Bool) : List (Nat × Byte × Bool) :=
  let t := c.shape o.w
  let i : Nat := tag / 2 ^ 20
  let k : Nat := tag % 2 ^ 20
  let b : Int := 8 * ((fieldOf o.sb 0 19 : Nat) : Int) + (i : Int) * t.ss
  let w : Int := 8 * (b / 8 + (k : Int))
  let d : Int := 8 * (o.aa : Int) + (i : Int) * t.ds
  (List.range 8).filterMap (fun (j : Nat) =>
    let off : Int := w + (j : Int) - b
    if off < 0 || (t.run : Int) ≤ off then none else some ((d + off).toNat, byteOf v j, poison))

/-- READ_REPLY_ARRIVAL: the words of a reply are written to the requester's well through port 11 (R206). -/
def execReadReplyArrival (idx : Nat) (s : State) : Out :=
  match s.arrived idx with
  | none => .next s
  | some (p, i) =>
    match p.body with
    | .readReply slot ws =>
      let e := s.env i
      let s := s.dropPacket idx
      let c := s.core i
      if s.aged p then .next s.ageDrop
      else if e.stale p then .next (s.stale i)
      else if c.well.wiping then .next s
      else match c.cp.running.findIdx? (fun r => r.slot = slot && opOf r.op.w = 0xC6) with
        | none => .next s
        | some k =>
          match c.cp.running[k]? with
          | none => .next s
          | some r =>
            let bs := ws.flatMap (fun x => Core.getBytes r.op c x.1 x.2.1 x.2.2)
            let c := c.wellWrites e ⟨11, 4, r.op.pc⟩ (beatWrites bs)
            .next (s.putCore i (c.setRun k { r with awaiting := r.awaiting - ws.length }))
    | _ => .next s

end Sys2Proof.Machine
end

