-- ==== Sys2Proof/Machine/Network.lean ====
section
/-! DEFINITION. The main mesh: a router's link selection, the hop of one flit with its checks, and replays (row CORE_MESH_CFG_WRITE
and the parts of a hop; R242 to R253). -/

namespace Sys2Proof.Machine

/-! ## Links (R242, R244) -/

/-- The direction from a router to a neighbour: 0 +x, 1 −x, 2 +y, 3 −y. -/
def dirTo (a b : Nat × Nat) : Nat :=
  if a.1 < b.1 then 0 else if b.1 < a.1 then 1 else if a.2 < b.2 then 2 else 3

/-- The physical column that a router's link in a direction reaches under its selection, if the link is not off (R242, R259). -/
def linkReach (px dir sel : Nat) : Option Nat :=
  match dir, sel with
  | _, 3 => none
  | 0, k => some (px + k + 1)
  | 1, k => if k + 1 ≤ px then some (px - k - 1) else none
  | _, 0 => some px
  | _, 1 => if 1 ≤ px then some (px - 1) else none
  | _, _ => some (px + 1)

/-- The selection field of a direction. -/
def selField (dir : Nat) : Fld :=
  match dir with
  | 0 => fCoreMeshCfgXpSel
  | 1 => fCoreMeshCfgXmSel
  | 2 => fCoreMeshCfgYpSel
  | _ => fCoreMeshCfgYmSel

/-- Whether the link that a router has selected in a direction reaches a logical neighbour (R242, R244). (DEDUCED, log entry 32.) -/
def State.reaches (s : State) (a b : Nat × Nat) : Bool :=
  let i := s.physical a.1 a.2
  let j := s.physical b.1 b.2
  let c := s.core i
  c.fld fCoreMeshCfgUsed = 1 && decide (linkReach (pxOf i) (dirTo a b) (c.fld (selField (dirTo a b))) = some (pxOf j))

/-- Whether the link from a router to a neighbour is marked down (R253). -/
def State.linkDown (s : State) (a b : Nat × Nat) : Bool :=
  ((s.core (s.physical a.1 a.2)).fld fCoreMeshStatusLinkDown).testBit (dirTo a b)

/-- CORE_MESH_CFG_WRITE: the router's link selection changes, for the next header it routes (R244). The supervisor's write crosses the hairline on class 3: it waits where a
crossing on its way withholds credits, and a down link on its way discards it (R254, R258, R356). -/
def execCoreMeshCfgWrite (i : CoreId) (value : Word) (s : State) : Out :=
  let n := clusterOfCore i
  if s.dev != .up || s.hubWaits (scribeHub n) n then .next s else
  let (ok, s) := s.send (scribeHub n) n
  .next (if ok then s.mapCore i (fun c => c.setReg fCoreMeshCfgXpSel.off (BitVec.ofNat 64 (fieldOf value 0 9))) else s)

/-! ## Hops (R243, R245, R249) -/

/-- The flits of a packet that stand in the input buffer of the router at place `k` of its path (a flit that has entered `k` routers stands in
the last of them). -/
def Packet.at (p : Packet) (k : Nat) : Nat := (p.flits.filter (fun f => decide (f = k))).length

/-- The router that a flit stands at, once it has entered `f` routers. -/
def Packet.here (p : Packet) (f : Nat) : Option (Nat × Nat) := if f = 0 then none else p.path[f - 1]?

/-- The flits of a VC in one input port of a router: those that came from `prev`, or from the core itself (R248). Those of a copy at the router where it branched are in
the branch's buffer, and a message whole at a branch is in none. -/
def State.inputHolds (s : State) (vc : Nat) (prev : Option (Nat × Nat)) (here : Nat × Nat) : Nat :=
  s.mesh.foldl (fun n p =>
    if p.vc = vc then
      p.path.zipIdx.foldl (fun n x =>
        if x.1 = here && p.here x.2 = prev && x.2 + 1 < p.last && !(x.2 = 0 && p.copy) then n + p.at (x.2 + 1) else n) n
    else n) 0

/-- Whether a packet leaves the mesh over a gateway's link: the exchanges with gateways, but for what goes back to a source core, and returned read units (R250). -/
def State.gateOut (s : State) (p : Packet) : Bool :=
  match p.body with
  | .gate k tag => k = 0 || k = 3 || s.fabWait.any (fun x => decide (x.tag = tag) && x.inPort != 16)
  | .back .. => true
  | _ => false

/-- The output by which a flit that has entered `f` routers is to leave the last of them, with that router: 0 to 3 a link, 4 the local output, 5 the link of a gateway; and 6 for
the link by which it enters its first router (R242, R250). A message whole at a branch leaves by its copies. -/
def State.outOf (s : State) (p : Packet) (f : Nat) : Option ((Nat × Nat) × Nat) :=
  match p.here f, p.path[f]? with
  | none, some b => if f = 0 then some (b, 6) else none
  | some a, some b => some (a, dirTo a b)
  | some a, none => if p.outs.isEmpty then some (a, if s.gateOut p then 5 else 4) else none
  | none, none => none

/-- Whether a message holds an output: some of its flits have left by it and its last has not (R248, R249). -/
def State.holdsOut (s : State) (p : Packet) (o : (Nat × Nat) × Nat) : Bool :=
  (List.range (p.path.length + 1)).any (fun k =>
    decide (s.outOf p k = some o) && p.flits.any (fun f => decide (k < f)) && p.flits.any (fun f => decide (f ≤ k)))

/-- Whether a message other than the one at place `idx` holds an output in a VC. -/
def State.outputHeld (s : State) (idx vc : Nat) (o : (Nat × Nat) × Nat) : Bool :=
  s.mesh.zipIdx.any (fun x => decide (x.2 ≠ idx) && decide (x.1.vc = vc) && s.holdsOut x.1 o)

/-- Whether a header stands behind another message in its input buffer, which is first in, first out (R248). -/
def State.behind (s : State) (idx : Nat) (p : Packet) (f : Nat) : Bool :=
  f != 0 && !(f = 1 && p.copy) && s.mesh.zipIdx.any (fun x =>
    decide (x.2 ≠ idx) && decide (x.1.vc = p.vc) && (List.range x.1.path.length).any (fun k =>
      decide (x.1.path[k]? = p.here f) && decide (x.1.here k = p.here (f - 1)) && !(k = 0 && x.1.copy) && decide (k + 1 < x.1.last) && x.1.at (k + 1) != 0 &&
        (decide (k + 1 < x.1.flits.headD 0) || decide (x.1.came < p.came))))

/-- Words `us` of a packet's payload arrive poisoned (R252). -/
def bodySpoil (us : List Nat) : Body → Body
  | .message ep f q o x ws => .message ep f q o x (ws.zipIdx.map (fun y => (y.1.1, y.1.2 || us.contains y.2)))
  | .readReply slot ws => .readReply slot (ws.zipIdx.map (fun y => (y.1.1, y.1.2.1, y.1.2.2 || us.contains y.2)))
  | b => b

/-- The payload words of a packet. -/
def bodyLength : Body → Nat
  | .message _ _ _ _ _ ws => ws.length
  | .readReply _ ws => ws.length
  | _ => 0

/-- The payload words that flit `j` carries, of those named by their place in it: flit 0 begins with `h` words of header (R188, R311). -/
def bodyFlitWords (h : Nat) (b : Body) (j : Nat) (xs : List Nat) : List Nat :=
  (xs.eraseDups).filterMap (fun k => if k < 16 && h ≤ 16 * j + k && 16 * j + k - h < bodyLength b then some (16 * j + k - h) else none)

/-- The words of header before a packet's payload: the message header, and on VC 3 the fabric header before it (R188, R311). -/
def Packet.headWords (p : Packet) : Nat := if p.vc = 3 then 6 else 2

/-- What a packet of the mesh carries for its receiver: for a packet on its way to an outbound gateway, what that packet carries (R293). -/
def State.cargo (s : State) (p : Packet) : Body :=
  match p.body with
  | .gate 3 tag =>
    match s.fabWait.find? (fun x => x.tag = tag) with
    | none => p.body
    | some x =>
      match x.pkt.body with
      | .channel b => b
      | _ => p.body
  | b => b

/-- The words of a packet poisoned, where they are kept. -/
def State.spoil (s : State) (idx : Nat) (bad : List Nat) (p : Packet) : State :=
  match p.body with
  | .gate 3 tag =>
    { s with
      mesh := s.mesh.set idx p
      fabWait := s.fabWait.map (fun x =>
        if x.tag = tag then
          match x.pkt.body with
          | .channel b => { x with pkt := { x.pkt with body := .channel (bodySpoil bad b) } }
          | _ => x
        else x) }
  | b => { s with mesh := s.mesh.set idx { p with body := bodySpoil bad b } }

/-- What a router's check of a flit's words counts and reports: `ce` words corrected, `ue` poisoned, in a packet of region `r` and generation `g` that `sender` sent (R252, R419).
(DESIGN CHOICE, log entry 22.) -/
def Core.checked (ce ue r g sender : Nat) (c : Core) : Core :=
  let c := (c.bump fCoreMeshCeCount ce).bump fCoreMeshUeCount ue
  if ue = 0 || decide (64 ≤ r) then c else { c with reports := c.reports ++ [⟨.meshUe, r, g, sender⟩] }

/-- The receiving router's check of a flit: corrected words are counted; uncorrectable ones are counted, poisoned and reported for the region,
the report naming the core whose router sent the flit (R252, R419). A packet in transit between devices belongs to no region of this one. -/
def State.checkFlit (s : State) (idx j : Nat) (from_ here : Nat × Nat) (ce ue : List Nat) (p : Packet) : State :=
  let bad := bodyFlitWords p.headWords (s.cargo p) j ue
  let good := (bodyFlitWords p.headWords (s.cargo p) j ce).filter (fun k => !bad.contains k)
  (s.mapCore (s.physical here.1 here.2) (Core.checked good.length bad.length p.region p.gen (s.physical from_.1 from_.2))).spoil idx bad p

/-- Flits of a class freed at a port, for the next trailer (R291). -/
def PortSt.free (q : PortSt) (cls n : Nat) : PortSt := { q with freed := q.freed.put cls (q.freed.look cls 0 + n) 0 }

/-- The exchange of a waiting packet with its gateway that is on its way over the mesh, if one is: its reservation, the grant, a retry, or the packet itself. -/
def FabWait.sent (x : FabWait) : Option Nat :=
  match x.stage with
  | 5 => some 0
  | 6 => some 1
  | 9 => some 2
  | 7 => some 3
  | _ => none

/-- A packet whose exchange with its gateway was lost on the mesh is lost with it, and the receive buffer that held it is free (R253, R293, R325). (DEDUCED, log entry 131.) -/
def State.sweepGates (s : State) : State :=
  let gone (x : FabWait) : Bool := x.sent.any (fun k => !s.mesh.any (fun p => decide (p.body = .gate k x.tag)))
  let t := { s with fabWait := s.fabWait.filter (fun x => !gone x) }
  (s.fabWait.filter (fun x => gone x && decide (x.inPort < 16))).foldl (fun t x => t.mapPort x.inPort (fun q => q.free x.pkt.cls x.pkt.flits)) t

/-- A packet whose way is cut: its flits that have not passed the router are discarded there and counted, and the message never arrives (R244,
R253). -/
def State.misroute (s : State) (idx : Nat) (here : Nat × Nat) (n : Nat) : State :=
  (s.dropPacket idx).sweepGates.mapCore (s.physical here.1 here.2) (fun c => c.bump fCoreMeshMisrouteCount n)

/-- The input by which a flit that has entered `f` routers came to the last of them: the side of the router before, or 4 for the core's own or a
gateway's link. -/
def Packet.input (p : Packet) (f : Nat) : Nat :=
  match p.path[f - 1]?, p.path[f - 2]? with
  | some here, some from_ => if f < 2 then 4 else dirTo here from_
  | _, _ => 4

/-- What a router's output `d` does for `n` flits of a VC that came by input `inp`: it keeps the VC, and where a header is among them the input, that it granted last; what leaves
by a link, a gateway's among them, is counted (R249, R250, R259). (DESIGN CHOICE, log entry 22.) -/
def Core.granted (vc d inp n : Nat) (header : Bool) (c : Core) : Core :=
  let arb := c.arb.put d (vc + 1) 0
  let c := { c with replays := if d < 4 then c.replays.put d 0 0 else c.replays, arb := if header then arb.put (16 + 4 * d + vc) (inp + 1) 0 else arb }
  if d = 4 then c
  else
    let c := c.bump fCoreMeshFlitsCount n
    if vc = 3 then c.bump fCoreMeshTransitCount n else c

/-- Flit `j` of a packet leaves by its output: it enters the next router of its path, or the sink at its end. (DESIGN CHOICE, log entry 22.) -/
def State.hop (s : State) (idx j : Nat) (p : Packet) (f : Nat) (ce ue : List Nat) : State :=
  let q := { p with flits := p.flits.set j (f + 1), came := if j = 0 then s.mesh.foldl (fun n x => max n x.came) 0 + 1 else p.came }
  let s := match s.outOf p f with
    | some (a, d) => if d < 6 then s.mapCore (s.physical a.1 a.2) (Core.granted p.vc d (p.input f) 1 (decide (j = 0))) else s
    | none => s
  match p.here f, p.path[f]? with
  | some a, some next => s.checkFlit idx j a next ce ue q
  | _, _ => { s with mesh := s.mesh.set idx q }

/-- Whether the crossing between two routers' clusters withholds its credits: one of the clusters holds over (R356). (DEDUCED, log entry 71.) -/
def State.crossingWaits (s : State) (a b : Nat × Nat) : Bool :=
  let m := clusterOfCore (s.physical a.1 a.2)
  let n := clusterOfCore (s.physical b.1 b.2)
  m != n && (s.heldOver m || s.heldOver n)

/-- Whether a gateway's store of returned read units is full (R324). -/
def PortSt.storeFull (q : PortSt) : Bool := decide (64 ≤ q.units.length)

/-- Whether a flit that is to take a gateway's link must wait: a returned read unit while the store of its gateway is full (R324). (DEDUCED, log entry 51.) -/
def State.storeWaits (s : State) (p : Packet) (f : Nat) : Bool :=
  match p.body with
  | .back .. => decide (f = p.path.length) && p.gate.any (fun g => (s.port g.1).storeFull)
  | _ => false

/-- Whether a flit can move at all: the one before it has gone ahead, the clock of its next router, or at its end of its last, runs, no vote holds it, no crossing on its way
withholds its credits, and its gateway has a place for it (R324, R356, R427). -/
def State.hopMoves (s : State) (flit : Nat) (p : Packet) (f : Nat) : Bool :=
  let next := p.path.getD f p.stop
  s.alive (clusterOfCore (s.physical next.1 next.2)) && (flit = 0 || decide (f < p.flits.getD (flit - 1) 0)) && p.hold = 0 &&
    !(p.here f).any (fun a => s.crossingWaits a next) && !s.storeWaits p f

/-- Whether a flit's way is cut: its link is marked down, or a header's does not reach the next router (R244, R253). -/
def State.hopCut (s : State) (flit : Nat) (p : Packet) (f : Nat) : Bool :=
  match p.here f, p.path[f]? with
  | some a, some next => s.linkDown a next || (flit = 0 && !s.reaches a next)
  | _, _ => false

/-- Whether a flit has room ahead: a header an output that no other message holds, with none before it in its buffer, and every flit a place in the next router's buffer; a branch
gathers the message, and a sink takes it (R210, R248, R249). -/
def State.hopRoom (s : State) (idx flit : Nat) (p : Packet) (f : Nat) : Bool :=
  !(flit = 0 && ((s.outOf p f).any (s.outputHeld idx p.vc) || s.behind idx p f)) &&
    (match p.path[f]? with
      | none => true
      | some next => f + 1 = p.last || decide (s.inputHolds p.vc (p.here f) next < 4))

/-- The flits ready to leave a router by an output, each as its VC, the input it came by and whether it is a header (R249). -/
def State.rivals (s : State) (a : Nat × Nat) (d : Nat) : List (Nat × Nat × Bool) :=
  s.mesh.zipIdx.flatMap (fun x => x.1.flits.zipIdx.filterMap (fun y =>
    if s.outOf x.1 y.1 = some (a, d) && s.hopMoves y.2 x.1 y.1 && s.hopRoom x.2 y.2 x.1 y.1 then some (x.1.vc, x.1.input y.1, decide (y.2 = 0)) else none))

/-- Whether an output grants its link to a flit now: its VC is the first with a flit ready in cyclic order after the one granted last, and a header's
input the first with a header ready in that VC after the input that took the output last (R249). (DEDUCED, log entry 134.) -/
def State.mayHop (s : State) (flit : Nat) (p : Packet) (f : Nat) : Bool :=
  match s.outOf p f with
  | none => false
  | some (a, d) =>
    let arb := (s.core (s.physical a.1 a.2)).arb
    let rs := s.rivals a d
    let vc := ((List.range 4).map (fun j => (arb.look d 0 + j) % 4)).find? (fun v => rs.any (fun r => decide (r.1 = v)))
    let inp := ((List.range 5).map (fun j => (arb.look (16 + 4 * d + p.vc) 0 + j) % 5)).find? (fun n =>
      rs.any (fun r => decide (r.1 = p.vc) && decide (r.2.1 = n) && r.2.2))
    d = 6 || (vc = some p.vc && (flit != 0 || inp = some (p.input f)))

/-! ## Accesses that cross in one step (R245, R250) -/

/-- How an access fared: whether it arrived, and the payload words that came poisoned. -/
structure Way where
  ok : Bool
  bad : List Nat
  deriving DecidableEq, Repr

/-- The check of an access's `w` payload words at the router that a link takes them to, for the region of core `i` (R252). (DESIGN CHOICE, log entry 84.) -/
def State.wordCheck (s : State) (i w : Nat) (a b : Nat × Nat) : List Nat × State :=
  let k := s.physical a.1 a.2
  let mine (x : WordErr) : Bool := decide (x.core = k) && decide (x.dir = dirTo a b) && decide (x.word < w)
  let xs := s.wordErrs.filter mine
  if xs.isEmpty then ([], s)
  else
    let bad := ((xs.filter (·.ue)).map (·.word)).eraseDups
    let good := ((xs.map (·.word)).eraseDups).filter (fun j => !bad.contains j)
    let e := s.env i
    (bad, ({ s with wordErrs := s.wordErrs.filter (fun x => !mine x) }).mapCore (s.physical b.1 b.2)
      (Core.checked good.length bad.length (if e.inRegion then e.region else 64) e.gen k))

/-- The `n` flits of an access on VC 3, `w` words of payload among them, over a path of routers whose first they enter by input `inp` and whose last they leave by output `d`,
counted at each; at a link that is down or does not reach its neighbour they are discarded and counted. `i` is the core of the access. -/
def State.cross (s : State) (i n w d : Nat) (inp : Nat) : List (Nat × Nat) → Way × State
  | a :: b :: r =>
    let k := s.physical a.1 a.2
    if s.linkDown a b || !s.reaches a b then (⟨false, []⟩, s.mapCore k (fun c => c.bump fCoreMeshMisrouteCount n))
    else
      let (bad, s) := (s.mapCore k (Core.granted 3 (dirTo a b) inp n true)).wordCheck i w a b
      let (x, s) := State.cross s i n w d (Nat.xor (dirTo a b) 1) (b :: r)
      (⟨x.ok, bad ++ x.bad⟩, s)
  | [a] => (⟨true, []⟩, s.mapCore (s.physical a.1 a.2) (Core.granted 3 d inp n true))
  | [] => (⟨true, []⟩, s)

/-- An access that a gateway's attachment router `a` makes of a core at `b`: `out` flits x first to the core, and `back` flits x first to the
router and over the gateway's link. The `w` words of its payload go out in a write and come back in a read. -/
def State.access (s : State) (a b : Nat × Nat) (out back w : Nat) : Way × State :=
  let i := s.physical b.1 b.2
  if back = 0 then s.cross i out w 4 4 (xFirst a b)
  else
    let (x, s) := s.cross i out 0 4 4 (xFirst a b)
    if x.ok then s.cross i back w 5 4 (xFirst b a) else (x, s)

/-- Whether the way of an access over a path is taken: an output on it is held in VC 3, a flit of VC 3 stands before it in an input buffer, or a crossing withholds its
credits (R249, R356). (DESIGN CHOICE, log entry 108.) -/
def State.wayBusy (s : State) (d : Nat) (p : List (Nat × Nat)) : Bool :=
  let held (o : (Nat × Nat) × Nat) : Bool := s.mesh.any (fun x => decide (x.vc = 3) && s.holdsOut x o)
  (p.head?).any (fun a => s.inputHolds 3 none a != 0) || (p.getLast?).any (fun a => held (a, d)) ||
    (p.zip (p.drop 1)).any (fun x => s.crossingWaits x.1 x.2 || held (x.1, dirTo x.1 x.2) || s.inputHolds 3 (some x.1) x.2 != 0)

/-- Whether an access between two routers waits for its way, out or back. -/
def State.accessWaits (s : State) (a b : Nat × Nat) : Bool := s.wayBusy 4 (xFirst a b) || s.wayBusy 5 (xFirst b a)

/-! ## Replays (R251, R253) -/

/-- Whether a packet has a flit at a router that goes on over the link to a neighbour. -/
def Packet.waitsFor (p : Packet) (a b : Nat × Nat) : Bool :=
  p.path.zipIdx.any (fun x => decide (x.1 = a) && decide (p.path[x.2 + 1]? = some b) && p.flits.contains (x.2 + 1))

/-- The place of a router on a packet's path, counted from 1. -/
def Packet.place (p : Packet) (a : Nat × Nat) : Nat := (p.path.findIdx (fun x => x = a)) + 1

/-- A link is marked down: its waiting messages are discarded and counted, and the failure is reported (R253). -/
def State.meshDown (s : State) (i dir : Nat) (a b : Nat × Nat) : State :=
  let lost := s.mesh.filter (fun p => p.waitsFor a b)
  let n := lost.foldl (fun n p => n + (p.flits.filter (fun f => decide (f ≤ p.place a))).length) 0
  let s := { s with mesh := s.mesh.filter (fun p => !p.waitsFor a b) }.sweepGates
  let s := s.mapCore i (fun c =>
    (c.setFld fCoreMeshStatusLinkDown (c.fld fCoreMeshStatusLinkDown ||| 2 ^ dir)).bump fCoreMeshMisrouteCount n)
  s.noteFrom (clusterOfCore i) (.meshLink i (s.physical b.1 b.2))

end Sys2Proof.Machine
end

