-- ==== Sys2Proof/Machine/Region.lean ====
section
/-! DEFINITION. Regions: creation, release, reset and the sequence that takes a region from one generation to the next (rows REGION_CREATE to
WIPING_DONE; R260 to R264, R268, R271 to R274). -/

namespace Sys2Proof.Machine

/-! ## The rectangle -/

/-- The clusters of region `r`'s rectangle as RGN_CFG gives it (R260). -/
def State.rectClusters (s : State) (r : Nat) : List Nat :=
  let x0 := s.rgn r fRgnCfgCx0
  let y0 := s.rgn r fRgnCfgCy0
  (List.range (s.rgn r fRgnCfgHeight + 1)).flatMap (fun j => (List.range (s.rgn r fRgnCfgWidth + 1)).map (fun i => (x0 + i) + 12 * (y0 + j)))

/-- The physical cores of a cluster, spare columns included (R7). -/
def clusterCores (n : Nat) : List Nat :=
  (List.range 8).flatMap (fun ly => (List.range 7).map (fun qx => (7 * (n % 12) + qx) + 84 * (8 * (n / 12) + ly)))

/-- The physical cores of region `r`'s clusters. -/
def State.rectCores (s : State) (r : Nat) : List Nat := (s.rectClusters r).flatMap clusterCores

/-- Every core of region `r` changed. -/
def State.mapCores (s : State) (r : Nat) (f : Core → Core) : State := (s.rectCores r).foldl (fun s i => s.mapCore i f) s

/-- Every cluster of region `r` changed. -/
def State.mapClusters (s : State) (r : Nat) (f : Cluster → Cluster) : State := (s.rectClusters r).foldl (fun s n => s.mapCluster n f) s

/-- The valid clients of region `r`. -/
def State.clientsOf (s : State) (r : Nat) : List Nat :=
  (List.range 1024).filter (fun k => decide (s.cli k fCliCfgValid = 1) && decide (s.cli k fCliCfgRegion = r))

/-- The most regions the licence allows (R4, R5). -/
def State.regionLimit (s : State) : Nat := if s.lic.tenancy then 64 else 8

/-- Whether a cluster is out of service: a repair holds it, it has failed, or one of its rows is short (R262, R415, R420). -/
def State.outOfService (s : State) (n : Nat) : Bool :=
  s.heldClusters.contains n || decide (s.fld (fldAt fClkClStatusFailed (0x100 * n)) = 1) ||
  (List.range 8).any (fun ly => decide (s.fld (fldAt fRstRowmapShort (rowOffset (n % 12) (8 * (n / 12) + ly))) = 1))

/-! ## Check groups (R424, R425) -/

/-- Whether an enabled region's mirror rectangle holds a cluster. -/
def State.mirrored (s : State) (n : Nat) : Bool := s.regionsOn.any (fun r => (s.mirrorClusters r).contains n)

/-- Whether a cluster is free for a region. -/
def State.clusterFree (s : State) (n : Nat) : Bool := (s.regionOf n).isNone && !s.mirrored n && !s.outOfService n

/-- Whether region `r`'s rectangle lies on the device and takes only clusters that are free and in service, and so its mirror rectangle, which does not
overlap it (R260, R262, R425). -/
def State.rectOk (s : State) (r : Nat) : Bool :=
  decide (s.rgn r fRgnCfgCx0 + s.rgn r fRgnCfgWidth < 12) && decide (s.rgn r fRgnCfgCy0 + s.rgn r fRgnCfgHeight < 12) &&
  (s.rectClusters r).all s.clusterFree &&
  (s.share r != 2 ||
    (decide (s.rgn r fRgnCheckMx0 + s.rgn r fRgnCfgWidth < 12) && decide (s.rgn r fRgnCheckMy0 + s.rgn r fRgnCfgHeight < 12) &&
     (s.mirrorClusters r).all (fun n => s.clusterFree n && !(s.rectClusters r).contains n)))

/-- The spare of a physical row that no repair has used (R20, R415). -/
def State.spareOf (s : State) (cx py : Nat) : Option Nat :=
  let o := rowOffset cx py
  if s.fld (fldAt fRstRowmapFailQx o) = 7 && s.fld (fldAt fRstRowmapShort o) = 0 then some (7 * cx + 6 + 84 * py) else none

/-- The check groups of region `r`: each primary with its mirrors, as physical cores (R425). -/
def State.checkGroups (s : State) (r : Nat) : List (Nat × List Nat) :=
  let g := s.rgn r fRgnStatusGeneration
  let turn := 2 * (g % 4)
  match s.share r with
  | 1 => (s.rectClusters r).flatMap (fun n => (List.range 3).filterMap (fun j =>
      let y := 8 * (n / 12) + (turn + 2 * j) % 8
      match s.spareOf (n % 12) y, s.spareOf (n % 12) (8 * (n / 12) + (turn + 2 * j + 1) % 8) with
      | some a, some b => some (s.physical (6 * (n % 12) + g % 6) y, [a, b])
      | _, _ => none))
  | 2 => (s.rectClusters r).flatMap (fun n => (List.range 48).map (fun b =>
      let mx := s.rgn r fRgnCheckMx0 + (n % 12 - s.rgn r fRgnCfgCx0)
      let my := s.rgn r fRgnCheckMy0 + (n / 12 - s.rgn r fRgnCfgCy0)
      (s.physical (6 * (n % 12) + b % 6) (8 * (n / 12) + b / 6), [s.physical (6 * mx + b % 6) (8 * my + b / 6)])))
  | _ => []

/-- The check groups formed at a release, with the roles of their cores (R425, R437). -/
def State.formGroups (s : State) (r : Nat) : State :=
  let gs := s.checkGroups r
  let s := gs.foldl (fun s g =>
    g.2.foldl (fun s m => s.mapCore m (fun c => (c.setFld fCoreCheckRole 2).setFld fCoreCheckDegraded 0))
      (s.mapCore g.1 (fun c => (c.setFld fCoreCheckRole 1).setFld fCoreCheckDegraded 0))) s
  (s.setRgn r fRgnCheckStatusGroups gs.length).setRgn r fRgnCheckStatusDegraded 0

/-- The primary of the group that a mirror belongs to, with the region. -/
def State.primaryOf (s : State) (m : Nat) : Option (Nat × Nat) :=
  s.regionsOn.findSome? (fun r => ((s.checkGroups r).find? (fun g => g.2.contains m)).map (fun g => (r, g.1)))

/-- Whether a register of the core block is a mirror's own: those of its router, of checking and repair, and of its memories' errors. -/
def ownReg (off : Nat) : Bool :=
  (decide (0x200 ≤ off) && decide (off < 0x1000)) ||
  [fWellEccLastAddress.off, fWellEccCeCount.off, fWellEccUeCount.off, fRsvEccLastAddress.off, fRsvEccCeCount.off, fRsvEccUeCount.off].contains off

/-- A mirror `m` that has had every input of its primary `p`, in the same order: it holds what its primary holds but for what is its own, and injects nothing (R426). -/
def Core.mirror (p m : Core) : Core :=
  let c := (m.regs.filter (fun x => ownReg x.1)).foldl (fun (c : Core) x => c.setReg x.1 x.2) { p with regs := p.regs.clear ownReg }
  { c with reports := m.reports, replays := m.replays, arb := m.arb, shadow := m.shadow }

/-- A core as it stands: a mirror stands as its primary does. (DESIGN CHOICE, log entry 158.) -/
def State.view (s : State) (i : Nat) : Core :=
  if (s.core i).fld fCoreCheckRole = 2 then
    match s.primaryOf i with
    | some (_, p) => (s.core p).mirror (s.core i)
    | none => s.core i
  else s.core i

/-- The mirrors of region `r` leave their groups. -/
def State.dissolve (s : State) (r : Nat) : State :=
  (s.checkGroups r).foldl (fun s g => g.2.foldl (fun s m => s.mapCore m (fun c => c.setFld fCoreCheckRole 0)) s) s

/-- Region `r` enters a state, at the present time. -/
def State.enter (s : State) (r st : Nat) : State := (s.setRgn r fRgnStatusState st).mapRgn r (fun x => { x with since := s.mono })

/-- The generation of region `r` advances by 1 (R263). -/
def State.advance (s : State) (r : Nat) : State :=
  (s.setRgn r fRgnStatusGeneration (s.rgn r fRgnStatusGeneration + 1)).mapRgn r (fun x => { x with genAt := s.mono })

/-! ## Wiping (R160, R165, R274) -/

/-- A register file with its RW/L fields at their reset values (R14). -/
def unlockRegs (rows : List RegRow) (t : Tbl Word) : Tbl Word :=
  t.foldl (fun (u : Tbl Word) x =>
    match findReg rows x.1 with
    | none => u.put x.1 x.2 (resetAt rows x.1)
    | some row =>
      u.put x.1 (row.fields.foldl (fun w f => if f.access = .rwl then putField w f.lo f.width f.reset else w) x.2) (resetAt rows x.1)) []

/-- A core's ligature port when its region is reset: its instructions are discarded, and the operations on their way to their units are left to be
discarded there as stale (R227, R235). (DEDUCED, log entry 115.) -/
def LigPort.drop (l : LigPort) : LigPort :=
  { l with
    queue := [], applied := [], timed := []
    strays := l.strays ++ (l.queue.filter (fun o => opOf o.w != 0xE5)).map (fun o => o.sa.toNat) ++ l.timed.map (·.operand) }

/-- The registers of the channel engine that hold a region's channels: the tables of endpoints, combining queues and members with their state, and CH_CQ_FLAGS (R213,
R214). -/
def chanState (a : Nat) : Bool := decide (a = fChCqFlagsSpill.off) || (decide (0x4400 ≤ a) && decide (a < 0x6000))

/-- The anchor default at its value after reset (R120). -/
def Core.anchorReset (c : Core) : Core :=
  (c.setFld fMxAnchorDefMode (fieldOf (resetAt coreRegs fMxAnchorDefMode.off) 0 2)).setFld fMxAnchorDefValue
    (fieldOf (resetAt coreRegs fMxAnchorDefMode.off) 2 10)

/-- A core as wiping leaves it: its memories zero and closed, its code store of nops, its matrix and channel engines as region start requires, its other queues
cleared, its timed-action slots idle, its RW/L registers at their reset values (R233, R274). -/
def Core.wipe (c : Core) : Core :=
  let r := ((c.setFld fCoreCheckRole 0).setFld fChDropLastValid 0).anchorReset
  { c with
    well := { c.well with mem := Mem.wiped, wiping := true, scrubQ := [] }
    rsv := { c.rsv with mem := Mem.wiped, wiping := true, rowCe := [], rowUe := [] }
    ctl := { c.ctl with
      code := [], codePoison := [], held := none, ligWait := none, trapped := false, running := false, slots := Vector.replicate 8 slotIdle }
    mx := Matrix.reset
    vx := { c.vx with queue := [], running := [], port := Port.reset }
    cp := ⟨[], []⟩
    ch := Chan.reset
    lig := c.lig.drop
    groups := []
    entry := 0
    regs := unlockRegs coreRegs (r.regs.clear chanState) }

/-- A core whose wipes are done. -/
def Core.wiped (c : Core) : Core := { c with well := { c.well with wiping := false }, rsv := { c.rsv with wiping := false } }

/-- A cluster as wiping leaves it: its ligature unit as region start requires (R235, R274). -/
def Cluster.wipe (k : Cluster) : Cluster :=
  ({ k with ligs := [], waiters := [], waitQ := [], releases := [], regs := unlockRegs clusterRegs k.regs }.setFld fLigStatusWaitFull 0).setFld
    fLigFaultLastValid 0

/-- Region `r` enters wiping; `adv` says that its generation advances, as on every entry but from forcing (R263, R274). Its image and its
bindings are gone with it (R336, R408). (DESIGN CHOICE, log entry 35.) -/
def State.enterWiping (s : State) (r : Nat) (adv : Bool) : State :=
  let s := s.dissolve r
  let s := if adv then s.advance r else s
  let s := (s.mapCores r Core.wipe).mapClusters r Cluster.wipe
  let s := (s.mirrorClusters r).foldl (fun s n =>
    (clusterCores n).foldl (fun s i => s.mapCore i Core.wipe) (s.mapCluster n Cluster.wipe)) s
  let s := { s with
    bindings := s.bindings.clear (fun k => decide (k / 256 = r)), images := { s.images with loads := s.images.loads.put (r + 1) none none } }
  ((s.enter r 5).setRgn r fRgnCfgCompat 0).mapRgn r (fun x => { x with image := false, rings := [], locked := false, overrun := false })

/-- WIPING_DONE: once the gap of 64 microseconds since the advance has passed, the wipes are done and the region is ready (R263). -/
def execWipingDone (region : Fin 64) (s : State) : Out :=
  if s.dev != .up then .next s else
  let r := region.val
  if s.rgn r fRgnStatusState = 5 && (s.rgnSt r).genAt + 64000 ≤ s.mono then
    let s := (s.mirrorClusters r).foldl (fun s n => (clusterCores n).foldl (fun s i => s.mapCore i Core.wiped) s) (s.mapCores r Core.wiped)
    .next (s.enter r 1)
  else .next s

/-! ## The ports' accesses to rings (R141, R245, R250) -/

/-- A port's access to a ring core: asynchronous, of the channel engine's source number, with no instruction (R141). -/
def ringAcc (port a : Nat) : Acc := ⟨port, 4, (Config.trapIndex a).toNat⟩

/-- The logical coordinates of a physical core that carries one. -/
def State.placeOf (s : State) (i : Nat) : Nat × Nat := ((s.logicalX i).getD 0, pyOf i)

/-- The attachment router by which a port's gateway reaches a core, and for 16 the Scribe gateway (R250). -/
def State.gateOf (s : State) (port i : Nat) : Nat × Nat := if port < 16 then attach port (s.placeOf i) else (0, pyOf i)

/-- A well word that a port reads through port 12, if the request and the reply cross the mesh (R245, R253). (DESIGN CHOICE, log entry 141.) -/
def State.portRead (s : State) (port i a : Nat) : Option Word × State :=
  let (x, s) := s.access (s.gateOf port i) (s.placeOf i) 1 1 1
  if x.ok then
    let (ws, c, _) := (s.core i).wellRead (s.env i) (ringAcc 12 a) false [a]
    (some (ws.headD (0, true)).1, s.putCore i c)
  else (none, s)

/-- Word writes that a port makes through port 12, if they cross the mesh. -/
def State.portWrite (s : State) (port i : Nat) (ws : List WordWrite) : State :=
  let (x, s) := s.access (s.gateOf port i) (s.placeOf i) (flitsOf ws.length) 0 ws.length
  let ws := ws.zipIdx.map (fun y => { y.1 with poison := y.1.poison || x.bad.contains y.2 })
  if x.ok then s.putCore i ((s.core i).wellWrites (s.env i) (ringAcc 12 ((ws.headD ⟨0, 0, 0, false⟩).addr)) ws) else s

/-- Whether a port's access to a core waits for its way over the mesh (R249, R356). -/
def State.ringWaits (s : State) (port i : Nat) : Bool := s.accessWaits (s.gateOf port i) (s.placeOf i)

/-- The core of a client's ingress ring. -/
def State.ingCore (s : State) (k : Nat) : Nat := s.regionCore (s.cli k fCliCfgRegion) (s.cli k fCliIngX) (s.cli k fCliIngY)

/-- A whole word written. -/
def wholeWrite (a : Nat) (v : Word) : WordWrite := ⟨a, BitVec.allOnes 8, v, false⟩

/-- The gateway by which a frame that came in at a port reaches its ring: a frame that the Scribe Complex passes on goes by its own (R338). -/
def IngFrame.way (f : IngFrame) (port : Nat) : Nat := if f.kind = 2 then 16 else port

/-- A frame for a client is dropped: counted in CLI_ING_DROP and in the producer word's upper half (R269). -/
def State.dropIngress (s : State) (port k : Nat) : State :=
  let i := s.ingCore k
  let b := s.cli k fCliIngBase
  let s := s.bumpCli k fCliIngDropCount 1
  if (s.core i).well.wiping then s
  else match s.portRead port i b with
    | (none, s) => s
    | (some p, s) => s.portWrite port i [wholeWrite b (putField p 32 32 (fieldOf p 32 32 + 1))]

/-- The frames that wait at a port for rings of region `r` dropped (R271). -/
def State.dropWaiting (s : State) (r p : Nat) : State :=
  let lost := (s.port p).ingress.filter (fun f => f.region = r)
  lost.foldl (fun s f => s.dropIngress p f.client) (s.mapPort p (fun q => { q with ingress := q.ingress.filter (fun f => f.region != r) }))

/-- The frame that a piece of the Scribe Complex's work passes on to a ring of region `r`, if it does (R338). -/
def ScrWork.passed (r : Nat) (x : ScrWork) : Option IngFrame :=
  match x.job with
  | .pass _ f => if f.region = r then some f else none
  | _ => none

/-- The frames that the Scribe Complex has still to pass on to rings of region `r` dropped (R271). -/
def State.dropPassed (s : State) (r : Nat) : State :=
  let lost := s.scribe.work.filterMap (ScrWork.passed r)
  lost.foldl (fun s f => s.dropIngress 16 f.client) { s with scribe := { s.scribe with work := s.scribe.work.filter (fun x => (x.passed r).isNone) } }

/-- Every frame that waits for a ring of region `r` dropped, as the region ends ingress. -/
def State.endIngress (s : State) (r : Nat) : State := ((s.ports.map (·.1)).foldl (fun s p => s.dropWaiting r p) s).dropPassed r

/-! ## Commands (R261, R262, R264) -/

/-- A refused command sets cmd_err and is answered as region-invalid, with the region as detail. (DEDUCED, log entry 34.) -/
def State.rgnRefuse (s : State) (r : Nat) : State := (s.setRgn r fRgnStatusCmdErr 1).answer 0x22 0x12 (detailWord r)

/-- Whether a region command comes to be executed: the device accepts them, and one said to come from the management controller is the request
being executed (R395, R399, R411). (DESIGN CHOICE, log entry 33.) -/
def State.rgnCommand (s : State) (req : Bool) : Bool := s.serving && (!req || s.asked 0x22) && (s.lifecycle = 1 || s.lifecycle = 2 || s.lifecycle = 3)

/-- The answer to a region command done. -/
def State.rgnDone (s : State) (req : Bool) : State := if req then s.answer 0x22 0 [] else s

/-- A refusal answered only when the command was a request. -/
def State.rgnError (s : State) (r : Nat) (req : Bool) : State := if req then s.rgnRefuse r else s.setRgn r fRgnStatusCmdErr 1

/-- Whether a command for region `r` reads a register held in copies: those of the region, and, where it looks at the clusters, the rows of the repair map. -/
def State.readsOf (s : State) (r : Nat) (rows : Bool) (a : Nat) : Bool :=
  decide (a = fRgnCfgEnable.off + 0x40 * r) || decide (a = fRgnCheckShare.off + 0x40 * r) ||
  (rows && (s.rectClusters r ++ s.mirrorClusters r).any (fun n => (List.range 8).any (fun ly => decide (a = rowAddr (n % 12) (8 * (n / 12) + ly)))))

/-- A region command carried out where the registers that it reads have a majority; without one the device is on its way into recovery (R435). -/
def State.withVotes (s : State) (r : Nat) (rows : Bool) (f : State → State) : State :=
  let x := s.voteWhere (s.readsOf r rows)
  if x.1 then f x.2 else x.2

/-- A create command (R262): the checks, then the region exists and wipes, its generation advanced. -/
def State.createRegion (s : State) (r : Nat) (req : Bool) : State :=
  if !s.rgnCommand req then s
  else s.withVotes r true fun s =>
  if s.rgn r fRgnStatusState != 0 || !s.rectOk r then s.rgnError r req
  else if s.regionLimit ≤ s.regionsOn.length then
    let s := s.setRgn r fRgnStatusCmdErr 1
    if req then s.answer 0x22 0x10 (detailWord s.regionLimit) else s
  else ((s.setRgn r fRgnCfgEnable 1).enterWiping r true).rgnDone req

/-- REGION_CREATE; `upset` lists what upsets have struck since the last command that names them. -/
def execRegionCreate (region : Fin 64) (req : Bool) (upset : List Upset) (s : State) : Out :=
  .next ((upset.foldl State.upset s).createRegion region.val req)

/-- The stop request of R271 to a region's control core. -/
def State.stopRequest (s : State) (r : Nat) : State :=
  s.eventTo (s.regionCore r 0 0) ⟨6, 1, 2 ^ s.rgn r fRgnTimingIdleTimeout, s.rgn r fRgnStatusGeneration⟩

/-- A reset of one region, by its state: ready wipes, running begins to stop, and one already being reset joins (R261, R271). -/
def State.resetRegion (s : State) (r : Nat) : State :=
  match s.rgn r fRgnStatusState with
  | 1 => s.enterWiping r true
  | 2 => ((s.enter r 3).endIngress r).stopRequest r
  | _ => s

/-- The devices and regions that a region's bindings name, to which a reset of its job is forwarded (R264, R337). -/
def State.jobTargets (s : State) (r : Nat) : List (Nat × Nat × Nat) :=
  (s.bindings.filterMap (fun x => if x.1 / 256 = r then x.2.map (fun b => (b.dev, b.region, b.gen)) else none)).eraseDups

/-- A reset of a region's whole job: every enabled region of the same job is reset in the same clock, and the reset is forwarded to the devices
their bindings name, as work of the region for the Scribe Complex (R264, R277). (DEDUCED, log entry 52.) -/
def State.resetJob (s : State) (r : Nat) : State :=
  let rs := s.regionsOn.filter (fun q => decide (s.rgn q fRgnCfgJob = s.rgn r fRgnCfgJob))
  let out := (rs.flatMap (fun q => (s.jobTargets q).map (fun x => (⟨q, s.mono, .forward x.1 x.2.1 x.2.2⟩ : ScrWork)))).eraseDups
  let s := rs.foldl State.resetRegion s
  { s with scribe := { s.scribe with work := s.scribe.work ++ out } }

/-- A reset command, which resets the region with its job. -/
def State.resetCommand (s : State) (r : Nat) (req : Bool) : State :=
  if !s.rgnCommand req then s
  else s.withVotes r false fun s =>
  if s.rgn r fRgnStatusState = 0 then s.rgnError r req
  else (s.resetJob r).rgnDone req

/-- REGION_RESET. -/
def execRegionReset (region : Fin 64) (req : Bool) (s : State) : Out := .next (s.resetCommand region.val req)

/-! ## Release (R268, R274) -/

/-- The control granules of a client's two rings written as zeros through port 14, over the Scribe gateway of each ring core's row (R250, R268). -/
def State.zeroRings (s : State) (k : Nat) : State :=
  let r := s.cli k fCliCfgRegion
  let zero (s : State) (x y base : Nat) : State :=
    let i := s.regionCore r x y
    let (x, s) := s.access (0, pyOf i) (s.placeOf i) (flitsOf 64) 0 64
    if x.ok then s.mapCore i (fun c => (List.range 64).foldl (fun (c : Core) j => c.windowWrite (base + j) 0 (x.bad.contains j)) c) else s
  let s := zero s (s.cli k fCliIngX) (s.cli k fCliIngY) (s.cli k fCliIngBase)
  zero s (s.cli k fCliEgrX) (s.cli k fCliEgrY) (s.cli k fCliEgrBase)

/-- The channel registers at region start: the sending halves and members at their initial credits, counts, positions and rounds at 0, two
output credits (R199, R202, R213). -/
def Core.startChannels (c : Core) : Core :=
  let c := (List.range 64).foldl (fun (c : Core) n =>
    let c := c.setReg (fChTxCredits.off + 8 * n) (BitVec.ofNat 64 (c.duct n fChDuctusACredits))
    let c := c.setReg (fChRxLanded.off + 8 * n) 0
    if c.duct n fChDuctusAEnable = 1 && c.duct n fChDuctusAKind = 2 then
      (List.range (c.duct n fChDuctusBMembers + 1)).foldl (fun (c : Core) m =>
        let j := c.duct n fChDuctusBFirstMember + m
        (c.setMember j fChMemberCredits (c.duct n fChDuctusACredits)).setMember j fChMemberSeq 0) c
    else c) c
  let c := (List.range 16).foldl (fun (c : Core) q =>
    (c.setFld (fldAt fChCqBRound (16 * q)) 0).setFld (fldAt fChCqBOutCredits (16 * q)) 2) c
  { (c.setReg fChCqFlagsSpill.off 0).setFld fChDropLastValid 0 with ch := Chan.reset }

/-- A core at region start (R73, R120, R138, R161, R182, R213, R233, R267). -/
def Core.start (client : Nat) (runs : Bool) (c : Core) : Core :=
  let k : Ctl := { Ctl.reset with
    running := runs, pc := c.entry, cliSel := client, code := c.ctl.code, codePoison := c.ctl.codePoison, waitLimit := c.ctl.waitLimit
    evtPc := c.ctl.evtPc, evtStale := c.ctl.evtStale, haltRec := c.ctl.haltRec }
  let c := { c with
    rsv := { c.rsv with rowCe := [] }, ctl := k, mx := Matrix.reset, vx := Vec.reset, cp := ⟨[], []⟩, lig := ⟨[], [], [], c.lig.farSeq, []⟩
    well := { c.well with verso := Vector.replicate 8 false, breached := Vector.replicate 8 false, forcedTrap := false, scrubQ := [] } }
  let c := (((c.anchorReset.setFld fWellBreachValid 0).setFld fWellEccLastValid 0).setFld fWellStatusBreachSeen 0).setFld fWellStatusUeSeen 0
  ((c.setFld fRsvEccLastValid 0).setFld fRsvStatusUeSeen 0).startChannels

/-- A ligature unit at region start: every enabled ligature at phase 0, count 0 and the image's expect (R235). -/
def Cluster.start (k : Cluster) : Cluster :=
  let ligs := (List.range 512).foldl (fun (t : Tbl LigSt) l =>
    if k.ligOn l then t.put l ⟨0, 0, k.fld (fldAt fLigCfgExpect (8 * l))⟩ ligZero else t) []
  ({ k with ligs := ligs, waiters := [], waitQ := [], releases := [] }.setFld fLigStatusWaitFull 0).setFld fLigFaultLastValid 0

/-- Region `r` starts: its committed image locked, its units at region start, its clients' control granules zeroed, so that no port knows of a frame in their egress
rings (R268, R270, R274). -/
def State.startRegion (s : State) (r : Nat) : State :=
  let client := s.rgn r fRgnCfgSeedClient
  let s := (s.rectCores r).foldl (fun s i => s.mapCore i (Core.start client (s.logicalX i).isSome)) s
  let s := s.mapClusters r Cluster.start
  let s := ((s.clientsOf r).foldl (fun s k => (s.zeroRings k).mapPort (s.cli k fCliCfgPort) (fun q => { q with egress := q.egress.put k egrNew egrNew })) s).formGroups r
  (s.enter r 2).mapRgn r (fun x => { x with locked := true })

/-- A release command: a ready region whose image is committed, and whose clusters, those of its mirror rectangle among them, are all in service, starts to
run (R415, R422, R425). -/
def State.releaseRegion (s : State) (r : Nat) (req : Bool) : State :=
  if !s.rgnCommand req then s
  else s.withVotes r true fun s =>
  if s.rgn r fRgnStatusState = 1 && (s.rgnSt r).image && !(s.rectClusters r).any s.outOfService && !(s.mirrorClusters r).any s.outOfService then
    (s.startRegion r).rgnDone req
  else s.rgnError r req

/-- REGION_RELEASE. -/
def execRegionRelease (region : Fin 64) (req : Bool) (s : State) : Out := .next (s.releaseRegion region.val req)

/-- A delete command: a ready region that no valid client names becomes free. It leaves ready, so what has been loaded into it is wiped, and its clusters stay so
(R260, R408). (DEDUCED, log entry 118.) -/
def State.deleteRegion (s : State) (r : Nat) (req : Bool) : State :=
  if !s.rgnCommand req then s
  else s.withVotes r false fun s =>
  if s.rgn r fRgnStatusState = 1 && (s.clientsOf r).isEmpty then
    let s := (s.mapCores r (fun c => c.wipe.wiped)).mapClusters r Cluster.wipe
    let s := (s.mirrorClusters r).foldl (fun s n => (clusterCores n).foldl (fun s i => s.mapCore i (fun c => c.wipe.wiped)) (s.mapCluster n Cluster.wipe)) s
    let s := { s with images := { s.images with loads := s.images.loads.put (r + 1) none none }, bindings := s.bindings.clear (fun k => decide (k / 256 = r)) }
    let s := ((s.setRgn r fRgnCfgEnable 0).setRgn r fRgnCfgCompat 0).enter r 0
    (s.mapRgn r (fun x => { x with image := false, rings := [], locked := false })).rgnDone req
  else s.rgnError r req

/-- REGION_DELETE. -/
def execRegionDelete (region : Fin 64) (req : Bool) (s : State) : Out := .next (s.deleteRegion region.val req)

/-! ## Stopping and forcing (R271 to R273) -/

/-- A well word that a port reads in a ring, low half first (R268). -/
def State.ringWord (s : State) (r x y a : Nat) : Word := (s.core (s.regionCore r x y)).well.mem.word a

/-- The tail and done counts of a client's egress ring (R268). -/
def State.egressCounts (s : State) (k : Nat) : Nat × Nat :=
  let r := s.cli k fCliCfgRegion
  let x := s.cli k fCliEgrX
  let y := s.cli k fCliEgrY
  let b := s.cli k fCliEgrBase
  (fieldOf (s.ringWord r x y b) 0 32, fieldOf (s.ringWord r x y (b + 1)) 0 32)

/-- Whether a core has no work left (R272). -/
def Core.idle (c : Core) : Bool :=
  (c.ctl.stopped || c.ctl.halted) && c.quiet && c.lig.timed.isEmpty && c.ctl.slots.toList.all (fun t => !t.armed) &&
  (List.range 16).all (fun q => !c.cqFull q)

/-- Whether a region is idle (R272). -/
def State.regionIdle (s : State) (r : Nat) : Bool :=
  ((s.rectCores r).filter (fun i => (s.logicalX i).isSome)).all (fun i => (s.core i).idle) &&
  !s.mesh.any (fun p => decide (p.vc ≤ 2) && decide (p.region = r)) &&
  ((s.clientsOf r).filter (fun k => decide (s.cli k fCliCfgEgressEn = 1))).all (fun k => decide ((s.egressCounts k).1 = (s.egressCounts k).2))

/-- REGION_IDLE: a stopping region that is idle enters wiping. -/
def execRegionIdle (region : Fin 64) (s : State) : Out :=
  if s.dev != .up then .next s else
  let r := region.val
  if s.rgn r fRgnStatusState = 3 && s.regionIdle r then .next (s.enterWiping r true) else .next s

/-- A core forced to stop: no more issue, its engines' work abandoned, its slots disarmed (R233, R273). -/
def Core.force (c : Core) : Core :=
  { c with
    ctl := { c.ctl with
      running := false, stopped := true, held := none, ligWait := none, trapped := false
      slots := Vector.replicate 8 slotIdle, sbusy := Vector.replicate 32 false }
    mx := { c.mx with queue := [], running := [], load := Port.reset, stream := Port.reset }
    vx := { c.vx with queue := [], running := [], port := Port.reset }
    cp := ⟨[], []⟩
    ch := { c.ch with queue := [], running := [], readQ := [], closing := [] }
    lig := c.lig.drop }

/-- Whether a fabric packet is a VC 3 packet bound for region `r` of device `dev`. -/
def boundFor (x : FabPkt) (dev r : Nat) : Bool :=
  decide (x.dstDev = dev) && decide (x.dstRegion = r) && decide (x.kind ≤ 4)

/-- A port without what its gateway holds for region `r` of this device: packets received whole or in part, whose receive buffer is freed, and read units that
came back (R273). -/
def PortSt.dropBound (q : PortSt) (dev r : Nat) : PortSt :=
  let q := (q.arrived.filter (fun x => boundFor x dev r)).foldl (fun (q : PortSt) x => q.free x.cls x.flits) q
  let q := (List.range 8).foldl (fun (q : PortSt) c =>
    match q.rxPart.look c none with
    | none => q
    | some (x, n) => if boundFor x dev r then { q.free c (x.flits - n) with rxPart := q.rxPart.put c none none } else q) q
  { q with arrived := q.arrived.filter (fun x => !boundFor x dev r), units := q.units.filter (fun u => u.1.region != r) }

/-- The packets of a region that a force discards: its own on VCs 0 to 2, what it has not sent, and what gateways hold for it (R213, R273). -/
def State.dropTraffic (s : State) (r : Nat) : State :=
  let dev := s.fld fFabIdDeviceId
  let s := if s.fld fFabIdValid = 1 then (s.ports.map (·.1)).foldl (fun s p => s.mapPort p (fun q => q.dropBound dev r)) s else s
  { s with
    mesh := s.mesh.filter (fun p => p.region != r)
    fabWait := s.fabWait.filter (fun x => !(decide (x.pkt.srcRegion = r) && decide (x.pkt.hops = 0) && decide (x.pkt.kind ≤ 5) && decide (x.inPort = 16))) }

/-- A region enters forcing (R263, R273). -/
def State.forceRegion (s : State) (r : Nat) : State :=
  let s := ((s.advance r).mapCores r Core.force).mapClusters r (fun k => { k with waiters := [], waitQ := [], releases := [] })
  (s.dropTraffic r |>.setRgn r fRgnStatusForced 1).enter r 4

/-- IDLE_TIMEOUT: a region still stopping 2^n microseconds after it began is forced. -/
def execIdleTimeout (region : Fin 64) (s : State) : Out :=
  if s.dev != .up then .next s else
  let r := region.val
  if s.rgn r fRgnStatusState = 3 && (s.rgnSt r).since + 1000 * 2 ^ s.rgn r fRgnTimingIdleTimeout ≤ s.mono then .next (s.forceRegion r) else .next s


/-- The regions whose rectangle or mirror rectangle holds a cluster. -/
def State.regionsUsing (s : State) (n : Nat) : List Nat :=
  s.regionsOn.filter (fun r => (s.rectClusters r).contains n || (s.mirrorClusters r).contains n)

/-- The regions that hold a cluster out of service reported as needing a new mapping (R422). -/
def State.needMapping (s : State) (n : Nat) : State := (s.regionsUsing n).foldl (fun s r => s.note (.needsMapping r)) s

/-- A cluster fails in service: it is marked, logged and reported with its repair entry, and every region that holds it is reported as needing a new mapping and
reset with its job (R356, R370, R420 to R422). (DEDUCED, log entry 59.) -/
def State.failCluster (s : State) (n : Nat) : State :=
  let f := fldAt fClkClStatusFailed (0x100 * n)
  if s.fld f = 1 then s
  else
    let e := repairEntry 2 n 0 0
    let s := (((s.setFld f 1).logEvent 0x0A 2 n (s.regionOf n) e).note (.clusterFailed n)).note (.repairEntry e true)
    (s.regionsUsing n).foldl State.resetJob (s.needMapping n)

/-- FORCE_COMPLETE: the force is done and the region enters wiping; its generation advanced when the force began. A force that a cluster holds up ends
once the block reset of that cluster has timed out and isolated it (R394). -/
def execForceComplete (region : Fin 64) (s : State) : Out :=
  if s.dev != .up then .next s else
  let r := region.val
  let x := s.rgnSt r
  if s.rgn r fRgnStatusState = 4 && (!x.overrun || x.since + 1044000 ≤ s.mono) then .next (s.enterWiping r false) else .next s

/-- FORCE_OVERRUN: a force not complete in 20 microseconds is reported as a failure of the cluster that holds it up, and the region stays in
forcing until that cluster is isolated. -/
def execForceOverrun (region : Fin 64) (cluster : ClusterId) (s : State) : Out :=
  if s.dev != .up then .next s else
  let r := region.val
  let x := s.rgnSt r
  if s.rgn r fRgnStatusState = 4 && !x.overrun && x.since + 20000 ≤ s.mono && s.holds r cluster.val then
    .next ((s.mapRgn r (fun y => { y with overrun := true })).failCluster cluster.val)
  else .next s

end Sys2Proof.Machine
end

