-- ==== Sys2Proof/Machine/Shares.lean ====
section
/-! DEFINITION. Deficit round robin with promotion: how a port's ingress, a port's fabric egress and the Scribe Complex divide their service by weight
(R275 to R277). -/

namespace Sys2Proof.Machine

/-- The turns of the round from a list of queues in their order: each turn adds its queue's quantum to its deficit, and the first whose deficit then covers
the cost of its head is served. The answer is that queue and the deficits after its service. -/
def drrTurns (quantum cost : Nat → Nat) : Nat → List Nat → Tbl Nat → Option (Nat × Tbl Nat)
  | 0, _, _ => none
  | fuel + 1, order, d =>
    match order with
    | [] => none
    | k :: r =>
      let have_ := d.look k 0 + quantum k
      if cost k ≤ have_ then some (k, d.put k (have_ - cost k) 0) else drrTurns quantum cost fuel (r ++ [k]) (d.put k have_ 0)

/-- The queue that a deficit round robin serves next. `turn` is one more than the queue served last: its turn goes on while its deficit covers its head.
`active` lists in rising order the queues that wait and have a quantum; a queue that has emptied keeps no deficit. `most` bounds a head's cost in quanta. -/
def drr (quantum cost : Nat → Nat) (most turn : Nat) (active : List Nat) (d : Tbl Nat) : Option (Nat × Tbl Nat) :=
  let d : Tbl Nat := d.filter (fun x => active.contains x.1)
  let last := turn - 1
  if turn != 0 && active.contains last && decide (cost last ≤ d.look last 0) then some (last, d.put last (d.look last 0 - cost last) 0)
  else
    drrTurns quantum cost ((most + 1) * active.length) (active.filter (fun k => decide (turn ≤ k)) ++ active.filter (fun k => decide (k < turn))) d

/-- The queue promoted ahead of the round: of those whose head has waited promote_age microseconds, the one that has waited longest. -/
def promotedOf (age now : Nat) (since : Nat → Nat) (waiting : List Nat) : Option Nat :=
  let due := waiting.filter (fun k => age != 0 && decide (since k + 1000 * age ≤ now))
  due.find? (fun k => due.all (fun m => decide (since k ≤ since m)))

end Sys2Proof.Machine
end

