-- ==== Sys2Proof/Machine/Wire.lean ====
section
/-! DEFINITION. What goes over a fabric link in words and bytes: the fabric header, hellos and the trailer of a link block (R11, R290, R296, R311). -/

namespace Sys2Proof.Machine

/-! ## Device IDs (R309) -/

/-- The number of dimensions. -/
def State.dims (s : State) : Nat := s.fld fFabDimsNdims + 1

/-- The width of a dimension's coordinate. -/
def State.dimWidth (s : State) (i : Nat) : Nat := fieldOf (s.reg fFabDimsNdims.off) (4 * i + 2) 4

/-- The number of devices in a dimension. -/
def State.dimSize (s : State) (i : Nat) : Nat := fieldOf (s.reg fFabRingSize.off) (12 * i) 12 + 1

/-- Where a dimension's coordinate begins in a device ID. -/
def State.dimBase (s : State) (i : Nat) : Nat := (List.range i).foldl (fun n j => n + s.dimWidth j) 0

/-- A coordinate of a device ID. -/
def State.coord (s : State) (id i : Nat) : Nat := id / 2 ^ s.dimBase i % 2 ^ s.dimWidth i

/-- Whether a device ID lies in the fabric's range: each coordinate below its dimension's size and zeros above the last (R309, R336). -/
def State.idInRange (s : State) (id : Nat) : Bool :=
  (List.range s.dims).all (fun i => decide (s.coord id i < s.dimSize i)) && decide (id < 2 ^ s.dimBase s.dims)

/-- Whether this device sends and forwards more than escape packets. (DEDUCED, log entry 43.) -/
def State.routed (s : State) : Bool := decide (s.fld fFabIdValid = 1) && s.idInRange (s.fld fFabIdDeviceId)

/-! ## The fabric header (R311) -/

/-- The hops of an escape route from `lo`, as many as `n`, 4 bits each. -/
def routeBits (route : List Nat) (lo n : Nat) : Nat := (List.range n).foldl (fun v j => v + route.getD (lo + j) 0 % 16 * 16 ^ j) 0

/-- The four words of a packet's fabric header; words 2 and 3 are zero in every class but escape, and reserved bits are zero. -/
def headerOf (x : FabPkt) : List Word :=
  let esc := x.cls % 8 = 0
  [BitVec.ofNat 64 (x.dstDev % 2 ^ 18 + x.srcDev % 2 ^ 18 * 2 ^ 18 + x.cls % 8 * 2 ^ 36 + bit x.epoch * 2 ^ 39 + x.hops % 64 * 2 ^ 40 +
      x.dstRegion % 64 * 2 ^ 46 + x.gen % 256 * 2 ^ 52 + x.kind % 16 * 2 ^ 60),
    BitVec.ofNat 64 (x.injectUs % 2 ^ 32 + x.srcRegion % 64 * 2 ^ 32),
    if esc then BitVec.ofNat 64 (routeBits x.route 0 16) else 0,
    if esc then BitVec.ofNat 64 (routeBits x.route 16 8 + x.route.length % 32 * 2 ^ 32 + x.routeIdx % 32 * 2 ^ 37 + bit x.downTaken * 2 ^ 42) else 0]

/-- The escape route that words 2 and 3 carry: as many hops as route_len says, of which the words hold twenty-four. -/
def routeOf (w2 w3 : Word) : List Nat :=
  (List.range (fieldOf w3 32 5)).map (fun j => if j < 16 then fieldOf w2 (4 * j) 4 else if j < 24 then fieldOf w3 (4 * (j - 16)) 4 else 0)

/-- A packet with the fields that its header's words carry; reserved bits are ignored. -/
def readHeader (x : FabPkt) (h : List Word) : FabPkt :=
  let w0 := h.getD 0 0
  let w1 := h.getD 1 0
  let w3 := h.getD 3 0
  { x with
    dstDev := fieldOf w0 0 18, srcDev := fieldOf w0 18 18, cls := fieldOf w0 36 3, epoch := bitOf w0 39, hops := fieldOf w0 40 6
    dstRegion := fieldOf w0 46 6, gen := fieldOf w0 52 8, kind := fieldOf w0 60 4, injectUs := fieldOf w1 0 32, srcRegion := fieldOf w1 32 6
    route := routeOf (h.getD 2 0) w3, routeIdx := fieldOf w3 37 5, downTaken := bitOf w3 42 }

/-! ## Hellos (R296) -/

/-- The bytes of a hello. -/
def helloBytes (h : Hello) : List Byte :=
  bytesOfWord h.eui ++ bytesOfNat 3 (h.device % 2 ^ 18) ++ bytesOfNat 1 (h.port % 16 + h.groups % 16 * 16) ++ bytesOfNat 1 h.lifecycle ++
    bytesOfNat 1 (bit h.admitted) ++ bytesOfNat 2 h.hseq ++ bytesOfNat 2 h.epoch ++ List.replicate 46 0

/-- The hello that its bytes carry. -/
def readHello (b : List Byte) : Hello :=
  let f (i n : Nat) : Nat := natOfBytes ((b.drop i).take n)
  ⟨wordOfBytes b, f 8 3 % 2 ^ 18, f 11 1 % 16, f 11 1 / 16, f 12 1, decide (f 13 1 % 2 = 1), f 14 2, f 16 2⟩

/-- A packet as its link carries it: each field within its width. -/
def onWire (x : FabPkt) : FabPkt :=
  let y := readHeader x (headerOf x)
  match y.body with
  | .hello h => { y with body := .hello (readHello (helloBytes h)) }
  | _ => y

/-! ## What packets carry (R188, R426) -/

/-- What the digest of a packet takes of what it carries: its kind, endpoint and sequence number, a read reply's slot and the tag of its first word in their place;
its other header fields; and its payload words with their poison. -/
structure Digested where
  kind : Nat
  ep : Nat
  seq : Nat
  fields : List Nat
  words : List (Word × Bool)
  deriving DecidableEq, Repr

/-- What a packet of the channels gives its digest. -/
def bodyDigested : Body → Digested
  | .message ep srcEp seq pos off ws => ⟨0, ep, seq, [srcEp, pos, off], ws⟩
  | .credit ep srcEp units => ⟨1, ep, 0, [srcEp, units], []⟩
  | .token ep batch => ⟨2, ep, batch, [], []⟩
  | .grant ep => ⟨3, ep, 0, [], []⟩
  | .readReq ep srcEp slot gen ws => ⟨4, ep, slot, [srcEp, gen] ++ ws.flatMap (fun w => [w.1, w.2]), []⟩
  | .readReply slot ws => ⟨5, slot, (ws.map (·.1)).headD 0, ws.map (·.1), ws.map (·.2)⟩
  | .gate kind tag => ⟨6, 0, tag, [kind], []⟩
  | .back ep srcEp slot gen ws => ⟨7, ep, slot, [srcEp, gen] ++ ws.flatMap (fun w => [w.1, w.2]), []⟩

/-- What a packet for the fabric gives its digest. -/
def fabDigested : FabBody → Digested
  | .channel b => bodyDigested b
  | .lig signal operand tag binding pc => ⟨8, operand, tag, [bit signal, binding, pc], []⟩
  | _ => ⟨9, 0, 0, [], []⟩

/-- The bytes of a packet for a link: its fabric header, and after it a hello, or the message header and the payload; what a time packet or a congestion map holds follows the
fabric header at once. (PRESUMED, log entry 121.) -/
def packetBytes (x : FabPkt) : List Byte :=
  let head := (headerOf x).flatMap bytesOfWord
  let message (f : List Nat) : List Byte := (List.range 16).map (Config.messageByte ([x.dstRegion, x.gen, x.x, x.y, x.srcRegion, x.sx, x.sy] ++ f))
  head ++ match x.body with
    | .hello h => helloBytes h
    | .time sent back => bytesOfNat 8 sent ++ (match back with
      | some (a, b) => bytesOfNat 8 a ++ bytesOfNat 8 b
      | none => [])
    | .cmap l => (l.flatMap id).map (fun v => BitVec.ofNat 8 v)
    | .ingress k bs => message [k, bs.length] ++ bs
    | .jobReset src => message [8] ++ bytesOfWord src
    | .scribe src bs => message [bs.length + 8] ++ bytesOfWord src ++ bs
    | b =>
      let d := fabDigested b
      message ([d.kind, d.ep, d.seq] ++ d.fields ++ [d.words.length]) ++ d.words.flatMap (fun w => bytesOfWord w.1)

/-- The flits of a packet, the first with the packet, each with its 128 bytes; what lies past the packet's end is not given. -/
def flitsFor (x : FabPkt) : List Flit :=
  let bs := packetBytes x
  (List.range x.flits).map (fun j =>
    let b := (bs.drop (128 * j)).take 128
    ⟨x.cls, if j = 0 then some x else none, b ++ ((List.range 128).drop b.length).map Config.flitByte⟩)

/-! ## Link blocks (R290) -/

/-- One bit of the CRC-32 of IEEE 802.3, over the reversed register. -/
def crcBit (c : Nat) : Nat := if c % 2 = 1 then Nat.xor (c / 2) 0xEDB88320 else c / 2

/-- The CRC-32 of IEEE 802.3 over bytes. -/
def crc32 (b : List Byte) : Nat :=
  Nat.xor (b.foldl (fun c x => (List.range 8).foldl (fun c _ => crcBit c) (Nat.xor c x.toNat)) 0xFFFFFFFF) 0xFFFFFFFF

/-- Words 0 to 2 of the trailer of a block that is sent. -/
def TxBlock.words (b : TxBlock) : List Word :=
  [BitVec.ofNat 64 (b.seq % 2 ^ 16 + b.ack % 2 ^ 16 * 2 ^ 16 + bit b.nak * 2 ^ 32 + bit b.widthReq * 2 ^ 33),
    BitVec.ofNat 64 ((List.range 8).foldl (fun v i => v + b.credits.getD i 0 % 256 * 256 ^ i) 0),
    BitVec.ofNat 64 ((List.range 16).foldl (fun v i =>
      v + (match b.slots.getD i none with
        | none => 0
        | some f => f.cls % 8 + 8) * 16 ^ i) 0)]

/-- The 128 bytes of a slot; a null flit holds bytes that the manual does not give. -/
def slotBytes (f : Option Flit) : List Byte :=
  match f with
  | some f => f.bytes
  | none => (List.range 128).map Config.flitByte

/-- The trailer of a block that is sent: its three words and the CRC over the slots and them (R290). -/
def TxBlock.trailer (b : TxBlock) : List Word :=
  b.words ++ [BitVec.ofNat 64 (crc32 (((List.range 16).map (fun i => b.slots.getD i none)).flatMap slotBytes ++ b.words.flatMap bytesOfWord))]

end Sys2Proof.Machine
end

