-- ==== Sys2Proof/Machine/Port.lean ====
section
/-! DEFINITION. Fabric ports: modes, resets, training, the link layer, gateways, partners and Ethernet links (rows PORT_MODE_WRITE to
PTP_TX_TAG_READ; R250, R276, R281 to R307). -/

namespace Sys2Proof.Machine

/-! ## Modes and states -/

/-- A port enters a state: 0 off, 1 reset, 2 training, 3 up, 4 retraining, 5 failed (R308). -/
def State.setState (s : State) (p v : Nat) : State := s.setP p fPortStatusState v

/-- A port's state. -/
def State.portState (s : State) (p : Nat) : Nat := s.pfld p fPortStatusState

/-- Whether a port's fabric link is initialised, at whatever width: hellos and escape traffic may cross it (R285). -/
def State.fabLink (s : State) (p : Nat) : Bool := decide (s.dev = .up) && decide ((s.port p).mode = 1) && (s.port p).linked

/-- Whether a port is up in fabric mode: its link is initialised, and hellos have gone both ways (R285, R287). -/
def State.fabUp (s : State) (p : Nat) : Bool := s.fabLink p && (s.portState p = 3 || s.portState p = 4)

/-- A port's lane groups in use are set, and PORT_STATUS.width with them. -/
def State.setActive (s : State) (p : Nat) (gs : List Nat) : State :=
  (s.mapPort p (fun q => { q with active := gs })).setP p fPortStatusWidth gs.length

/-- The largest width of a link that `n` good groups allow (R284). -/
def widthFor (n : Nat) : Nat := if 8 ≤ n then 8 else if 4 ≤ n then 4 else if 2 ≤ n then 2 else n

/-- The lane groups a link uses of its good ones: the lowest-numbered, at the largest width (R285). -/
def widestOf (good : List Nat) : List Nat :=
  let gs := (List.range 8).filter good.contains
  gs.take (widthFor gs.length)

/-- The ports other than `p` that run in Ethernet mode in a state other than off (R283). -/
def State.etherPorts (s : State) (p : Nat) : List Nat :=
  (List.range 16).filter (fun q => q != p && decide ((s.port q).mode = 2) && decide (s.portState q ≠ 0))

/-- The ports other than `p` that hold mode 2 in a state other than off, in force or staged for their next block reset. -/
def State.etherHeld (s : State) (p : Nat) : List Nat :=
  (List.range 16).filter (fun q => q != p && ((s.port q).mode = 2 || s.pfld q fPortCtrlMode = 2) && decide (s.portState q ≠ 0))

/-- Whether the lifecycle state permits Ethernet mode (R411). -/
def State.etherLife (s : State) : Bool := s.lifecycle = 2 || s.lifecycle = 3

/-- Whether a port is refused a mode: 3, Ethernet as a fifth port, or Ethernet in a lifecycle state that does not permit it (R281, R283, R284, R411). (DEDUCED, log entry 39.) -/
def State.modeRefused (s : State) (p mode : Nat) : Bool :=
  decide (mode = 3) || (decide (mode = 2) && (decide (4 ≤ (s.etherHeld p).length) || !s.etherLife))

/-- A mode written to a port; one that is refused leaves the field as it is and sets mode_err. -/
def State.writeMode (s : State) (p mode : Nat) : State :=
  if s.modeRefused p mode then s.setP p fPortStatusModeErr 1 else s.setP p fPortCtrlMode mode

/-- PORT_MODE_WRITE: a mode is staged for the next block reset, or refused. -/
def execPortModeWrite (port : Fin 16) (mode : Fin 4) (s : State) : Out :=
  if s.dev = .up then .next (s.writeMode port.val mode.val) else .next s

/-! ## Gateways (R293 to R295) -/

/-- The flits of a class in a gateway's outbound buffer. -/
def PortSt.holds (q : PortSt) (cls : Nat) : Nat := q.gw.foldl (fun n x => if x.pkt.cls = cls then n + x.pkt.flits else n) 0

/-- The flits of a list of packets. -/
def gwFlits (l : List GwPkt) : Nat := l.foldl (fun n x => n + x.pkt.flits) 0

/-- The packets of a gateway that satisfy a condition are discarded, and their flits counted (R294). -/
def State.gwDiscard (s : State) (p : Nat) (drop : GwPkt → Bool) : State :=
  let lost := (s.port p).gw.filter drop
  (s.mapPort p (fun q => { q with gw := q.gw.filter (fun x => !drop x) })).bumpP p fPortGwDropCount (gwFlits lost)

/-- The partner of a port is lost: peer_valid and the admission clear, and the loss is reported (R297). -/
def State.losePeer (s : State) (p : Nat) : State :=
  let was := s.pfld p fPortStatusPeerValid
  let s := ((s.setP p fPortStatusPeerValid 0).setP p fPortCtrlAdmit 0).setP p fPortStatusLoopback 0
  if was = 1 then s.note (.peer p false) else s

/-- The receive allocation of a port in flits by class, and whether it passes the receive buffer (R291, R308). -/
def State.allocOf (s : State) (p : Nat) : List Nat := (List.range 8).map (fun i => 64 * fieldOf (s.reg (fPortRxbufClass.off + 0x1000 * p)) (8 * i) 8)

/-- A port's training starts in the mode in force, from the receiver settings stored: the receive allocation is checked and taken, and the groups train anew
(R285, R286, R308). -/
def State.startTraining (s : State) (p : Nat) : State :=
  let alloc := s.allocOf p
  let s := if 16384 < alloc.foldl (· + ·) 0 then s.setP p fPortStatusModeErr 1 else s
  let s := (s.setP p fPortStatusGroupsFailed 0).setActive p []
  let s := s.mapPort p (fun q => { q with
    trainAt := s.mono, eq := q.eqStored, trained := [], retrain := [], symbols := [], windows := [], leaving := [], coming := [], asked := false
    heard := false, linked := false, greeted := false, tx := [], unacked := [], wire := [], credits := [], freed := [], rxAlloc := alloc, rxPart := []
    txSeq := 0, rxSeq := 0, nak := false, awaiting := false, peerReq := false, replays := 0 })
  s.setState p (if (s.port p).mode = 0 then 0 else 2)

/-- The mode that a port takes when its reset completes: the one staged, or off where four other ports already run in Ethernet mode (R283). -/
def State.modeOf (s : State) (p : Nat) : State × Nat :=
  let m := s.pfld p fPortCtrlMode
  if m = 2 && 4 ≤ (s.etherPorts p).length then ((s.setP p fPortCtrlMode 0).setP p fPortStatusModeErr 1, 0) else (s, m)

/-- A block reset completes: the transmitters go to idle, the link layer, the peer record and the admission are cleared, and training starts in the mode that
PORT_CTRL.mode holds (R289). -/
def State.finishReset (s : State) (p : Nat) : State :=
  let s := (s.losePeer p).setReg (fPortPeerEuiEui.off + 0x1000 * p) 0
  let s := (s.setReg (fPortPeerDeviceId.off + 0x1000 * p) 0).setP p fPortEthStatusLinkUp 0
  let (s, m) := s.modeOf p
  let s := s.mapPort p (fun q => { q with mode := m, resetAt := none, arrived := [], ttCame := [], helloAt := 0, helloTx := 0, ttLast := none, ttAt := 0 })
  s.startTraining p

/-- A gateway discards everything that it holds, the flits ready to leave among it, and counts them (R294). -/
def State.dropGateway (s : State) (p : Nat) : State :=
  let s := s.gwDiscard p (fun _ => true)
  (s.mapPort p (fun q => { q with tx := [] })).bumpP p fPortGwDropCount (s.port p).tx.length

/-- A link goes down: its gateway discards what it holds, its partner is lost, and it trains again, or its block reset completes (R288, R289, R294,
R295, R297). -/
def State.goDown (s : State) (p : Nat) : State :=
  let s := s.dropGateway p
  if (s.port p).resetAt.isSome then s.finishReset p else (s.losePeer p).startTraining p

/-! ### Which packet goes out (R276) -/

/-- Whether a packet in a gateway may go out: its port carries its class, the device has an ID in range where it is no escape packet (R309), the link holds credits for it, and
no earlier packet of its class waits. (DEDUCED, log entry 38.) (DEDUCED, log entry 45.) -/
def State.maySend (s : State) (p : Nat) (q : PortSt) (i : Nat) (x : GwPkt) : Bool :=
  (x.pkt.cls = 0 || (s.routed && s.pfld p fPortCtrlAdmit = 1)) && decide (x.pkt.flits ≤ q.credits.look x.pkt.cls 0) &&
  (q.gw.take i).all (fun y => y.pkt.cls != x.pkt.cls || (x.pkt.cls != 0 && x.pkt.cls != 5 && y.pkt.srcRegion != x.pkt.srcRegion))

/-- The first packet of a region among those ready, with its place in the gateway. -/
def headOf (ready : List (Nat × GwPkt)) (r : Nat) : Option (Nat × GwPkt) := ready.find? (fun x => x.2.pkt.srcRegion = r)

/-- The packet that a port sends next, as its place in the gateway, with what its choice leaves of the division: escape and control packets lie outside it; of
the regions, one whose oldest packet has waited promote_age microseconds goes ahead of the round and its age restarts; otherwise the round goes on, with a
quantum of port_weight × 256 B (R276). -/
def State.pickPacket (s : State) (p : Nat) : Option (Nat × (PortSt → PortSt)) :=
  let q := s.port p
  let ready := (q.gw.zipIdx.map (fun x => (x.2, x.1))).filter (fun x => s.maySend p q x.1 x.2)
  match ready.find? (fun x => x.2.pkt.cls = 0 || x.2.pkt.cls = 5) with
  | some (i, _) => some (i, id)
  | none =>
    let rs := (List.range 64).filter (fun r => (headOf ready r).isSome)
    let since (r : Nat) : Nat := max (((headOf ready r).map (·.2.since)).getD 0) (q.gwAges.look r 0 - 1)
    match promotedOf (s.fld fRgnQosCtrlPromoteAge) s.mono since rs with
    | some r => (headOf ready r).map (fun x => (x.1, fun q => { q with gwAges := q.gwAges.put r (s.mono + 1) 0 }))
    | none =>
      let cost (r : Nat) : Nat := 128 * ((headOf ready r).map (·.2.pkt.flits)).getD 0
      let own : Tbl Nat := (q.deficit.filter (fun x => decide (2048 ≤ x.1))).map (fun x => (x.1 - 2048, x.2))
      match drr (fun r => 256 * s.rgn r fRgnQosPortWeight) cost 64 q.gwTurn (rs.filter (fun r => s.rgn r fRgnQosPortWeight != 0)) own with
      | none => none
      | some (r, d) =>
        (headOf ready r).map (fun x => (x.1, fun q => { q with
          gwTurn := r + 1, deficit := q.deficit.filter (fun x => decide (x.1 < 2048)) ++ d.map (fun x => (x.1 + 2048, x.2)) }))

/-! ### Blocks that go out (R287, R290 to R292) -/

/-- A timestamp at a port in quarter nanoseconds: the counter, the quarter nanoseconds since its tick, and a correction in two's complement. (DESIGN CHOICE, log entry 49.) -/
def State.stamp (s : State) (sub : Nat) (adj : Int) : Nat := ((4 * s.time + sub : Nat) + adj).toNat

/-- The same at a time before. -/
def stampAt (now sub : Nat) (adj : Int) : Nat := ((4 * now + sub : Nat) + adj).toNat

/-- A packet as it leaves: its fields as its header carries them, and a time packet with the counter at its own transmission (R311, R330). -/
def State.leave (s : State) (p : Nat) (x : FabPkt) : FabPkt :=
  let y := onWire x
  match y.body with
  | .time _ back => { y with body := .time (s.stamp (s.port p).ttSub (signedOf 16 (s.pfld p fPortPtpTxAdjAdj))) back }
  | _ => y

/-- Packets move from a gateway's buffer to the flits that leave next, against credits, until a block is full or none may go (R290, R291). -/
def State.gather (s : State) (p : Nat) : Nat → State
  | 0 => s
  | fuel + 1 =>
    let q := s.port p
    if 16 ≤ q.tx.length then s
    else match s.pickPacket p with
      | none => s
      | some (i, f) =>
        match q.gw[i]? with
        | none => s
        | some x =>
          let y := s.leave p x.pkt
          State.gather (s.mapPort p (fun q => f { q with
            gw := q.gw.eraseIdx i, tx := q.tx ++ flitsFor y, credits := q.credits.put x.pkt.cls (q.credits.look x.pkt.cls 0 - x.pkt.flits) 0 })) p fuel

/-- Whether this end asks to change the link's width: groups wait to leave it or to come back, or the partner has asked (R287). -/
def PortSt.asks (q : PortSt) : Bool := !q.leaving.isEmpty || !q.coming.isEmpty || q.heard

/-- The next block that a port sends: up to sixteen flits, null flits in the slots left, what it has received last, a nak where the block after that has come damaged
since the block before, and the flits freed since the trailer before, at most 255 of a class (R290 to R292). -/
def PortSt.block (q : PortSt) : TxBlock :=
  { seq := q.txSeq, ack := (q.rxSeq + 2 ^ 16 - 1) % 2 ^ 16, nak := q.nak, widthReq := q.asks
    credits := (List.range 8).map (fun i => min 255 (q.freed.look i 0))
    slots := (List.range 16).map (fun i => q.tx[i]?) }

/-- A port sends a block, kept until it is acknowledged. -/
def State.emit (s : State) (p : Nat) : State :=
  let b := (s.port p).block
  (s.mapPort p (fun q => { q with
    tx := q.tx.drop 16, nak := false, txSeq := (q.txSeq + 1) % 2 ^ 16, unacked := q.unacked ++ [b], wire := q.wire ++ [b], asked := q.asked || q.asks
    freed := (List.range 8).foldl (fun (t : Tbl Nat) i => t.put i (t.look i 0 - b.credits.getD i 0) 0) q.freed })).bumpP p fPortBlocksTxCount 1

/-- A port sends what its credits, its replay buffer of 256 blocks and its shares allow, and a block reset that finds its gateway empty completes
(R276, R289 to R292). (DEDUCED, log entry 37.) -/
def State.pump (s : State) (p : Nat) : Nat → State
  | 0 => s
  | fuel + 1 =>
    let q := s.port p
    if q.resetAt.isSome && q.gw.isEmpty && q.tx.isEmpty then s.finishReset p
    else if q.active.isEmpty || 256 ≤ q.unacked.length then s
    else
      let s := s.gather p 17
      if (s.port p).tx.isEmpty then s else State.pump (s.emit p) p fuel

/-- The whole of a gateway's buffer offered to its link. -/
def State.pumpLink (s : State) (p : Nat) : State := s.pump p (gwFlits (s.port p).gw + (s.port p).tx.length + 2)

/-- The blocks of the replay buffer as they go out again: each acknowledges what has come by now and asks for no replay of its own. -/
def PortSt.again (q : PortSt) : List TxBlock := q.unacked.map (fun b => { b with ack := (q.rxSeq + 2 ^ 16 - 1) % 2 ^ 16, nak := false })

/-- A port whose replay buffer is full sends the last block in it again with the nak that is due. (DESIGN CHOICE, log entry 160.) -/
def State.nakFull (s : State) (p : Nat) : State :=
  let q := s.port p
  if !q.nak then s
  else (s.mapPort p (fun q => { q with nak := false, wire := q.wire ++ ((q.again.drop (q.again.length - 1)).map (fun b => { b with nak := true })) })).bumpP p
    fPortBlocksTxCount 1

/-- A port that is up sends at least one block, of null flits where it has no others: the sequence of blocks is continuous (R290). -/
def State.speak (s : State) (p : Nat) : State :=
  let n := (s.port p).unacked.length
  let s := s.pumpLink p
  let q := s.port p
  if q.unacked.length != n || q.active.isEmpty then s else if n < 256 then s.emit p else s.nakFull p

/-- A packet reaches a gateway: discarded while the link is down, or, escape packets apart, while the port is not admitted (R294); otherwise it enters the
buffer and the link takes what it can. While a block reset drains the gateway the link is still up (R289). -/
def State.toGateway (s : State) (p : Nat) (x : FabPkt) : State :=
  if !(s.fabLink p || (s.port p).resetAt.isSome) || (x.cls != 0 && s.pfld p fPortCtrlAdmit = 0) then s.bumpP p fPortGwDropCount x.flits
  else (s.mapPort p (fun q => { q with gw := q.gw ++ [⟨x, s.mono⟩] })).pumpLink p

/-! ## Block resets (R289) -/

/-- A block reset begins: the gateway stops accepting reservations, and the reset goes on when its buffer is empty; one in progress is joined. In Minimal Recovery Mode
the ports stay idle (R401). -/
def State.resetPort (s : State) (p : Nat) : State :=
  if (s.port p).resetAt.isSome || s.fld fRstStatusMrm = 1 then s
  else if (s.port p).gw.isEmpty && (s.port p).tx.isEmpty then s.finishReset p
  else (s.mapPort p (fun q => { q with resetAt := some s.mono })).setState p 1

/-- PORT_BLOCK_RESET. -/
def execPortBlockReset (port : Fin 16) (s : State) : Out := if s.dev = .up then .next (s.resetPort port.val) else .next s

/-- PORT_RESET_TIMEOUT: a gateway that has not drained in reset_timeout discards what it holds, sets gw_forced, and the reset goes on. -/
def execPortResetTimeout (port : Fin 16) (s : State) : Out :=
  if s.dev != .up then .next s else
  let p := port.val
  match (s.port p).resetAt with
  | none => .next s
  | some t =>
    if t + 1000 * 2 ^ s.pfld p fPortCtrlResetTimeout ≤ s.mono then
      .next (((s.dropGateway p).setP p fPortStatusGwForced 1).finishReset p)
    else .next s

/-- A write of the admission bit: set for a port with a valid partner that is not this device, or cleared (R298). -/
def State.writeAdmit (s : State) (p : Nat) (on : Bool) : State :=
  if on && (s.pfld p fPortStatusPeerValid = 0 || s.pfld p fPortStatusLoopback = 1) then s
  else (s.setP p fPortCtrlAdmit (bit on)).pumpLink p

/-- PORT_ADMIT_WRITE. -/
def execPortAdmitWrite (port : Fin 16) (on : Bool) (s : State) : Out :=
  if s.dev = .up then .next (s.writeAdmit port.val on) else .next s

/-! ## Training and retraining (R285 to R288) -/

/-- The settings of a port's receivers after both passes of bring-up: each the midpoint of the settings the passes reached, rounded in a way that the manual
does not fix (R286). -/
def midSettings (idle stress : List Nat) : List Nat :=
  (List.range (min idle.length stress.length)).map (fun i =>
    let d := idle.getD i 0 + stress.getD i 0
    if d % 2 = 0 then d / 2 else d / 2 + (Config.halfRound d).val)

/-- The failed lane groups of a port. -/
def State.failedGroups (s : State) (p : Nat) : List Nat := (List.range 8).filter (fun g => (s.pfld p fPortStatusGroupsFailed).testBit g)

/-- A lane group is marked failed. -/
def State.failGroup (s : State) (p g : Nat) : State := s.setP p fPortStatusGroupsFailed (s.pfld p fPortStatusGroupsFailed ||| 2 ^ g)

/-- The milliseconds in which each step of a link's bring-up must be done (R285). -/
def stepLimit (k : Nat) : Nat :=
  match k with
  | 0 => 10
  | 1 => 510
  | 2 => 511
  | _ => 512

/-- LANE_GROUP_TRAINING_TIMEOUT: a group that has not finished a step in its time is failed; with no good group left the port fails and reports. -/
def execLaneGroupTrainingTimeout (port : Fin 16) (group : Fin 8) (stage : Fin 4) (s : State) : Out :=
  if s.dev != .up then .next s else
  let p := port.val
  if (s.port p).mode = 1 && s.portState p = 2 && !(s.port p).linked && !(s.failedGroups p).contains group.val &&
      (s.port p).trainAt + 1000000 * stepLimit stage.val ≤ s.mono then
    let s := s.failGroup p group.val
    if (s.failedGroups p).length = 8 then .next ((s.setState p 5).note (.portFailed p)) else .next s
  else .next s

/-- LINK_INIT_COMPLETE: both ends have exchanged their good groups and agree the width; sequence numbers start at 0, each class at the partner's
allocation, and hellos may go (R285, R291). `adapted` gives the receiver settings that the training has reached from those it started from (R286). -/
def execLinkInitComplete (port : Fin 16) (good peer : List (Fin 8)) (alloc adapted : List Nat) (s : State) : Out :=
  let p := port.val
  let mine := (good.map (·.val)).filter (fun g => !(s.failedGroups p).contains g)
  let common := mine.filter (fun g => peer.any (fun h => h.val = g))
  if s.dev != .up || (s.port p).mode != 1 || s.portState p != 2 || (s.port p).linked then .next s
  else if common.isEmpty then .next ((s.setState p 5).note (.portFailed p))
  else
    let s := s.mapPort p (fun q => { q with
      eq := adapted, trained := common, linked := true, txSeq := 0, rxSeq := 0, nak := false, awaiting := false, peerReq := false, replays := 0, unacked := [], helloAt := s.mono, helloTx := 0
      cmapAt := s.mono, cmapTx := s.mono, ttTx := s.mono, ttAt := s.mono
      credits := (List.range 8).foldl (fun (t : Tbl Nat) i => t.put i (alloc.getD i 0) 0) [] })
    .next (s.setActive p (widestOf common))

/-- A port whose link is initialised is up once its first hello has gone and one has come: retraining while a group retrains, and up otherwise (R285, R287). -/
def State.settleUp (s : State) (p : Nat) : State :=
  let q := s.port p
  if q.linked && q.greeted && q.helloTx != 0 && q.resetAt.isNone then s.setState p (if q.retrain.isEmpty then 3 else 4) else s

/-- The groups of a link that carry or could carry traffic: those that came up, neither failed nor retraining. -/
def State.goodGroups (s : State) (p : Nat) : List Nat :=
  let q := s.port p
  q.trained.filter (fun g => !(s.failedGroups p).contains g && decide (q.retrain.look g 0 = 0))

/-- A link takes the largest width its good groups allow; with every group failed it goes down (R287, R288). -/
def State.rewidth (s : State) (p : Nat) : State :=
  let gs := s.goodGroups p
  if gs.isEmpty && (s.port p).retrain.isEmpty then s.goDown p
  else ((s.setActive p (widestOf gs)).settleUp p).pumpLink p

/-- The width changes at a block boundary once both ends have asked: the groups that were to leave retrain, those retrained come back, and the blocks in
flight are sent again in order (R287, R292). -/
def State.agree (s : State) (p : Nat) : State :=
  let q := s.port p
  if !(q.asked && q.heard) then s
  else
    let out := q.leaving.filter (s.goodGroups p).contains
    let s := s.mapPort p (fun q => { q with
      leaving := [], coming := [], asked := false, heard := false, wire := q.wire ++ q.again
      retrain := out.foldl (fun (t : Tbl Nat) g => t.put g (s.mono + 1) 0) (q.retrain.filter (fun x => !q.coming.contains x.1)) })
    let s := s.bumpP p fPortRetrainCount out.length
    let s := if q.unacked.isEmpty then s else (s.bumpP p fPortReplayCount 1).bumpP p fPortBlocksTxCount q.unacked.length
    s.rewidth p

/-- This end asks for a group of a link to retrain in place (R287). -/
def State.startRetrain (s : State) (p g : Nat) : State :=
  if s.fabLink p && (s.goodGroups p).contains g && !(s.port p).leaving.contains g then
    ((s.mapPort p (fun q => { q with leaving := q.leaving ++ [g] })).speak p).agree p
  else s

/-- FEC_WINDOW_CHECK: at the end of a one-millisecond window, a group whose corrected symbols have passed the limit is to retrain (R287, R308). -/
def execFecWindowCheck (port : Fin 16) (group : Fin 8) (s : State) : Out :=
  let p := port.val
  let q := s.port p
  let t := q.windows.look group.val 0
  if !s.fabLink p || t = 0 || s.mono < t - 1 + 1000000 then .next s
  else
    let n := q.symbols.look group.val 0
    let s := s.mapPort p (fun q => { q with symbols := q.symbols.put group.val 0 0, windows := q.windows.put group.val 0 0 })
    if 2 ^ (s.pfld p fPortCtrlBerLimit + 6) < n then .next (s.startRetrain p group.val) else .next s

/-- GROUP_RETRAIN_COMPLETE: the group is good again and waits for an agreed block boundary to come back; a link with no group left takes it at once. -/
def execGroupRetrainComplete (port : Fin 16) (group : Fin 8) (s : State) : Out :=
  if s.dev != .up then .next s else
  let p := port.val
  let g := group.val
  let q := s.port p
  if q.retrain.look g 0 = 0 || q.coming.contains g then .next s
  else if q.active.isEmpty then .next ((s.mapPort p (fun q => { q with retrain := q.retrain.put g 0 0 })).rewidth p)
  else .next (((s.mapPort p (fun q => { q with coming := q.coming ++ [g] })).speak p).agree p)

/-- GROUP_RETRAIN_TIMEOUT: a group not retrained in 50 ms is failed and the link stays narrow. -/
def execGroupRetrainTimeout (port : Fin 16) (group : Fin 8) (s : State) : Out :=
  if s.dev != .up then .next s else
  let p := port.val
  let t := (s.port p).retrain.look group.val 0
  if t = 0 || (s.port p).coming.contains group.val || s.mono < t - 1 + 50000000 then .next s
  else .next (((s.mapPort p (fun q => { q with retrain := q.retrain.put group.val 0 0 })).failGroup p group.val).rewidth p)

/-! ## Link blocks (R290 to R292, R298, R314) -/

/-- The flits of a class in a port's receive buffer: of packets received whole or in part, and of those that wait in it for another gateway (R291, R293). -/
def State.rxHolds (s : State) (p cls : Nat) : Nat :=
  let q := s.port p
  q.arrived.foldl (fun n x => if x.cls = cls then n + x.flits else n) 0 +
    ((q.rxPart.look cls none).map (fun x => x.1.flits - x.2)).getD 0 +
    s.fabWait.foldl (fun n x => if x.inPort = p && x.pkt.cls = cls then n + x.pkt.flits else n) 0

/-- Whether a packet carries times of the time transfer, and so is timestamped as it arrives (R330). -/
def timedPkt (x : FabPkt) : Bool :=
  match x.body with
  | .time _ _ => true
  | _ => false

/-- A packet has come whole at a time. -/
def PortSt.arrive (q : PortSt) (now : Nat) (x : FabPkt) : PortSt :=
  { q with arrived := q.arrived ++ [x], ttCame := if timedPkt x then q.ttCame ++ [now] else q.ttCame }

/-- The time at which the packet at a place of a port's receive buffer came, for one that is timestamped. -/
def PortSt.cameAt (q : PortSt) (idx : Nat) : Nat := q.ttCame.getD ((q.arrived.take idx).filter timedPkt).length 0

/-- A packet out of its place in a port's receive buffer. -/
def PortSt.takeOut (q : PortSt) (idx : Nat) : PortSt :=
  { q with
    arrived := q.arrived.eraseIdx idx
    ttCame := if (q.arrived[idx]?).any timedPkt then q.ttCame.eraseIdx ((q.arrived.take idx).filter timedPkt).length else q.ttCame }

/-- A flit joins its packet: the first begins one, and the last completes it. -/
def PortSt.takeFlit (q : PortSt) (now : Nat) (f : Flit) : PortSt :=
  match f.head with
  | some x =>
    let x := onWire x
    if x.flits ≤ 1 then q.arrive now x else { q with rxPart := q.rxPart.put f.cls (some (x, x.flits - 1)) none }
  | none =>
    match q.rxPart.look f.cls none with
    | none => q.free f.cls 1
    | some (x, n) =>
      if n ≤ 1 then { q.arrive now x with rxPart := q.rxPart.put f.cls none none }
      else { q with rxPart := q.rxPart.put f.cls (some (x, n - 1)) none }

/-- A valid slot of a block: a flit of an unused class, and one that is not of the escape class at a port not admitted, are discarded with their
credits returned (R298, R314), and so is one for which the class's buffer has no room, which a sender that keeps to its credits never sends (R291). -/
def State.takeSlot (s : State) (p : Nat) (f : Flit) : State :=
  if f.cls = 6 || f.cls = 7 then (s.mapPort p (fun q => q.free f.cls 1)).bump fFabClassDropCount 1
  else if f.cls != 0 && s.pfld p fPortCtrlAdmit = 0 then (s.mapPort p (fun q => q.free f.cls 1)).bumpP p fPortNotAdmittedCount 1
  else if (s.port p).rxAlloc.getD f.cls 0 ≤ s.rxHolds p f.cls then s.mapPort p (fun q => q.free f.cls 1)
  else s.mapPort p (fun q => q.takeFlit s.time f)

/-- The blocks still unacknowledged after an acknowledgement. -/
def ackedDrop (ack : Nat) (l : List TxBlock) : List TxBlock :=
  match l.findIdx? (fun b => b.seq = ack) with
  | some i => l.drop (i + 1)
  | none => l

/-- What an intact block acknowledges, and a nak, on which the blocks after the last good one go out again in order: one nak answers one failure of the block that is
awaited, and a block that has failed sixteen replays in a row takes the link down (R292). -/
def State.takeAck (s : State) (p : Nat) (b : LinkBlock) : State :=
  let moved := (s.port p).unacked.any (fun x => x.seq = b.ack)
  let s := s.mapPort p (fun q => { q with unacked := ackedDrop b.ack q.unacked, replays := if moved then 0 else q.replays })
  if b.nak then
    let n := (s.port p).replays + 1
    if 17 ≤ n then s.goDown p
    else
      let s := s.mapPort p (fun q => { q with replays := n, wire := q.wire ++ q.again })
      (s.bumpP p fPortReplayCount 1).bumpP p fPortBlocksTxCount (s.port p).unacked.length
  else s

/-- The trailer of an intact block: the credits it returns, and what it acknowledges (R291, R292). -/
def State.takeTrailer (s : State) (p : Nat) (b : LinkBlock) : State :=
  (s.mapPort p (fun q => { q with
    credits := (List.range 8).foldl (fun (t : Tbl Nat) i => t.put i (t.look i 0 + b.credits.getD i 0) 0) q.credits })).takeAck p b

/-- What the FEC did over a block: the codewords counted, the corrected symbols added to their groups' windows, and a retrain of each group that
delivered an uncorrectable codeword (R287). -/
def State.takeFec (s : State) (p : Nat) (b : LinkBlock) : State :=
  let s := (s.bumpP p fPortFecCeCount b.corrected).bumpP p fPortFecUeCount b.uncorrectable.length
  let s := s.mapPort p (fun q => b.symbols.foldl (fun (q : PortSt) x =>
    { q with
      symbols := q.symbols.put x.1.val (q.symbols.look x.1.val 0 + x.2) 0
      windows := if q.windows.look x.1.val 0 = 0 then q.windows.put x.1.val (s.mono + 1) 0 else q.windows }) q)
  b.uncorrectable.foldl (fun s g => s.startRetrain p g.val) s

/-- The width-change request of an intact block: this end has seen it, and takes out of the link the groups it is for (R287). The request stands from block to block until
both ends have seen it, so one that stood in the block before is no new one. -/
def State.takeWidth (s : State) (p : Nat) (b : LinkBlock) : State :=
  let old := (s.port p).peerReq
  let s := s.mapPort p (fun q => { q with peerReq := b.widthReq })
  if !b.widthReq || old || !s.fabLink p then s
  else
    let gs := (b.groups.map (·.val)).filter (fun g => (s.goodGroups p).contains g && !(s.port p).leaving.contains g)
    s.mapPort p (fun q => { q with heard := true, leaving := q.leaving ++ gs })

/-- Whether a block that comes intact is one of the last 256 before the one awaited, which has been accepted already. -/
def PortSt.stale (q : PortSt) (seq : Nat) : Bool :=
  let d := (q.rxSeq + 2 ^ 16 - seq % 2 ^ 16) % 2 ^ 16
  decide (1 ≤ d) && decide (d ≤ 256)

/-- LINK_BLOCK_RECEIVE: an intact block in sequence is accepted, flit by flit; a damaged one, and every later one until it arrives intact, is discarded,
with one nak for each time that the awaited block comes damaged (R292). Of a block accepted before only the acknowledgement counts. A width that both ends have asked for
changes before the next block goes. The link's other direction goes on with at least one block (R290). (DESIGN CHOICE, log entry 160.) -/
def execLinkBlockReceive (port : Fin 16) (block : LinkBlock) (s : State) : Out :=
  if s.dev != .up then .next s else
  let p := port.val
  if (s.port p).mode != 1 || (s.port p).active.isEmpty then .next s
  else
    let s := (s.bumpP p fPortBlocksRxCount 1).mapPort p (fun q => { q with wire := [] })
    let good := block.crcOk && block.uncorrectable.isEmpty
    let s := s.takeFec p block
    if !good || block.seq != (s.port p).rxSeq then
      let q := s.port p
      let fails := !good && (!q.awaiting || decide (block.seq = q.rxSeq))
      let s := s.mapPort p (fun q => { q with nak := q.nak || fails, awaiting := q.awaiting || fails })
      .next ((if good && q.stale block.seq then s.takeAck p block else s).speak p)
    else
      let s := s.mapPort p (fun q => { q with rxSeq := (q.rxSeq + 1) % 2 ^ 16, nak := false, awaiting := false })
      let s := block.slots.foldl (fun s x =>
        match x with
        | none => s
        | some f => s.takeSlot p f) s
      .next (((((s.takeTrailer p block).takeWidth p block).agree p).speak p).agree p)

/-! ## Holding -/

/-- GATEWAY_HOLD_LIMIT: packets that a gateway has held through hold_limit of a retrain are discarded (R295). (DEDUCED, log entry 53.) -/
def execGatewayHoldLimit (port : Fin 16) (s : State) : Out :=
  if s.dev != .up then .next s else
  let p := port.val
  let began := (s.port p).retrain.foldl (fun n x => max n x.2) 0
  let limit := 1000000 * 2 ^ s.pfld p fPortCtrlHoldLimit
  if s.portState p = 4 then .next (s.gwDiscard p (fun x => decide (max x.since (began - 1) + limit ≤ s.mono))) else .next s

/-! ## Partners (R296, R297) -/

/-- Whether this device's time is locked: by its parent, or at a root while the time is valid and not held over (R331). -/
def State.timeLocked (s : State) : Bool :=
  if s.fld fFabTimeParentEn = 1 then decide (s.fld fFabTimeLocked = 1)
  else decide (s.fld fTimeStatusValid = 1) && decide (s.fld fTimeStatusHoldover = 0)

/-- The least header of a packet that a port itself sends its partner. -/
def State.portPacket (s : State) (cls kind : Nat) (b : FabBody) : FabPkt :=
  { dstDev := 0x3FFFF, srcDev := if s.fld fFabIdValid = 1 then s.fld fFabIdDeviceId else 0x3FFFF, cls := cls
    epoch := decide (s.fld fFabEpochBit = 1), hops := 0, dstRegion := 0, gen := 0, kind := kind, injectUs := s.time / 1000 % 2 ^ 32, srcRegion := 0
    route := [], routeIdx := 0, downTaken := false, x := 0, y := 0, sx := 0, sy := 0, flits := 1, body := b }

/-- The contents of a port's next hello. -/
def State.helloOf (s : State) (p : Nat) : Hello :=
  { eui := Config.eui, device := s.pfld p fPortHelloDeviceId, port := p, groups := (s.port p).active.length, lifecycle := s.lifecycle
    admitted := decide (s.pfld p fPortCtrlAdmit = 1), hseq := (s.port p).helloSeq, epoch := s.fld fFabEpochFmEpoch }

/-- HELLO_SEND: a port sends a hello at once after link initialisation and then every interval (R285, R296). -/
def execHelloSend (port : Fin 16) (s : State) : Out :=
  let p := port.val
  let q := s.port p
  if s.fabLink p && (q.helloTx = 0 || q.helloTx - 1 + 100000 * s.pfld p fPortHelloInterval ≤ s.mono) then
    let v := s.voteWhere (fun a => decide (a = fFabIdValid.off))
    if !v.1 then .next v.2 else
    let s := v.2
    let x := s.portPacket 0 9 (.hello (s.helloOf p))
    .next ((s.mapPort p (fun q => { q with helloTx := s.mono + 1, helloSeq := (q.helloSeq + 1) % 2 ^ 16 })).toGateway p x |>.settleUp p)
  else .next s

/-- A packet leaves a port's receive buffer. -/
def State.takeArrived (s : State) (p idx : Nat) (x : FabPkt) : State :=
  s.mapPort p (fun q => (q.takeOut idx).free x.cls x.flits)

/-- A hello received: the partner's fields are recorded; a first one is an appearance, one with another EUI-64 a loss and an appearance, and one with
this device's own sets loopback (R297). -/
def State.hear (s : State) (p : Nat) (h : Hello) : State :=
  let known := decide (s.pfld p fPortStatusPeerValid = 1)
  let same := known && decide (s.reg (fPortPeerEuiEui.off + 0x1000 * p) = h.eui)
  let s := if known && !same then s.losePeer p else s
  let s := s.setReg (fPortPeerEuiEui.off + 0x1000 * p) h.eui
  let s := (s.setP p fPortPeerDeviceId h.device).setP p fPortPeerPort h.port
  let s := ((s.setP p fPortPeerGroups h.groups).setP p fPortPeerLifecycle h.lifecycle).setP p fPortPeerFmEpoch h.epoch
  let s := (s.setP p fPortStatusPeerValid 1).setP p fPortStatusLoopback (bit (h.eui = Config.eui))
  let s := (s.mapPort p (fun q => { q with helloAt := s.mono, greeted := true })).settleUp p
  if same then s else s.note (.peer p true)

/-- While the fabric-manager role is on, a port is admitted once its partner's hello matches a device that the Scribe Complex manages, and the time is locked (R312,
R339). -/
def State.admitManaged (s : State) (p : Nat) (h : Hello) : State :=
  if s.fld fScrStatusFmRole = 1 && s.scribe.managed.contains h.eui.toNat && s.timeLocked && s.pfld p fPortCtrlAdmit = 0 then s.writeAdmit p true else s

/-- HELLO_RECEIVE; a hello too old to act on is discarded (R312). -/
def execHelloReceive (port : Fin 16) (idx : Nat) (s : State) : Out :=
  let p := port.val
  match (s.port p).arrived[idx]? with
  | none => .next s
  | some x =>
    match x.body with
    | .hello h =>
      if s.tooOld x.injectUs then .next (s.takeArrived p idx x).ageDrop
      else if s.fabLink p then .next (((s.takeArrived p idx x).hear p h).admitManaged p h) else .next (s.takeArrived p idx x)
    | _ => .next s

/-- PEER_LOSS: loss_count intervals without a hello lose the partner (R297). -/
def execPeerLoss (port : Fin 16) (s : State) : Out :=
  let p := port.val
  let wait := 100000 * s.pfld p fPortHelloInterval * s.pfld p fPortHelloLossCount
  if s.fabLink p && s.pfld p fPortStatusPeerValid = 1 && (s.port p).helloAt + wait ≤ s.mono then .next (s.losePeer p) else .next s

/-! ## Ethernet (R299 to R307) -/

/-- Whether an Ethernet link is up: its port runs in Ethernet mode, the link is in use and it has come up (R299). -/
def State.etherUp (s : State) (p g : Nat) : Bool :=
  decide ((s.port p).mode = 2) && (s.pfld p fPortEthStatusLinkUp).testBit g && decide (s.fld (fldAt fPortEthMacEnable (0x1000 * p + 8 * g)) = 1)

/-- The preamble of a frame with its start-of-frame delimiter. (PRESUMED, log entry 121.) -/
def preamble : List Byte := List.replicate 7 0x55 ++ [0xD5]

/-- The frame as it goes out on the wire: the preamble, the frame padded to 60 B and with its checksums where the port inserts them, and the FCS (R305). -/
def State.wireFrame (s : State) (p : Nat) (bs : List Byte) : List Byte :=
  let bs := bs ++ List.replicate (60 - bs.length) 0
  let bs := if s.pfld p fPortEthCtrlCsumIns = 1 then insertCsums bs else bs
  preamble ++ bs ++ bytesOfNat 4 (crc32 bs)

/-- The frames of a port's Scribe egress queue that may leave: while the oldest one's link is up it goes out, with a timestamp where it carries a tag; a timestamp
that finds the queue of 64 full is lost (R307, R338). -/
def State.drainQueue (s : State) (p : Nat) : Nat → State
  | 0 => s
  | fuel + 1 =>
    match (s.port p).scribeQ with
    | [] => s
    | x :: r =>
      if !s.etherUp p x.link then s
      else
        let frame := s.wireFrame p x.bytes
        let s := (s.bumpP p fPortEthTxFramesCount 1).mapPort p (fun q => { q with scribeQ := r, sentFrame := some (x.link, frame) })
        let s := match x.tag with
          | none => s
          | some (t, sub) =>
            if 64 ≤ (s.port p).ptpQ.length then s.bumpP p fPortPtpTxLostCount 1
            else
              let at_ := s.stamp sub (signedOf 16 (s.pfld p fPortPtpTxAdjAdj))
              s.mapPort p (fun q => { q with ptpQ := q.ptpQ ++ [(t, x.link, at_)] })
        State.drainQueue s p fuel

/-- Every frame of the Scribe egress queue that may leave. -/
def State.drainScribe (s : State) (p : Nat) : State := s.drainQueue p (s.port p).scribeQ.length

/-- A link comes up, as KR4 or CR4, or goes down (R299). -/
def State.setLink (s : State) (p g : Nat) (up cr4 : Bool) : State :=
  let m := 2 ^ g
  let setBit (v : Nat) (b : Bool) : Nat := if b then v ||| m else v &&& (255 - m)
  let v := setBit (s.pfld p fPortEthStatusLinkUp) up
  let s := (s.setP p fPortEthStatusLinkUp v).setP p fPortEthStatusCr4 (setBit (s.pfld p fPortEthStatusCr4) (up && cr4))
  s.setState p (if v = 0 then 2 else 3)

/-- A link that is no longer in use is down at once: it runs only while its enable is 1 (R299). -/
def State.dropLink (s : State) (p g : Nat) : State :=
  if (s.port p).mode = 2 && (s.pfld p fPortEthStatusLinkUp).testBit g && s.fld (fldAt fPortEthMacEnable (0x1000 * p + 8 * g)) = 0 then s.setLink p g false false
  else s

/-- Whether a frame is a PAUSE or a priority flow control frame: a MAC control frame with opcode 0x0001 or 0x0101 (R282). (PRESUMED, log entry 40.) -/
def isPause (bs : List Byte) : Bool := decide (octets bs 12 2 = 0x8808) && (octets bs 14 2 = 0x0001 || octets bs 14 2 = 0x0101)

/-- Whether a link accepts a frame's destination: its own address, broadcast or multicast (R299). -/
def State.etherMine (s : State) (p link : Nat) (bs : List Byte) : Bool :=
  decide (octets bs 0 6 = s.fld (fldAt fPortEthMacAddress (0x1000 * p + 8 * link))) || octets bs 0 1 % 2 = 1

/-- A frame passed to the Scribe Complex with the results of both checks (R301, R304). -/
def State.toScribe (s : State) (p link : Nat) (bs : List Byte) (t : Nat) : State :=
  let x := parseFrame bs
  let f : ScrFrame := ⟨p, link, bs, t, ipCsumOk bs x, udpCsumOk bs x⟩
  { s.bumpP p fPortEthToScribeCount 1 with scrFrames := s.scrFrames ++ [f] }

/-- A frame for a client: its checksums, the client's entry, its region, which takes ingress only while it runs, and the ingress buffer of 4 MiB are checked, and it
waits for delivery (R271, R303, R304). -/
def State.toClient (s : State) (p k : Nat) (bs : List Byte) (t : Nat) : State :=
  let x := parseFrame bs
  if !ipCsumOk bs x || !udpCsumOk bs x then s.bumpP p fPortEthCsumDropCount 1
  else if s.cli k fCliCfgValid = 0 then s.bumpP p fPortEthNocliDropCount 1
  else if s.rgn (s.cli k fCliCfgRegion) fRgnStatusState != 2 then s.dropIngress p k
  else if 4194304 < (s.port p).ingress.foldl (fun n f => n + f.bytes.length) bs.length then
    (s.bumpP p fPortEthBufDropCount 1).bumpCli k fCliIngDropCount 1
  else s.mapPort p (fun q => { q with ingress := q.ingress ++ [⟨k, s.cli k fCliCfgRegion, 0, bs, t / 4, s.mono, none⟩] })

/-- A frame accepted by its link is parsed and classified (R300, R301). -/
def State.sortFrame (s : State) (p link : Nat) (bs : List Byte) (t : Nat) : State :=
  let x := parseFrame bs
  if x.forScribe then s.toScribe p link bs t
  else match s.classify p x with
    | none => s.toScribe p link bs t
    | some e =>
      match e.f fPortClsStage0Action with
      | 0 => s.toClient p (e.f fPortClsStage0Client) bs t
      | 1 => s.toScribe p link bs t
      | _ => s.bumpP p fPortEthClsDropCount 1

/-- ETH_FRAME_RECEIVE: a frame, without its FCS, arrives on a link; its FCS and length are checked, then what it is and whom it is for. -/
def execEthFrameReceive (port : Fin 16) (link : Fin 8) (bytes : List Byte) (fcsOk : Bool) (sub : Fin 40) (s : State) : Out :=
  let p := port.val
  let g := link.val
  let len := bytes.length + 4
  if s.dev != .up || !s.etherUp p g then .next s
  else if !fcsOk || len < 64 || s.pfld p fPortEthCtrlMaxFrame < len then .next (s.bumpP p fPortEthFcsDropCount 1)
  else if isPause bytes then .next (s.bumpP p fPortEthPauseDropCount 1)
  else if !s.etherMine p g bytes then .next s
  else
    let t := s.stamp sub.val (-(signedOf 16 (s.pfld p fPortPtpRxAdjAdj)))
    .next ((s.bumpP p fPortEthRxFramesCount 1).sortFrame p g bytes t)

/-- The settings of a port's 32 receivers with those of a link's four lanes replaced. -/
def adaptLanes (g : Nat) (adapted eq : List Nat) : List Nat :=
  (List.range 32).map (fun i => if i / 4 = g then adapted.getD (i % 4) 0 else eq.getD i 0)

/-- ETH_LINK_STATE_CHANGE: a link comes up, as KR4 or CR4 and with the settings to which its lanes' receivers have adapted, or goes down; egress takes the next link that
is up (R286, R299, R305). (DEDUCED, log entry 41.) -/
def execEthLinkStateChange (port : Fin 16) (link : Fin 8) (up : Bool) (found : EthFound) (s : State) : Out :=
  let p := port.val
  if s.dev != .up || (s.port p).mode != 2 || (s.portState p != 2 && s.portState p != 3) ||
      (up && s.fld (fldAt fPortEthMacEnable (0x1000 * p + 8 * link.val)) = 0) then .next s
  else
    let s := if up then s.mapPort p (fun q => { q with eq := adaptLanes link.val found.adapted q.eq }) else s
    .next ((s.setLink p link.val up found.cr4).drainScribe p)

/-- PORT_CLS_CMD_WRITE: with write = 1 the staging registers are copied into the entry whole, or refused (R302). -/
def execPortClsCmdWrite (value : Word) (s : State) : Out :=
  if s.dev = .up && bitOf value 12 then .next (s.clsCommand (fieldOf value 0 12)) else .next s

/-- A read of PORT_PTP_TX_TAG: the head of the egress timestamp queue is removed and its time latched (R307). -/
def State.popTag (s : State) (p : Nat) : State :=
  match (s.port p).ptpQ with
  | [] => s.setP p fPortPtpTxTagValid 0
  | (tag, link, t) :: r =>
    let s := s.mapPort p (fun q => { q with ptpQ := r })
    let s := ((s.setP p fPortPtpTxTagTag tag).setP p fPortPtpTxTagLink link).setP p fPortPtpTxTagValid 1
    s.setReg (fPortPtpTxTsTime.off + 0x1000 * p) (BitVec.ofNat 64 t)

/-- PTP_TX_TAG_READ, by a Scribe core. -/
def execPtpTxTagRead (port : Fin 16) (s : State) : Out :=
  if s.dev != .up then .next s
  else
    let s := s.popTag port.val
    .next { s with lastRead := s.reg (fPortPtpTxTagTag.off + 0x1000 * port.val) }

end Sys2Proof.Machine
end

