-- ==== Sys2Proof/Machine/Client.lean ====
section
/-! DEFINITION. Clients: admission and removal, and the ports' work on their rings (rows CLIENT_ADMIT to EGRESS_FRAME_SEND; R265 to R270, R275,
R305, R335, R477). -/

namespace Sys2Proof.Machine

/-! ## Admission (R265, R335, R477) -/

/-- The words of a ring: its control granule and its slots (R268). -/
def ringWords (n size : Nat) : Nat := 64 + 2 ^ n * 64 * (size + 1)

/-- A ring as CLI_ING or CLI_EGR gives it: its core, its base and its end. -/
structure Ring where
  x : Nat
  y : Nat
  base : Nat
  n : Nat
  stop : Nat
  deriving DecidableEq, Repr

/-- The ring that a word of CLI_ING or CLI_EGR describes. -/
def ringOf (w : Word) : Ring :=
  let b := fieldOf w 14 19
  ⟨fieldOf w 0 7, fieldOf w 7 7, b, fieldOf w 33 4, b + ringWords (fieldOf w 33 4) (fieldOf w 37 5)⟩

/-- Whether two rings share a word. -/
def Ring.meets (a b : Ring) : Bool := decide (a.x = b.x) && decide (a.y = b.y) && decide (a.base < b.stop) && decide (b.base < a.stop)

/-- Whether a ring is well formed and lies in one of the image's ring areas (R265, R280). -/
def State.ringFits (s : State) (r : Nat) (a : Ring) : Bool :=
  decide (1 ≤ a.n) && decide (a.n ≤ 12) && a.base % 64 = 0 &&
  (s.rgnSt r).rings.any (fun g => decide (g.x = a.x) && decide (g.y = a.y) && decide (g.base ≤ a.base) && decide (a.stop ≤ g.base + g.len))

/-- The two rings of each valid client of a region (R265). -/
def State.ringsOf (s : State) (r : Nat) : List Ring :=
  (s.clientsOf r).flatMap (fun k => [ringOf (s.reg (fCliIngX.off + 0x80 * k)), ringOf (s.reg (fCliEgrX.off + 0x80 * k))])

/-- The most clients the licence allows (R4, R5). -/
def State.clientLimit (s : State) : Nat := if s.lic.tenancy then 1024 else 64

/-- The valid entries of the client table. -/
def State.clientsOn (s : State) : List Nat := (List.range 1024).filter (fun k => decide (s.cli k fCliCfgValid = 1))

/-- The word at byte `i` of a payload. -/
def payWord (p : List Byte) (i : Nat) : Word := wordOfBytes ((p.drop i).take 8)

/-- The first bad field of a CLIENT_ADMIT payload, if it breaks the layout of R477. -/
def admitBad (p : List Byte) : Option Nat :=
  let w := payWord p 0
  let id := fieldOf w 0 16
  badPayload p 40 [(0, 2, id = 0xFFFF || decide (id < 1024)), (2, 6, fieldOf w 16 48 = 0), (8, 8, !bitOf (payWord p 8) 0), (16, 8, true), (24, 8, true),
    (32, 8, true)]

/-- The first bad field of a CLIENT_REMOVE payload (R477). -/
def removeBad (p : List Byte) : Option Nat :=
  badPayload p 8 [(0, 2, decide (fieldOf (payWord p 0) 0 16 < 1024)), (2, 6, fieldOf (payWord p 0) 16 48 = 0)]

/-- The entry an admission fills: the one it names, or the lowest that is not valid (R477). -/
def State.admitEntry (s : State) (id : Nat) : Nat :=
  if id = 0xFFFF then ((List.range 1024).find? (fun k => decide (s.cli k fCliCfgValid = 0))).getD 0 else id

/-- The status and detail of an admission that is refused, in the order of R335, or none. -/
def State.admitRefused (s : State) (p : List Byte) : Option (Nat × Option Nat) :=
  let id := fieldOf (payWord p 0) 0 16
  let cfg := payWord p 8
  let r := fieldOf cfg 1 6
  let ing := ringOf (payWord p 24)
  let egr := ringOf (payWord p 32)
  let other := s.ringsOf r
  if s.lifecycle != 2 then some (5, some s.lifecycle)
  else match admitBad p with
    | some d => some (2, some d)
    | none =>
      if 1024 ≤ s.clientsOn.length then some (0x11, none)
      else if id != 0xFFFF && s.cli id fCliCfgValid = 1 then some (0x17, some id)
      else if s.clientLimit ≤ s.clientsOn.length then some (0x10, some s.clientLimit)
      else if s.rgn r fRgnStatusState != 1 && s.rgn r fRgnStatusState != 2 then some (0x12, some r)
      else if !s.ringFits r ing || other.any ing.meets then some (0x13, some 0)
      else if !s.ringFits r egr || other.any egr.meets || ing.meets egr then some (0x13, some 1)
      else none

/-- A reply's payload for a status and its detail. -/
def detailOf : Option Nat → List Byte
  | none => []
  | some d => detailWord d

/-- A reply to a request, the management controller's or one of the firmware's own (R334). -/
def State.tell (s : State) (own : Bool) (op st : Nat) (d : Option Nat) : State :=
  if own then { s with scribe := { s.scribe with own := some (op, st, detailOf d) } } else s.answer op st (detailOf d)

/-- The entry of an admission written with valid at 0, and its rings zeroed (steps 2 and 3 of R335). -/
def State.fillEntry (s : State) (k : Nat) (p : List Byte) : State :=
  let o := 0x80 * k
  let s := s.setReg (fCliCfgValid.off + o) (BitVec.ofNat 64 (fieldOf (payWord p 8) 0 20))
  let s := s.setReg (fCliSeedSeed.off + o) (payWord p 16)
  let s := s.setReg (fCliIngX.off + o) (BitVec.ofNat 64 (fieldOf (payWord p 24) 0 42))
  let s := s.setReg (fCliEgrX.off + o) (BitVec.ofNat 64 (fieldOf (payWord p 32) 0 50))
  s.zeroRings k

/-- The entry made valid, and the client's classification entries written (steps 4 and 5 of R335). -/
def State.enrol (s : State) (k : Nat) (entries : List (Nat × Word × Word × Word)) : State :=
  let s := s.setCli k fCliCfgValid 1
  let s := { s with removing := s.removing.put k 0 0 }
  let s := s.mapPort (s.cli k fCliCfgPort) (fun q => { q with egress := q.egress.put k egrNew egrNew })
  entries.foldl State.clsWrite s

/-- An entry cleared, as one whose region has left ready and running before it was made valid (R335). -/
def State.clearEntry (s : State) (k : Nat) : State :=
  let o := 0x80 * k
  (((s.setReg (fCliCfgValid.off + o) 0).setReg (fCliSeedSeed.off + o) 0).setReg (fCliIngX.off + o) 0).setReg (fCliEgrX.off + o) 0

/-- An admission carried out: refused with its status, or done in the steps of R335. `mid` says that a reset takes the region out of ready and running between
the zeroing of the rings and the setting of valid. -/
def State.admitClient (s : State) (own mid : Bool) (p : List Byte) (entries : List (Nat × Word × Word × Word)) : State :=
  match s.admitRefused p with
  | some (st, d) => s.tell own 0x24 st d
  | none =>
    let k := s.admitEntry (fieldOf (payWord p 0) 0 16)
    let r := fieldOf (payWord p 8) 1 6
    let s := s.fillEntry k p
    let s := if mid then s.resetJob r else s
    if s.rgn r fRgnStatusState != 1 && s.rgn r fRgnStatusState != 2 then (s.clearEntry k).tell own 0x24 0x12 (some r)
    else (s.enrol k entries).tell own 0x24 0 (some k)

/-! ### Turns of the Scribe Complex (R277) -/

/-- Work that waits for a turn of the Scribe Complex: its region, the time it came, an admission's payload, and whether it is the management controller's request at the
head of the queue. -/
structure ScrWait where
  region : Nat
  since : Nat
  enrols : Option (List Byte)
  req : Bool
  deriving DecidableEq, Repr

/-- A piece of the queues' work as it waits. -/
def ScrWork.wait (x : ScrWork) : ScrWait :=
  match x.job with
  | .enrolOwn p _ => ⟨x.region, x.since, some p, false⟩
  | _ => ⟨x.region, x.since, none, false⟩

/-- The region that an admission names. -/
def admitRegion (p : List Byte) : Nat := fieldOf (payWord p 8) 1 6

/-- The request at the head of the management controller's, where it is work for a region: an admission, or the setting of a binding, for which `binding` gives the
region. -/
def State.headWait (s : State) (binding : Option Nat) : Option ScrWait :=
  match s.payload 0x24 with
  | some p => some ⟨admitRegion p, s.headSince, some p, true⟩
  | none => if s.asked 0x23 then binding.map (fun r => ⟨r, s.headSince, none, true⟩) else none

/-- The work that waits for turns: that request, then the queues'. -/
def State.scrWaits (s : State) (binding : Option Nat) : List ScrWait := (s.headWait binding).toList ++ s.scribe.work.map ScrWork.wait

/-- Whether two admissions race: for one named entry, or for the last that the table or the licence leaves (R335, R477). -/
def State.race (s : State) (p q : List Byte) : Bool :=
  let id (x : List Byte) : Nat := fieldOf (payWord x 0) 0 16
  (decide (id p = id q) && id p != 0xFFFF) || decide (s.clientLimit ≤ s.clientsOn.length + 1)

/-- Whether an admission is held behind one that came before it and races with it, on whichever queue (R335, R477). (DEDUCED, log entry 113.) -/
def State.outraced (s : State) (x : ScrWait) : Bool :=
  x.enrols.any (fun p =>
    (!x.req && s.scribe.reqs.any (fun r => decide (r.opcode = 0x24) && decide (r.since ≤ x.since) && s.race p r.payload)) ||
    s.scribe.work.any (fun y => decide (y.since < x.since) && y.wait.enrols.any (s.race p)))

/-- The oldest work of a region. -/
def frontOf (ws : List ScrWait) (r : Nat) : Option ScrWait :=
  (ws.filter (fun x => x.region = r)).foldl (fun (a : Option ScrWait) x => if a.all (fun y => decide (x.since < y.since)) then some x else a) none

/-- The work that the Scribe Complex serves next of the work that waits, with what the choice leaves of the division: a region whose oldest work has waited
promote_age microseconds goes ahead of the round and its age restarts; otherwise the round goes on in turns of scribe_weight. (DEDUCED, log entry 113.) -/
def State.scrPick (s : State) (ws : List ScrWait) : Option (ScrWait × (Scribe → Scribe)) :=
  let fronts := (List.range 64).filterMap (fun r => (frontOf ws r).bind (fun x => if s.outraced x then none else some x))
  let rs := fronts.map (·.region)
  let since (r : Nat) : Nat := max (((fronts.find? (fun x => x.region = r)).map (·.since)).getD s.mono) (s.scribe.ages.look r 0 - 1)
  let next : Option (Nat × (Scribe → Scribe)) := match promotedOf (s.fld fRgnQosCtrlPromoteAge) s.mono since rs with
    | some r => some (r, fun c => { c with ages := c.ages.put r (s.mono + 1) 0 })
    | none =>
      (drr (fun r => s.rgn r fRgnQosScribeWeight) (fun _ => 1) 1 s.scribe.turn (rs.filter (fun r => s.rgn r fRgnQosScribeWeight != 0)) s.scribe.deficit).map
        (fun x => (x.1, fun c => { c with turn := x.1 + 1, deficit := x.2 }))
  next.bind (fun n => (fronts.find? (fun x => x.region = n.1)).map (fun x => (x, n.2)))

/-- The turn of a piece of work among others that wait, if the Scribe Complex serves it now. -/
def State.scrTurn (s : State) (x : ScrWait) (ws : List ScrWait) : Option (Scribe → Scribe) :=
  (s.scrPick ws).bind (fun y => if y.1 = x then some y.2 else none)

/-- The turn of an admission: the management controller's at the head of its requests, or one of the firmware's own as it comes. With a binding at the head of the
requests, one of its own joins its region's queue first. -/
def State.enrolTurn (s : State) (own : Option (List Byte)) : Option (Scribe → Scribe) :=
  match own with
  | none => (s.headWait none).bind (fun x => s.scrTurn x (s.scrWaits none))
  | some p =>
    let x : ScrWait := ⟨admitRegion p, s.mono, some p, false⟩
    if s.asked 0x23 then none else s.scrTurn x (s.scrWaits none ++ [x])

/-- Work joins its region's queue. -/
def State.scrQueue (s : State) (x : ScrWork) : State := { s with scribe := { s.scribe with work := s.scribe.work ++ [x] } }

/-- The Scribe Complex after a turn. -/
def State.scrServed (s : State) (f : Scribe → Scribe) : State := { s with scribe := f s.scribe }

/-- Whether a rim address is that of a CLI_CFG. -/
def cliCfg (a : Nat) : Bool := decide (0x280000 ≤ a) && decide (a < 0x2A0000) && decide (a % 0x80 = 0)

/-- CLIENT_ADMIT: in its region's turn, which a request of the firmware's own waits for in its region's queue, a client is admitted from a request's payload, the management controller's or the firmware's own, with the classification entries
the firmware writes for it, or refused with its status. `upset` lists what upsets have struck since the last command that names them. -/
def execClientAdmit (own : Option (List Byte)) (entries : List (Nat × Word × Word × Word)) (upset : List Upset) (mid : Bool) (s : State) : Out :=
  match own.orElse (fun _ => s.payload 0x24) with
  | none => .next s
  | some p =>
    if !s.serving then .next s
    else
      let v := (upset.foldl State.upset s).voteWhere (fun a => cliCfg a || decide (a = fRgnCfgEnable.off + 0x40 * admitRegion p))
      if !v.1 then .next v.2 else
      let s := v.2
      match s.enrolTurn own with
      | none => .next (if own.isSome then s.scrQueue ⟨admitRegion p, s.mono, .enrolOwn p entries⟩ else s)
      | some f => .next ((s.scrServed f).admitClient own.isSome mid p entries)

/-! ## Removal (R266) -/

/-- The classification entries of a client withdrawn. -/
def State.withdrawCls (s : State) (k : Nat) : State :=
  { s with cls := s.cls.filter (fun x => !(x.2.f fPortClsStage0Action = 0 && x.2.f fPortClsStage0Client = k)) }

/-- CLIENT_REMOVE: the client's classification entries are withdrawn and its removal waits for its traffic; an entry that is not valid is left as it
is and answered with ok. The reply to a removal that waits comes when it is done. -/
def execClientRemove (own : Option (List Byte)) (s : State) : Out :=
  match own.orElse (fun _ => s.payload 0x25) with
  | none => .next s
  | some p =>
    let k := fieldOf (payWord p 0) 0 16
    let say (s : State) (st : Nat) (d : Option Nat) : State := s.tell own.isSome 0x25 st d
    if !s.serving then .next s
    else if s.lifecycle != 2 then .next (say s 5 (some s.lifecycle))
    else match removeBad p with
    | some d => .next (say s 2 (some d))
    | none =>
    let v := s.voteWhere (fun a => decide (a = fCliCfgValid.off + 0x80 * k))
    if !v.1 then .next v.2 else
    let s := v.2
    if s.cli k fCliCfgValid = 0 then .next (say s 0 none)
    else if s.removing.look k 0 != 0 then .next s
    else .next { s.withdrawCls k with removing := s.removing.put k (s.mono + 1) 0 }

/-- Whether a client's traffic has drained: no frame waits for its ring and its egress ring is empty (R266). -/
def State.clientDrained (s : State) (k : Nat) : Bool :=
  (List.range 16).all (fun p => (s.port p).ingress.all (fun f => f.client != k)) &&
  (s.cli k fCliCfgEgressEn = 0 || decide ((s.egressCounts k).1 = (s.egressCounts k).2))

/-- CLIENT_REMOVE_COMPLETE: once the client's traffic has drained, or after 1 ms, its entry is no longer valid. -/
def execClientRemoveComplete (client : Fin 1024) (s : State) : Out :=
  if s.dev != .up then .next s else
  let k := client.val
  let t := s.removing.look k 0
  if t != 0 && (s.clientDrained k || t - 1 + 1000000 ≤ s.mono) then
    let s := { s.setCli k fCliCfgValid 0 with removing := s.removing.put k 0 0 }
    match s.scribe.reqs with
    | [] => .next (s.tell true 0x25 0 none)
    | r :: _ => .next (s.tell (!(r.opcode = 0x25 && fieldOf (payWord r.payload 0) 0 16 = k)) 0x25 0 none)
  else .next s

/-- A seed is written while the entry is not valid, and the write is ignored otherwise (R266). -/
def State.writeSeed (s : State) (k : Nat) (seed : Word) : State :=
  if s.cli k fCliCfgValid = 0 then s.setReg (fCliSeedSeed.off + 0x80 * k) seed else s

/-- CLI_SEED_WRITE. -/
def execCliSeedWrite (client : Fin 1024) (seed : Word) (s : State) : Out := if s.dev = .up then .next (s.writeSeed client.val seed) else .next s

/-! ## Ingress delivery (R269, R271, R275, R303) -/

/-- The slot words of a delivered frame (R268). -/
def slotWrites (a port count : Nat) (f : IngFrame) : List WordWrite :=
  let w0 : Nat := f.bytes.length % 2 ^ 16 + port % 16 * 2 ^ 16 + f.kind % 8 * 2 ^ 20 + count % 2 ^ 32 * 2 ^ 32
  [wholeWrite a (BitVec.ofNat 64 w0), wholeWrite (a + 1) (BitVec.ofNat 64 f.time)] ++
    byteWrites (8 * (a + 2)) (f.bytes.map (fun b => (some b, false)))

/-- A doorbell for a client's ring: raised by the control core itself where the ring lies in its well, and otherwise sent to it by the ring's core on class 1
(R257, R269). -/
def State.doorbell (s : State) (i r k count : Nat) : State :=
  let ctl := s.regionCore r 0 0
  let (ok, s) := if i = ctl then (true, s) else s.send (clusterOfCore i) (clusterOfCore ctl)
  if ok then s.mapCore ctl (fun c => { c with inbound := c.inbound ++ [⟨1, 1, k + count * 2 ^ 10, s.rgn r fRgnStatusGeneration⟩] }) else s

/-- Whether a delivery to a client must wait for a crossing whose credits are withheld, on the mesh or for its doorbell on the hairline (R356). -/
def State.deliveryWaits (s : State) (port k : Nat) : Bool :=
  let i := s.ingCore k
  s.ringWaits port i || s.hubWaits (clusterOfCore i) (clusterOfCore (s.regionCore (s.cli k fCliCfgRegion) 0 0))

/-- The slot, the producer word and the doorbell of a delivery (steps 3 to 5 of R269), from the producer word as read. (DESIGN CHOICE, log entry 120.) -/
def State.fillSlot (s : State) (port : Nat) (f : IngFrame) (pw : Word) : State :=
  let k := f.client
  let r := s.cli k fCliCfgRegion
  let i := s.ingCore k
  let b := s.cli k fCliIngBase
  let p := fieldOf pw 0 32
  let next := (p + 1) % 2 ^ 32
  let g := f.way port
  let s := s.portWrite g i (slotWrites (b + 64 + p % 2 ^ s.cli k fCliIngSlots * (64 * (s.cli k fCliIngSlotSize + 1))) port p f)
  let s := s.portWrite g i [wholeWrite b (putField pw 0 32 next)]
  let s := s.bumpCli k fCliIngFramesCount 1
  match s.portRead g i (b + 1) with
  | (some again, s) => if fieldOf again 0 32 = p then s.doorbell i r k next else s
  | (none, s) => s

/-- One frame delivered to its client's ring, in the steps of R269; an access that the mesh loses ends the delivery. (DEDUCED, log entry 36.) -/
def State.deliver (s : State) (port : Nat) (f : IngFrame) : State :=
  let k := f.client
  let i := s.ingCore k
  let b := s.cli k fCliIngBase
  let g := f.way port
  match s.portRead g i b with
  | (none, s) => s
  | (some pw, s) =>
    match s.portRead g i (b + 1) with
    | (none, s) => s
    | (some cw, s) =>
      let used := (fieldOf pw 0 32 + 2 ^ 32 - fieldOf cw 0 32) % 2 ^ 32
      if 2 ^ s.cli k fCliIngSlots ≤ used || 512 * (s.cli k fCliIngSlotSize + 1) - 16 < f.bytes.length then s.dropIngress g k
      else s.fillSlot port f pw

/-- A waiting frame meets its client: discarded when the client is not valid or has gone to another region, dropped while its region takes no
ingress, and delivered otherwise (R271, R303). -/
def State.handIngress (s : State) (port : Nat) (f : IngFrame) : State :=
  if f.injectUs.any s.tooOld then s.ageDrop
  else if s.cli f.client fCliCfgValid = 0 || s.cli f.client fCliCfgRegion != f.region then s.bumpP port fPortEthNocliDropCount 1
  else if s.rgn f.region fRgnStatusState != 2 then s.dropIngress (f.way port) f.client
  else s.deliver port f

/-- The oldest frame that waits at a port for a client. -/
def PortSt.frameOf (q : PortSt) (k : Nat) : Option IngFrame := q.ingress.find? (fun f => f.client = k)

/-- The client a port serves next, with its deficits: a promoted one ahead of the round; otherwise the round goes on, with a quantum of weight × 256 B (R275). -/
def State.pickClient (s : State) (port : Nat) : Option (Nat × Tbl Nat) :=
  let q := s.port port
  match q.promoted.find? (fun k => (q.frameOf k).isSome) with
  | some k => some (k, q.deficit)
  | none =>
    let ks := (List.range 1024).filter (fun k => q.ingress.any (fun f => f.client = k) && s.cli k fCliCfgWeight != 0)
    let cost (k : Nat) : Nat := ((q.frameOf k).map (fun f => f.bytes.length)).getD 0
    (drr (fun k => 256 * s.cli k fCliCfgWeight) cost 64 q.turn ks (q.deficit.filter (fun x => decide (x.1 < 1024)))).map
      (fun x => (x.1, x.2 ++ q.deficit.filter (fun y => decide (1024 ≤ y.1))))

/-- INGRESS_DELIVERY: a port delivers the oldest waiting frame of the client whose turn it is (R269, R275, R303). -/
def execIngressDelivery (port : Fin 16) (s : State) : Out :=
  let p := port.val
  if s.dev != .up then .next s
  else match s.pickClient p with
    | none => .next s
    | some (k, d) =>
      match (s.port p).frameOf k with
      | none => .next s
      | some f =>
        if s.deliveryWaits p k then .next s
        else
          let promoted := (s.port p).promoted.contains k
          let s := s.mapPort p (fun q => { q with
            ingress := q.ingress.eraseP (fun f => f.client = k)
            promoted := q.promoted.filter (fun m => m != k)
            ages := if promoted then q.ages.put k (s.mono + 1) 0 else q.ages
            deficit := d
            turn := if promoted then q.turn else k + 1 })
          .next (s.handIngress p f)

/-- INGRESS_PROMOTION: a client whose oldest frame at a port has waited promote_age microseconds is promoted for one delivery (R275). -/
def execIngressPromotion (port : Fin 16) (client : Fin 1024) (s : State) : Out :=
  let p := port.val
  let k := client.val
  let age := s.fld fRgnQosCtrlPromoteAge
  match (s.port p).frameOf k with
  | none => .next s
  | some f =>
    let since := max f.since ((s.port p).ages.look k 0 - 1)
    if s.dev = .up && age != 0 && since + 1000 * age ≤ s.mono && !(s.port p).promoted.contains k then
      .next (s.mapPort p (fun q => { q with promoted := q.promoted ++ [k] }))
    else .next s

/-! ## Egress (R270, R305) -/

/-- The core of a client's egress ring. -/
def State.egrCore (s : State) (k : Nat) : Nat := s.regionCore (s.cli k fCliCfgRegion) (s.cli k fCliEgrX) (s.cli k fCliEgrY)

/-- Whether a client's egress ring is served: its entry is valid, the ring in use, its port in Ethernet mode and its region running or stopping
(R270, R271). -/
def State.egressOn (s : State) (k : Nat) : Bool :=
  let st := s.rgn (s.cli k fCliCfgRegion) fRgnStatusState
  decide (s.dev = .up) && s.cli k fCliCfgValid = 1 && s.cli k fCliCfgEgressEn = 1 && (s.port (s.cli k fCliCfgPort)).mode = 2 && (st = 2 || st = 3)

/-- The count at which a port stops: the tail, or the ring's size past the done count where the tail runs further ahead (R270). -/
def stopAt (tail done n : Nat) : Nat := if 2 ^ n < (tail + 2 ^ 32 - done) % 2 ^ 32 then (done + 2 ^ n) % 2 ^ 32 else tail

/-- A port reads a client's tail word (R270). -/
def State.pollTail (s : State) (k : Nat) : State :=
  let p := s.cli k fCliCfgPort
  let done := (s.egressCounts k).2
  match s.portRead p (s.egrCore k) (s.cli k fCliEgrBase) with
  | (none, s) => s
  | (some w, s) =>
    s.mapPort p (fun q => { q with egress := q.egress.put k ⟨stopAt (fieldOf w 0 32) done (s.cli k fCliEgrSlots), s.mono, true⟩ egrNew })

/-- EGRESS_POLL: the tail word is read every poll × 100 ns (R270). -/
def execEgressPoll (client : Fin 1024) (s : State) : Out :=
  let k := client.val
  let p := s.cli k fCliCfgPort
  let x := (s.port p).egress.look k egrNew
  if s.egressOn k && (!x.known || x.polled + 100 * s.cli k fCliEgrPoll ≤ s.mono) && !s.ringWaits p (s.egrCore k) then .next (s.pollTail k) else .next s

/-- The link that carries a client's frames: its own, or the next in increasing cyclic order that is up (R305). -/
def State.egressLink (s : State) (k : Nat) : Option Nat :=
  let p := s.cli k fCliCfgPort
  let l := fieldOf (s.reg (fPortEthEgrMapLink.off + 0x1000 * p)) (3 * (k % 8)) 3
  ((List.range 8).map (fun j => (l + j) % 8)).find? (fun g => s.etherUp p g)

/-- What a port reads of the frame in slot `a` of an egress ring through port 10: whether it is to be sent, its bytes, and the core after the reads; a length
of 0 or past the slot, and a poisoned word, keep it from being sent (R270). -/
def State.readSlot (s : State) (i a size : Nat) : Bool × List Byte × Core :=
  let e := s.env i
  let (hd, c, f) := (s.core i).wellRead e (ringAcc 10 a) false [a]
  let h := hd.headD (0, true)
  let len := fieldOf h.1 0 16
  let (ws, c, _) := c.wellRead e (ringAcc 10 a) f ((List.range (if len ≤ size - 16 then ceilDiv len 8 else 0)).map (a + 2 + ·))
  (!(h.2 || len = 0 || decide (size - 16 < len) || ws.any (·.2)), (ws.flatMap (fun w => bytesOfWord w.1)).take len, c)

/-- A frame of a client's egress ring is sent or passed over, the done word advances and the tail is read again (R270, R305); an access that the mesh loses ends
the frame. -/
def State.sendEgress (s : State) (k link : Nat) : State :=
  let p := s.cli k fCliCfgPort
  let i := s.egrCore k
  let b := s.cli k fCliEgrBase
  match s.portRead p i (b + 1) with
  | (none, s) => s
  | (some dw, s) =>
    let d := fieldOf dw 0 32
    let size := 512 * (s.cli k fCliEgrSlotSize + 1)
    let x := s.readSlot i (b + 64 + d % 2 ^ s.cli k fCliEgrSlots * (size / 8)) size
    let n := 2 + ceilDiv x.2.1.length 8
    let (w, s) := s.access (s.gateOf p i) (s.placeOf i) 1 (flitsOf n) n
    if !w.ok then s
    else
      let s := s.putCore i x.2.2
      let foreign := s.pfld p fPortEthCtrlSrcCheck = 1 && octets x.2.1 6 6 != s.fld (fldAt fPortEthMacAddress (0x1000 * p + 8 * link))
      let s := if !x.1 || !w.bad.isEmpty || foreign then s.bumpCli k fCliEgrDropCount 1
        else
          let s := (s.bumpCli k fCliEgrFramesCount 1).bumpP p fPortEthTxFramesCount 1
          let frame := s.wireFrame p x.2.1
          s.mapPort p (fun q => { q with sentFrame := some (link, frame) })
      (s.portWrite p i [wholeWrite (b + 1) (BitVec.ofNat 64 ((d + 1) % 2 ^ 32))]).pollTail k

/-- EGRESS_FRAME_SEND: while the done count has not reached the count at which the port stops, one frame is sent; with no link up none is (R270, R305). -/
def execEgressFrameSend (client : Fin 1024) (s : State) : Out :=
  let k := client.val
  let p := s.cli k fCliCfgPort
  let x := (s.port p).egress.look k egrNew
  if !s.egressOn k || !x.known || decide ((s.egressCounts k).2 = x.tail) || s.ringWaits p (s.egrCore k) then .next s
  else match s.egressLink k with
    | none => .next s
    | some l => .next (s.sendEgress k l)

end Sys2Proof.Machine
end

