-- ==== Sys2Proof/Machine/Gateway.lean ====
section
/-! DEFINITION. What sources and gateways exchange on VC 3: reservations, grants and retries as flits, the packets that follow them, and the hop of a flit
(rows MESH_FLIT_HOP, GATEWAY_GRANT and RESERVATION_RETRY; R243 to R250, R293, R319, R320, R324). -/

namespace Sys2Proof.Machine

/-! ## Paths between sources and gateways (R250) -/

/-- The router where a waiting packet enters the mesh on its way to a port: its source core, the Scribe gateway on the port's row, or an inbound
gateway. -/
def State.startOf (s : State) (x : FabWait) : Nat × Nat :=
  if x.inPort < 16 then attach x.inPort (attach x.port (0, 0))
  else if x.inPort = 17 then (0, (attach x.port (0, 0)).2)
  else (6 * s.rgn x.pkt.srcRegion fRgnCfgCx0 + x.pkt.sx, 8 * s.rgn x.pkt.srcRegion fRgnCfgCy0 + x.pkt.sy)

/-- A packet of `n` flits that the exchange for a waiting packet sends: 0 the reservation and 3 the packet itself to the gateway, 1 the grant and 2 a retry
back to the source (R293). (DESIGN CHOICE, log entry 46.) -/
def State.gateSend (s : State) (x : FabWait) (kind n : Nat) : State :=
  let a := s.startOf x
  let b := attach x.port a
  let out := decide (kind = 0 ∨ kind = 3)
  let r := if x.inPort = 16 then x.pkt.srcRegion else 64
  { s with mesh := s.mesh ++
    [⟨3, r, if r < 64 then s.rgn r fRgnStatusGeneration else 0, if out then a else b, x.pkt.sx, x.pkt.sy, none, none, none,
      if out then xFirst a b else xFirst b a, List.replicate n 0, .gate kind x.tag, [], 0, false, 0, false⟩] }

/-! ## What arrives at a gateway or a source -/

/-- The waiting packet of a tag changed. -/
def State.mapWait (s : State) (tag : Nat) (f : FabWait → FabWait) : State :=
  { s with fabWait := s.fabWait.map (fun x => if x.tag = tag then f x else x) }

/-- A packet of the exchange has arrived whole at the end of its path: a grant lets the packet go, a retry has its source wait, the packet itself
enters its gateway and leaves the receive buffer that held it, and a read unit that came back is kept (R291, R293, R324). A reservation waits there
for its gateway. (DEDUCED, log entry 131.) -/
def State.gateArrive (s : State) (idx : Nat) (p : Packet) : State :=
  match p.body with
  | .gate 1 tag =>
    match s.fabWait.find? (fun x => x.tag = tag) with
    | none => s.dropPacket idx
    | some x => ((s.dropPacket idx).mapWait tag (fun x => { x with stage := 7 })).gateSend x 3 x.pkt.flits
  | .gate 2 tag => (s.dropPacket idx).mapWait tag (fun x => { x with stage := 2, since := s.mono })
  | .gate 3 tag =>
    match s.fabWait.find? (fun x => x.tag = tag) with
    | none => s.dropPacket idx
    | some x =>
      let s := s.dropPacket idx
      let s := { s with fabWait := s.fabWait.filter (fun y => y.tag != tag) }
      let s := if x.inPort < 16 then s.mapPort x.inPort (fun q => q.free x.pkt.cls x.pkt.flits) else s
      s.toGateway x.port { x.pkt with hops := x.pkt.hops + 1 }
  | .back ep srcEp slot gen ws =>
    match p.gate with
    | none => s.dropPacket idx
    | some (g, _) =>
      let q := { p with src := p.stop, path := xFirst p.stop (p.path.headD (0, 0)), flits := [0], body := .readReq ep srcEp slot gen ws }
      (s.dropPacket idx).mapPort g (fun z => { z with units := z.units ++ [(q, s.mono)] })
  | _ => s

/-! ## Hops -/

/-- MESH_FLIT_HOP: flit `flit` of the packet at a place enters the next router of its path, or leaves the last by its local output or a gateway's link, when the flit before
it has gone ahead, no other message holds the output in its VC, the input buffer there has room, and the output grants its link to this flit's VC and input (R243, R245, R248,
R249, R250). A header is routed over the link its router selects; one that the link does not take to the neighbour, or that meets a link marked down, is discarded with its
message (R244, R253). `ce` and `ue` name the words of the flit that arrive with a single-bit and an uncorrectable error. (DESIGN CHOICE, log entry 108.) -/
def execMeshFlitHop (idx flit : Nat) (ce ue : List Nat) (s : State) : Out :=
  if s.dev != .up then .next s else
  match s.mesh[idx]? with
  | none => .next s
  | some p =>
    match p.flits[flit]? with
    | none => .next s
    | some f =>
      if (s.outOf p f).isNone || !s.hopMoves flit p f then .next s
      else if s.hopCut flit p f then .next (s.misroute idx ((p.here f).getD (0, 0)) ((p.flits.filter (fun g => decide (g ≤ f))).length))
      else if !s.hopRoom idx flit p f || !s.mayHop flit p f then .next s
      else
        let s := s.hop idx flit p f ce ue
        if flit + 1 < p.flits.length || f + 1 < p.last then .next s
        else match p.group with
          | none => .next (s.gateArrive idx p)
          -- a tree that has no output at its end lands nowhere
          | some g => if (s.treeOuts g p.stop).isEmpty then .next (s.dropPacket idx) else .next s

/-! ## Grants (R293, R319, R320) -/

/-- Whether two waiting packets have reservations in the same gateway and class. -/
def FabWait.same (x y : FabWait) : Bool := decide (x.port = y.port) && decide (x.pkt.cls = y.pkt.cls) && (y.stage = 1 || y.stage = 3)

/-- The flits of a class for which a gateway has granted room that they have not yet taken. -/
def State.promised (s : State) (port cls : Nat) : Nat :=
  s.fabWait.foldl (fun n x => if x.port = port && x.pkt.cls = cls && (x.stage = 6 || x.stage = 7) then n + x.pkt.flits else n) 0

/-- Whether a queued reservation is granted (R319, R320): in arrival order, into room for the whole packet; an entering one only with 33 flits more, and
only when no continuing one waits, unless it is promoted: then it goes ahead of those that came after it. -/
def State.mayGrant (s : State) (idx : Nat) (x : FabWait) : Bool :=
  let room := 4096 - (s.port x.port).holds x.pkt.cls - s.promised x.port x.pkt.cls
  let before := s.fabWait.take idx
  if x.pkt.cls = 0 || x.pkt.cls = 5 then decide (x.pkt.flits ≤ room) && before.all (fun y => !x.same y)
  else if x.continues then
    decide (x.pkt.flits ≤ room) && before.all (fun y => !(x.same y && (y.continues || y.stage = 3)))
  else
    decide (x.pkt.flits + 33 ≤ room) && before.all (fun y => !x.same y) &&
      (x.stage = 3 || s.fabWait.all (fun y => !(x.same y && y.continues)))

/-- GATEWAY_GRANT: a queued reservation is granted: room for its packet is held for it, and the grant goes back to its source as a flit (R293, R319). -/
def execGatewayGrant (idx : Nat) (s : State) : Out :=
  match s.fabWait[idx]? with
  | none => .next s
  | some x =>
    if s.dev = .up && (x.stage = 1 || x.stage = 3) && s.mayGrant idx x then
      .next ({ s with fabWait := s.fabWait.set idx { x with stage := 6 } }.gateSend x 1 1)
    else .next s

/-- RESERVATION_RETRY: a refused reservation is sent again after a microsecond (R293). -/
def execReservationRetry (idx : Nat) (s : State) : Out :=
  if s.dev != .up then .next s else
  match s.fabWait[idx]? with
  | none => .next s
  | some x =>
    if x.stage = 2 && x.since + 1000 ≤ s.mono then .next ({ s with fabWait := s.fabWait.set idx { x with stage := 5 } }.gateSend x 0 1) else .next s

end Sys2Proof.Machine
end

