-- ==== Sys2Proof/Machine/Fabric.lean ====
section
/-! DEFINITION. Routing between devices: routes, deliveries, escape packets, routing epochs, congestion maps and time transfer (rows
GATEWAY_RESERVATION and FABRIC_PACKET_ARRIVAL to TIME_PARENT_LOSS; R309 to R331). -/

namespace Sys2Proof.Machine

/-! ## Ports (R310) -/

/-- The dimension and direction of a port, 0 for + and 1 for −, when the map uses it. -/
def State.portDim (s : State) (p : Nat) : Option (Nat × Nat) :=
  let v := fieldOf (s.reg fFabPortmapPort.off) (4 * p) 4
  if v.testBit 3 then some (v % 4, v / 4 % 2) else none

/-! ## Congestion (R318, R329) -/

/-- The level of an occupancy of a class buffer. -/
def levelOf (n : Nat) : Nat := if n < 1024 then 0 else if n < 2048 then 1 else if n < 3072 then 2 else 3

/-- A port's own congestion level for a class. -/
def State.level (s : State) (p cls : Nat) : Nat := levelOf ((s.port p).holds cls)

/-- The level that a port's partner reports for a class. -/
def State.partnerLevel (s : State) (p cls : Nat) : Nat := fieldOf (s.reg (fFabCmapPartner.off + 8 * p)) (2 * cls + 16) 2

/-- The ports up in fabric mode that serve a dimension and direction. -/
def State.portsOf (s : State) (dim dir : Nat) : List Nat :=
  (List.range 16).filter (fun p => decide (s.portDim p = some (dim, dir)) && s.fabUp p)

/-- The least of a list of levels, 3 for none. (DEDUCED, log entry 47.) -/
def leastLevel (l : List Nat) : Nat := l.foldl min 3

/-- The levels that a device reports in a congestion map. -/
def State.levels (s : State) : List (List Nat) :=
  (List.range 8).map (fun k => (List.range 8).map (fun c => leastLevel ((s.portsOf (k / 2) (k % 2)).map (fun p => s.level p c))))

/-! ## Routes (R316 to R318) -/

/-- What a device does with a packet of a class other than escape and control: deliver it, send it by a port, in which it continues in its ring or not,
or discard it as unreachable or out of order. -/
inductive Hop where
  | here
  | out (port : Nat) (continues : Bool)
  | unreachable
  | disorder
  deriving DecidableEq, Repr

/-- The routing entry of a version, dimension and coordinate. -/
def State.route (s : State) (version i c : Nat) : Word := s.reg (fFabRtDir.off + 0x8000 * (4 * version + i) + 8 * c)

/-- The port of least cost for a packet among those permitted, ties broken by the devices' numbers (R318). -/
def State.cheapest (s : State) (x : FabPkt) (ps : List Nat) : Nat :=
  let cost (p : Nat) : Nat := 2 * s.level p x.cls + s.partnerLevel p x.cls
  let least := ps.foldl (fun n p => min n (cost p)) 9
  let tied := ps.filter (fun p => decide (cost p = least))
  tied.getD ((Nat.xor x.srcDev x.dstDev) % tied.length) 0

/-- The direction in which a packet travels that arrived at a port: a port of direction − receives what travels +, for ports of opposite directions
are joined (R310). (DEDUCED, log entry 42.) -/
def State.travels (s : State) (inPort : Nat) : Option (Nat × Nat) :=
  if inPort < 16 then (s.portDim inPort).map (fun x => (x.1, 1 - x.2)) else none

/-- The next hop of a packet that came in by a port, 16 at its source: one for this device is delivered, and only a device whose ID lies in range sends one on (R309). (DEDUCED, log
entry 44.) -/
def State.nextHop (s : State) (inPort : Nat) (x : FabPkt) : Hop :=
  if s.fld fFabIdValid = 0 then .unreachable
  else match (List.range s.dims).find? (fun i => s.coord x.dstDev i != s.coord (s.fld fFabIdDeviceId) i) with
    | none => .here
    | some i =>
      if !s.routed then .unreachable else
      let w := s.route (bit x.epoch) i (s.coord x.dstDev i)
      let dir := fieldOf w 0 2
      if dir = 0 || dir = 3 then .unreachable
      else
        let ps := (s.portsOf i (dir - 1)).filter (fun p => bitOf w (2 + p))
        if ps.isEmpty then .unreachable
        else match s.travels inPort with
          | none => .out (s.cheapest x ps) false
          | some (j, d) =>
            if i < j || (i = j && d != dir - 1) then .disorder
            else .out (s.cheapest x ps) (i = j)

/-! ## Delivery (R312 to R314, R324) -/

/-- Whether a message's class fits its landing target: collective for a combining queue, and no other class for one (R314). -/
def State.classFits (s : State) (x : FabPkt) (core : Nat) : Bool :=
  match x.body with
  | .channel (.message ep _ _ _ _ _) => decide (x.cls = 2) == decide ((s.core core).land ep fChLandATarget = 5)
  | _ => true

/-- The way of a far ligature operation over the mesh: from its gateway's attachment router, or its source core, to the origin core of the cluster that it names, where it enters
the hairline at its unit's hub (R250). (DEDUCED, log entry 29.) -/
def State.farWay (s : State) (inPort : Nat) (x : FabPkt) (operand : Nat) : (Nat × Nat) × (Nat × Nat) :=
  let n := farUnit (s.regionEnv x.dstRegion) operand
  let goal := (6 * (n % 12), 8 * (n / 12))
  (if inPort < 16 then attach inPort goal else (6 * s.rgn x.srcRegion fRgnCfgCx0 + x.sx, 8 * s.rgn x.srcRegion fRgnCfgCy0 + x.sy), goal)

/-- A packet of kinds 0 to 6 is delivered on this device: a channel packet enters the mesh on VC 3 at a router, a far ligature operation crosses it to its
unit's cluster, an ingress request waits at its port for its client's ring. One for a core beyond the mesh is discarded and counted at the mesh's edge, where its header meets a link
that leads nowhere (R244, R253). (DEDUCED, log entry 50.) -/
def State.deliverHere (s : State) (inPort : Nat) (x : FabPkt) : State :=
  let r := x.dstRegion
  match x.body with
  | .channel b =>
    let goal : Nat × Nat := (6 * s.rgn r fRgnCfgCx0 + x.x, 8 * s.rgn r fRgnCfgCy0 + x.y)
    let src := if inPort < 16 then attach inPort goal else (6 * s.rgn x.srcRegion fRgnCfgCx0 + x.sx, 8 * s.rgn x.srcRegion fRgnCfgCy0 + x.sy)
    if 72 ≤ goal.1 || 96 ≤ goal.2 then
      s.mapCore (s.physical (min 71 goal.1) (min 95 goal.2)) (fun c => c.bump fCoreMeshMisrouteCount x.flits)
    else if !s.classFits x (s.physical goal.1 goal.2) then s.bump fFabClassDropCount 1
    else { s with mesh := s.mesh ++
      [⟨3, r, x.gen, src, x.sx, x.sy, some (x.srcDev, x.srcRegion), some (inPort, x.injectUs), none, xFirst src goal, List.replicate x.flits 0, b, [], 0, false, 0, false⟩] }
  | .lig sig operand _ binding pc =>
    let way := s.farWay inPort x operand
    let (w, s) := s.cross (s.physical way.2.1 way.2.2) x.flits 0 4 4 (xFirst way.1 way.2)
    if w.ok then { s with farOps := s.farOps ++ [⟨r, x.gen, sig, operand, x.injectUs, binding, pc⟩] } else s
  | .ingress k bs =>
    if s.cli k fCliCfgValid = 0 || s.cli k fCliCfgRegion != r || s.rgn r fRgnStatusGeneration != x.gen then s.bumpP inPort fPortEthNocliDropCount 1
    else if s.rgn r fRgnStatusState != 2 then s.dropIngress inPort k
    else if 4194304 < (s.port inPort).ingress.foldl (fun n f => n + f.bytes.length) bs.length then
      (s.bumpP inPort fPortEthBufDropCount 1).bumpCli k fCliIngDropCount 1
    else s.mapPort inPort (fun q => { q with ingress := q.ingress ++ [⟨k, r, 1, bs, s.time, s.mono, some x.injectUs⟩] })
  | _ => s

/-- Whether a packet must wait at the head of its receive buffer: a read request while the gateway's store of 64 units is full (R324), and a far ligature operation while its
way over the mesh is taken (R249). (DEDUCED, log entry 51.) -/
def State.readWaits (s : State) (p : Nat) (x : FabPkt) : Bool :=
  match x.body with
  | .channel (.readReq ..) => (s.port p).storeFull
  | .lig _ operand _ _ _ => let way := s.farWay p x operand; s.wayBusy 4 (xFirst way.1 way.2)
  | _ => false

/-- Whether a packet is the first of its class in a port's receive buffer. -/
def State.firstOf (s : State) (p idx : Nat) (x : FabPkt) : Bool := ((s.port p).arrived.take idx).all (fun y => y.cls != x.cls)

/-- A packet goes on: it waits for a reservation at its port's gateway and keeps its receive buffer until then (R293, R312). -/
def State.forward (s : State) (p idx : Nat) (x : FabPkt) (port : Nat) (continues : Bool) : State :=
  if s.fld fFabCtrlHopLimit < x.hops + 1 then (s.takeArrived p idx x).bump fFabHopDropCount 1
  else
    let s := (s.mapPort p (fun q => q.takeOut idx)).bump fFabTransitCount 1
    s.await x p port continues 0

/-- FABRIC_PACKET_ARRIVAL: the packet at the head of its class's receive buffer is checked for its age, routed in dimension order, and delivered,
forwarded or discarded (R312, R316, R317). -/
def execFabricPacketArrival (port : Fin 16) (idx : Nat) (s : State) : Out :=
  if s.dev != .up then .next s else
  let p := port.val
  match (s.port p).arrived[idx]? with
  | none => .next s
  | some x =>
    if x.cls = 0 || x.cls = 5 || !s.firstOf p idx x then .next s
    else if s.tooOld x.injectUs then .next (s.takeArrived p idx x).ageDrop
    else match s.nextHop p x with
      | .unreachable => .next ((s.takeArrived p idx x).bump fFabUnreachCount 1)
      | .disorder => .next ((s.takeArrived p idx x).bump fFabOrderDropCount 1)
      | .out q c => .next (s.forward p idx x q c)
      | .here => if s.readWaits p x then .next s else .next ((s.takeArrived p idx x).deliverHere p x)

/-! ## Reservations (R293, R320) -/

/-- The reservations that a gateway keeps for a class. -/
def State.queued (s : State) (x : FabWait) : Nat := (s.fabWait.filter x.same).length

/-- A packet sends its reservation to its gateway as a flit (R293). -/
def State.reserve (s : State) (idx : Nat) (x : FabWait) : State := { s with fabWait := s.fabWait.set idx { x with stage := 5 } }.gateSend x 0 1

/-- A packet of the escape class leaves its source by hop 0 of its route, or is discarded (R321, R322). -/
def State.escapeOut (s : State) (idx : Nat) (x : FabWait) : State :=
  match x.pkt.route[0]? with
  | none => { s with fabWait := s.fabWait.eraseIdx idx }.bump fFabEscDropCount 1
  | some q =>
    if 24 < x.pkt.route.length || !s.fabUp q then { s with fabWait := s.fabWait.eraseIdx idx }.bump fFabEscDropCount 1
    else s.reserve idx { x with port := q, pkt := { x.pkt with routeIdx := 1, downTaken := !(s.fld fFabEscDirUp).testBit q } }

/-- GATEWAY_RESERVATION: a packet at its source is routed and its reservation leaves; then the reservation that has reached its gateway is queued in
arrival order, or answered with a retry where the queue holds 256 or a block reset has stopped it (R289, R293). -/
def execGatewayReservation (idx : Nat) (s : State) : Out :=
  match s.fabWait[idx]? with
  | none => .next s
  | some x =>
    let rest := s.fabWait.eraseIdx idx
    if s.dev != .up then .next s
    else match x.stage with
      | 0 =>
        if x.port < 16 then .next (s.reserve idx x)
        else if x.pkt.cls = 0 then .next (s.escapeOut idx x)
        else match s.nextHop 16 x.pkt with
          | .out p c => .next (s.reserve idx { x with port := p, continues := c })
          | .here => .next ({ s with fabWait := rest }.deliverHere 16 x.pkt)
          | _ => .next ({ s with fabWait := rest }.bump fFabUnreachCount 1)
      | 5 =>
        match s.mesh.findIdx? (fun p => decide (p.body = .gate 0 x.tag) && p.atEnd) with
        | none => .next s
        | some k =>
          let s := s.dropPacket k
          if 256 ≤ s.queued x || (s.port x.port).resetAt.isSome then
            .next ({ s with fabWait := s.fabWait.set idx { x with stage := 9 } }.gateSend x 2 1)
          else .next { s with fabWait := rest ++ [{ x with stage := 1, since := s.mono }] }
      | _ => .next s

/-- ENTERING_PROMOTION: an entering reservation that has waited promote_age microseconds is promoted (R320). -/
def execEnteringPromotion (idx : Nat) (s : State) : Out :=
  if s.dev != .up then .next s else
  match s.fabWait[idx]? with
  | none => .next s
  | some x =>
    let age := s.fld fFabCtrlPromoteAge
    if x.stage = 1 && !x.continues && x.pkt.cls != 0 && x.pkt.cls != 5 && age != 0 && x.since + 1000 * age ≤ s.mono then
      .next ({ s with fabWait := s.fabWait.set idx { x with stage := 3 } }.bump fFabPromotedCount 1)
    else .next s

/-- GATEWAY_READ_REPRESENT: a read unit that came back to the gateway is presented again after a microsecond (R324). -/
def execGatewayReadRepresent (port : Fin 16) (idx : Nat) (s : State) : Out :=
  let p := port.val
  match (s.port p).units[idx]? with
  | none => .next s
  | some (x, t) =>
    if s.dev = .up && t + 1000 ≤ s.mono then
      let s := s.mapPort p (fun q => { q with units := q.units.eraseIdx idx })
      .next { s with mesh := s.mesh ++ [{ x with flits := List.replicate x.flits.length 0, copy := false }] }
    else .next s

/-! ## The escape class (R321 to R323) -/

/-- An escape packet delivered to the Scribe Complex: taken into its receive space of 8 MiB, or dropped and counted (R323). -/
def State.escapeHere (s : State) (x : FabPkt) : State :=
  if 8388608 < (s.scribe.escape.foldl (fun n y => n + 128 * y.flits) (128 * x.flits)) then s.bump fScrEscDropCount 1
  else { s with scribe := { s.scribe with escape := s.scribe.escape ++ [x] } }

/-- ESCAPE_PACKET_ARRIVAL: an escape packet is delivered at the end of its route, follows it, or is discarded (R312, R321, R322). -/
def execEscapePacketArrival (port : Fin 16) (idx : Nat) (s : State) : Out :=
  if s.dev != .up then .next s else
  let p := port.val
  match (s.port p).arrived[idx]? with
  | none => .next s
  | some x =>
    if x.cls != 0 || x.kind = 9 || !s.firstOf p idx x then .next s
    else if s.tooOld x.injectUs then .next (s.takeArrived p idx x).ageDrop
    else if x.route.isEmpty || 24 < x.route.length || x.route.length < x.routeIdx then .next ((s.takeArrived p idx x).bump fFabEscDropCount 1)
    else match x.route[x.routeIdx]? with
      | none => .next ((s.takeArrived p idx x).escapeHere x)
      | some q =>
        let up := (s.fld fFabEscDirUp).testBit q
        if (up && x.downTaken) || !s.fabUp q then .next ((s.takeArrived p idx x).bump fFabEscDropCount 1)
        else .next (s.forward p idx { x with routeIdx := x.routeIdx + 1, downTaken := x.downTaken || !up } q false)

/-! ## Routing tables and epochs (R326 to R328) -/

/-- A write of a routing entry at an offset of FAB_RT: taken by the version not in force while idle, else ignored with wr_err (R327). -/
def State.writeRoute (s : State) (d : Nat) (value : Word) : State :=
  if d / 0x20000 = s.fld fFabEpochBit || s.fld fFabEpochIdle = 0 then s.setFld fFabEpochWrErr 1
  else s.setReg (fFabRtDir.off + d) (BitVec.ofNat 64 (fieldOf value 0 18))

/-- FAB_RT_WRITE. -/
def execFabRtWrite (version : Fin 2) (dim : Fin 4) (coord : Fin 4096) (value : Word) (s : State) : Out :=
  if s.dev = .up then .next (s.writeRoute (0x8000 * (4 * version.val + dim.val) + 8 * coord.val) value) else .next s

/-- A switch is armed, in place of any armed before (R328). -/
def State.armEpoch (s : State) (time : Word) : State :=
  { s with epoch := { s.epoch with armed := some (time.toNat, decide (time.toNat < s.time)), armedAt := s.mono } }

/-- FAB_EPOCH_AT_WRITE. -/
def execFabEpochAtWrite (time : Word) (s : State) : Out := if s.dev = .up then .next (s.armEpoch time) else .next s

/-- EPOCH_SWITCH: at the first tick at or after the armed time, and after the arming, the bit inverts, fm_epoch takes the staged value and idle clears
(R328). -/
def execEpochSwitch (s : State) : Out :=
  match s.epoch.armed with
  | none => .next s
  | some (t, past) =>
    if s.dev = .up && t ≤ s.time && s.mono != s.epoch.armedAt then
      let s := (s.setFld fFabEpochBit (1 - s.fld fFabEpochBit)).setFld fFabEpochFmEpoch (s.fld fFabEpochStagedEpoch)
      let s := s.setFld fFabEpochIdle 0
      .next { (if past then s.setFld fFabEpochLate 1 else s) with epoch := ⟨none, s.epoch.armedAt, s.mono⟩ }
    else .next s

/-- EPOCH_IDLE: once max_life has passed since the switch, the other version may be written (R327). -/
def execEpochIdle (s : State) : Out :=
  if s.dev = .up && s.fld fFabEpochIdle = 0 && s.epoch.switched + 64000 * min 160 (s.fld fFabCtrlMaxLife) ≤ s.mono then
    .next (s.setFld fFabEpochIdle 1)
  else .next s

/-! ## Congestion maps (R329) -/

/-- CMAP_SEND: each interval a port that is up sends its partner the device's levels; a device without an ID in range sends none (R309). -/
def execCmapSend (port : Fin 16) (s : State) : Out :=
  let p := port.val
  if s.fabUp p && s.routed && (s.port p).cmapTx + 1000 * s.fld fFabCtrlCmapInterval ≤ s.mono then
    .next ((s.mapPort p (fun q => { q with cmapTx := s.mono })).toGateway p (s.portPacket 5 11 (.cmap s.levels)))
  else .next s

/-- The partner's levels of a port set. -/
def State.setPartner (s : State) (p v : Nat) : State := s.setFld (fldAt fFabCmapPartner (8 * p)) v

/-- CMAP_RECEIVE: the levels that the partner reports for its ports of this port's dimension and direction are kept. -/
def execCmapReceive (port : Fin 16) (idx : Nat) (s : State) : Out :=
  if s.dev != .up then .next s else
  let p := port.val
  match (s.port p).arrived[idx]? with
  | none => .next s
  | some x =>
    match x.body with
    | .cmap l =>
      if s.tooOld x.injectUs then .next (s.takeArrived p idx x).ageDrop else
      let s := (s.takeArrived p idx x).mapPort p (fun q => { q with cmapAt := s.mono })
      match s.portDim p with
      | none => .next s
      | some (i, d) =>
        let v := (l.getD (2 * i + d) []).zipIdx.foldl (fun n y => n + y.1 % 4 * 4 ^ y.2) 0
        .next (s.setPartner p v)
    | _ => .next s

/-- CMAP_STALE: with no map for four intervals the partner's levels are taken as 3. -/
def execCmapStale (port : Fin 16) (s : State) : Out :=
  let p := port.val
  if s.fabUp p && (s.port p).cmapAt + 4000 * s.fld fFabCtrlCmapInterval ≤ s.mono then .next (s.setPartner p 0xFFFF) else .next s

/-! ## Time transfer (R330, R331, R359) -/

/-- The rate in force is steered by an error in quarter nanoseconds, within 200 ppm either way (R359); while REFCLK is lost the last steered rate stays (R357). -/
def State.steer (s : State) (err : Int) : State :=
  if !s.island.refclk then s else
  let r := Config.steer err (signedOf 32 (s.fld fTimeRateRate))
  let r := max (-219902325) (min 219902325 r)
  s.setFld fTimeRateRate (r % 2 ^ 32).toNat

/-- TIME_TRANSFER_SEND: each interval a port that is up sends its counter, with the two timestamps of the last packet from its partner; the counter is that of
the packet's own transmission, `sub` quarter nanoseconds past a tick. -/
def execTimeTransferSend (port : Fin 16) (sub : Fin 40) (s : State) : Out :=
  let p := port.val
  if s.fabUp p && s.routed && (s.port p).ttTx + 10000 * s.fld fFabTimeTtInterval ≤ s.mono then
    let back := (s.port p).ttLast.map (fun l => (l.sent.toNat, l.arrived.toNat))
    .next ((s.mapPort p (fun q => { q with ttTx := s.mono, ttSub := sub.val })).toGateway p (s.portPacket 5 10 (.time 0 back)))
  else .next s

/-- A difference of timestamps halved, rounded to a quarter nanosecond in a way that the manual does not fix. -/
def half (d : Int) : Int := if d % 2 = 0 then d / 2 else (d + (Config.halfRound d).val) / 2

/-- The offset and delay of an exchange on the port that FAB_TIME.parent names are recorded (R330); where the parent is followed the rate is steered, and
locked set once the offset has stayed within 8 ns for sixteen exchanges, which ends the holdover unless REFCLK is lost (R331, R357). -/
def State.exchange (s : State) (p : Nat) (t1 t2 t3 t4 : Int) : State :=
  let off := half ((t2 - t1) - (t4 - t3))
  let delay := half ((t2 - t1) + (t4 - t3))
  if s.fld fFabTimeParent != p then s.mapPort p (fun q => { q with ttGood := 0 })
  else
    let s := (s.setFld fFabTtOffsetOffset (off % 2 ^ 32).toNat).setFld fFabTtOffsetDelay (delay % 2 ^ 32).toNat
    if s.fld fFabTimeParentEn = 0 then s.mapPort p (fun q => { q with ttGood := 0 }) else
    let good := decide (-32 ≤ off) && decide (off ≤ 32)
    let n := if good then (s.port p).ttGood + 1 else 0
    let s := (s.mapPort p (fun q => { q with ttGood := n })).steer off
    if n < 16 then s
    else
      let s := (s.setFld fFabTimeLocked 1).setFld fTimeStatusValid 1
      if s.island.refclk then s.setFld fTimeStatusHoldover 0 else s

/-- TIME_TRANSFER_RECEIVE: a time packet is taken with the time at which it arrived and, with the partner's two timestamps, completes an exchange. -/
def execTimeTransferReceive (port : Fin 16) (idx : Nat) (sub : Fin 40) (s : State) : Out :=
  if s.dev != .up then .next s else
  let p := port.val
  match (s.port p).arrived[idx]? with
  | none => .next s
  | some x =>
    match x.body with
    | .time sent back =>
      if s.tooOld x.injectUs then .next (s.takeArrived p idx x).ageDrop else
      let t4 := stampAt ((s.port p).cameAt idx) sub.val (-(signedOf 16 (s.pfld p fPortPtpRxAdjAdj)))
      let s := (s.takeArrived p idx x).mapPort p (fun q => { q with ttLast := some ⟨sent, t4⟩, ttAt := s.mono })
      match back with
      | none => .next s
      | some (t1, t2) => .next (s.exchange p t1 t2 sent t4)
    | _ => .next s

/-- TIME_PARENT_LOSS: with no time packet on the parent port for four intervals, or its link down, locked clears, the counter holds over and the loss is
reported (R331). -/
def execTimeParentLoss (s : State) : Out :=
  let p := s.fld fFabTimeParent
  if s.dev = .up && s.fld fFabTimeParentEn = 1 && (s.fld fFabTimeLocked = 1 || s.fld fTimeStatusHoldover = 0) &&
      (!s.fabUp p || (s.port p).ttAt + 40000 * s.fld fFabTimeTtInterval ≤ s.mono) then
    let s := (s.setFld fFabTimeLocked 0).setFld fTimeStatusHoldover 1
    .next ((s.mapPort p (fun q => { q with ttGood := 0 })).note .timeParentLost)
  else .next s

end Sys2Proof.Machine
end

