-- ==== Sys2Proof/Machine/Device.lean ====
section
/-! DEFINITION. Resets and stops of the device: what a reset clears and what it keeps, the causes it logs, and the stop sequence of the
Always-On Island (R385, R388 to R392, R438). -/

namespace Sys2Proof.Machine

/-- The rim registers that a device reset leaves alone: the island's, the controller's key, and the counters cleared only at power-on (R16, R389,
R438). -/
def keptAtReset (a : Nat) : Bool :=
  (decide (0x2C9000 ≤ a) && decide (a < 0x2CA000)) || (decide (0x40 ≤ a) && decide (a ≤ 0x98)) ||
  (decide (0x2B0100 ≤ a) && decide (a ≤ 0x2B0128)) ||
  (decide (0x2C1000 ≤ a) && decide (a < 0x2C2000) && decide ((a - 0x2C1000) % 0x40 = 0x30)) ||
  (decide (0x280000 ≤ a) && decide (a < 0x2A0000) && decide ((a - 0x280000) % 0x80 = 0x38))

/-- The rim registers after a device reset: the stop cause and mc_key_valid are kept too (R345, R387). -/
def State.clearRim (s : State) : State :=
  let t := { s with rim := s.rim.clear (fun a => !keptAtReset a), rimShadow := [] }
  (t.setFld fScrStatusMcKeyValid (s.fld fScrStatusMcKeyValid)).setFld fPwrStatusStopCause (s.fld fPwrStatusStopCause)

/-- Everything outside the island at its reset state, and every pin outside it in its fuse-defined state (R388, R389, R391). -/
def State.clearDevice (s : State) : State :=
  { s.clearRim.fusePads outerPads with
    dev := .inReset, notes := [], copies := [], cores := [], clusters := [], mesh := [], fabWait := [], bindings := [], farOps := [], hubHeld := [], wordErrs := []
    beacon := ⟨0, 0, 0⟩
    timeSteps := 0, clocks := ⟨none, none, [], []⟩, timeBase := ⟨false, 0, none, false, [], s.mono, none⟩
    power := { Power.reset with rest := s.power.rest, rimTemp := s.power.rimTemp }, images := ⟨[], false, [], false⟩, repair := ⟨[], [], [], 0⟩, dbg := Debug.reset
    lastRead := 0, rgns := [], heldClusters := [], lic := ⟨false, false, []⟩, scribe := Scribe.reset, ports := [], cls := []
    epoch := ⟨none, 0, 0⟩, scrFrames := [], removing := [], island := { (s.fusePads outerPads).island with startEnded := false, freezeLow := false } }

/-- A reset's cause enters AOI_CAUSE (R388, R392). -/
def State.logCause (s : State) (cause : Nat) : State :=
  let s := (s.setFld fAoiCausePrevious (s.fld fAoiCauseLast)).setFld fAoiCauseLast cause
  { s with island := { s.island with causes := s.island.causes ++ [cause] } }

/-- A lifecycle change that a reset or a stop interrupts: of copies A, B and C, those before the interruption hold the new value and the others the old one (R413). How many do
is free. (DESIGN CHOICE, log entry 155.) -/
def State.cutShort (s : State) : State :=
  match s.blowing with
  | none => s
  | some v =>
    let k := (Config.blown s.island.ns).val
    let c := s.lifeCopies
    { s with blowing := none, lifeCopies := (if 1 ≤ k then v else c.1, if 2 ≤ k then v else c.2.1, if 3 ≤ k then v else c.2.2) }

/-- A device reset begins, or one in progress is extended by another cause (R388, R389, R392). -/
def State.deviceReset (s : State) (cause : Nat) : State :=
  let s := s.cutShort
  match s.dev with
  | .off => s
  | .stopped => s.logCause cause
  | .inReset => s.logCause cause
  | _ => ((s.clearDevice.bump fAoiCauseResets 1).setFld fAoiStartTimerRunning 0).logCause cause

/-- The island stops the device: the cause is latched and logged, FAULT_N asserted, every clock gated and every rail removed; for a thermal trip
THERM_TRIP_N is asserted as well. A further cause that comes during a stop is logged once (R392). `code` is 1 for coolant, 2 for a thermal trip, 3 for a rail fault (R385). (DESIGN CHOICE, log entry 55.) -/
def State.stopDevice (s : State) (code : Nat) : State :=
  let s := s.cutShort
  match s.dev with
  | .off => s
  | .stopped =>
    if s.island.causes.contains (3 + code) then s
    else
      let s := (s.logEvent 0x04 2 0xFF none (BitVec.ofNat 64 code)).logCause (3 + code)
      { s with island := { s.island with thermTrip := s.island.thermTrip || code = 2 } }
  | d =>
    let s := s.logEvent 0x04 2 0xFF none (BitVec.ofNat 64 code)
    let s := if d = .inReset then s else (s.clearDevice.bump fAoiCauseResets 1).setFld fAoiStartTimerRunning 0
    let s := ((s.logCause (3 + code)).setFld fPwrStatusStopCause code).faultOn .stop
    { s with dev := .stopped, island := { s.island with pwrEn := 0, thermTrip := s.island.thermTrip || code = 2 } }.note (.island .stop)

end Sys2Proof.Machine
end

