-- ==== Sys2Proof/Machine/Power.lean ====
section
/-! DEFINITION. Power control: rails and their interfaces, voltage loops, droop, hints, the governor, limits, energy and temperature (rows
ENERGY_ESTIMATE, ENERGY_RECONCILE, AVS_FRAME to TEMPERATURE_READ; R278, R279, R368 to R387). -/

namespace Sys2Proof.Machine

/-! ## Clusters and rails -/

/-- A cluster's power beside its registers. -/
def State.clPower (s : State) (n : Nat) : ClPower := s.power.cl.look n clPowerNew

/-- The state with that changed. -/
def State.mapPower (s : State) (n : Nat) (f : ClPower → ClPower) : State :=
  { s with power := { s.power with cl := s.power.cl.put n (f (s.clPower n)) clPowerNew } }

/-- A field of the power registers of cluster `n`. -/
def State.pw (s : State) (n : Nat) (f : Fld) : Nat := s.fld (fldAt f (0x100 * n))

/-- The state with a field of the power registers of cluster `n` set. -/
def State.setPw (s : State) (n : Nat) (f : Fld) (v : Nat) : State := s.setFld (fldAt f (0x100 * n)) v

/-- A rail voltage within 0.60 V to 0.85 V (R368, R372). -/
def railMv (v : Nat) : Nat := max 600 (min 850 v)

/-- Whether a cluster is marked failed. -/
def State.clFailed (s : State) (n : Nat) : Bool := decide (s.fld (fldAt fClkClStatusFailed (0x100 * n)) = 1)

/-- The present core clock in MHz, a slew under way included (R348, R367). -/
def State.freqNow (s : State) : Nat :=
  let f := s.fld fClkStatusFreqMhz
  match s.clocks.slew with
  | none => f
  | some w =>
    let d := w.rate * (s.mono - w.since) / 8000
    if f ≤ w.target then min w.target (f + d) else max w.target (f - d)

/-- The band of a frequency: the nearest learned point at or above it (R373). -/
def bandOf (mhz : Nat) : Nat := min 9 (ceilDiv (mhz - 700) 50)

/-- A cluster's learned point for a frequency. -/
def State.learned (s : State) (n mhz : Nat) : Nat := s.pw n (fldAt fPwrClVfMv (8 * bandOf mhz))

/-- The present frequency band records a rail's voltage where it exceeds the recorded value (R372). -/
def State.recordPoint (s : State) (n v : Nat) : State :=
  let f := fldAt fPwrClVfMv (8 * bandOf s.freqNow)
  if s.fld fPwrStatusMode != 0 && s.pw n f < v then s.setPw n f v else s

/-- The transactions in a row that a converter has not answered, after one more: three make its rail faulted, which a later answer does not undo (R370). -/
def failRun (fails : Nat) (ok : Bool) : Nat := if 3 ≤ fails then fails else if ok then 0 else fails + 1

/-- A converter's response to one transaction, or none. -/
def ClPower.answered (k : ClPower) (ok : Bool) : ClPower := { k with fails := failRun k.fails ok }

/-- A rail write goes out, and its converter responds or not. A faulted rail keeps its last command (R370). -/
def State.writeRail (s : State) (n v : Nat) (ok : Bool) : State :=
  if (s.clPower n).faulted then s
  else (s.setPw n fPwrClStatusVMv v).mapPower n (fun k => { k.answered ok with written := s.mono })

/-- Every rail is asked for a voltage. A rail that a hint holds is asked for the hint's raise above it, and returns to that voltage (R376, R380). (DEDUCED, log
entry 66.) -/
def State.askRails (s : State) (v : Nat → Nat) : State :=
  (List.range 144).foldl (fun s n =>
    if s.clFailed n then s
    else
      let up := if (s.clPower n).hint.isSome then s.pw n fPwrClCtrlHintMv else 0
      s.mapPower n (fun k => { k with want := some (railMv (v n + up)), hint := k.hint.map (fun _ => v n) })) s

/-- Fixed mode's voltage is asked of every rail, and no hint holds one (R377). -/
def State.fixRails (s : State) : State :=
  (List.range 144).foldl (fun s n => if s.clFailed n then s else s.mapPower n (fun k => { k with want := some 800, hint := none })) s

/-- A frequency change is armed for the next whole microsecond (R348, R380). -/
def State.armFreq (s : State) (mhz : Nat) : State :=
  { s.setFld fClkFreqTargetMhz mhz with clocks := { s.clocks with freqAt := some ⟨mhz, (s.time / 1000 + 1) * 1000, false, s.mono⟩ } }

/-- A raise begins: every rail is asked for its learned point for the new frequency plus raise_mv (R380). -/
def State.startRaise (s : State) (mhz : Nat) : State :=
  let s := s.askRails (fun n => railMv (s.learned n mhz + s.fld fPwrGovRaiseMv))
  { s with power := { s.power with raise := some (mhz, s.mono) } }

/-- A raise on its way is given up, with its rail writes that wait (R380). -/
def State.dropRaise (s : State) : State :=
  if s.power.raise.isNone then s
  else
    let s := (List.range 144).foldl (fun s n => s.mapPower n (fun k => { k with want := none })) s
    { s with power := { s.power with raise := none } }

/-! ## Energy counters (R279) -/

/-- Energy in femtojoules added to a counter of microjoules, what is left of a microjoule being kept. (DESIGN CHOICE, log entry 67.) -/
def State.addEnergy (s : State) (f : Fld) (fj : Nat) : State :=
  let t := s.power.rest.look f.off 0 + fj
  { s.bump f (t / 10 ^ 9) with power := { s.power with rest := s.power.rest.put f.off (t % 10 ^ 9) 0 } }

/-! ## AVSBus frames (R369, R372) -/

/-- The clusters of a row in the order in which its interface serves their writes: after the one it served last. -/
def State.railOrder (s : State) (cy : Nat) : List Nat :=
  let last := s.power.served.look cy 11
  (List.range 12).map (fun j => (last + 1 + j) % 12 + 12 * cy)

/-- One rail's queued write is served, when its last write is ten microseconds old or a raise is on its way; one without a response stays queued. A loop's
write is recorded in the present band (R372). (DEDUCED, log entry 124.) -/
def State.serveRail (s : State) (n : Nat) (ok : Bool) : State :=
  let k := s.clPower n
  match k.want with
  | none => s
  | some v =>
    if s.power.raise.isSome || k.written = 0 || k.written + 10000 ≤ s.mono then
      let s := (s.writeRail n v ok).mapPower n (fun k => { k with want := if ok then none else k.want })
      let s := if s.power.raise.isNone then s.recordPoint n v else s
      { s with power := { s.power with
        served := s.power.served.put (n / 12) (n % 12) 11, raise := s.power.raise.map (fun r => (r.1, s.mono)) } }
    else s

/-- The latest power of a rim or DRAM rail, in milliwatts. -/
def Power.rail (p : Power) (j : Nat) : Nat := p.rimMv.look j 0 * p.rimA.look j 0

/-- The sum of the latest rail readings, in watts. -/
def State.readWatts (s : State) : Nat :=
  ((List.range 4).foldl (fun w j => w + s.power.rail j) ((List.range 144).foldl (fun w n => w + (s.clPower n).readMv * s.pw n fPwrClStatusIA) 0)) / 1000

/-- A read of a rail: its value, or none where its converter gives no valid response, which counts towards a fault (R370). -/
def State.readRail (s : State) (n : Nat) (a : Option Nat) : State :=
  let s := s.mapPower n (fun k => k.answered a.isSome)
  let s := match a with
    | none => s
    | some i => s.setPw n fPwrClStatusIA i
  s.mapPower n (fun k => { k with readFj := k.readFj + k.readMv * s.pw n fPwrClStatusIA * 10 ^ 8 })

/-- A read of the voltage and one of the current of a rim or DRAM rail: two transactions, each with its value or without an answer (R369, R370). (DEDUCED, log entry 150.) -/
def Power.readRim (p : Power) (j : Nat) (mv amps : Option Nat) : Power :=
  { p with
    railFails := p.railFails.put j (failRun (failRun (p.railFails.look j 0) mv.isSome) amps.isSome) 0
    rimMv := p.rimMv.put j (mv.getD (p.rimMv.look j 0)) 0
    rimA := p.rimA.put j (amps.getD (p.rimA.look j 0)) 0 }

/-- The energy of the rim, VDD_RIM and VDD_PHY, in a frame of 100 microseconds, from the latest readings, in femtojoules (R369, R383). -/
def State.rimFrame (s : State) : Nat := (s.power.rail 0 + s.power.rail 1) * 10 ^ 8

/-- The energy of the DRAM rails in a frame, which the device's counter alone takes: a cluster's estimate is reconciled with its own rail. (DEDUCED, log entry 151.) -/
def State.dramFrame (s : State) : Nat := (s.power.rail 2 + s.power.rail 3) * 10 ^ 8

/-- AVS_FRAME: a frame reads a row's twelve currents and the voltage of the rail whose turn it is, and serves the queued writes; the thirteenth interface
reads the voltages and currents of the four rim and DRAM rails. Each frame's energy is taken from the latest readings (R369, R383). -/
def execAvsFrame (bus : Fin 13) (amps volts : List (Option Nat)) (answered : List Bool) (s : State) : Out :=
  if s.dev != .up then .next s
  else if bus.val < 12 then
    let cy := bus.val
    let s := (List.range 12).foldl (fun s cx => s.readRail (cx + 12 * cy) (amps.getD cx none)) s
    let turn := s.power.turns.look cy 0
    let v := volts.getD 0 none
    let s := s.mapPower (turn + 12 * cy) (fun k => { k.answered v.isSome with readMv := v.getD k.readMv })
    let s := { s with power := { s.power with turns := s.power.turns.put cy ((turn + 1) % 12) 0 } }
    let s := (s.railOrder cy).foldl (fun s n => s.serveRail n (answered.getD (n % 12) true)) s
    .next (s.setFld fPwrEstReadW s.readWatts)
  else
    let s := { s with power := (List.range 4).foldl (fun p j => p.readRim j (volts.getD j none) (amps.getD j none)) s.power }
    .next (((s.addEnergy fPwrEnergyRimCount s.rimFrame).addEnergy fPwrEnergyDevCount (s.rimFrame + s.dramFrame)).setFld fPwrEstReadW s.readWatts)

/-- RAIL_FAULT: a rail with three failed transactions in a row, or whose converter reports a fault, is faulted: a cluster's fails it, a rim or DRAM
rail's stops the device (R370), frozen or not (R385, R445). A converter may report one while the device is in reset too. -/
def execRailFault (bus : Fin 13) (rail : Fin 12) (reported : Bool) (s : State) : Out :=
  if s.dev = .off || s.dev = .stopped then .next s
  else if bus.val < 12 then
    let n := rail.val + 12 * bus.val
    let k := s.clPower n
    if s.dev = .frozen || k.faulted || !(reported || 3 ≤ k.fails) then .next s
    else .next ((((s.mapPower n (fun k => { k with faulted := true, want := none })).bump fPwrAvsErrCount 1).faultOn .rail).failCluster n)
  else if rail.val < 4 && (reported || 3 ≤ s.power.railFails.look rail.val 0) then .next (((s.bump fPwrAvsErrCount 1).faultOn .rail).stopDevice 3)
  else .next s

/-! ## Voltage loops (R372) -/

/-- Whether a loop may lower its rail to a voltage: not during a slew, and not below the learned point of a higher frequency that is armed (R380). (DEDUCED, log
entry 63.) -/
def State.mayLower (s : State) (n v : Nat) : Bool :=
  s.clocks.slew.isNone && s.clocks.freqAt.all (fun a => decide (a.target ≤ s.freqNow) || decide (s.learned n a.target ≤ v))

/-- VOLTAGE_LOOP_DECISION: slack below the target raises the rail by 5 mV; otherwise a rail that could be lower is lowered by 5 mV; otherwise it holds, and the
present band records its voltage. The loops are off in fixed mode, and leave a rail alone while a hint or a raise holds it. (DEDUCED, log entry 63.) -/
def execVoltageLoopDecision (cluster : ClusterId) (slack : Nat) (lowerOk : Bool) (s : State) : Out :=
  let n := cluster.val
  let k := s.clPower n
  let v := s.pw n fPwrClStatusVMv
  if !s.alive n || s.fld fPwrStatusMode = 0 || s.clFailed n || k.faulted || k.hint.isSome || s.power.raise.isSome then .next s
  else
    let w := if slack < s.fld fPwrGovSlackTarget then railMv (v + 5) else if lowerOk && s.mayLower n (railMv (v - 5)) then railMv (v - 5) else v
    if w = v then .next ((s.mapPower n (fun k => { k with want := none })).recordPoint n v)
    else .next (s.mapPower n (fun k => { k with want := some w }))

/-! ## Droop (R375) -/

/-- Whether a cluster that skipped so many clocks ago, of the last 64, may skip this one: at most 4 in a row and at most 16 in any 64 (R349). -/
def maySkip (skips : List Nat) : Bool := decide (skips.length < 16) && !([1, 2, 3, 4].all skips.contains)

/-- DROOP_DETECT, `clocks` clocks after the cluster's last: `below` is how far the supply lies below its command, in mV. Boost, skipping and shunt are counted;
negative slack in a cycle that the limits on skipping forbid is a detected error, reported for the cluster's region. `paced` says that pacing would have
withheld this clock too. -/
def execDroopDetect (cluster : ClusterId) (below : Int) (negative : Bool) (clocks : Nat) (paced : Bool) (s : State) : Out :=
  let n := cluster.val
  if !s.alive n then .next s
  else
    let s := s.mapPower n (fun k => { k with skips := (k.skips.map (· + clocks)).filter (fun a => decide (a < 64)) })
    let s := if 25 ≤ below then (s.setPw n fPwrClBoostCount (s.pw n fPwrClBoostCount + 1)).mapPower n (fun k => { k with charged := false }) else s
    let s := if below ≤ -30 then s.setPw n fPwrClShuntCount (s.pw n fPwrClShuntCount + 1) else s
    if (45 ≤ below || negative) && maySkip (s.clPower n).skips then
      .next ((s.setPw n fPwrClSkipCount (s.pw n fPwrClSkipCount + 1)).mapPower n (fun k =>
        { k with skips := k.skips ++ [0], both := k.both + bit paced }))
    else if negative then
      let s := s.setPw n fPwrClDroopErrCount (s.pw n fPwrClDroopErrCount + 1)
      let i := (clusterCores n).headD 0
      .next (s.mapCore i (Core.report (s.env i) .droop n))
    else .next s

/-! ## Hints (R70, R376) -/

/-- The time at which a hint's phase begins, in nanoseconds of the timers, at a clock in MHz. -/
def Hint.start (mhz : Nat) (h : Hint) : Nat := h.since + h.lead * 16 * 1000 / mhz

/-- The time at which a hint's phase ends; a duration of 0 has none. -/
def Hint.stop (mhz : Nat) (h : Hint) : Option Nat := if h.duration = 0 then none else some (h.start mhz + h.duration * 16 * 1000 / mhz)

/-- The hints of a cluster's cores. -/
def State.hints (s : State) (n : Nat) : List Hint := (clusterCores n).filterMap (fun i => (s.core i).ctl.hint)

/-- A cluster's announced level: the highest that a core has announced for a time within the next 4 microseconds, while hints are acted on. -/
def State.announced (s : State) (n : Nat) : Nat :=
  if s.fld fPwrCtrlHintEn = 0 then 0
  else (s.hints n).foldl (fun m h =>
    let on := decide (h.start s.freqNow ≤ s.mono + 4000) && (h.stop s.freqNow).all (fun t => decide (s.mono < t))
    if on then max m h.level else m) 0

/-- Whether a hint of a cluster, given at least `lo` nanoseconds ahead, whose phase begins at most `hi` nanoseconds from now, and at least `least`, rises above
the present activity by the step. -/
def State.risesIn (s : State) (n activity lo least hi : Nat) : Bool :=
  decide (s.fld fPwrCtrlHintEn = 1) && decide (activity + s.pw n fPwrClCtrlHintStep ≤ s.announced n) &&
  (s.hints n).any (fun h => decide (s.announced n ≤ h.level) && decide (h.since + lo ≤ h.start s.freqNow) && decide (s.mono + least ≤ h.start s.freqNow) &&
    decide (h.start s.freqNow ≤ s.mono + hi))

/-- HINT_RAIL_RAISE: with at least 3 microseconds before an announced rise, the cluster raises its rail by hint_mv: above the voltage that a raise asks of it,
where one is on its way. In fixed mode the rails keep 0.80 V (R377). -/
def execHintRailRaise (cluster : ClusterId) (activity : Fin 17) (answered : Bool) (s : State) : Out :=
  let n := cluster.val
  let v := (s.clPower n).want.getD (s.pw n fPwrClStatusVMv)
  if s.alive n && s.fld fPwrStatusMode != 0 && !s.clFailed n && !(s.clPower n).faulted && (s.clPower n).hint.isNone &&
      s.risesIn n activity.val 3000 3000 4000 then
    let up := railMv (v + s.pw n fPwrClCtrlHintMv)
    let s := (s.writeRail n up answered).mapPower n (fun k => { k with hint := some v, want := if answered then none else some up })
    .next { s with power := { s.power with raise := s.power.raise.map (fun r => (r.1, s.mono)) } }
  else .next s

/-- BOOST_PRECHARGE: 200 nanoseconds before a rise announced that far ahead, the cluster charges its boost reservoir. -/
def execBoostPrecharge (cluster : ClusterId) (activity : Fin 17) (s : State) : Out :=
  let n := cluster.val
  if s.alive n && s.risesIn n activity.val 200 1 200 then .next (s.mapPower n (fun k => { k with charged := true })) else .next s

/-- Whether every phase that a cluster's cores announced has been over for ten microseconds. -/
def State.hintsOver (s : State) (n : Nat) : Bool :=
  (s.hints n).all (fun h =>
    if h.level = 0 then decide (h.start s.freqNow + 10000 ≤ s.mono) else (h.stop s.freqNow).any (fun t => decide (t + 10000 ≤ s.mono)))

/-- HINT_RAIL_RETURN: ten microseconds after the announced phase the rail returns to its loop, at the voltage it had before the hint or that a raise has since
asked of it. (DEDUCED, log entry 66.) -/
def execHintRailReturn (cluster : ClusterId) (answered : Bool) (s : State) : Out :=
  let n := cluster.val
  match (s.clPower n).hint with
  | none => .next s
  | some v =>
    if s.alive n && s.hintsOver n then
      .next ((s.writeRail n v answered).mapPower n (fun k => { k with hint := none, want := if answered then none else some v }))
    else .next s

/-! ## Modes and the governor (R374, R377 to R381) -/

/-- PWR_MODE_WRITE: the mode for the next governor period; manual outside Maintenance, and the reserved value, are ignored and set mode_err. -/
def State.writePowerMode (s : State) (mode : Nat) : State :=
  if mode = 3 || (mode = 2 && s.lifecycle != 3) then s.setFld fPwrStatusModeErr 1 else s.setFld fPwrCtrlMode mode

/-- PWR_MODE_WRITE. -/
def execPwrModeWrite (mode : Fin 4) (s : State) : Out := if s.dev = .up then .next (s.writePowerMode mode.val) else .next s

/-- Whether the learned point for a frequency plus raise_mv is within 0.85 V on every cluster that is not failed (R374). -/
def State.fits (s : State) (mhz : Nat) : Bool :=
  (List.range 144).all (fun n => s.clFailed n || decide (s.learned n mhz + s.fld fPwrGovRaiseMv ≤ 850))

/-- The frequencies that the governor may choose that fit, the highest first (R374, R377). -/
def State.steps (s : State) : List Nat := ((List.range 46).map (fun j => 1150 - 10 * j)).filter s.fits

/-- The frequency limit of R374: the highest step that fits; 700 where none does. (DEDUCED, log entry 64.) -/
def State.ceiling (s : State) : Nat := s.steps.headD 700

/-- The hottest cluster temperature. -/
def State.hottest (s : State) : Nat := (List.range 144).foldl (fun m n => max m (s.pw n fPwrClStatusTempC)) 0

/-- Whether the throttle acts: from the throttle temperature until every cluster is below it by the hysteresis (R379). -/
def State.throttles (s : State) : Bool :=
  let t := s.fld fPwrThermThrottleC
  decide (t ≤ s.hottest) || (decide (s.fld fPwrStatusThrottling = 1) && decide (t - s.fld fPwrThermHystC ≤ s.hottest))

/-- The sustained and the peak limit in watts (R379, R381). -/
def State.sustainW (s : State) : Nat := min 15000 (s.fld fPwrLimitSustainW)

/-- The peak limit. -/
def State.peakW (s : State) : Nat := min 17500 (s.fld fPwrLimitPeakW)

/-- The forecast power at a frequency, from the readings, the estimate and the hints (R376, R379). -/
def State.forecast (s : State) (mhz : Nat) : Nat :=
  Config.forecast mhz s.readWatts (s.fld fPwrEstEstW) ((List.range 144).foldl (fun t n => t + s.announced n) 0) s.freqNow

/-- The frequency to which the clock is on its way: that of an armed change, or of a slew, or the present one. -/
def State.freqGoal (s : State) : Nat :=
  match s.clocks.freqAt, s.clocks.slew with
  | some a, _ => a.target
  | none, some w => w.target
  | none, none => s.freqNow

/-- The frequency that the governor chooses: of the steps that fit, within 50 MHz above the frequency to which the clock is on its way, or while the throttle acts at least 10 MHz below
both that and the present one, the highest whose forecast is within sustain_w, or else the lowest; none where there is no such step (R374, R379). (DEDUCED, log entry 152.) -/
def State.chooses (s : State) : Option Nat :=
  let may := s.steps.filter (fun f =>
    if s.fld fPwrStatusThrottling = 1 then decide (f + 10 ≤ min s.freqNow s.freqGoal) else decide (f ≤ s.freqGoal + 50))
  (may.find? (fun f => decide (s.forecast f ≤ s.sustainW))).or may.getLast?

/-- A mode taken into force: fixed mode first brings the clock down to 0.85 GHz and then the rails to 0.80 V; from below, the rails are set first (R377). A
frequency change armed, or under way to another frequency, is replaced, and the target is 0.85 GHz from then on. (DEDUCED, log entry 125.) -/
def State.takeMode (s : State) (mode : Nat) : State :=
  let s := s.setFld fPwrStatusMode mode
  if mode != 0 then s
  else
    let s := s.dropRaise
    let s := { s with clocks := { s.clocks with freqAt := none } }
    let f := s.freqNow
    if 850 < f || s.clocks.slew.any (fun w => decide (850 < w.target)) then s.armFreq 850
    else
      let s := s.fixRails.setFld fClkFreqTargetMhz 850
      if f < 850 || s.clocks.slew.any (fun w => decide (w.target < 850)) then { s with power := { s.power with raise := some (850, s.mono) } } else s

/-- The pacing that a region's cap asks, from its power over the period that ends, in eighths of its clocks; above its cap it is paced (R278). (DESIGN CHOICE, log
entry 68.) -/
def State.capAsks (s : State) (r : Nat) : Nat :=
  let cap := s.rgn r fRgnPwrCapW
  let watts := s.power.rgnSpent.look r 0 / (10 ^ 6 * max 1 (s.mono - s.power.governed))
  if cap = 0 then 0
  else
    let p := (Config.capPacing watts cap (s.power.caps.look r 0)).val
    if cap < watts then max 1 p else p

/-- A frequency chosen: a lower one is slewed to at once, a higher one has its rails raised first, and a raise on its way to any other frequency is given up (R379, R380). -/
def State.govern (s : State) (f : Nat) : State :=
  if f < s.freqGoal then s.dropRaise.armFreq f
  else if f = s.freqGoal then s.dropRaise
  else if s.power.raise.any (fun r => decide (r.1 = f)) then s
  else s.dropRaise.startRaise f

/-- GOVERNOR_PERIOD: once each period the mode in force, the ceiling and the throttle are renewed; in governed mode the frequency is chosen and a raise or
lowering begun; each capped region's pacing is set. -/
def execGovernorPeriod (s : State) : Out :=
  let period := max 10 (s.fld fPwrGovPeriodUs)
  if s.dev != .up || s.fld fRstStatusMrm = 1 || s.mono < s.power.governed + 1000 * period then .next s
  else
    let hot := s.throttles
    let caps := (List.range 64).foldl (fun (t : Tbl Nat) r => t.put r (s.capAsks r) 0) []
    let s := { s with power := { s.power with governed := s.mono, caps := caps, rgnSpent := [] } }
    let s := (s.setFld fPwrStatusFCeilingMhz s.ceiling).setFld fPwrStatusThrottling (bit (hot && s.fld fPwrCtrlMode = 1))
    let s := if hot && s.fld fPwrCtrlMode = 1 then s.bump fPwrThrottleUsCount period else s
    let s := if s.fld fPwrStatusMode = s.fld fPwrCtrlMode then s else s.takeMode (s.fld fPwrCtrlMode)
    if s.fld fPwrStatusMode != 1 then .next s
    else
      match s.chooses with
      | none => .next s
      | some f => .next (s.govern f)

/-- RAISE_SETTLE_ELAPSED: settle_us after the last rail write of a raise the frequency change is armed; in manual mode it was armed by the controller and
may now start (R378, R380). -/
def execRaiseSettleElapsed (s : State) : Out :=
  match s.power.raise with
  | none => .next s
  | some (f, last) =>
    if s.dev = .up && (List.range 144).all (fun n => s.clFailed n || (s.clPower n).want.isNone) && last + 1000 * s.fld fPwrGovSettleUs ≤ s.mono then
      let s := { s with power := { s.power with raise := none } }
      .next (if s.fld fPwrStatusMode = 2 then s else s.armFreq f)
    else .next s

/-- The on-die estimate in watts: what the clusters' controllers estimated for their last microsecond, and what the rest of the die takes, for which the spec states no
estimate (R381, R383). (DESIGN CHOICE, log entry 153.) -/
def State.estimate (s : State) (rest : Nat) : Nat := (List.range 144).foldl (fun t n => t + (s.clPower n).lastFj) 0 / 10 ^ 9 + rest

/-- Whether the frequency has fallen since the peak limiter acted, or cannot fall: the governor does not choose it, or it is the lowest. (DEDUCED, log entry 154.) -/
def State.hasFallen (s : State) : Bool := decide (s.freqNow < s.power.peakMhz) || s.fld fPwrStatusMode != 1 || decide (s.freqNow ≤ 700)

/-- The eighths of clocks that the peak limiter withholds: what it took when it acted, falling to none over the 100 microseconds of its release (R381). -/
def State.peakPacing (s : State) : Nat :=
  match s.power.release with
  | none => s.power.peak
  | some t => ceilDiv (s.power.peak * (100000 - (s.mono - t))) 100000

/-- PEAK_LIMITER: an on-die estimate above the peak, or above the sustained limit for longer than peak_ms, paces every region; once it is so no more and the frequency has fallen
the pacing is released over 100 microseconds. `rest` is what the die outside the clusters is estimated to take, and `eighths` is how much the limiter withholds. -/
def execPeakLimiter (rest : Nat) (eighths : Fin 8) (s : State) : Out :=
  if s.dev != .up then .next s
  else
    let est := s.estimate rest
    let excess := if s.sustainW < est then some (s.power.excess.getD s.mono) else none
    let acts := decide (s.peakW < est) || excess.any (fun t => decide (t + 1000000 * max 1 (min 10 (s.fld fPwrLimitPeakMs)) < s.mono))
    let s : State := { s.setFld fPwrEstEstW (min est 65535) with power := { s.power with excess := excess } }
    let s : State := if acts then
        { s.bump fPwrPeakEventsCount 1 with power := { s.power with peak := max 1 eighths.val, peakMhz := s.freqNow, release := none } }
      else if s.power.peak != 0 && s.power.release.isNone && s.hasFallen then { s with power := { s.power with release := some s.mono } }
      else if s.peakPacing = 0 then { s with power := { s.power with peak := 0, release := none } }
      else s
    .next (s.setFld fPwrStatusPeakActive (bit (s.peakPacing != 0)))

/-- CLUSTER_CURRENT_LIMIT: a cluster rail whose reading of the last 100 microseconds lies above its limit paces its region; below it, the pacing ends (R369, R381). -/
def execClusterCurrentLimit (cluster : ClusterId) (_ : Unit) (eighths : Fin 8) (s : State) : Out :=
  let n := cluster.val
  if !s.alive n then .next s
  else .next (s.mapPower n (fun k => { k with paced := if min 145 (s.pw n fPwrClCtrlIlimA) < s.pw n fPwrClStatusIA then max 1 eighths.val else 0 }))

/-- The eighths of clocks withheld from a region: the largest that the peak limiter, a current limit or its cap asks (R381). -/
def State.pacing (s : State) (r : Nat) : Nat :=
  (s.rectClusters r).foldl (fun m n => max m (s.clPower n).paced) (max s.peakPacing (s.power.caps.look r 0))

/-! ## Energy (R279, R383) -/

/-- A core's estimated energy before correction: its activity counts weighted by the coefficients and scaled by the square of the rail voltage. -/
def State.rawEnergy (s : State) (n : Nat) (counts : List Nat) : Nat :=
  let w := (List.range 8).foldl (fun w j => w + counts.getD j 0 * s.fld (fldAt fPwrCoefCoef (8 * j))) 0
  w * s.pw n fPwrClStatusVMv ^ 2 / 750 ^ 2

/-- One core's energy to its region and its selected client, or outside every region to the free counter, and to the device; that of a mirror is its primary's
region's and client's (R279, R429). -/
def State.addCore (s : State) (n i raw : Nat) : State :=
  let fj := raw * s.pw n fPwrClCalFactor / 2 ^ 14
  let s := s.addEnergy fPwrEnergyDevCount fj
  match s.ownerOf n with
  | none => s.addEnergy fPwrEnergyFreeCount fj
  | some r =>
    let k := (s.view i).ctl.cliSel
    let s := s.addEnergy (fldAt fRgnEnergyCount (0x40 * r)) fj
    let s := { s with power := { s.power with rgnSpent := s.power.rgnSpent.put r (s.power.rgnSpent.look r 0 + fj) 0 } }
    if s.cli k fCliCfgValid = 1 && s.cli k fCliCfgRegion = r then s.addEnergy (fldAt fCliEnergyCount (0x80 * k)) fj else s

/-- ENERGY_ESTIMATE: each microsecond a cluster's cores' activity counts, in physical order, become energy. The clocks that pacing withheld in that microsecond
count for a region at its origin cluster, without those that the cluster skipped (R278, R375). -/
def execEnergyEstimate (cluster : ClusterId) (counts : List (List Nat)) (s : State) : Out :=
  let n := cluster.val
  if !s.alive n then .next s
  else
    let raws := (clusterCores n).zip (counts.map (s.rawEnergy n))
    let s := raws.foldl (fun s x => s.addCore n x.1 x.2) s
    let both := (s.clPower n).both
    let raw := raws.foldl (fun t x => t + x.2) 0
    let s := s.mapPower n (fun k => { k with spent := k.spent + raw, lastFj := raw * s.pw n fPwrClCalFactor / 2 ^ 14, both := 0 })
    match s.regionOf n with
    | none => .next s
    | some r =>
      let origin := decide (n = s.rgn r fRgnCfgCx0 + 12 * s.rgn r fRgnCfgCy0)
      .next (if origin then s.bump (fldAt fRgnPacedCount (0x40 * r)) (s.freqNow * s.pacing r / 8 - both) else s)

/-- ENERGY_RECONCILE: each millisecond a cluster compares its estimate with the energy read from its rail and keeps the ratio, between 0.75 and 1.25. -/
def execEnergyReconcile (cluster : ClusterId) (s : State) : Out :=
  let n := cluster.val
  if !s.alive n then .next s
  else
    let k := s.clPower n
    let s := if k.spent = 0 then s else s.setPw n fPwrClCalFactor (max 0x3000 (min 0x5000 (k.readFj * 2 ^ 14 / k.spent)))
    .next (s.mapPower n (fun k => { k with spent := 0, readFj := 0 }))

/-! ## Temperature (R384) -/

/-- The trip temperature: 110 for a value outside 100 to 115. -/
def State.tripC (s : State) : Nat :=
  let t := s.fld fPwrThermTripC
  if 100 ≤ t && t ≤ 115 then t else 110

/-- TEMPERATURE_READ: the hottest sensor of a cluster, or of the rim, is read; from 85 degrees the cluster's reservoirs refresh twice as often, and at the
trip temperature the device stops. -/
def execTemperatureRead (cluster : Option ClusterId) (celsius : Fin 256) (s : State) : Out :=
  let t := celsius.val
  match s.dev with
  | .off => .next s
  | .stopped =>
    if cluster.isSome then .next s
    else
      let s := { s with power := { s.power with rimTemp := some t } }
      .next (if s.tripC ≤ t then s.stopDevice 2 else s)
  | _ =>
    let s := match cluster with
      | none => { s with power := { s.power with rimTemp := some t } }
      | some n => (clusterCores n.val).foldl (fun s i => s.mapCore i (fun c => { c with rsv := { c.rsv with hot := decide (85 ≤ t) } }))
          (s.setPw n.val fPwrClStatusTempC t)
    let s := s.setFld fPwrEstTempMaxC (max s.hottest (s.power.rimTemp.getD 0))
    .next (if s.tripC ≤ t then s.stopDevice 2 else s)

end Sys2Proof.Machine
end

