-- ==== Sys2Proof/Machine/Clock.lean ====
section
/-! DEFINITION. Clocks and time: frequency changes, crossings, references, link replays, the Global Time Counter, its commits and PPS (rows
MESH_LINK_REPLAY, HAIRLINE_REPLAY, CLK_FREQ_AT_WRITE to PPS_OUT_END, TIME_BASE_TICK and FREQUENCY_SLEW_END; R251, R253, R258, R346 to R367). -/

namespace Sys2Proof.Machine

/-! ## Crossings (R349 to R354) -/

/-- A side counted the other way: 0 −x, 1 +x, 2 −y, 3 +y (R367). -/
def flipSide (side : Nat) : Nat :=
  match side with
  | 0 => 1
  | 1 => 0
  | 2 => 3
  | _ => 2

/-- Whether a cluster has a neighbour on a side. -/
def sidePresent (n side : Nat) : Bool := hubHas n (flipSide side)

/-- The neighbour of a cluster on a side. -/
def sideCluster (n side : Nat) : Nat := hubStep n (flipSide side)

/-- A field of the register of the crossing on a side of a cluster. -/
def State.xf (s : State) (n side : Nat) (f : Fld) : Nat := s.fld (fldAt f (0x100 * n + 8 * side))

/-- The state with a field of that register set. -/
def State.setXf (s : State) (n side : Nat) (f : Fld) (v : Nat) : State := s.setFld (fldAt f (0x100 * n + 8 * side)) v

/-- A field of the clock registers of cluster `n`. -/
def State.ck (s : State) (n : Nat) (f : Fld) : Nat := s.fld (fldAt f (0x100 * n))

/-- The state with a field of the clock registers of cluster `n` set. -/
def State.setCk (s : State) (n : Nat) (f : Fld) (v : Nat) : State := s.setFld (fldAt f (0x100 * n)) v

/-- What is kept of a crossing beside its register. -/
def State.crossing (s : State) (n side : Nat) : Crossing := s.clocks.xings.look (4 * n + side) crossingNew

/-- The state with that replaced. -/
def State.setCrossing (s : State) (n side : Nat) (x : Crossing) : State :=
  { s with clocks := { s.clocks with xings := s.clocks.xings.put (4 * n + side) x crossingNew } }

/-- The margin of a setting in a window (R352). -/
def marginOf (c : Int) (w : Int × Int) : Int := min (c - w.1) (w.2 - c)

/-- The centre of a window, rounded down. (DEDUCED, log entry 61.) -/
def centreOf (w : Int × Int) : Int := (w.1 + w.2) / 2

/-- A retrain in place: the setting moves with the replica centre, which is recorded anew (R353). -/
def State.retrainXing (s : State) (n side : Nat) (w : Int × Int) : State :=
  let c : Int := centreOf w + s.xf n side fClkXingSetting - s.xf n side fClkXingRefCentre
  let s := (s.setXf n side fClkXingSetting (c % 512).toNat).setXf n side fClkXingRefCentre (centreOf w % 512).toNat
  s.setCk n fClkRetrainCount (s.ck n fClkRetrainCount + 1)

/-- The links of a bundle from a cluster in a direction, as the sender's core with the routers at their ends (R349). -/
def bundleLinks (n dir : Nat) : List ((Nat × Nat) × (Nat × Nat)) :=
  let x0 := 6 * (n % 12)
  let y0 := 8 * (n / 12)
  let from_ : List (Nat × Nat) := match dir with
    | 0 => (List.range 8).map (fun j => (x0 + 5, y0 + j))
    | 1 => (List.range 8).map (fun j => (x0, y0 + j))
    | 2 => (List.range 6).map (fun j => (x0 + j, y0 + 7))
    | _ => (List.range 6).map (fun j => (x0 + j, y0))
  from_.map (fun a => (a, stepDir a dir))

/-- Every region that holds both of two clusters is stopped, with its job (R253, R258). -/
def State.stopAcross (s : State) (m n : Nat) : State :=
  (s.regionsOn.filter (fun r => (s.rectClusters r).contains m && (s.rectClusters r).contains n)).foldl State.resetJob s

/-- A crossing fails: its links are marked down with what follows, and its receiving cluster fails (R253, R258, R354, R420). -/
def State.failXing (s : State) (n side : Nat) : State :=
  if s.xf n side fClkXingFailed = 1 then s
  else
    let m := sideCluster n side
    let s := s.setXf n side fClkXingFailed 1
    let s := (bundleLinks m side).foldl (fun s l => s.meshDown (s.physical l.1.1 l.1.2) side l.1 l.2) s
    ((s.hubDown m side).stopAcross m n).failCluster n

/-- The window of a crossing's last replica sweep since its alignment; before the first, what its replica path passes is free (R352). -/
def State.windowOf (s : State) (n side : Nat) : Int × Int :=
  (s.crossing n side).window.getD ((Config.replica n side s.mono).1.val, (Config.replica n side s.mono).2.val)

/-- A retrain at once, after which a margin below 8 fails the crossing (R354). -/
def State.retrainNow (s : State) (n side : Nat) (w : Int × Int) : State :=
  let s := s.retrainXing n side w
  if marginOf (s.xf n side fClkXingSetting) w < 8 then s.failXing n side else s

/-- CROSSING_SWEEP: a replica sweep finds the window from `a` to `b`; the margin is measured, and the crossing retrains below margin_warn and at
once below margin_fail. -/
def execCrossingSweep (cluster : ClusterId) (side : Fin 4) (a b : Fin 512) (s : State) : Out :=
  let n := cluster.val
  if !s.alive n || !sidePresent n side.val || s.xf n side.val fClkXingFailed = 1 then .next s
  else
    let w : Int × Int := (a.val, b.val)
    let m := marginOf (s.xf n side.val fClkXingSetting) w
    let s := s.setCrossing n side.val { s.crossing n side.val with window := some w }
    let s := s.setXf n side.val fClkXingMarginMin (min (s.xf n side.val fClkXingMarginMin) (max 0 m).toNat)
    if m < s.fld fClkCtrlMarginFail then .next (s.retrainNow n side.val w)
    else if m < s.fld fClkCtrlMarginWarn then .next (s.retrainXing n side.val w)
    else .next s

/-- The crossing of a bundle retrains at once, on the window of its last sweep, because a replay on it has cleared a CRC failure (R354). -/
def State.retrainBundle (s : State) (n side : Nat) : State :=
  if s.xf n side fClkXingFailed = 1 then s else s.retrainNow n side (s.windowOf n side)

/-! ## Replays (R251, R253, R258) -/

/-- MESH_LINK_REPLAY: a flit with a CRC failure, of a message or of an access that crosses in one step, is sent again from the retry buffer; `clears` says that this replay arrived whole. A replay that clears
retrains the crossing of a link between clusters, and the sixteenth that fails in a row marks the link down and stops the regions that hold it (R251,
R253, R354). (DESIGN CHOICE, log entry 108.) -/
def execMeshLinkReplay (i : CoreId) (dir : Fin 4) (clears : Bool) (s : State) : Out :=
  match s.logicalX i with
  | none => .next s
  | some x =>
    let a := (x, pyOf i)
    let b := stepDir a dir.val
    if !s.alive (clusterOfCore i) || s.linkDown a b || !s.reaches a b then .next s
    else
      let c := s.core i
      let m := if clears then 0 else c.replays.look dir.val 0 + 1
      let s := s.setCore i { c.bump fCoreMeshRetryCount 1 with replays := c.replays.put dir.val (if m = 16 then 0 else m) 0 }
      let n := clusterOfCore (s.physical b.1 b.2)
      if m = 16 then .next ((s.meshDown i dir.val a b).stopAcross (clusterOfCore i) n)
      else if clears && n != clusterOfCore i then .next (s.retrainBundle n dir.val)
      else .next s

/-- HAIRLINE_REPLAY: the same for a packet between two hubs (R258). -/
def execHairlineReplay (cluster : ClusterId) (dir : Fin 4) (clears : Bool) (s : State) : Out :=
  let n := cluster.val
  let k := s.cluster n
  if !s.alive n || !hubHas n dir.val || (k.fld fLigHlStatusLinkDown).testBit dir.val then .next s
  else
    let m := if clears then 0 else k.replays.look dir.val 0 + 1
    let s := s.setCluster n { k.bump fLigHlRetryCount 1 with replays := k.replays.put dir.val (if m = 16 then 0 else m) 0 }
    let goal := hubStep n dir.val
    if m = 16 then .next ((s.hubDown n dir.val).stopAcross n goal) else if clears then .next (s.retrainBundle (hubStep n dir.val) dir.val) else .next s

/-! ## Frequency (R348, R350, R378) -/

/-- A crossing's setting at a frequency: interpolated linearly in clock period between its settings at 0.70 and 1.15 GHz, and rounded down (R350). -/
def Crossing.at (x : Crossing) (mhz : Nat) : Int := x.high + (x.low - x.high) * (1150 - (mhz : Int)) * 700 / (450 * mhz)

/-- Every crossing set for a frequency, its replica centre recorded (R350, R352). -/
def State.setCrossings (s : State) (mhz : Nat) : State :=
  s.clocks.xings.foldl (fun s x =>
    let n := x.1 / 4
    let side := x.1 % 4
    (s.setXf n side fClkXingSetting ((x.2.at mhz) % 512).toNat).setXf n side fClkXingRefCentre (centreOf (s.windowOf n side) % 512).toNat) s

/-- The change to CLK_FREQ_TARGET is armed, with the target as it stands. In manual mode a higher frequency has its rails raised first, and a lower one gives up a
raise on its way (R348, R378). -/
def State.armSlew (s : State) (value : Word) : State :=
  let f := s.fld fClkFreqTargetMhz
  let s := { s with clocks := { s.clocks with freqAt := some ⟨f, value.toNat, decide (value.toNat < s.time), s.mono⟩ } }
  if s.fld fPwrStatusMode != 2 then s else if s.freqNow < f then s.startRaise f else s.dropRaise

/-- CLK_FREQ_AT_WRITE. -/
def execClkFreqAtWrite (value : Word) (s : State) : Out := if s.dev = .up then .next (s.armSlew value) else .next s

/-- The target of a frequency change as the management controller writes it: taken in manual mode, within 700 MHz and the ceiling (R378). In the other
modes only the governor writes it. (DEDUCED, log entry 62.) -/
def State.writeTarget (s : State) (v : Nat) : State :=
  if s.fld fPwrStatusMode != 2 then s
  else
    let hi := s.fld fPwrStatusFCeilingMhz
    let t := max 700 (min hi v)
    let s := s.setFld fClkFreqTargetMhz t
    if t = v then s else s.setFld fClkStatusClamped 1

/-- CLK_FREQ_TARGET_WRITE. -/
def execClkFreqTargetWrite (value : Word) (s : State) : Out := if s.dev = .up then .next (s.writeTarget (fieldOf value 0 11)) else .next s

/-- FREQUENCY_SLEW_START: at the first tick at or after the armed time, and after the arming, the slew begins from the frequency reached, at the rate that
CLK_CTRL.slew then gives; a time that was past when armed sets late. While a raise waits for its rails, it does not begin. -/
def execFrequencySlewStart (s : State) : Out :=
  match s.clocks.freqAt with
  | none => .next s
  | some a =>
    if s.dev = .up && a.time ≤ s.time && s.mono != a.armedAt && s.power.raise.isNone then
      let s := (s.setFld fClkStatusFreqMhz s.freqNow).setFld fClkStatusSlewing 1
      let s := if a.past then s.setFld fClkStatusLate 1 else s
      .next { s with clocks := { s.clocks with freqAt := none, slew := some ⟨a.target, s.mono, s.fld fClkCtrlSlew⟩ } }
    else .next s

/-- FREQUENCY_SLEW_END: the slew has reached its target; a change to fixed mode then sets the rails (R377). -/
def execFrequencySlewEnd (s : State) : Out :=
  match s.clocks.slew with
  | none => .next s
  | some w =>
    if s.dev = .up && s.freqNow = w.target then
      let s := ({ s with clocks := { s.clocks with slew := none } }.setFld fClkStatusFreqMhz w.target).setFld fClkStatusSlewing 0
      .next (if s.fld fPwrStatusMode = 0 then s.fixRails else s)
    else .next s

/-! ## References (R355 to R357) -/

/-- The neighbour that a code of CLK_CL_CFG names, if the cluster has one there: 0 −x, 1 +x, 2 −y, 3 +y. -/
def refNeighbour (n code : Nat) : Option Nat := if sidePresent n code then some (sideCluster n code) else none

/-- Whether a cluster's alternate parent may be taken: switching is permitted and that neighbour is locked to its own primary parent. -/
def State.altUsable (s : State) (n : Nat) : Bool :=
  decide (s.ck n fClkClCfgAltEn = 1) && decide (s.ck n fClkClStatusOnAlt = 0) &&
  (refNeighbour n (s.ck n fClkClCfgAlt)).any (fun m =>
    decide (s.ck m fClkClStatusLocked = 1) && decide (s.ck m fClkClStatusHoldover = 0) && decide (s.ck m fClkClStatusOnAlt = 0))

/-- REFERENCE_LOSS: a cluster whose reference is lost holds its frequency, and switches to its alternate parent where it may; one that loses its alternate has
none. -/
def execReferenceLoss (cluster : ClusterId) (s : State) : Out :=
  let n := cluster.val
  if !s.alive n || n = 60 || s.ck n fClkClStatusHoldover = 1 then .next s
  else
    let usable := s.altUsable n
    let s := { s.setCk n fClkClStatusHoldover 1 with clocks := { s.clocks with held := s.clocks.held.put n (s.mono + 1) 0 } }
    if usable then .next ((s.setCk n fClkClStatusOnAlt 1).setCk n fClkRefSwitchCount (s.ck n fClkRefSwitchCount + 1))
    else .next (s.setCk n fClkClStatusOnAlt 0)

/-- The crossings into and out of a cluster: its own four, then its neighbours' from it. -/
def crossingsOf (n : Nat) : List (Nat × Nat) :=
  (List.range 4).map (fun side => (n, side)) ++
  ((List.range 4).filter (sidePresent n)).map (fun side => (sideCluster n side, flipSide side))

/-- PLL_RELOCK: the cluster has relocked to its alternate parent, and each crossing into and out of it retrains from a fresh sweep: `sweeps` gives the
windows by cluster and side, and one that is not given is free. -/
def execPllRelock (cluster : ClusterId) (sweeps : List (ClusterId × Fin 4 × Fin 512 × Fin 512)) (s : State) : Out :=
  let n := cluster.val
  if !s.alive n || s.ck n fClkClStatusHoldover = 0 || s.ck n fClkClStatusOnAlt = 0 || s.clocks.held.look n 0 = 0 then .next s
  else
    let s := { s.setCk n fClkClStatusHoldover 0 with clocks := { s.clocks with held := s.clocks.held.put n 0 0 } }
    let s := (crossingsOf n).foldl (fun s x =>
      if sidePresent x.1 x.2 && s.xf x.1 x.2 fClkXingFailed = 0 then
        let fresh := (sweeps.find? (fun y => decide (y.1.val = x.1) && decide (y.2.1.val = x.2))).map (fun y => ((y.2.2.1.val : Int), (y.2.2.2.val : Int)))
        let s := s.setCrossing x.1 x.2 { s.crossing x.1 x.2 with window := fresh }
        s.retrainXing x.1 x.2 (s.windowOf x.1 x.2)
      else s) s
    .next s.refresh.hubRelease

/-- HOLDOVER_TIMEOUT: a cluster that has held over for a millisecond with no alternate is reported failed. -/
def execHoldoverTimeout (cluster : ClusterId) (s : State) : Out :=
  let n := cluster.val
  let t := s.clocks.held.look n 0
  if s.alive n && t != 0 && t - 1 + 1000000 ≤ s.mono then
    .next ({ s with clocks := { s.clocks with held := s.clocks.held.put n 0 0 } }.failCluster n).refresh.hubRelease
  else .next s

/-- REFCLK_LOSS: the seed and the time base hold over, FAULT_N is asserted and the island reports and logs it. While the rest of the device is held in reset or
stopped, the island does so alone. -/
def execRefclkLoss (s : State) : Out :=
  if s.dev = .off || !s.island.refclk then .next s
  else
    let s := ((({ s with island := { s.island with refclk := false } }.faultOn .refclk).logEvent 0x0B 2 0xFF none 0).note (.island .refclk))
    if s.dev = .inReset || s.dev = .stopped then .next s
    else .next ((((s.setFld fClkStatusRefclkLost 1).setFld fClkStatusSeedLocked 0).setFld fTimeStatusHoldover 1).setCk 60 fClkClStatusHoldover 1)

/-- Whether the source that steers the time is lost (R331, R364). -/
def State.sourceLost (s : State) : Bool :=
  if s.fld fFabTimeParentEn = 1 then decide (s.fld fFabTimeLocked = 0) else decide (s.fld fTimeCtrlPpsEn = 1) && s.timeBase.lost

/-- REFCLK_RETURN: the seed relocks and FAULT_N is released; refclk_lost stays until cleared. -/
def execRefclkReturn (s : State) : Out :=
  if s.dev = .off || s.island.refclk then .next s
  else
    let s := { s with island := { s.island with refclk := true } }.faultOff .refclk
    if s.dev = .inReset || s.dev = .stopped then .next s
    else
      let s := s.setCk 60 fClkClStatusHoldover 0
      let s := if 5 ≤ s.fld fRstStatusPhase && s.ck 60 fClkClStatusFailed = 0 then s.setFld fClkStatusSeedLocked 1 else s
      .next (if s.sourceLost then s else s.setFld fTimeStatusHoldover 0)

/-! ## The Global Time Counter (R359 to R363) -/

/-- A read of TIME_NS by a requester: the count, with the seconds copied into the requester's latch (R361). -/
def State.readTimeNs (s : State) (reader : Nat) : State :=
  { s with timeBase := { s.timeBase with latches := s.timeBase.latches.put reader (s.fld fTimeSecSec) 0 } }

/-- TIME_NS_READ: requesters 0 to 15 are the Scribe cores, 16 the management window and 17 the debug path. (DESIGN CHOICE, log entry 111.) -/
def execTimeNsRead (reader : Fin 18) (s : State) : Out :=
  if s.dev = .up then .next { s.readTimeNs reader.val with lastRead := s.reg fTimeNsNs.off } else .next s

/-- A committed step of the time: the clusters keep their counters until the next beacon, and every scheduled target that now lies in the past is
late and acts at this tick: a snap or a freeze then takes the tick as its time (R231, R360, R363, R440). -/
def State.stepTime (s : State) (sec ns : Nat) : State :=
  let old := s.time
  let s := { (s.setFld fTimeSecSec sec).setFld fTimeNsNs (ns / 10 * 10) with timeSteps := s.timeSteps + 1 }
  let now : Nat := s.time
  let d : Int := Int.ofNat old - Int.ofNat now
  let s := (List.range 144).foldl (fun s n => s.mapCluster n (fun k => { k with interp := k.interp + d })) s
  let move (t : TimedSlot) : TimedSlot := if t.armed then { t with armedAt := now, stepped := true } else t
  let s := s.cores.foldl (fun s x => s.setCore x.1 { x.2 with ctl := { x.2.ctl with slots := x.2.ctl.slots.map move } }) s
  let s := if s.dbg.snap.any (fun t => decide (t < now)) then { s.setFld fDbgSnapStatusLate 1 with dbg := { s.dbg with snap := some now } } else s
  let s := if s.dbg.freeze.any (fun t => decide (t < now)) then
      { (s.setFld fDbgFreezeStatusLate 1).setReg fDbgFreezeTimeTime.off (BitVec.ofNat 64 now) with dbg := { s.dbg with freeze := some now } }
    else s
  { s with
    clocks := { s.clocks with freqAt := s.clocks.freqAt.map (fun a => { a with past := a.past || decide (a.time < now) }) }
    epoch := { s.epoch with armed := s.epoch.armed.map (fun x => (x.1, x.2 || decide (x.1 < now))) } }

/-- The counter at its next tick: 10 nanoseconds on, rolling over into the seconds, or at the nanoseconds to which an edge of PPS_IN steps it (R359, R364). -/
def State.advanceTime (s : State) : State :=
  let ns := s.fld fTimeNsNs + 10
  match s.timeBase.toStep with
  | some v => { s with timeBase := { s.timeBase with toStep := none } }.stepTime (s.fld fTimeSecSec) v
  | none => if 10 ^ 9 ≤ ns then (s.setFld fTimeNsNs 0).bump fTimeSecSec 1 else s.setFld fTimeNsNs ns

/-- TIME_BASE_TICK: the counter advances, and with it a slew under way, whose frequency every crossing follows (R348, R350). The island's own clock runs while any of the device
has its supply (R365). (DESIGN CHOICE, log entry 58.) -/
def execTimeBaseTick (s : State) : Out :=
  let s := if s.dev = .off then s else { s with island := { s.island with ns := s.island.ns + 10 } }
  if s.dev != .up then .next s
  else
    let f := s.freqNow
    let s := { s with mono := s.mono + 10 }.advanceTime
    .next (if s.clocks.slew.isNone || s.freqNow = f then s else s.setCrossings s.freqNow)

/-- Whether arming a commit is refused (R363). -/
def State.stageRefused (s : State) (v : Word) : Bool :=
  let time := bitOf v 2
  let rate := bitOf v 3
  (time && decide (10 ^ 9 ≤ s.fld fTimeNsStageNs)) || ((time || rate) && decide (s.fld fFabTimeParentEn = 1)) ||
  (rate && decide (s.fld fTimeCtrlPpsEn = 1))

/-- A write of TIME_STAGE_CTRL: with arm set it arms a commit in place of any armed before, or is refused with stage_err (R362, R363). -/
def State.armStage (s : State) (v : Word) : State :=
  if bitOf v 0 && s.stageRefused v then s.setFld fTimeStatusStageErr 1
  else
    let s := s.setReg fTimeStageCtrlArm.off (BitVec.ofNat 64 (fieldOf v 0 4))
    { s with timeBase := { s.timeBase with past := bitOf v 0 && !bitOf v 1 && decide (s.fld fTimeCommitAtTime < s.time), armedAt := s.mono } }

/-- TIME_STAGE_ARM. -/
def execTimeStageArm (value : Word) (s : State) : Out := if s.dev = .up then .next (s.armStage value) else .next s

/-- The staged rate, held within 200 ppm (R359). (DEDUCED, log entry 70.) -/
def State.stagedRate (s : State) : Nat := ((max (-219902325) (min 219902325 (signedOf 32 (s.fld fTimeRateStageRate)))) % 2 ^ 32).toNat

/-- TIME_COMMIT: at the first tick at or after the commit time, or at the tick at which the nanoseconds return to 0, the counter and the rate take the
staged values. -/
def execTimeCommit (s : State) : Out :=
  let due := if s.fld fTimeStageCtrlMode = 0 then decide (s.fld fTimeCommitAtTime ≤ s.time) else decide (s.fld fTimeNsNs = 0)
  if s.dev != .up || s.fld fTimeStageCtrlArm = 0 || !due || s.mono = s.timeBase.armedAt then .next s
  else
    let s := if s.fld fTimeStageCtrlWhatRate = 1 then s.setFld fTimeRateRate s.stagedRate else s
    let s := if s.fld fTimeStageCtrlWhatTime = 1 then
        (s.stepTime (s.fld fTimeSecStageSec) (s.fld fTimeNsStageNs)).setFld fTimeStatusValid 1
      else s
    let s := if s.timeBase.past then s.setFld fTimeStatusLate 1 else s
    .next (s.setFld fTimeStageCtrlArm 0)

/-! ## PPS (R364, R365) -/

/-- PPS_IN_EDGE: a rising edge `sub` quarter nanoseconds after the last tick is timestamped, unless it comes within 0.9 s of the last accepted edge;
where PPS_IN steers, an error above a microsecond steps the nanoseconds at the next tick, to the time since the edge, and a smaller one steers the
rate. (DEDUCED, log entry 69.) -/
def execPpsInEdge (sub : Fin 40) (s : State) : Out :=
  if s.dev != .up then .next s
  else if s.timeBase.pps.any (fun t => decide (4 * s.mono + sub.val < t + 3600000000)) then .next (s.bump fTimePpsGlitchValue 1)
  else
    let ns := 4 * s.fld fTimeNsNs + sub.val
    let err : Int := if ns < 2 * 10 ^ 9 then (ns : Int) else (ns : Int) - 4 * 10 ^ 9
    let s := { s.setReg fTimePpsInValue.off (BitVec.ofNat 64 (4 * s.time + sub.val)) with timeBase := { s.timeBase with pps := some (4 * s.mono + sub.val), lost := false } }
    if s.fld fTimeCtrlPpsEn = 0 || s.fld fFabTimeParentEn = 1 then .next s
    else
      let s := if 4000 < err.natAbs then { s with timeBase := { s.timeBase with toStep := some (if sub.val = 0 then 10 else 0) } } else (s.steer err).setFld fTimeStatusValid 1
      .next (if s.island.refclk then s.setFld fTimeStatusHoldover 0 else s)

/-- PPS_IN_LOSS: with no accepted edge for two seconds where PPS_IN steers, pps_lost and holdover are set and the rate holds. -/
def execPpsInLoss (s : State) : Out :=
  if s.dev = .up && s.fld fTimeCtrlPpsEn = 1 && s.fld fFabTimeParentEn = 0 && !s.timeBase.lost &&
      s.timeBase.pps.getD (4 * s.timeBase.began) + 8000000000 ≤ 4 * s.mono then
    let s := (s.setFld fTimeStatusPpsLost 1).setFld fTimeStatusHoldover 1
    .next { s with timeBase := { s.timeBase with lost := true } }
  else .next s

/-- PPS_OUT_PULSE: at a tick at which the nanoseconds are 0, with the time valid, PPS_OUT rises for pps_width milliseconds. (DEDUCED, log entry 126.) -/
def execPpsOutPulse (s : State) : Out :=
  if s.dev = .up && s.fld fTimeCtrlPpsOutEn = 1 && s.fld fTimeStatusValid = 1 && s.fld fTimeNsNs = 0 then
    .next { s with island := { s.island with pps := some (s.island.pps.getD (s.island.ns + 1000000 * max 1 (s.fld fTimeCtrlPpsWidth))) } }
  else .next s

/-- PPS_OUT_END: pps_width milliseconds after it rose, by the island's own clock, PPS_OUT falls, in a reset or a freeze too. (DEDUCED, log entry 126.) -/
def execPpsOutEnd (s : State) : Out :=
  if s.island.pps.any (fun t => decide (s.island.ns < t)) then .next s
  else .next { s with island := { s.island with pps := none } }

end Sys2Proof.Machine
end

