-- ==== Sys2Proof/Machine/RowMap.lean ====
section
/-! DEFINITION. The repair map: its rows, the link selections it gives routers, and how bring-up and repairs form it (R242, R415 to R418, R421). -/

namespace Sys2Proof.Machine

/-- The register of a row of the map. -/
def rowReg (row : Nat) (f : Fld) : Fld := fldAt f (8 * row)

/-- The row of the map that holds a physical core: cx + 12·py (R415). -/
def rowOf (i : Nat) : Nat := pxOf i / 7 + 12 * pyOf i

/-- A row of the map set from the positions that have failed: one takes the spare, two or more leave the row short (R415). `field` says that a failure came from
the list or from service. (DEDUCED, log entry 74.) -/
def State.setRow (s : State) (row : Nat) (failed : List Nat) (field : Bool) : State :=
  let fs := failed.eraseDups
  let s := s.setFld (rowReg row fRstRowmapFailQx) (fs.headD 7)
  let s := s.setFld (rowReg row fRstRowmapShort) (bit (decide (2 ≤ fs.length)))
  s.setFld (rowReg row fRstRowmapField) (bit field)

/-- The physical core of a logical core, if the map in force gives it one. -/
def State.place (s : State) (x y : Nat) : Option Nat :=
  let j := s.physical x y
  if x < 72 && y < 96 && s.logicalX j = some x then some j else none

/-- The selection of a router's x link that reaches a column at a distance: 0 to 2, or 3 for none (R242, R259). -/
def xSelect (distance : Nat) : Nat := if distance = 0 || 3 < distance then 3 else distance - 1

/-- The selection of a router's y link from a column to a column: the same, one less or one more. -/
def ySelect (px qx : Nat) : Nat := if qx = px then 0 else if qx + 1 = px then 1 else if qx = px + 1 then 2 else 3

/-- The value of CORE_MESH_CFG that the map gives a physical core: a core that carries no logical core has every link off (R244, R421). -/
def State.meshConfig (s : State) (i : Nat) : Nat :=
  let px := pxOf i
  let y := pyOf i
  match s.logicalX i with
  | none => 0xFF
  | some x =>
    let xp := (s.place (x + 1) y).elim 3 (fun j => xSelect (pxOf j - px))
    let xm := if x = 0 then 3 else (s.place (x - 1) y).elim 3 (fun j => xSelect (px - pxOf j))
    let yp := (s.place x (y + 1)).elim 3 (fun j => ySelect px (pxOf j))
    let ym := if y = 0 then 3 else (s.place x (y - 1)).elim 3 (fun j => ySelect px (pxOf j))
    xp + 4 * xm + 16 * yp + 64 * ym + 256

/-- The link selections of a list of physical cores written from the map. -/
def State.writeMesh (s : State) (cores : List Nat) : State :=
  let vs := cores.map (fun i => (i, s.meshConfig i))
  vs.foldl (fun s x => s.mapCore x.1 (fun c => c.setReg fCoreMeshCfgXpSel.off (BitVec.ofNat 64 x.2))) s

/-- The physical cores of a row of seven. -/
def rowCores (row : Nat) : List Nat := (List.range 7).map (fun q => 7 * (row % 12) + q + 84 * (row / 12))

/-- The cores whose links a repair of a row can change: the row itself, those beside it, and those directly above and below (R421). -/
def repairCores (row : Nat) : List Nat :=
  rowCores row ++ (if row % 12 = 0 then [] else rowCores (row - 1)) ++ (if row % 12 = 11 then [] else rowCores (row + 1)) ++
  (if row / 12 = 0 then [] else rowCores (row - 12)) ++ (if row / 12 = 95 then [] else rowCores (row + 12))

/-- The failed positions of a row as the map in force has them: what the row has lost beyond the first is not held, and a short row stays short. -/
def State.rowFailed (s : State) (row : Nat) : List Nat :=
  let f := s.fld (rowReg row fRstRowmapFailQx)
  if f = 7 then [] else [f]

/-- A core is marked failed, and the map records it (R419, R421). -/
def State.mapOut (s : State) (i : Nat) : State :=
  let row := rowOf i
  let was := s.fld (rowReg row fRstRowmapShort) = 1
  let s := s.setRow row (s.rowFailed row ++ [pxOf i % 7]) true
  if was then s.setFld (rowReg row fRstRowmapShort) 1 else s

/-! ## The field repair list (R417) -/

/-- The cluster that an entry names. -/
def entryCluster (w : Word) : Nat := fieldOf w 4 8

/-- The physical core that an entry names. -/
def entryCore (w : Word) : Nat :=
  let n := entryCluster w
  7 * (n % 12) + fieldOf w 12 3 + 84 * (8 * (n / 12) + fieldOf w 15 3)

/-- The row of a reservoir that an entry of kind 3 names, by the key of its address. -/
def entryRowKey (w : Word) : Nat := 256 * fieldOf w 26 9 + 16 * fieldOf w 18 4 + fieldOf w 22 4

/-! ## The map that bring-up forms (R398, R416) -/

/-- A reservoir row that the repair list names is spared at start (R420). -/
def Core.spareListed (key : Nat) (c : Core) : Core :=
  if c.rsv.spared.look key 0 = 0 && c.sparesUsed (key / 16 % 16) (key % 16) < 24 then c.redirect key else c

/-- Phase 7 merges the factory map, the field repair list and the cores that the start found failed, and gives every router its links. -/
def State.formMap (s : State) (found : List Nat) : State :=
  let listed := (s.images.repairs.filter (fun w => decide (fieldOf w 0 4 = 1))).map entryCore
  let clusters := (s.images.repairs.filter (fun w => decide (fieldOf w 0 4 = 2))).map entryCluster
  let rows := s.images.repairs.filter (fun w => decide (fieldOf w 0 4 = 3))
  let bad := listed ++ found
  let s := (List.range 1152).foldl (fun s row =>
    let factory := (Config.factoryQx row).val
    let here (l : List Nat) : List Nat := (l.filter (fun i => decide (rowOf i = row))).map (fun i => pxOf i % 7)
    let fs := (if factory = 7 then [] else [factory]) ++ here listed ++ here found
    if fs.isEmpty then s else s.setRow row fs (!(here listed).isEmpty)) s
  let s := bad.foldl (fun s i => s.mapCore i (fun c => c.setFld fCoreSuspectFailed 1)) s
  let s := clusters.foldl (fun s n => s.setCk n fClkClStatusFailed 1) s
  let s := rows.foldl (fun s w => s.mapCore (entryCore w) (Core.spareListed (entryRowKey w))) s
  s.writeMesh (List.range 8064)

end Sys2Proof.Machine
end

