-- ==== Sys2Proof/Machine/Reset.lean ====
section
/-! DEFINITION. Power-on, reset, bring-up and the start of the device (rows COOLANT_OK_LOW, ISLAND_RESTART to RST_DEVICE_RESET as events of the island and
COOLANT_OK_HIGH; R385, R386, R388 to R402, R412, R413, R457, R458). -/

namespace Sys2Proof.Machine

/-! ## The island (R371, R385, R386, R457) -/

/-- The PWR_EN outputs of the rail groups: the rim, the DRAM and the twelve rows (R368). -/
def railsOn : Nat := 0x3FFF

/-- POWER_ON: VDD_AON has come up. The island takes its reset state and the fuse states of its pins, and raises the rails in sequence when COOLANT_OK is
high. What the block held before is lost; the fuses and the waiting commands stay. -/
def execPowerOn (coolant resetN : Bool) (s : State) : Out :=
  let c := s.cutShort.lifeCopies
  let t : State := { State.reset with
    dev := .inReset, life := s.life, lifeCopies := c, logBad := s.logBad, pending := s.pending
    island := { Island.off with coolant := coolant, resetLow := !resetN, pwrEn := if coolant then railsOn else 0, causes := [0] } }
  let t := t.fusePads (List.range 32)
  .next (if coolant then t.setPads [0] (fun _ => .signal) else t)

/-- COOLANT_OK_HIGH: COOLANT_OK has been high for a second: at power-up the rails are raised, and after a stop a restart is permitted. -/
def execCoolantOkHigh (s : State) : Out :=
  match s.dev with
  | .off => .next s
  | d =>
    let s := { s with island := { s.island with coolant := true, coolantLong := true } }
    .next (if d = .inReset then { s with island := { s.island with pwrEn := railsOn } }.setPads [0] (fun _ => .signal) else s)

/-- COOLANT_OK_LOW: COOLANT_OK has been low for 2 microseconds: once PWR_EN0 has risen, the device stops, and during a stop the cause is
logged (R392). -/
def execCoolantOkLow (s : State) : Out :=
  match s.dev with
  | .off => .next s
  | _ =>
    let on := s.island.pwrEn.testBit 0 || s.dev = .stopped
    let s := { s with island := { s.island with coolant := false, coolantLong := false } }
    .next (if on then s.stopDevice 1 else s)

/-- The restart command of AOI_CMD: done after a stop once COOLANT_OK has been high for a second and every rim sensor reads 10 degrees below the trip;
refused and reported otherwise (R386). -/
def State.restart (s : State) : State :=
  if s.dev = .stopped then
    if s.island.coolantLong && s.power.rimTemp.any (fun t => decide (t + 10 < s.tripC)) then
      { s with dev := .inReset, island := { s.island with pwrEn := railsOn, thermTrip := false, refused := false } }
    else { s with island := { s.island with refused := true } }.note (.island .stop)
  else s

/-- ISLAND_RESTART. -/
def execIslandRestart (s : State) : Out := .next s.restart

/-- RAIL_RAMP_TIMEOUT: a rail not within its limits ten milliseconds after its enable is faulted, and the device stops (R370, R458). -/
def execRailRampTimeout (bus : Fin 13) (rail : Fin 12) (s : State) : Out :=
  let real := bus.val < 12 || rail.val < 4
  if s.dev = .inReset && s.island.pwrEn = railsOn && real then .next (((s.bump fPwrAvsErrCount 1).faultOn .rail).stopDevice 3) else .next s

/-! ## RESET_N (R390) -/

/-- RESET_N_ASSERT: RESET_N has been low for a microsecond; while it is held low the island reports it over I3C. -/
def execResetNAssert (s : State) : Out :=
  match s.dev with
  | .off => .next s
  | _ => .next (({ s with island := { s.island with resetLow := true, heldDone := false } }.deviceReset 1).note .resetHeld)

/-- RESET_N_HELD: RESET_N has been low for ten seconds: recorded, logged and reported once for each low. (DESIGN CHOICE, log entry 57.) -/
def execResetNHeld (s : State) : Out :=
  if s.dev != .off && s.island.resetLow && !s.island.heldDone then
    let s := { s with island := { s.island with heldDone := true } }
    .next (((s.setFld fAoiCauseHeldLatched 1).logEvent 0x02 1 0xFF none 0).note .resetHeld)
  else .next s

/-! ## Reset exit (R400 to R402) -/

/-- The lifecycle counter that its three copies give: the value that two of them hold, and the minority copy rewritten to it (R402, R413). -/
def State.voteLife (s : State) : State :=
  let c := s.lifeCopies
  let v := if c.1 = c.2.1 then c.1 else if c.1 = c.2.2 then c.1 else c.2.1
  { s with life := v, lifeCopies := (v, v, v) }

/-- The boot ROM carries out a lifecycle change: with every memory wiped, it wipes the log and the last-gasp register, blows the bits in copies A, B and C, and resets the device
again (R413). -/
def State.blow (s : State) (v : Nat) : State :=
  let s := (List.range 4).foldl (fun (t : State) j => t.setReg (fAoiLastGaspWord.off + 8 * j) 0) s
  ({ s with log := [], lifeCopies := (v, v, v), blowing := none, dev := .up, island := { s.island with causes := [] } }.setFld fAoiLogHeadHeld 0).deviceReset 2

/-- RESET_EXIT: every source has released, RESET_N has been high for a microsecond, and every rail reads within its limits. The fuse words are voted: the list names those whose
copies differed, and `bad` says that one had no majority. The device starts in bring-up phase 1, or in Minimal Recovery Mode; or the boot ROM carries out a lifecycle
change. -/
def execResetExit (seen : ExitSeen) (bad : Bool) (s : State) : Out :=
  let disagree := seen.disagree
  if s.dev != .inReset || s.island.pwrEn != railsOn || !seen.resetN || !seen.railsOut.isEmpty then .next s
  else if let some v := s.blowing then .next (s.blow v)
  else
    let s := s.voteLife
    let s := s.island.causes.foldl (fun s c => s.logEvent 0x01 0 0xFF none (BitVec.ofNat 64 c)) s
    let s := disagree.foldl (fun s w => s.logEvent 0x0F 1 0xFF none (BitVec.ofNat 64 w)) s
    let mrm := bad || s.fld fAoiStartFailedStarts = 3 || s.fld fAoiRecoverForceMrm = 1
    let s := (s.setFld fFuseStatusVotedOk (bit !bad)).setFld fFuseStatusCopiesDisagree (bit !disagree.isEmpty)
    let s := ((s.setFld fAoiStartMrm (bit mrm)).setFld fRstStatusMrm (bit mrm)).setFld fAoiStartTimerRunning (bit !mrm)
    let s := ((s.faultOff .stop).faultOff .rail).faultOff .freeze
    let s := if bad then s else s.faultOff .powerOn
    .next ({ s with dev := .up, island := { s.island with causes := [], resetLow := false, badFuses := bad, startEnded := false } }.setPads
      [0, 1, 2, 3, 8, 12, 13, 15] (fun _ => .signal))

/-! ## Bring-up (R350, R395 to R399) -/

/-- The setting of two windows at one frequency: the midpoint of the pass centres, accepted with 8 settings of margin in both (R350, R397). -/
def fitOf (idle stress : Nat × Nat) : Option Nat :=
  let c := (idle.1 + idle.2 + stress.1 + stress.2) / 4
  if max idle.1 stress.1 + 8 ≤ c && c + 8 ≤ min idle.2 stress.2 then some c else none

/-- A cluster is found failed at bring-up (R351, R395, R398). -/
def State.findFailed (s : State) (n : Nat) : State := s.setCk n fClkClStatusFailed 1

/-- A crossing is set from its windows for the present clock, or its receiving cluster fails. -/
def State.alignXing (s : State) (x : XingFit) : State :=
  if 144 ≤ x.cluster || 4 ≤ x.side || !sidePresent x.cluster x.side then s
  else match fitOf x.lowIdle x.lowStress, fitOf x.highIdle x.highStress with
    | some lo, some hi =>
      let q : Crossing := ⟨lo, hi, none⟩
      let s := s.setCrossing x.cluster x.side q
      let s := s.setXf x.cluster x.side fClkXingSetting ((q.at s.freqNow) % 512).toNat
      s.setXf x.cluster x.side fClkXingRefCentre (x.centre % 512)
    | _, _ => s.findFailed x.cluster

/-- A cluster's voltage points: the higher of the two passes (R373). -/
def State.setPoints (s : State) (n : Nat) (ps : List (Nat × Nat)) : State :=
  if 144 ≤ n then s else (ps.take 10).zipIdx.foldl (fun s p => s.setPw n (fldAt fPwrClVfMv (8 * p.2)) (max p.1.1 p.1.2)) s

/-- Every crossing that a neighbour has. -/
def crossingsAll : List (Nat × Nat) :=
  (List.range 144).flatMap (fun n => ((List.range 4).filter (sidePresent n)).map (fun side => (n, side)))

/-- A crossing is aligned from the windows that the passes found of it; one of which they found none fails its cluster (R350, R351). -/
def State.alignOne (s : State) (found : List XingFit) (n side : Nat) : State :=
  match found.find? (fun x => x.cluster = n && x.side = side) with
  | some x => s.alignXing x
  | none => s.findFailed n

/-- Whether the reference wave reaches a cluster through primary parents, past clusters that did not lock (R347). -/
def State.waveAt (s : State) (bad : List Nat) : Nat → Nat → Bool
  | 0, _ => false
  | fuel + 1, n =>
    !bad.contains n &&
    (n = 60 || (refNeighbour n (s.ck n fClkClCfgParent)).any (State.waveAt s bad fuel))

/-- The reference wave at bring-up: a cluster locks to its parent, or to its alternate parent where the wave does not reach it and switching is permitted;
one that does neither fails (R347, R351, R355). (DEDUCED, log entry 127.) -/
def State.startWave (s : State) (bad : List Nat) : State :=
  (List.range 144).foldl (fun t n =>
    if bad.contains n then t
    else if s.waveAt bad 144 n then t.setCk n fClkClStatusLocked 1
    else if s.ck n fClkClCfgAltEn = 1 && (refNeighbour n (s.ck n fClkClCfgAlt)).any (s.waveAt bad 144) then
      ((t.setCk n fClkClStatusLocked 1).setCk n fClkClStatusOnAlt 1).setCk n fClkRefSwitchCount (t.ck n fClkRefSwitchCount + 1)
    else t.findFailed n) s

/-- The list that a table of ports gives for one. -/
def portList (l : List (Nat × List Nat)) (p : Nat) : List Nat := ((l.find? (fun x => x.1 = p)).map (·.2)).getD []

/-- Phase 5 begins for the ports: in port order each takes the mode that the training parameters give it and trains; one that is refused it or left off stays off, and keeps
the receiver settings that they give for it (R283, R284). (DEDUCED, log entry 133.) -/
def State.startPorts (s : State) (b : Bringup) : State :=
  (List.range 16).foldl (fun s p =>
    match b.ports.find? (fun x => x.1 = p) with
    | some x =>
      let t := (s.writeMode p x.2).mapPort p (fun q => { q with eqStored := portList b.given p })
      if s.modeRefused p x.2 then t else (t.mapPort p (fun q => { q with mode := x.2 })).startTraining p
    | none => s.mapPort p (fun q => { q with eqStored := portList b.given p })) s

/-- The idle pass ends for the ports: the receiver settings that it reached are kept, and each port set trains again for the stress pass, its link going down (R286, R294,
R297). -/
def State.idlePass (s : State) (reached : List (Nat × List Nat)) : State :=
  (List.range 16).foldl (fun s p =>
    if (s.port p).mode = 0 then s
    else ((s.mapPort p (fun q => { q with eqIdle := portList reached p })).setP p fPortEthStatusLinkUp 0).goDown p) s

/-- The stress pass ends for the ports: each receiver setting is the midpoint of the two that the passes reached, in force and stored for later training
(R286). -/
def State.stressPass (s : State) (reached : List (Nat × List Nat)) : State :=
  (List.range 16).foldl (fun s p =>
    let mid := midSettings (s.port p).eqIdle (portList reached p)
    if (s.port p).mode = 0 then s else s.mapPort p (fun q => { q with eq := mid, eqStored := mid })) s

/-- The cores that a phase finds failed, with those whose reservoir interfaces were not accepted. -/
def bringupCores (b : Bringup) : List Nat :=
  (b.failedCores ++ (b.interfaces.filter (fun x => (fitOf x.2.1 x.2.2).isNone)).map (·.1)).filter (fun i => decide (i < 8064))

/-- Each reservoir interface set to the midpoint of its two pass centres, where it is accepted (R397). -/
def State.setInterfaces (s : State) (found : List (Nat × (Nat × Nat) × (Nat × Nat))) : State :=
  found.foldl (fun s x =>
    match fitOf x.2.1 x.2.2 with
    | some v => if x.1 < 8064 then s.mapCore x.1 (fun c => { c with rsv := { c.rsv with phase := v } }) else s
    | none => s) s

/-- The work of a phase at its end. (DESIGN CHOICE, log entry 73.) -/
def State.endPhase (s : State) (phase : Nat) (b : Bringup) : State :=
  let bad := b.failedClusters.filter (fun n => decide (n < 144))
  let s := { bad.foldl State.findFailed s with repair := { s.repair with failed := s.repair.failed ++ bringupCores b } }
  match phase with
  | 2 => s.setFld fScrStatusCoresUp 1
  | 4 =>
    let s := (s.startWave bad).setFld fClkStatusSeedLocked (bit (!bad.contains 60))
    s.startPorts b
  | 5 => s.idlePass b.reached
  | 6 =>
    let s := crossingsAll.foldl (fun s x => s.alignOne b.crossings x.1 x.2) s
    let s := b.points.foldl (fun s x => s.setPoints x.1 x.2) s
    (s.setInterfaces b.interfaces).stressPass b.reached
  | 7 => { s.formMap s.repair.failed with repair := { s.repair with failed := [] } }.setFld fScrStatusCoresUp 0xFFFF
  | _ => s

/-- The clusters that a phase has newly marked failed logged, in cluster order (R442, R443). -/
def State.logFailed (old new : State) : State :=
  (List.range 144).foldl (fun t n =>
    if old.ck n fClkClStatusFailed != 1 && new.ck n fClkClStatusFailed = 1 then t.logEvent 0x0A 2 n (new.regionOf n) (repairEntry 2 n 0 0) else t) new

/-- Whether a phase's work can be done: the fuses voted, REFCLK present, a device image verified. -/
def State.phaseReady (s : State) (phase : Nat) : Bool :=
  match phase with
  | 1 => !s.island.badFuses || s.fld fRstStatusMrm = 1
  | 2 => s.island.refclk
  | 3 => s.images.device
  | 4 => s.island.refclk
  | 5 => true
  | 6 => true
  | 7 => true
  | _ => false

/-- A freeze tick is set, and flooded (R256, R444). A low of FREEZE_N that came before phase 2 takes effect as it begins: the tick is the first at least 2
microseconds later. -/
def State.freezeAt (s : State) (t source : Nat) : State :=
  let s := ((s.flood.setFld fDbgFreezeStatusArmed 1).setFld fDbgFreezeStatusSource source).setReg fDbgFreezeTimeTime.off (BitVec.ofNat 64 t)
  { s with dbg := { s.dbg with freeze := some t } }

/-- The first tick at least a number of nanoseconds from now. -/
def State.tickIn (s : State) (ns : Nat) : Nat := ceilDiv (s.time + ns) 10 * 10

/-- BRINGUP_PHASE_COMPLETE: the phase's work is done and the next begins; `found` is what the phase found of the part. -/
def execBringupPhaseComplete (found : Bringup) (s : State) : Out :=
  let p := s.fld fRstStatusPhase
  if s.dev != .up || s.island.startEnded || !s.phaseReady p then .next s
  else
    let s := (s.logFailed (s.endPhase p found)).setFld fRstStatusPhase (p + 1)
    if p = 1 && s.island.freezeLow then
      .next { s.freezeAt (s.tickIn 2000) 0 with island := { s.island with freezeLow := false } }
    else .next s

/-- PHASE_LIMIT_EXCEEDED: a phase with a limit of its own has exceeded it; the start ends without start-OK and the device waits for a reset. -/
def execPhaseLimitExceeded (s : State) : Out :=
  let p := s.fld fRstStatusPhase
  if s.dev = .up && (p ≤ 2 || (4 ≤ p && p ≤ 7)) then .next { s with island := { s.island with startEnded := true } } else .next s

/-- START_TIMER_EXPIRY: 120 seconds after reset exit without start-OK the start has failed. The timer is the island's, which a freeze does not stop (R444). -/
def execStartTimerExpiry (s : State) : Out :=
  if (s.dev = .up || s.dev = .frozen) && s.fld fAoiStartTimerRunning = 1 then
    let n := min 3 (s.fld fAoiStartFailedStarts + 1)
    let s := ((s.setFld fAoiStartTimerRunning 0).setFld fAoiStartFailedStarts n).faultOn .failedStart
    let s := { s with island := { s.island with startEnded := true } }
    .next ((s.logEvent 0x03 2 0xFF none (BitVec.ofNat 64 n)).note (.island .failedStart))
  else .next s

/-- START_OK: the firmware declares the start good; before phase 8 the write is ignored (R399). -/
def State.declareStart (s : State) : State :=
  if s.dev = .up && 8 ≤ s.fld fRstStatusPhase && !s.island.startEnded then
    let s := (s.setFld fRstStatusPhase 9).setFld fRstStatusStartOk 1
    ((s.setFld fAoiStartTimerRunning 0).setFld fAoiStartFailedStarts 0).faultOff .failedStart
  else s

/-- START_OK. -/
def execStartOk (s : State) : Out := .next s.declareStart

/-- RST_DEVICE_RESET: a write of RST_CTRL.device_reset (R388). -/
def execRstDeviceReset (s : State) : Out := if s.dev = .up then .next (s.deviceReset 2) else .next s

/-! ## Lifecycle (R411 to R413) -/

/-- The fuse counter after a change to a lifecycle state, if the change is allowed: 2 Service, 3 Maintenance, 4 Retired. -/
def State.lifeTo (s : State) (target : Nat) (eui : Option Word) : Option Nat :=
  let v := s.life
  match s.lifecycle, target with
  | 0, _ => none
  | 4, _ => none
  | 1, 2 => some (v + 1)
  | 2, 3 => if v = 254 then none else some (v + 1)
  | 3, 2 => some (v + 1)
  | _, 4 => if eui = some Config.eui then some 255 else none
  | _, _ => none

/-- A lifecycle change begins: a device reset in which the boot ROM carries it out (R413). -/
def State.changeLife (s : State) (v : Nat) : State := { s.deviceReset 2 with blowing := some v }

end Sys2Proof.Machine
end

