-- ==== Sys2Proof/Machine/Image.lean ====
section
/-! DEFINITION. Image containers, their checks and their loading, colophons and the field repair list (rows IMAGE_CHUNK to REPAIR_LIST; R2 to R5, R33,
R149, R187, R234, R246, R403 to R410, R417, R476, R478). -/

namespace Sys2Proof.Machine

/-! ## The container (R403) -/

/-- A section: its target rectangle in clusters from the region's origin, its core mask, where it goes, the bytes it holds and whether they lie inside the
container. -/
structure Section where
  type : Nat
  cx0 : Nat
  cy0 : Nat
  width : Nat
  height : Nat
  mask : Nat
  dest : Nat
  inside : Bool
  data : List Byte
  deriving DecidableEq, Repr

/-- A container: the fields of its header, its sections, the bytes its signature covers, the signer's key and the signature. -/
structure Container where
  magic : Nat
  version : Nat
  kind : Nat
  alg : Nat
  length : Nat
  level : Nat
  profile : Nat
  compat : Nat
  regions : Nat
  width : Nat
  height : Nat
  groups : Nat
  ligMax : Nat
  epMax : Nat
  cqMax : Nat
  zeros : Bool
  sections : List Section
  signed : List Byte
  key : List Byte
  signature : List Byte
  deriving DecidableEq, Repr

/-- The number in `n` bytes from byte `i`. -/
def numAt (bs : List Byte) (i n : Nat) : Nat := natOfBytes ((bs.drop i).take n)

/-- The next 64-byte boundary. -/
def align64 (n : Nat) : Nat := ceilDiv n 64 * 64

/-- The bytes of a signer's key, and of a signature, by algorithm. -/
def keyBytes (alg : Nat) : Nat := if alg = 1 then 2592 else 96

/-- The bytes of a signature. -/
def sigBytes (alg : Nat) : Nat := if alg = 1 then 4627 else 96

/-- The sections that follow the table of entries, each on the next 64-byte boundary, up to a limit. -/
def readSections (bs : List Byte) (limit : Nat) : Nat → Nat → Nat → List Section
  | 0, _, _ => []
  | n + 1, entry, place =>
    let len := numAt bs (entry + 24) 8
    let s : Section :=
      { type := numAt bs entry 2, cx0 := numAt bs (entry + 2) 1, cy0 := numAt bs (entry + 3) 1, width := numAt bs (entry + 4) 1 + 1
        height := numAt bs (entry + 5) 1 + 1, mask := numAt bs (entry + 6) 6, dest := numAt bs (entry + 16) 8
        inside := decide (place + len ≤ limit), data := (bs.drop place).take len }
    s :: readSections bs limit n (entry + 32) (align64 (place + len))

/-- The container that a list of bytes holds; a table of entries that does not fit is cut short. (DESIGN CHOICE, log entry 76.) -/
def readContainer (bs : List Byte) : Container :=
  let alg := numAt bs 7 1
  let length := numAt bs 8 8
  let trailer := keyBytes alg + sigBytes alg
  let limit := min length bs.length - trailer
  let n := min (numAt bs 16 4) ((limit - 128) / 32)
  { magic := numAt bs 0 4, version := numAt bs 4 2, kind := numAt bs 6 1, alg := alg, length := length, level := numAt bs 20 1
    profile := numAt bs 21 1, compat := numAt bs 22 1, regions := numAt bs 23 1, width := numAt bs 24 1 + 1, height := numAt bs 25 1 + 1
    groups := numAt bs 26 2, ligMax := numAt bs 28 2, epMax := numAt bs 30 1, cqMax := numAt bs 31 1
    zeros := ((bs.drop 40).take 88).all (fun b => b = 0) && decide (128 + 32 * numAt bs 16 4 ≤ limit)
    sections := readSections bs limit n 128 (align64 (128 + 32 * n)), signed := bs.take limit, key := (bs.drop limit).take (keyBytes alg)
    signature := (bs.drop (limit + keyBytes alg)).take (sigBytes alg) }

/-! ## What a section targets and sets (R403, R476) -/

/-- A place where an image goes: the logical coordinates of its origin core and its size in clusters. -/
structure Site where
  x0 : Nat
  y0 : Nat
  width : Nat
  height : Nat
  deriving DecidableEq, Repr

/-- A region's site. -/
def State.siteOf (s : State) (r : Nat) : Site :=
  ⟨6 * s.rgn r fRgnCfgCx0, 8 * s.rgn r fRgnCfgCy0, s.rgn r fRgnCfgWidth + 1, s.rgn r fRgnCfgHeight + 1⟩

/-- Whether a section's rectangle lies inside its site. -/
def Section.fits (c : Section) (t : Site) : Bool := decide (c.cx0 + c.width ≤ t.width) && decide (c.cy0 + c.height ≤ t.height)

/-- The clusters of a section, by increasing cy and then cx, region-relative. -/
def Section.clusters (c : Section) : List (Nat × Nat) :=
  (List.range c.height).flatMap (fun j => (List.range c.width).map (fun i => (c.cx0 + i, c.cy0 + j)))

/-- The region-relative cores of a section, cluster by cluster and in increasing bit order. -/
def Section.cores (c : Section) : List (Nat × Nat) :=
  c.clusters.flatMap (fun k => ((List.range 48).filter (fun b => c.mask.testBit b)).map (fun b => (6 * k.1 + b % 6, 8 * k.2 + b / 6)))

/-- The physical core of a site's core. -/
def State.siteCore (s : State) (t : Site) (p : Nat × Nat) : Nat := s.physical (t.x0 + p.1) (t.y0 + p.2)

/-- The device cluster of a site's cluster. -/
def Site.cluster (t : Site) (k : Nat × Nat) : Nat := (t.x0 / 6 + k.1) + 12 * (t.y0 / 8 + k.2)

/-- The numbers of `size` bytes that a section holds, in order. -/
def Section.units (c : Section) (size : Nat) : List Nat :=
  (List.range (c.data.length / size)).map (fun i => numAt c.data (size * i) size)

/-- The pairs of register offset and value of a section of settings. -/
def Section.settings (c : Section) : List (Nat × Word) :=
  (List.range (c.data.length / 16)).map (fun i => (numAt c.data (16 * i) 8, BitVec.ofNat 64 (numAt c.data (16 * i + 8) 8)))

/-- The ring areas of a section: base word and length in words. -/
def Section.rings (c : Section) : List (Nat × Nat) :=
  (List.range (c.data.length / 16)).map (fun i => (numAt c.data (16 * i) 8, numAt c.data (16 * i + 8) 8))

/-- The register of the CORE_, WELL_, RSV_, CP_ or CH_ block at an offset. -/
def settableReg (off : Nat) : Option RegRow :=
  if 0x1000 ≤ off && off < 0x3000 then none else findReg coreRegs off

/-- The bits of a register's RW/L fields. -/
def lockBits (row : RegRow) : Word := row.fields.foldl (fun w f => if f.access = .rwl then w ||| maskOf f.lo f.width else w) 0

/-- Whether a setting is allowed: its register holds an RW/L field and its value is zero elsewhere. -/
def settingOk (x : Nat × Word) : Bool :=
  (settableReg x.1).any (fun row => lockBits row != 0 && (x.2 &&& ~~~(lockBits row)) = 0)

/-- A core with the RW/L fields of a register set. -/
def Core.applySetting (c : Core) (x : Nat × Word) : Core :=
  match settableReg x.1 with
  | some row => c.setReg x.1 ((c.reg x.1 &&& ~~~(lockBits row)) ||| (x.2 &&& lockBits row))
  | none => c

/-- A core with a run of words preloaded in its well. -/
def Core.preloadWell (c : Core) (dest : Nat) (ws : List Nat) : Core :=
  { c with well := { c.well with mem := ws.zipIdx.foldl (fun m w => m.write ⟨dest + w.2, BitVec.allOnes 8, BitVec.ofNat 64 w.1, false⟩) c.well.mem } }

/-- What a section does to one of its cores; `place` is the core's place among them. -/
def Core.load (e : Env) (c : Core) (x : Section) (place : Nat) : Core :=
  match x.type with
  | 0x10 =>
    let t := (x.units 8).zipIdx.foldl (fun (t : Tbl Word) w => t.put (x.dest + w.2) (BitVec.ofNat 64 w.1) 0) c.ctl.code
    { c with ctl := { c.ctl with code := t } }
  | 0x11 => { c with entry := numAt x.data (2 * place) 2 }
  | 0x12 => x.settings.foldl Core.applySetting c
  | 0x14 => { c with groups := (x.units 8).zipIdx.foldl (fun (t : Tbl Nat) w => t.put (x.dest + w.2) (w.1 % 32) 0) c.groups }
  | 0x15 => c.preloadWell x.dest (x.units 8)
  | 0x16 => c.rsvWriteBytes e x.dest (x.data.map (fun b => (b, false)))
  | _ => c

/-- A cluster with the ligature entries of a section. -/
def Cluster.load (k : Cluster) (x : Section) : Cluster :=
  (x.units 8).zipIdx.foldl (fun k w =>
    k.setReg (fLigCfgEnable.off + 8 * (x.dest + w.2)) (BitVec.ofNat 64 (fieldOf (BitVec.ofNat 64 w.1) 0 21))) k

/-- A section is written by one broadcast copy to every core and cluster it targets (R406). -/
def State.loadSection (s : State) (t : Site) (x : Section) : State :=
  match x.type with
  | 0x13 => x.clusters.foldl (fun s k => s.mapCluster (t.cluster k) (fun c => c.load x)) s
  | 0x18 => ((x.units 8).take 8).zipIdx.foldl (fun s w => s.setFld (fldAt fPwrCoefCoef (8 * w.2)) w.1) s
  | _ => (x.cores.zipIdx).foldl (fun s p => s.mapCore (s.siteCore t p.1) (fun c => c.load (s.env (s.siteCore t p.1)) x p.2)) s

/-! ## Channels at load (R187) -/

/-- The cores of a site, region-relative. -/
def Site.cores (t : Site) : List (Nat × Nat) :=
  (List.range (8 * t.height)).flatMap (fun y => (List.range (6 * t.width)).map (fun x => (x, y)))

/-- A receiving half: its core and its endpoint. -/
abbrev Half := (Nat × Nat) × Nat

/-- The routers of a group's tree from one on, each with the directions it goes on in; past the fuel nothing (R246). -/
def State.treeNodes (s : State) (t : Site) (g : Nat) : Nat → Option Nat → Nat × Nat → List ((Nat × Nat) × Option Nat)
  | 0, _, _ => []
  | fuel + 1, came, p =>
    (p, came) :: ((List.range 4).filter (fun d => ((s.core (s.siteCore t p)).groups.look g 0).testBit d)).flatMap (fun d =>
      State.treeNodes s t g fuel (some d) (stepDir p d))

/-- Whether a router lies in a site, from another in a direction. -/
def Site.stepIn (t : Site) (p : Nat × Nat) (d : Nat) : Bool :=
  match d with
  | 0 => decide (p.1 + 1 < 6 * t.width)
  | 1 => decide (0 < p.1)
  | 2 => decide (p.2 + 1 < 8 * t.height)
  | _ => decide (0 < p.2)

/-- A router's entry for a group. -/
def State.treeMask (s : State) (t : Site) (g : Nat) (p : Nat × Nat) : Nat := (s.core (s.siteCore t p)).groups.look g 0

/-- The routers of a site with an entry for a group. -/
def State.treeRouters (s : State) (t : Site) (g : Nat) : List (Nat × Nat) := t.cores.filter (fun p => s.treeMask t g p != 0)

/-- The routers that a tree's outputs lead to. -/
def State.treeSteps (s : State) (t : Site) (g : Nat) : List (Nat × Nat) :=
  (s.treeRouters t g).flatMap (fun p => ((List.range 4).filter (fun d => (s.treeMask t g p).testBit d)).map (stepDir p))

/-- The root of a group: its only router that no other leads to. -/
def State.treeRoot (s : State) (t : Site) (g : Nat) : Option (Nat × Nat) :=
  match (s.treeRouters t g).filter (fun p => !(s.treeSteps t g).contains p) with
  | [p] => some p
  | _ => none

/-- Whether a group's table is an x-first tree inside the site that reaches each router once, from its root (R246). -/
def State.treeOk (s : State) (t : Site) (g : Nat) : Bool :=
  let rs := s.treeRouters t g
  let goal := s.treeSteps t g
  (s.treeRoot t g).isSome && decide (goal.length + 1 = rs.length) && decide (goal.eraseDups.length = goal.length) && goal.all rs.contains &&
  rs.all (fun p => (List.range 4).all (fun d => !(s.treeMask t g p).testBit d || t.stepIn p d)) &&
  -- a router entered along y leaves along y
  rs.all (fun p => ([2, 3]).all (fun d => !(s.treeMask t g p).testBit d ||
    (List.range 2).all (fun e => !(s.treeMask t g (stepDir p d)).testBit e))) &&
  -- every router lies on a path from the root
  (s.treeRoot t g).all (fun p => decide ((s.treeNodes t g (rs.length + 1) none p).length = rs.length))

/-- The receiving halves that a sending half reaches, once for each copy it sends. -/
def State.reachedBy (s : State) (t : Site) (p : Nat × Nat) (n : Nat) : List Half :=
  let c := s.core (s.siteCore t p)
  match c.duct n fChDuctusAKind with
  | 0 => [((c.duct n fChDuctusADestX, c.duct n fChDuctusADestY), c.duct n fChDuctusADestEp)]
  | 1 => ((s.treeRouters t (c.duct n fChDuctusAGroup)).filter (fun q => (s.treeMask t (c.duct n fChDuctusAGroup) q).testBit 4)).map
      (fun q => (q, c.duct n fChDuctusADestEp))
  | 2 => (List.range (c.duct n fChDuctusBMembers + 1)).map (fun m =>
      let j := c.duct n fChDuctusBFirstMember + m
      ((c.member j fChMemberX, c.member j fChMemberY), c.member j fChMemberEp))
  | _ => []

/-- Whether a receiving half exists in the site and is enabled. -/
def State.halfOn (s : State) (t : Site) (h : Half) : Bool :=
  decide (h.1.1 < 6 * t.width) && decide (h.1.2 < 8 * t.height) && decide ((s.core (s.siteCore t h.1)).land h.2 fChLandAEnable = 1)

/-- The target of a receiving half. -/
def State.halfTarget (s : State) (t : Site) (h : Half) : Nat := (s.core (s.siteCore t h.1)).land h.2 fChLandATarget

/-- The credit unit of a target, where it has one (R186). -/
def targetUnit (target : Nat) : Option Nat := if target = 1 then some 1 else if target ≤ 5 then some 0 else none

/-- The capacity of a receiving half in units, where it has one (R186). -/
def State.halfRoom (s : State) (t : Site) (h : Half) : Option Nat :=
  let c := s.core (s.siteCore t h.1)
  match c.land h.2 fChLandATarget with
  | 0 => some (c.land h.2 fChLandASize * 8 / 64)
  | 1 => some (c.land h.2 fChLandASize / (c.land h.2 fChLandASlot + 1))
  | 2 => some 256
  | 3 => some 512
  | 4 => some 256
  | _ => none

/-- Whether a sending half breaks a rule of R187. -/
def State.ductBad (s : State) (t : Site) (p : Nat × Nat) (n : Nat) : Bool :=
  let c := s.core (s.siteCore t p)
  let kind := c.duct n fChDuctusAKind
  let credits := c.duct n fChDuctusACredits
  let batch := c.duct n fChDuctusBBatch
  let g := c.duct n fChDuctusAGroup
  let rs := s.reachedBy t p n
  !(rs.all (s.halfOn t)) ||
  rs.any (fun h =>
    let target := s.halfTarget t h
    (targetUnit target).any (fun u => decide (u ≠ c.duct n fChDuctusACunit)) || (target = 6 && credits != 0) ||
    (target = 5 && (batch = 0 || credits < batch)) || (kind = 2 && 2 ≤ target)) ||
  (kind = 1 && (s.treeRoot t g != some p || batch = 0 || 8 * batch < credits)) ||
  (kind = 2 && 255 < c.duct n fChDuctusBFirstMember + c.duct n fChDuctusBMembers)

/-- A power of two. -/
def powerOfTwo (n : Nat) : Bool := (List.range 20).any (fun k => decide (2 ^ k = n))

/-- Whether a receiving half breaks a rule of R187 by itself: its window's end, its slots, or the queue it names. -/
def Core.landBad (c : Core) (n : Nat) : Bool :=
  let target := c.land n fChLandATarget
  let size := c.land n fChLandASize
  let slot := c.land n fChLandASlot + 1
  ((target = 0 || target = 1 || target = 6) && 524288 < c.land n fChLandABase + size) ||
  (target = 1 && !(size % slot = 0 && powerOfTwo (size / slot))) ||
  (target = 5 && c.fld (fldAt fChCqAEnable (16 * c.land n fChLandAQueue)) = 0)

/-- Whether a combining queue of a core breaks a rule of R187. -/
def Core.queueBad (c : Core) (q : Nat) : Bool :=
  let (first, n) := c.cqSlots q
  2048 < first + n || c.fld (fldAt fChCqAExpect (16 * q)) = 0 ||
  (c.fld (fldAt fChCqAOutMode (16 * q)) = 0 && 524288 < c.fld (fldAt fChCqBOutBase (16 * q)) + 4 * n) ||
  (List.range 16).any (fun m => m != q && decide (c.fld (fldAt fChCqAEnable (16 * m)) = 1) &&
    decide (first < (c.cqSlots m).1 + (c.cqSlots m).2) && decide ((c.cqSlots m).1 < first + n))

/-- The sending halves of a site that are enabled. -/
def State.sendersOf (s : State) (t : Site) : List Half :=
  t.cores.flatMap (fun p =>
    let c := s.core (s.siteCore t p)
    ((List.range 64).filter (fun n => decide (c.duct n fChDuctusAEnable = 1))).map (fun n => (p, n)))

/-- The receiving halves of a site that are enabled. -/
def State.receiversOf (s : State) (t : Site) : List Half :=
  t.cores.flatMap (fun p =>
    let c := s.core (s.siteCore t p)
    ((List.range 64).filter (fun n => decide (c.land n fChLandAEnable = 1))).map (fun n => (p, n)))

/-- Whether a receiving half breaks a rule of R187 with those that reach it: an operand port shared, or credits beyond its capacity. -/
def State.halfBad (s : State) (t : Site) (reach : List (Half × List Half)) (h : Half) : Bool :=
  let target := s.halfTarget t h
  let c := s.core (s.siteCore t h.1)
  let from_ := reach.filter (fun x => x.2.contains h)
  let total := from_.foldl (fun n x =>
    n + (x.2.filter (fun y => decide (y = h))).length * (s.core (s.siteCore t x.1.1)).duct x.1.2 fChDuctusACredits) 0
  c.landBad h.2 ||
  (2 ≤ target && target ≤ 4 && (decide (1 < from_.length) ||
    (List.range 64).any (fun m => m != h.2 && decide (c.land m fChLandAEnable = 1) && decide (c.land m fChLandATarget = target)))) ||
  (s.halfRoom t h).any (fun room => decide (room < total))

/-! ## Wells at load (R149, R407) -/

/-- The words of an enabled buffer pair of a core: its first and one past its last. -/
def Core.pairWords (c : Core) (n : Nat) : Option (Nat × Nat) :=
  if c.fld (fldAt fWellBufEnable (8 * n)) = 1 then
    let base := 64 * c.fld (fldAt fWellBufBase (8 * n))
    some (base, base + 128 * (c.fld (fldAt fWellBufHalf (8 * n)) + 1))
  else none

/-- Whether an enabled pair of a core reaches beyond the well or shares a word with another. -/
def Core.pairsBad (c : Core) : Bool :=
  (List.range 8).any (fun n => (c.pairWords n).any (fun a => decide (524288 < a.2) ||
    (List.range n).any (fun m => (c.pairWords m).any (fun b => decide (a.1 < b.2) && decide (b.1 < a.2)))))

/-- Whether a ring area of a core lies outside the well or overlaps a pair. -/
def Core.ringBad (c : Core) (a : Nat × Nat) : Bool :=
  524288 < a.1 + a.2 || (List.range 8).any (fun n => (c.pairWords n).any (fun b => decide (a.1 < b.2) && decide (b.1 < a.1 + a.2)))

/-! ## The checks (R404, R407, R476) -/

/-- A failed check: its reason code and its section, 0xFFFF for the header. -/
abbrev Failure := Nat × Nat

/-- A failure of a condition. -/
def failIf (b : Bool) (code sec : Nat) : List Failure := if b then [(code, sec)] else []

/-- The first section of a type that targets a core, with a condition on the section; the header where there is none. -/
def Container.blame (c : Container) (type : Nat) (p : Nat × Nat) (f : Section → Bool) : Nat :=
  ((c.sections.zipIdx.find? (fun x => decide (x.1.type = type) && x.1.cores.contains p && f x.1)).map (·.2)).getD 0xFFFF

/-- The section blamed for a register of a core. -/
def Container.blameReg (c : Container) (p : Nat × Nat) (lo hi : Nat) : Nat :=
  c.blame 0x12 p (fun x => x.settings.any (fun y => decide (lo ≤ y.1) && decide (y.1 < hi)))

/-- Whether a section is of a type that a region image lists (R404). -/
def Section.listed (x : Section) : Bool := decide (0x10 ≤ x.type) && decide (x.type ≤ 0x18)

/-- The checks of one section of a region image by itself. -/
def sectionFailures (t : Site) (k : Nat) (x : Section) : List Failure :=
    let len := x.data.length
    let unit := if x.type = 0x11 then 2 else if x.type = 0x12 || x.type = 0x17 then 16 else if x.type = 0x16 then 1 else 8
    failIf (!x.listed) 4 k ++ failIf (!x.fits t) (if x.type = 0x13 then 8 else if x.type = 0x14 then 11 else 1) k ++
    failIf (!x.inside || (x.listed && len % unit != 0)) 1 k ++
    match x.type with
    | 0x10 => failIf (8192 < x.dest + len / 8) 14 k
    | 0x11 => failIf (len != 2 * x.cores.length) 1 k ++ failIf ((x.units 2).any (fun e => decide (8192 ≤ e))) 14 k
    | 0x12 => failIf (!x.settings.all settingOk) 1 k
    | 0x13 => failIf (512 < x.dest + len / 8) 8 k ++
        failIf ((x.units 8).any (fun w => decide (w % 2 = 1) && decide (w / 2 % 65536 = 0))) 8 k
    | 0x14 => failIf (4096 < x.dest + len / 8) 11 k
    | 0x15 => failIf (524288 < x.dest + len / 8) 14 k
    | 0x16 => failIf (167772160 < x.dest + len) 14 k
    | _ => []

/-- The groups that a container's sections write. -/
def Container.groupsSet (c : Container) : List Nat :=
  ((c.sections.filter (fun x => decide (x.type = 0x14))).flatMap (fun x => (List.range (x.data.length / 8)).map (x.dest + ·))).eraseDups

/-- The first section that writes a group. -/
def Container.groupSection (c : Container) (g : Nat) : Nat :=
  ((c.sections.zipIdx.find? (fun x => decide (x.1.type = 0x14) && decide (x.1.dest ≤ g) && decide (g < x.1.dest + x.1.data.length / 8))).map
    (·.2)).getD 0xFFFF

/-- The checks of what the sections set together, on the state with them applied. (DEDUCED, log entry 77.) -/
def State.siteFailures (s : State) (t : Site) (c : Container) : List Failure :=
  let cores := t.cores
  let senders := s.sendersOf t
  let reach := senders.map (fun h => (h, s.reachedBy t h.1 h.2))
  -- declared needs
  (List.range t.height).flatMap (fun j => (List.range t.width).flatMap (fun i =>
    let k := s.cluster (t.cluster (i, j))
    let on := ((List.range 512).filter (fun l => decide (k.fld (fldAt fLigCfgEnable (8 * l)) = 1))).length
    failIf (c.ligMax < on) 8 (((c.sections.zipIdx.find? (fun x => decide (x.1.type = 0x13) && x.1.clusters.contains (i, j))).map (·.2)).getD 0xFFFF))) ++
  failIf (c.groups < c.groupsSet.length) 11 (((c.sections.zipIdx.find? (fun x => decide (x.1.type = 0x14))).map (·.2)).getD 0xFFFF) ++
  cores.flatMap (fun p =>
    let k := s.core (s.siteCore t p)
    let eps := ((List.range 64).filter (fun n => decide (k.duct n fChDuctusAEnable = 1) || decide (k.land n fChLandAEnable = 1))).length
    let cqs := (List.range 16).filter (fun q => decide (k.fld (fldAt fChCqAEnable (16 * q)) = 1))
    failIf (c.epMax < eps) 9 (c.blameReg p 0x4400 0x4C00) ++ failIf (c.cqMax < cqs.length) 10 (c.blameReg p 0x4C00 0x4D00) ++
    cqs.flatMap (fun q => failIf (k.queueBad q) 10 (c.blameReg p (0x4C00 + 16 * q) (0x4C10 + 16 * q))) ++
    failIf k.pairsBad 12 (c.blameReg p 0x6040 0x6080)) ++
  -- channels
  senders.flatMap (fun h => failIf (s.ductBad t h.1 h.2) 9 (c.blameReg h.1 (0x4400 + 16 * h.2) (0x4410 + 16 * h.2))) ++
  (s.receiversOf t).flatMap (fun h => failIf (s.halfBad t reach h) 9 (c.blameReg h.1 (0x4800 + 16 * h.2) (0x4810 + 16 * h.2))) ++
  -- trees
  c.groupsSet.flatMap (fun g => failIf (!(s.treeRouters t g).isEmpty && !s.treeOk t g) 11 (c.groupSection g)) ++
  -- ring areas
  c.sections.zipIdx.flatMap (fun x =>
    if x.1.type = 0x17 then
      x.1.cores.flatMap (fun p => x.1.rings.flatMap (fun a => failIf ((s.core (s.siteCore t p)).ringBad a) 13 x.2))
    else [])

/-- The checks of the header that both kinds share; `kind` is the target's, `space` its staging space, and `spoiled` says that a staged word has come back poisoned. -/
def State.headFailures (s : State) (c : Container) (kind staged space : Nat) (spoiled : Bool) : List Failure :=
  let digest := Config.sha384 c.key
  let admitted := if kind = 0 then Config.firmwareKey digest && !s.island.badFuses else s.lic.owners.contains (natOfBytes digest, c.alg)
  failIf (c.magic != 0x4D49574B || c.version != 1 || c.length != staged || !c.zeros) 1 0xFFFF ++
  failIf (spoiled || 1 < c.alg || !admitted || !Config.verifies c.alg c.key c.signed c.signature) 2 0xFFFF ++
  failIf (c.alg = 1 && !s.lic.pq) 3 0xFFFF ++ failIf (c.kind != kind) 4 0xFFFF ++
  failIf (s.lifecycle = 4 || (s.lifecycle = 0 && (kind = 1 || !Config.factoryKey digest))) 15 0xFFFF ++ failIf (space < staged || space < c.length) 16 0xFFFF

/-- The needs that a region image's header names, against the hardware, the licence and the site (R5, R33). -/
def State.needFailures (s : State) (t : Site) (c : Container) : List Failure :=
  failIf (!((c.level = 2 && c.compat = 1) || (c.level = 3 && c.compat = 0)) || c.profile != 1) 5 0xFFFF ++
  failIf (c.width != t.width || c.height != t.height) 6 0xFFFF ++ failIf (s.regionLimit < c.regions) 7 0xFFFF ++
  failIf (512 < c.ligMax) 8 0xFFFF ++ failIf (64 < c.epMax) 9 0xFFFF ++ failIf (16 < c.cqMax) 10 0xFFFF ++ failIf (4096 < c.groups) 11 0xFFFF

/-- Every section applied, in order. -/
def State.loadAll (s : State) (t : Site) (c : Container) : State := c.sections.foldl (fun s x => s.loadSection t x) s

/-- The checks of the sections of a region image: each by itself, and where those hold, what they set together. -/
def State.bodyFailures (s : State) (t : Site) (c : Container) : List Failure :=
  let own := c.sections.zipIdx.flatMap (fun x => sectionFailures t x.2 x.1)
  if own.any (fun f => decide (f.1 = 1) || decide (f.1 = 4)) then own
  else own ++ (s.loadAll t { c with sections := (c.sections.filter (fun x => x.fits t)) }).siteFailures t c

/-- The bytes of Scribe SRAM (R333). -/
def sramBytes : Nat := 67108864

/-- The sections of a device image: types 0x01 and 0x02 inside the container, the firmware inside Scribe SRAM. (DESIGN CHOICE, log entry 157.) -/
def deviceFailures (c : Container) : List Failure :=
  failIf (c.level != 0 || c.profile != 0) 5 0xFFFF ++
  c.sections.zipIdx.flatMap (fun x => failIf (x.1.type != 1 && x.1.type != 2) 4 x.2 ++
    failIf (!x.1.inside || (x.1.type = 1 && sramBytes < x.1.dest + x.1.data.length)) 1 x.2)

/-- The failure reported: the lowest code, and for it the lowest-numbered section. -/
def worst (l : List Failure) : Option Failure :=
  l.foldl (fun m f => match m with
    | none => some f
    | some g => if f.1 < g.1 || (f.1 = g.1 && f.2 < g.2) then some f else some g) none

/-! ## Loading (R395, R401, R406 to R408) -/

/-- The bytes that a region's core stages. -/
def stageBytes : Nat := 67108864

/-- The staging space of a target: 48 MiB of Scribe SRAM, or 64 MiB in the reservoir of each core of the region. -/
def State.stageSpace (s : State) (target : Nat) : Nat :=
  if target = 0 then 48 * 2 ^ 20 else 48 * (s.siteOf (target - 1)).width * (s.siteOf (target - 1)).height * stageBytes

/-- The core of region `r` that stages the `j`-th 64 MiB of its container, in rows. (DESIGN CHOICE, log entry 157.) -/
def State.stageCore (s : State) (r j : Nat) : Nat :=
  let t := s.siteOf r
  s.siteCore t (j % (6 * t.width), j / (6 * t.width))

/-- The pieces in which a run of bytes of a container falls on the cores that stage it: each core's place among them, the byte of its space, and the bytes. -/
def stageParts (off : Nat) (bs : List Byte) : List (Nat × Nat × List Byte) :=
  (List.range (if bs.isEmpty then 0 else (off + bs.length - 1) / stageBytes - off / stageBytes + 1)).map (fun k =>
    let j := off / stageBytes + k
    let first := j * stageBytes - off
    (j, (off + first) % stageBytes, (bs.drop first).take ((j + 1) * stageBytes - (off + first))))

/-- A run of bytes written into a core's staging space through the management window (R333, R472). -/
def Core.stage (e : Env) (b : Nat) (bs : List (Byte × Bool)) (c : Core) : Core :=
  let dest := 64 * Config.stageLine.val + b
  let lines := (List.range (if bs.isEmpty then 0 else (dest + bs.length - 1) / 64 - dest / 64 + 1)).map (dest / 64 + ·)
  (lines.foldl (fun (c : Core) l => c.windowLine l (if dest ≤ 64 * l && 64 * l + 64 ≤ dest + bs.length then 1 else 2)) c).rsvWriteBytes e dest bs

/-- The state with part of a target's container staged; what lies past the staging space is not kept, and what the mesh loses does not arrive (R250, R408). -/
def State.stage (s : State) (target off : Nat) (bs : List Byte) : State :=
  let bs := bs.take (s.stageSpace target - off)
  if target = 0 then
    let ws := byteWrites (8 * Config.stageWord.val + off) (bs.map (fun b => (some b, false)))
    { s with scribe := { s.scribe with sram := ws.foldl Mem.write s.scribe.sram } }
  else
    (stageParts off bs).foldl (fun s x =>
      let i := s.stageCore (target - 1) x.1
      let n := ceilDiv x.2.2.length 8
      let (w, s) := s.access (0, pyOf i) (s.placeOf i) (flitsOf n) 0 n
      if w.ok then s.mapCore i (Core.stage (s.env i) x.2.1 (x.2.2.zipIdx.map (fun y => (y.1, w.bad.contains (y.2 / 8))))) else s) s

/-- The cores that stage the first `n` bytes of region `r`'s container. -/
def State.stageCores (s : State) (r n : Nat) : List Nat := (List.range (ceilDiv n stageBytes)).map (s.stageCore r)

/-- Whether a chunk or a commit waits for credits withheld on its way: to the cores that stage the container (R356). -/
def State.stageWaits (s : State) (target n : Nat) : Bool :=
  target != 0 && (s.stageCores (target - 1) (min n (s.stageSpace target))).any (fun i => s.accessWaits (0, pyOf i) (s.placeOf i))

/-- The lines of a core's staging space that hold its first `n` bytes, read through the window. -/
def Core.stageRead (e : Env) (n : Nat) (c : Core) : List (Word × Bool) × Core :=
  (List.range (ceilDiv n 64)).foldl (fun (r : List (Word × Bool) × Core) k =>
    let (ws, c, _) := (r.2.windowLine (Config.stageLine.val + k) 1).rsvReadLine e 0 true false (Config.stageLine.val + k)
    (r.1 ++ ws, c)) ([], c)

/-- The first `n` bytes of a target's staged container, each with its word's poison: one that the mesh loses is poisoned. -/
def State.stageRead (s : State) (target n : Nat) : List (Byte × Bool) × State :=
  if target = 0 then
    let m := s.scribe.sram
    ((List.range n).map (fun b =>
      let a := Config.stageWord.val + b / 8
      (m.byte (8 * Config.stageWord.val + b), m.pois a || decide (m.check a = .ue))), s)
  else
    (List.range (ceilDiv n stageBytes)).foldl (fun (r : List (Byte × Bool) × State) j =>
      let s := r.2
      let i := s.stageCore (target - 1) j
      let m := min stageBytes (n - j * stageBytes)
      let (y, s) := s.access (0, pyOf i) (s.placeOf i) 1 (flitsOf (ceilDiv m 8)) (ceilDiv m 8)
      if y.ok then
        let x := (s.core i).stageRead (s.env i) m
        (r.1 ++ (x.1.zipIdx.flatMap (fun w => (bytesOfWord w.1.1).map (fun b => (b, w.1.2 || y.bad.contains w.2)))).take m, s.setCore i x.2)
      else (r.1 ++ List.replicate m (0, true), s)) ([], s)

/-- A target's staging space as a wipe leaves it, up to `n` bytes. (DESIGN CHOICE, log entry 157.) -/
def State.stageClear (s : State) (target n : Nat) : State :=
  if target = 0 then
    { s with scribe := { s.scribe with sram := s.scribe.sram.blank (8 * Config.stageWord.val) (8 * Config.stageWord.val + n) } }
  else
    (s.stageCores (target - 1) n).foldl (fun s i => s.mapCore i (fun c =>
      { c with rsv := { c.rsv with mem := c.rsv.mem.blank (64 * Config.stageLine.val) (64 * Config.stageLine.val + min n stageBytes) } })) s

/-- The bytes that a target's load has staged. -/
def State.loaded (s : State) (target : Nat) : Nat := min (((s.images.loads.look target none).map (·.extent)).getD 0) (s.stageSpace target)

/-- The state with the load of a target replaced: 0 the device, n + 1 region n. -/
def State.setLoad (s : State) (target : Nat) (l : Option Load) : State :=
  { s with images := { s.images with loads := s.images.loads.put target l none } }

/-- The status and detail with which a request for a target is refused before it is looked at: a malformed target, a device image after bring-up has one, or a
region that is not ready. -/
def State.targetRefused (s : State) (target : Nat) : Option (Nat × Option Nat) :=
  if 64 < target then some (2, some 0)
  else if target = 0 then (if s.fld fRstStatusPhase ≤ 3 then none else some (5, some s.lifecycle))
  else if s.rgn (target - 1) fRgnStatusState = 1 then none
  else if s.rgn (target - 1) fRgnStatusState = 5 then (if (s.images.loads.look target none).isSome then none else some (1, none))
  else some (0x12, some (target - 1))

/-- The same for a payload whose first two bytes name the target. -/
def State.targetOf (s : State) (p : List Byte) : Option (Nat × Option Nat) :=
  match badField p [(0, 2, true)] with
  | some o => some (2, some o)
  | none => s.targetRefused (numAt p 0 2)

/-- A load discarded, with what it has staged (R408). -/
def State.dropLoad (s : State) (target : Nat) : State := (s.stageClear target (s.loaded target)).setLoad target none

/-- IMAGE_CHUNK: part of a container is staged. A chunk at offset 0 starts a new load, and first discards the image that the region holds. -/
def execImageChunk (s : State) : Out :=
  match s.payload 0x10 with
  | none => .next s
  | some p =>
    let target := numAt p 0 2
    let off := numAt p 4 8
    if s.dev != .up then .next s
    else match badField p [(0, 2, decide (target ≤ 64)), (2, 2, numAt p 2 2 = 0), (4, 8, true)] with
    | some o => .next (s.answer 0x10 2 (detailWord o))
    | none =>
      match s.targetRefused target with
      | some (st, d) => .next (s.answer 0x10 st (detailOf d))
      | none =>
        let data := p.drop 12
        if s.stageWaits target (off + data.length) then .next s
        else if off = 0 then
          let s := if 0 < target && (s.rgnSt (target - 1)).image then s.enterWiping (target - 1) true else s.dropLoad target
          .next (((s.setLoad target (some ⟨data.length⟩)).stage target 0 data).answer 0x10 0 [])
        else match s.images.loads.look target none with
          | none => .next (s.answer 0x10 2 (detailWord 4))
          | some l => .next (((s.setLoad target (some ⟨max l.extent (off + data.length)⟩)).stage target off data).answer 0x10 0 [])

/-- A container rejected whole: recorded, logged and answered (R407, R478). -/
def State.reject (s : State) (target : Nat) (f : Failure) : State :=
  let s := ((s.setFld fRstLoadLastReason f.1).setFld fRstLoadLastSection f.2).setFld fRstLoadLastTarget target
  let w := BitVec.ofNat 64 (f.1 + f.2 % 2 ^ 16 * 2 ^ 8 + target * 2 ^ 24)
  let s := (s.setFld fRstLoadLastValid 1).logEvent 0x07 1 0xFF (if target = 0 then none else some (target - 1)) w
  (s.dropLoad target).answer 0x11 0x15 (detailWord f.1)

/-- The Scribe firmware of a device image written into Scribe SRAM (R403). -/
def State.loadScribe (s : State) (c : Container) : State :=
  let put (m : Mem) (x : Section) : Mem := if x.type = 1 then (byteWrites x.dest (x.data.map (fun b => (some b, false)))).foldl Mem.write m else m
  { s with scribe := { s.scribe with sram := c.sections.foldl put s.scribe.sram } }

/-- A device image verified: in Minimal Recovery Mode the start goes on at phase 4 (R401, R435). -/
def State.takeDevice (s : State) : State :=
  let s := { s with images := { s.images with device := true } }
  if s.fld fRstStatusMrm = 1 then
    let s := (((s.setFld fRstStatusMrm 0).setFld fAoiStartMrm 0).setFld fAoiStartFailedStarts 2).setFld fAoiStartTimerRunning 1
    ((s.setFld fAoiRecoverForceMrm 0).faultOff .recovery).setFld fRstStatusPhase 4
  else s

/-- Whether a sending half reaches read windows: its receiving half in the region is one, or its ductus is of kind 3 and starts without credits, which only a read
window takes none of (R186, R187, R206). -/
def State.readsWindow (s : State) (t : Site) (h : Half) : Bool :=
  let c := s.core (s.siteCore t h.1)
  (s.reachedBy t h.1 h.2).any (fun x => decide (s.halfTarget t x = 6)) ||
    (c.duct h.2 fChDuctusAKind = 3 && c.duct h.2 fChDuctusACredits = 0)

/-- The sending halves whose ductus reaches a read window are marked (R187). (DEDUCED, log entry 122.) -/
def State.markWindows (s : State) (t : Site) : State :=
  (s.sendersOf t).foldl (fun u h =>
    if s.readsWindow t h then
      u.mapCore (s.siteCore t h.1) (fun c => c.setFld (fldAt fChDuctusBRdWindow (16 * h.2)) 1)
    else u) s

/-- A core after a load with the compatibility bit, under which writes of the unwritten-memory traps are ignored (R38, R39). -/
def Core.keepTraps (old new : Core) : Core :=
  (new.setFld fWellCtrlWswTrap (old.fld fWellCtrlWswTrap)).setFld fRsvCtrlWswTrap (old.fld fRsvCtrlWswTrap)

/-- The clusters of region `r` that no hairline path joins to the Scribe Complex, which a broadcast does not reach (R254, R258, R406). -/
def State.cutOff (s : State) (r : Nat) : List Nat := (s.rectClusters r).filter (fun n => !(s.send (scribeHub n) n).1)

/-- The mirrors that region `r` will have are given what its primaries were (R426). -/
def State.loadMirrors (s : State) (r : Nat) : State :=
  (s.checkGroups r).foldl (fun s g => g.2.foldl (fun s m => s.setCore m ((s.core g.1).mirror (s.core m))) s) s

/-- The sections of a region image broadcast to the clusters that hairline paths reach, in one packet to each as the hubs count them, and to the mirrors. (DEDUCED, log entry
135.) -/
def State.broadcast (s : State) (r : Nat) (c : Container) : State :=
  let s := (s.rectClusters r).foldl (fun (s : State) n => (s.send (scribeHub n) n).2) s
  let u := ((s.loadAll (s.siteOf r) c).markWindows (s.siteOf r)).loadMirrors r
  let u := if c.compat = 1 then (s.rectCores r).foldl (fun u i => u.setCore i ((s.core i).keepTraps (u.core i))) u else u
  (s.cutOff r).foldl (fun u n => (clusterCores n).foldl (fun u i => u.setCore i (s.core i)) (u.setCluster n (s.cluster n))) u

/-- A region image applied: its sections broadcast, its compatibility bit and its ring areas taken. -/
def State.takeRegion (s : State) (r : Nat) (c : Container) : State :=
  let s := (s.broadcast r c).setRgn r fRgnCfgCompat c.compat
  let rings := (c.sections.filter (fun x => decide (x.type = 0x17))).flatMap (fun x =>
    x.cores.flatMap (fun p => x.rings.map (fun a => (⟨p.1, p.2, a.1, a.2⟩ : RingArea))))
  s.mapRgn r (fun x => { x with image := true, rings := rings })

/-- The checks that a container for a target fails. -/
def State.commitFailures (s : State) (target extent : Nat) (c : Container) (spoiled : Bool) : List Failure :=
  if target = 0 then s.headFailures c 0 extent (s.stageSpace 0) spoiled ++ deviceFailures c
  else
    let t := s.siteOf (target - 1)
    let clean := s.dropLoad target
    s.headFailures c 1 extent (s.stageSpace target) spoiled ++ s.needFailures t c ++ clean.bodyFailures t c

/-- IMAGE_COMMIT: the staged container is checked and verified, and applied or rejected whole. -/
def execImageCommit (s : State) : Out :=
  match s.payload 0x11 with
  | none => .next s
  | some p =>
    let target := numAt p 0 2
    if s.dev != .up then .next s
    else match s.targetOf p with
      | some (st, d) => .next (s.answer 0x11 st (detailOf d))
      | none =>
        match s.images.loads.look target none with
        | none => .next (s.answer 0x11 2 (detailWord 0))
        | some l =>
          if 0 < target && s.rgn (target - 1) fRgnStatusState != 1 then .next (s.answer 0x11 1 [])
          else if s.stageWaits target l.extent || (0 < target && (s.rectClusters (target - 1)).any (fun n => s.hubWaits (scribeHub n) n)) then .next s
          else
            let x := s.stageRead target (s.loaded target)
            let c := readContainer (x.1.map (·.1))
            match worst (x.2.commitFailures target l.extent c (x.1.any (·.2))) with
            | some f => .next (x.2.reject target f)
            | none =>
              let s := x.2.dropLoad target
              .next ((if target = 0 then (s.loadScribe c).takeDevice else s.takeRegion (target - 1) c).answer 0x11 0 [])

/-- IMAGE_ABORT: a load in progress is discarded, and its region wiped again. -/
def execImageAbort (s : State) : Out :=
  match s.payload 0x12 with
  | none => .next s
  | some p =>
    let target := numAt p 0 2
    if s.dev != .up then .next s
    else match s.targetOf p with
      | some (st, d) => .next (s.answer 0x12 st (detailOf d))
      | none =>
        if (s.images.loads.look target none).isNone then .next (s.answer 0x12 0 [])
        else
          let s := s.dropLoad target
          .next ((if 0 < target && s.rgn (target - 1) fRgnStatusState = 1 then s.enterWiping (target - 1) true else s).answer 0x12 0 [])

/-! ## Colophons (R2, R3, R409, R410) -/

/-- The first field of a colophon that makes it malformed. -/
def colophonBad (p : List Byte) : Option Nat :=
  let kind := numAt p 6 1
  let value := numAt p 7 1
  badPayload p 192 [(0, 4, numAt p 0 4 = 0x4F43574B), (4, 2, numAt p 4 2 = 1), (6, 1, decide (kind ≤ 2)),
    (7, 1, (kind = 0 && value ≤ 1) || (kind = 1 && value = 1) || (kind = 2 && value = 0)), (8, 8, true), (16, 8, true),
    (24, 48, kind = 2 || numAt p 24 48 = 0), (72, 1, decide (numAt p 72 1 ≤ if kind = 2 then 1 else 0)), (73, 23, numAt p 73 23 = 0), (96, 48, true),
    (144, 48, true)]

/-- COLOPHON: a licence bound to the device is accepted, or rejected naming the failed check. (DESIGN CHOICE, log entry 137.) -/
def execColophon (s : State) : Out :=
  match s.payload 0x13 with
  | none => .next s
  | some p =>
    let no (s : State) (check : Nat) : State :=
      (s.logEvent 0x06 1 0xFF none (BitVec.ofNat 64 check)).answer 0x13 0x14 (detailWord check)
    if s.dev != .up then .next s
    else match colophonBad p with
      | some o => .next (s.answer 0x13 2 (detailWord o))
      | none =>
        let key := (numAt p 24 48, numAt p 72 1)
        if !Config.wiarnSigned 0 (p.take 96) (p.drop 96) then .next (no s 1)
        else if BitVec.ofNat 64 (numAt p 8 8) != Config.eui then .next (no s 2)
        else match numAt p 6 1 with
          | 0 => .next ({ s with lic := { s.lic with tenancy := s.lic.tenancy || numAt p 7 1 = 1 } }.answer 0x13 0 [])
          | 1 => .next ({ s with lic := { s.lic with pq := true } }.answer 0x13 0 [])
          | _ =>
            if s.lic.owners.any (fun k => decide (k.1 = key.1)) then .next (s.answer 0x13 0 [])
            else if 16 ≤ s.lic.owners.length then .next (s.answer 0x13 0x10 (detailWord 16))
            else .next ({ s with lic := { s.lic with owners := s.lic.owners ++ [key] } }.answer 0x13 0 [])

/-! ## The field repair list (R396, R417) -/

/-- The byte of an entry in which its first bad field begins. -/
def entryBad (w : Word) : Option Nat :=
  let kind := fieldOf w 0 4
  if kind = 0 || 3 < kind then some 0
  else if 143 < fieldOf w 4 8 then some 0
  else if kind != 2 && 6 < fieldOf w 12 3 then some 1
  else if kind = 3 && 319 < fieldOf w 26 9 then some 3
  else if fieldOf w 35 29 != 0 then some 4
  else none

/-- The first bad field of a repair list: its EUI-64, a field of an entry, an entry past the 1,024th, or one cut short. -/
def listBad (p : List Byte) : Option Nat :=
  let n := p.length / 8 - 1
  if BitVec.ofNat 64 (numAt p 0 8) != Config.eui || p.length < 8 then some 0
  else match (List.range (min n 1024)).findSome? (fun i => (entryBad (BitVec.ofNat 64 (numAt p (8 * i + 8) 8))).map (fun o => 8 * i + 8 + o)) with
    | some o => some o
    | none => if 1024 < n then some (8 * 1025) else if p.length % 8 != 0 then some (p.length / 8 * 8) else none

/-- REPAIR_LIST: before the device image is committed the list is accepted, in place of any before, or refused whole. -/
def execRepairList (s : State) : Out :=
  match s.payload 0x14 with
  | none => .next s
  | some p =>
    if s.dev != .up then .next s
    else if s.images.device || 3 < s.fld fRstStatusPhase then .next (s.answer 0x14 5 (detailWord s.lifecycle))
    else match listBad p with
      | some o => .next (s.answer 0x14 2 (detailWord o))
      | none =>
        let ws := (List.range (p.length / 8 - 1)).map (fun i => BitVec.ofNat 64 (numAt p (8 * i + 8) 8))
        .next ({ s with images := { s.images with repairs := ws, listed := true } }.answer 0x14 0 [])

end Sys2Proof.Machine
end

