-- ==== Sys2Proof/Machine/Repair.lean ====
section
/-! DEFINITION. Repair in service and checking: suspect scores, failed cores, remapping, votes of check groups and exemplars (R417 to R432, R478). -/

namespace Sys2Proof.Machine

/-! ## Suspect scores (R419) -/

/-- The field repair entry of a failed core (R417, R418). -/
def coreEntry (i : Nat) : Word := repairEntry 1 (clusterOfCore i) (pxOf i % 7) (pyOf i % 8)

/-- A core fails: it is marked, logged and reported, and the procedure for it is due (R419). -/
def State.failCore (s : State) (i : Nat) : State :=
  if (s.core i).fld fCoreSuspectFailed = 1 then s
  else
    let s := (s.mapCore i (fun c => c.setFld fCoreSuspectFailed 1)).logEvent 0x09 2 (clusterOfCore i) (s.regionOf (clusterOfCore i)) (coreEntry i)
    { s with repair := { s.repair with failed := s.repair.failed ++ [i] } }.note (.coreFailed i)

/-- A core whose score has reached the limit fails. -/
def State.judge (s : State) (i : Nat) : State :=
  if s.fld fRstRepairCtrlSuspectLimit ≤ (s.core i).fld fCoreSuspectScore then s.failCore i else s

/-- A core's score rises by one. -/
def State.score (s : State) (i : Nat) : State :=
  (s.mapCore i (fun c => c.setFld fCoreSuspectScore (min 15 (c.fld fCoreSuspectScore + 1)))).judge i

/-- The number of a report's kind in the log (R478). -/
def ReportKind.code : ReportKind → Nat
  | .checksum => 1
  | .wellUe => 2
  | .rsvUe => 3
  | .meshUe => 4
  | .droop => 5

/-- The cores that a report scores against; `i` is the core that made it. (DEDUCED, log entry 80.) -/
def State.scored (s : State) (i : Nat) (r : Report) : List Nat :=
  if (s.core i).fld fCoreCheckRole = 2 then [i]
  else match r.kind with
  | .checksum => [i]
  | .wellUe => [i]
  | .rsvUe =>
    let key := rsvRowKey r.detail
    if 24 ≤ (s.core i).sparesUsed (key / 16 % 16) (key % 16) then [i] else []
  | .meshUe => [r.detail]
  | .droop => clusterCores (clusterOfCore i)

/-- DETECTED_ERROR_REPORT: a core's oldest report crosses the hairline on class 1 and reaches the Scribe Complex, which logs it and scores it; a down link on its
way discards it, and while a crossing withholds credits it waits (R254, R258, R356). -/
def execDetectedErrorReport (i : CoreId) (s : State) : Out :=
  match (s.core i).reports with
  | [] => .next s
  | r :: rest =>
    let n := clusterOfCore i
    if s.dev != .up || s.hubWaits n (scribeHub n) then .next s
    else
      let (ok, s) := (s.mapCore i (fun c => { c with reports := rest })).send n (scribeHub n)
      if !ok then .next s else
      let s := s.logEvent 0x08 1 (clusterOfCore i) (some r.region) (BitVec.ofNat 64 (i.val + r.kind.code * 2 ^ 16))
      .next ((s.scored i r).foldl State.score s)

/-- SUSPECT_SCORE_HALVING: every window_h hours each score halves, rounding down. -/
def execSuspectScoreHalving (s : State) : Out :=
  if s.dev = .up && s.repair.halved + s.fld fRstRepairCtrlWindowH * 3600 * 10 ^ 9 ≤ s.mono then
    let is := sortBy clusterOfCore ((s.cores.map (fun x => x.1)).eraseDups)
    let s := is.foldl (fun (s : State) i => s.mapCore i (fun c => c.setFld fCoreSuspectScore (c.fld fCoreSuspectScore / 2))) s
    let s := is.foldl (fun (s : State) i => if (s.core i).fld fCoreSuspectScore = 0 then s else s.judge i) s
    .next { s with repair := { s.repair with halved := s.mono } }
  else .next s

/-! ## Check groups in service (R423, R427) -/

/-- The mirrors that a primary's group still has. -/
def State.mirrorsOf (s : State) (r i : Nat) : List Nat :=
  ((s.checkGroups r).filter (fun g => decide (g.1 = i))).flatMap (fun g => g.2.filter (fun m => decide ((s.core m).fld fCoreCheckRole = 2)))

/-- A mirror leaves its group, which runs on degraded (R423); it stops as it stands. -/
def State.leaveGroup (s : State) (m : Nat) : State :=
  match s.primaryOf m with
  | none => s
  | some (r, i) =>
    let others := i :: s.mirrorsOf r i
    let s := others.foldl (fun (s : State) j => s.mapCore j (fun c => c.setFld fCoreCheckDegraded 1)) s
    let c := s.view m
    (s.setCore m ({ c with ctl := { c.ctl with running := false } }.setFld fCoreCheckRole 0)).setRgn r fRgnCheckStatusDegraded 1

/-! ### Digests (R426) -/

/-- One bit of the CRC-64 of ECMA-182, from the top. -/
def crc64Bit (c : Nat) : Nat := if 2 ^ 63 ≤ c then Nat.xor (c * 2 % 2 ^ 64) 0x42F0E1EBA9EA3693 else c * 2

/-- The CRC-64 of ECMA-182 over bytes. -/
def crc64 (bs : List Byte) : Word :=
  BitVec.ofNat 64 (bs.foldl (fun c x => (List.range 8).foldl (fun c _ => crc64Bit c) (Nat.xor c (x.toNat * 2 ^ 56))) 0)

/-- The digest of a packet, from its region and generation, the coordinates of its sender and what it carries. (DESIGN CHOICE, log entry 78.) -/
def Digested.digest (d : Digested) (head : List Nat) : Digest :=
  ⟨d.kind, d.ep, d.seq, crc64 ((head ++ [d.kind, d.ep, d.seq] ++ d.fields).flatMap (fun n => bytesOfNat 8 n) ++
    d.words.flatMap (fun w => bytesOfWord w.1 ++ [if w.2 then 1 else 0]))⟩

/-- What a vote finds of a primary's copy and its mirrors', `none` for a digest that has not come (R427). -/
inductive Verdict where
  | agree
  | corrected (dissenting : List Nat)
  | primaryFails
  | noMajority
  deriving DecidableEq, Repr

/-- The outcome of a vote: all agree; a primary and one mirror of a triple; both mirrors of a triple against the primary; or no majority. (DEDUCED, log entry 79.) -/
def verdict (own : Digest) (votes : List (Nat × Option Digest)) : Verdict :=
  let dissent := (votes.filter (fun v => v.2 != some own)).map (fun v => v.1)
  if dissent.isEmpty then .agree
  else match votes with
    | [a, b] =>
      if dissent.length = 1 then .corrected dissent
      else if a.2.isSome && a.2 = b.2 then .primaryFails else .noMajority
    | _ => .noMajority

/-- Every payload word of what a packet carries poisoned. -/
def bodyPoison (b : Body) : Body := bodySpoil (List.range (bodyLength b)) b

/-- The packet a primary holds goes, poisoned where the vote says so: `fab` names the packets for the fabric, else those of the mesh. -/
def State.release (s : State) (fab : Bool) (idx : Nat) (poison : Bool) : State :=
  if fab then
    match s.fabWait[idx]? with
    | none => s
    | some x =>
      let b := match x.pkt.body with
        | .channel b => if poison then FabBody.channel (bodyPoison b) else .channel b
        | b => b
      { s with fabWait := s.fabWait.set idx { x with stage := 0, pkt := { x.pkt with body := b } } }
  else match s.mesh[idx]? with
    | none => s
    | some p => { s with mesh := s.mesh.set idx { p with hold := 0, body := if poison then bodyPoison p.body else p.body } }

/-- A vote's outcome takes effect for the group of primary `i` in region `r`. -/
def State.vote (s : State) (r i : Nat) (fab : Bool) (idx : Nat) (v : Verdict) : State :=
  match v with
  | .agree => (s.release fab idx false).setRgn r fRgnVotesAgreeCount (s.rgn r fRgnVotesAgreeCount + 1)
  | .corrected ms =>
    let s := (s.release fab idx false).setRgn r fRgnVotesCorrectedCount (s.rgn r fRgnVotesCorrectedCount + 1)
    (sortBy clusterOfCore ms).foldl (fun s m => (s.leaveGroup m).failCore m) s
  | .primaryFails => ((s.release fab idx true).setRgn r fRgnVotesFailedCount (s.rgn r fRgnVotesFailedCount + 1)).failCore i
  | .noMajority =>
    let members := sortBy clusterOfCore (i :: s.mirrorsOf r i)
    let s := (s.release fab idx true).setRgn r fRgnVotesFailedCount (s.rgn r fRgnVotesFailedCount + 1)
    members.foldl State.score ((s.note (.vote r i)).resetJob r)

/-- A packet that a primary's router holds: its region, its primary and the time since which it is held. -/
def State.heldPacket (s : State) (fab : Bool) (idx : Nat) : Option (Nat × Nat × Nat) :=
  if fab then
    (s.fabWait[idx]?).bind (fun x =>
      if x.stage = 4 then some (x.pkt.srcRegion, s.regionCore x.pkt.srcRegion x.pkt.sx x.pkt.sy, x.since) else none)
  else (s.mesh[idx]?).bind (fun p => if p.hold = 0 then none else some (p.region, s.physical p.src.1 p.src.2, p.hold - 1))

/-- The digest of a packet that a primary's router holds (R426). -/
def State.heldDigest (s : State) (fab : Bool) (idx : Nat) : Option Digest :=
  if fab then (s.fabWait[idx]?).map (fun x => (fabDigested x.pkt.body).digest [x.pkt.srcRegion, x.pkt.dstRegion, x.pkt.gen, x.pkt.sx, x.pkt.sy, x.pkt.x, x.pkt.y])
  else (s.mesh[idx]?).map (fun p => (bodyDigested p.body).digest [p.region, p.gen, p.sx, p.sy, (p.group.map (· + 1)).getD 0])

/-- Whether a digest is for the packet of another: by kind, endpoint and sequence number (R427). -/
def digestFor (own d : Digest) : Bool := decide (d.kind = own.kind) && decide (d.ep = own.ep) && decide (d.seq = own.seq)

/-- CHECK_VOTE: the digests of every mirror of a held packet's group have come, in the mirrors' order; one that is for another packet has not. The primary's own is
computed from the packet. (DESIGN CHOICE, log entry 78.) -/
def execCheckVote (fab : Bool) (idx : Nat) (_ : Unit) (digests : List Digest) (s : State) : Out :=
  match s.heldPacket fab idx, s.heldDigest fab idx with
  | some (r, i, _), some own =>
    let ms := s.mirrorsOf r i
    if s.dev != .up || digests.length != ms.length || !digests.all (fun d => digestFor own d) then .next s
    else .next (s.vote r i fab idx (verdict own (ms.zip (digests.map some))))
  | _, _ => .next s

/-- VOTE_DIGEST_TIMEOUT: vote_limit microseconds have passed since the packet was held, and a digest that has not come counts as a copy that differs. -/
def execVoteDigestTimeout (fab : Bool) (idx : Nat) (_ : Unit) (digests : List (Option Digest)) (s : State) : Out :=
  match s.heldPacket fab idx, s.heldDigest fab idx with
  | some (r, i, since), some own =>
    let ms := s.mirrorsOf r i
    let digests := digests.map (fun d => d.filter (fun d => digestFor own d))
    if s.dev != .up || digests.length != ms.length || digests.all (fun d => d.isSome) ||
        s.mono < since + 1000 * s.rgn r fRgnCheckVoteLimit then .next s
    else .next (s.vote r i fab idx (verdict own (ms.zip digests)))
  | _, _ => .next s

/-! ## Stopping and remapping (R421 to R423) -/

/-- A mesh link of the core is down (R253). -/
def State.linkReported (s : State) (i : Nat) : Bool :=
  s.notes.any (fun n => match n with
    | .meshLink a b => a = i || b = i
    | _ => false)

/-- FAILED_CORE_PROCEDURE: the first step for a failed core, or for one end of a mesh link that is down. A mirror leaves its group; otherwise the region that
holds the core is reset, with its job. (DEDUCED, log entry 81.) -/
def execFailedCoreProcedure (i : CoreId) (s : State) : Out :=
  if s.dev != .up || !((s.core i).fld fCoreSuspectFailed = 1 || s.linkReported i) then .next s
  else
    let s := s.failCore i
    if (s.core i).fld fCoreCheckRole = 2 then .next (s.leaveGroup i)
    else match s.regionOf (clusterOfCore i), s.logicalX i with
      | some r, some _ =>
        if s.rgn r fRgnStatusState = 2 || (s.rgn r fRgnStatusState = 1 && (s.rgnSt r).image) then .next (s.resetJob r) else .next s
      | _, _ => .next s

/-- A ready region that has been loaded, wholly or in part, since its reset is reset again: the cores that a remap gives it are wiped, and its image is loaded
again for all (R19, R408, R421). (DEDUCED, log entry 128.) -/
def State.reload (s : State) (r : Nat) : State :=
  if (s.rgnSt r).image || (s.images.loads.look (r + 1) none).isSome then s.enterWiping r true else s

/-- REPAIR_REMAP: steps 2 to 4 for a failed core whose regions are ready: the map records it, the links of its row and of those beside it are written
again, and the failure is reported with its entry; where the row is left short, or the cluster has failed, its region as needing a new mapping (R422). -/
def execRepairRemap (i : CoreId) (s : State) : Out :=
  let n := clusterOfCore i
  let row := rowOf i
  if s.dev = .up && s.repair.failed.contains i.val && (s.regionsUsing n).all (fun r => decide (s.rgn r fRgnStatusState = 1)) then
    let v := s.voteWhere (fun a => (repairCores row).any (fun j => decide (a = (rowReg (rowOf j) fRstRowmapFailQx).off)))
    if !v.1 then .next v.2 else
    let s := v.2
    let s := (s.mapOut i).writeMesh (repairCores row)
    let s := (s.regionsUsing n).foldl State.reload { s with repair := { s.repair with failed := s.repair.failed.filter (fun j => j != i.val) } }
    let short := s.fld (rowReg row fRstRowmapShort) = 1 || s.outOfService n
    let s := s.note (.repairEntry (coreEntry i) short)
    .next (if short then s.needMapping n else s)
  else .next s

/-! ## Exemplars (R430 to R432) -/

/-- A run of bytes of the staging space. -/
def State.staged (s : State) (first n : Nat) : List Byte :=
  ((List.range (ceilDiv (first % 8 + n) 8)).flatMap (fun j => bytesOfWord (s.reg (fScrExStageData.off + 8 * (first / 8 + j)))) |>.drop (first % 8)).take n

/-- The record that is staged: it ends where its container's length says. -/
def State.stagedRecord (s : State) : List Byte := s.staged 0 (min (128 + numAt (s.staged 136 8) 0 8 + 96) (2 ^ 20))

/-- Whether a record is accepted (R430). -/
def State.recordOk (s : State) (bs : List Byte) : Bool :=
  let body := bs.drop 128
  let len := numAt body 8 8
  let inner := body.take len
  let c := readContainer inner
  let t : Site := ⟨0, 0, 1, 1⟩
  let blank := { s with cores := [], clusters := [] }
  numAt bs 0 4 = 0x5845574B && numAt bs 4 2 = 1 && numAt bs 6 1 ≤ 4 && numAt bs 7 1 = 0 && ((bs.drop 80).take 48).all (fun b => b = 0) &&
  bs.length = 128 + len + 96 && Config.wiarnSigned 1 (bs.take (128 + len)) (bs.drop (128 + len)) &&
  (s.headFailures c 1 inner.length (48 * 64 * 2 ^ 20) false).all (fun f => decide (f.1 = 2)) && (s.needFailures t c).isEmpty && (blank.bodyFailures t c).isEmpty

/-- The record that a list of bytes holds. -/
def readRecord (bs : List Byte) : Exemplar :=
  { id := BitVec.ofNat 64 (numAt bs 8 8), kind := numAt bs 6 1, outBase := numAt bs 16 4, outWords := numAt bs 20 4, expected := (bs.drop 24).take 48
    runLimit := numAt bs 72 8, container := (bs.drop 128).take (numAt bs 136 8) }

/-- The held records, with their number. -/
def State.setExemplars (s : State) (l : List Exemplar) : State :=
  { s with repair := { s.repair with exemplars := l } }.setFld fScrExStatusHeld l.length

/-- The staged record is accepted, in place of one with its identifier, or sets stage_err. -/
def State.commitExemplar (s : State) : State :=
  let bs := s.stagedRecord
  let x := readRecord bs
  let others := s.repair.exemplars.filter (fun y => y.id != x.id)
  if s.recordOk bs && others.length < 64 then s.setExemplars (others ++ [x]) else s.setFld fScrExStatusStageErr 1

/-- EXEMPLAR_COMMIT: a write of SCR_EX_CMD.commit. -/
def execExemplarCommit (s : State) : Out := if s.serving then .next s.commitExemplar else .next s

/-- EXEMPLAR_CLEAR_ALL: a write of SCR_EX_CMD.clear_all. -/
def execExemplarClearAll (s : State) : Out := if s.serving then .next (s.setExemplars []) else .next s

/-- Whether a core has passed an exemplar within a number of seconds. -/
def State.passedWithin (s : State) (secs i : Nat) : Bool :=
  (s.core i).fld fCoreExLastValid = 1 && decide (s.fld fTimeSecSec ≤ (s.core i).fld fCoreExLastSec + secs)

/-- Whether an exemplar may run on a core outside regions: a core of no region, or a spare that neither repair nor a check group uses. -/
def State.idleCore (s : State) (i : Nat) : Bool :=
  let n := clusterOfCore i
  i < 8064 && s.alive n && s.ck n fClkClStatusFailed = 0 && (s.core i).fld fCoreSuspectFailed = 0 && (s.core i).fld fCoreCheckRole = 0 &&
  (((s.ownerOf n).isNone && (s.logicalX i).isSome) || s.spareOf (pxOf i / 7) (pyOf i) = some i)

/-- Whether a ready region is due for an exemplar: a core has gone more than half the cadence without a pass. -/
def State.exemplarDue (s : State) (r : Nat) : Bool :=
  s.rgn r fRgnStatusState = 1 && (s.rectCores r).any (fun i => (s.logicalX i).isSome && !s.passedWithin (1800 * s.fld fScrExCtrlCadenceH) i)

/-- The place of a core in an exemplar's image: its own in its cluster, and the first of its row for a spare (R8, R431). -/
def State.exPlace (s : State) (i : Nat) : Nat × Nat := (((s.logicalX i).getD 0) % 6, pyOf i % 8)

/-- A core wiped, loaded with the sections that target its place, and started as at region start, under the Scribe Complex (R431). -/
def State.exStart (s : State) (c : Container) (i : Nat) : State :=
  let p := s.exPlace i
  let load (k : Core) (x : Section) : Core :=
    match x.cores.findIdx? (fun q => decide (q = p)) with
    | some j => k.load (s.env i) x j
    | none => k
  s.setCore i ((c.sections.foldl load (s.core i).wipe.wiped).start 0 true)

/-- The ligature units of the clusters that a run takes whole: those of its cores that no running region uses. -/
def State.exLigs (s : State) (c : Container) (n : Nat) : State :=
  if (s.ownerOf n).any (fun r => s.rgn r fRgnStatusState != 1) then s
  else s.mapCluster n (fun k => ((c.sections.filter (fun x => decide (x.type = 0x13))).foldl Cluster.load k.wipe).start)

/-- A run's cores loaded from its record and started, its time with them. (DESIGN CHOICE, log entry 82.) -/
def State.exBegin (s : State) (y : Exemplar) (is : List Nat) : State :=
  let c := readContainer y.container
  is.foldl (fun s i => s.exStart c i) (((is.map clusterOfCore).eraseDups).foldl (fun s n => s.exLigs c n) s)

/-- The output areas of a run's cores, in the order of their places (R430). -/
def State.exOutput (s : State) (y : Exemplar) (is : List Nat) : List Byte :=
  (sortBy (fun i => 6 * (s.exPlace i).2 + (s.exPlace i).1) is).flatMap (fun i =>
    (List.range y.outWords).flatMap (fun k => bytesOfWord ((s.core i).well.mem.word (y.outBase + k))))

/-- A run's cores as it leaves them: those outside regions wiped (R431). -/
def State.exStop (s : State) (x : ExRun) : State := x.cores.foldl (fun s i => s.mapCore i (fun c => c.wipe.wiped)) s

/-- EXEMPLAR_RUN: the Scribe runs a held exemplar on idle cores, or on the cores of a ready region. (DESIGN CHOICE, log entry 82.) -/
def execExemplarRun (id : Word) (cores : List CoreId) (region : Option (Fin 64)) (s : State) : Out :=
  let is := cores.map (fun i => i.val)
  let where_ := match region with
    | none => is.all s.idleCore
    | some r => s.exemplarDue r.val && is.all (fun i => (s.rectCores r.val).contains i && (s.logicalX i).isSome)
  let busy := s.repair.runs.any (fun x => x.cores.any is.contains)
  match s.repair.exemplars.find? (fun y => decide (y.id = id)) with
  | none => .next s
  | some y =>
    if s.serving && s.fld fScrExCtrlRunEn = 1 && !is.isEmpty && !busy && where_ then
      let s := { s with repair := { s.repair with runs := s.repair.runs ++ [(⟨id, is, false, region.map (fun (r : Fin 64) => r.val), s.mono⟩ : ExRun)] } }
      .next ((s.exBegin y is).bump fScrExRunsCount 1)
    else .next s

/-- A core passes: the time is recorded, and a pass on a repeat adds one to its score. -/
def State.pass (s : State) (again : Bool) (i : Nat) : State :=
  let s := s.mapCore i (fun c => (c.setFld fCoreExLastSec (s.fld fTimeSecSec)).setFld fCoreExLastValid 1)
  if again then s.score i else s

/-- A region all of whose cores have passed within the cadence is no longer overdue. -/
def State.settleOverdue (s : State) (r : Nat) : State :=
  if ((s.rectCores r).filter (fun i => (s.logicalX i).isSome)).all (s.passedWithin (3600 * s.fld fScrExCtrlCadenceH)) then
    s.setRgn r fRgnCheckStatusExOverdue 0
  else s

/-- Whether a run has come to its end: every core of it has stopped, one has trapped or halted, or run_limit microseconds are over (R432). -/
def State.exOver (s : State) (x : ExRun) (y : Exemplar) : Bool :=
  x.cores.all (fun i => (s.core i).ctl.stopped) || x.cores.any (fun i => (s.core i).ctl.trapSeen || (s.core i).ctl.halted) ||
  decide (x.since + 1000 * y.runLimit < s.mono)

/-- Whether a run passes: it ended within run_limit, every core of it by stopping with no trap or halt, and the digest of its output areas is the one expected. -/
def State.exPasses (s : State) (x : ExRun) (y : Exemplar) : Bool :=
  x.cores.all (fun i => (s.core i).ctl.stopped && !(s.core i).ctl.trapSeen && !(s.core i).ctl.halted) &&
  decide (s.mono ≤ x.since + 1000 * y.runLimit) && Config.sha384 (s.exOutput y x.cores) = y.expected

/-- EXEMPLAR_RUN_END: a run has ended, as its cores and the time show. It passes, is repeated, or fails its cores; a region it ran in is reset once more. The log has
the failed cores before the failed exemplar, each in cluster order (R443). -/
def execExemplarRunEnd (idx : Nat) (_ : Unit) (_ : Unit) (s : State) : Out :=
  match s.repair.runs[idx]? with
  | none => .next s
  | some x =>
    match s.repair.exemplars.find? (fun y => y.id = x.id) with
    | none => .next { s with repair := { s.repair with runs := s.repair.runs.eraseIdx idx } }
    | some y =>
      if s.dev != .up || !s.exOver x y then .next s
      else
        let pass := s.exPasses x y
        let done (s : State) : State :=
          let s := { s with repair := { s.repair with runs := s.repair.runs.eraseIdx idx } }
          match x.region with
          | some r => if s.rgn r fRgnStatusState = 1 then (s.settleOverdue r).enterWiping r true else s
          | none => s.exStop x
        let is := sortBy clusterOfCore x.cores
        if pass then .next (done (x.cores.foldl (State.pass · x.again) s))
        else
          let s := s.bump fScrExFailsCount 1
          let report (s : State) : State := is.foldl (fun (s : State) i =>
            s.logEvent 0x10 1 (clusterOfCore i) (s.regionOf (clusterOfCore i)) (Config.exemplarDetail x.id i)) s
          if x.again then .next (done (report (is.foldl State.failCore s)))
          else
            let s := report s
            let s := { s with repair := { s.repair with runs := s.repair.runs.set idx { x with again := true, since := s.mono } } }
            .next ((s.exBegin y x.cores).bump fScrExRunsCount 1)

/-- EXEMPLAR_OVERDUE: a core of a region has no pass within cadence_h hours, counted from the start of the device where it has none. -/
def execExemplarOverdue (i : CoreId) (s : State) : Out :=
  let secs := 3600 * s.fld fScrExCtrlCadenceH
  match s.regionOf (clusterOfCore i), s.logicalX i with
  | some r, some _ =>
    if s.dev = .up && !s.passedWithin secs i && s.timeBase.began + secs * 10 ^ 9 ≤ s.mono && s.rgn r fRgnCheckStatusExOverdue = 0 then
      .next ((s.setRgn r fRgnCheckStatusExOverdue 1).note (.regionOverdue r))
    else .next s
  | _, _ => .next s

end Sys2Proof.Machine
end

