-- ==== Sys2Proof/Machine/Debug.lean ====
section
/-! DEFINITION. Counters, the event log, freezes, the blotter and the TAP (rows COUNTER_SNAP to BYPASS; R438 to R450). -/

namespace Sys2Proof.Machine

/-! ## Counter snaps (R438 to R441) -/

/-- Whether a register of a block's tables is a counter. -/
def isCounter (rows : List RegRow) (first : List Nat) (off : Nat) : Bool := (findReg rows off).any (fun r => first.contains r.base)

/-- The bases of the core blocks that hold counters. -/
def coreViews : List Nat := [0x0, 0x1000, 0x2000, 0x3000, 0x4000, 0x6000, 0x20000]

/-- The bases of the rim blocks that hold counters. -/
def rimViews : List Nat :=
  [0x0, 0x200000, 0x280000, 0x2A0000, 0x2B0000, 0x2C0000, 0x2C4000, 0x2C8000] ++ (List.range 16).map (fun p => 0x2D0000 + 0x1000 * p)

/-- The shadows of a unit: its counters as they stand, and the snap tag at word 0 of each view. (DEDUCED, log entry 85.) -/
def snapped (rows : List RegRow) (first views : List Nat) (seq : Nat) (t : Tbl Word) : Tbl Word :=
  views.foldl (fun (t : Tbl Word) v => t.put v (BitVec.ofNat 64 (seq % 2 ^ 32 + 2 ^ 32)) 0) (t.filter (fun x => isCounter rows first x.1))

/-- A core's shadows, with the count of discarded events, which its control unit holds. -/
def Core.snap (seq : Nat) (c : Core) : Core :=
  { c with shadow := (snapped coreRegs coreCounters coreViews seq c.regs).put fCoreEvtStaleCount.off (BitVec.ofNat 64 (c.ctl.evtStale % 2 ^ 32)) 0 }

/-- A cluster's shadows. -/
def Cluster.snap (seq : Nat) (k : Cluster) : Cluster := { k with shadow := snapped clusterRegs clusterCounters [0] seq k.regs }

/-- Every counter copies into its shadow: of each cluster whose clock runs and that the flood has reached, with its cores, and of the rim (R256, R439). -/
def State.copyAll (s : State) (seq : Nat) : State :=
  let s := (s.dbg.reach.filter s.alive).foldl (fun (s : State) n =>
    (clusterCores n).foldl (fun (s : State) i => s.mapCore i (Core.snap seq)) (s.mapCluster n (Cluster.snap seq))) s
  { s with rimShadow := snapped rimRegs rimCounters rimViews seq s.rim }

/-- A snap is armed for a target time, in place of one that is pending, and the time base floods the time. -/
def State.armSnap (s : State) (t : Nat) : State :=
  let soon := decide (t < s.time + 10000)
  let s := if soon then s.setFld fDbgSnapStatusLate 1 else s
  let s := if s.fld fDbgSnapStatusPending = 1 then s.setFld fDbgSnapStatusReplaced 1 else s
  let s := s.flood
  { s with dbg := { s.dbg with snap := some (if soon then s.tickIn 10000 else t), reach := s.flooded } }.setFld fDbgSnapStatusPending 1

/-- The pending snap copies. -/
def State.takeSnap (s : State) (t : Nat) : State :=
  let seq := (s.fld fDbgSnapStatusSeq + 1) % 2 ^ 32
  let s := ((s.copyAll seq).setFld fDbgSnapStatusSeq seq).setFld fDbgSnapStatusPending 0
  { s.setReg fDbgSnapTimeTime.off (BitVec.ofNat 64 t) with dbg := { s.dbg with snap := none } }

/-- SNAP_AT_WRITE: a write of DBG_SNAP_AT. -/
def execSnapAtWrite (time : Word) (s : State) : Out := if s.dev = .up then .next (s.armSnap time.toNat) else .next s

/-- SNAP_COPY: the snap's time has come. -/
def execSnapCopy (s : State) : Out :=
  match s.dbg.snap with
  | some t => if s.dev = .up && t ≤ s.time then .next (s.takeSnap t) else .next s
  | none => .next s

/-- COUNTER_SNAP: the management controller arms a snap. (DEDUCED, log entry 86.) -/
def execCounterSnap (s : State) : Out :=
  match s.payload 0x30 with
  | none => .next s
  | some p =>
    if s.dev != .up then .next s
    else match badPayload p 8 [(0, 8, true)] with
      | some o => .next (s.answer 0x30 2 (detailWord o))
      | none => .next ((s.armSnap (numAt p 0 8)).answer 0x30 0 [])

/-! ## The log (R436, R442, R443) -/

/-- A write of AOI_LOG_WR logs a firmware entry, for a code from 0x80 on; `bad` says that the entry's readback differs. -/
def State.firmwareLog (s : State) (v : Word) (bad : Bool) : State :=
  if fieldOf v 0 8 < 0x80 then s
  else
    let lost := decide (s.fld fAoiLogStatusLogLost = 1)
    let s := s.logEvent (fieldOf v 0 8) (fieldOf v 8 2) 0xFF none (s.reg fAoiLogWrDetailDetail.off)
    if bad && !lost then s.loseLog else s

/-- FIRMWARE_LOG_WRITE. -/
def execFirmwareLogWrite (value : Word) (bad : Bool) (s : State) : Out := if s.dev = .up then .next (s.firmwareLog value bad) else .next s

/-- Entries of the log from a first sequence number, up to a count, each of 32 bytes. -/
def logBytes (first count : Nat) (l : List LogEntry) : List Byte :=
  ((l.filter (fun e => decide (first ≤ e.seq))).take count).flatMap (fun e => e.words.flatMap bytesOfWord)

/-- Whether a read of entries from a first sequence number, up to a count, meets a place where an upset has struck. -/
def State.logSpoiled (s : State) (first count : Nat) : Bool :=
  ((s.log.filter (fun e => decide (first ≤ e.seq))).take count).any (fun e => s.logBad.look (logPlace e.seq) false)

/-- LOG_READ: the first sequence number is in bytes 0 to 3 and the count in bytes 4 to 7; `bad` says that the read meets an uncorrectable error. A frozen
device answers it too. -/
def execLogRead (bad : Bool) (s : State) : Out :=
  match s.payload 0x31 with
  | none => .next s
  | some p =>
    if s.dev != .up && s.dev != .frozen then .next s
    else match badPayload p 8 [(0, 4, true), (4, 4, decide (numAt p 4 4 ≤ 250))] with
      | some o => .next (s.answer 0x31 2 (detailWord o))
      | none => .next ((if bad || s.logSpoiled (numAt p 0 4) (numAt p 4 4) then s.loseLog else s).answer 0x31 0 (logBytes (numAt p 0 4) (numAt p 4 4) s.log))

/-! ## Freezes (R444, R445) -/

/-- A freeze is armed by a message or a write of DBG_FREEZE_AT. -/
def State.armFreeze (s : State) (t : Nat) : State :=
  let soon := decide (t < s.time + 2000)
  (s.freezeAt (if soon then s.tickIn 2000 else t) 1).setFld fDbgFreezeStatusLate (bit soon)

/-- FREEZE. -/
def execFreeze (s : State) : Out :=
  match s.payload 0x51 with
  | none => .next s
  | some p =>
    if s.dev != .up then .next s
    else match badPayload p 8 [(0, 8, true)] with
      | some o => .next (s.answer 0x51 2 (detailWord o))
      | none => .next ((s.armFreeze (numAt p 0 8)).answer 0x51 0 [])

/-- FREEZE_N_LOW: FREEZE_N has been low for a microsecond; before phase 2 the low waits for it. (DEDUCED, log entry 87.) -/
def execFreezeNLow (s : State) : Out :=
  match s.dev with
  | .up =>
    if s.fld fRstStatusPhase < 2 then .next { s with island := { s.island with freezeLow := true } }
    else .next ((s.freezeAt (s.tickIn 2000) 0).setFld fDbgFreezeStatusLate 0)
  | .inReset => .next { s with island := { s.island with freezeLow := true } }
  | _ => .next s

/-- FREEZE_TICK: at the freeze tick every domain but the island stops, after a snap due at the same tick; the island asserts FAULT_N and logs it. -/
def execFreezeTick (s : State) : Out :=
  match s.dbg.freeze with
  | none => .next s
  | some f =>
    if s.dev = .up && f ≤ s.time then
      let s := match s.dbg.snap with
        | some t => if t ≤ s.time then s.takeSnap t else s
        | none => s
      let s := (s.setFld fDbgFreezeStatusFrozen 1).faultOn .freeze
      let s := s.logEvent 0x0E 2 0xFF none (s.reg fDbgFreezeStatusArmed.off)
      .next (({ s with dev := .frozen }.fusePads ((List.range 32).drop 16)).note (.island .freeze)).settle
    else .next s

/-! ## The blotter (R447, R448) -/

/-- Whether the blotter is closed: in Service and Retired. -/
def State.blotClosed (s : State) : Bool := s.lifecycle = 2 || s.lifecycle = 4

/-- Selecting a chain sets its position to 0. -/
def State.blotSelect (s : State) (v : Word) : State :=
  (s.setReg fDbgBlotSelChain.off (BitVec.ofNat 64 (fieldOf v 0 8))).setReg fDbgBlotPosPosition.off 0

/-- DBG_BLOT_SEL_WRITE. -/
def execDbgBlotSelWrite (value : Word) (s : State) : Out :=
  if s.dev = .up || s.dev = .frozen then .next (s.blotSelect value) else .next s

/-- The next 64 bits of the selected chain, with the position advanced; zero while the blotter is closed or the device not frozen, and past the chain's
length. -/
def State.blotRead (s : State) : Word × State :=
  if s.blotClosed || s.dev != .frozen then (0, s)
  else
    let k := s.fld fDbgBlotSelChain
    let p := s.fld fDbgBlotPosPosition
    let len := if k ≤ 162 then (Config.blotLen k).toNat else 0
    let w := (List.range 64).foldl (fun w j => if p + j < len && Config.blotBit s.mono k (p + j) then putField w j 1 1 else w) (0 : Word)
    (w, s.setReg fDbgBlotPosPosition.off (BitVec.ofNat 64 ((p + 64) % 2 ^ 32)))

/-- DBG_BLOT_DATA_READ. -/
def execDbgBlotDataRead (s : State) : Out :=
  if s.dev = .up || s.dev = .frozen then
    let r := s.blotRead
    .next { r.2 with lastRead := r.1 }
  else .next s

/-! ## The TAP (R448, R449) -/

/-- Whether the TAP is powered: VDD_AON is up and the rails have not been removed. -/
def State.tapOn (s : State) : Bool := s.dev != .off && s.dev != .stopped

/-- Whether the instructions that drive pins are accepted: while RESET_N holds the device in reset, or while it is frozen. -/
def State.tapDrives (s : State) : Bool := s.dev = .frozen || (s.dev = .inReset && s.island.resetLow)

/-- The outputs outside the island under an instruction of the TAP: the boundary tests and CLAMP drive them from the boundary register, HIGHZ releases them, and after any of these
another returns them, in reset to their fuse-defined states, and otherwise to the block, with its lanes idle as a freeze leaves them (R444, R449). -/
def State.tapPads (s : State) (ir : Nat) : State :=
  if ir = 4 then s.setPads outerOutputs (fun _ => .highZ)
  else if [0, 3, 5, 6].contains ir then s.setPads outerOutputs (fun _ => .boundary)
  else if [0, 3, 4, 5, 6].contains s.dbg.tap.ir then
    let s := s.fusePads outerOutputs
    if s.dev = .inReset then s else s.setPads [12, 13, 15] (fun _ => .signal)
  else s

/-- The TAP with an instruction in force and what a scan of its data register gives. -/
def State.setTap (s : State) (ir : Nat) (dr : Word) : State :=
  let s := s.tapPads ir
  { s with dbg := { s.dbg with tap := { s.dbg.tap with ir := ir, dr := dr } } }

/-- An instruction that acts as BYPASS. -/
def State.bypass (s : State) : State := s.setTap 0x1F 0

/-- The boundary register after a capture at the pins and an update. -/
def State.boundary (s : State) (pins load : List Bool) : State :=
  { s with dbg := { s.dbg with tap := { s.dbg.tap with captured := pins, boundary := load } } }

/-- An instruction that drives pins, or BYPASS where it is refused. -/
def State.tapDrive (s : State) (ir : Nat) : State :=
  if s.tapDrives then s.setTap ir 0 else (s.setFld fDbgStatusJtagRefused 1).bypass

/-- A boundary test: the pins' levels are captured, and the levels loaded are driven. -/
def State.boundaryTest (s : State) (ir : Nat) (pins load : List Bool) : State :=
  if !s.tapOn then s
  else
    let t := s.tapDrive ir
    if s.tapDrives then t.boundary pins load else t

/-- EXTEST. -/
def execExtest (pins load : List Bool) (s : State) : Out := .next (s.boundaryTest 0 pins load)

/-- EXTEST_PULSE. -/
def execExtestPulse (pins load : List Bool) (s : State) : Out := .next (s.boundaryTest 5 pins load)

/-- EXTEST_TRAIN. -/
def execExtestTrain (pins load : List Bool) (s : State) : Out := .next (s.boundaryTest 6 pins load)

/-- SAMPLE/PRELOAD. -/
def execSamplePreload (pins load : List Bool) (s : State) : Out := if s.tapOn then .next ((s.setTap 1 0).boundary pins load) else .next s

/-- The identification register: its revision and manufacturer are fuses, the part number and the low bit are given. -/
def idcode : Word := (putField (putField Config.debugId 12 16 0xB202) 0 1 1) &&& maskOf 0 32

/-- The word of DBG_ID: the identification register and the die revision. -/
def debugIdWord : Word := putField idcode 32 4 (fieldOf idcode 28 4)

/-- IDCODE. -/
def execIdcode (s : State) : Out := if s.tapOn then .next (s.setTap 2 idcode) else .next s

/-- CLAMP. -/
def execClamp (s : State) : Out := if s.tapOn then .next (s.tapDrive 3) else .next s

/-- HIGHZ. -/
def execHighz (s : State) : Out := if s.tapOn then .next (s.tapDrive 4) else .next s

/-- BLOTTER: a scan reads DBG_BLOT_DATA; it acts as BYPASS while the blotter is closed. -/
def execBlotter (s : State) : Out :=
  if !s.tapOn then .next s
  else if s.blotClosed then .next s.bypass
  else
    let r := s.blotRead
    .next (r.2.setTap 0x11 r.1)

/-- BYPASS. -/
def execBypass (s : State) : Out := if s.tapOn then .next s.bypass else .next s

end Sys2Proof.Machine
end

