-- ==== Sys2Proof/Machine/Functions.lean ====
section
/-! DEFINITION. The functions of vx.fn (R129): the binary32 value nearest the exact mathematical value. The algebraic functions
are decided exactly; the transcendental ones are enclosed between two integers at a stated precision, and the enclosure is
rounded at both ends. -/

namespace Sys2Proof.Machine

/-- The result of a function before rounding: an exact value, or a magnitude strictly between `lo·2^e` and `hi·2^e` that no
binary32 number equals. -/
inductive FnVal where
  | exact (v : Num)
  | between (neg : Bool) (lo hi : Nat) (e : Int)
  deriving DecidableEq, Repr

/-- An interval of integers, both ends included. -/
structure Iv where
  lo : Int
  hi : Int
  deriving DecidableEq, Repr

/-- The integer square root, rounded down: `b` more bits are decided from the top, `r` holding those already decided. -/
def isqrtBits (n : Nat) : Nat → Nat → Nat
  | 0, r => r
  | b + 1, r =>
    let t := r + 2 ^ b
    isqrtBits n b (if t * t ≤ n then t else r)

/-- The integer square root, rounded down. -/
def isqrt (n : Nat) : Nat := isqrtBits n (Nat.log2 n / 2 + 1) 0

/-- The terms `num / (den·(2i + 1)·sq^i)` of an inverse tangent series in units of `2^-p`, from `i`, alternating or not. -/
def atanTerms (alt : Bool) (sqn sqd : Nat) : Nat → Nat → Nat → Int
  | 0, _, _ => 0
  | fuel + 1, i, term =>
    let t : Int := (term / (2 * i + 1) : Nat)
    (if alt && i % 2 = 1 then -t else t) + atanTerms alt sqn sqd fuel (i + 1) (term * sqn / sqd)

/-- The inverse tangent, circular or hyperbolic, of `a / b` (at most one half) in units of `2^-p`, as an interval. -/
def atanIv (alt : Bool) (a b p : Nat) : Iv :=
  let n := p + 8
  let c := atanTerms alt (a * a) (b * b) n 0 (a * 2 ^ p / b)
  ⟨c - 2 * n, c + 2 * n⟩

/-- The natural logarithm of two in units of `2^-p`: twice the hyperbolic inverse tangent of one third. -/
def ln2Iv (p : Nat) : Iv :=
  let t := atanIv false 1 3 p
  ⟨2 * t.lo, 2 * t.hi⟩

/-- The circle constant in units of `2^-p`, by Machin's identity. -/
def piIv (p : Nat) : Iv :=
  let a := atanIv true 1 5 p
  let b := atanIv true 1 239 p
  ⟨16 * a.lo - 4 * b.hi, 16 * a.hi - 4 * b.lo⟩

/-- The terms of the exponential series of `t` (in units of `2^-p`), from term `i`, each rounded down. -/
def expTerms (t p : Nat) : Nat → Nat → Nat → Nat
  | 0, _, _ => 0
  | fuel + 1, i, term => term + expTerms t p fuel (i + 1) (term * t / 2 ^ p / (i + 1))

/-- The exponential of `t` in units of `2^-p`, for `t` from 0 to 1, as an interval. -/
def expIv (t : Iv) (p : Nat) : Iv :=
  let n := p + 8
  ⟨(expTerms t.lo.toNat p n 0 (2 ^ p) : Int), (expTerms (t.hi.toNat + 1) p n 0 (2 ^ p) : Int) + 2 * n⟩

/-- The value `m·2^e` in units of `2^-p`, exact when `-p` is at most `e`. -/
def fixOf (s : Bool) (m : Nat) (e : Int) (p : Nat) : Int := scaledInt s m e (-(p : Int))

/-- `e^x` for `x` in units of `2^-p`, as an interval in units of `2^(i - p)`, with `i`. -/
def expOf (x : Iv) (p : Nat) : Iv × Int :=
  let l := ln2Iv p
  let i := x.lo / l.lo
  let r : Iv := if 0 ≤ i then ⟨x.lo - i * l.hi, x.hi - i * l.lo⟩ else ⟨x.lo - i * l.lo, x.hi - i * l.hi⟩
  -- the reduced argument may fall short of zero by the width of the enclosure
  if r.lo < 0 then (expIv ⟨r.lo + l.lo, r.hi + l.hi⟩ p, i - 1) else (expIv r p, i)

/-- An interval as an unsigned enclosure. -/
def encl (neg : Bool) (v : Iv) (e : Int) : FnVal := .between neg v.lo.toNat v.hi.toNat e

/-- The reciprocal of `m·2^e` (R129, func 0): quotient bits with a sticky last bit. -/
def fnRecip (s : Bool) (m : Nat) (e : Int) : FnVal :=
  let t := Nat.log2 m + 40
  let k := 2 ^ t / m
  .exact (.fin s (2 * k + (if k * m = 2 ^ t then 0 else 1)) (-(t : Int) - e - 1))

/-- The square root of `m·2^e` (R129, func 1): root bits with a sticky last bit. -/
def fnSqrt (m : Nat) (e : Int) : FnVal :=
  let odd := e % 2 = 1
  let m' := if odd then 2 * m else m
  let e' := if odd then e - 1 else e
  let a := m' * 2 ^ 80
  let r := isqrt a
  .exact (.fin false (2 * r + (if r * r = a then 0 else 1)) (e' / 2 - 40 - 1))

/-- The reciprocal square root of `m·2^e` (R129, func 2): root bits with a sticky last bit. -/
def fnRsqrt (m : Nat) (e : Int) : FnVal :=
  let odd := e % 2 = 1
  let m' := if odd then 2 * m else m
  let e' := if odd then e - 1 else e
  let t := 2 * (Nat.log2 m' + 40)
  let r := isqrt (2 ^ t / m')
  .exact (.fin false (2 * r + (if r * r * m' = 2 ^ t then 0 else 1)) (-(t / 2 : Nat) - e' / 2 - 1))

/-- `2^x` (R129, func 3). -/
def fnExp2 (s : Bool) (m : Nat) (e : Int) (p : Nat) : FnVal :=
  if 8 ≤ log2Floor m e then (if s then .between false 1 1 (-400) else .between false 1 1 400)
  else
    let x := fixOf s m e p
    let i := x / 2 ^ p
    let f := x % 2 ^ p
    if f = 0 then .exact (.fin false 1 i)
    else
      let l := ln2Iv p
      encl false (expIv ⟨f * l.lo / 2 ^ p, f * l.hi / 2 ^ p + 1⟩ p) (i - p)

/-- `e^x` (R129, func 5). -/
def fnExp (s : Bool) (m : Nat) (e : Int) (p : Nat) : FnVal :=
  if 8 ≤ log2Floor m e then (if s then .between false 1 1 (-400) else .between false 1 1 400)
  else
    let x := fixOf s m e p
    let (v, i) := expOf ⟨x, x⟩ p
    encl false v (i - p)

/-- The natural logarithm of `m·2^e` in units of `2^-p`, as an interval. -/
def lnIv (m : Nat) (e : Int) (p : Nat) : Iv :=
  let l := Nat.log2 m
  let d := 2 ^ l
  let t := atanIv false (m - d) (m + d) p
  let k := e + l
  let c := ln2Iv p
  let b : Iv := if 0 ≤ k then ⟨k * c.lo, k * c.hi⟩ else ⟨k * c.hi, k * c.lo⟩
  ⟨b.lo + 2 * t.lo, b.hi + 2 * t.hi⟩

/-- A signed interval that does not straddle zero, as an enclosure. -/
def enclSigned (v : Iv) (e : Int) : FnVal :=
  if v.hi ≤ 0 then .between true (-v.hi).toNat (-v.lo).toNat e else .between false v.lo.toNat v.hi.toNat e

/-- The natural logarithm (R129, func 6), of a positive number other than one. -/
def fnLn (m : Nat) (e : Int) (p : Nat) : FnVal := enclSigned (lnIv m e p) (-p)

/-- The base-2 logarithm (R129, func 4) of a positive number: exact for a power of two. -/
def fnLog2 (m : Nat) (e : Int) (p : Nat) : FnVal :=
  let l := Nat.log2 m
  if m = 2 ^ l then
    let k := e + l
    .exact (.fin (decide (k < 0)) k.natAbs 0)
  else
    let v := lnIv m e p
    let c := ln2Iv p
    let q := 2 ^ p
    -- a quotient of an interval by a positive one: the wider divisor on the side that lowers it
    if v.hi ≤ 0 then enclSigned ⟨v.lo * q / c.lo - 1, v.hi * q / c.hi + 1⟩ (-p)
    else enclSigned ⟨v.lo * q / c.hi - 1, v.hi * q / c.lo + 1⟩ (-p)

/-- The hyperbolic tangent (R129, func 7) of a nonzero number. -/
def fnTanh (s : Bool) (m : Nat) (e : Int) (p : Nat) : FnVal :=
  let l := log2Floor m e
  if l < -40 then .between s (m * 2 ^ 90 - m) (m * 2 ^ 90) (e - 90)
  else if 6 ≤ l then .between s (2 ^ 100 - 1) (2 ^ 100) (-100)
  else
    let x := 2 * fixOf false m e p
    let (v, i) := expOf ⟨x, x⟩ p
    let lo := v.lo * 2 ^ i.toNat
    let hi := v.hi * 2 ^ i.toNat
    let one : Int := 2 ^ p
    encl s ⟨(lo - one) * one / (hi + one) - 1, (hi - one) * one / (lo + one) + 1⟩ (-p)

/-- The logistic function (R129, func 8) of a nonzero number. -/
def fnSigmoid (s : Bool) (m : Nat) (e : Int) (p : Nat) : FnVal :=
  if 8 ≤ log2Floor m e then (if s then .between false 1 1 (-400) else .between false (2 ^ 100 - 1) (2 ^ 100) (-100))
  else
    let x := -(fixOf false m e p)
    -- `v` encloses `e^-|x|` in units of `2^(i - p)`, `i` being at most zero
    let (v, i) := expOf ⟨x, x⟩ p
    let up : Int := 2 ^ (p + (-i).toNat)
    if s then encl false ⟨v.lo * up / (up + v.hi) - 1, v.hi * up / (up + v.lo) + 1⟩ (i - p)
    else encl false ⟨up * 2 ^ p / (up + v.hi) - 1, up * 2 ^ p / (up + v.lo) + 1⟩ (-p)

/-- The terms of the error function's series in units of `2^-p`: `x^(2i+1) / i! / (2i + 1)`, alternating. -/
def erfTerms (x2 p : Nat) : Nat → Nat → Nat → Int
  | 0, _, _ => 0
  | fuel + 1, i, term =>
    let t : Int := (term / (2 * i + 1) : Nat)
    (if i % 2 = 1 then -t else t) + erfTerms x2 p fuel (i + 1) (term * x2 / 2 ^ (2 * p) / (i + 1))

/-- The error function (R129, func 9) of a nonzero number. -/
def fnErf (s : Bool) (m : Nat) (e : Int) (p : Nat) : FnVal :=
  let l := log2Floor m e
  let pi := piIv p
  -- the square root of the circle constant, in units of `2^-p`
  let r : Iv := ⟨isqrt (pi.lo.toNat * 2 ^ p), isqrt (pi.hi.toNat * 2 ^ p) + 1⟩
  let one : Int := 2 ^ p
  let c : Iv := ⟨2 * one * one / r.hi, 2 * one * one / r.lo + 1⟩
  if l < -40 then .between s (m * (c.lo * 2 ^ 90 - c.lo).toNat) (m * (c.hi * 2 ^ 90).toNat) (e - 90 - p)
  else if 2 ≤ l then .between s (2 ^ 100 - 2 ^ 74) (2 ^ 100) (-100)
  else
    let x := (fixOf false m e p).toNat
    let n := p + 40
    let t := erfTerms (x * x) p n 0 x
    let slack : Int := 2 ^ 30 * n
    encl s ⟨(t - slack) * c.lo / one - 1, (t + slack) * c.hi / one + 1⟩ (-p)

/-- The value of a function at a precision (R129), with its special values. -/
def fnVal (func : Nat) (x : Num) (p : Nat) : FnVal :=
  match x with
  | .nan => .exact .nan
  | .inf s =>
    match func with
    | 0 => .exact (.fin s 0 0)
    | 1 => if s then .exact .nan else .exact (.inf false)
    | 2 => if s then .exact .nan else .exact (.fin false 0 0)
    | 3 => if s then .exact (.fin false 0 0) else .exact (.inf false)
    | 4 => if s then .exact .nan else .exact (.inf false)
    | 5 => if s then .exact (.fin false 0 0) else .exact (.inf false)
    | 6 => if s then .exact .nan else .exact (.inf false)
    | 7 => .exact (.fin s 1 0)
    | 8 => if s then .exact (.fin false 0 0) else .exact (.fin false 1 0)
    | _ => .exact (.fin s 1 0)
  | .fin s m e =>
    if m = 0 then
      match func with
      | 0 => .exact (.inf s)
      | 1 => .exact (.fin s 0 0)
      | 2 => .exact (.inf s)
      | 3 => .exact (.fin false 1 0)
      | 4 => .exact (.inf true)
      | 5 => .exact (.fin false 1 0)
      | 6 => .exact (.inf true)
      | 7 => .exact (.fin s 0 0)
      | 8 => .exact (.fin false 1 (-1))
      | _ => .exact (.fin s 0 0)
    else
      match func with
      | 0 => fnRecip s m e
      | 1 => if s then .exact .nan else fnSqrt m e
      | 2 => if s then .exact .nan else fnRsqrt m e
      | 3 => fnExp2 s m e p
      | 4 => if s then .exact .nan else fnLog2 m e p
      | 5 => fnExp s m e p
      | 6 => if s then .exact .nan else if m = 2 ^ Nat.log2 m && log2Floor m e = 0 then .exact (.fin false 0 0) else fnLn m e p
      | 7 => fnTanh s m e p
      | 8 => fnSigmoid s m e p
      | _ => fnErf s m e p

/-- The binary32 field and flags nearest a function's value, if the enclosure decides it. -/
def fnRound (v : FnVal) : Option (Nat × BitVec 6) :=
  let f : FloatFmt := ⟨8, 23, 127, true, true⟩
  match v with
  | .exact x => some (roundFloat 0 f ⟨0, 0⟩ false true x)
  | .between s lo hi e =>
    let a := roundFloat 0 f ⟨0, 0⟩ false true (.fin s lo e)
    let b := roundFloat 0 f ⟨0, 0⟩ false true (.fin s hi e)
    if a.1 = b.1 then some (a.1, a.2 ||| b.2 ||| flagInexact) else none

/-- The binary32 field and flags of a function (R129): 220 bits of precision, then 440, then nothing. (DESIGN CHOICE, log entry 16.) -/
def fnEval (func : Nat) (x : Num) : Option (Nat × BitVec 6) :=
  match fnRound (fnVal func x 220) with
  | some r => some r
  | none => fnRound (fnVal func x 440)

end Sys2Proof.Machine
end

