-- ==== Sys2Proof/Machine/Vector.lean ====
section
/-! DEFINITION. The vector engine: its instructions at issue, their start, completion and the operand-port timeout (rows VX_LD to
VX_PORT_LOAD_TIMEOUT; R123 to R138). -/

namespace Sys2Proof.Machine

/-! ## Fields and the checks at issue (R125, R126) -/

/-- The bytes of 64 elements of a format (R132). -/
def vxBytes (fmt : Nat) : Nat := 64 * fmtBits fmt / 8

/-- fmt of vx.ld and vx.st. -/
def vFmt (w : Word) : Nat := fieldOf w 5 4
/-- rmode of vx.ld and vx.st. -/
def vRmode (w : Word) : Nat := fieldOf w 10 3
/-- raw of vx.ld and vx.st. -/
def vRaw (w : Word) : Bool := bitOf w 13
/-- src of vx.ld: the operand port. -/
def vPort (w : Word) : Bool := opOf w = 0xA0 && bitOf w 9
/-- vd, or vs of vx.st. -/
def vVd (w : Word) : Nat := fieldOf w 0 5
/-- va. -/
def vVa (w : Word) : Nat := fieldOf w 5 5
/-- vb. -/
def vVb (w : Word) : Nat := fieldOf w 10 5
/-- vc. -/
def vVc (w : Word) : Nat := fieldOf w 15 5
/-- vm. -/
def vVm (w : Word) : Nat := fieldOf w 20 3
/-- zm. -/
def vZm (w : Word) : Bool := bitOf w 23

/-- Formats, rounding modes and raw that vx.ld and vx.st reserve alike. -/
def resvVxFmt (w : Word) : Bool :=
  decide (12 ≤ vFmt w) || decide (6 ≤ vRmode w) || (vRaw w && vFmt w != 0 && vFmt w != 6) || nz w 15 5

/-- The illegal encodings of vx.ld. -/
def resvVxLd (w : Word) : Bool :=
  let well := !bitOf w 9
  let mx := well && isMx (vFmt w)
  resvE w (vRmode w = 5) mx well mx || resvVxFmt w || nz w 24 6

/-- The illegal encodings of vx.st. -/
def resvVxSt (w : Word) : Bool :=
  let mx := isMx (vFmt w)
  resvE w (vRmode w = 5) mx true mx || resvVxFmt w || vFmt w = 7 || (mx && vVm w != 0) || bitOf w 9 || nz w 23 7

/-- The reserved fields of the two-operand arithmetic. -/
def resvVxOp (w : Word) : Bool := resvE w false false false false || nz w 15 5 || nz w 24 6
/-- The reserved fields of vx.fma. -/
def resvVxFma (w : Word) : Bool := resvE w false false false false || nz w 26 4
/-- The reserved fields and functions of vx.fn. -/
def resvVxFn (w : Word) : Bool := resvE w false false false false || decide (10 ≤ fieldOf w 10 4) || nz w 14 6 || nz w 24 6
/-- The reserved fields and conditions of vx.cmp. -/
def resvVxCmp (w : Word) : Bool :=
  resvE w false false false false || nz w 3 2 || nz w 15 5 || bitOf w 23 || decide (5 ≤ fieldOf w 24 3) || nz w 27 3
/-- The reserved fields of vx.sel. -/
def resvVxSel (w : Word) : Bool := resvE w false false false false || nz w 15 5 || nz w 23 7
/-- The reserved fields of vx.red. -/
def resvVxRed (w : Word) : Bool := resvE w false false false false || nz w 12 8 || bitOf w 23
/-- The reserved fields of vx.perm. -/
def resvVxPerm (w : Word) : Bool := resvE w false false false false || nz w 15 5 || nz w 24 6
/-- The reserved fields of vx.bcast. -/
def resvVxBcast (w : Word) : Bool := resvE w (!bitOf w 14) false false false || nz w 10 4 || nz w 15 5
/-- The reserved fields and operations of vx.mask. -/
def resvVxMask (w : Word) : Bool :=
  let op := fieldOf w 24 3
  resvE w (op = 4 || op = 5) false false false || nz w 3 2 || nz w 8 2 || nz w 13 11 || decide (6 ≤ op) || nz w 27 3
/-- The reserved fields of vx.flags. -/
def resvVxFlags (w : Word) : Bool := resvE w true false false false || nz w 6 24

/-- The byte address of the first scale byte of an MX load or store (R132). -/
def EngOp.scaleByte (o : EngOp) : Nat := 8 * o.ab + fieldOf o.sb 0 20

/-- The runs of words a load or store touches in the well. -/
def vxRuns (o : EngOp) : List (Nat × Nat) :=
  let b := o.scaleByte
  (o.aa, vxBytes (vFmt o.w) / 8) :: (if isMx (vFmt o.w) then [(b / 8, (b + 1) / 8 - b / 8 + 1)] else [])

/-- The address-range check of vx.ld from the well and of vx.st. -/
def checkVxMem (e : Env) (w : Word) (c : Core) : Option (Nat × Nat) :=
  if vPort w then none else rangeIf false w (vxRuns (c.engOp e w))

/-- The vector queue holds sixteen (R56). -/
def Core.vxFull (c : Core) : Bool := decide (16 ≤ c.vx.queue.length)

/-- An instruction enters the vector queue. -/
def vxPut (o : EngOp) (c : Core) : Core := { c with vx := { c.vx with queue := c.vx.queue ++ [o] } }

/-! ## The instructions at issue -/

/-- What vx.ld and vx.st do at issue: sa when they round stochastically, sb for an MX format in the well. -/
def workVxMem (e : Env) (w : Word) (c : Core) : Issue :=
  engIssue 2 (vRmode w = 5) (isMx (vFmt w) && !vPort w) false checkVxMem Core.vxFull vxPut e w c

/-- vx.ld. -/
def execVxLd (i : CoreId) (w : Word) (s : State) : Out := issueRow 0xA0 2 resvVxLd workVxMem i.val w s

/-- vx.st. -/
def execVxSt (i : CoreId) (w : Word) (s : State) : Out := issueRow 0xA1 2 resvVxSt workVxMem i.val w s

/-- A vector instruction that reads no register of the control unit. -/
def workVx : Env → Word → Core → Issue := engIssue 2 false false false checkNone Core.vxFull vxPut

/-- vx.add. -/
def execVxAdd (i : CoreId) (w : Word) (s : State) : Out := issueRow 0xA2 2 resvVxOp workVx i.val w s
/-- vx.sub. -/
def execVxSub (i : CoreId) (w : Word) (s : State) : Out := issueRow 0xA3 2 resvVxOp workVx i.val w s
/-- vx.mul. -/
def execVxMul (i : CoreId) (w : Word) (s : State) : Out := issueRow 0xA4 2 resvVxOp workVx i.val w s
/-- vx.fma. -/
def execVxFma (i : CoreId) (w : Word) (s : State) : Out := issueRow 0xA5 2 resvVxFma workVx i.val w s
/-- vx.min. -/
def execVxMin (i : CoreId) (w : Word) (s : State) : Out := issueRow 0xA6 2 resvVxOp workVx i.val w s
/-- vx.max. -/
def execVxMax (i : CoreId) (w : Word) (s : State) : Out := issueRow 0xA7 2 resvVxOp workVx i.val w s
/-- vx.fn. -/
def execVxFn (i : CoreId) (w : Word) (s : State) : Out := issueRow 0xA8 2 resvVxFn workVx i.val w s
/-- vx.cmp. -/
def execVxCmp (i : CoreId) (w : Word) (s : State) : Out := issueRow 0xA9 2 resvVxCmp workVx i.val w s
/-- vx.sel. -/
def execVxSel (i : CoreId) (w : Word) (s : State) : Out := issueRow 0xAA 2 resvVxSel workVx i.val w s
/-- vx.red. -/
def execVxRed (i : CoreId) (w : Word) (s : State) : Out := issueRow 0xAB 2 resvVxRed workVx i.val w s
/-- vx.perm. -/
def execVxPerm (i : CoreId) (w : Word) (s : State) : Out := issueRow 0xAC 2 resvVxPerm workVx i.val w s

/-- What vx.bcast does at issue: source 0 reads sa. -/
def workVxBcast (e : Env) (w : Word) (c : Core) : Issue :=
  engIssue 2 (!bitOf w 14) false false checkNone Core.vxFull vxPut e w c

/-- vx.bcast. -/
def execVxBcast (i : CoreId) (w : Word) (s : State) : Out := issueRow 0xAD 2 resvVxBcast workVxBcast i.val w s

/-- What vx.mask does at issue: op 4 reads sa, and op 5 has it as its destination. -/
def workVxMask (e : Env) (w : Word) (c : Core) : Issue :=
  engIssue 2 (fieldOf w 24 3 = 4) false (fieldOf w 24 3 = 5) checkNone Core.vxFull vxPut e w c

/-- vx.mask. -/
def execVxMask (i : CoreId) (w : Word) (s : State) : Out := issueRow 0xAE 2 resvVxMask workVxMask i.val w s

/-- vx.flags: sa has a write pending until completion. -/
def execVxFlags (i : CoreId) (w : Word) (s : State) : Out :=
  issueRow 0xAF 2 resvVxFlags (engIssue 2 false false true checkNone Core.vxFull vxPut) i.val w s

/-! ## Lanes and masks (R123, R124) -/

/-- A mask register: vm0 reads as all ones without poison. -/
def Vec.mask (v : Vec) (n : Nat) : Mask := if n % 8 = 0 then ⟨BitVec.allOnes 64, false⟩ else v.masks[n % 8]!

/-- A mask register written: a write to vm0 is discarded. -/
def Vec.setMask (v : Vec) (n : Nat) (m : Mask) : Vec := if n % 8 = 0 then v else { v with masks := v.masks.set! (n % 8) m }

/-- A vector register. -/
def Vec.reg (v : Vec) (n : Nat) : Vector Lane 64 := v.regs[n % 32]!

/-- A lane of a vector register. -/
def Vec.lane (v : Vec) (n l : Nat) : Lane := (v.reg n)[l % 64]!

/-- A vector register written. -/
def Vec.setReg (v : Vec) (n : Nat) (ls : List Lane) : Vec :=
  { v with regs := v.regs.set! (n % 32) (Vector.ofFn (fun l => ls.getD l.val ⟨0, false⟩)) }

/-- A destination register under a mask: the results of active lanes, and for inactive ones the old lane or zero; a poisoned mask poisons
every lane (R124). -/
def mergeLanes (m : Mask) (zm : Bool) (old new : Nat → Lane) : List Lane :=
  (List.range 64).map (fun l =>
    let x := if bitOf m.bits l then new l else if zm then ⟨0, false⟩ else old l
    ⟨x.v, x.poison || m.poison⟩)

/-- The flag for a poisoned mask (R124). -/
def maskFlag (m : Mask) : BitVec 6 := flagIf m.poison flagPoison

/-! ## Arithmetic (R38, R127, R128) -/

/-- Whether a binary32 pattern is a subnormal. -/
def isSub (b : BitVec 32) : Bool := decide (b.toNat / 2 ^ 23 % 2 ^ 8 = 0) && decide (b.toNat % 2 ^ 23 ≠ 0)

/-- A lane value as an instruction reads it: under the compatibility bit a subnormal is zero of its sign (R38). -/
def laneIn (compat : Bool) (b : BitVec 32) : BitVec 32 := if compat && isSub b then b &&& 0x80000000#32 else b

/-- The value of a lane. -/
def laneNum (compat : Bool) (b : BitVec 32) : Num := decodeElem 0 (laneIn compat b).toNat

/-- A result as it is written: under the compatibility bit a subnormal is replaced by zero of its sign, inexact (R38). -/
def laneOut (compat : Bool) (r : Nat × BitVec 6) : BitVec 32 × BitVec 6 :=
  let b := BitVec.ofNat 32 r.1
  if compat && isSub b then (b &&& 0x80000000#32, r.2 ||| flagInexact) else (b, r.2)

/-- One rounding to binary32 to nearest, without saturation, a zero keeping its sign (R127). -/
def round32 (compat : Bool) (v : Num) : BitVec 32 × BitVec 6 :=
  laneOut compat (roundFloat 0 ⟨8, 23, 127, true, true⟩ ⟨0, 0⟩ false true v)

/-- What a NaN among the operands gives: the canonical NaN, or under the compatibility bit the first NaN operand made quiet (R38,
R127). -/
def nanOf (compat : Bool) (xs : List (BitVec 32)) : Option (BitVec 32) :=
  match xs.find? (fun x => (laneNum compat x).isNan) with
  | none => none
  | some x => some (if compat then x ||| 0x00400000#32 else 0x7FC00000#32)

/-- An operation on lanes whose NaN operands are settled first. -/
def withNan (compat : Bool) (xs : List (BitVec 32)) (r : BitVec 32 × BitVec 6) : BitVec 32 × BitVec 6 :=
  match nanOf compat xs with
  | some n => (n, flagNanOut)
  | none => r

/-- vx.add. -/
def vAdd (k : Bool) (a b : BitVec 32) : BitVec 32 × BitVec 6 := withNan k [a, b] (round32 k ((laneNum k a).add (laneNum k b)))

/-- vx.sub adds the negation of vb. -/
def vSub (k : Bool) (a b : BitVec 32) : BitVec 32 × BitVec 6 := withNan k [a, b] (round32 k ((laneNum k a).add (laneNum k b).negate))

/-- vx.mul. -/
def vMul (k : Bool) (a b : BitVec 32) : BitVec 32 × BitVec 6 := withNan k [a, b] (round32 k ((laneNum k a).mul (laneNum k b)))

/-- vx.fma: the exact product is one term with its own sign, and there is a single rounding. -/
def vFma (k na nc : Bool) (a b c : BitVec 32) : BitVec 32 × BitVec 6 :=
  let p := (laneNum k a).mul (laneNum k b)
  let z := laneNum k c
  withNan k [a, b, c] (round32 k ((if na then p.negate else p).add (if nc then z.negate else z)))

/-- vx.min and vx.max return an operand: between zeros, vx.min the negative and vx.max the positive. -/
def vMinMax (k max : Bool) (a b : BitVec 32) : BitVec 32 × BitVec 6 :=
  let x := laneNum k a
  let y := laneNum k b
  let first := if x.eqv y then (x.neg != max) else (x.lt y != max)
  withNan k [a, b] (laneIn k (if first then a else b), 0)

/-- vx.fn: the function's nearest binary32 value (R129). -/
def vFn (k : Bool) (func : Nat) (a : BitVec 32) : BitVec 32 × BitVec 6 :=
  withNan k [a] (match fnEval func (laneNum k a) with
    | some r => laneOut k r
    | none => (Config.fnUndecided func (laneIn k a), flagInexact))

/-- The outcome of a condition of vx.cmp. -/
def vCond (k : Bool) (cond : Nat) (a b : BitVec 32) : Bool :=
  let x := laneNum k a
  let y := laneNum k b
  match cond with
  | 0 => x.eqv y
  | 1 => !x.eqv y
  | 2 => x.lt y
  | 3 => x.lt y || x.eqv y
  | _ => x.isNan || y.isNan

/-! ## What an instruction computes at its start -/

/-- What a vector instruction has computed: lanes, mask, scalar, word writes and flags. -/
structure VxOut where
  lanes : Option (List Lane)
  mask : Option Mask
  scalar : Option (Word × Bool)
  writes : List (List WordWrite)
  flags : BitVec 6
  deriving DecidableEq, Repr

/-- Lanes and flags as the outcome. -/
def vxLanes (ls : List Lane) (f : BitVec 6) : VxOut := ⟨some ls, none, none, [], f⟩

/-- A lane-wise operation over the active lanes, with the poison of its source lanes and its flags. -/
def vxMap (v : Vec) (w : Word) (zm : Bool) (srcs : List Nat) (f : List (BitVec 32) → BitVec 32 × BitVec 6) : VxOut :=
  let m := v.mask (vVm w)
  let r := (List.range 64).map (fun l =>
    let xs := srcs.map (fun n => v.lane n l)
    let y := f (xs.map (fun x => x.v))
    ((⟨y.1, xs.any (fun x => x.poison)⟩ : Lane), y.2))
  let fl := r.zipIdx.foldl (fun a x => if bitOf m.bits x.2 then a ||| x.1.2 else a) 0
  vxLanes (mergeLanes m zm (fun l => v.lane (vVd w) l) (fun l => (r.getD l (⟨0, false⟩, 0)).1)) (fl ||| maskFlag m)

/-- Two-operand use of a function of two. -/
def two (f : BitVec 32 → BitVec 32 → BitVec 32 × BitVec 6) (xs : List (BitVec 32)) : BitVec 32 × BitVec 6 := f (xs.getD 0 0) (xs.getD 1 0)

/-- vx.cmp (R128). -/
def vxCmp (k : Bool) (v : Vec) (w : Word) : VxOut :=
  let m := v.mask (vVm w)
  let on (l : Nat) : Bool := bitOf m.bits l
  let bad (l : Nat) : Bool := (v.lane (vVa w) l).poison || (v.lane (vVb w) l).poison
  let hit (l : Nat) : Bool := on l && !bad l && vCond k (fieldOf w 24 3) (v.lane (vVa w) l).v (v.lane (vVb w) l).v
  let bits := (List.range 64).foldl (fun (t : Word) l => if hit l then t ||| (1#64 <<< l) else t) 0
  ⟨none, some ⟨bits, m.poison || (List.range 64).any (fun l => on l && bad l)⟩, none, [], maskFlag m⟩

/-- vx.sel (R128): a poisoned mask poisons every lane. -/
def vxSel (k : Bool) (v : Vec) (w : Word) : VxOut :=
  let m := v.mask (vVm w)
  vxLanes ((List.range 64).map (fun l =>
    let x := if bitOf m.bits l then v.lane (vVa w) l else v.lane (vVb w) l
    ⟨laneIn k x.v, x.poison || m.poison⟩)) (maskFlag m)

/-- One step of a reduction over pairs: the first operands with the second ones. -/
def redStep (f : BitVec 32 → BitVec 32 → BitVec 32 × BitVec 6) (xs ys : List (BitVec 32)) (fl : BitVec 6) : List (BitVec 32) × BitVec 6 :=
  let r := List.zipWith f xs ys
  (r.map Prod.fst, r.foldl (fun a x => a ||| x.2) fl)

/-- The elements at even places and those at odd places of a list. -/
def evensOdds : List (BitVec 32) → List (BitVec 32) × List (BitVec 32)
  | [] => ([], [])
  | [x] => ([x], [])
  | x :: y :: r =>
    let (a, b) := evensOdds r
    (x :: a, y :: b)

/-- The folds of a reduction: halves at level 3, adjacent pairs under the compatibility bit (R38, R130). -/
def redFold (k : Bool) (f : BitVec 32 → BitVec 32 → BitVec 32 × BitVec 6) : Nat → List (BitVec 32) × BitVec 6 → List (BitVec 32) × BitVec 6
  | 0, x => x
  | n + 1, (xs, fl) =>
    let (a, b) := if k then evensOdds xs else (xs.take (2 ^ n), xs.drop (2 ^ n))
    redFold k f n (redStep f a b fl)

/-- The identity of a reduction's kind (R130). -/
def redIdentity (kind : Nat) : BitVec 32 :=
  match kind with
  | 1 => 0xFF800000#32
  | 2 => 0x7F800000#32
  | _ => 0x80000000#32

/-- The combining operation of a reduction's kind. -/
def redOp (k : Bool) (kind : Nat) : BitVec 32 → BitVec 32 → BitVec 32 × BitVec 6 :=
  match kind with
  | 1 => vMinMax k true
  | 2 => vMinMax k false
  | _ => vAdd k

/-- vx.red (R130). -/
def vxRed (k : Bool) (v : Vec) (w : Word) : VxOut :=
  let kind := fieldOf w 10 2
  let m := v.mask (vVm w)
  let ls := (List.range 64).map (fun l =>
    if bitOf m.bits l then
      let x := (v.lane (vVa w) l).v
      if kind = 3 then vMul k x x else (x, (0 : BitVec 6))
    else (redIdentity kind, 0))
  let r := redFold k (redOp k kind) 6 (ls.map Prod.fst, ls.foldl (fun a x => a ||| x.2) 0)
  let p := m.poison || (List.range 64).any (fun l => bitOf m.bits l && (v.lane (vVa w) l).poison)
  let dl := fieldOf w 24 6
  vxLanes ((List.range 64).map (fun l => if l = dl then ⟨r.1.headD 0, p⟩ else v.lane (vVd w) l)) (r.2 ||| maskFlag m)

/-- vx.perm (R131). -/
def vxPerm (v : Vec) (w : Word) : VxOut :=
  let m := v.mask (vVm w)
  vxLanes (mergeLanes m (vZm w) (fun l => v.lane (vVd w) l) (fun l =>
    let ix := v.lane (vVb w) l
    let x := v.lane (vVa w) (ix.v.toNat % 64)
    ⟨x.v, x.poison || ix.poison⟩)) (maskFlag m)

/-- vx.bcast (R131). -/
def vxBcast (v : Vec) (o : EngOp) : VxOut :=
  let w := o.w
  let m := v.mask (vVm w)
  let x : Lane := if bitOf w 14 then v.lane (vVa w) (fieldOf w 24 6) else ⟨o.sa.setWidth 32, false⟩
  vxLanes (mergeLanes m (vZm w) (fun l => v.lane (vVd w) l) (fun _ => x)) (maskFlag m)

/-- vx.mask (R128). -/
def vxMask (v : Vec) (o : EngOp) : VxOut :=
  let a := v.mask (fieldOf o.w 5 3)
  let b := v.mask (fieldOf o.w 10 3)
  let p := a.poison || b.poison
  match fieldOf o.w 24 3 with
  | 0 => ⟨none, some ⟨a.bits &&& b.bits, p⟩, none, [], 0⟩
  | 1 => ⟨none, some ⟨a.bits ||| b.bits, p⟩, none, [], 0⟩
  | 2 => ⟨none, some ⟨a.bits ^^^ b.bits, p⟩, none, [], 0⟩
  | 3 => ⟨none, some ⟨a.bits &&& ~~~b.bits, p⟩, none, [], 0⟩
  | 4 => ⟨none, some ⟨o.sa, o.saPoison⟩, none, [], 0⟩
  | _ => ⟨none, none, some (a.bits, a.poison), [], 0⟩

/-- The rounding mode of lane `l` of a load or store (R94, R134). -/
def vxMode (e : Env) (o : EngOp) (l : Nat) : RMode := modeOf e.compat (vRmode o.w) o.seed o.sa (BitVec.ofNat 64 l)

/-- One element of a load converted to a lane (R132), with its flags. -/
def loadLane (e : Env) (o : EngOp) (bs scales : List (Byte × Bool)) (l : Nat) : Lane × BitVec 6 :=
  let fmt := vFmt o.w
  let n := fmtBits fmt
  let lo := n * l / 8
  let part := (bs.drop lo).take ((n * l + n - 1) / 8 + 1 - lo)
  let p := part.any Prod.snd
  if fmt = 7 then
    let (x, a) := recordOf bs l
    let (b, f) := laneOut e.compat (roundTo 0 (vxMode e o l) (bitOf o.w 14) (lsNum x a))
    (⟨b, p⟩, f ||| flagIf x.spill flagSpill ||| flagIf x.range flagRange)
  else
    let bits := natOfBytes (part.map Prod.fst) / 2 ^ (n * l - 8 * lo) % 2 ^ n
    if vRaw o.w then (⟨BitVec.ofNat 32 bits, p⟩, 0)
    else
      let sc := scales.getD (l / 32) (0, false)
      let v := if isMx fmt then scaleElem (decodeElem fmt bits) sc.1.toNat else decodeElem fmt bits
      let (b, f) := laneOut e.compat (roundTo 0 (vxMode e o l) (bitOf o.w 14) v)
      (⟨b, p || (isMx fmt && sc.2)⟩, f)

/-- The lanes and flags of a load from its bytes and scale bytes, under a mask, over the lanes that its destination held. -/
def vxLoad (e : Env) (m : Mask) (old : List Lane) (o : EngOp) (bs scales : List (Byte × Bool)) : VxOut :=
  let r := (List.range 64).map (loadLane e o bs scales)
  let fl := r.zipIdx.foldl (fun a x => if bitOf m.bits x.2 then a ||| x.1.2 else a) 0
  vxLanes (mergeLanes m (vZm o.w) (fun l => old.getD l ⟨0, false⟩) (fun l => (r.getD l (⟨0, false⟩, 0)).1)) (fl ||| maskFlag m)

/-- The bytes of lane `l` of a store to a format that is not of blocks, with its flags (R133). -/
def storeLane (e : Env) (v : Vec) (o : EngOp) (l : Nat) : List Byte × BitVec 6 :=
  let fmt := vFmt o.w
  let x := (v.lane (vVd o.w) l).v
  if vRaw o.w then (bytesOfNat 4 x.toNat, 0)
  else
    let r := roundTo fmt (vxMode e o l) (bitOf o.w 14) (laneNum e.compat x)
    let r := if fmt = 0 then
        let y := laneOut e.compat r
        (y.1.toNat, y.2)
      else r
    (bytesOfNat (fmtBits fmt / 8) r.1, r.2)

/-- vx.st to a format that is not of blocks (R133): a poisoned mask writes every word it covers with poison (R124). -/
def vxStore (e : Env) (v : Vec) (o : EngOp) : VxOut :=
  let m := v.mask (vVm o.w)
  let r := (List.range 64).map (storeLane e v o)
  let bs := r.zipIdx.flatMap (fun x => x.1.1.map (fun b =>
    if bitOf m.bits x.2 then (some b, (v.lane (vVd o.w) x.2).poison || m.poison) else (none, false)))
  let ws := (chunkWrites (bs.length + 1) o.aa bs).map (fun x => { x with poison := x.poison || m.poison })
  let beats := (chunksOf 32 (ws.length + 1) ws).map (fun b => b.filter (fun x => !x.void))
  let fl := r.zipIdx.foldl (fun a x => if bitOf m.bits x.2 then a ||| x.1.2 else a) 0
  ⟨none, none, none, beats, fl ||| maskFlag m ||| flagIf (beats.any (fun b => b.any (fun x => x.poison))) flagPoison⟩

/-- vx.st to a block format (R96, R133): both blocks' elements, and their scale bytes. -/
def vxStoreMx (e : Env) (v : Vec) (o : EngOp) : VxOut :=
  let fmt := vFmt o.w
  let n := fmtBits fmt
  let blk (j : Nat) := mxBlock fmt (fun i => vxMode e o (32 * j + i)) (bitOf o.w 14)
    ((List.range 32).map (fun i => laneNum e.compat (v.lane (vVd o.w) (32 * j + i)).v))
  let b0 := blk 0
  let b1 := blk 1
  let bs := packElems (b0.2.1 ++ b1.2.1) n
  let pz (i : Nat) : Bool := (List.range 64).any (fun l =>
    (v.lane (vVd o.w) l).poison && decide (n * l / 8 ≤ i) && decide (i ≤ (n * l + n - 1) / 8))
  let blkPoison (j : Nat) : Bool := (List.range 32).any (fun i => (v.lane (vVd o.w) (32 * j + i)).poison)
  let ws := chunkWrites (bs.length + 1) o.aa (bs.zipIdx.map (fun x => (some x.1, pz x.2)))
  let sc := beatWrites [(o.scaleByte, BitVec.ofNat 8 b0.1, blkPoison 0), (o.scaleByte + 1, BitVec.ofNat 8 b1.1, blkPoison 1)]
  ⟨none, none, none, chunksOf 32 (ws.length + 1) ws ++ [sc], b0.2.2 ||| b1.2.2 ||| flagIf ((ws ++ sc).any (fun x => x.poison)) flagPoison⟩

/-- The bytes of the well that a load reads, in the order of its beats: 256 bytes each, and the scale bytes in one of their own (R132, R147). -/
def EngOp.vxBeats (o : EngOp) : List (List Nat) :=
  let bs := (List.range (vxBytes (vFmt o.w))).map (8 * o.aa + ·)
  chunksOf 256 (bs.length + 1) bs ++ (if isMx (vFmt o.w) then [[o.scaleByte, o.scaleByte + 1]] else [])

/-- The bytes a port load takes: its elements, and two scale bytes for a block format (R132, R135). -/
def EngOp.vxPortBytes (o : EngOp) : Nat := vxBytes (vFmt o.w) + (if isMx (vFmt o.w) then 2 else 0)

/-- What a vector instruction computes as it starts; a load computes as it completes (R136). -/
def Core.vxCompute (e : Env) (o : EngOp) (c : Core) : VxOut :=
  let v := c.vx
  let k := e.compat
  let w := o.w
  let zm := vZm w
  match opOf w with
  | 0xA0 => ⟨none, none, none, [], 0⟩
  | 0xA1 => if isMx (vFmt w) then vxStoreMx e v o else vxStore e v o
  | 0xA2 => vxMap v w zm [vVa w, vVb w] (two (vAdd k))
  | 0xA3 => vxMap v w zm [vVa w, vVb w] (two (vSub k))
  | 0xA4 => vxMap v w zm [vVa w, vVb w] (two (vMul k))
  | 0xA5 => vxMap v w zm [vVa w, vVb w, vVc w] (fun xs => vFma k (bitOf w 24) (bitOf w 25) (xs.getD 0 0) (xs.getD 1 0) (xs.getD 2 0))
  | 0xA6 => vxMap v w zm [vVa w, vVb w] (two (vMinMax k false))
  | 0xA7 => vxMap v w zm [vVa w, vVb w] (two (vMinMax k true))
  | 0xA8 => vxMap v w zm [vVa w] (fun xs => vFn k (fieldOf w 10 4) (xs.getD 0 0))
  | 0xA9 => vxCmp k v w
  | 0xAA => vxSel k v w
  | 0xAB => vxRed k v w
  | 0xAC => vxPerm v w
  | 0xAD => vxBcast v o
  | 0xAE => vxMask v o
  | _ => ⟨none, none, none, [], 0⟩

/-- The record of an instruction that starts. -/
def Core.vxRunOf (e : Env) (o : EngOp) (c : Core) : VxRun :=
  let r := c.vxCompute e o
  { op := o, lanes := r.lanes, mask := r.mask, scalar := r.scalar, writes := r.writes, flags := r.flags, under := c.vx.mask (vVm o.w)
    old := if opOf o.w = 0xA0 then (c.vx.reg (vVd o.w)).toList else [], data := [], wsw := false, beats := 0 }

/-- The beats that a started instruction has still to present to the well (R147). -/
def VxRun.left (r : VxRun) : Nat := (if opOf r.op.w = 0xA0 && !vPort r.op.w then r.op.vxBeats.length else r.writes.length) - r.beats

/-! ## Starting and completing (R136) -/

/-- What an instruction writes: a vector register, numbered from 0, or a mask register, numbered from 32. -/
def EngOp.vxDest (o : EngOp) : Option Nat :=
  match opOf o.w with
  | 0xA1 => none
  | 0xAF => none
  | 0xA9 => if fieldOf o.w 0 3 = 0 then none else some (32 + fieldOf o.w 0 3)
  | 0xAE => if fieldOf o.w 24 3 = 5 || fieldOf o.w 0 3 = 0 then none else some (32 + fieldOf o.w 0 3)
  | _ => some (vVd o.w)

/-- What an instruction reads, numbered in the same way: vm, its vector operands, and vd where zm is 0 or for vx.red. -/
def EngOp.vxSources (o : EngOp) : List Nat :=
  let w := o.w
  let vm := if vVm w = 0 then [] else [32 + vVm w]
  let keep := if vZm w then [] else [vVd w]
  match opOf w with
  | 0xA0 => vm ++ keep
  | 0xA1 => vm ++ [vVd w]
  | 0xA5 => vm ++ keep ++ [vVa w, vVb w, vVc w]
  | 0xA8 => vm ++ keep ++ [vVa w]
  | 0xA9 => vm ++ [vVa w, vVb w]
  | 0xAA => vm ++ [vVa w, vVb w]
  | 0xAB => vm ++ [vVd w, vVa w]
  | 0xAD => vm ++ keep ++ (if bitOf w 14 then [vVa w] else [])
  | 0xAE =>
    let a := if fieldOf w 5 3 = 0 then [] else [32 + fieldOf w 5 3]
    let b := if fieldOf w 10 3 = 0 then [] else [32 + fieldOf w 10 3]
    if fieldOf w 24 3 < 4 then a ++ b else if fieldOf w 24 3 = 5 then a else []
  | 0xAF => []
  | _ => vm ++ keep ++ [vVa w, vVb w]

/-- Whether a load's bytes meet those a store has yet to write: elements and scales. -/
def vxMeets (ld : EngOp) (st : List WordWrite) : Bool :=
  let b := 8 * ld.aa
  let n := vxBytes (vFmt ld.w)
  let s := ld.scaleByte
  let inLoad (x : Nat) : Bool := (decide (b ≤ x) && decide (x < b + n)) || (isMx (vFmt ld.w) && (x = s || x = s + 1))
  st.any (fun w => (List.range 8).any (fun i => (w.en.getLsbD i || w.poison) && inLoad (8 * w.addr + i)))

/-- The start conditions of a vector instruction: its sources written, no port load running before it, the beats of every load before it presented, and a
load from the well after the stores it meets; vx.flags after everything. -/
def vxMayStart (running : List VxRun) (o : EngOp) : Bool :=
  running.all (fun r => !vPort r.op.w && (opOf r.op.w != 0xA0 || r.left = 0) && !(r.op.vxDest.any (fun d => o.vxSources.contains d)) &&
    !(decide (opOf o.w = 0xA0) && !vPort o.w && vxMeets o r.writes.flatten)) &&
  (opOf o.w != 0xAF || running.isEmpty)

/-- The oldest queued vector instruction starts if its conditions hold. (DEDUCED, log entry 15.) -/
def Core.vxStart (e : Env) (c : Core) : Core :=
  match c.vx.queue with
  | [] => c
  | o :: q =>
    if e.alive && vxMayStart c.vx.running o then
      { c with vx := { c.vx with queue := q, running := c.vx.running ++ [c.vxRunOf e o] } }
    else c

/-- VECTOR_START. -/
def execVectorStart (i : CoreId) (s : State) : Out := .next (s.putCore i (Core.vxStart (s.env i) (s.core i)))

/-- What the completion of a vector instruction writes: its destination and its flags (R136, R137). -/
def Core.vxFinish (r : VxRun) (c : Core) : Core :=
  let w := r.op.w
  let c := match r.lanes with
    | some ls => { c with vx := c.vx.setReg (vVd w) ls }
    | none => c
  let c := match r.mask with
    | some m => { c with vx := c.vx.setMask (fieldOf w 0 3) m }
    | none => c
  let c := match r.scalar with
    | some x => { c with ctl := c.ctl.land (eSa w) x.1 x.2 }
    | none => c
  let c := c.vxFlag r.flags
  if opOf w = 0xAF then
    { c with
      ctl := c.ctl.land (eSa w) (c.vx.flags.setWidth 64) false
      vx := { c.vx with flags := clearFlags c.vx.flags (fieldOf w 0 6) } }
  else c

/-- Whether two lists of word writes write or poison a word in common. -/
def writesMeet (a b : List WordWrite) : Bool := a.any (fun x => b.any (fun y => x.addr = y.addr && (x.en &&& y.en != 0 || x.poison || y.poison)))

/-- Whether a started instruction can complete (R136): no earlier one has yet to write its destination, a register, a mask or bytes of the well; no
vx.flags is before it; and a port load has its bytes. -/
def Core.vxReady (k : Nat) (r : VxRun) (c : Core) : Bool :=
  (c.vx.running.take k).all (fun x => (x.op.vxDest.isNone || x.op.vxDest != r.op.vxDest) && opOf x.op.w != 0xAF && !writesMeet x.writes.flatten r.writes.flatten) &&
    r.left = 0 && (!vPort r.op.w || c.vx.port.has r.op.vxPortBytes)

/-- The next beat of a started instruction served by the well: a load reads its bytes, a store writes its words (R143, R147). -/
def Core.vxBeat (e : Env) (r : VxRun) (c : Core) : Core × VxRun :=
  if opOf r.op.w = 0xA0 then
    let (bs, c, f) := c.wellBeat e ⟨4, 2, r.op.pc⟩ r.wsw (r.op.vxBeats.getD r.beats [])
    (c, { r with data := r.data ++ bs, wsw := f, beats := r.beats + 1 })
  else (c.wellWrites e ⟨5, 2, r.op.pc⟩ (r.writes.getD r.beats []), { r with beats := r.beats + 1 })

/-- The next beats of the started instruction at a place of the list, as many as it has left of those given; a store's come after those of the stores before
it. -/
def Core.vxServe (e : Env) (k : Nat) : Nat → Core → Core
  | 0, c => c
  | n + 1, c =>
    match c.vx.running[k]? with
    | none => c
    | some r =>
      if e.alive && 0 < r.left && (c.vx.running.take k).all (fun x => opOf x.op.w != 0xA1 || x.left = 0) then
        let (c, r) := c.vxBeat e r
        Core.vxServe e k n { c with vx := { c.vx with running := c.vx.running.set k r } }
      else c

/-- A started instruction taken from the list, counted in VX_INSTR and in its counter. -/
def Core.vxRetire (k : Nat) (r : VxRun) (c : Core) : Core :=
  (Core.complete r.op.w { c with vx := { c.vx with running := c.vx.running.eraseIdx k } }).bump fVxInstrCount 1

/-- The started instruction at a place of the list completes if it can. -/
def Core.vxComplete (e : Env) (k : Nat) (c : Core) : Core :=
  match c.vx.running[k]? with
  | none => c
  | some r =>
    if e.alive && c.vxReady k r then
      let c' := Core.vxRetire k r c
      if opOf r.op.w = 0xA0 then
        let (bs, p) := if vPort r.op.w then c'.vx.port.take r.op.vxPortBytes else (r.data, c'.vx.port)
        let c' := { c' with vx := { c'.vx with port := p } }
        let n := vxBytes (vFmt r.op.w)
        let x := vxLoad e r.under r.old r.op (bs.take n) (bs.drop n)
        c'.vxFinish { r with lanes := x.lanes, flags := x.flags }
      else c'.vxFinish r
    else c

/-- VECTOR_COMPLETION: the instruction's beats that are due are served, and it completes if it then can. -/
def execVectorCompletion (i : CoreId) (idx : RunAt) (s : State) : Out :=
  let e := s.env i
  .next ((s.putCore i ((Core.vxComplete e idx.idx (Core.vxServe e idx.idx idx.beats (s.core i))).ageCopies e)).returnPorts i)

/-- A port load that has waited too long raises the schedule-breach trap, takes no bytes, leaves vd and completes at once (R135). -/
def Core.vxTimeout (e : Env) (c : Core) : Core :=
  match c.vx.running.findIdx? (fun r => vPort r.op.w) with
  | none => c
  | some k =>
    match c.vx.running[k]? with
    | none => c
    | some r =>
      if e.alive && !c.vx.port.has r.op.vxPortBytes then (c.asyncTrap e 4 r.op.pc 2 (freeDetail 4 r.op.w)).vxRetire k r else c

/-- VX_PORT_LOAD_TIMEOUT. -/
def execVxPortLoadTimeout (i : CoreId) (s : State) : Out := .next (s.putCore i (Core.vxTimeout (s.env i) (s.core i)))

end Sys2Proof.Machine
end

