-- ==== Sys2Proof/Machine/Access.lean ====
section
/-! DEFINITION. The management address map: where an address leads, what a read returns, what a write does by the types of its fields, and who may do
either (rows REG_READ, REG_WRITE, REGISTER_WRITE, SCR_MC_KEY_WRITE, WATCHDOG_KICK and DBGREG; R12 to R15, R342, R344, R435, R449, R468 to R475). -/

namespace Sys2Proof.Machine

/-! ## Places (R468, R469) -/

/-- What a management address names: a register of the rim, of a cluster or of a core, live or in the shadow view, by its offset; or a word of a core's
well or reservoir. -/
inductive Place where
  | rim (view : Bool) (off : Nat)
  | cluster (view : Bool) (n off : Nat)
  | core (view : Bool) (i off : Nat)
  | well (i word : Nat)
  | rsv (i word : Nat)
  deriving DecidableEq, Repr

/-- The place that an address names; none where it is not aligned or lies outside every extent (R471). -/
def placeOf (a : Nat) : Option Place :=
  if a % 8 != 0 then none
  else if a < 0x2E0000 then some (.rim false a)
  else if 0x1000000 ≤ a && a < 0x12E0000 then some (.rim true (a - 0x1000000))
  else if 0x4000000 ≤ a && a < 0x4900000 then
    let n := (a - 0x4000000) / 0x10000
    let o := a % 0x10000
    if o < 0x4000 then some (.cluster false n o) else if 0x8000 ≤ o && o < 0xC000 then some (.cluster true n (o - 0x8000)) else none
  else if 0x100000000 ≤ a && a < 0x1FC000000 then
    let i := (a - 0x100000000) / 0x80000
    let o := a % 0x80000
    some (if o < 0x40000 then .core false i o else .core true i (o - 0x40000))
  else if 0x1000000000 ≤ a && a < 0x17E0000000 then
    let d := a - 0x1000000000
    some (.well (d / 0x400000) (d % 0x400000 / 8))
  else if 0x10000000000 ≤ a && a < 0x2F800000000 then
    let d := a - 0x10000000000
    if d % 0x10000000 < 0x0A000000 then some (.rsv (d / 0x10000000) (d % 0x10000000 / 8)) else none
  else none

/-- The cluster of a place, where it has one. -/
def Place.clusterAt : Place → Option Nat
  | .rim _ _ => none
  | .cluster _ n _ => some n
  | .core _ i _ => some (clusterOfCore i)
  | .well i _ => some (clusterOfCore i)
  | .rsv i _ => some (clusterOfCore i)

/-- Whether a place is a word of a well or a reservoir. -/
def Place.isWindow : Place → Bool
  | .well _ _ => true
  | .rsv _ _ => true
  | _ => false

/-- Whether an access to a place is performed: its cluster's PLL is locked, and no wipe of the memory it names is under way (R471, R472). -/
def State.reachable (s : State) (p : Place) : Bool :=
  p.clusterAt.all (fun n => decide (s.fld (fldAt fClkClStatusLocked (0x100 * n)) = 1)) &&
  (match p with
    | .well i _ => !(s.core i).well.wiping
    | .rsv i _ => !(s.core i).rsv.wiping
    | _ => true)

/-- The block of a place, its base, and its unit, numbered as event 0x05 numbers them (R478). -/
def Place.block : Place → Nat × Nat × Nat
  | .rim _ a =>
    if a < 0x200000 then (17, 0, 0)
    else if a < 0x280000 then (11, 0x200000, 0)
    else if a < 0x2A0000 then (9, 0x280000, 0)
    else if a < 0x2B0000 then (12, 0x2A0000, 0)
    else if a < 0x2C0000 then (14, 0x2B0000, 0)
    else if a < 0x2C4000 then (8, 0x2C0000, 0)
    else if a < 0x2C8000 then (15, 0x2C4000, 0)
    else if a < 0x2C9000 then (13, 0x2C8000, 0)
    else if a < 0x2CA000 then (16, 0x2C9000, 0)
    else if a < 0x2CB000 then (18, 0x2CA000, 0)
    else if a < 0x2CC000 then (19, 0x2CB000, 0)
    else if a < 0x2D0000 then (10, 0x2CC000, 16)
    else (10, a / 0x1000 * 0x1000, (a - 0x2D0000) / 0x1000)
  | .cluster _ n _ => (7, 0, n)
  | .core _ i o =>
    if o < 0x1000 then (0, 0, i)
    else if o < 0x2000 then (3, 0x1000, i)
    else if o < 0x3000 then (4, 0x2000, i)
    else if o < 0x4000 then (5, 0x3000, i)
    else if o < 0x6000 then (6, 0x4000, i)
    else if o < 0x20000 then (1, 0x6000, i)
    else (2, 0x20000, i)
  | .well i _ => (1, 0, i)
  | .rsv i _ => (2, 0, i)

/-- The offset of a place in its unit. -/
def Place.off : Place → Nat
  | .rim _ a => a
  | .cluster _ _ o => o
  | .core _ _ o => o
  | .well _ w => 8 * w
  | .rsv _ w => 8 * w

/-! ## What registers read as -/

/-- A word without the fields that read as zero: those that are written only (R12). -/
def readable (rows : List RegRow) (off : Nat) (w : Word) : Word :=
  match findReg rows off with
  | none => 0
  | some row => row.fields.foldl (fun w f => if f.access = .wo then putField w f.lo f.width 0 else w) w

/-- CORE_TA of a slot (R236). -/
def slotWord (t : TimedSlot) : Word :=
  BitVec.ofNat 64 (bit t.armed + 2 * bit t.executed + 4 * bit t.late + 8 * bit t.cancelled + 2 ^ 32 * min t.lateness (2 ^ 32 - 1))

/-- MX_STATUS (R122). -/
def Core.mxStatus (c : Core) : Word :=
  let ops := c.mx.running.map (fun r => opOf r.op.w)
  BitVec.ofNat 64 (c.mx.hand % 4 + 4 * bit c.mx.ctlValid[0]! + 8 * bit c.mx.ctlValid[1]! + 16 * c.mx.queue.length +
    2 ^ 8 * bit (c.mx.running.any (fun r => decide (opOf r.op.w = 0x83) && decide (0 < r.entered))) + 2 ^ 9 * bit (ops.contains 0x81) +
    2 ^ 10 * bit (ops.contains 0x84 || ops.contains 0x86) +
    2 ^ 11 * bit (c.mx.running.any (fun r => r.streaming && !c.mx.stream.has r.op.strokePort)))

/-- VX_STATUS (R135). -/
def Core.vxStatus (c : Core) : Word :=
  BitVec.ofNat 64 (c.vx.queue.length + 2 ^ 5 * bit (!c.vx.running.isEmpty) +
    2 ^ 6 * bit (c.vx.running.any (fun r => vPort r.op.w && !c.vx.port.has r.op.vxPortBytes)) + 2 ^ 7 * min c.vx.port.bytes 16384)

/-- CP_STATUS (R183). -/
def Core.cpStatus (c : Core) : Word :=
  BitVec.ofNat 64 (c.cp.queue.length + 2 ^ 6 * ((List.range 8).foldl (fun n k => n + 2 ^ k * bit (c.cp.running.any (fun r => r.slot = k))) 0) +
    2 ^ 14 * bit (c.cp.running.any (fun r => r.slot = 8)) + 2 ^ 15 * min c.mx.stream.bytes 32768)

/-- CH_STATUS (R214). -/
def State.chStatus (s : State) (i : Nat) : Word :=
  let c := s.core i
  let e := s.env i
  BitVec.ofNat 64 (c.ch.queue.length + 2 ^ 6 * bit (s.sending e) + 2 ^ 7 * bit (s.sendWaits e) + 2 ^ 8 * ((List.range 16).filter (fun q => c.cqFull q)).length)

/-- The VCs in which a message holds an output of a core's router, its local output and a gateway's link included (R248, R249, R259). -/
def State.vcBusy (s : State) (i : Nat) : Nat :=
  match s.logicalX i with
  | none => 0
  | some x =>
    let here := (x, pyOf i)
    (List.range 4).foldl (fun n v => n + 2 ^ v * bit (s.mesh.any (fun p => decide (p.vc = v) && (List.range 6).any (fun d => s.holdsOut p (here, d))))) 0

/-- Sixty-four written-since-wipe bits of a memory from a granule (R154, R166). -/
def Mem.granules (m : Mem) (g : Nat) : Word := (List.range 64).foldl (fun w j => if m.written (g + j) then putField w j 1 1 else w) 0

/-- What a register of a core's block reads as, a mirror's as its primary's (R426); under the compatibility bit the unwritten-memory traps read as 0 (R38, R39). -/
def State.coreWord (s : State) (i off : Nat) : Word :=
  let c := s.view i
  let e := s.env i
  let w := readable coreRegs off (c.reg off)
  let n := off % 0x40 / 8
  if off = fCoreStatusRunning.off then c.ctl.status
  else if off = fCoreCtrlEvEn.off then c.ctl.ctrl
  else if off = fCoreEvtVecIndex.off then BitVec.ofNat 64 c.ctl.evtVec
  else if off = fCoreEvtPcIndex.off then BitVec.ofNat 64 c.ctl.evtPc
  else if off = fCoreEvtStaleCount.off then BitVec.ofNat 64 (c.ctl.evtStale % 2 ^ 32)
  else if off = fCoreHaltRecRec.off then c.ctl.haltRec
  else if off = fCorePcIndex.off then BitVec.ofNat 64 c.ctl.pc
  else if off = fCoreCliSelClient.off then BitVec.ofNat 64 c.ctl.cliSel
  else if fCoreCcCount.off ≤ off && off < fCoreCcCount.off + 0x40 then (c.ctl.cc[n]!).setWidth 64
  else if fCoreTaArmed.off ≤ off && off < fCoreTaArmed.off + 0x40 then slotWord (c.ctl.slots[n]!)
  else if off = fCoreMeshStatusVcBusy.off then putField w 4 4 (s.vcBusy i)
  else if off = fMxStatusHand.off then c.mxStatus
  else if off = fMxFlagsSpill.off then c.mx.flags.setWidth 64
  else if off = fVxStatusQueued.off then c.vxStatus
  else if off = fVxFlagsSpill.off then c.vx.flags.setWidth 64
  else if off = fCpStatusQueued.off then c.cpStatus
  else if off = fChStatusQueued.off then s.chStatus i
  else if off = fWellCtrlWswTrap.off && e.compat then putField w fWellCtrlWswTrap.lo fWellCtrlWswTrap.width 0
  else if off = fRsvCtrlWswTrap.off && e.compat then putField w fRsvCtrlWswTrap.lo fRsvCtrlWswTrap.width 0
  else if off = fWellStatusWiping.off then putField w 0 1 (bit c.well.wiping)
  else if fWellBufVerso.off ≤ off && off < fWellBufVerso.off + 0x40 then putField w 2 1 (bit c.well.verso[n]!)
  else if fWellWswGranule.off ≤ off && off < fWellWswGranule.off + 0x400 then c.well.mem.granules (8 * (off - fWellWswGranule.off))
  else if off = fRsvStatusWiping.off then putField (putField w 0 1 (bit c.rsv.wiping)) 2 1 (bit c.rsv.hot)
  else if fRsvWswGranule.off ≤ off && off < fRsvWswGranule.off + 0xA000 then c.rsv.mem.granules (8 * (off - fRsvWswGranule.off))
  else w

/-- What a register of a cluster's block reads as. -/
def State.clusterWord (s : State) (n off : Nat) : Word :=
  let k := s.cluster n
  let w := readable clusterRegs off (k.reg off)
  if off = fLigStatusWaiters.off then putField w 0 11 k.waiters.length
  else if fLigStatePhase.off ≤ off && off < fLigStatePhase.off + 0x1000 then
    let l := k.lig ((off - fLigStatePhase.off) / 8)
    BitVec.ofNat 64 (l.phase % 2 ^ 16 + l.count % 2 ^ 16 * 2 ^ 16 + l.expect % 2 ^ 16 * 2 ^ 32)
  else w

/-- The fused reset states of pin groups 0 to 15, three bits each (R393, R453). -/
def pinResets : Word := BitVec.ofNat 64 (pinCodes.foldr (fun v n => v + 8 * n) 0)

/-- What a rim register reads as to a reader: Scribe cores 0 to 15, the management window 16 or the debug path 17 (R361). -/
def State.rimWord (s : State) (reader a : Nat) : Word :=
  let w := readable rimRegs a (s.reg a)
  let n := (a - 0x2A1000) / 0x100
  if a = fClkStatusFreqMhz.off then putField w 4 11 s.freqNow
  else if 0x2A1000 ≤ a && a < 0x2AA000 && 0x10 ≤ a % 0x100 && a % 0x100 < 0x30 then putField w 25 1 (bit (sidePresent n ((a % 0x100 - 0x10) / 8)))
  else if 0x2B1000 ≤ a && a < 0x2BA000 && a % 0x100 = 0 then putField w 26 4 (min 15 (s.announced ((a - 0x2B1000) / 0x100)))
  else if 0x2C1000 ≤ a && a < 0x2C2000 && a % 0x40 = 0x10 then
    let r := (a - 0x2C1000) / 0x40
    putField w 13 1 (bit (s.rgn r fRgnCfgEnable = 1 && s.regionIdle r))
  else if 0x2D0000 ≤ a && a % 0x1000 = 0 then putField w 3 1 (bit (s.port ((a - 0x2D0000) / 0x1000)).resetAt.isSome)
  else if fFabCmapLocal.off ≤ a && a < fFabCmapLocal.off + 0x80 then
    putField w 0 16 ((List.range 8).foldl (fun v c => v + 4 ^ c * s.level ((a - fFabCmapLocal.off) / 8) c) 0)
  else if a = fFabTimeLocked.off then putField w 5 1 (bit s.timeLocked)
  else if a = fRstStatusLifecycle.off then putField w 6 3 s.lifecycle
  else if 0x2C5000 ≤ a && a < 0x2C7400 then putField w 0 3 (Config.factoryQx ((a - 0x2C5000) / 8)).val
  else if a = fTimeSecLatchSec.off then BitVec.ofNat 64 (s.timeBase.latches.look reader 0)
  else if a = fAoiLifecycleState.off then BitVec.ofNat 64 (s.lifecycle + 8 * min 255 s.life)
  else if a = fFuseEuiEui.off then Config.eui
  else if a = fFusePinReset0Group.off then pinResets
  else if a = fDbgBlotLenBits.off then if s.fld fDbgBlotSelChain ≤ 162 then (Config.blotLen (s.fld fDbgBlotSelChain)).setWidth 64 else 0
  else if a = fDbgIdIdcode.off then debugIdWord
  else w

/-- A rim register read, with what the read does (R307, R361, R447). -/
def State.readRim (s : State) (reader a : Nat) : Word × State :=
  if a = fTimeNsNs.off then (s.reg a, s.readTimeNs reader)
  else if a = fDbgBlotDataData.off then s.blotRead
  else if 0x2D0000 ≤ a && a % 0x1000 = 0x310 then
    let t := s.popTag ((a - 0x2D0000) / 0x1000)
    (t.reg a, t)
  else (s.rimWord reader a, s)

/-! ## Windows (R472) -/

/-- A read of a well word through port 14. -/
def Core.readWell (e : Env) (a : Nat) (c : Core) : (Word × Bool) × Core :=
  let (ws, c, _) := c.wellRead e ⟨14, 4, 0⟩ false [a]
  (ws.headD (0, false), c)

/-- A read of a reservoir word as a background line. -/
def Core.readRsv (e : Env) (a : Nat) (c : Core) : (Word × Bool) × Core :=
  let (v, c, _) := ((c.windowLine (a / 8) 1).rowRead [a]).rsvReadWord e 0 true false a
  (v, c)

/-- A write of a reservoir word, merged into its line. -/
def Core.writeRsv (e : Env) (a : Nat) (v : Word) (poison : Bool) (c : Core) : Core :=
  (c.windowLine (a / 8) 2).rsvWriteLine e (a / 8) [⟨a, BitVec.allOnes 8, v, poison⟩]

/-! ## Reads -/

/-- What a read returned: its word, whether it was poisoned or uncorrectable, and whether it was performed (R473). -/
structure Peek where
  w : Word
  poison : Bool
  done : Bool
  deriving DecidableEq, Repr

/-- The way of an access to its place and of its reply: a register of a core or a cluster is reached over the hairline in class 3, a window over the Scribe gateway of
the core's row on VC 3, and a rim register directly (R245, R250, R254). The answer says whether it arrived, and its word poisoned. -/
def State.reach (s : State) (p : Place) (out back : Nat) : Way × State :=
  match p.clusterAt with
  | none => (⟨true, []⟩, s)
  | some n =>
    if p.isWindow then
      let i := match p with
        | .well i _ => i
        | .rsv i _ => i
        | _ => 0
      if (s.logicalX i).isSome then s.access (0, pyOf i) (s.placeOf i) out back 1 else (⟨true, []⟩, s)
    else
      let (ok, s) := s.send (scribeHub n) n
      let (ok, s) := if ok && back != 0 then s.send n (scribeHub n) else (ok, s)
      (⟨ok, []⟩, s)

/-- Whether an access waits on its way: for its links over the mesh, or at a crossing that withholds its credits (R249, R356). -/
def State.wayWaits (s : State) (p : Place) : Bool :=
  s.reachable p && (match p with
    | .rim _ _ => false
    | .well i _ => (s.logicalX i).isSome && s.accessWaits (0, pyOf i) (s.placeOf i)
    | .rsv i _ => (s.logicalX i).isSome && s.accessWaits (0, pyOf i) (s.placeOf i)
    | .cluster _ n _ => s.hubWaits (scribeHub n) n
    | .core _ i _ => s.hubWaits (scribeHub (clusterOfCore i)) (clusterOfCore i))

/-- A management read of a place. A shadow view holds its snap tags and its counters, and zero elsewhere (R441, R468). -/
def State.peek (s : State) (reader : Nat) (p : Place) : Peek × State :=
  let (x, s) := if s.reachable p then s.reach p 1 1 else (⟨false, []⟩, s)
  if !x.ok then (⟨0, false, false⟩, s)
  else match p with
    | .rim false a => (⟨(s.readRim reader a).1, false, true⟩, (s.readRim reader a).2)
    | .rim true a => (⟨s.rimShadow.look a 0, false, true⟩, s)
    | .cluster false n o => (⟨s.clusterWord n o, false, true⟩, s)
    | .cluster true n o => (⟨(s.cluster n).shadow.look o 0, false, true⟩, s)
    | .core false i o => (⟨s.coreWord i o, false, true⟩, s)
    | .core true i o => (⟨(s.core i).shadow.look o 0, false, true⟩, s)
    | .well i a =>
      let (v, c) := (s.view i).readWell (s.env i) a
      (⟨v.1, v.2 || !x.bad.isEmpty, true⟩, if (s.core i).fld fCoreCheckRole = 2 then s else s.setCore i c)
    | .rsv i a =>
      let (v, c) := (s.view i).readRsv (s.env i) a
      (⟨v.1, v.2 || !x.bad.isEmpty, true⟩, if (s.core i).fld fCoreCheckRole = 2 then s else s.setCore i c)

/-! ## Writes by type (R12 to R15) -/

/-- The word of a register after a write, field by field by their types, and whether the write would have changed a locked field. -/
def writeFields (fields : List FieldRow) (locked : Bool) (old v : Word) : Word × Bool :=
  fields.foldl (fun (r : Word × Bool) f =>
    match f.access with
    | .rw => (putField r.1 f.lo f.width (fieldOf v f.lo f.width), r.2)
    | .w1c => (r.1 &&& ~~~(v &&& maskOf f.lo f.width), r.2)
    | .rwl =>
      if !locked then (putField r.1 f.lo f.width (fieldOf v f.lo f.width), r.2)
      else (r.1, r.2 || decide (fieldOf v f.lo f.width ≠ fieldOf old f.lo f.width))
    | _ => r) (old, false)

/-- A write of a register of a table. -/
def writeReg (rows : List RegRow) (off : Nat) (locked : Bool) (old v : Word) : Word × Bool :=
  match findReg rows off with
  | none => (old, false)
  | some row => writeFields row.fields locked old v

/-- Whether the RW/L fields of a cluster and its cores are locked: a region that holds it, by its rectangle or its mirror, has been released and has not begun
to wipe (R14). -/
def State.clusterLocked (s : State) (n : Nat) : Bool :=
  s.regionsOn.any (fun r => (s.rgnSt r).locked && ((s.rectClusters r).contains n || (s.mirrorClusters r).contains n))

/-- Whether the RW/L fields of a rim register are locked: RGN_CFG and RGN_CHECK of a region that exists, and the fields of a client entry that is valid
(R14, R266, R437). -/
def State.rimLocked (s : State) (a : Nat) : Bool :=
  if 0x2C1000 ≤ a && a < 0x2C3000 then s.rgn (a % 0x1000 / 0x40) fRgnCfgEnable = 1
  else if 0x280000 ≤ a && a < 0x2A0000 then s.cli ((a - 0x280000) / 0x80) fCliCfgValid = 1
  else false

/-- A lock violation is logged, naming the register (R14, R478). (DEDUCED, log entry 107.) -/
def State.logLock (s : State) (p : Place) : State :=
  let (b, base, unit) := p.block
  s.logEvent 0x05 1 (p.clusterAt.getD 0xFF) (p.clusterAt.bind s.regionOf) (BitVec.ofNat 64 (p.off - base + b * 2 ^ 32 + unit * 2 ^ 40))

/-- A core after a write of a register of its block, and whether the write would have changed a locked field. A write of 3 to MX_ANCHOR_DEF.mode leaves that field
unchanged, and with the compatibility bit so does one to an unwritten-memory trap (R38, R122). -/
def Core.writeAt (c : Core) (compat : Bool) (off : Nat) (locked : Bool) (v : Word) : Core × Bool :=
  if off = fCoreStatusRunning.off then ({ c with ctl := c.ctl.writeStatus v }, false)
  else if off = fCoreCtrlEvEn.off then ({ c with ctl := c.ctl.writeCtrl v }, false)
  else if off = fCoreEvtVecIndex.off then ({ c with ctl := { c.ctl with evtVec := fieldOf v 0 13 } }, false)
  else if off = fCoreEvtPcIndex.off then ({ c with ctl := { c.ctl with evtPc := fieldOf v 0 13 } }, false)
  else if off = fMxFlagsSpill.off then ({ c with mx := { c.mx with flags := c.mx.flags &&& ~~~(v.setWidth 6) } }, false)
  else if off = fVxFlagsSpill.off then ({ c with vx := { c.vx with flags := c.vx.flags &&& ~~~(v.setWidth 6) } }, false)
  else
    let v := if off = fMxAnchorDefMode.off && fieldOf v 0 2 = 3 then putField v 0 2 (c.fld fMxAnchorDefMode) else v
    let (w, bad) := writeReg coreRegs off locked (c.reg off) v
    let k := c.setReg off w
    (if compat then c.keepTraps k else k, bad)

/-- The controller's key, a word of which is written over I3C while it is not locked (R342, R345). -/
def State.writeKey (s : State) (k : Nat) (v : Word) : State :=
  let a := fScrMcKeyKey.off + 8 * k
  if s.scribe.keyLocked then (if s.reg a = v then s else s.logLock (.rim false a))
  else (s.setReg a v).setFld fScrStatusMcKeyValid 1

/-- What a Scribe core's watchdog keeps. -/
def State.wdog (s : State) (n : Nat) : Wdog := s.scribe.wdog.look n ⟨0, [], none⟩

/-- The state with that changed. -/
def State.mapWdog (s : State) (n : Nat) (f : Wdog → Wdog) : State :=
  { s with scribe := { s.scribe with wdog := s.scribe.wdog.put n (f (s.wdog n)) ⟨0, [], none⟩ } }

/-- A kick restarts a core's watchdog and arms it (R344). -/
def State.kick (s : State) (n : Nat) (v : Word) : State :=
  if bitOf v 0 then (s.mapWdog n (fun w => { w with kicked := s.mono })).setFld (fldAt fScrWdogCtrlArmed (8 * n)) 1 else s

/-- A write of a region's RGN_CMD (R261). (DEDUCED, log entry 106.) -/
def State.writeCommand (s : State) (r : Nat) (v : Word) : State :=
  match fieldOf v 0 3 with
  | 1 => s.createRegion r false
  | 2 => s.resetCommand r false
  | 3 => s.releaseRegion r false
  | 4 => s.deleteRegion r false
  | _ => s

/-- A write of a port's PORT_CTRL: the mode, the limits, the admission and the block reset (R281, R289, R298). -/
def State.writePortCtrl (s : State) (p : Nat) (v : Word) : State :=
  let s := (s.setP p fPortCtrlBerLimit (fieldOf v 4 4)).setP p fPortCtrlResetTimeout (fieldOf v 8 4)
  let s := (s.setP p fPortCtrlHoldLimit (fieldOf v 12 4)).writeMode p (fieldOf v 0 2)
  let s := s.writeAdmit p (bitOf v 2)
  if bitOf v 3 then s.resetPort p else s

/-- A write of SCR_EX_CMD. -/
def State.writeExCmd (s : State) (v : Word) : State :=
  if !s.serving then s
  else
    let s := if bitOf v 0 then s.commitExemplar else s
    if bitOf v 1 then s.setExemplars [] else s

/-- A write of a register of the rim that does more than its fields' types say, or none where it does not. -/
def State.writeActs (s : State) (a : Nat) (v : Word) : Option State :=
  if 0x2C1000 ≤ a && a < 0x2C2000 && a % 0x40 = 8 then some (s.writeCommand ((a - 0x2C1000) / 0x40) v)
  else if 0x280000 ≤ a && a < 0x2A0000 && a % 0x80 = 8 then some (s.writeSeed ((a - 0x280000) / 0x80) v)
  else if 0x2D0000 ≤ a && a % 0x1000 = 0 then some (s.writePortCtrl ((a - 0x2D0000) / 0x1000) v)
  else if a = fPortClsCmdIndex.off then some (if bitOf v 12 then s.clsCommand (fieldOf v 0 12) else s)
  else if fFabRtDir.off ≤ a && a < fFabRtDir.off + 0x40000 then some (s.writeRoute (a - fFabRtDir.off) v)
  else if a = fFabEpochAtTime.off then some (s.armEpoch v)
  else if a = fClkFreqTargetMhz.off then some (s.writeTarget (fieldOf v 0 11))
  else if a = fClkFreqAtTime.off then some (s.armSlew v)
  else if 0x2A1000 ≤ a && a < 0x2AA000 && 0x10 ≤ a % 0x100 && a % 0x100 < 0x30 then some (s.setReg a (putField (s.reg a) 18 6 63))
  else if a = fTimeStageCtrlArm.off then some (s.armStage v)
  else if a = fPwrCtrlMode.off then some ((s.setFld fPwrCtrlHintEn (fieldOf v 2 1)).writePowerMode (fieldOf v 0 2))
  else if a = fRstCtrlStartOk.off then
    let s := if bitOf v 0 then s.declareStart else s
    some (if bitOf v 1 then s.deviceReset 2 else s)
  else if a = fAoiCmdCode.off then some (if fieldOf v 0 8 = 0xA5 then s.restart else s)
  else if a = fAoiLogWrCode.off then some (s.firmwareLog v false)
  else if fScrMcKeyKey.off ≤ a && a < fScrMcKeyKey.off + 0x60 then some (s.writeKey ((a - fScrMcKeyKey.off) / 8) v)
  else if fScrWdogKickKick.off ≤ a && a < fScrWdogKickKick.off + 0x80 then some (s.kick ((a - fScrWdogKickKick.off) / 8) v)
  else if a = fScrExCmdCommit.off then some (s.writeExCmd v)
  else if a = fDbgSnapAtTime.off then some (s.armSnap v.toNat)
  else if a = fDbgFreezeAtTime.off then some (s.armFreeze v.toNat)
  else if a = fDbgBlotSelChain.off then some (s.blotSelect v)
  else none

/-- A write of a register with the log's record of a locked field it would have changed. -/
def State.logIf (s : State) (bad : Bool) (p : Place) : State := if bad then s.logLock p else s

/-- Every port but the parent that is followed begins again to count the exchanges that lock the time (R331). -/
def State.restartLock (s : State) : State :=
  (s.ports.map (·.1)).foldl (fun s p =>
    if s.fld fFabTimeParentEn = 1 && s.fld fFabTimeParent = p then s else s.mapPort p (fun q => { q with ttGood := 0 })) s

/-- What follows from the new value of a rim register: a device that no longer follows a parent keeps no lock to it (R331), and an Ethernet link taken out of use is
down (R299). -/
def State.settleReg (s : State) (a : Nat) : State :=
  let p := (a - 0x2D0000) / 0x1000
  let g := (a - 0x1000 * p - fPortEthMacEnable.off) / 8
  if a = fFabTimeParentEn.off then s.restartLock.setFld fFabTimeLocked (if s.fld fFabTimeParentEn = 0 then 0 else s.fld fFabTimeLocked)
  else if 0x2D0000 ≤ a && p < 16 && fPortEthMacEnable.off + 0x1000 * p ≤ a && g < 8 then s.dropLink p g
  else s

/-- A write that has arrived at its place, in a window with its word's poison; a shadow view is left as it is. -/
def State.store (s : State) (p : Place) (v : Word) (poison : Bool) : State :=
  match p with
  | .rim false a =>
    match s.writeActs a v with
    | some t => t
    | none =>
      let (w, bad) := writeReg rimRegs a (s.rimLocked a) (s.reg a) v
      ((s.setReg a w).settleReg a).logIf bad p
  | .cluster false n o =>
    let k := s.cluster n
    let (w, bad) := writeReg clusterRegs o (s.clusterLocked n) (k.reg o) v
    (s.setCluster n (k.setReg o w)).logIf bad p
  | .core false i o =>
    let (c, bad) := (s.core i).writeAt (s.env i).compat o (s.clusterLocked (clusterOfCore i)) v
    (s.setCore i c).logIf bad p
  | .well i a => s.mapCore i (fun c => c.windowWrite a v poison)
  | .rsv i a => s.setCore i ((s.core i).writeRsv (s.env i) a v poison)
  | _ => s

/-- A management write of a place, with whether it was performed: a place that is not reachable is left as it is. -/
def State.pokeAt (s : State) (p : Place) (v : Word) : Bool × State :=
  let (x, s) := if s.reachable p then s.reach p 1 0 else (⟨false, []⟩, s)
  (x.ok, if x.ok then s.store p v (!x.bad.isEmpty) else s)

/-- The same, without the answer. -/
def State.poke (s : State) (p : Place) (v : Word) : State := (s.pokeAt p v).2

/-! ## Rights (R475) -/

/-- Whether a rim address lies in the registers that only their own commands write: RGN_CMD, CLI_CFG, CLI_SEED, CLI_ING, CLI_EGR and PORT_CLS_. -/
def guarded (a : Nat) : Bool :=
  (decide (0x2C1000 ≤ a) && decide (a < 0x2C2000) && decide (a % 0x40 = 8)) ||
  (decide (0x280000 ≤ a) && decide (a < 0x2A0000) && decide (a % 0x80 < 0x20)) || (decide (0x2CC000 ≤ a) && decide (a < 0x2CC028))

/-- Whether a rim address is SCR_MC_KEY or AOI_CMD. -/
def boardOnly (a : Nat) : Bool := (decide (0x40 ≤ a) && decide (a < 0xA0)) || decide (a = fAoiCmdCode.off)

/-- Whether a rim address lies in the DBG_ or AOI_ block. -/
def debugBlock (a : Nat) : Bool := decide (0x2C9000 ≤ a) && decide (a < 0x2CB000)

/-- Whether a rim address lies in the FUSE_ block. -/
def fuseBlock (a : Nat) : Bool := decide (0x2CB000 ≤ a) && decide (a < 0x2CC000)

/-- Whether Service lets the management controller write a rim register: PWR_, TIME_, RGN_PWR, RGN_QOS and RGN_TIMING. -/
def serviceWrites (a : Nat) : Bool :=
  (decide (0x2B0000 ≤ a) && decide (a < 0x2C0000)) || (decide (0x2C8000 ≤ a) && decide (a < 0x2C9000)) ||
  (decide (0x2C1000 ≤ a) && decide (a < 0x2C2000) && decide (0x18 ≤ a % 0x40) && decide (a % 0x40 < 0x30))

/-- Whether the management controller may read a place. (DEDUCED, log entry 91.) -/
def State.mayRead (s : State) (p : Place) : Bool :=
  let service := s.lifecycle = 2
  if s.dev = .frozen then
    match p with
    | .rim false a => debugBlock a && !boardOnly a && !(decide (a = fDbgBlotDataData.off) && s.blotClosed)
    | _ => false
  else match p with
    | .rim false a => !boardOnly a
    | .cluster false _ o => !service || isCounter clusterRegs clusterCounters o
    | .core false _ o => !service || isCounter coreRegs coreCounters o || decide (o = fCoreEvtStaleCount.off)
    | .well _ _ => !service
    | .rsv _ _ => !service
    | _ => true

/-- Whether the management controller may write a place, by the interface it uses: 0 the management port, 1 I3C. -/
def State.mayWrite (s : State) (iface : Nat) (p : Place) : Bool :=
  let service := s.lifecycle = 2
  match p with
  | .rim false a =>
    if guarded a || fuseBlock a then false
    else if boardOnly a then iface = 1
    else if debugBlock a then true
    else !service || serviceWrites a
  | .rim true _ => false
  | .cluster view _ _ => !view && !service
  | .core view _ _ => !view && !service
  | _ => !service

/-- Whether the supervisor firmware may write a place: no shadow view, no fuse register, SCR_MC_KEY or AOI_CMD. -/
def supervisorWrites (p : Place) : Bool :=
  match p with
  | .rim view a => !view && !fuseBlock a && !boardOnly a
  | .cluster view _ _ => !view
  | .core view _ _ => !view
  | _ => true

/-! ## REG_READ and REG_WRITE (R473) -/

/-- The addresses of a request whose items are `size` bytes each. -/
def requestAddrs (size : Nat) (p : List Byte) : List Nat := (List.range (numAt p 0 4)).map (fun j => numAt p (4 + size * j) 8)

/-- The first bad field of a request: its count, an address that names no place (R471), or a field cut short. -/
def requestBad (size : Nat) (p : List Byte) : Option Nat :=
  let n := numAt p 0 4
  badPayload p (4 + size * n) ((0, 4, decide (1 ≤ n) && decide (n ≤ 64)) :: (List.range (min n 64)).flatMap (fun j =>
    (4 + size * j, 8, (placeOf (numAt p (4 + size * j) 8)).isSome) :: (if size = 16 then [(12 + 16 * j, 8, true)] else [])))

/-- The places of a request that is well formed. -/
def requestPlaces (size : Nat) (p : List Byte) : List Place := (requestAddrs size p).filterMap placeOf

/-- A mask with a bit for each item that satisfies a condition. -/
def maskWhere {α : Type} (f : α → Bool) (l : List α) : Word := l.zipIdx.foldl (fun w x => if f x.1 then putField w (x.2 % 64) 1 1 else w) 0

/-- A read of a place, which votes where its register is held in copies: with no majority its value is open (R435). -/
def State.peekVoted (s : State) (p : Place) : Peek × State :=
  match p with
  | .rim false a =>
    if voted a then
      let x := s.voteReg a
      let r := x.2.peek 16 p
      (if x.1 then r.1 else { r.1 with w := Config.copyValue a }, r.2)
    else s.peek 16 p
  | _ => s.peek 16 p

/-- Whether an access of a window was lost on its way, so that it never completes: it was not performed, though its place is reachable. -/
def State.lostAt (s : State) (p : Place) (done : Bool) : Bool := p.isWindow && s.reachable p && !done

/-- The reads of a request in order, up to a window access that is lost on its way. -/
def State.peekAll (s : State) : List Place → List Peek × State
  | [] => ([], s)
  | p :: ps =>
    let x := s.peekVoted p
    if s.lostAt p x.1.done then ([], x.2)
    else
      let r := State.peekAll x.2 ps
      (x.1 :: r.1, r.2)

/-- The writes of a request in order, with whether each was performed, up to a window access that is lost on its way; one that resets the device ends them. -/
def State.pokeAll (s : State) : List (Place × Word) → List Bool × State
  | [] => ([], s)
  | x :: ws =>
    if s.dev != .up then ([], s)
    else
      let y := s.pokeAt x.1 x.2
      if s.lostAt x.1 y.1 then ([], y.2)
      else
        let r := State.pokeAll y.2 ws
        (y.1 :: r.1, r.2)

/-- How many accesses of a request complete: all, or those before a window access that has not completed in a millisecond. -/
def completes (slow : Option Nat) (ps : List Place) : Nat :=
  match slow with
  | none => ps.length
  | some k => if (ps[k]?).any Place.isWindow then k else ps.length

/-- The reply to a read. -/
def readReply (xs : List Peek) : List Byte :=
  xs.flatMap (fun x => bytesOfWord x.w) ++ bytesOfWord (maskWhere (fun (x : Peek) => x.poison) xs) ++ bytesOfWord (maskWhere (fun (x : Peek) => !x.done) xs)

/-- REG_READ: `slow` names a window access that has not completed in a millisecond, as one lost on its way never does, and `upset` what upsets have struck since the last command that names them. It waits while an
access of its list does (R356). (DEDUCED, log entry 93.) -/
def execRegRead (slow : Option Nat) (upset : List Upset) (s : State) : Out :=
  match s.payload 0x20 with
  | none => .next s
  | some p =>
    if s.dev != .up && s.dev != .frozen then .next s
    else match requestBad 8 p with
      | some o => .next (s.answer 0x20 2 (detailWord o))
      | none =>
        let ps := requestPlaces 8 p
        if !ps.all s.mayRead then .next (s.answer 0x20 5 (detailWord s.lifecycle))
        else if ps.any s.wayWaits then .next s
        else
          let r := (upset.foldl State.upset s).peekAll (ps.take (completes slow ps))
          .next (if r.1.length < ps.length then r.2.answer 0x20 1 [] else r.2.answer 0x20 0 (readReply r.1))

/-- The interface of the request at the head of the queue. -/
def State.headIface (s : State) : Nat := (s.scribe.reqs.head?).elim 0 (fun r => r.iface)

/-- REG_WRITE. -/
def execRegWrite (slow : Option Nat) (s : State) : Out :=
  match s.payload 0x21 with
  | none => .next s
  | some p =>
    if s.dev != .up then .next s
    else match requestBad 16 p with
      | some o => .next (s.answer 0x21 2 (detailWord o))
      | none =>
        let ps := requestPlaces 16 p
        let iface := s.headIface
        if !ps.all (s.mayWrite iface) then .next (s.answer 0x21 5 (detailWord s.lifecycle))
        else if ps.any s.wayWaits then .next s
        else
          let vs := (List.range (numAt p 0 4)).map (fun j => BitVec.ofNat 64 (numAt p (12 + 16 * j) 8))
          let r := s.pokeAll ((ps.zip vs).take (completes slow ps))
          .next (if r.1.length < ps.length then r.2.answer 0x21 1 [] else r.2.answer 0x21 0 (bytesOfWord (maskWhere (fun b => !b) r.1)))

/-! ## Writes of one register -/

/-- REGISTER_WRITE: a Scribe core stores to a management address; an access that the map or its rights forbid does nothing, and one whose way waits is not
yet made. (DEDUCED, log entry 92.) -/
def execRegisterWrite (_ : Fin 16) (addr value : Word) (s : State) : Out :=
  match placeOf addr.toNat with
  | none => .next s
  | some p => if s.dev = .up && supervisorWrites p && !s.wayWaits p then .next (s.poke p value) else .next s

/-- SCR_MC_KEY_WRITE: the management controller writes a word of its key over I3C. -/
def execScrMcKeyWrite (word : Fin 12) (value : Word) (s : State) : Out := if s.dev = .up then .next (s.writeKey word.val value) else .next s

/-- WATCHDOG_KICK: a write of SCR_WDOG_KICK. -/
def execWatchdogKick (core : Fin 16) (value : Word) (s : State) : Out := if s.dev = .up then .next (s.kick core.val value) else .next s

/-- The rim address that a DBGREG offset selects, if it selects one: DBG_ for bits [15:12] at 0, AOI_ at 1 (R475). -/
def dbgAddr (offset : Nat) : Option Nat :=
  if offset % 8 != 0 || offset % 0x1000 + 0x2C9000 = fAoiCmdCode.off && offset / 0x1000 = 1 then none
  else match offset / 0x1000 with
    | 0 => some (0x2CA000 + offset % 0x1000)
    | 1 => some (0x2C9000 + offset % 0x1000)
    | _ => none

/-- DBGREG: the TAP reads a register of DBG_ or AOI_, or writes one while the device is frozen or in reset. -/
def execDbgreg (offset : Fin 65536) (value : Option Word) (s : State) : Out :=
  if !s.tapOn then .next s
  else match dbgAddr offset.val, value with
    | none, _ => .next (s.setTap 0x10 0)
    | some a, none =>
      let r := s.readRim 17 a
      .next { r.2.setTap 0x10 r.1 with lastRead := r.1 }
    | some a, some v => if s.dev = .frozen || s.dev = .inReset then .next ((s.poke (.rim false a) v).setTap 0x10 0) else .next (s.setTap 0x10 0)

end Sys2Proof.Machine
end

