-- ==== Sys2Proof/Machine/Scalar.lean ====
section
/-! DEFINITION. The scalar, address and predicate instructions, the well access of the control unit, the special registers and stop
(rows NOP to P_ANDN; R42, R46 to R49, R71, R72, R74). -/

namespace Sys2Proof.Machine

/-! ## Shared operations -/

/-- A core with its control unit replaced. -/
def Core.withCtl (c : Core) (k : Ctl) : Core := { c with ctl := k }

/-- A scalar result from two scalar registers: it waits for both and for the destination, and is poisoned if either is (R48, R50). -/
def scalarRR (f : Word → Word → Word) (_ : Env) (w : Word) (c : Core) : Issue :=
  if c.ctl.busy (fSa w) || c.ctl.busy (fSb w) || c.ctl.busy (fSd w) then .stall
  else .next (c.withCtl (c.ctl.setS (fSd w) (f (c.ctl.s (fSa w)) (c.ctl.s (fSb w))) (c.ctl.sp (fSa w) || c.ctl.sp (fSb w))))

/-- A scalar result from a scalar register and the sign-extended immediate. -/
def scalarRI (f : Word → Word → Word) (_ : Env) (w : Word) (c : Core) : Issue :=
  if c.ctl.busy (fSa w) || c.ctl.busy (fSd w) then .stall
  else .next (c.withCtl (c.ctl.setS (fSd w) (f (c.ctl.s (fSa w)) (imm64 w)) (c.ctl.sp (fSa w))))

/-- The shift amount: the low 6 bits (R46). -/
def shiftAmount (b : Word) : Nat := b.toNat % 64

/-- A predicate from a comparison of sa with sb or the immediate; a poisoned source takes the poisoned-control trap (R46, R49). -/
def compare (f : Word → Word → Bool) (_ : Env) (w : Word) (c : Core) : Issue :=
  let ui := bitOf w 32
  let a := fieldOf w 38 5
  let b := fieldOf w 33 5
  if c.ctl.busy a || (!ui && c.ctl.busy b) then .stall
  else if c.ctl.sp a || (!ui && c.ctl.sp b) then .trap 6 0 (freeDetail 6 w)
  else .next (c.withCtl (c.ctl.setP (fieldOf w 49 3) (f (c.ctl.s a) (if ui then imm64 w else c.ctl.s b))))

/-- A predicate from two predicates (R46). -/
def predLogic (f : Bool → Bool → Bool) (_ : Env) (w : Word) (c : Core) : Issue :=
  .next (c.withCtl (c.ctl.setP (fieldOf w 49 3) (f (c.ctl.p (fieldOf w 46 3)) (c.ctl.p (fieldOf w 43 3)))))

/-- The word address of s.ld and s.st: aa, or with post 0 aa plus the immediate, modulo two to the 32 (R47). (DESIGN CHOICE, log entry 138.) -/
def wellAddr (w : Word) (c : Core) : Nat :=
  let aa := c.ctl.a (fAd w)
  if bitOf w 42 then aa else (aa + imm32 w) % 2 ^ 32

/-- The post-increment of s.ld and s.st (R47). -/
def postInc (w : Word) (k : Ctl) : Ctl := if bitOf w 42 then k.setA (fAd w) (k.a (fAd w) + imm32 w) else k

/-- The capability value of an index (R31); 0 for an index the table does not list. -/
def capability (e : Env) (i : Nat) : Word :=
  BitVec.ofNat 64 (match i with
    | 0x00 => if e.compat then 2 else 3
    | 0x01 => e.width
    | 0x02 => e.height
    | 0x03 => 524288
    | 0x04 => 167772160
    | 0x05 => 512
    | 0x06 => 64
    | 0x07 => 8192
    | 0x08 => 0xF
    | 0x09 => 0x00FF
    | 0x0A => 64
    | 0x0B => 64
    | 0x0C => 16
    | 0x0D => 512
    | 0x0E => 4096
    | 0x0F => bit e.compat
    | 0x10 => 1
    | 0x11 => if e.compat then 0 else 1
    | 0x12 => if e.compat then 0 else 512
    | 0x20 => e.region
    | 0x21 => e.gen
    | _ => 0)

/-- What sr.rd reads at an index, where the table opens it (R72). -/
def specialRead (k : Ctl) (i : Nat) : Option Word :=
  match i with
  | 0x000 => some k.status
  | 0x001 => some k.ctrl
  | 0x002 => some (BitVec.ofNat 64 k.evtVec)
  | 0x003 => some (BitVec.ofNat 64 k.evtPc)
  | 0x004 => some (BitVec.ofNat 64 k.evtStale)
  | i => if 0x010 ≤ i && i ≤ 0x017 then some ((k.cc[i - 0x010]!).setWidth 64) else none

/-- What sr.wr does at an index, where the table opens it to writing: each field by its type (R12, R72). -/
def specialWrite (k : Ctl) (i : Nat) (v : Word) : Option Ctl :=
  match i with
  | 0x000 => some (k.writeStatus v)
  | 0x001 => some (k.writeCtrl v)
  | 0x002 => some { k with evtVec := fieldOf v 0 13 }
  | 0x003 => some { k with evtPc := fieldOf v 0 13 }
  | _ => none

/-! ## System -/

/-- nop changes no state; issue moves on (R42, R46). -/
def workNop (_ : Env) (_ : Word) (c : Core) : Issue := .next c

/-- nop: every field below the guard is reserved. -/
def execNop (i : CoreId) (w : Word) (s : State) : Out := issueRow 0x00 0 (fun w => nz w 0 52) workNop i.val w s

/-- cap.read writes a capability to sd (R71). -/
def workCapRead (e : Env) (w : Word) (c : Core) : Issue :=
  if c.ctl.busy (fSd w) then .stall else .next (c.withCtl (c.ctl.setS (fSd w) (capability e (fieldOf w 0 8)) false))

/-- cap.read: sa and imm32[31:8] are reserved (R71). -/
def execCapRead (i : CoreId) (w : Word) (s : State) : Out :=
  issueRow 0x01 0 (fun w => nz w 32 15 || nz w 8 24) workCapRead i.val w s

/-- sr.rd reads a special register, or takes the state trap (R72). -/
def workSrRd (_ : Env) (w : Word) (c : Core) : Issue :=
  if c.ctl.busy (fSd w) then .stall
  else match specialRead c.ctl (fieldOf w 0 12) with
    | some v => .next (c.withCtl (c.ctl.setS (fSd w) v false))
    | none => .trap 9 0 (freeDetail 9 w)

/-- sr.rd: sa and imm32[31:12] are reserved. -/
def execSrRd (i : CoreId) (w : Word) (s : State) : Out :=
  issueRow 0x02 0 (fun w => nz w 32 15 || nz w 12 20) workSrRd i.val w s

/-- sr.wr writes a special register by field type, or takes the state trap (R72). -/
def workSrWr (_ : Env) (w : Word) (c : Core) : Issue :=
  if c.ctl.busy (fSa w) then .stall
  else match specialWrite c.ctl (fieldOf w 0 12) (c.ctl.s (fSa w)) with
    | some k => .next (c.withCtl k)
    | none => .trap 9 0 (freeDetail 9 w)

/-- sr.wr: sd and imm32[31:12] are reserved. -/
def execSrWr (i : CoreId) (w : Word) (s : State) : Out :=
  issueRow 0x03 0 (fun w => nz w 47 5 || nz w 32 10 || nz w 12 20) workSrWr i.val w s

/-- stop ends issue and sets stopped (R74). -/
def workStop (_ : Env) (_ : Word) (c : Core) : Issue :=
  .stay { c with ctl := { c.ctl with stopped := true, running := false } }

/-- stop: every field below the guard is reserved. -/
def execStop (i : CoreId) (w : Word) (s : State) : Out := issueRow 0x04 0 (fun w => nz w 0 52) workStop i.val w s

/-! ## Scalar arithmetic (R46) -/

/-- s.add. -/
def execSAdd (i : CoreId) (w : Word) (s : State) : Out := issueRow 0x10 0 resvS (scalarRR (· + ·)) i.val w s

/-- s.sub. -/
def execSSub (i : CoreId) (w : Word) (s : State) : Out := issueRow 0x11 0 resvS (scalarRR (· - ·)) i.val w s

/-- s.and. -/
def execSAnd (i : CoreId) (w : Word) (s : State) : Out := issueRow 0x12 0 resvS (scalarRR (· &&& ·)) i.val w s

/-- s.or. -/
def execSOr (i : CoreId) (w : Word) (s : State) : Out := issueRow 0x13 0 resvS (scalarRR (· ||| ·)) i.val w s

/-- s.xor. -/
def execSXor (i : CoreId) (w : Word) (s : State) : Out := issueRow 0x14 0 resvS (scalarRR (· ^^^ ·)) i.val w s

/-- s.sll. -/
def execSSll (i : CoreId) (w : Word) (s : State) : Out :=
  issueRow 0x15 0 resvS (scalarRR (fun a b => a <<< shiftAmount b)) i.val w s

/-- s.srl. -/
def execSSrl (i : CoreId) (w : Word) (s : State) : Out :=
  issueRow 0x16 0 resvS (scalarRR (fun a b => a >>> shiftAmount b)) i.val w s

/-- s.sra. -/
def execSSra (i : CoreId) (w : Word) (s : State) : Out :=
  issueRow 0x17 0 resvS (scalarRR (fun a b => a.sshiftRight (shiftAmount b))) i.val w s

/-- s.mul, the low 64 bits. -/
def execSMul (i : CoreId) (w : Word) (s : State) : Out := issueRow 0x18 0 resvS (scalarRR (· * ·)) i.val w s

/-- s.mulhu, the high 64 bits of the unsigned product. -/
def execSMulhu (i : CoreId) (w : Word) (s : State) : Out :=
  issueRow 0x19 0 resvS (scalarRR (fun a b => BitVec.ofNat 64 (a.toNat * b.toNat / 2 ^ 64))) i.val w s

/-- s.divu; all ones on division by zero. -/
def execSDivu (i : CoreId) (w : Word) (s : State) : Out :=
  issueRow 0x1A 0 resvS (scalarRR (fun a b => if b = 0 then BitVec.allOnes 64 else a / b)) i.val w s

/-- s.remu; the dividend on division by zero. -/
def execSRemu (i : CoreId) (w : Word) (s : State) : Out :=
  issueRow 0x1B 0 resvS (scalarRR (fun a b => if b = 0 then a else a % b)) i.val w s

/-- s.min, signed. -/
def execSMin (i : CoreId) (w : Word) (s : State) : Out :=
  issueRow 0x1C 0 resvS (scalarRR (fun a b => if a.slt b then a else b)) i.val w s

/-- s.max, signed. -/
def execSMax (i : CoreId) (w : Word) (s : State) : Out :=
  issueRow 0x1D 0 resvS (scalarRR (fun a b => if a.slt b then b else a)) i.val w s

/-- s.minu. -/
def execSMinu (i : CoreId) (w : Word) (s : State) : Out :=
  issueRow 0x1E 0 resvS (scalarRR (fun a b => if a.ult b then a else b)) i.val w s

/-- s.maxu. -/
def execSMaxu (i : CoreId) (w : Word) (s : State) : Out :=
  issueRow 0x1F 0 resvS (scalarRR (fun a b => if a.ult b then b else a)) i.val w s

/-- s.addi. -/
def execSAddi (i : CoreId) (w : Word) (s : State) : Out := issueRow 0x20 0 resvI (scalarRI (· + ·)) i.val w s

/-- s.andi. -/
def execSAndi (i : CoreId) (w : Word) (s : State) : Out := issueRow 0x21 0 resvI (scalarRI (· &&& ·)) i.val w s

/-- s.ori. -/
def execSOri (i : CoreId) (w : Word) (s : State) : Out := issueRow 0x22 0 resvI (scalarRI (· ||| ·)) i.val w s

/-- s.xori. -/
def execSXori (i : CoreId) (w : Word) (s : State) : Out := issueRow 0x23 0 resvI (scalarRI (· ^^^ ·)) i.val w s

/-- s.slli; imm32[31:6] is reserved. -/
def execSSlli (i : CoreId) (w : Word) (s : State) : Out :=
  issueRow 0x24 0 resvShift (scalarRI (fun a b => a <<< shiftAmount b)) i.val w s

/-- s.srli; imm32[31:6] is reserved. -/
def execSSrli (i : CoreId) (w : Word) (s : State) : Out :=
  issueRow 0x25 0 resvShift (scalarRI (fun a b => a >>> shiftAmount b)) i.val w s

/-- s.srai; imm32[31:6] is reserved. -/
def execSSrai (i : CoreId) (w : Word) (s : State) : Out :=
  issueRow 0x26 0 resvShift (scalarRI (fun a b => a.sshiftRight (shiftAmount b))) i.val w s

/-- s.lih keeps sd[31:0], so sd is its source as well as its destination (R46, R48). (DEDUCED, log entry 11.) -/
def workSLih (_ : Env) (w : Word) (c : Core) : Issue :=
  if c.ctl.busy (fSd w) then .stall
  else .next (c.withCtl (c.ctl.setS (fSd w) (putField (c.ctl.s (fSd w)) 32 32 (imm32 w)) (c.ctl.sp (fSd w))))

/-- s.lih; its sa field is reserved. -/
def execSLih (i : CoreId) (w : Word) (s : State) : Out := issueRow 0x27 0 (fun w => resvI w || nz w 42 5) workSLih i.val w s

/-! ## Address registers (R46) -/

/-- a.addi sets ad to aa plus imm32, modulo two to the 32. -/
def workAAddi (_ : Env) (w : Word) (c : Core) : Issue :=
  .next (c.withCtl (c.ctl.setA (fAd w) (c.ctl.a (fAa w) + imm32 w)))

/-- a.addi; its s field is reserved. -/
def execAAddi (i : CoreId) (w : Word) (s : State) : Out := issueRow 0x30 0 (fun w => nz w 47 5 || nz w 32 7) workAAddi i.val w s

/-- a.mv sets ad to s[31:0] plus imm32; a poisoned s takes the poisoned-control trap (R49). -/
def workAMv (_ : Env) (w : Word) (c : Core) : Issue :=
  if c.ctl.busy (fSd w) then .stall
  else if c.ctl.sp (fSd w) then .trap 6 0 (freeDetail 6 w)
  else .next (c.withCtl (c.ctl.setA (fAd w) (fieldOf (c.ctl.s (fSd w)) 0 32 + imm32 w)))

/-- a.mv; its aa field is reserved. -/
def execAMv (i : CoreId) (w : Word) (s : State) : Out := issueRow 0x31 0 (fun w => nz w 32 11) workAMv i.val w s

/-- a.rd sets s to aa plus imm32 modulo two to the 32, zero-extended. -/
def workARd (_ : Env) (w : Word) (c : Core) : Issue :=
  if c.ctl.busy (fSd w) then .stall
  else .next (c.withCtl (c.ctl.setS (fSd w) (BitVec.ofNat 64 ((c.ctl.a (fAa w) + imm32 w) % 2 ^ 32)) false))

/-- a.rd; its ad field is reserved. -/
def execARd (i : CoreId) (w : Word) (s : State) : Out := issueRow 0x32 0 (fun w => nz w 43 4 || nz w 32 7) workARd i.val w s

/-! ## Well access (R47) -/

/-- s.ld reads one well word through port 0. An address at or above two to the 19 takes the address-range trap, and neither the access
nor the post-increment takes place. -/
def workSLd (e : Env) (w : Word) (c : Core) : Issue :=
  if c.ctl.busy (fSd w) then .stall
  else
    let a := wellAddr w c
    if 2 ^ 19 ≤ a then .trap 5 0 (a % 2 ^ 27)
    else
      let (ws, c', _) := c.wellRead e ⟨0, 0, c.ctl.pc⟩ false [a]
      let v := ws.headD (0, false)
      .next (c'.withCtl ((postInc w c'.ctl).setS (fSd w) v.1 v.2))

/-- s.ld. -/
def execSLd (i : CoreId) (w : Word) (s : State) : Out := issueRow 0x38 0 resvM workSLd i.val w s

/-- s.st writes s to one well word through port 0, with the register's poison (R47, R48). -/
def workSSt (e : Env) (w : Word) (c : Core) : Issue :=
  if c.ctl.busy (fSd w) then .stall
  else
    let a := wellAddr w c
    if 2 ^ 19 ≤ a then .trap 5 0 (a % 2 ^ 27)
    else
      let c' := c.wellWrite e ⟨0, 0, c.ctl.pc⟩ ⟨a, BitVec.allOnes 8, c.ctl.s (fSd w), c.ctl.sp (fSd w)⟩
      .next (c'.withCtl (postInc w c'.ctl))

/-- s.st. -/
def execSSt (i : CoreId) (w : Word) (s : State) : Out := issueRow 0x39 0 resvM workSSt i.val w s

/-! ## Predicates (R46) -/

/-- p.eq. -/
def execPEq (i : CoreId) (w : Word) (s : State) : Out := issueRow 0x40 0 resvCmp (compare (fun a b => a == b)) i.val w s

/-- p.ne. -/
def execPNe (i : CoreId) (w : Word) (s : State) : Out := issueRow 0x41 0 resvCmp (compare (fun a b => a != b)) i.val w s

/-- p.lt, signed. -/
def execPLt (i : CoreId) (w : Word) (s : State) : Out := issueRow 0x42 0 resvCmp (compare (fun a b => a.slt b)) i.val w s

/-- p.ltu. -/
def execPLtu (i : CoreId) (w : Word) (s : State) : Out := issueRow 0x43 0 resvCmp (compare (fun a b => a.ult b)) i.val w s

/-- p.ge, signed. -/
def execPGe (i : CoreId) (w : Word) (s : State) : Out := issueRow 0x44 0 resvCmp (compare (fun a b => !(a.slt b))) i.val w s

/-- p.geu. -/
def execPGeu (i : CoreId) (w : Word) (s : State) : Out := issueRow 0x45 0 resvCmp (compare (fun a b => !(a.ult b))) i.val w s

/-- p.and. -/
def execPAnd (i : CoreId) (w : Word) (s : State) : Out := issueRow 0x48 0 resvPred (predLogic (fun a b => a && b)) i.val w s

/-- p.or. -/
def execPOr (i : CoreId) (w : Word) (s : State) : Out := issueRow 0x49 0 resvPred (predLogic (fun a b => a || b)) i.val w s

/-- p.xor. -/
def execPXor (i : CoreId) (w : Word) (s : State) : Out := issueRow 0x4A 0 resvPred (predLogic (fun a b => a != b)) i.val w s

/-- p.andn, pa AND NOT pb. -/
def execPAndn (i : CoreId) (w : Word) (s : State) : Out := issueRow 0x4B 0 resvPred (predLogic (fun a b => a && !b)) i.val w s

end Sys2Proof.Machine
end

