-- ==== Sys2Proof/Machine/Scribe.lean ====
section
/-! DEFINITION. The Scribe Complex: management frames and sessions, bindings, the fabric-manager role, forwarded resets, frames from ports and watchdogs (rows
MGMT_FRAME_RECEIVE to DEVICE_RESET, SCRIBE_FRAME_RECEIVE and WATCHDOG_EXPIRY; R333 to R344, R412, R413, R446, R475). -/

namespace Sys2Proof.Machine

/-! ## Management frames (R341) -/

/-- The header of a management frame. -/
structure FrameHead where
  version : Nat
  type : Nat
  session : Nat
  seq : Nat
  opcode : Nat
  status : Nat
  length : Nat
  deriving DecidableEq, Repr

/-- The header that a frame's first sixteen bytes hold. -/
def frameHead (bs : List Byte) : FrameHead :=
  ⟨numAt bs 0 1, numAt bs 1 1, numAt bs 2 2, numAt bs 4 4, numAt bs 8 2, numAt bs 10 2, numAt bs 12 4⟩

/-- A header's sixteen bytes. -/
def FrameHead.bytes (h : FrameHead) : List Byte :=
  bytesOfNat 1 h.version ++ bytesOfNat 1 h.type ++ bytesOfNat 2 h.session ++ bytesOfNat 4 h.seq ++ bytesOfNat 2 h.opcode ++
    bytesOfNat 2 h.status ++ bytesOfNat 4 h.length

/-- The nonce of a frame: the direction, three zero bytes, the sequence number and four zero bytes. -/
def nonceOf (direction seq : Nat) : List Byte := bytesOfNat 1 direction ++ bytesOfNat 3 0 ++ bytesOfNat 4 seq ++ bytesOfNat 4 0

/-- The frame that carries a reply, under the keys of its session. -/
def Reply.frame (key : Nat) (r : Reply) : List Byte :=
  let h := (FrameHead.mk 1 1 r.session r.seq r.opcode r.status r.payload.length).bytes
  if r.session = 0 then h ++ r.payload else h ++ Config.gcmSeal key (nonceOf 1 r.seq) h r.payload

/-- The first field of a request's header that is bad, given the payload that the frame carries. -/
def headBad (h : FrameHead) (payload : List Byte) : Option Nat :=
  if h.version != 1 then some 0
  else if h.type != 0 then some 1
  else if h.status != 0 then some 10
  else if 8000 < h.length || h.length != payload.length then some 12
  else none

/-! ## Sequence (R343) -/

/-- A reply sent outside the sequence of its session, and not kept. -/
def State.replyNow (s : State) (iface : Nat) (h : FrameHead) (status : Nat) (payload : List Byte) : State :=
  { s with scribe := { s.scribe with sent := some ⟨iface, h.session, h.seq, h.opcode, status, payload⟩ } }

/-- A session whose waiting requests follow in sequence, with those that enter the queue. -/
def Session.pull : Nat → Session → List MReq → Session × List MReq
  | 0, x, out => (x, out)
  | fuel + 1, x, out =>
    match x.waiting.find? (fun w => decide (w.2.seq = x.next)) with
    | none => (x, out)
    | some w => Session.pull fuel { x with next := x.next + 1, waiting := x.waiting.filter (fun v => v.2.seq != x.next) } (out ++ [w.2])

/-- A request that has arrived: a kept reply is sent again; the next in sequence joins the queue with those that waited for it; one up to 64 beyond the last
executed waits; any other is out of sequence. (DEDUCED, log entry 97.) -/
def State.accept (s : State) (r : MReq) : State :=
  let x := s.session r.iface r.session
  match x.kept.find? (fun k => decide (k.seq = r.seq)) with
  | some k => { s with scribe := { s.scribe with sent := some k } }
  | none =>
    if r.seq = x.next && r.seq ≤ x.last + 64 then
      let y := Session.pull (x.waiting.length) { x with next := x.next + 1 } [r]
      let s := s.setSession r.iface r.session y.1
      { s with scribe := { s.scribe with reqs := s.scribe.reqs ++ y.2 } }.settle
    else if x.next < r.seq && r.seq ≤ x.last + 64 then
      if x.waiting.any (fun w => decide (w.2.seq = r.seq)) then s
      else s.setSession r.iface r.session { x with waiting := x.waiting ++ [(s.mono, r)] }
    else if x.last < r.seq && r.seq < x.next then s
    else { s with scribe := { s.scribe with sent := some ⟨r.iface, r.session, r.seq, r.opcode, 4, detailWord x.last⟩ } }

/-! ## Arrival (R341, R396, R446, R475) -/

/-- Whether the Scribe answers requests: the device is up, past the first phase of its start, or frozen; otherwise the island alone does. -/
def State.answers (s : State) : Bool := decide (s.dev = .frozen) || (decide (s.dev = .up) && decide (2 ≤ s.fld fRstStatusPhase))

/-- The island's answer: a REG_READ of its own registers over I3C, and busy for every other request (R475). (DEDUCED, log entry 96.) -/
def State.islandAnswer (s : State) (iface : Nat) (h : FrameHead) (p : List Byte) : State :=
  let own (x : Place) : Bool := match x with
    | .rim false a => decide (0x2C9000 ≤ a) && decide (a < 0x2CA000) && !boardOnly a
    | _ => false
  if iface = 1 && h.session = 0 && h.type = 0 && h.opcode = 0x20 && (requestBad 8 p).isNone && (requestPlaces 8 p).all own then
    let r := s.peekAll (requestPlaces 8 p)
    r.2.replyNow iface h 0 (readReply r.1)
  else s.replyNow iface h 1 []

/-- A frame's payload: in the clear on session 0, and otherwise decrypted, or none where the session is not open or the tag fails. -/
def State.openFrame (s : State) (h : FrameHead) (bs : List Byte) : Option (List Byte) :=
  if h.session = 0 then some (bs.drop 16)
  else match s.scribe.sessions.look h.session none with
    | none => none
    | some x => Config.gcmOpen x.key (nonceOf 0 h.seq) (bs.take 16) (bs.drop 16)

/-- A frame received on an interface: 0 the management port, 1 I3C. (DEDUCED, log entry 95.) -/
def State.receiveFrame (s : State) (iface : Nat) (bs : List Byte) : State :=
  let h := frameHead bs
  if bs.length < 16 || s.dev = .off then s
  else if !s.answers then s.islandAnswer iface h (bs.drop 16)
  else if 4 < h.session then s.replyNow iface h 2 (detailWord 2)
  else match s.openFrame h bs with
    | none => s.bump fScrAuthFailCount 1
    | some p =>
      match headBad h p with
      | some o => s.replyNow iface h 2 (detailWord o)
      | none => s.accept ⟨iface, h.session, h.seq, h.opcode, p, s.mono⟩

/-- The I3C target's static address (R456). -/
def i3cStatic : Nat := 0x4C

/-- A transfer on I3C: SETDASA at the static address gives the target its dynamic address, in the upper seven bits of its byte; a private transfer to that address is a frame.
(PRESUMED, log entry 156.) -/
def State.i3cTransfer (s : State) (addr : Nat) (bs : List Byte) : State :=
  if s.dev = .off then s
  else match bs with
    | [b] => if addr = i3cStatic then { s with island := { s.island with i3c := b.toNat / 2 } } else s
    | _ => if addr = s.island.i3c && addr != 0 then s.receiveFrame 1 bs else s

/-- MGMT_FRAME_RECEIVE: a UDP payload on the management port, taken at SCR_MGMT_CTRL.udp_port, or a transfer to an address on I3C. -/
def execMgmtFrameReceive (iface : Fin 2) (addr : Fin 65536) (bytes : List Byte) (s : State) : Out :=
  if iface.val = 1 then .next (s.i3cTransfer addr.val bytes)
  else if addr.val != s.fld fScrMgmtCtrlUdpPort then .next s else .next (s.receiveFrame 0 bytes)

/-- SEQUENCE_GAP_TIMEOUT: requests that have waited 100 ms for a gap are discarded without reply, with all that wait beyond it. -/
def execSequenceGapTimeout (iface : Fin 2) (session : Fin 5) (s : State) : Out :=
  if s.dev != .up then .next s else
  let x := s.session iface.val session.val
  if x.waiting.any (fun w => decide (w.1 + 100000000 ≤ s.mono)) then .next (s.setSession iface.val session.val { x with waiting := [] }) else .next s

/-! ## Sessions and status (R334, R342, R343) -/

/-- The controller's public key as SCR_MC_KEY holds it. -/
def State.mcKey (s : State) : List Byte := (List.range 12).flatMap (fun k => bytesOfWord (s.reg (fScrMcKeyKey.off + 8 * k)))

/-- The lowest session number that is not open. -/
def State.freeSession (s : State) : Option Nat := ([1, 2, 3, 4]).find? (fun n => (s.scribe.sessions.look n none).isNone)

/-- SESSION_OPEN: the first after a reset locks the controller's key; a fifth session is answered with busy, a signature that fails is refused and counted, and
otherwise a session opens at the lowest free number. `fresh` is the device's choice of its own ephemeral key. (DESIGN CHOICE, log entry 98.) -/
def execSessionOpen (fresh : Nat) (s : State) : Out :=
  match s.payload 0x01 with
  | none => .next s
  | some p =>
    if s.dev != .up then .next s
    else
      let s := { s with scribe := { s.scribe with keyLocked := true } }
      match s.freeSession with
      | none => .next (s.answer 0x01 1 [])
      | some n =>
        match badPayload p 192 [(0, 96, true), (96, 96, true)] with
        | some o => .next (s.answer 0x01 2 (detailWord o))
        | none =>
        if s.fld fScrStatusMcKeyValid = 0 || !Config.verifies 0 s.mcKey (p.take 96) (p.drop 96) then
          .next ((s.bump fScrAuthFailCount 1).answer 0x01 3 [])
        else
          let s := s.setSession 0 n { sessionNew with key := Config.sessionKey (p.take 96) fresh }
          let s := s.setFld fScrStatusSessions s.scribe.sessions.length
          .next (s.answer 0x01 0 (detailWord n ++ Config.openReply (p.take 96) fresh))

/-- SESSION_CLOSE: the session that sends it ends, once it has been answered. -/
def execSessionClose (s : State) : Out :=
  match s.scribe.reqs with
  | [] => .next s
  | r :: _ => if s.dev = .up && r.opcode = 0x02 then .next ((s.answerHead 0x02 0 []).endSession r.session).settle else .next s

/-- The place of a cause in the fault summary. -/
def FaultCause.place : FaultCause → Nat
  | .powerOn => 0
  | .stop => 1
  | .rail => 2
  | .refclk => 3
  | .failedStart => 4
  | .recovery => 5
  | .logLost => 6
  | .freeze => 7

/-- The field repair entries of the failures that the device knows of: its failed clusters, the positions that its repair map has taken out of their rows, every core marked failed, a
second one of a row among them, and those found in service since (R398, R418). -/
def State.failures (s : State) : List Word :=
  (((List.range 144).filter (fun n => decide (s.fld (fldAt fClkClStatusFailed (0x100 * n)) = 1))).map (fun n => repairEntry 2 n 0 0) ++
  (List.range 1152).filterMap (fun row =>
    let f := s.fld (rowReg row fRstRowmapFailQx)
    if f = 7 then none else some (repairEntry 1 (row % 12 + 12 * (row / 96)) f (row / 12 % 8))) ++
  (s.cores.filter (fun x => decide (x.2.fld fCoreSuspectFailed = 1))).map (fun x => repairEntry 1 (clusterOfCore x.1) (pxOf x.1 % 7) (pyOf x.1 % 8)) ++
  s.notes.filterMap (fun n => match n with
    | .repairEntry e _ => some e
    | _ => none)).eraseDups

/-- The first word of STATUS: the lifecycle state, start-OK, the failed starts, Minimal Recovery Mode, the causes of FAULT_N, fuses without a majority and a restart
refused. (DESIGN CHOICE, log entry 101.) -/
def State.statusWord (s : State) : Nat :=
  s.lifecycle + 8 * s.fld fRstStatusStartOk + 16 * s.fld fAoiStartFailedStarts + 64 * s.fld fRstStatusMrm +
    2 ^ 8 * ((s.island.faults.map FaultCause.place).eraseDups.foldl (fun n k => n + 2 ^ k) 0) + 2 ^ 16 * bit s.island.badFuses + 2 ^ 17 * bit s.island.refused

/-- STATUS. -/
def execStatus (s : State) : Out :=
  if s.asked 0x03 && (s.dev = .up || s.dev = .frozen) then
    .next (s.answer 0x03 0 (detailWord s.statusWord ++ (s.failures.take 999).flatMap bytesOfWord))
  else .next s

/-! ## Bindings (R208, R336) -/

/-- BINDING_SET: in its region's turn a binding of a ready region (R277), to a device in the fabric's range and of class request, collective or forward, is set. -/
def execBindingSet (region : Fin 64) (binding : Fin 256) (dev : Fin 262144) (rgn : Fin 64) (gen : Fin 256) (x y : Fin 128) (ep : Fin 64)
    (cls : Fin 8) (s : State) : Out :=
  let r := region.val
  if !s.asked 0x23 || !s.serving then .next s
  else
    let v := s.voteWhere (fun a => decide (a = fFabIdValid.off) || decide (a = fRgnCfgEnable.off + 0x40 * r))
    if !v.1 then .next v.2 else
    let s := v.2
    match s.scrTurn ⟨r, s.headSince, none, true⟩ (s.scrWaits (some r)) with
    | none => .next s
    | some f =>
      let s := s.scrServed f
      if s.rgn r fRgnStatusState != 1 then .next (s.answer 0x23 0x12 (detailWord r))
      else if (cls.val != 2 && cls.val != 3 && cls.val != 4) || s.fld fFabIdValid = 0 || !s.idInRange dev.val then
        .next (s.answer 0x23 0x16 (detailWord binding.val))
      else
        let b : Binding := ⟨dev.val, rgn.val, gen.val, x.val, y.val, ep.val, cls.val⟩
        .next ({ s with bindings := s.bindings.put (256 * r + binding.val) (some b) none }.answer 0x23 0 [])

/-! ## The fabric manager (R339, R340) -/

/-- A message from the Scribe gateway to another device's Scribe Complex in the escape class: management or fabric manager by its kind, for a region and generation where
it names them (R321, R337, R340). One without a route is for this device, and one
for another device that has none is discarded (R322). -/
def State.escapeSend (s : State) (kind dev region gen : Nat) (route : List Nat) (bytes : Nat) (b : FabBody) : State :=
  let x : FabPkt := { s.portPacket 0 kind b with dstDev := dev, dstRegion := region, gen := gen, route := route, flits := ceilDiv (32 + 8 + bytes) 128 }
  if !route.isEmpty then s.await x 17 16 false 0
  else if s.fld fFabIdValid = 1 && s.fld fFabIdDeviceId = dev then s.escapeHere x
  else s.bump fFabEscDropCount 1

/-- Whether a rim address is that of a register which a fabric manager writes on the devices that it manages: one of the FAB_ block, or a port's admission (R339). -/
def fmRegister (a : Nat) : Bool :=
  (decide (0x200000 ≤ a) && decide (a < 0x280000) && a % 8 = 0) || (decide (0x2D0000 ≤ a) && decide (a < 0x2E0000) && a % 0x1000 = 0)

/-- A command of this device's fabric-manager role: to a device that it manages, or itself, and of the registers that the role writes; any other is not sent (R339).
(DEDUCED, log entry 102.) -/
def State.fmCommand (s : State) (x : FmSend) : State :=
  if s.fld fScrStatusFmRole = 1 && (s.scribe.managed.contains x.eui || decide (x.eui = Config.eui.toNat)) && x.writes.all (fun w => fmRegister w.1.toNat) then
    let bs := x.writes.flatMap (fun w => bytesOfWord w.1 ++ bytesOfWord w.2)
    s.escapeSend 8 x.dev 0 0 x.route bs.length (.scribe Config.eui bs)
  else s

/-- FM_ENABLE: the role is turned on for the devices named, unless this device has no ID; `sends` are the fabric manager's first commands to them: device IDs and
configuration, the escape tree, routing tables and epochs, and the time tree (R339). (DEDUCED, log entry 102.) -/
def execFmEnable (devices : List Nat) (sends : List FmSend) (s : State) : Out :=
  if !s.asked 0x40 || !s.serving then .next s
  else
    let v := s.voteWhere (fun a => decide (a = fFabIdValid.off))
    if !v.1 then .next v.2 else
    let s := v.2
    if s.fld fFabIdValid = 0 then .next (s.answer 0x40 5 (detailWord s.lifecycle)) else
    let s := { s with scribe := { s.scribe with managed := devices } }.setFld fScrStatusFmRole 1
    .next ((sends.foldl State.fmCommand s).answer 0x40 0 [])

/-- FM_TRUST: the fabric manager that this device obeys is named, or none for a payload of zero. -/
def execFmTrust (s : State) : Out :=
  match s.payload 0x41 with
  | none => .next s
  | some p =>
    if !s.serving then .next s
    else match badPayload p 8 [(0, 8, true)] with
    | some o => .next (s.answer 0x41 2 (detailWord o))
    | none =>
      let v := BitVec.ofNat 64 (numAt p 0 8)
      .next (((s.setReg fScrFmEuiEui.off v).setFld fScrStatusFmNamed (bit (v != 0))).answer 0x41 0 [])

/-- Whether a fabric-manager command's source is obeyed: the one named, or this device's own role. -/
def State.trusts (s : State) (source : Word) : Bool :=
  (s.fld fScrStatusFmNamed = 1 && decide (source = s.reg fScrFmEuiEui.off)) || (s.fld fScrStatusFmRole = 1 && decide (source = Config.eui))

/-- A write that a fabric-manager command makes: to a FAB_ register, or to a port's admission. -/
def State.fabricWrite (s : State) (x : Word × Word) : State :=
  let a := x.1.toNat
  if !fmRegister a then s
  else if a < 0x280000 then s.poke (.rim false a) x.2
  else s.writeAdmit ((a - 0x2D0000) / 0x1000) (bitOf x.2 2)

/-- FM_COMMAND_ARRIVAL: a message of kind 8 in the receive space is a fabric manager's command: `writes` are those that it asks for, and `reset` says that it resets the
device. One from a source that is not obeyed is discarded and counted. (DEDUCED, log entry 102.) -/
def execFmCommandArrival (idx : Nat) (writes : List (Word × Word)) (reset : Bool) (s : State) : Out :=
  match s.scribe.escape[idx]? with
  | none => .next s
  | some x =>
    match x.body with
    | .scribe source _ =>
      if !s.serving || x.kind != 8 then .next s
      else
        let ok := s.trusts source
        let s := { s with scribe := { s.scribe with escape := s.scribe.escape.eraseIdx idx } }
        if !ok then .next (s.bump fScrAuthFailCount 1)
        else if reset then .next (s.deviceReset 7)
        else .next (writes.foldl State.fabricWrite s)
    | _ => .next s

/-- JOB_RESET_ARRIVAL: a forwarded job reset is acknowledged with ok, and resets its region where the generations match; an acknowledgement that has come back leaves the
receive space (R337). -/
def execJobResetArrival (idx : Nat) (s : State) : Out :=
  match s.scribe.escape[idx]? with
  | none => .next s
  | some x =>
    match x.body with
    | .jobReset _ =>
      if !s.serving then .next s
      else
        let r := x.dstRegion % 64
        let s := { s with scribe := { s.scribe with
          escape := s.scribe.escape.eraseIdx idx, acked := s.scribe.acked ++ [(x.srcDev, r)] } }
        let s := s.escapeSend 7 x.srcDev x.srcRegion 0 (Config.escRoute x.srcDev s.mono) 2 (.scribe Config.eui (bytesOfNat 2 0))
        .next (if s.rgn r fRgnCfgEnable = 1 && s.rgn r fRgnStatusGeneration = x.gen then s.resetJob r else s)
    | .scribe _ _ =>
      if s.serving && x.kind = 7 then .next { s with scribe := { s.scribe with escape := s.scribe.escape.eraseIdx idx } } else .next s
    | _ => .next s

/-! ## DEVICE_RESET (R388, R412, R413) -/

/-- The last reply sent, kept across what follows it. -/
def State.keepSent (s t : State) : State := { t with scribe := { t.scribe with sent := s.scribe.sent } }

/-- DEVICE_RESET: the device is reset, with the lifecycle state changed where the payload names a target; a change that is not allowed is refused. (DEDUCED, log entry 103.) -/
def execDeviceReset (target : Option (Fin 5)) (eui : Option Word) (s : State) : Out :=
  if !s.asked 0x50 || (s.dev != .up && s.dev != .frozen) then .next s
  else match target with
    | none =>
      let t := s.answerHead 0x50 0 []
      .next (t.keepSent (t.deviceReset 2))
    | some g =>
      match s.lifeTo g.val eui with
      | none => .next (s.answer 0x50 5 (detailWord s.lifecycle))
      | some v =>
        let t := s.answerHead 0x50 0 []
        .next (t.keepSent (t.changeLife v))

/-! ## Frames from ports (R307, R338) -/

/-- A frame of the firmware's own joins a port's Scribe egress queue and leaves when its link is up (R307, R338). -/
def State.scribeSend (s : State) (p link : Nat) (bs : List Byte) (tag : Option (Nat × Nat)) : State :=
  (s.mapPort p (fun q => { q with scribeQ := q.scribeQ ++ [⟨link, bs, tag⟩] })).drainScribe p

/-- The oldest frame passed to the firmware, taken and counted. -/
def State.takeFrame (s : State) : State := { s with scrFrames := s.scrFrames.drop 1 }.bump fScrFramesInCount 1

/-- Whether the work is at hand of a region whose ring no withheld credits keep from it (R356). -/
def State.workWaits (s : State) (j : ScrJob) : Bool :=
  match j with
  | .pass _ f => s.deliveryWaits 16 f.client
  | _ => false

/-- A piece of a region's work done (R264, R277, R335, R338). -/
def State.doWork (s : State) (j : ScrJob) : State :=
  match j with
  | .enrolOwn p entries => s.admitClient true false p entries
  | .pass port f => s.handIngress port f
  | .forward dev region gen => s.escapeSend 7 dev region gen (Config.escRoute dev s.mono) 0 (.jobReset Config.eui)

/-- The next work of the Scribe Complex's queues for regions, in their weighted turns; an admission or a binding at the head of the requests is in its region's queue too,
and is done by its own command; `binding` is the region of the binding (R277). -/
def State.serveWork (s : State) (binding : Option Nat) : State :=
  match s.scrPick (s.scrWaits binding) with
  | none => s
  | some (x, f) =>
    match s.scribe.work.find? (fun y => decide (y.wait = x)) with
    | none => s
    | some y =>
      if s.workWaits y.job then s
      else ({ s with scribe := { f s.scribe with work := s.scribe.work.eraseP (fun z => decide (z.wait = x)) } }).doWork y.job

/-- SCRIBE_FRAME_RECEIVE: the firmware takes the oldest frame passed to it, and answers it, has it passed to a client in its region's turn, or discards it; or it does
the work whose turn it is, sends a frame of its own, or does its fabric-manager role's part. (DEDUCED, log entry 105.) -/
def execScribeFrameReceive (act : ScrAct) (s : State) : Out :=
  if s.dev != .up then .next s
  else match act, s.scrFrames with
    | .fabric sends, _ => .next (if s.serving then sends.foldl State.fmCommand s else s)
    | .serve b, _ => .next (s.serveWork (b.map (·.val)))
    | .own port link bytes tag, _ => .next (s.scribeSend port.val link.val bytes (tag.map (fun t => (t.1.val, t.2.val))))
    | _, [] => .next s
    | .answer link bytes tag, f :: _ => .next (s.takeFrame.scribeSend f.port link.val bytes (tag.map (fun t => (t.1.val, t.2.val))))
    | .pass client, f :: _ =>
      let k := client.val
      if s.cli k fCliCfgValid = 0 then .next (s.takeFrame.bump fScrFramesDropCount 1)
      else
        let r := s.cli k fCliCfgRegion
        .next (s.takeFrame.scrQueue ⟨r, s.mono, .pass f.port ⟨k, r, 2, f.bytes, f.time / 4, s.mono, none⟩⟩)
    | .discard, _ :: _ => .next (s.takeFrame.bump fScrFramesDropCount 1)

/-! ## Watchdogs (R344, R394) -/

/-- The block reset of a Scribe core is done: the core no longer runs, and its watchdog is disabled until the next kick. (DEDUCED, log entry 104.) -/
def State.coreDown (s : State) (n : Nat) : State :=
  let s := (s.mapWdog n (fun w => { w with resetting := none })).setFld (fldAt fScrWdogCtrlArmed (8 * n)) 0
  s.setFld fScrStatusCoresUp (s.fld fScrStatusCoresUp &&& (65535 - 2 ^ n))

/-- WATCHDOG_EXPIRY: a watchdog that has not been kicked in its time resets the device for core 0, or for any core the second time in ten seconds; otherwise its
core's block reset begins, the expiry is counted and core 0 is interrupted. `acks` says that the core acknowledges at once. -/
def execWatchdogExpiry (core : Fin 16) (acks : Bool) (s : State) : Out :=
  let n := core.val
  let w := s.wdog n
  if s.dev != .up || s.fld (fldAt fScrWdogCtrlArmed (8 * n)) = 0 || w.resetting.isSome ||
      s.mono < w.kicked + 1000000 * 2 ^ s.fld (fldAt fScrWdogCtrlTimeout (8 * n)) then .next s
  else if n = 0 || w.expired.any (fun t => decide (s.mono ≤ t + 10000000000)) then .next (s.deviceReset 3)
  else
    let s := (s.mapWdog n (fun w => { w with expired := [s.mono], resetting := some s.mono })).bump fScrWdogExpiredCount 1
    let s := { s with scribe := { s.scribe with irqs := s.scribe.irqs ++ [n] } }
    .next (if acks then s.coreDown n else s)

/-- SCRIBE_CORE_BLOCK_RESET_TIMEOUT: a core that has not acknowledged within a millisecond is reset regardless. -/
def execScribeCoreBlockResetTimeout (core : Fin 16) (s : State) : Out :=
  match (s.wdog core.val).resetting with
  | none => .next s
  | some t => if s.dev = .up && t + 1000000 ≤ s.mono then .next (s.coreDown core.val) else .next s

end Sys2Proof.Machine
end

