-- ==== Sys2Proof/Machine/WellPort.lean ====
section
/-! DEFINITION. The well's own events: a forced asynchronous word and an access of the scrub port (rows ASYNC_WORD_FORCED and
WELL_SCRUB_ACCESS; R146, R159). -/

namespace Sys2Proof.Machine

/-- The source of the trap for a port of the asynchronous class (R146, R151): on port 10, `put` says that the word is of cp.rput. -/
def asyncSource (port : Nat) (put : Bool) : Nat :=
  if port = 11 || port = 12 || (port = 10 && !put) then 4 else 3

/-- The index in the trap of a forced word (R64): that of the copy, or of the send, that the word is of, at place `run` of its engine's started
instructions; a word that no instruction of the core is at work on has none. -/
def Core.forcedIndex (port : Nat) (put : Bool) (run detail : Nat) (c : Core) : Nat :=
  let none_ := (Config.trapIndex detail).toNat
  if asyncSource port put = 3 then ((c.cp.running[run]?).map (fun r => r.op.pc)).getD none_
  else if port = 10 then ((c.ch.running[run]?).map (fun o => o.pc)).getD none_
  else none_

/-- An asynchronous word of a port takes its bank by force (R146): the counter, the marks, and for the first since region start the trap.
Ports 13 and 14 are never forced, and with async_limit 0 none is. -/
def Core.forced (e : Env) (port : Nat) (put : Bool) (run addr : Nat) (c : Core) : Core :=
  if e.alive && 8 ≤ port && port != 13 && port != 14 && decide (addr < 2 ^ 19) && c.fld fWellCtrlAsyncLimit != 0 && !c.well.wiping then
    let c := (c.bump fWellAsyncForcedCount 1).setFld fWellStatusBreachSeen 1
    let c := { c with ctl := { c.ctl with breach := true } }
    if c.well.forcedTrap then c
    else
      let d := addr + port * 2 ^ 19
      { c with well := { c.well with forcedTrap := true } }.asyncTrap e 4 (c.forcedIndex port put run d) (asyncSource port put) d
  else c

/-- ASYNC_WORD_FORCED. -/
def execAsyncWordForced (i : CoreId) (port : Fin 16) (put : Bool) (run addr : Nat) (s : State) : Out :=
  .next (s.putCore i (Core.forced (s.env i) port.val put run addr (s.core i)))

/-- One access of the scrub port: the next word in address order when the scrub is enabled, or a word queued for write-back. A single-bit
error is counted and corrected, an uncorrectable one counted, recorded and reported (R156, R157, R159). -/
def Core.scrub (e : Env) (addr : Nat) (c : Core) : Core :=
  let turn := decide (addr = c.well.scrubNext) && c.fld fWellCtrlScrubEn = 1
  let queued := c.well.scrubQ.contains addr
  if c.well.wiping || !(decide (addr < 2 ^ 19)) || !(turn || queued) then c
  else
    let was := c.well.mem.check addr
    let q := c.well.scrubQ.filter (fun a => a != addr)
    let c := c.wellCheck e addr
    let mem := if was = .ce then c.well.mem.setCheck addr .ok else c.well.mem
    { c with well := { c.well with
      mem := mem
      scrubQ := q
      scrubNext := if turn then (addr + 1) % 2 ^ 19 else c.well.scrubNext } }

/-- Well words whose bits an upset has turned since: each with whether the error is beyond correction (R156). -/
def Core.wellUpset (upset : List (Nat × Bool)) (c : Core) : Core :=
  { c with well := { c.well with mem := (upset.filter (fun x => decide (x.1 < 2 ^ 19))).foldl Mem.upset c.well.mem } }

/-- WELL_SCRUB_ACCESS: the well's cluster must have its clock. -/
def execWellScrubAccess (i : CoreId) (addr : Nat) (upset : List (Nat × Bool)) (s : State) : Out :=
  let s := s.putCore i ((s.core i).wellUpset upset)
  if s.alive (clusterOfCore i.val) then .next (s.putCore i (Core.scrub (s.env i) addr (s.core i))) else .next s

end Sys2Proof.Machine
end

