-- ==== Sys2Proof/Machine/Dispatch.lean ====
section
/-! DEFINITION. exec: one arm per command, each a direct call of the command's meaning. -/

namespace Sys2Proof.Machine

/-- The effect of a command on everything but the queue. -/
def exec (i : Instr) (s : State) : Host.Outcome State Fault Refusal :=
  match i with
  | .nop core w => Sys2Proof.Machine.execNop core w s
  | .capRead core w => Sys2Proof.Machine.execCapRead core w s
  | .srRd core w => Sys2Proof.Machine.execSrRd core w s
  | .srWr core w => Sys2Proof.Machine.execSrWr core w s
  | .stop core w => Sys2Proof.Machine.execStop core w s
  | .sAdd core w => Sys2Proof.Machine.execSAdd core w s
  | .sSub core w => Sys2Proof.Machine.execSSub core w s
  | .sAnd core w => Sys2Proof.Machine.execSAnd core w s
  | .sOr core w => Sys2Proof.Machine.execSOr core w s
  | .sXor core w => Sys2Proof.Machine.execSXor core w s
  | .sSll core w => Sys2Proof.Machine.execSSll core w s
  | .sSrl core w => Sys2Proof.Machine.execSSrl core w s
  | .sSra core w => Sys2Proof.Machine.execSSra core w s
  | .sMul core w => Sys2Proof.Machine.execSMul core w s
  | .sMulhu core w => Sys2Proof.Machine.execSMulhu core w s
  | .sDivu core w => Sys2Proof.Machine.execSDivu core w s
  | .sRemu core w => Sys2Proof.Machine.execSRemu core w s
  | .sMin core w => Sys2Proof.Machine.execSMin core w s
  | .sMax core w => Sys2Proof.Machine.execSMax core w s
  | .sMinu core w => Sys2Proof.Machine.execSMinu core w s
  | .sMaxu core w => Sys2Proof.Machine.execSMaxu core w s
  | .sAddi core w => Sys2Proof.Machine.execSAddi core w s
  | .sAndi core w => Sys2Proof.Machine.execSAndi core w s
  | .sOri core w => Sys2Proof.Machine.execSOri core w s
  | .sXori core w => Sys2Proof.Machine.execSXori core w s
  | .sSlli core w => Sys2Proof.Machine.execSSlli core w s
  | .sSrli core w => Sys2Proof.Machine.execSSrli core w s
  | .sSrai core w => Sys2Proof.Machine.execSSrai core w s
  | .sLih core w => Sys2Proof.Machine.execSLih core w s
  | .aAddi core w => Sys2Proof.Machine.execAAddi core w s
  | .aMv core w => Sys2Proof.Machine.execAMv core w s
  | .aRd core w => Sys2Proof.Machine.execARd core w s
  | .sLd core w => Sys2Proof.Machine.execSLd core w s
  | .sSt core w => Sys2Proof.Machine.execSSt core w s
  | .pEq core w => Sys2Proof.Machine.execPEq core w s
  | .pNe core w => Sys2Proof.Machine.execPNe core w s
  | .pLt core w => Sys2Proof.Machine.execPLt core w s
  | .pLtu core w => Sys2Proof.Machine.execPLtu core w s
  | .pGe core w => Sys2Proof.Machine.execPGe core w s
  | .pGeu core w => Sys2Proof.Machine.execPGeu core w s
  | .pAnd core w => Sys2Proof.Machine.execPAnd core w s
  | .pOr core w => Sys2Proof.Machine.execPOr core w s
  | .pXor core w => Sys2Proof.Machine.execPXor core w s
  | .pAndn core w => Sys2Proof.Machine.execPAndn core w s
  | .br core w => Sys2Proof.Machine.execBr core w s
  | .jl core w => Sys2Proof.Machine.execJl core w s
  | .jr core w => Sys2Proof.Machine.execJr core w s
  | .loop core w => Sys2Proof.Machine.execLoop core w s
  | .ccWait core w => Sys2Proof.Machine.execCcWait core w s
  | .ccSet core w => Sys2Proof.Machine.execCcSet core w s
  | .ccRd core w => Sys2Proof.Machine.execCcRd core w s
  | .fence core w => Sys2Proof.Machine.execFence core w s
  | .waitLimitBreach core => Sys2Proof.Machine.execWaitLimitBreach core s
  | .evPop core w => Sys2Proof.Machine.execEvPop core w s
  | .evWait core w => Sys2Proof.Machine.execEvWait core w s
  | .evRet core w => Sys2Proof.Machine.execEvRet core w s
  | .evCtl core w => Sys2Proof.Machine.execEvCtl core w s
  | .tNow core w => Sys2Proof.Machine.execTNow core w s
  | .tArm core w => Sys2Proof.Machine.execTArm core w s
  | .tCancel core w => Sys2Proof.Machine.execTCancel core w s
  | .hintPress core w => Sys2Proof.Machine.execHintPress core w s
  | .eventArrival core cls => Sys2Proof.Machine.execEventArrival core cls s
  | .handlerEntry core => Sys2Proof.Machine.execHandlerEntry core s
  | .mxHand core w => Sys2Proof.Machine.execMxHand core w s
  | .mxLoad core w => Sys2Proof.Machine.execMxLoad core w s
  | .mxAnchor core w => Sys2Proof.Machine.execMxAnchor core w s
  | .mxStream core w => Sys2Proof.Machine.execMxStream core w s
  | .mxDrain core w => Sys2Proof.Machine.execMxDrain core w s
  | .mxFlags core w => Sys2Proof.Machine.execMxFlags core w s
  | .mxLdacc core w => Sys2Proof.Machine.execMxLdacc core w s
  | .matrixStart core => Sys2Proof.Machine.execMatrixStart core s
  | .strokeEntry core => Sys2Proof.Machine.execStrokeEntry core s
  | .streamFeedTimeout core => Sys2Proof.Machine.execStreamFeedTimeout core s
  | .matrixCompletion core idx => Sys2Proof.Machine.execMatrixCompletion core idx s
  | .vxLd core w => Sys2Proof.Machine.execVxLd core w s
  | .vxSt core w => Sys2Proof.Machine.execVxSt core w s
  | .vxAdd core w => Sys2Proof.Machine.execVxAdd core w s
  | .vxSub core w => Sys2Proof.Machine.execVxSub core w s
  | .vxMul core w => Sys2Proof.Machine.execVxMul core w s
  | .vxFma core w => Sys2Proof.Machine.execVxFma core w s
  | .vxMin core w => Sys2Proof.Machine.execVxMin core w s
  | .vxMax core w => Sys2Proof.Machine.execVxMax core w s
  | .vxFn core w => Sys2Proof.Machine.execVxFn core w s
  | .vxCmp core w => Sys2Proof.Machine.execVxCmp core w s
  | .vxSel core w => Sys2Proof.Machine.execVxSel core w s
  | .vxRed core w => Sys2Proof.Machine.execVxRed core w s
  | .vxPerm core w => Sys2Proof.Machine.execVxPerm core w s
  | .vxBcast core w => Sys2Proof.Machine.execVxBcast core w s
  | .vxMask core w => Sys2Proof.Machine.execVxMask core w s
  | .vxFlags core w => Sys2Proof.Machine.execVxFlags core w s
  | .vectorStart core => Sys2Proof.Machine.execVectorStart core s
  | .vectorCompletion core idx => Sys2Proof.Machine.execVectorCompletion core idx s
  | .vxPortLoadTimeout core => Sys2Proof.Machine.execVxPortLoadTimeout core s
  | .asyncWordForced core port put run addr => Sys2Proof.Machine.execAsyncWordForced core port put run addr s
  | .wellScrubAccess core addr upset => Sys2Proof.Machine.execWellScrubAccess core addr upset s
  | .cpFetch core w => Sys2Proof.Machine.execCpFetch core w s
  | .cpStore core w => Sys2Proof.Machine.execCpStore core w s
  | .cpMove core w => Sys2Proof.Machine.execCpMove core w s
  | .cpFeed core w => Sys2Proof.Machine.execCpFeed core w s
  | .cpFill core w => Sys2Proof.Machine.execCpFill core w s
  | .cpRput core w => Sys2Proof.Machine.execCpRput core w s
  | .cpRget core w => Sys2Proof.Machine.execCpRget core w s
  | .cpSwap core w => Sys2Proof.Machine.execCpSwap core w s
  | .copyStart core clk => Sys2Proof.Machine.execCopyStart core clk s
  | .reservoirLineGrant core channel clk => Sys2Proof.Machine.execReservoirLineGrant core channel clk s
  | .reservoirLineDelivery core slot line => Sys2Proof.Machine.execReservoirLineDelivery core slot line s
  | .backgroundPromotion core slot channel => Sys2Proof.Machine.execBackgroundPromotion core slot channel s
  | .reservoirRefresh core channel bank postpone => Sys2Proof.Machine.execReservoirRefresh core channel bank postpone s
  | .reservoirScrub core upset => Sys2Proof.Machine.execReservoirScrub core upset s
  | .reservoirRowSpare core channel bank row => Sys2Proof.Machine.execReservoirRowSpare core channel bank row s
  | .copyCompletion core idx => Sys2Proof.Machine.execCopyCompletion core idx s
  | .chSend core w => Sys2Proof.Machine.execChSend core w s
  | .chCredit core w => Sys2Proof.Machine.execChCredit core w s
  | .chCount core w => Sys2Proof.Machine.execChCount core w s
  | .chFlags core w => Sys2Proof.Machine.execChFlags core w s
  | .channelStart core => Sys2Proof.Machine.execChannelStart core s
  | .sendCreditAbandon core put => Sys2Proof.Machine.execSendCreditAbandon core put s
  | .channelCompletion core idx => Sys2Proof.Machine.execChannelCompletion core idx s
  | .multicastBranchAdmit idx dir => Sys2Proof.Machine.execMulticastBranchAdmit idx dir s
  | .messageArrival idx => Sys2Proof.Machine.execMessageArrival idx s
  | .combiningRoundClose core queue => Sys2Proof.Machine.execCombiningRoundClose core queue s
  | .creditReturnArrival idx => Sys2Proof.Machine.execCreditReturnArrival idx s
  | .batchTokenArrival idx => Sys2Proof.Machine.execBatchTokenArrival idx s
  | .combiningGrantArrival idx => Sys2Proof.Machine.execCombiningGrantArrival idx s
  | .readRequestArrival idx => Sys2Proof.Machine.execReadRequestArrival idx s
  | .readUnitService core => Sys2Proof.Machine.execReadUnitService core s
  | .readReplyArrival idx => Sys2Proof.Machine.execReadReplyArrival idx s
  | .ligArrive core w => Sys2Proof.Machine.execLigArrive core w s
  | .ligSignal core w => Sys2Proof.Machine.execLigSignal core w s
  | .ligWait core w => Sys2Proof.Machine.execLigWait core w s
  | .ligReset core w => Sys2Proof.Machine.execLigReset core w s
  | .ligRead core w => Sys2Proof.Machine.execLigRead core w s
  | .ligTstat core w => Sys2Proof.Machine.execLigTstat core w s
  | .ligatureOpApplied cluster ops => Sys2Proof.Machine.execLigatureOpApplied cluster ops s
  | .waiterRelease core => Sys2Proof.Machine.execWaiterRelease core s
  | .waitReapply cluster => Sys2Proof.Machine.execWaitReapply cluster s
  | .ligatureWaitTimeout core => Sys2Proof.Machine.execLigatureWaitTimeout core s
  | .ligatureOpCompletion core idx => Sys2Proof.Machine.execLigatureOpCompletion core idx s
  | .farLigatureArrival idx => Sys2Proof.Machine.execFarLigatureArrival idx s
  | .timedActionExecute core slot => Sys2Proof.Machine.execTimedActionExecute core slot s
  | .coreMeshCfgWrite core value => Sys2Proof.Machine.execCoreMeshCfgWrite core value s
  | .meshFlitHop idx flit ce ue => Sys2Proof.Machine.execMeshFlitHop idx flit ce ue s
  | .meshLinkReplay core dir clears => Sys2Proof.Machine.execMeshLinkReplay core dir clears s
  | .hairlineReplay cluster dir clears => Sys2Proof.Machine.execHairlineReplay cluster dir clears s
  | .timeBeacon => Sys2Proof.Machine.execTimeBeacon s
  | .beaconArrival cluster => Sys2Proof.Machine.execBeaconArrival cluster s
  | .regionCreate region req upset => Sys2Proof.Machine.execRegionCreate region req upset s
  | .regionReset region req => Sys2Proof.Machine.execRegionReset region req s
  | .regionRelease region req => Sys2Proof.Machine.execRegionRelease region req s
  | .regionDelete region req => Sys2Proof.Machine.execRegionDelete region req s
  | .regionIdle region => Sys2Proof.Machine.execRegionIdle region s
  | .idleTimeout region => Sys2Proof.Machine.execIdleTimeout region s
  | .forceComplete region => Sys2Proof.Machine.execForceComplete region s
  | .forceOverrun region cluster => Sys2Proof.Machine.execForceOverrun region cluster s
  | .wipingDone region => Sys2Proof.Machine.execWipingDone region s
  | .clientAdmit own entries upset mid => Sys2Proof.Machine.execClientAdmit own entries upset mid s
  | .clientRemove own => Sys2Proof.Machine.execClientRemove own s
  | .clientRemoveComplete client => Sys2Proof.Machine.execClientRemoveComplete client s
  | .cliSeedWrite client seed => Sys2Proof.Machine.execCliSeedWrite client seed s
  | .ingressDelivery port => Sys2Proof.Machine.execIngressDelivery port s
  | .ingressPromotion port client => Sys2Proof.Machine.execIngressPromotion port client s
  | .egressPoll client => Sys2Proof.Machine.execEgressPoll client s
  | .egressFrameSend client => Sys2Proof.Machine.execEgressFrameSend client s
  | .energyEstimate cluster counts => Sys2Proof.Machine.execEnergyEstimate cluster counts s
  | .energyReconcile cluster => Sys2Proof.Machine.execEnergyReconcile cluster s
  | .portModeWrite port mode => Sys2Proof.Machine.execPortModeWrite port mode s
  | .portBlockReset port => Sys2Proof.Machine.execPortBlockReset port s
  | .portResetTimeout port => Sys2Proof.Machine.execPortResetTimeout port s
  | .portAdmitWrite port on => Sys2Proof.Machine.execPortAdmitWrite port on s
  | .laneGroupTrainingTimeout port group stage => Sys2Proof.Machine.execLaneGroupTrainingTimeout port group stage s
  | .linkInitComplete port good peer alloc adapted => Sys2Proof.Machine.execLinkInitComplete port good peer alloc adapted s
  | .fecWindowCheck port group => Sys2Proof.Machine.execFecWindowCheck port group s
  | .groupRetrainComplete port group => Sys2Proof.Machine.execGroupRetrainComplete port group s
  | .groupRetrainTimeout port group => Sys2Proof.Machine.execGroupRetrainTimeout port group s
  | .linkBlockReceive port block => Sys2Proof.Machine.execLinkBlockReceive port block s
  | .gatewayReservation idx => Sys2Proof.Machine.execGatewayReservation idx s
  | .gatewayGrant idx => Sys2Proof.Machine.execGatewayGrant idx s
  | .reservationRetry idx => Sys2Proof.Machine.execReservationRetry idx s
  | .gatewayHoldLimit port => Sys2Proof.Machine.execGatewayHoldLimit port s
  | .helloSend port => Sys2Proof.Machine.execHelloSend port s
  | .helloReceive port idx => Sys2Proof.Machine.execHelloReceive port idx s
  | .peerLoss port => Sys2Proof.Machine.execPeerLoss port s
  | .ethFrameReceive port link bytes fcsOk sub => Sys2Proof.Machine.execEthFrameReceive port link bytes fcsOk sub s
  | .ethLinkStateChange port link up found => Sys2Proof.Machine.execEthLinkStateChange port link up found s
  | .portClsCmdWrite value => Sys2Proof.Machine.execPortClsCmdWrite value s
  | .ptpTxTagRead port => Sys2Proof.Machine.execPtpTxTagRead port s
  | .fabricPacketArrival port idx => Sys2Proof.Machine.execFabricPacketArrival port idx s
  | .escapePacketArrival port idx => Sys2Proof.Machine.execEscapePacketArrival port idx s
  | .gatewayReadRepresent port idx => Sys2Proof.Machine.execGatewayReadRepresent port idx s
  | .enteringPromotion idx => Sys2Proof.Machine.execEnteringPromotion idx s
  | .fabRtWrite version dim coord value => Sys2Proof.Machine.execFabRtWrite version dim coord value s
  | .fabEpochAtWrite time => Sys2Proof.Machine.execFabEpochAtWrite time s
  | .epochSwitch => Sys2Proof.Machine.execEpochSwitch s
  | .epochIdle => Sys2Proof.Machine.execEpochIdle s
  | .cmapSend port => Sys2Proof.Machine.execCmapSend port s
  | .cmapReceive port idx => Sys2Proof.Machine.execCmapReceive port idx s
  | .cmapStale port => Sys2Proof.Machine.execCmapStale port s
  | .timeTransferSend port sub => Sys2Proof.Machine.execTimeTransferSend port sub s
  | .timeTransferReceive port idx sub => Sys2Proof.Machine.execTimeTransferReceive port idx sub s
  | .timeParentLoss => Sys2Proof.Machine.execTimeParentLoss s
  | .mgmtFrameReceive iface addr bytes => Sys2Proof.Machine.execMgmtFrameReceive iface addr bytes s
  | .sequenceGapTimeout iface session => Sys2Proof.Machine.execSequenceGapTimeout iface session s
  | .sessionOpen fresh => Sys2Proof.Machine.execSessionOpen fresh s
  | .sessionClose => Sys2Proof.Machine.execSessionClose s
  | .status => Sys2Proof.Machine.execStatus s
  | .imageChunk => Sys2Proof.Machine.execImageChunk s
  | .imageCommit => Sys2Proof.Machine.execImageCommit s
  | .imageAbort => Sys2Proof.Machine.execImageAbort s
  | .colophon => Sys2Proof.Machine.execColophon s
  | .repairList => Sys2Proof.Machine.execRepairList s
  | .regRead slow upset => Sys2Proof.Machine.execRegRead slow upset s
  | .regWrite slow => Sys2Proof.Machine.execRegWrite slow s
  | .registerWrite core addr value => Sys2Proof.Machine.execRegisterWrite core addr value s
  | .bindingSet region binding dev rgn gen x y ep cls => Sys2Proof.Machine.execBindingSet region binding dev rgn gen x y ep cls s
  | .counterSnap => Sys2Proof.Machine.execCounterSnap s
  | .logRead bad => Sys2Proof.Machine.execLogRead bad s
  | .fmEnable devices sends => Sys2Proof.Machine.execFmEnable devices sends s
  | .fmTrust => Sys2Proof.Machine.execFmTrust s
  | .fmCommandArrival idx writes reset => Sys2Proof.Machine.execFmCommandArrival idx writes reset s
  | .jobResetArrival idx => Sys2Proof.Machine.execJobResetArrival idx s
  | .deviceReset target eui => Sys2Proof.Machine.execDeviceReset target eui s
  | .freeze => Sys2Proof.Machine.execFreeze s
  | .scribeFrameReceive act => Sys2Proof.Machine.execScribeFrameReceive act s
  | .scrMcKeyWrite word value => Sys2Proof.Machine.execScrMcKeyWrite word value s
  | .watchdogKick core value => Sys2Proof.Machine.execWatchdogKick core value s
  | .watchdogExpiry core acks => Sys2Proof.Machine.execWatchdogExpiry core acks s
  | .startOk => Sys2Proof.Machine.execStartOk s
  | .rstDeviceReset => Sys2Proof.Machine.execRstDeviceReset s
  | .exemplarCommit => Sys2Proof.Machine.execExemplarCommit s
  | .exemplarClearAll => Sys2Proof.Machine.execExemplarClearAll s
  | .exemplarRun id cores region => Sys2Proof.Machine.execExemplarRun id cores region s
  | .exemplarRunEnd idx clean digest => Sys2Proof.Machine.execExemplarRunEnd idx clean digest s
  | .detectedErrorReport core => Sys2Proof.Machine.execDetectedErrorReport core s
  | .suspectScoreHalving => Sys2Proof.Machine.execSuspectScoreHalving s
  | .failedCoreProcedure core => Sys2Proof.Machine.execFailedCoreProcedure core s
  | .repairRemap core => Sys2Proof.Machine.execRepairRemap core s
  | .checkVote fab idx own digests => Sys2Proof.Machine.execCheckVote fab idx own digests s
  | .voteDigestTimeout fab idx own digests => Sys2Proof.Machine.execVoteDigestTimeout fab idx own digests s
  | .clkFreqAtWrite value => Sys2Proof.Machine.execClkFreqAtWrite value s
  | .clkFreqTargetWrite value => Sys2Proof.Machine.execClkFreqTargetWrite value s
  | .frequencySlewStart => Sys2Proof.Machine.execFrequencySlewStart s
  | .crossingSweep cluster side a b => Sys2Proof.Machine.execCrossingSweep cluster side a b s
  | .referenceLoss cluster => Sys2Proof.Machine.execReferenceLoss cluster s
  | .pllRelock cluster sweeps => Sys2Proof.Machine.execPllRelock cluster sweeps s
  | .holdoverTimeout cluster => Sys2Proof.Machine.execHoldoverTimeout cluster s
  | .refclkLoss => Sys2Proof.Machine.execRefclkLoss s
  | .refclkReturn => Sys2Proof.Machine.execRefclkReturn s
  | .timeNsRead reader => Sys2Proof.Machine.execTimeNsRead reader s
  | .timeStageArm value => Sys2Proof.Machine.execTimeStageArm value s
  | .timeCommit => Sys2Proof.Machine.execTimeCommit s
  | .ppsInEdge sub => Sys2Proof.Machine.execPpsInEdge sub s
  | .ppsInLoss => Sys2Proof.Machine.execPpsInLoss s
  | .ppsOutPulse => Sys2Proof.Machine.execPpsOutPulse s
  | .ppsOutEnd => Sys2Proof.Machine.execPpsOutEnd s
  | .avsFrame bus amps volts answered => Sys2Proof.Machine.execAvsFrame bus amps volts answered s
  | .railFault bus rail reported => Sys2Proof.Machine.execRailFault bus rail reported s
  | .voltageLoopDecision cluster slack lowerOk => Sys2Proof.Machine.execVoltageLoopDecision cluster slack lowerOk s
  | .droopDetect cluster below negative clocks paced => Sys2Proof.Machine.execDroopDetect cluster below negative clocks paced s
  | .hintRailRaise cluster activity answered => Sys2Proof.Machine.execHintRailRaise cluster activity answered s
  | .boostPrecharge cluster activity => Sys2Proof.Machine.execBoostPrecharge cluster activity s
  | .hintRailReturn cluster answered => Sys2Proof.Machine.execHintRailReturn cluster answered s
  | .pwrModeWrite mode => Sys2Proof.Machine.execPwrModeWrite mode s
  | .governorPeriod => Sys2Proof.Machine.execGovernorPeriod s
  | .raiseSettleElapsed => Sys2Proof.Machine.execRaiseSettleElapsed s
  | .peakLimiter rest eighths => Sys2Proof.Machine.execPeakLimiter rest eighths s
  | .clusterCurrentLimit cluster reading eighths => Sys2Proof.Machine.execClusterCurrentLimit cluster reading eighths s
  | .temperatureRead cluster celsius => Sys2Proof.Machine.execTemperatureRead cluster celsius s
  | .coolantOkLow => Sys2Proof.Machine.execCoolantOkLow s
  | .islandRestart => Sys2Proof.Machine.execIslandRestart s
  | .powerOn coolant resetN => Sys2Proof.Machine.execPowerOn coolant resetN s
  | .railRampTimeout bus rail => Sys2Proof.Machine.execRailRampTimeout bus rail s
  | .resetNAssert => Sys2Proof.Machine.execResetNAssert s
  | .resetNHeld => Sys2Proof.Machine.execResetNHeld s
  | .resetExit seen bad => Sys2Proof.Machine.execResetExit seen bad s
  | .bringupPhaseComplete found => Sys2Proof.Machine.execBringupPhaseComplete found s
  | .phaseLimitExceeded => Sys2Proof.Machine.execPhaseLimitExceeded s
  | .startTimerExpiry => Sys2Proof.Machine.execStartTimerExpiry s
  | .snapAtWrite time => Sys2Proof.Machine.execSnapAtWrite time s
  | .snapCopy => Sys2Proof.Machine.execSnapCopy s
  | .firmwareLogWrite value bad => Sys2Proof.Machine.execFirmwareLogWrite value bad s
  | .freezeNLow => Sys2Proof.Machine.execFreezeNLow s
  | .freezeTick => Sys2Proof.Machine.execFreezeTick s
  | .dbgBlotSelWrite value => Sys2Proof.Machine.execDbgBlotSelWrite value s
  | .dbgBlotDataRead => Sys2Proof.Machine.execDbgBlotDataRead s
  | .extest pins load => Sys2Proof.Machine.execExtest pins load s
  | .samplePreload pins load => Sys2Proof.Machine.execSamplePreload pins load s
  | .idcode => Sys2Proof.Machine.execIdcode s
  | .clamp => Sys2Proof.Machine.execClamp s
  | .highz => Sys2Proof.Machine.execHighz s
  | .extestPulse pins load => Sys2Proof.Machine.execExtestPulse pins load s
  | .extestTrain pins load => Sys2Proof.Machine.execExtestTrain pins load s
  | .dbgreg offset value => Sys2Proof.Machine.execDbgreg offset value s
  | .blotter => Sys2Proof.Machine.execBlotter s
  | .bypass => Sys2Proof.Machine.execBypass s
  | .timeBaseTick => Sys2Proof.Machine.execTimeBaseTick s
  | .frequencySlewEnd => Sys2Proof.Machine.execFrequencySlewEnd s
  | .coolantOkHigh => Sys2Proof.Machine.execCoolantOkHigh s
  | .scribeCoreBlockResetTimeout core => Sys2Proof.Machine.execScribeCoreBlockResetTimeout core s
  | .exemplarOverdue core => Sys2Proof.Machine.execExemplarOverdue core s

end Sys2Proof.Machine
end

