-- ==== Sys2Proof/Safety.lean ====
section
/-! DEFINITION. What claims say of the block: what a safe outcome is, when an instruction word takes its own effect at issue, what issue then
leaves, and the tables of operations that claims about the scalar instructions are made from. -/

namespace Sys2Proof.Machine

/-- An outcome that is no stop. -/
def safe (o : Out) : Bool := match o with
  | .next _ => true
  | .fault _ => false
  | .refused _ => false

/-- Reading the registers held in copies that `p` names finds nothing to correct: their copies agree (R435). -/
def Agrees (p : Nat → Bool) (s : State) : Prop := s.voteWhere p = (true, s)

/-- The lifecycle's fuse counter and its copies A, B and C (R412, R413): each copy holds the counter or a later value within eight bits, and so does a change that waits to be
blown; a blank device's copies are blank and no change waits. -/
def LifeInv (s : State) : Prop :=
  s.life ≤ 255 ∧ (∀ c ∈ [s.lifeCopies.1, s.lifeCopies.2.1, s.lifeCopies.2.2], s.life ≤ c ∧ c ≤ 255) ∧ (∀ v, s.blowing = some v → s.life ≤ v ∧ v ≤ 255) ∧
    (s.life = 0 → s.lifeCopies = (0, 0, 0) ∧ s.blowing = none)

/-- Core `i` is at the word `w`: it can issue, no other word is held, and the code-store word is not poisoned (R42, R44, R181). -/
structure Fetches (i : CoreId) (w : Word) (s : State) : Prop where
  can : (s.core i.val).canIssue (s.env i.val) = true
  held : (s.core i.val).ctl.held = none ∨ (s.core i.val).ctl.held = some w
  clean : (s.core i.val).ctl.codePoison.look (s.core i.val).ctl.pc false = false

/-- Core `i` is at the word `w`, which has the opcode `op`, sets no reserved field, and has a guard that lets it take effect (R43, R44). -/
structure Issues (op : Nat) (resv : Word → Bool) (i : CoreId) (w : Word) (s : State) : Prop extends Fetches i w s where
  row : opOf w = op
  legal : resv w = false
  on : guardOn w (s.core i.val).ctl = true

/-- The instruction after the one that core `i` is at lies in the code store (R42). -/
def Room (i : CoreId) (s : State) : Prop := (afterIndex (s.core i.val).ctl.pc (s.core i.val).ctl.loops).2 < 8192

/-- The control unit once issue has moved past the instruction at `pc` (R54). -/
def Ctl.advance (pc : Nat) (k : Ctl) : Ctl :=
  { k with pc := (afterIndex pc k.loops).2, loops := (afterIndex pc k.loops).1, held := none }

/-- The block after core `i` became `c` and issue moved past the instruction. -/
def State.issued (s : State) (i : CoreId) (c : Core) : State :=
  s.setCore i.val { c with ctl := c.ctl.advance (s.core i.val).ctl.pc }

/-- The block after the control unit of core `i` became `k` and issue moved past the instruction: nothing else of the block differs. -/
def State.issuedCtl (s : State) (i : CoreId) (k : Ctl) : State :=
  s.setCore i.val { s.core i.val with ctl := k.advance (s.core i.val).ctl.pc }

/-- The block with the word of core `i` held at issue (R42). -/
def State.heldAt (s : State) (i : CoreId) (w : Word) : State :=
  s.setCore i.val { s.core i.val with ctl := { (s.core i.val).ctl with held := some w } }

/-- The block after core `i` takes a precise trap (R65). -/
def State.trapAt (s : State) (i : CoreId) (code source detail : Nat) : State :=
  s.putCore i.val ((s.core i.val).preciseTrap (s.env i.val) code source detail)

/-- The opcodes of the instructions and the commands that issue them, for the rows whose word alone is the operand (R46 to R72, R101, R125, R152,
R172, R191, R217). -/
def wordRows : List (Nat × (CoreId → Word → Instr)) :=
  [(0x00, .nop), (0x01, .capRead), (0x02, .srRd), (0x03, .srWr), (0x04, .stop), (0x10, .sAdd), (0x11, .sSub), (0x12, .sAnd), (0x13, .sOr), 
   (0x14, .sXor), (0x15, .sSll), (0x16, .sSrl), (0x17, .sSra), (0x18, .sMul), (0x19, .sMulhu), (0x1A, .sDivu), (0x1B, .sRemu), (0x1C, .sMin), 
   (0x1D, .sMax), (0x1E, .sMinu), (0x1F, .sMaxu), (0x20, .sAddi), (0x21, .sAndi), (0x22, .sOri), (0x23, .sXori), (0x24, .sSlli), (0x25, .sSrli), 
   (0x26, .sSrai), (0x27, .sLih), (0x30, .aAddi), (0x31, .aMv), (0x32, .aRd), (0x38, .sLd), (0x39, .sSt), (0x40, .pEq), (0x41, .pNe), 
   (0x42, .pLt), (0x43, .pLtu), (0x44, .pGe), (0x45, .pGeu), (0x48, .pAnd), (0x49, .pOr), (0x4A, .pXor), (0x4B, .pAndn), (0x50, .br), 
   (0x51, .jl), (0x52, .jr), (0x54, .loop), (0x60, .ccWait), (0x61, .ccSet), (0x62, .ccRd), (0x63, .fence), (0x68, .evPop), (0x69, .evWait), 
   (0x6A, .evRet), (0x6B, .evCtl), (0x70, .tNow), (0x71, .tArm), (0x72, .tCancel), (0x78, .hintPress), (0x80, .mxHand), (0x81, .mxLoad), 
   (0x82, .mxAnchor), (0x83, .mxStream), (0x84, .mxDrain), (0x85, .mxFlags), (0x86, .mxLdacc), (0xA0, .vxLd), (0xA1, .vxSt), (0xA2, .vxAdd), 
   (0xA3, .vxSub), (0xA4, .vxMul), (0xA5, .vxFma), (0xA6, .vxMin), (0xA7, .vxMax), (0xA8, .vxFn), (0xA9, .vxCmp), (0xAA, .vxSel), 
   (0xAB, .vxRed), (0xAC, .vxPerm), (0xAD, .vxBcast), (0xAE, .vxMask), (0xAF, .vxFlags), (0xC0, .cpFetch), (0xC1, .cpStore), (0xC2, .cpMove), 
   (0xC3, .cpFeed), (0xC4, .cpFill), (0xC5, .cpRput), (0xC6, .cpRget), (0xCF, .cpSwap), (0xD0, .chSend), (0xD1, .chCredit), (0xD2, .chCount), 
   (0xD3, .chFlags), (0xE0, .ligArrive), (0xE1, .ligSignal), (0xE2, .ligWait), (0xE3, .ligReset), (0xE4, .ligRead), (0xE5, .ligTstat)]

/-- The scalar operations on two registers (R46). -/
def scalarRows : List (Nat × (CoreId → Word → Instr) × (Word → Word → Word)) :=
  [(0x10, .sAdd, fun a b => BitVec.ofNat 64 (a.toNat + b.toNat)),
   (0x11, .sSub, fun a b => BitVec.ofInt 64 (a.toInt - b.toInt)),
   (0x12, .sAnd, fun a b => a &&& b),
   (0x13, .sOr, fun a b => a ||| b),
   (0x14, .sXor, fun a b => a ^^^ b),
   (0x15, .sSll, fun a b => BitVec.ofNat 64 (a.toNat * 2 ^ (b.toNat % 64))),
   (0x16, .sSrl, fun a b => BitVec.ofNat 64 (a.toNat / 2 ^ (b.toNat % 64))),
   (0x17, .sSra, fun a b => BitVec.ofInt 64 (a.toInt / 2 ^ (b.toNat % 64))),
   (0x18, .sMul, fun a b => BitVec.ofNat 64 (a.toNat * b.toNat)),
   (0x19, .sMulhu, fun a b => BitVec.ofNat 64 (a.toNat * b.toNat / 2 ^ 64)),
   (0x1A, .sDivu, fun a b => if b = 0 then BitVec.allOnes 64 else BitVec.ofNat 64 (a.toNat / b.toNat)),
   (0x1B, .sRemu, fun a b => if b = 0 then a else BitVec.ofNat 64 (a.toNat % b.toNat)),
   (0x1C, .sMin, fun a b => if a.toInt ≤ b.toInt then a else b),
   (0x1D, .sMax, fun a b => if a.toInt ≤ b.toInt then b else a),
   (0x1E, .sMinu, fun a b => if a.toNat ≤ b.toNat then a else b),
   (0x1F, .sMaxu, fun a b => if a.toNat ≤ b.toNat then b else a)]

/-- The scalar operations on a register and imm32, with the fields each reserves (R46). -/
def immediateRows : List (Nat × (Word → Bool) × (CoreId → Word → Instr) × (Word → BitVec 32 → Word)) :=
  [(0x20, resvI, .sAddi, fun a b => BitVec.ofInt 64 (a.toInt + b.toInt)),
   (0x21, resvI, .sAndi, fun a b => a &&& b.signExtend 64),
   (0x22, resvI, .sOri, fun a b => a ||| b.signExtend 64),
   (0x23, resvI, .sXori, fun a b => a ^^^ b.signExtend 64),
   (0x24, resvShift, .sSlli, fun a b => BitVec.ofNat 64 (a.toNat * 2 ^ b.toNat)),
   (0x25, resvShift, .sSrli, fun a b => BitVec.ofNat 64 (a.toNat / 2 ^ b.toNat)),
   (0x26, resvShift, .sSrai, fun a b => BitVec.ofInt 64 (a.toInt / 2 ^ b.toNat))]

/-- The comparisons (R46). -/
def compareRows : List (Nat × (CoreId → Word → Instr) × (Word → Word → Bool)) :=
  [(0x40, .pEq, fun a b => decide (a.toNat = b.toNat)),
   (0x41, .pNe, fun a b => decide (a.toNat ≠ b.toNat)),
   (0x42, .pLt, fun a b => decide (a.toInt < b.toInt)),
   (0x43, .pLtu, fun a b => decide (a.toNat < b.toNat)),
   (0x44, .pGe, fun a b => decide (b.toInt ≤ a.toInt)),
   (0x45, .pGeu, fun a b => decide (b.toNat ≤ a.toNat))]

/-- The predicate logic (R46). -/
def predicateRows : List (Nat × (CoreId → Word → Instr) × (Bool → Bool → Bool)) :=
  [(0x48, .pAnd, and), (0x49, .pOr, or), (0x4A, .pXor, xor), (0x4B, .pAndn, fun a b => a && !b)]

/-! ## Engines -/

/-- How an instruction enters its engine's queue: its opcode and command, its source number, its reserved fields, what the engine makes illegal, whether sa and sb are operands and sa a
destination, its checks, the engine's queue with its capacity, and what entering it does (R56, R57). -/
structure EngineRow where
  op : Nat
  source : Nat
  cmd : CoreId → Word → Instr
  resv : Word → Bool
  early : Word → Core → Bool
  sa : Word → Core → Bool
  sb : Word → Bool
  dest : Word → Bool
  check : Env → Word → Core → Option (Nat × Nat)
  queue : Core → List EngOp
  cap : Nat
  put : EngOp → Core → Core

/-- The words of a row whose encoding core `i` finds illegal (R44, R102, R173, R192). -/
def EngineRow.bad (r : EngineRow) (i : CoreId) (s : State) : Word → Bool := fun v => r.resv v || r.early v (s.core i.val)

/-- The rows of the matrix engine (R101, R102): a queue of eight; mx.hand and mx.load also set what the control unit keeps. -/
def matrixRows : List EngineRow :=
  let row (op : Nat) (cmd : CoreId → Word → Instr) (resv : Word → Bool) (early : Word → Core → Bool) (sa sb dest : Word → Bool)
      (check : Env → Word → Core → Option (Nat × Nat)) (keep : Word → Matrix → Matrix) : EngineRow :=
    { op, source := 1, cmd, resv, early, sa := fun w _ => sa w, sb, dest, check, queue := fun c => c.mx.queue, cap := 8
      put := fun o c => { c with mx := { keep o.w c.mx with queue := c.mx.queue ++ [o] } } }
  let no : Word → Bool := fun _ => false
  let yes : Word → Bool := fun _ => true
  let same : Word → Matrix → Matrix := fun _ m => m
  [row 0x80 .mxHand resvMxHand noEarly no no no checkNone (fun w m => { m with ctlHand := fieldOf w 0 2, ctlValid := Vector.replicate 2 false }),
   row 0x81 .mxLoad resvMxLoad earlyMxLoad (fun w => !bitOf w 5) (fun w => !bitOf w 5) no checkMxLoad (fun w m => { m with
     ctlValid := m.ctlValid.set! (fieldOf w 4 1) true, ctlFmt := m.ctlFmt.set! (fieldOf w 4 1) (fieldOf w 0 4)
     ctlU := m.ctlU.set! (fieldOf w 4 1) (fieldOf w 6 6 + 1) }),
   row 0x82 .mxAnchor resvMxAnchor noEarly (fun w => fieldOf w 24 2 != 1) no no checkNone same,
   row 0x83 .mxStream resvMxStream earlyMxStream (fun w => fieldOf w 26 2 != 1) no no checkMxStream same,
   row 0x84 .mxDrain resvMxDrain noEarly (fun w => fieldOf w 13 3 = 5) yes no checkRect same,
   row 0x85 .mxFlags resvMxFlags noEarly no no yes checkNone same,
   row 0x86 .mxLdacc resvMxLdacc noEarly no yes no checkRect same]

/-- The rows of the vector engine (R125): a queue of sixteen. -/
def vectorRows : List EngineRow :=
  let row (op : Nat) (cmd : CoreId → Word → Instr) (resv : Word → Bool) (sa sb dest : Word → Bool) (check : Env → Word → Core → Option (Nat × Nat)) :
      EngineRow :=
    { op, source := 2, cmd, resv, early := noEarly, sa := fun w _ => sa w, sb, dest, check, queue := fun c => c.vx.queue, cap := 16
      put := fun o c => { c with vx := { c.vx with queue := c.vx.queue ++ [o] } } }
  let no : Word → Bool := fun _ => false
  let blocks : Word → Bool := fun w => isMx (vFmt w) && !vPort w
  [row 0xA0 .vxLd resvVxLd (fun w => vRmode w = 5) blocks no checkVxMem, row 0xA1 .vxSt resvVxSt (fun w => vRmode w = 5) blocks no checkVxMem,
   row 0xA2 .vxAdd resvVxOp no no no checkNone, row 0xA3 .vxSub resvVxOp no no no checkNone, row 0xA4 .vxMul resvVxOp no no no checkNone,
   row 0xA5 .vxFma resvVxFma no no no checkNone, row 0xA6 .vxMin resvVxOp no no no checkNone, row 0xA7 .vxMax resvVxOp no no no checkNone,
   row 0xA8 .vxFn resvVxFn no no no checkNone, row 0xA9 .vxCmp resvVxCmp no no no checkNone, row 0xAA .vxSel resvVxSel no no no checkNone,
   row 0xAB .vxRed resvVxRed no no no checkNone, row 0xAC .vxPerm resvVxPerm no no no checkNone,
   row 0xAD .vxBcast resvVxBcast (fun w => !bitOf w 14) no no checkNone,
   row 0xAE .vxMask resvVxMask (fun w => fieldOf w 24 3 = 4) no (fun w => fieldOf w 24 3 = 5) checkNone,
   row 0xAF .vxFlags resvVxFlags no no (fun _ => true) checkNone]

/-- The rows of the copy engine (R152, R172, R173): a queue of thirty-two. -/
def copyRows : List EngineRow :=
  let row (op : Nat) (cmd : CoreId → Word → Instr) (resv : Word → Bool) (early : Word → Core → Bool) (sa sb : Word → Bool)
      (check : Env → Word → Core → Option (Nat × Nat)) :
      EngineRow :=
    { op, source := 3, cmd, resv, early, sa := fun w _ => sa w, sb, dest := fun _ => false, check, queue := fun c => c.cp.queue, cap := 32
      put := fun o c => { c with cp := { c.cp with queue := c.cp.queue ++ [o] } } }
  let no : Word → Bool := fun _ => false
  let yes : Word → Bool := fun _ => true
  [row 0xC0 .cpFetch resvCpRsv earlyCp yes no checkCp, row 0xC1 .cpStore resvCpRsv earlyCp yes no checkCp, row 0xC2 .cpMove resvCpMove earlyCp no no checkCp,
   row 0xC3 .cpFeed resvCpFeed earlyCp (fun w => !cpFromWell w) (fun w => cpDest w = 2) checkCp, row 0xC4 .cpFill resvCpFill earlyCp yes cpFillRsv checkCp,
   row 0xC5 .cpRput resvCpRemote earlyCp no yes checkCp, row 0xC6 .cpRget resvCpRemote earlyCp no yes checkCp, row 0xCF .cpSwap resvCpSwap noEarly no no checkCpSwap]

/-- The rows of the channel engine (R191, R192): a queue of thirty-two. -/
def channelRows : List EngineRow :=
  let row (op : Nat) (cmd : CoreId → Word → Instr) (resv : Word → Bool) (early : Word → Core → Bool) (sa : Word → Core → Bool) (sb dest : Word → Bool)
      (check : Env → Word → Core → Option (Nat × Nat)) : EngineRow :=
    { op, source := 4, cmd, resv, early, sa, sb, dest, check, queue := fun c => c.ch.queue, cap := 32
      put := fun o c => { c with ch := { c.ch with queue := c.ch.queue ++ [o] } } }
  let no : Word → Bool := fun _ => false
  let yes : Word → Bool := fun _ => true
  [row 0xD0 .chSend resvChSend earlyChSend (fun w c => c.selective w) yes no checkChSend, row 0xD1 .chCredit resvChCredit earlyChCredit (fun _ _ => false) no no checkNone,
   row 0xD2 .chCount resvChCount earlyChCount (fun _ _ => false) no yes checkNone, row 0xD3 .chFlags resvChFlags noEarly (fun _ _ => false) no yes checkNone]

/-- The completion counters after an instruction's completion: with ce = 1 its counter is one more (R56, R58). -/
def ccAfter (w : Word) (k : Ctl) : Vector (BitVec 32) 8 :=
  if bitOf w 48 then k.cc.set! (fieldOf w 49 3) (k.cc[fieldOf w 49 3]! + 1) else k.cc

/-- Packet `idx` of the mesh has arrived whole at core `i`, whose clock runs, is not too old, and is of the core's region and generation (R211, R312). -/
structure Fresh (s : State) (idx : Nat) (p : Packet) (i : Nat) : Prop where
  whole : s.arrived idx = some (p, i)
  young : s.aged p = false
  current : (s.env i).stale p = false

end Sys2Proof.Machine
end

