-- ==== Sys2Proof/Certificates/Slice0/Obligations.lean ====
section
/-! DEFINITION. The statements for the provers. Each docstring names the rules that its statement follows, and the log entry of each choice that
the model makes in it. -/

open Sys2Proof Sys2Proof.Machine

/-! ## The block as a whole -/

/-- A step runs the command at the front of the queue on the state with the queue's rest, and an empty queue leaves the block as it is. That the empty
queue idles is the model's choice (log entry 2). -/
def Obligations.StepRunsFrontCommand : Prop :=
  (∀ (c : Instr) (s : State), step { s with pending := c :: s.pending } = exec c s) ∧
  (∀ s : State, s.pending = [] → step s = .next s)

/-- Every instruction's row refuses a word that has another row's opcode: that word is the other row's command. That a row refuses such a word is the
model's choice (log entry 4). -/
def Obligations.WordOfAnotherRowRefused : Prop :=
  ∀ op mk, (op, mk) ∈ wordRows → ∀ (i : CoreId) (w : Word) (s : State), opOf w ≠ op → assigned (opOf w) = true →
    exec (mk i w) s = .refused (.wordOfAnotherRow (opOf w))

/-- Before power-on nothing waits, every register reads its reset value (R16), the memories are in canonical form, FAULT_N is asserted (R455), the device
is off, the copies of the fuse counter agree within its eight bits, and a step of an empty queue changes nothing, which is the model's choice. Values
where the tables give none, the device before power-on and the lifecycle counter are the model's choices (log entries 110, 1 and 75). -/
def Obligations.ResetState : Prop :=
  State.reset.pending = [] ∧ State.reset.dev = .off ∧ (∀ a, State.reset.reg a = resetAt rimRegs a) ∧
    (∀ n o, (State.reset.cluster n).reg o = resetAt clusterRegs o) ∧ (∀ i o, (State.reset.core i).reg o = resetAt coreRegs o) ∧
    (∀ i, (State.reset.core i).well.mem.wf = true ∧ (State.reset.core i).rsv.mem.wf = true) ∧ FaultCause.powerOn ∈ State.reset.island.faults ∧
    LifeInv State.reset ∧ ∀ s : State, s.pending = [] → step s = .next s

/-- No command touches the queue: a step takes the front command and leaves the rest as it is. The queue is the model's own (log entry 1). -/
def Obligations.QueueUntouched : Prop := ∀ s t : State, step s = .next t → t.pending = s.pending.tail

/-- The lifecycle only goes forward (R411 to R413): no copy of the fuse counter lies below it, whatever interrupts a change, and a step keeps it so, never
lowers the counter, which stays within its eight bits, and keeps a retired device retired and a blank one blank. -/
def Obligations.LifecycleForward : Prop :=
  ∀ s t : State, LifeInv s → step s = .next t → LifeInv t ∧ s.life ≤ t.life ∧ (s.lifecycle = 4 → t.lifecycle = 4) ∧
    (s.lifecycle = 0 → t.lifecycle = 0)

/-! ## The control unit -/

/-- s0 and a0 read as zero, p0 reads as 1, and writes to them are discarded (R41): of the register file, and of the instructions whose destination is one
of them, which only move on. -/
def Obligations.HardwiredRegisters : Prop :=
  (∀ k : Ctl, k.s 0 = 0 ∧ k.sp 0 = false ∧ k.a 0 = 0 ∧ k.p 0 = true ∧ (∀ v poison, k.setS 0 v poison = k ∧ k.land 0 v poison = k) ∧
    (∀ v, k.setA 0 v = k) ∧ ∀ v, k.setP 0 v = k) ∧
  (∀ op mk f, (op, mk, f) ∈ scalarRows → ∀ (i : CoreId) (w : Word) (s : State), Issues op resvS i w s → Room i s → fSd w = 0 →
    (s.core i.val).ctl.busy (fSa w) = false → (s.core i.val).ctl.busy (fSb w) = false → exec (mk i w) s = .next (s.issuedCtl i (s.core i.val).ctl)) ∧
  (∀ (i : CoreId) (w : Word) (s : State), Issues 0x30 (fun w => nz w 47 5 || nz w 32 7) i w s → Room i s → fAd w = 0 →
    exec (.aAddi i w) s = .next (s.issuedCtl i (s.core i.val).ctl)) ∧
  (∀ op mk f, (op, mk, f) ∈ predicateRows → ∀ (i : CoreId) (w : Word) (s : State), Issues op resvPred i w s → Room i s → fieldOf w 49 3 = 0 →
    exec (mk i w) s = .next (s.issuedCtl i (s.core i.val).ctl))

/-- A scalar operation on two registers writes its result to sd with the OR of the sources' poison bits (R46, R48), and issue moves on; nothing else of
the block changes. A scalar operation on a register and imm32, and s.lih, write their result to sd with the source's poison bit (R46, R48), and issue
moves on; nothing else of the block changes. -/
def Obligations.ScalarResult : Prop :=
  (∀ op mk f, (op, mk, f) ∈ scalarRows → ∀ (i : CoreId) (w : Word) (s : State), Issues op resvS i w s → Room i s →
    let k := (s.core i.val).ctl
    k.busy (fSa w) = false → k.busy (fSb w) = false → k.busy (fSd w) = false →
      exec (mk i w) s = .next (s.issuedCtl i (k.setS (fSd w) (f (k.s (fSa w)) (k.s (fSb w))) (k.sp (fSa w) || k.sp (fSb w))))) ∧
  ((∀ op resv mk f, (op, resv, mk, f) ∈ immediateRows → ∀ (i : CoreId) (w : Word) (s : State), Issues op resv i w s → Room i s →
    let k := (s.core i.val).ctl
    k.busy (fSa w) = false → k.busy (fSd w) = false →
      exec (mk i w) s = .next (s.issuedCtl i (k.setS (fSd w) (f (k.s (fSa w)) (w.extractLsb' 0 32)) (k.sp (fSa w))))) ∧
  (∀ (i : CoreId) (w : Word) (s : State), Issues 0x27 (fun w => nz w 32 15) i w s → Room i s →
    let k := (s.core i.val).ctl
    k.busy (fSd w) = false →
      exec (.sLih i w) s =
        .next (s.issuedCtl i (k.setS (fSd w) (w.extractLsb' 0 32 ++ (k.s (fSd w)).extractLsb' 0 32) (k.sp (fSd w))))))

/-- The address-register instructions add imm32 modulo two to the 32: a.addi to aa, a.mv to s[31:0], both into ad, and a.rd to aa, zero-extended into s
(R46). A poisoned s makes a.mv take the poisoned-control trap (R49). A comparison writes its predicate, from sa with sb or with the sign-extended
imm32, or takes the poisoned-control trap for a poisoned source (R46, R49); the predicate logic writes its predicate from two. -/
def Obligations.AddressAndPredicateResult : Prop :=
  (∀ (i : CoreId) (w : Word) (s : State), let k := (s.core i.val).ctl
    (Issues 0x30 (fun w => nz w 47 5 || nz w 32 7) i w s → Room i s →
      exec (.aAddi i w) s = .next (s.issuedCtl i (k.setA (fAd w) ((k.a (fAa w) + w.toNat % 2 ^ 32) % 2 ^ 32)))) ∧
    (Issues 0x31 (fun w => nz w 32 11) i w s → Room i s → k.busy (fSd w) = false → k.sp (fSd w) = false →
      exec (.aMv i w) s = .next (s.issuedCtl i (k.setA (fAd w) (((k.s (fSd w)).toNat + w.toNat) % 2 ^ 32)))) ∧
    (Issues 0x31 (fun w => nz w 32 11) i w s → k.busy (fSd w) = false → k.sp (fSd w) = true →
      exec (.aMv i w) s = .next (s.trapAt i 6 0 (freeDetail 6 w))) ∧
    (Issues 0x32 (fun w => nz w 43 4 || nz w 32 7) i w s → Room i s → k.busy (fSd w) = false →
      exec (.aRd i w) s = .next (s.issuedCtl i (k.setS (fSd w) (BitVec.ofNat 64 ((k.a (fAa w) + w.toNat) % 2 ^ 32)) false)))) ∧
  ((∀ op mk f, (op, mk, f) ∈ compareRows → ∀ (i : CoreId) (w : Word) (s : State), Issues op resvCmp i w s →
    let k := (s.core i.val).ctl
    let a := fieldOf w 38 5
    let b := fieldOf w 33 5
    let ui := bitOf w 32
    k.busy a = false → (ui = false → k.busy b = false) →
      if k.sp a = true ∨ (ui = false ∧ k.sp b = true) then exec (mk i w) s = .next (s.trapAt i 6 0 (freeDetail 6 w))
      else Room i s → exec (mk i w) s =
        .next (s.issuedCtl i (k.setP (fieldOf w 49 3) (f (k.s a) (if ui then (w.extractLsb' 0 32).signExtend 64 else k.s b))))) ∧
  (∀ op mk f, (op, mk, f) ∈ predicateRows → ∀ (i : CoreId) (w : Word) (s : State), Issues op resvPred i w s → Room i s →
    let k := (s.core i.val).ctl
    exec (mk i w) s = .next (s.issuedCtl i (k.setP (fieldOf w 49 3) (f (k.p (fieldOf w 46 3)) (k.p (fieldOf w 43 3)))))))

/-- nop only moves on; cap.read writes to sd the capability of its index, a fixed number, a size of the region, its identifier or its generation by the
table of capability indices, and 0 for an index outside the table (R31, R71); sr.rd writes to sd what its special register reads and sr.wr changes its
special register, or either takes the state trap (R72); stop ends issue and sets stopped (R74). Nothing else of the block changes. CORE_STATUS reads
as running, halted, stopped, in_handler, the loop depth, breach, poison_seen, the event count and evq_overflow, CORE_CTRL as ev_en and the wait limit,
CORE_EVT_VEC, CORE_EVT_PC, CORE_EVT_STALE and the completion counters as their numbers, and no other index is opened to sr.rd. A write of CORE_STATUS
clears breach, poison_seen and evq_overflow where it has a 1, one of CORE_CTRL sets its two fields, one of CORE_EVT_VEC or CORE_EVT_PC its index; each
changes nothing else, and no other index is opened to sr.wr (R12, R72). -/
def Obligations.SystemInstructions : Prop :=
  (∀ (i : CoreId) (w : Word) (s : State), let k := (s.core i.val).ctl
    (Issues 0x00 (fun w => nz w 0 52) i w s → Room i s → exec (.nop i w) s = .next (s.issuedCtl i k)) ∧
    (Issues 0x01 (fun w => nz w 32 15 || nz w 8 24) i w s → Room i s → k.busy (fSd w) = false →
      exec (.capRead i w) s = .next (s.issuedCtl i (k.setS (fSd w) (capability (s.env i.val) (fieldOf w 0 8)) false))) ∧
    (Issues 0x02 (fun w => nz w 32 15 || nz w 12 20) i w s → k.busy (fSd w) = false →
      (∀ v, specialRead k (fieldOf w 0 12) = some v → Room i s → exec (.srRd i w) s = .next (s.issuedCtl i (k.setS (fSd w) v false))) ∧
      (specialRead k (fieldOf w 0 12) = none → exec (.srRd i w) s = .next (s.trapAt i 9 0 (freeDetail 9 w)))) ∧
    (Issues 0x03 (fun w => nz w 47 5 || nz w 32 10 || nz w 12 20) i w s → k.busy (fSa w) = false →
      (∀ k', specialWrite k (fieldOf w 0 12) (k.s (fSa w)) = some k' → Room i s → exec (.srWr i w) s = .next (s.issuedCtl i k')) ∧
      (specialWrite k (fieldOf w 0 12) (k.s (fSa w)) = none → exec (.srWr i w) s = .next (s.trapAt i 9 0 (freeDetail 9 w)))) ∧
    (Issues 0x04 (fun w => nz w 0 52) i w s →
      exec (.stop i w) s = .next (s.setCore i.val { s.core i.val with ctl := { k with stopped := true, running := false, held := none } })) ∧
    (∀ e : Env, capability e 0x00 = (if e.compat then 2 else 3) ∧ capability e 0x01 = BitVec.ofNat 64 e.width ∧
      capability e 0x02 = BitVec.ofNat 64 e.height ∧ capability e 0x0F = (if e.compat then 1 else 0) ∧ capability e 0x11 = (if e.compat then 0 else 1) ∧
      capability e 0x12 = (if e.compat then 0 else 512) ∧ capability e 0x20 = BitVec.ofNat 64 e.region ∧ capability e 0x21 = BitVec.ofNat 64 e.gen ∧
      (∀ n v, (n, v) ∈ [(0x03, 524288), (0x04, 167772160), (0x05, 512), (0x06, 64), (0x07, 8192), (0x08, 0xF), (0x09, 0xFF), (0x0A, 64), (0x0B, 64),
        (0x0C, 16), (0x0D, 512), (0x0E, 4096), (0x10, 1)] → capability e n = BitVec.ofNat 64 v) ∧
      ∀ n, 0x12 < n → n ≠ 0x20 → n ≠ 0x21 → capability e n = 0)) ∧
  ((∀ k : Ctl, ∃ v, specialRead k 0x000 = some v ∧ bitOf v 0 = k.running ∧ bitOf v 1 = k.halted ∧ bitOf v 2 = k.stopped ∧ bitOf v 3 = k.inHandler ∧
    fieldOf v 4 3 = k.loops.length % 8 ∧ bitOf v 7 = k.breach ∧ bitOf v 8 = k.poisonSeen ∧ fieldOf v 9 6 = k.evq.length % 64 ∧
    bitOf v 15 = k.evqOverflow ∧ fieldOf v 16 48 = 0) ∧
  (∀ k : Ctl, ∃ v, specialRead k 0x001 = some v ∧ bitOf v 0 = k.evEn ∧ fieldOf v 1 4 = k.waitLimit % 16 ∧ fieldOf v 5 59 = 0) ∧
  (∀ k : Ctl, specialRead k 0x002 = some (BitVec.ofNat 64 k.evtVec) ∧ specialRead k 0x003 = some (BitVec.ofNat 64 k.evtPc) ∧
    specialRead k 0x004 = some (BitVec.ofNat 64 k.evtStale)) ∧
  (∀ (k : Ctl) (n : Nat), n < 8 → specialRead k (0x010 + n) = some ((k.cc[n]!).setWidth 64)) ∧
  (∀ (k : Ctl) (n : Nat), (4 < n ∧ n < 0x010) ∨ 0x017 < n → specialRead k n = none) ∧
  (∀ (k : Ctl) (v : Word), specialWrite k 0x000 v =
    some { k with breach := k.breach && !bitOf v 7, poisonSeen := k.poisonSeen && !bitOf v 8, evqOverflow := k.evqOverflow && !bitOf v 15 }) ∧
  (∀ (k : Ctl) (v : Word), specialWrite k 0x001 v = some { k with evEn := bitOf v 0, waitLimit := fieldOf v 1 4 } ∧
    specialWrite k 0x002 v = some { k with evtVec := fieldOf v 0 13 } ∧ specialWrite k 0x003 v = some { k with evtPc := fieldOf v 0 13 }) ∧
  (∀ (k : Ctl) (n : Nat) (v : Word), 4 ≤ n → specialWrite k n v = none))

/-- s.ld reads the well word at its address through port 0 into s with the word's poison, s.st writes s there with the register's, and aa takes the
post-increment of post = 1; an address at or above two to the 19 takes the address-range trap with that address, and nothing else happens (R47, R48,
R64). The frame of s.ld and s.st: outside the eight bytes that s.st stores to, every byte of every well and of every reservoir reads as before; s.st's
eight bytes are those of s; no register but s of s.ld and, with post = 1, aa changes; and no other core changes. -/
def Obligations.WellLoadsAndStores : Prop :=
  (∀ (i : CoreId) (w : Word) (s : State), let c := s.core i.val
    let a := (c.ctl.a (fAd w) + (if bitOf w 42 then 0 else w.toNat % 2 ^ 32)) % 2 ^ 32
    c.ctl.busy (fSd w) = false →
    (Issues 0x38 resvM i w s → 2 ^ 19 ≤ a → exec (.sLd i w) s = .next (s.trapAt i 5 0 (a % 2 ^ 27))) ∧
    (Issues 0x39 resvM i w s → 2 ^ 19 ≤ a → exec (.sSt i w) s = .next (s.trapAt i 5 0 (a % 2 ^ 27))) ∧
    (Issues 0x38 resvM i w s → Room i s → a < 2 ^ 19 →
      let r := c.wellRead (s.env i.val) ⟨0, 0, c.ctl.pc⟩ false [a]
      let v := r.1.headD (0, false)
      exec (.sLd i w) s = .next (s.issued i { r.2.1 with ctl := (postInc w r.2.1.ctl).setS (fSd w) v.1 v.2 })) ∧
    (Issues 0x39 resvM i w s → Room i s → a < 2 ^ 19 →
      let c' := c.wellWrite (s.env i.val) ⟨0, 0, c.ctl.pc⟩ ⟨a, BitVec.allOnes 8, c.ctl.s (fSd w), c.ctl.sp (fSd w)⟩
      exec (.sSt i w) s = .next (s.issued i { c' with ctl := postInc w c'.ctl }))) ∧
  (∀ (i : CoreId) (w : Word) (s : State), let c := s.core i.val
    let a := wellAddr w c
    let same (t : State) (d : Nat) : Prop :=
      (∀ j, j ≠ i.val → t.core j = s.core j) ∧ (t.core i.val).rsv = c.rsv ∧
      (∀ r, r % 32 ≠ d % 32 → (t.core i.val).ctl.s r = c.ctl.s r ∧ (t.core i.val).ctl.sp r = c.ctl.sp r) ∧
      (∀ r, r % 16 ≠ fAd w % 16 ∨ bitOf w 42 = false → (t.core i.val).ctl.a r = c.ctl.a r) ∧
      (t.core i.val).ctl.preg = c.ctl.preg ∧ (t.core i.val).ctl.cc = c.ctl.cc ∧ (t.core i.val).ctl.slots = c.ctl.slots
    (∀ t, Issues 0x38 resvM i w s → exec (.sLd i w) s = .next t →
      same t (fSd w) ∧ ∀ b, (t.core i.val).well.mem.byte b = c.well.mem.byte b) ∧
    (∀ t, Issues 0x39 resvM i w s → exec (.sSt i w) s = .next t →
      same t 0 ∧ (∀ b, (b < 8 * a ∨ 8 * a + 8 ≤ b) → (t.core i.val).well.mem.byte b = c.well.mem.byte b) ∧
      (c.ctl.busy (fSd w) = false → a < 2 ^ 19 →
        ∀ n, n < 8 → (t.core i.val).well.mem.byte (8 * a + n) = byteOf (c.ctl.s (fSd w)) n)))

/-- br and jl branch to pc + off16, jr to the index in s, and jl writes pc + 1 to s; a target outside 0 to 8,191 takes the code-range trap; every active
loop whose body does not contain the target ends (R52, R55). -/
def Obligations.BranchTargets : Prop :=
  ∀ (i : CoreId) (w : Word) (s : State), let k := (s.core i.val).ctl
    let off : Int := (k.pc : Int) + (w.extractLsb' 0 16).toInt
    let go (k' : Ctl) (n : Nat) : State := s.setCore i.val { s.core i.val with
      ctl := { k' with pc := n, loops := k.loops.filter (fun l => decide (l.start ≤ n) && decide (n ≤ l.last)), held := none } }
    (Issues 0x50 (fun w => nz w 16 36) i w s →
      (∀ n : Nat, off = n → n < 8192 → exec (.br i w) s = .next (go k n)) ∧
      (off < 0 ∨ 8192 ≤ off → exec (.br i w) s = .next (s.trapAt i 7 0 0))) ∧
    (Issues 0x51 (fun w => nz w 16 31) i w s → k.busy (fSd w) = false →
      (∀ n : Nat, off = n → n < 8192 → exec (.jl i w) s = .next (go (k.setS (fSd w) (BitVec.ofNat 64 (k.pc + 1)) false) n)) ∧
      (off < 0 ∨ 8192 ≤ off → exec (.jl i w) s = .next (s.trapAt i 7 0 0))) ∧
    (Issues 0x52 (fun w => nz w 0 47) i w s → k.busy (fSd w) = false →
      if k.sp (fSd w) = true then exec (.jr i w) s = .next (s.trapAt i 6 0 (freeDetail 6 w))
      else if (k.s (fSd w)).toNat < 8192 then exec (.jr i w) s = .next (go k (k.s (fSd w)).toNat)
      else exec (.jr i w) s = .next (s.trapAt i 7 0 0))

/-- loop with a count pushes its body onto the loop stack and issue enters it; a count of 0 moves past the body; a body past index 8,191, a fifth loop or
a body that ends beyond the innermost one traps (R53). At the last index of a body issue goes back to its first while runs are left, the innermost
loop deciding first (R54). That a body which both passes the last index and breaks the nesting raises the code-range trap is the model's reading (log
entry 129). -/
def Obligations.LoopBodies : Prop :=
  (∀ (i : CoreId) (w : Word) (s : State), Issues 0x54 (fun w => nz w 50 2 || (nz w 45 5 && nz w 0 32) || !nz w 32 13) i w s →
    let k := (s.core i.val).ctl
    let sa := fieldOf w 45 5
    let last := k.pc + fieldOf w 32 13
    let n := if sa = 0 then w.toNat % 2 ^ 32 else (k.s sa).toNat % 2 ^ 32
    k.busy sa = false → k.sp sa = false →
      (8192 ≤ last → exec (.loop i w) s = .next (s.trapAt i 7 0 0)) ∧
      (last < 8192 → 4 ≤ k.loops.length ∨ (∃ l ∈ k.loops.head?, l.last < last) → exec (.loop i w) s = .next (s.trapAt i 8 0 (freeDetail 8 w))) ∧
      (last < 8192 → k.loops.length < 4 → (∀ l ∈ k.loops.head?, last ≤ l.last) → n ≠ 0 →
        exec (.loop i w) s = .next (s.setCore i.val { s.core i.val with
          ctl := { k with loops := ⟨n, k.pc + 1, last⟩ :: k.loops, pc := k.pc + 1, held := none } })) ∧
      (last < 8192 → k.loops.length < 4 → (∀ l ∈ k.loops.head?, last ≤ l.last) → n = 0 → (afterIndex last k.loops).2 < 8192 →
        exec (.loop i w) s = .next (s.setCore i.val { s.core i.val with ctl := k.advance last }))) ∧
  (∀ (l : LoopRec) (r : List LoopRec) (n : Nat),
    (l.last ≠ n → afterIndex n (l :: r) = (l :: r, n + 1)) ∧
    (l.last = n → 1 < l.count → afterIndex n (l :: r) = ({ l with count := l.count - 1 } :: r, l.start)) ∧
    (l.last = n → l.count ≤ 1 → afterIndex n (l :: r) = afterIndex n r))

/-- cc.wait holds issue while the counter's signed distance past s + imm32 is below zero, and moves on when it is not; cc.set sets the counter to s +
imm32 modulo two to the 32; cc.rd copies it; fence holds issue until the engines are quiet (R58, R59); and with a wait limit, a wait that has held
issue takes the schedule-breach trap, which sets CORE_STATUS.breach (R60). -/
def Obligations.CompletionCounters : Prop :=
  (∀ (i : CoreId) (w : Word) (s : State), let k := (s.core i.val).ctl
    let c := fieldOf w 49 3
    let v : BitVec 32 := (k.s (fSa w)).extractLsb' 0 32 + w.extractLsb' 0 32
    (Issues 0x60 (fun w => nz w 47 2 || nz w 32 10) i w s → k.busy (fSa w) = false → k.sp (fSa w) = false →
      ((k.cc[c]! - v).toInt < 0 → exec (.ccWait i w) s = .next (s.heldAt i w)) ∧
      (0 ≤ (k.cc[c]! - v).toInt → Room i s → exec (.ccWait i w) s = .next (s.issuedCtl i k))) ∧
    (Issues 0x61 (fun w => nz w 47 2 || nz w 32 10) i w s → k.busy (fSa w) = false → k.sp (fSa w) = false → Room i s →
      exec (.ccSet i w) s = .next (s.issuedCtl i { k with cc := k.cc.set! c v })) ∧
    (Issues 0x62 (fun w => nz w 47 2 || nz w 32 10 || nz w 0 32) i w s → k.busy (fSa w) = false → Room i s →
      exec (.ccRd i w) s = .next (s.issuedCtl i (k.setS (fSa w) ((k.cc[c]!).setWidth 64) false))) ∧
    (Issues 0x63 (fun w => nz w 0 52) i w s →
      ((s.core i.val).quiet = false → exec (.fence i w) s = .next (s.heldAt i w)) ∧
      ((s.core i.val).quiet = true → Room i s → exec (.fence i w) s = .next (s.issuedCtl i k)))) ∧
  (∀ (i : CoreId) (s : State), (s.core i.val).canIssue (s.env i.val) = true → (s.core i.val).ctl.waitLimit ≠ 0 →
    (s.core i.val).waits (s.env i.val) = true → ∃ t, exec (.waitLimitBreach i) s = .next t ∧ (t.core i.val).ctl.breach = true ∧
      t = s.trapAt i 4 0 (freeDetail 4 ((s.core i.val).ctl.held.getD 0)))

/-- ev.pop moves the oldest record into sd, or zero from an empty queue; ev.wait moves on when the queue is not empty and removes nothing; ev.ctl sets
ev_en; ev.ret restores the loop stack and resumes at CORE_EVT_PC in the handler, and takes the state trap outside it (R61, R63). t.now writes to sd
the time as interpolated at the core's cluster; t.arm arms its slot with its fields, and with its flags and lateness cleared, leaving every other slot
whose tick has not come; t.cancel disarms a slot and writes 1 where it was armed and its tick has not come, and 0 otherwise, the action of a slot
whose tick has come being executed; hint.press records its announcement (R67 to R70). That the overflow flag is set as the record is popped is the
model's reading (log entry 8). -/
def Obligations.EventAndTimeInstructions : Prop :=
  (∀ (i : CoreId) (w : Word) (s : State), let k := (s.core i.val).ctl
    (Issues 0x68 (fun w => nz w 0 47) i w s → Room i s → k.busy (fSd w) = false → ∃ t, exec (.evPop i w) s = .next t ∧
      (t.core i.val).ctl.evq = k.evq.drop 1 ∧
      (fSd w ≠ 0 → (t.core i.val).ctl.s (fSd w) =
        (match k.evq with | [] => 0 | r :: _ => if k.evLost then r ||| (1#64 <<< 59) else r) ∧ (t.core i.val).ctl.sp (fSd w) = false) ∧
      (t.core i.val).ctl.evLost = (k.evLost && decide (k.evq = []))) ∧
    (Issues 0x69 (fun w => nz w 0 52) i w s →
      (k.evq = [] → exec (.evWait i w) s = .next (s.heldAt i w)) ∧
      (k.evq ≠ [] → Room i s → exec (.evWait i w) s = .next (s.issuedCtl i k))) ∧
    (Issues 0x6A (fun w => nz w 0 52) i w s →
      (k.inHandler = true → k.evtPc < 8192 → exec (.evRet i w) s = .next (s.setCore i.val { s.core i.val with
        ctl := { k with loops := k.loopShadow, loopShadow := [], inHandler := false, pc := k.evtPc, held := none } })) ∧
      (k.inHandler = false → exec (.evRet i w) s = .next (s.trapAt i 9 0 (freeDetail 9 w)))) ∧
    (Issues 0x6B (fun w => nz w 1 51) i w s → Room i s → exec (.evCtl i w) s = .next (s.issuedCtl i { k with evEn := bitOf w 0 }))) ∧
  (∀ (i : CoreId) (w : Word) (s : State), let k := (s.core i.val).ctl
    let now := (s.env i.val).now
    (Issues 0x70 (fun w => nz w 0 47) i w s → Room i s → k.busy (fSd w) = false →
      exec (.tNow i w) s = .next (s.issuedCtl i (k.setS (fSd w) (BitVec.ofNat 64 (s.timeAt (clusterOfCore i.val))) false))) ∧
    (Issues 0x71 resvTArm i w s → Room i s → k.busy (fieldOf w 40 5) = false → k.busy (fieldOf w 35 5) = false →
      k.sp (fieldOf w 40 5) = false → k.sp (fieldOf w 35 5) = false → ∃ t, exec (.tArm i w) s = .next t ∧
        let x := (t.core i.val).ctl.slots[fieldOf w 49 3]!
        x.armed = true ∧ x.executed = false ∧ x.late = false ∧ x.cancelled = false ∧ x.lateness = 0 ∧
        x.target = (k.s (fieldOf w 40 5)).toNat ∧ x.armedAt = now ∧ x.kind = fieldOf w 46 3 ∧ x.strict = bitOf w 45 ∧
        x.operand = k.s (fieldOf w 35 5) ∧ x.counter = fieldOf w 32 3 ∧ x.tag = fieldOf w 0 32 ∧
        ∀ n, n < 8 → n ≠ fieldOf w 49 3 → (k.slots[n]!).due now = false → (t.core i.val).ctl.slots[n]! = k.slots[n]!) ∧
    (Issues 0x72 (fun w => nz w 32 15 || nz w 3 29) i w s → Room i s → k.busy (fSd w) = false →
      let x := k.slots[fieldOf w 0 3]!
      ((∀ n, n < 8 → (k.slots[n]!).due now = false) → exec (.tCancel i w) s = .next (s.issuedCtl i
        { k.setS (fSd w) (if x.armed then 1 else 0) false with slots := k.slots.set! (fieldOf w 0 3) { x with armed := false } })) ∧
      (x.due now = true → ∃ t, exec (.tCancel i w) s = .next t ∧ ((t.core i.val).ctl.slots[fieldOf w 0 3]!).armed = false ∧
        ((x.past && x.strict && !(s.env i.val).compat) = false → ((t.core i.val).ctl.slots[fieldOf w 0 3]!).executed = true) ∧
        (fSd w ≠ 0 → (t.core i.val).ctl.s (fSd w) = 0 ∧ (t.core i.val).ctl.sp (fSd w) = false))) ∧
    (Issues 0x78 (fun w => nz w 32 16) i w s → Room i s → exec (.hintPress i w) s =
      .next (s.issuedCtl i { k with hint := some ⟨fieldOf w 48 4, fieldOf w 16 16, fieldOf w 0 16, s.mono⟩ })))

/-- Before its guard a word's reserved fields are checked: one that sets any takes the illegal-encoding trap; a false guard then makes the instruction a
nop (R43, R44). Stated of the scalar instructions of two registers. A precise trap (R65, R66): the instruction has no effect and CORE_EVT_PC takes its
index. With events enabled and outside the handler the record joins the queue and issue waits for the handler; otherwise the core halts, CORE_HALT_REC
holds the record, and the Scribe Complex is told, where no hub link that is down discards the report on its way (R258); the report waits where a
crossing on its way withholds credits (R356). A poisoned code-store word takes the illegal-encoding trap whatever row it is issued as (R44, R181). -/
def Obligations.GuardsAndPreciseTraps : Prop :=
  (∀ op mk f, (op, mk, f) ∈ scalarRows → ∀ (i : CoreId) (w : Word) (s : State), Fetches i w s → opOf w = op →
    (resvS w = true → exec (mk i w) s = .next (s.trapAt i 1 0 (freeDetail 1 w))) ∧
    (resvS w = false → guardOn w (s.core i.val).ctl = false → Room i s → exec (mk i w) s = .next (s.issuedCtl i (s.core i.val).ctl))) ∧
  ((∀ (i : CoreId) (code source detail : Nat) (s : State), (s.core i.val).ctl.halted = false → code < 256 → source < 8 → detail < 2 ^ 27 →
    (s.core i.val).ctl.pc < 2 ^ 13 →
    let k := (s.core i.val).ctl
    let t := s.trapAt i code source detail
    ∃ r : Word, fieldOf r 60 4 = 2 ∧ bitOf r 59 = false ∧ fieldOf r 51 8 = (s.env i.val).gen % 256 ∧ fieldOf r 43 8 = code ∧ fieldOf r 30 13 = k.pc ∧
      fieldOf r 27 3 = source ∧ fieldOf r 0 27 = detail ∧ (t.core i.val).ctl.evtPc = k.pc ∧ (t.core i.val).ctl.pc = k.pc ∧
      (t.core i.val).ctl.sreg = k.sreg ∧ (t.core i.val).well = (s.core i.val).well ∧
      (if k.evEn = true ∧ k.inHandler = false then
        (t.core i.val).ctl.evq = k.evq ++ [r] ∧ (t.core i.val).ctl.trapped = true ∧ t.notes = s.notes
      else (t.core i.val).ctl.halted = true ∧ (t.core i.val).ctl.running = false ∧ (t.core i.val).ctl.haltRec = r ∧
        let n := clusterOfCore i.val
        let x : Note := .coreHalted i.val (s.env i.val).region (s.env i.val).gen
        (s.hubWaits n (scribeHub n) = true → t.notes = s.notes ∧ t.hubHeld = s.hubHeld ++ [.report n (scribeHub n) x]) ∧
        (s.hubWaits n (scribeHub n) = false → t.notes = if (s.send n (scribeHub n)).1 then s.notes ++ [x] else s.notes))) ∧
  (∀ op mk, (op, mk) ∈ wordRows → ∀ (i : CoreId) (w : Word) (s : State), opOf w = op → (s.core i.val).canIssue (s.env i.val) = true →
    (s.core i.val).ctl.held = none → (s.core i.val).ctl.codePoison.look (s.core i.val).ctl.pc false = true →
    exec (mk i w) s = .next (s.trapAt i 1 0 (freeDetail 1 w))))

/-- The oldest event of a class on its way to a core arrives (R30). One of the core's own generation joins its queue while fewer than thirty-one are held,
and is lost with evq_overflow set otherwise, and a ligature fault of code 1, 2, 3 or 5 sets CORE_STATUS.breach; one of another generation is discarded
and counted in CORE_EVT_STALE (R29, R61, R225); a disabled ligature or a timeout met by the lig.wait that holds issue ends it. Entering the handler
saves the index of the next instruction in CORE_EVT_PC and the loop stack in the shadow, and issue moves to CORE_EVT_VEC (R62). -/
def Obligations.EventsAndHandler : Prop :=
  (∀ (i : CoreId) (cls : Fin 7) (m : EventMsg) (s : State), s.dev = .up → (s.core i.val).inbound.find? (fun m => decide (m.cls = cls.val)) = some m →
    m.endsWait (s.core i.val) = false → ∃ t, exec (.eventArrival i cls) s = .next t ∧
      (t.core i.val).inbound = (s.core i.val).inbound.eraseP (fun m => decide (m.cls = cls.val)) ∧
      let k := (s.core i.val).ctl
      let k' := (t.core i.val).ctl
      let breaks := decide (m.cls = 3) && decide (m.code ∈ [1, 2, 3, 5])
      (m.gen % 256 ≠ (s.env i.val).gen → k' = { k with evtStale := (k.evtStale + 1) % 2 ^ 32 }) ∧
      (m.gen % 256 = (s.env i.val).gen → k.evq.length < 31 → k' =
        { k with evq := k.evq ++ [eventRecord m.cls m.code m.info m.gen], breach := k.breach || breaks }) ∧
      (m.gen % 256 = (s.env i.val).gen → 31 ≤ k.evq.length → k' =
        { k with evLost := true, evqOverflow := true, breach := k.breach || breaks })) ∧
  (∀ (i : CoreId) (m : EventMsg) (s : State), s.dev = .up → (s.core i.val).inbound.find? (fun m => decide (m.cls = 3)) = some m →
    m.gen % 256 = (s.env i.val).gen → m.endsWait (s.core i.val) = true → ∃ t, exec (.eventArrival i 3) s = .next t ∧ (t.core i.val).ctl.ligWait = none) ∧
  (∀ (i : CoreId) (s : State), (s.core i.val).entersHandler (s.env i.val) = true → ∃ t, exec (.handlerEntry i) s = .next t ∧
    let k := (s.core i.val).ctl
    let k' := (t.core i.val).ctl
    k'.evtPc = k.pc ∧ k'.loopShadow = k.loops ∧ k'.loops = [] ∧ k'.inHandler = true ∧ k'.pc = k.evtVec ∧ k'.held = none ∧
    k'.trapped = false ∧ k'.evq = k.evq ∧ k'.sreg = k.sreg ∧ (t.core i.val).well = (s.core i.val).well)

/-! ## Ligatures and timed actions -/

/-- At issue a ligature instruction on a ligature of its own device enters the queue (R56, R217, R218): lig.arrive, lig.signal and lig.reset and issue
moves on, lig.read and lig.tstat with a write pending on their destination, and lig.wait holds issue at itself (R221). A far lig.arrive or lig.signal
leaves for its binding's device (R226), waiting for its gateway or, at a core whose messages are held for a check, for the vote. A name outside the
region takes no effect but its fault event, and issue moves on (R218, R225). -/
def Obligations.LigatureIssue : Prop :=
  ∀ (i : CoreId) (w : Word) (s : State), let c := s.core i.val
    let e := s.env i.val
    let o := c.engOp e w
    (∀ op mk, (op, mk) ∈ [(0xE0, Instr.ligArrive), (0xE1, Instr.ligSignal)] → Issues op resvLigFire i w s → Room i s →
      c.regsReady w true false = true → c.regsPoisoned w true false = false →
      (bitOf w 0 = false → (ligCluster e o.sa.toNat).isSome → c.ligFull = false → exec (mk i w) s = .next (s.issued i (ligPut o c))) ∧
      (bitOf w 0 = false → ligCluster e o.sa.toNat = none →
        exec (mk i w) s = .next (s.issued i (c.ligFault e 1 (ligInfo o.sa.toNat 0 c.ctl.pc)))) ∧
      (∀ b : Binding, bitOf w 0 = true → o.sa.toNat < 2 ^ 17 → s.bindings.look (256 * e.region + fieldOf w 1 8) none = some b → c.ligFull = false →
        ∃ t x, exec (mk i w) s = .next t ∧ t.core i.val = (s.issued i (ligFar o c)).core i.val ∧ t.fabWait = s.fabWait ++ [x] ∧
          x.stage = (if s.voteMark e.core = 0 then 0 else 4) ∧ x.pkt.dstDev = b.dev ∧ x.pkt.dstRegion = b.region ∧ x.pkt.gen = b.gen ∧
          x.pkt.cls = 3 ∧ x.pkt.kind = 5 ∧ x.pkt.body = .lig (opOf w = 0xE1) o.sa.toNat c.lig.farSeq (fieldOf w 1 8) c.ctl.pc)) ∧
    (Issues 0xE2 resvLigTwo i w s → c.regsReady w true true = true → c.regsPoisoned w true true = false → (ligCluster e o.sa.toNat).isSome → c.ligFull = false →
      exec (.ligWait i w) s = .next (s.setCore i.val { ligPut o c with ctl := { c.ctl with ligWait := some o, held := none } })) ∧
    (Issues 0xE3 resvLigTwo i w s → Room i s → c.regsReady w true true = true → c.regsPoisoned w true true = false →
      (ligCluster e o.sa.toNat).isSome → c.ligFull = false →
      exec (.ligReset i w) s = .next (s.issued i (ligPut o c))) ∧
    (Issues 0xE4 resvLigTwo i w s → Room i s → c.regsReady w true true = true → c.regsPoisoned w true false = false →
      (ligCluster e o.sa.toNat).isSome → c.ligFull = false →
      exec (.ligRead i w) s = .next (s.issued i { ligPut o c with ctl := c.ctl.hold (eSb w) })) ∧
    (Issues 0xE5 resvLigTstat i w s → Room i s → c.regsReady w true false = true → c.ligFull = false →
      exec (.ligTstat i w) s = .next (s.issued i { ligPut o c with ctl := c.ctl.hold (eSa w) }))

/-- A ligature unit applies an operation of a core of its own cluster, with none of an earlier generation before it, to an enabled ligature (R216, R219,
R220): an arrive adds one to the count and at expect fires, a signal fires, a reset zeroes count and phase and takes a nonzero expect, a read takes
the three, a wait is released when the phase meets its target and recorded or queued when not; a fire zeroes the count and advances the phase. No
other ligature of the cluster changes. -/
def Obligations.LigatureOperation : Prop :=
  ∀ (i : CoreId) (n : ClusterId) (s : State) (o : EngOp) (q : List EngOp), let c := s.core i.val
    let k := s.cluster n.val
    let l := o.sa.toNat % 512
    let x := k.lig l
    let arg := fieldOf o.sb 0 16
    s.alive n.val = true → (s.env i.val).alive = true → clusterOfCore i.val = n.val → c.lig.strays = [] → c.lig.queue = o :: q →
    ligCluster (s.env i.val) o.sa.toNat = some n.val → k.ligOn l = true → 0xE0 ≤ opOf o.w → opOf o.w ≤ 0xE4 →
    ∃ t, exec (.ligatureOpApplied n [(i, false)]) s = .next t ∧ (t.core i.val).lig.queue = q ∧
      (∀ m, m ≠ l → (t.cluster n.val).lig m = k.lig m) ∧
      (t.cluster n.val).lig l =
        (if opOf o.w = 0xE0 then (if x.count + 1 = x.expect then ⟨(x.phase + 1) % 2 ^ 16, 0, x.expect⟩ else ⟨x.phase, (x.count + 1) % 2 ^ 16, x.expect⟩)
         else if opOf o.w = 0xE1 then ⟨(x.phase + 1) % 2 ^ 16, 0, x.expect⟩
         else if opOf o.w = 0xE3 then ⟨0, 0, if arg = 0 then x.expect else arg⟩
         else x) ∧
      (opOf o.w ≠ 0xE2 → (t.core i.val).lig.applied =
        c.lig.applied ++ [⟨o, if opOf o.w = 0xE4 then BitVec.ofNat 64 (x.phase % 2 ^ 16 + x.count % 2 ^ 16 * 2 ^ 16 + x.expect % 2 ^ 16 * 2 ^ 32) else 0⟩]) ∧
      (opOf o.w = 0xE2 →
        if (x.phase + 2 ^ 16 - arg) % 2 ^ 16 < 2 ^ 15 then i.val ∈ (t.cluster n.val).releases
        else ∃ y ∈ (t.cluster n.val).waiters ++ (t.cluster n.val).waitQ, y.core = i.val ∧ y.lig = l ∧ y.target = arg)

/-- What follows the unit's work: a release ends the lig.wait that holds issue (R221), here of a core of the unit's own cluster; a wait that found no
record is applied again when one is free (R222); a recorded waiter that has waited for its ligature's timeout is removed and its core told, where no
crossing in holdover holds the fault back and no hub link that is down discards it (R224, R258, R356); an operation completes at its core and counts,
lig.read writing its ligature's state and lig.tstat that of a slot whose tick has not come (R58, R219, R221). -/
def Obligations.LigatureCompletion : Prop :=
  (∀ (i : CoreId) (s : State) (o : EngOp), (s.core i.val).ctl.ligWait = some o → ligCluster (s.env i.val) o.sa.toNat = some (clusterOfCore i.val) →
    (s.env i.val).alive = true → i.val ∈ (s.cluster (clusterOfCore i.val)).releases → Room i s →
    ∃ t, exec (.waiterRelease i) s = .next t ∧ (t.core i.val).ctl.ligWait = none ∧ i.val ∉ (t.cluster (clusterOfCore i.val)).releases ∧
      (t.core i.val).ctl.pc = (afterIndex (s.core i.val).ctl.pc (s.core i.val).ctl.loops).2) ∧
  (∀ (n : ClusterId) (s : State) (x : Waiter) (q : List Waiter), s.alive n.val = true → (s.cluster n.val).waitQ = x :: q →
    (s.cluster n.val).waiters.length < 1024 → ∃ t, exec (.waitReapply n) s = .next t ∧ (t.cluster n.val).waitQ = q ∧
      if ligMet ((s.cluster n.val).lig x.lig).phase x.target then (t.cluster n.val).releases = (s.cluster n.val).releases ++ [x.core]
      else (t.cluster n.val).waiters = (s.cluster n.val).waiters ++ [{ x with since := s.timeAt n.val }]) ∧
  (∀ (i : CoreId) (s : State) (x : Waiter), let n := clusterOfCore i.val
    s.waitAt i.val = some n → (s.cluster n).waiters.find? (fun y => y.core = i.val) = some x → s.alive n = true →
    let v := (s.cluster n).fld (fldAt fLigCfgTimeout (8 * x.lig))
    v ≠ 0 → s.hubWaits n (clusterOfCore i.val) = false → (s.send n (clusterOfCore i.val)).1 = true → x.since + 1000 * 2 ^ (v - 1) ≤ s.timeAt n → ∃ t, exec (.ligatureWaitTimeout i) s = .next t ∧
      (t.cluster n).waiters = (s.cluster n).waiters.filter (fun y => y.core != i.val) ∧
      (t.core i.val).inbound = (s.core i.val).inbound ++ [⟨3, 3, ligInfo x.operand 0 x.pc, (s.env i.val).gen⟩]) ∧
  (∀ (i : CoreId) (idx : Nat) (s : State) (d : LigDone), (s.env i.val).alive = true → (s.core i.val).lig.applied[idx]? = some d →
    (bitOf d.op.w 0 = true → opOf d.op.w ≤ 0xE1 → s.farWaits (s.env i.val) d.value.toNat = false) →
    ∃ t, exec (.ligatureOpCompletion i idx) s = .next t ∧ (t.core i.val).lig.applied = (s.core i.val).lig.applied.eraseIdx idx ∧
      (t.core i.val).ctl.cc = ccAfter d.op.w (s.core i.val).ctl ∧
      (opOf d.op.w = 0xE4 → eSb d.op.w ≠ 0 → (t.core i.val).ctl.s (eSb d.op.w) = d.value ∧ (t.core i.val).ctl.sp (eSb d.op.w) = false ∧
        (t.core i.val).ctl.busy (eSb d.op.w) = false)) ∧
  (∀ (i : CoreId) (idx : Nat) (s : State) (o : EngOp) (q : List EngOp), (s.env i.val).alive = true → (s.core i.val).lig.applied[idx]? = none →
    (s.core i.val).lig.queue = o :: q → opOf o.w = 0xE5 → eSa o.w ≠ 0 →
    ((s.core i.val).ctl.slots[fieldOf o.w 0 3]!).due (s.env i.val).now = false → ∃ t, exec (.ligatureOpCompletion i idx) s = .next t ∧
      (t.core i.val).lig.queue = q ∧ (t.core i.val).ctl.busy (eSa o.w) = false ∧
      let x := (s.core i.val).ctl.slots[fieldOf o.w 0 3]!
      let v := (t.core i.val).ctl.s (eSa o.w)
      bitOf v 0 = x.armed ∧ bitOf v 1 = x.executed ∧ bitOf v 2 = x.late ∧ bitOf v 3 = x.cancelled ∧ fieldOf v 32 32 = x.lateness % 2 ^ 32)

/-- A far operation not too old, of a region that exists, acts on its ligature as R216 says when the region's generation is the one it carries, its name
lies in the region and the ligature is enabled; one of another generation changes no ligature and counts in its unit's LIG_STALE; one of the region's
generation whose name lies outside the region or whose ligature is not enabled changes none and counts in LIG_FAR_DROP; one that comes while the
region is being wiped changes none and is not counted there (R226, R227, R274). An armed slot whose tick has come, and before which by tick and then
by slot no other that is due comes, acts (R228): a timer event, a ligature operation or a counter. A past target acts late with its lateness; with the
strict bit, except under the compatibility bit, the slot is cancelled instead, and its core's queue takes the ligature fault, unless earlier ligature
faults are still on their way (R229, R230). At what tick a slot is due after a step of the time is the model's reading (log entry 30). -/
def Obligations.FarAndTimedLigatureActions : Prop :=
  ((∀ (idx : Nat) (n : Nat) (x : FarOp) (s : State), s.dev = .up → s.farOps[idx]? = some x → s.tooOld x.injectUs = false → s.rgn x.region fRgnCfgEnable = 1 →
    s.rgn x.region fRgnStatusState ≠ 5 → x.gen = s.rgn x.region fRgnStatusGeneration → ligCluster (s.regionEnv x.region) x.operand = some n →
    (s.cluster n).ligOn (x.operand % 512) = true → ∃ t, exec (.farLigatureArrival idx) s = .next t ∧ t.farOps = s.farOps.eraseIdx idx ∧
      let y := (s.cluster n).lig (x.operand % 512)
      (t.cluster n).lig (x.operand % 512) =
        if x.signal = true ∨ y.count + 1 = y.expect then ⟨(y.phase + 1) % 2 ^ 16, 0, y.expect⟩ else ⟨y.phase, (y.count + 1) % 2 ^ 16, y.expect⟩) ∧
  (∀ (idx : Nat) (x : FarOp) (s : State), s.dev = .up → s.farOps[idx]? = some x → s.tooOld x.injectUs = false → s.rgn x.region fRgnCfgEnable = 1 →
    let n := farUnit (s.regionEnv x.region) x.operand
    let bad := (ligCluster (s.regionEnv x.region) x.operand).isNone || !(s.cluster n).ligOn (x.operand % 512)
    (x.gen ≠ s.rgn x.region fRgnStatusGeneration → ∃ t, exec (.farLigatureArrival idx) s = .next t ∧ t.farOps = s.farOps.eraseIdx idx ∧
      (t.cluster n).ligs = (s.cluster n).ligs ∧ (t.cluster n).fld fLigStaleCount = ((s.cluster n).fld fLigStaleCount + 1) % 2 ^ fLigStaleCount.width) ∧
    (x.gen = s.rgn x.region fRgnStatusGeneration → s.rgn x.region fRgnStatusState = 5 → ∃ t, exec (.farLigatureArrival idx) s = .next t ∧
      t.farOps = s.farOps.eraseIdx idx ∧ (t.cluster n).ligs = (s.cluster n).ligs ∧ (t.cluster n).fld fLigFarDropCount = (s.cluster n).fld fLigFarDropCount) ∧
    (x.gen = s.rgn x.region fRgnStatusGeneration → s.rgn x.region fRgnStatusState ≠ 5 → bad = true → ∃ t, exec (.farLigatureArrival idx) s = .next t ∧ t.farOps = s.farOps.eraseIdx idx ∧
      (t.cluster n).ligs = (s.cluster n).ligs ∧
      (t.cluster n).fld fLigFarDropCount = ((s.cluster n).fld fLigFarDropCount + 1) % 2 ^ fLigFarDropCount.width))) ∧
  (∀ (i : CoreId) (m : Fin 8) (s : State), let e := s.env i.val
    let c := s.core i.val
    let x := c.ctl.slots[m.val]!
    e.alive = true → x.due e.now = true →
    (∀ j, j < 8 → j ≠ m.val → (c.ctl.slots[j]!).due e.now = false ∨ x.tick < (c.ctl.slots[j]!).tick ∨ (x.tick = (c.ctl.slots[j]!).tick ∧ m.val < j)) →
    ∃ t, exec (.timedActionExecute i m) s = .next t ∧
      let y := (t.core i.val).ctl.slots[m.val]!
      y.armed = false ∧
      (x.past = true → x.strict = true → e.compat = false → y.cancelled = true ∧ y.late = true ∧ y.executed = x.executed ∧
        y.lateness = min (x.tick - x.target) (2 ^ 32 - 1) ∧ (t.core i.val).lig.timed = c.lig.timed ∧ (t.core i.val).ctl.cc = c.ctl.cc ∧
        ((∀ z ∈ c.inbound, z.cls ≠ 3) → c.ctl.evq.length < 31 → (t.core i.val).ctl.evq =
          c.ctl.evq ++ [eventRecord 3 4 (x.operand.toNat % 2 ^ 17 + m.val * 2 ^ 25 + 2 ^ 28) e.gen])) ∧
      (¬(x.past = true ∧ x.strict = true ∧ e.compat = false) → y.executed = true ∧ y.late = x.past ∧
        y.lateness = (if x.past then min (x.tick - x.target) (2 ^ 32 - 1) else 0) ∧
        (x.kind = 0 → c.ctl.evq.length < 31 → (t.core i.val).ctl.evq = c.ctl.evq ++ [eventRecord 5 1 (m.val * 2 ^ 40 + x.tag % 2 ^ 32) e.gen]) ∧
        (x.kind = 3 → (t.core i.val).ctl.cc = c.ctl.cc.set! x.counter (c.ctl.cc[x.counter]! + 1)) ∧
        (x.kind = 1 ∨ x.kind = 2 → (ligCluster e x.operand.toNat).isSome →
          (t.core i.val).lig.timed = c.lig.timed ++ [⟨if x.kind = 1 then 0xE1 else 0xE0, x.operand.toNat, m.val⟩])))

/-! ## The engines -/

/-- An engine instruction at issue (R44, R49, R50, R56, R57): a word whose encoding its chapter makes illegal takes the illegal-encoding trap, whatever
its guard; any other holds while a register that it names has a write pending or its engine's queue is full, takes the poisoned-control trap for a
poisoned operand and the trap of its own checks, and otherwise enters its engine's queue with the values of its registers, a scalar destination having
a write pending from then on. The source number of a poisoned-control trap and what is judged before the guard are the model's readings (log entry 10,
log entry 6). -/
def Obligations.EngineIssue : Prop :=
  ∀ r ∈ matrixRows ++ vectorRows ++ copyRows ++ channelRows,
    (∀ (o : EngOp) (c : Core), r.queue (r.put o c) = r.queue c ++ [o]) ∧
    (∀ (i : CoreId) (w : Word) (s : State), Fetches i w s → opOf w = r.op → r.bad i s w = true →
      exec (r.cmd i w) s = .next (s.trapAt i 1 r.source (freeDetail 1 w))) ∧
    (∀ (i : CoreId) (w : Word) (s : State), Issues r.op (r.bad i s) i w s → let c := s.core i.val
      let e := s.env i.val
      (c.regsReady w (r.sa w c || r.dest w) (r.sb w) = false → exec (r.cmd i w) s = .next (s.heldAt i w)) ∧
      (c.regsReady w (r.sa w c || r.dest w) (r.sb w) = true →
        (c.regsPoisoned w (r.sa w c) (r.sb w) = true → exec (r.cmd i w) s = .next (s.trapAt i 6 r.source (freeDetail 6 w))) ∧
        (c.regsPoisoned w (r.sa w c) (r.sb w) = false →
          (∀ code detail, r.check e w c = some (code, detail) → exec (r.cmd i w) s = .next (s.trapAt i code r.source detail)) ∧
          (r.check e w c = none → r.cap ≤ (r.queue c).length → exec (r.cmd i w) s = .next (s.heldAt i w)) ∧
          (r.check e w c = none → (r.queue c).length < r.cap → Room i s →
            let c' := r.put (c.engOp e w) c
            exec (r.cmd i w) s = .next (s.issued i (if r.dest w then { c' with ctl := c'.ctl.hold (eSa w) } else c'))))))

/-- While no started mx.load waits for bytes of its port, the oldest queued matrix instruction starts when R103 lets it, and no other does. mx.hand then
sets the hand and empties both planes; mx.anchor clears the row-segments of its rectangle under a fixed anchor, or, with def, sets MX_ANCHOR_DEF's
mode; a load from the port takes the bytes that are there. A started load that waits takes further bytes as they arrive (R103 to R106, R190). A stroke
of the running stream enters when its port bytes are there: its products are added to its accumulator row, and its sum to the checksum of that row
(R101, R108, R116). A stream whose port does not have them ends, when it is told that it has waited too long, with the schedule-breach trap: it
completes and counts, and its accumulators and its port stay as they are (R110). -/
def Obligations.MatrixStartAndStrokes : Prop :=
  ((∀ (i : CoreId) (s : State) (o : EngOp) (q : List EngOp), let c := s.core i.val
    c.mx.queue = o :: q → (s.env i.val).alive = true → (∀ r ∈ c.mx.running, r.wants = 0) →
    (mxMayStart c.mx.running o = false → ∃ t, exec (.matrixStart i) s = .next t ∧ (t.core i.val).mx.queue = c.mx.queue ∧
      (t.core i.val).mx.running = c.mx.running ∧ (t.core i.val).mx.acc = c.mx.acc ∧ (t.core i.val).mx.planes = c.mx.planes) ∧
    (mxMayStart c.mx.running o = true → ∃ t r, exec (.matrixStart i) s = .next t ∧ (t.core i.val).mx.queue = q ∧
      (t.core i.val).mx.running = c.mx.running ++ [r] ∧ r.op = o ∧ r.entered = 0 ∧ r.ended = false ∧
      (opOf o.w = 0x80 → (t.core i.val).mx.hand = fieldOf o.w 0 2 ∧ (t.core i.val).mx.planes = Vector.replicate 2 ⟨0, 0, []⟩) ∧
      (opOf o.w = 0x81 → bitOf o.w 5 = true → r.data = (c.mx.load.take (c.mx.load.avail (loadPort o))).1) ∧
      (∀ x, opOf o.w = 0x82 → bitOf o.w 26 = false → fieldOf o.w 24 2 = 0 → o.footprint = some x →
        (t.core i.val).mx.acc = (c.mx.clearRect (.at (signedOf 10 (fieldOf o.sa 0 10))) x).acc) ∧
      (opOf o.w = 0x82 → bitOf o.w 26 = true → (t.core i.val).fld fMxAnchorDefMode = fieldOf o.w 24 2 ∧ (t.core i.val).mx.acc = c.mx.acc))) ∧
  (∀ (i : CoreId) (s : State) (k : Nat) (r : MxRun), let c := s.core i.val
    c.mx.queue = [] → (s.env i.val).alive = true → c.mx.running.findIdx? (fun r => decide (0 < r.wants)) = some k → c.mx.running[k]? = some r →
    ∃ t, exec (.matrixStart i) s = .next t ∧
      (t.core i.val).mx.running = c.mx.running.set k { r with data := r.data ++ (c.mx.load.take (c.mx.load.avail r.wants)).1 })) ∧
  (∀ (i : CoreId) (s : State) (k : Nat) (r : MxRun), let c := s.core i.val
    c.mx.running.findIdx? MxRun.streaming = some k → c.mx.running[k]? = some r → (s.env i.val).alive = true →
    (c.mx.stream.has r.op.strokePort = true → ∃ t, exec (.strokeEntry i) s = .next t ∧
      let (ws, c', f) := c.stroke (s.env i.val) r.op r.entered r.wsw
      let m := c'.mx.addStroke (c.mx.planes[fieldOf r.op.w 25 1]!) (fieldOf r.op.w 0 9 + r.entered) (fieldOf r.op.w 18 3 * handM r.op.hand) ws
      (t.core i.val).mx.running = c.mx.running.set k { r with entered := r.entered + 1, wsw := f } ∧
      (t.core i.val).mx.acc = m.acc ∧ (t.core i.val).mx.segs = m.segs) ∧
    (c.mx.stream.has r.op.strokePort = false → ∃ t, exec (.streamFeedTimeout i) s = .next t ∧
      (t.core i.val).mx.running = c.mx.running.eraseIdx k ∧ (t.core i.val).ctl.breach = true ∧ (t.core i.val).ctl.cc = ccAfter r.op.w c.ctl ∧
      (t.core i.val).mx.acc = c.mx.acc ∧ (t.core i.val).mx.stream = c.mx.stream))

/-- Once the beats due are served, a started matrix instruction that can complete leaves the engine and counts (R56, R58): mx.flags gives sa the flags and
clears those it names (R114), mx.ldacc adds its records (R113), mx.load fills its plane with the bytes it has taken (R105), and mx.drain clears its
entries only with its clear bit (R111, R112); its completion changes no byte of the well. One that cannot complete stays. A beat of a drain writes its
sixteen entries to the well, and one of a load from the well reads 256 bytes and writes nothing (R147). -/
def Obligations.MatrixCompletion : Prop :=
  (∀ (i : CoreId) (k n : Nat) (s : State) (r : MxRun), let e := s.env i.val
    let c := Core.mxServe e k n (s.core i.val)
    c.mx.running[k]? = some r → e.alive = true → ∃ t, exec (.matrixCompletion i ⟨k, n⟩) s = .next t ∧
      let c' := t.core i.val
      c'.well.mem = c.well.mem ∧
      (c.mxReady r = false → c'.mx.running = c.mx.running ∧ c'.mx.acc = c.mx.acc ∧ c'.mx.planes = c.mx.planes ∧ c'.ctl = c.ctl) ∧
      (c.mxReady r = true → c'.mx.running = c.mx.running.eraseIdx k ∧ c'.ctl.cc = ccAfter r.op.w c.ctl ∧
        (opOf r.op.w = 0x85 → c'.mx.flags = c.mx.flags &&& ~~~(BitVec.ofNat 6 (fieldOf r.op.w 0 6)) ∧ c'.ctl.busy (eSa r.op.w) = false ∧
          (eSa r.op.w ≠ 0 → c'.ctl.s (eSa r.op.w) = c.mx.flags.setWidth 64 ∧ c'.ctl.sp (eSa r.op.w) = false)) ∧
        (opOf r.op.w = 0x86 → c'.mx.acc = (c.mx.addRecords (drainRect r.op.w r.op.sb) r.data).acc) ∧
        (opOf r.op.w = 0x81 → c'.mx.planes = c.mx.planes.set! (fieldOf r.op.w 4 1)
          (planeOf (fieldOf r.op.w 0 4) (depthOf (fieldOf r.op.w 0 4) r.op.hand) (fieldOf r.op.w 6 6 + 1) r.data)) ∧
        (opOf r.op.w = 0x84 → bitOf r.op.w 17 = false → c'.mx.acc = c.mx.acc ∧ c'.mx.segs = c.mx.segs) ∧
        (opOf r.op.w = 0x84 → bitOf r.op.w 17 = true →
          c'.mx.acc = (c.mx.clearRect (.pending r.defMode (signedOf 10 r.defValue)) (drainRect r.op.w r.op.sb)).acc))) ∧
  (∀ (e : Env) (c : Core) (k : Nat) (r : MxRun), c.mx.running[k]? = some r → e.alive = true → 0 < r.left →
    ∃ r', (Core.mxServe e k 1 c).mx.running = c.mx.running.set k r' ∧ r'.op = r.op ∧ r'.beats = r.beats + 1 ∧
      (Core.mxServe e k 1 c).well.mem = (if opOf r.op.w = 0x84 then (c.wellWrites e ⟨3, 1, r.op.pc⟩ (c.drainBeat e r.op r.beats)).well.mem else c.well.mem) ∧
      (opOf r.op.w = 0x81 → r'.data.length = r.data.length + min 256 (r.op.loadBytes - 256 * r.beats)))

/-- The oldest queued vector instruction starts when its sources are written and nothing it must follow runs, and computes its result (R136): the five
lane-wise operations of two operands combine each active lane of va and vb, a poisoned operand poisoning it (R123, R124, R127, R128). Once the beats
due are served, a started vector instruction that can complete leaves the engine, counts, and writes what it computed: its vector register, its mask
register, its scalar register; a load the lanes of the bytes that it has read, or takes from the port; vx.flags the flags, clearing those it names.
One that cannot complete stays. A beat of a store writes its words to the well (R147). A port load that has waited too long completes with the
schedule-breach trap and leaves vd (R56, R58, R135, R136, R137). -/
def Obligations.VectorStartAndCompletion : Prop :=
  (∀ (i : CoreId) (s : State) (o : EngOp) (q : List EngOp), let c := s.core i.val
    let k := (s.env i.val).compat
    c.vx.queue = o :: q → (s.env i.val).alive = true → vxMayStart c.vx.running o = true → ∃ t r, exec (.vectorStart i) s = .next t ∧
      (t.core i.val).vx.queue = q ∧ (t.core i.val).vx.running = c.vx.running ++ [r] ∧ r.op = o ∧ (t.core i.val).vx.regs = c.vx.regs ∧
      ∀ op f, (op, f) ∈ [(0xA2, vAdd k), (0xA3, vSub k), (0xA4, vMul k), (0xA6, vMinMax k false), (0xA7, vMinMax k true)] → opOf o.w = op →
        ∃ ls, r.lanes = some ls ∧ ∀ l, l < 64 → let m := c.vx.mask (vVm o.w)
          let a := c.vx.lane (vVa o.w) l
          let b := c.vx.lane (vVb o.w) l
          ls[l]? = some (if bitOf m.bits l then ⟨(f a.v b.v).1, a.poison || b.poison || m.poison⟩
            else if vZm o.w then ⟨0, m.poison⟩ else ⟨(c.vx.lane (vVd o.w) l).v, (c.vx.lane (vVd o.w) l).poison || m.poison⟩)) ∧
  ((∀ (i : CoreId) (k n : Nat) (s : State) (r : VxRun), let e := s.env i.val
    let c := Core.vxServe e k n (s.core i.val)
    c.vx.running[k]? = some r → e.alive = true → ∃ t, exec (.vectorCompletion i ⟨k, n⟩) s = .next t ∧
      let c' := t.core i.val
      c'.well.mem = c.well.mem ∧
      (c.vxReady k r = false → c'.vx.running = c.vx.running ∧ c'.vx.regs = c.vx.regs ∧ c'.vx.masks = c.vx.masks ∧ c'.ctl = c.ctl) ∧
      (c.vxReady k r = true → c'.vx.running = c.vx.running.eraseIdx k ∧ c'.ctl.cc = ccAfter r.op.w c.ctl ∧
        (opOf r.op.w ≠ 0xA0 → (∀ ls, r.lanes = some ls → c'.vx.regs = (c.vx.setReg (vVd r.op.w) ls).regs) ∧ (r.lanes = none → c'.vx.regs = c.vx.regs)) ∧
        (opOf r.op.w = 0xA0 →
          let bs := if vPort r.op.w then (c.vx.port.take r.op.vxPortBytes).1 else r.data
          ∀ ls, (vxLoad e r.under r.old r.op (bs.take (vxBytes (vFmt r.op.w))) (bs.drop (vxBytes (vFmt r.op.w)))).lanes = some ls →
            c'.vx.regs = (c.vx.setReg (vVd r.op.w) ls).regs) ∧
        (∀ m, r.mask = some m → c'.vx.masks = (c.vx.setMask (fieldOf r.op.w 0 3) m).masks) ∧ (r.mask = none → c'.vx.masks = c.vx.masks) ∧
        (∀ v, r.scalar = some v → opOf r.op.w ≠ 0xAF → eSa r.op.w ≠ 0 → c'.ctl.s (eSa r.op.w) = v.1 ∧ c'.ctl.sp (eSa r.op.w) = v.2 ∧
          c'.ctl.busy (eSa r.op.w) = false) ∧
        (opOf r.op.w = 0xAF → r.flags = 0 → c'.vx.flags = c.vx.flags &&& ~~~(BitVec.ofNat 6 (fieldOf r.op.w 0 6)) ∧
          (eSa r.op.w ≠ 0 → c'.ctl.s (eSa r.op.w) = c.vx.flags.setWidth 64 ∧ c'.ctl.sp (eSa r.op.w) = false ∧ c'.ctl.busy (eSa r.op.w) = false)))) ∧
  (∀ (e : Env) (c : Core) (k : Nat) (r : VxRun), c.vx.running[k]? = some r → e.alive = true → opOf r.op.w = 0xA1 → 0 < r.left →
    (∀ x ∈ c.vx.running.take k, opOf x.op.w ≠ 0xA1) →
    (Core.vxServe e k 1 c).well.mem = (c.wellWrites e ⟨5, 2, r.op.pc⟩ (r.writes.getD r.beats [])).well.mem ∧
      (Core.vxServe e k 1 c).vx.running = c.vx.running.set k { r with beats := r.beats + 1 }) ∧
  (∀ (i : CoreId) (k : Nat) (s : State) (r : VxRun), let c := s.core i.val
    c.vx.running.findIdx? (fun r => vPort r.op.w) = some k → c.vx.running[k]? = some r → (s.env i.val).alive = true →
    c.vx.port.has r.op.vxPortBytes = false → ∃ t, exec (.vxPortLoadTimeout i) s = .next t ∧
      (t.core i.val).vx.running = c.vx.running.eraseIdx k ∧ (t.core i.val).vx.regs = c.vx.regs ∧ (t.core i.val).vx.port = c.vx.port ∧
      (t.core i.val).ctl.cc = ccAfter r.op.w c.ctl ∧ (t.core i.val).ctl.breach = true))

/-- A forced access of an asynchronous port counts, sets the breach bits and, the first time since region start, raises its trap, which joins a queue with
room (R146). An access of the scrub port to the next word in turn or to a word queued for it, with the errors that upsets have made since in force,
corrects a single-bit error, leaves a worse one, changes no byte, and moves the scrub on (R156, R159). The oldest queued copy starts when R174 lets
it, taking its slot, with no line granted; one on the move pipe then does its whole work on the well (R175), and cp.swap exchanges its pair's halves
and forgets its breach mark (R152). -/
def Obligations.WellEventsAndCopyStart : Prop :=
  ((∀ (i : CoreId) (port : Fin 16) (put : Bool) (run a : Nat) (s : State), let c := s.core i.val
    (s.env i.val).alive = true → 8 ≤ port.val → port.val ≠ 13 → port.val ≠ 14 → a < 2 ^ 19 → c.fld fWellCtrlAsyncLimit ≠ 0 → c.well.wiping = false →
    ∃ t, exec (.asyncWordForced i port put run a) s = .next t ∧
      (t.core i.val).fld fWellAsyncForcedCount = (c.fld fWellAsyncForcedCount + 1) % 2 ^ fWellAsyncForcedCount.width ∧
      (t.core i.val).fld fWellStatusBreachSeen = 1 ∧ (t.core i.val).ctl.breach = true ∧ (t.core i.val).well.forcedTrap = true ∧
      (c.well.forcedTrap = true → (t.core i.val).ctl.evq = c.ctl.evq) ∧
      (c.well.forcedTrap = false → c.ctl.evq.length < 31 → ∃ pc, (t.core i.val).ctl.evq =
        c.ctl.evq ++ [eventRecord 2 4 (trapInfo pc (asyncSource port.val put) (a + port.val * 2 ^ 19)) (s.env i.val).gen])) ∧
  (∀ (i : CoreId) (a : Nat) (upset : List (Nat × Bool)) (s : State), let c := s.core i.val
    let m := (c.wellUpset upset).well.mem
    s.alive (clusterOfCore i.val) = true → c.well.wiping = false → a < 2 ^ 19 →
    (a = c.well.scrubNext ∧ c.fld fWellCtrlScrubEn = 1) ∨ a ∈ c.well.scrubQ → ∃ t, exec (.wellScrubAccess i a upset) s = .next t ∧
      a ∉ (t.core i.val).well.scrubQ ∧ (m.check a = .ce → (t.core i.val).well.mem.check a = .ok) ∧
      (m.check a = .ue → (t.core i.val).well.mem.check a = .ue) ∧ (t.core i.val).well.mem.bytes = c.well.mem.bytes ∧
      (a = c.well.scrubNext → c.fld fWellCtrlScrubEn = 1 → (t.core i.val).well.scrubNext = (a + 1) % 2 ^ 19))) ∧
  (∀ (i : CoreId) (clk : Nat) (s : State) (o : EngOp) (q : List EngOp) (slot : Nat), let c := s.core i.val
    c.cp.queue = o :: q → (s.env i.val).alive = true → c.cpMayStart clk o = some slot → ∃ t, exec (.copyStart i clk) s = .next t ∧
      (t.core i.val).cp.queue = q ∧ (t.core i.val).cp.running.map (fun r => r.op) = c.cp.running.map (fun r => r.op) ++ [o] ∧
      (∃ r, (t.core i.val).cp.running.getLast? = some r ∧ r.op = o ∧ r.slot = slot ∧ r.granted = []) ∧
      (opOf o.w = 0xC2 → (t.core i.val).well.mem = (c.moveAll (s.env i.val) o (c.cpBase o)).well.mem) ∧
      (opOf o.w = 0xCF → ∀ p, p < 8 → (t.core i.val).well.verso[p]! = (if p = cpPair o.w then !c.well.verso[p]! else c.well.verso[p]!) ∧
        (t.core i.val).well.breached[p]! = (if p = cpPair o.w then false else c.well.breached[p]!)))

/-- A channel of the reservoir grants the line that R179 picks, opening its row and counting one line, or two where it writes part of one; a granted line
is delivered, its work being done on the well, the reservoir or a port, and is then no longer waited for; a background line that has waited
promote_age promotes its slot on the channel (R163, R168, R176, R179). -/
def Obligations.ReservoirLines : Prop :=
  (∀ (i : CoreId) (ch : Fin 16) (clk : Nat) (s : State) (o : Offer) (r : CpRun), let c := s.core i.val
    (s.env i.val).alive = true → c.rsv.wiping = false → pickLine (c.rsv.lastBg.look ch.val 7) (c.offers ch.val clk) = some o →
    c.cp.running[o.at_]? = some r → ∃ t r', exec (.reservoirLineGrant i ch clk) s = .next t ∧ (t.core i.val).cp.running[o.at_]? = some r' ∧
      r'.granted = r.granted ++ [o.line] ∧ r'.waiting = r.waiting.filter (fun k => k != o.line) ∧ r'.op = r.op ∧
      let l := (c.cpLines r.op r.base).getD o.line ⟨0, []⟩
      (t.core i.val).rsv.openRow.look (16 * ch.val + rsvBank (64 * l.line)) 0 = rsvRow (64 * l.line) + 1 ∧
      (t.core i.val).fld fCpLinesCount = (c.fld fCpLinesCount + if cpWritesRsv r.op.w && !l.whole then 2 else 1) % 2 ^ fCpLinesCount.width) ∧
  (∀ (i : CoreId) (slot : Fin 8) (k j : Nat) (s : State) (r : CpRun) (l : Line), let c := s.core i.val
    c.cp.running.findIdx? (fun r => r.slot = slot.val) = some j → c.cp.running[j]? = some r → (c.cpLines r.op r.base)[k]? = some l →
    (s.env i.val).alive = true → c.mayDeliver r k l = true → ∃ t r', exec (.reservoirLineDelivery i slot k) s = .next t ∧
      (t.core i.val).cp.running[j]? = some r' ∧ r'.granted = r.granted.filter (fun x => x != k) ∧
      r'.waiting = r.waiting.filter (fun x => x != k) ∧ r'.op = r.op ∧
      let d := (c.deliverLine (s.env i.val) r l).1
      (t.core i.val).well.mem = d.well.mem ∧ (t.core i.val).rsv.mem = d.rsv.mem ∧ (t.core i.val).mx.stream = d.mx.stream ∧
      (t.core i.val).vx.port = d.vx.port ∧
      (opOf r.op.w = 0xC0 → (t.core i.val).rsv.mem.bytes = c.rsv.mem.bytes) ∧ (opOf r.op.w = 0xC1 → (t.core i.val).well.mem = c.well.mem)) ∧
  (∀ (i : CoreId) (slot : Fin 8) (ch : Fin 16) (k : Nat) (s : State) (r : CpRun), let c := s.core i.val
    let now := (s.env i.val).now
    c.cp.running.findIdx? (fun r => r.slot = slot.val) = some k → c.cp.running[k]? = some r → (s.env i.val).alive = true →
    c.fld fCpCtrlPromoteAge ≠ 0 → r.ages.look ch.val 0 ≠ 0 → r.ages.look ch.val 0 - 1 + 1000 * c.fld fCpCtrlPromoteAge ≤ now →
    fieldOf r.op.w 14 16 = 0 → (c.offered r (c.cpLines r.op r.base) ch.val).isSome → r.promoted.contains ch.val = false →
    ∃ t, exec (.backgroundPromotion i slot ch) s = .next t ∧
      (t.core i.val).cp.running = c.cp.running.set k { r with promoted := r.promoted ++ [ch.val], ages := r.ages.put ch.val (now + 1) 0 } ∧
      (t.core i.val).fld fCpPromotedCount = (c.fld fCpPromotedCount + 1) % 2 ^ fCpPromotedCount.width)

/-- A copy whose work is done, and whose messages have left the core where it is a cp.rput, leaves the engine and counts (R56, R58, R175, R176, R205). A
bank's refresh is performed, or postponed at most eight times while lines wait for it (R168); the scrub, where enabled and where no line waits on its
channel, corrects the next line, with the errors that upsets have made since in force, and changes no byte (R167); a failing row takes a spare of its
bank, with its bytes (R420). -/
def Obligations.ReservoirUpkeep : Prop :=
  (∀ (i : CoreId) (idx : Nat) (s : State) (r : CpRun), let c := s.core i.val
    c.cp.running[idx]? = some r → (s.env i.val).alive = true → c.cpDone r = true → (opOf r.op.w = 0xC5 → s.leaving (s.env i.val) (cpEp r.op.w) = false) →
    ∃ t, exec (.copyCompletion i idx) s = .next t ∧ (t.core i.val).cp.running = c.cp.running.eraseIdx idx ∧
      (t.core i.val).ctl.cc = ccAfter r.op.w c.ctl ∧ (t.core i.val).fld fCpInstrCount = (c.fld fCpInstrCount + 1) % 2 ^ fCpInstrCount.width) ∧
  (∀ (i : CoreId) (ch bank : Fin 16) (postpone : Bool) (s : State), let c := s.core i.val
    let key := 16 * ch.val + bank.val
    s.alive (clusterOfCore i.val) = true → ∃ t, exec (.reservoirRefresh i ch bank postpone) s = .next t ∧
      if postpone = true ∧ c.bankWaits ch.val bank.val = true ∧ c.rsv.postponed.look key 0 < 8 then
        (t.core i.val).rsv.postponed.look key 0 = c.rsv.postponed.look key 0 + 1
      else (t.core i.val).rsv.postponed.look key 0 = 0 ∧
        (t.core i.val).fld fRsvRefreshCount = (c.fld fRsvRefreshCount + 1) % 2 ^ fRsvRefreshCount.width) ∧
  (∀ (i : CoreId) (upset : List (Nat × Bool)) (s : State), let c := s.core i.val
    s.alive (clusterOfCore i.val) = true → c.fld fRsvCtrlScrubEn = 1 → c.rsv.wiping = false → c.lineWaits (rsvChannel (64 * c.rsv.scrubNext)) = false →
    ∃ t, exec (.reservoirScrub i upset) s = .next t ∧ (t.core i.val).rsv.mem.bytes = c.rsv.mem.bytes ∧
      (t.core i.val).rsv.scrubNext = (if c.rsv.scrubNext + 1 = rsvBytes / 64 then 0 else c.rsv.scrubNext + 1) ∧
      ∀ n, n < 8 → (t.core i.val).rsv.mem.check (8 * c.rsv.scrubNext + n) ≠ .ce) ∧
  (∀ (i : CoreId) (ch bank : Fin 16) (row : Fin 320) (s : State), let c := s.core i.val
    let key := 256 * row.val + 16 * ch.val + bank.val
    s.alive (clusterOfCore i.val) = true → c.rowFails (s.fld fRstRepairCtrlRsvCeLimit) key = true → c.lineWaits ch.val = false →
    c.sparesUsed ch.val bank.val < 24 → ∃ t, exec (.reservoirRowSpare i ch bank row) s = .next t ∧
      (t.core i.val).rsv.spared.look key 0 = c.sparesUsed ch.val bank.val + 1 ∧ (t.core i.val).rsv.rowCe.look key 0 = 0 ∧
      (t.core i.val).rsv.rowUe.look key false = false ∧ (t.core i.val).rsv.mem.bytes = c.rsv.mem.bytes ∧
      (t.core i.val).fld fRsvRowSparedCount = (c.fld fRsvRowSparedCount + 1) % 2 ^ fRsvRowSparedCount.width)

/-- A ch.send that holds its credits, and before which no send of the core is still leaving, takes them, reads its payload through port 10 and sends its
message: on the mesh, on VC 0 or 1 by its ductus or along its multicast tree, a copy to each selected member, or over the fabric along its binding;
along a binding that is not set it is abandoned, as it is, and a cp.rput, when the wait limit has passed without credits (R193, R194, R199, R208).
ch.credit returns output credits to a combining queue, or units from a receiving half of the mesh, none to a core outside the region (R196, R202,
R247); ch.count and ch.flags start as they come; and each completes and counts, writing its destination (R58, R195). -/
def Obligations.ChannelSends : Prop :=
  (∀ (i : CoreId) (s : State) (o : EngOp) (q : List EngOp), let c := s.core i.val
    let e := s.env i.val
    let ep := chEp o.w
    let n := sendWords o.w
    let off := fieldOf o.sb 0 19
    let ws := ((Core.chRun o c).wellRead e ⟨10, 4, o.pc⟩ false ((List.range n).map (o.aa + ·))).1
    c.ch.queue = o :: q → e.alive = true → s.sending e = false →
    (opOf o.w = 0xD0 → s.unbound e o = false → c.creditsFor ep n o.sa = true →
      ∃ t, exec (.channelStart i) s = .next t ∧ (t.core i.val).ch.queue = q ∧ (t.core i.val).ch.running = c.ch.running ++ [o] ∧
        (c.duct ep fChDuctusAKind ≠ 2 → (t.core i.val).tx ep fChTxCredits = c.tx ep fChTxCredits - c.sendNeed ep n) ∧
        (c.duct ep fChDuctusAKind = 0 ∨ c.duct ep fChDuctusAKind = 1 → ∃ p, t.mesh = s.mesh ++ [p] ∧ p.region = e.region ∧ p.gen = e.gen ∧
          p.body = .message (c.duct ep fChDuctusADestEp) ep (c.tx ep fChTxSeq) (c.tx ep fChTxPosition) off ws ∧
          (c.duct ep fChDuctusAKind = 0 → p.vc = if c.duct ep fChDuctusAOrder = 0 then 0 else 1) ∧
          (c.duct ep fChDuctusAKind = 1 → p.vc = 0 ∧ p.group = some (c.duct ep fChDuctusAGroup))) ∧
        (c.duct ep fChDuctusAKind = 2 → ∃ ps, t.mesh = s.mesh ++ ps ∧ ps.length = (c.selected ep o.sa).length ∧
          ∀ p ∈ ps, p.region = e.region ∧ p.gen = e.gen) ∧
        (c.duct ep fChDuctusAKind = 3 → ∀ b, s.bindingOf e c ep = some b → ∃ x, t.fabWait = s.fabWait ++ [x] ∧ x.pkt.dstDev = b.dev ∧
          x.pkt.dstRegion = b.region ∧ x.pkt.gen = b.gen ∧ x.pkt.cls = b.cls ∧
          x.pkt.body = .channel (.message b.ep ep (c.tx ep fChTxSeq) (c.tx ep fChTxPosition) off ws))) ∧
    (opOf o.w = 0xD0 → s.unbound e o = true → ∃ t, exec (.channelStart i) s = .next t ∧
      (t.core i.val).ch.queue = q ∧ (t.core i.val).ctl.breach = true ∧ t.mesh = s.mesh ∧ (t.core i.val).ctl.cc = ccAfter o.w c.ctl) ∧
    (opOf o.w = 0xD1 → ∃ t, exec (.channelStart i) s = .next t ∧ (t.core i.val).ch.queue = q ∧ (t.core i.val).ch.running = c.ch.running ++ [o] ∧
      (c.land ep fChLandATarget = 5 → let f := fldAt fChCqBOutCredits (16 * c.land ep fChLandAQueue)
        (t.core i.val).fld f = min 2 (c.fld f + fieldOf o.w 6 16) ∧ t.mesh = s.mesh) ∧
      (c.land ep fChLandATarget ≠ 5 → c.land ep fChLandBRetMode = 0 → c.ch.retTo.look ep none = none →
        if e.inside (c.land ep fChLandBRetX) (c.land ep fChLandBRetY) then
          ∃ p, t.mesh = s.mesh ++ [p] ∧ p.vc = 2 ∧ p.body = .credit (c.land ep fChLandBRetEp) ep (fieldOf o.w 6 16)
        else t.mesh = s.mesh)) ∧
    (opOf o.w = 0xD2 ∨ opOf o.w = 0xD3 → exec (.channelStart i) s = .next (s.setCore i.val (Core.chRun o c)))) ∧
  (∀ (i : CoreId) (s : State) (o : EngOp) (q : List EngOp), let c := s.core i.val
    c.ch.queue = o :: q → c.ctl.waitLimit ≠ 0 → s.sendWaits (s.env i.val) = true → ∃ t, exec (.sendCreditAbandon i none) s = .next t ∧
      (t.core i.val).ch.queue = q ∧ (t.core i.val).ctl.breach = true ∧ t.mesh = s.mesh ∧ (t.core i.val).ctl.cc = ccAfter o.w c.ctl) ∧
  (∀ (i : CoreId) (k : Nat) (r : CpRun) (s : State), let c := s.core i.val
    c.cp.running[k]? = some r → (s.env i.val).alive = true → c.ctl.waitLimit ≠ 0 → c.putWaits r = true → ∃ t, exec (.sendCreditAbandon i (some k)) s = .next t ∧
      (t.core i.val).cp.running = c.cp.running.eraseIdx k ∧ (t.core i.val).ctl.breach = true ∧ t.mesh = s.mesh ∧
      (t.core i.val).ctl.cc = ccAfter r.op.w c.ctl) ∧
  (∀ (i : CoreId) (idx : Nat) (s : State) (o : EngOp), let c := s.core i.val
    let c' (t : State) := t.core i.val
    c.ch.running[idx]? = some o → (s.env i.val).alive = true → (opOf o.w = 0xD0 → s.leaving (s.env i.val) (chEp o.w) = false) →
    ∃ t, exec (.channelCompletion i idx) s = .next t ∧ (c' t).ch.running = c.ch.running.eraseIdx idx ∧ (c' t).ctl.cc = ccAfter o.w c.ctl ∧
      (opOf o.w = 0xD2 → eSa o.w ≠ 0 → (c' t).ctl.busy (eSa o.w) = false ∧ (c' t).ctl.s (eSa o.w) =
        BitVec.ofNat 64 (if fieldOf o.w 6 2 = 0 then c.fld (fldAt fChRxLanded (8 * chEp o.w)) else c.tx (chEp o.w) fChTxCredits)) ∧
      (opOf o.w = 0xD3 → eSa o.w ≠ 0 → (c' t).ctl.s (eSa o.w) = c.cqFlags.setWidth 64 ∧ (c' t).cqFlags = clearFlags c.cqFlags (fieldOf o.w 0 6)))

/-- Credit returns, batch tokens and combining grants that reach a core whose well is not being wiped leave the mesh and add to their sending half: units
to its credits, or for a selective half to the first member entry that names the returning half, and a grant its batch, never past the initial ones,
and a token to the counter of its batch (R196, R197, R199, R202). Stale ones are counted and do nothing else (R211). The first four are stated of a
core at which no cp.rput runs, which could take the credits at once. The cap on tokens and grants is the model's reading (log entry 25). -/
def Obligations.CreditsArrive : Prop :=
  (∀ (idx i ep srcEp n : Nat) (p : Packet) (s : State), Fresh s idx p i → p.body = .credit ep srcEp n → (s.core i).well.wiping = false → ep < 64 →
    (∀ r ∈ (s.core i).cp.running, opOf r.op.w ≠ 0xC5) → ∃ t, exec (.creditReturnArrival idx) s = .next t ∧ t.mesh = s.mesh.eraseIdx idx ∧
      let c := s.core i
      (c.duct ep fChDuctusAKind ≠ 2 → (t.core i).tx ep fChTxCredits = min (c.tx ep fChTxCredits + n) (c.duct ep fChDuctusACredits)) ∧
      (c.duct ep fChDuctusAKind = 2 → ∀ m, ((List.range (c.duct ep fChDuctusBMembers + 1)).map (c.duct ep fChDuctusBFirstMember + ·)).find?
          (fun m => decide (c.member m fChMemberX = p.sx) && decide (c.member m fChMemberY = p.sy) && decide (c.member m fChMemberEp = srcEp)) = some m →
        (t.core i).member m fChMemberCredits = min (c.member m fChMemberCredits + n) (c.duct ep fChDuctusACredits))) ∧
  (∀ (idx i ep b : Nat) (p : Packet) (s : State), Fresh s idx p i → p.body = .token ep b → (s.core i).well.wiping = false →
    (s.core i).duct ep fChDuctusBGroupSize = 0 → (∀ r ∈ (s.core i).cp.running, opOf r.op.w ≠ 0xC5) →
    ∃ t, exec (.batchTokenArrival idx) s = .next t ∧ t.mesh = s.mesh.eraseIdx idx ∧
      let x := (s.core i).ch.tokens.look ep tokensReset
      (t.core i).ch.tokens.look ep tokensReset = { x with counters := x.counters.set (b % 8) (x.counters.getD (b % 8) 0 + 1) }) ∧
  (∀ (idx i ep b : Nat) (p : Packet) (s : State), Fresh s idx p i → p.body = .token ep b → (s.core i).well.wiping = false → ep < 64 →
    (∀ r ∈ (s.core i).cp.running, opOf r.op.w ≠ 0xC5) →
    let x := (s.core i).ch.tokens.look ep tokensReset
    let size := (s.core i).duct ep fChDuctusBGroupSize
    x.counters.length = 8 → x.next % 8 = b % 8 → 1 < size → x.counters.getD (b % 8) 0 + 1 = size → x.counters.getD ((b + 1) % 8) 0 < size →
    ∃ t, exec (.batchTokenArrival idx) s = .next t ∧ t.mesh = s.mesh.eraseIdx idx ∧
      (t.core i).ch.tokens.look ep tokensReset = { x with counters := x.counters.set (b % 8) 0, next := x.next + 1 } ∧
      (t.core i).tx ep fChTxCredits =
        min ((s.core i).tx ep fChTxCredits + (s.core i).duct ep fChDuctusBBatch) ((s.core i).duct ep fChDuctusACredits)) ∧
  (∀ (idx i ep : Nat) (p : Packet) (s : State), Fresh s idx p i → p.body = .grant ep → (s.core i).well.wiping = false → ep < 64 →
    (∀ r ∈ (s.core i).cp.running, opOf r.op.w ≠ 0xC5) → ∃ t, exec (.combiningGrantArrival idx) s = .next t ∧ t.mesh = s.mesh.eraseIdx idx ∧
      (t.core i).tx ep fChTxCredits =
        min ((s.core i).tx ep fChTxCredits + (s.core i).duct ep fChDuctusBBatch) ((s.core i).duct ep fChDuctusACredits)) ∧
  (∀ (idx i : Nat) (p : Packet) (c : Instr) (s : State), s.arrived idx = some (p, i) → s.aged p = false → (s.env i).stale p = true →
    (c = .creditReturnArrival idx ∧ (∃ ep srcEp n, p.body = .credit ep srcEp n)) ∨ (c = .batchTokenArrival idx ∧ (∃ ep b, p.body = .token ep b)) ∨
      (c = .combiningGrantArrival idx ∧ ∃ ep, p.body = .grant ep) →
    exec c s = .next ({ s with mesh := s.mesh.eraseIdx idx }.stale i))

/-- A message of the core's region and generation that arrives at an enabled well target within its size lands there word by word, counted (R186, R190,
R210); at a disabled endpoint it is dropped and its core told (R212). In both cases it leaves the mesh. A branch of a multicast tree forwards the
whole message on one output when its buffer has room (R198, R248). -/
def Obligations.MessagesArrive : Prop :=
  (∀ (idx i ep srcEp seq pos off : Nat) (ws : List (Word × Bool)) (p : Packet) (s : State), Fresh s idx p i →
    p.body = .message ep srcEp seq pos off ws → (s.core i).well.wiping = false → ep < 64 →
    ((s.core i).land ep fChLandAEnable = 0 → ∃ t ps, exec (.messageArrival idx) s = .next t ∧ t.mesh = s.mesh.eraseIdx idx ++ ps ∧
      (t.core i).inbound = (s.core i).inbound ++ [⟨4, 1, dropInfo p ep srcEp seq, (s.env i).gen⟩] ∧ (t.core i).well = (s.core i).well) ∧
    ((s.core i).land ep fChLandAEnable ≠ 0 → (s.core i).land ep fChLandATarget = 0 → off + ws.length ≤ (s.core i).land ep fChLandASize →
      (s.core i).land ep fChLandABase + off + ws.length ≤ 2 ^ 19 → ∃ t ps, exec (.messageArrival idx) s = .next t ∧ t.mesh = s.mesh.eraseIdx idx ++ ps ∧
      (t.core i).fld fChLandedCount = ((s.core i).fld fChLandedCount + 1) % 2 ^ fChLandedCount.width ∧
      (∀ n v, ws[n]? = some v → ∀ m, m < 8 → (t.core i).well.mem.byte (8 * ((s.core i).land ep fChLandABase + off + n) + m) = byteOf v.1 m) ∧
      (∀ b, b < 8 * ((s.core i).land ep fChLandABase + off) ∨ 8 * ((s.core i).land ep fChLandABase + off + ws.length) ≤ b →
        (t.core i).well.mem.byte b = (s.core i).well.mem.byte b))) ∧
  (∀ (idx g : Nat) (dir : Fin 5) (p : Packet) (s : State), s.dev = .up → s.mesh[idx]? = some p → p.group = some g → p.atEnd = true → dir.val ∈ p.outs →
    s.branchHolds p.stop (if dir.val = 4 then none else some (stepDir p.stop dir.val)) + p.flits.length ≤ 36 →
    ∃ t q, exec (.multicastBranchAdmit idx dir) s = .next t ∧ q.body = p.body ∧ q.flits = p.flits.map (fun _ => 1) ∧ q.path.head? = some p.stop ∧
      t.mesh = (if p.outs.filter (fun d => d != dir.val) = [] then s.mesh.eraseIdx idx
        else s.mesh.set idx { p with outs := p.outs.filter (fun d => d != dir.val) }) ++ [q])

/-- A full combining queue that writes its output and holds an output credit ends its round: the credit is taken, its slots are cleared, the round
advances and the grant leaves through the return group. One that forwards sends its records on the forwarding endpoint when that has the credits, here
up to 256 records on a plain ductus, and ends its round in the same way, but for the output credit, once every record has left (R202, R204). Remote
reads at a core whose well is not being wiped (R206, R207): a read request to a disabled endpoint is dropped and its core told; one of a word inside
its window enters the empty read queue and leaves the mesh; a unit at the head of the queue is served and leaves it, a reply going out on VC 2 for
each requester of the device; a reply to a cp.rget is written to the requester's well and its words are no longer awaited. -/
def Obligations.CombiningAndRemoteReads : Prop :=
  (∀ (i : CoreId) (queue : Fin 16) (s : State), let c := s.core i.val
    let e := s.env i.val
    let q := queue.val
    let fwd := c.fld (fldAt fChCqAFwdEp (16 * q))
    let ends (t : State) : Prop := (∃ p, t.mesh = s.mesh ++ [p] ∧ p.body = .grant (c.fld (fldAt fChCqBRetEp (16 * q))) ∧
        p.group = some (c.fld (fldAt fChCqAGroup (16 * q)))) ∧
      (t.core i.val).fld (fldAt fChCqBRound (16 * q)) = (c.fld (fldAt fChCqBRound (16 * q)) + 1) % 2 ^ fChCqBRound.width ∧
      ∀ k, (c.cqSlots q).1 ≤ k → k < (c.cqSlots q).1 + (c.cqSlots q).2 →
        (t.core i.val).cqTerms k = 0 ∧ (t.core i.val).ch.store.look k lsZero = lsZero
    e.alive = true → c.cqFull q = true →
    (c.fld (fldAt fChCqAOutMode (16 * q)) = 0 → c.fld (fldAt fChCqBOutCredits (16 * q)) ≠ 0 →
      ∃ t, exec (.combiningRoundClose i queue) s = .next t ∧ ends t ∧
        (t.core i.val).fld (fldAt fChCqBOutCredits (16 * q)) = c.fld (fldAt fChCqBOutCredits (16 * q)) - 1) ∧
    (c.fld (fldAt fChCqAOutMode (16 * q)) ≠ 0 → c.ch.closing.look q 0 = (c.cqSlots q).2 → s.leaving e fwd = false →
      ∃ t, exec (.combiningRoundClose i queue) s = .next t ∧ ends t) ∧
    (c.fld (fldAt fChCqAOutMode (16 * q)) ≠ 0 → c.ch.closing.look q 0 = 0 → (c.cqSlots q).2 ≤ 256 → c.duct fwd fChDuctusAKind = 0 →
      c.creditsFor fwd (2 * (c.cqSlots q).2) 0 = true → ∃ t p, exec (.combiningRoundClose i queue) s = .next t ∧ t.mesh = s.mesh ++ [p] ∧
        p.body = .message (c.duct fwd fChDuctusADestEp) fwd (c.tx fwd fChTxSeq) (c.tx fwd fChTxPosition) 0
          ((List.range (c.cqSlots q).2).flatMap (fun k => c.cqRecord q k)) ∧
        (t.core i.val).ch.closing.look q 0 = (c.cqSlots q).2 ∧ (t.core i.val).ch.store = c.ch.store)) ∧
  ((∀ (idx i ep srcEp slot gen : Nat) (ws : List (Nat × Nat)) (p : Packet) (s : State), Fresh s idx p i → p.body = .readReq ep srcEp slot gen ws →
    (s.core i).well.wiping = false →
    ((s.core i).land ep fChLandAEnable = 0 → ∃ t, exec (.readRequestArrival idx) s = .next t ∧ t.mesh = s.mesh.eraseIdx idx ∧
      ∃ m, (t.core i).inbound = (s.core i).inbound ++ [m] ∧ m.cls = 4 ∧ m.code = 1) ∧
    (∀ w tag, ws = [(w, tag)] → (s.core i).land ep fChLandAEnable = 1 → (s.core i).land ep fChLandATarget = 6 → w < (s.core i).land ep fChLandASize →
      (s.core i).ch.readQ = [] → ∃ t r, exec (.readRequestArrival idx) s = .next t ∧ t.mesh = s.mesh.eraseIdx idx ∧
      (t.core i).ch.readQ = [⟨((s.core i).land ep fChLandABase + w) / 16, [r]⟩] ∧ r.words = [((s.core i).land ep fChLandABase + w, tag)] ∧ r.slot = slot)) ∧
  (∀ (i : CoreId) (s : State) (u : ReadUnit) (q : List ReadUnit), (s.env i.val).alive = true → (s.core i.val).ch.readQ = u :: q →
    (∀ r ∈ u.reqs, r.dev = none) → ∃ t ps, exec (.readUnitService i) s = .next t ∧ 
      ((t.core i.val).ch.readQ = q ∨ (t.core i.val).ch.readQ = markRaised u.reqs q) ∧
      (t.mesh = s.mesh ++ ps ∨ t.mesh = s.mesh.map (Packet.markRaised u.reqs) ++ ps) ∧
      ps.length = u.reqs.length ∧ ∀ p ∈ ps, p.vc = 2) ∧
  (∀ (idx i slot k : Nat) (ws : List (Nat × Word × Bool)) (r : CpRun) (p : Packet) (s : State), Fresh s idx p i → p.body = .readReply slot ws →
    (s.core i).well.wiping = false → (s.core i).cp.running.findIdx? (fun r => r.slot = slot && opOf r.op.w = 0xC6) = some k →
    (s.core i).cp.running[k]? = some r → ∃ t, exec (.readReplyArrival idx) s = .next t ∧ t.mesh = s.mesh.eraseIdx idx ∧
      (t.core i).cp.running = (s.core i).cp.running.set k { r with awaiting := r.awaiting - ws.length } ∧
      (t.core i).well.mem = ((s.core i).wellWrites (s.env i) ⟨11, 4, r.op.pc⟩
        (beatWrites (ws.flatMap (fun x => Core.getBytes r.op (s.core i) x.1 x.2.1 x.2.2)))).well.mem))

/-! ## Networks, regions and clients -/

/-- A flit that can move (R243, R356, R427) leaves by its output, into the next router of its path or at its end to the sink, when its link is up, and for
a header selected, when there is room ahead and its output grants the link to it (R244, R245, R248, R249, R250). With its way cut, by a link that is
down or a header's by one that does not reach the next router, the packet's flits are discarded and counted (R244, R253). A flit that cannot move, or
finds no room or grant, stays. A write of CORE_MESH_CFG, when it has crossed the hairline, changes the selection, and waits or is lost on its way as
any other (R244, R254, R258). -/
def Obligations.MeshHops : Prop :=
  (∀ (i : CoreId) (v : Word) (s : State), let n := clusterOfCore i.val
    s.dev = .up → (s.hubWaits (scribeHub n) n = true → exec (.coreMeshCfgWrite i v) s = .next s) ∧
    (s.hubWaits (scribeHub n) n = false → ∃ t, exec (.coreMeshCfgWrite i v) s = .next t ∧ t.mesh = s.mesh ∧ (∀ j, j ≠ i.val → t.core j = s.core j) ∧
      (t.core i.val).reg fCoreMeshCfgXpSel.off =
        if (s.send (scribeHub n) n).1 then BitVec.ofNat 64 (v.toNat % 2 ^ 9) else (s.core i.val).reg fCoreMeshCfgXpSel.off)) ∧
  (∀ (idx n f : Nat) (o : (Nat × Nat) × Nat) (ce ue : List Nat) (p : Packet) (s : State), s.dev = .up → s.mesh[idx]? = some p → p.flits[n]? = some f →
    s.outOf p f = some o →
    (s.hopMoves n p f = false → exec (.meshFlitHop idx n ce ue) s = .next s) ∧
    (s.hopMoves n p f = true → s.hopCut n p f = false →
      (s.hopRoom idx n p f = false ∨ s.mayHop n p f = false → exec (.meshFlitHop idx n ce ue) s = .next s) ∧
      (s.hopRoom idx n p f = true → s.mayHop n p f = true →
        (f + 1 = p.last → n + 1 = p.flits.length → p.group = none ∧ (∀ k g, p.body ≠ .gate k g) ∧ ∀ a b c d e, p.body ≠ .back a b c d e) →
        ∃ t q, exec (.meshFlitHop idx n ce ue) s = .next t ∧ t.mesh = s.mesh.set idx q ∧
          q.flits = p.flits.set n (f + 1) ∧ q.path = p.path ∧ q.vc = p.vc ∧ q.region = p.region ∧ q.gen = p.gen ∧
          (p.path[f]? = none ∨ ue = [] → q.body = p.body))) ∧
    (∀ a, p.here f = some a → s.hopMoves n p f = true → s.hopCut n p f = true → ∃ t, exec (.meshFlitHop idx n ce ue) s = .next t ∧
      t.mesh = s.mesh.eraseIdx idx ∧ (t.core (s.physical a.1 a.2)).fld fCoreMeshMisrouteCount =
        ((s.core (s.physical a.1 a.2)).fld fCoreMeshMisrouteCount + (p.flits.filter (fun g => decide (g ≤ f))).length) %
          2 ^ fCoreMeshMisrouteCount.width))

/-- A replay that fails counts, and the sixteenth in a row marks the link down, discards what waits for it on the mesh and is reported, where a way to the
Scribe Complex is left and no crossing on it withholds credits (R251, R253, R258, R356); one that clears ends the row (R251). At each whole
microsecond the time base floods a beacon, of which each hub keeps the first copy that reaches it, its cluster's counter then following the time base
(R256, R360). -/
def Obligations.LinkReplaysAndBeacons : Prop :=
  (∀ (i : CoreId) (d : Fin 4) (x : Nat) (s : State), let a := (x, pyOf i.val)
    let b := stepDir a d.val
    let n := (s.core i.val).replays.look d.val 0 + 1
    let c := clusterOfCore i.val
    s.logicalX i.val = some x → s.alive c = true → s.linkDown a b = false → s.reaches a b = true →
    (∃ t, exec (.meshLinkReplay i d false) s = .next t ∧
      (n ≠ 16 → (t.core i.val).replays.look d.val 0 = n ∧
        (t.core i.val).fld fCoreMeshRetryCount = ((s.core i.val).fld fCoreMeshRetryCount + 1) % 2 ^ fCoreMeshRetryCount.width) ∧
      (n = 16 → (s.hubWaits c (scribeHub c) = false → (s.send c (scribeHub c)).1 = true → Note.meshLink i.val (s.physical b.1 b.2) ∈ t.notes) ∧ ∀ p ∈ t.mesh, p.waitsFor a b = false)) ∧
    (clusterOfCore (s.physical b.1 b.2) = c → exec (.meshLinkReplay i d true) s =
      .next (s.mapCore i.val (fun k => { k.bump fCoreMeshRetryCount 1 with replays := k.replays.put d.val 0 0 })))) ∧
  (∀ (c : ClusterId) (d : Fin 4) (s : State), let k := s.cluster c.val
    let n := k.replays.look d.val 0 + 1
    let u := (s.mapCluster c.val (fun k => (k.setFld fLigHlStatusDetour 1).setFld fLigHlStatusLinkDown (k.fld fLigHlStatusLinkDown ||| 2 ^ d.val))).mapCluster
      (hubStep c.val d.val) (fun k => k.setFld fLigHlStatusDetour 1)
    s.alive c.val = true → hubHas c.val d.val = true → (k.fld fLigHlStatusLinkDown).testBit d.val = false →
    ∃ t, exec (.hairlineReplay c d false) s = .next t ∧
      (n ≠ 16 → (t.cluster c.val).replays.look d.val 0 = n ∧
        (t.cluster c.val).fld fLigHlRetryCount = (k.fld fLigHlRetryCount + 1) % 2 ^ fLigHlRetryCount.width) ∧
      (n = 16 → (u.hubWaits c.val (scribeHub c.val) = false → (u.send c.val (scribeHub c.val)).1 = true → Note.hubLink c.val d.val ∈ t.notes) ∧ (t.cluster c.val).fld fLigHlStatusDetour = 1)) ∧
  (∀ s : State, s.dev = .up → s.time % 1000 = 0 → exec .timeBeacon s = .next { s with beacon := ⟨s.beacon.seq + 1, s.time, s.timeSteps⟩ }) ∧
  (∀ (c : ClusterId) (s : State), s.alive c.val = true → s.beacon.seq ≠ 0 → (s.cluster c.val).floodSeq ≠ s.beacon.seq + 1 → s.beaconAt c.val = true →
    ∃ t, exec (.beaconArrival c) s = .next t ∧ (t.cluster c.val).floodSeq = s.beacon.seq + 1 ∧
      (t.cluster c.val).interp = (if s.beacon.steps = s.timeSteps then 0 else (s.cluster c.val).interp) ∧
      (t.cluster c.val).fld fLigHlBeaconsCount = ((s.cluster c.val).fld fLigHlBeaconsCount + 1) % 2 ^ fLigHlBeaconsCount.width)

/-- Creating a region (R262): a free region whose rectangle lies on clusters that are free and in service, within the licence's limit, comes to wiping
with its generation advanced and its cores' memories wiped (R263, R274); any other create sets cmd_err, and one past the limit names it (R5). A create
that does not come to be executed changes nothing (R395), and one that reads a register whose copies have no majority has no effect but what that does
(R435). Where the registers that it reads agree in their copies, releasing a ready region with an image, its clusters and its mirrors' in service,
starts its logical cores at their image's entry (R73, R268, R274); deleting a ready region without clients frees it, its cores' memories left wiped
(R260, R408); resetting one with its job wipes it when ready and stops it when running (R261, R264, R271). A release of a region that is not ready, a
delete of one that is not ready or has clients, and a reset of a free one set cmd_err (R262). That the command names its region by an operand is the
model's choice (log entry 33). -/
def Obligations.RegionCommands : Prop :=
  (∀ (r : Fin 64) (req : Bool) (s : State), (s.rgnCommand req = false → exec (.regionCreate r req []) s = .next s) ∧
  (s.rgnCommand req = true → (s.voteWhere (s.readsOf r.val true)).1 = false → exec (.regionCreate r req []) s = .next (s.voteWhere (s.readsOf r.val true)).2) ∧
  (s.rgnCommand req = true → Agrees (s.readsOf r.val true) s →
    (s.rgn r.val fRgnStatusState = 0 → s.rectOk r.val = true → s.regionsOn.length < s.regionLimit →
      ∃ u : State, exec (.regionCreate r req []) s = .next (u.rgnDone req) ∧ u.rgn r.val fRgnStatusState = 5 ∧ u.rgn r.val fRgnCfgEnable = 1 ∧
        u.rgn r.val fRgnStatusGeneration = (s.rgn r.val fRgnStatusGeneration + 1) % 2 ^ fRgnStatusGeneration.width ∧
        ∀ i ∈ s.rectCores r.val, (u.core i).well.mem = Mem.wiped ∧ (u.core i).rsv.mem = Mem.wiped ∧ (u.core i).ctl.running = false) ∧
    (s.rgn r.val fRgnStatusState = 0 → s.rectOk r.val = true → s.regionLimit ≤ s.regionsOn.length →
      let u := s.setRgn r.val fRgnStatusCmdErr 1
      exec (.regionCreate r req []) s = .next (if req then u.answer 0x22 0x10 (detailWord s.regionLimit) else u)) ∧
    (s.rgn r.val fRgnStatusState ≠ 0 ∨ s.rectOk r.val = false → exec (.regionCreate r req []) s = .next (s.rgnError r.val req)))) ∧
  (∀ (r : Fin 64) (req : Bool) (s : State), s.rgnCommand req = true → Agrees (s.readsOf r.val true) s → Agrees (s.readsOf r.val false) s →
    (s.rgn r.val fRgnStatusState = 1 → (s.rgnSt r.val).image = true → (s.rectClusters r.val).any s.outOfService = false →
      (s.mirrorClusters r.val).any s.outOfService = false →
      ∃ u : State, exec (.regionRelease r req) s = .next (u.rgnDone req) ∧ u.rgn r.val fRgnStatusState = 2 ∧ (u.rgnSt r.val).locked = true ∧
        ∀ i ∈ s.rectCores r.val, (u.core i).ctl.running = (s.logicalX i).isSome ∧ (u.core i).ctl.pc = (s.core i).entry ∧
          (u.core i).ctl.loops = [] ∧ (u.core i).ctl.evq = []) ∧
    (s.rgn r.val fRgnStatusState ≠ 1 → exec (.regionRelease r req) s = .next (s.rgnError r.val req)) ∧
    (s.rgn r.val fRgnStatusState = 1 → s.clientsOf r.val = [] →
      ∃ u : State, exec (.regionDelete r req) s = .next (u.rgnDone req) ∧ u.rgn r.val fRgnStatusState = 0 ∧ u.rgn r.val fRgnCfgEnable = 0 ∧
        ∀ i ∈ s.rectCores r.val, (u.core i).well.mem = Mem.wiped ∧ (u.core i).rsv.mem = Mem.wiped) ∧
    (s.rgn r.val fRgnStatusState ≠ 1 ∨ s.clientsOf r.val ≠ [] → exec (.regionDelete r req) s = .next (s.rgnError r.val req)) ∧
    (s.rgn r.val fRgnCfgEnable = 1 → s.rgn r.val fRgnStatusState = 1 ∨ s.rgn r.val fRgnStatusState = 2 →
      ∃ u : State, exec (.regionReset r req) s = .next (u.rgnDone req) ∧
        u.rgn r.val fRgnStatusState = (if s.rgn r.val fRgnStatusState = 1 then 5 else 3)) ∧
    (s.rgn r.val fRgnStatusState = 0 → exec (.regionReset r req) s = .next (s.rgnError r.val req)))

/-- A region on its way to the next generation (R263, R271 to R274): idle while stopping it wipes, its generation advanced; still stopping at the idle
timeout it is forced, its generation advanced, its cores stopped and its packets of the mesh discarded; a force done, or held up until the cluster
that held it up is isolated (R394), it wipes; a force that overruns fails the cluster that holds it up; and wiped, with 64 microseconds past since the
advance, it is ready. -/
def Obligations.RegionStops : Prop :=
  ∀ (r : Fin 64) (s : State), s.dev = .up → let gen := (s.rgn r.val fRgnStatusGeneration + 1) % 2 ^ fRgnStatusGeneration.width
    (s.rgn r.val fRgnStatusState = 3 → s.regionIdle r.val = true → ∃ t, exec (.regionIdle r) s = .next t ∧ t.rgn r.val fRgnStatusState = 5 ∧
      t.rgn r.val fRgnStatusGeneration = gen) ∧
    (s.rgn r.val fRgnStatusState = 3 → (s.rgnSt r.val).since + 1000 * 2 ^ s.rgn r.val fRgnTimingIdleTimeout ≤ s.mono →
      ∃ t, exec (.idleTimeout r) s = .next t ∧ t.rgn r.val fRgnStatusState = 4 ∧ t.rgn r.val fRgnStatusForced = 1 ∧
        t.rgn r.val fRgnStatusGeneration = gen ∧ (∀ i ∈ s.rectCores r.val, (t.core i).ctl.stopped = true ∧ (t.core i).ctl.running = false) ∧
        ∀ p ∈ t.mesh, p.region ≠ r.val) ∧
    (s.rgn r.val fRgnStatusState = 4 → (s.rgnSt r.val).overrun = false ∨ (s.rgnSt r.val).since + 1044000 ≤ s.mono → ∃ t, exec (.forceComplete r) s = .next t ∧
      t.rgn r.val fRgnStatusState = 5 ∧ t.rgn r.val fRgnStatusGeneration = s.rgn r.val fRgnStatusGeneration) ∧
    (∀ c : ClusterId, s.rgn r.val fRgnStatusState = 4 → (s.rgnSt r.val).overrun = false → (s.rgnSt r.val).since + 20000 ≤ s.mono →
      s.holds r.val c.val = true → ∃ t, exec (.forceOverrun r c) s = .next t ∧ (t.rgnSt r.val).overrun = true ∧
      t.fld (fldAt fClkClStatusFailed (0x100 * c.val)) = 1 ∧ t.rgn r.val fRgnStatusState = 4) ∧
    (s.rgn r.val fRgnStatusState = 5 → (s.rgnSt r.val).genAt + 64000 ≤ s.mono → ∃ t, exec (.wipingDone r) s = .next t ∧
      t.rgn r.val fRgnStatusState = 1 ∧ ∀ i ∈ s.rectCores r.val, (t.core i).well.wiping = false ∧ (t.core i).rsv.wiping = false)

/-- The firmware's own admission of a client, in its region's turn and let in by R335, the registers that it reads agreeing in their copies (R435), fills
its entry, makes it valid and returns its ID (R265, R335, R477); where a reset takes the region out of ready and running on the way, the entry is
cleared and region-invalid returned (R335); out of turn it waits in its region's queue (R277). A client's removal withdraws its classification entries
and waits, and ends, the entry no longer valid, once its traffic has drained or after a millisecond (R266); a seed is written while the entry is not
valid (R266). What one turn of the Scribe Complex costs is the model's reading (log entry 113). -/
def Obligations.ClientEntries : Prop :=
  (∀ (p : List Byte) (mid : Bool) (f : Scribe → Scribe) (s : State), let k := s.admitEntry (fieldOf (payWord p 0) 0 16)
    let r := fieldOf (payWord p 8) 1 6
    s.serving = true → Agrees (fun a => cliCfg a || decide (a = fRgnCfgEnable.off + 0x40 * admitRegion p)) s → s.enrolTurn (some p) = some f →
    s.admitRefused p = none →
    (mid = false → ∃ t, exec (.clientAdmit (some p) [] [] mid) s = .next t ∧ t.cli k fCliCfgValid = 1 ∧ t.cli k fCliCfgRegion = r ∧
      t.reg (fCliSeedSeed.off + 0x80 * k) = payWord p 16 ∧ t.removing.look k 0 = 0 ∧ t.scribe.own = some (0x24, 0, detailWord k)) ∧
    (mid = true → s.rgn r fRgnCfgEnable = 1 → ∃ t, exec (.clientAdmit (some p) [] [] mid) s = .next t ∧ t.cli k fCliCfgValid = 0 ∧
      t.scribe.own = some (0x24, 0x12, detailWord r))) ∧
  (∀ (p : List Byte) (mid : Bool) (s : State), s.serving = true → Agrees (fun a => cliCfg a || decide (a = fRgnCfgEnable.off + 0x40 * admitRegion p)) s →
    s.enrolTurn (some p) = none → exec (.clientAdmit (some p) [] [] mid) s = .next (s.scrQueue ⟨admitRegion p, s.mono, .enrolOwn p []⟩)) ∧
  (∀ (p : List Byte) (s : State), let k := fieldOf (payWord p 0) 0 16
    s.serving = true → s.lifecycle = 2 → k < 1024 → fieldOf (payWord p 0) 16 48 = 0 → p.length = 8 → s.cli k fCliCfgValid = 1 → s.removing.look k 0 = 0 →
    Agrees (fun a => decide (a = fCliCfgValid.off + 0x80 * k)) s →
    ∃ t, exec (.clientRemove (some p)) s = .next t ∧ t.removing.look k 0 = s.mono + 1 ∧
      ∀ x ∈ t.cls, ¬(x.2.f fPortClsStage0Action = 0 ∧ x.2.f fPortClsStage0Client = k)) ∧
  (∀ (k : Fin 1024) (s : State), s.dev = .up → s.removing.look k.val 0 ≠ 0 → s.clientDrained k.val = true ∨ s.removing.look k.val 0 - 1 + 1000000 ≤ s.mono →
    s.scribe.reqs = [] → ∃ t, exec (.clientRemoveComplete k) s = .next t ∧ t.cli k.val fCliCfgValid = 0 ∧ t.removing.look k.val 0 = 0) ∧
  (∀ (k : Fin 1024) (v : Word) (s : State), s.dev = .up →
    (s.cli k.val fCliCfgValid = 0 → ∃ t, exec (.cliSeedWrite k v) s = .next t ∧ t.reg (fCliSeedSeed.off + 0x80 * k.val) = v ∧
      ∀ a, a ≠ fCliSeedSeed.off + 0x80 * k.val → t.reg a = s.reg a) ∧
    (s.cli k.val fCliCfgValid ≠ 0 → exec (.cliSeedWrite k v) s = .next s))

/-- A port hands on the oldest waiting frame of the client it picks, which then waits no longer (R275, R303). One whose client is gone is dropped and
counted. For a running region's client, with the mesh's links there and its words unharmed, the port reads the producer and consumer words; a frame
that finds the ring full, or is too long for a slot, is dropped, CLI_ING_DROP and the producer word's upper half counting it; any other is written to
its slot, with its header and time, the producer word advances, CLI_ING_FRAMES counts it, and where the consumer had taken all before it the control
core gets the doorbell (R268, R269). A frame that has waited promote_age promotes its client for one delivery (R275). An egress ring that its port
serves is polled (R270): the port then knows the count at which it stops, the tail's or the ring's size past the done count. While that differs from
the done count and a link is up, one frame is taken: sent, padded and with its checksums and check sequence, and counted by the client and the port;
or passed over, and counted in CLI_EGR_DROP, where its length does not fit, a word of it is poisoned or its source address is not the link's. Either
way the done word advances and the tail is read again (R270, R305). An access that the mesh loses (R253) ends the poll or the frame. -/
def Obligations.PortClientTraffic : Prop :=
  ((∀ (port : Fin 16) (k : Nat) (d : Tbl Nat) (f : IngFrame) (s : State), s.dev = .up → s.pickClient port.val = some (k, d) →
    (s.port port.val).frameOf k = some f → s.deliveryWaits port.val k = false → ∃ t, exec (.ingressDelivery port) s = .next t ∧
      (t.port port.val).ingress = (s.port port.val).ingress.eraseP (fun f => f.client = k) ∧
      (f.injectUs = none → s.cli k fCliCfgValid = 0 →
        t.pfld port.val fPortEthNocliDropCount = (s.pfld port.val fPortEthNocliDropCount + 1) % 2 ^ fPortEthNocliDropCount.width ∧ t.cores = s.cores) ∧
      let r := s.cli k fCliCfgRegion
      let i := s.ingCore k
      let b := s.cli k fCliIngBase
      let g := f.way port.val
      let m := (s.core i).well.mem
      let m' := (t.core i).well.mem
      let n := fieldOf (m.word b) 0 32
      let seen := fieldOf (m.word (b + 1)) 0 32
      let size := s.cli k fCliIngSlotSize + 1
      let a := b + 64 + n % 2 ^ s.cli k fCliIngSlots * (64 * size)
      let ctl := s.regionCore r 0 0
      f.injectUs.any s.tooOld = false → s.cli k fCliCfgValid = 1 → r = f.region → s.rgn r fRgnStatusState = 2 → s.wordErrs = [] →
      (s.access (s.gateOf g i) (s.placeOf i) 1 1 1).1.ok = true → m.written (b / 64) = true → m.written ((b + 1) / 64) = true → (s.core i).well.wiping = false →
      if 2 ^ s.cli k fCliIngSlots ≤ (n + 2 ^ 32 - seen) % 2 ^ 32 ∨ 512 * size - 16 < f.bytes.length then
        t.cli k fCliIngDropCount = (s.cli k fCliIngDropCount + 1) % 2 ^ fCliIngDropCount.width ∧ t.cli k fCliIngFramesCount = s.cli k fCliIngFramesCount ∧
        m'.word b = putField (m.word b) 32 32 (fieldOf (m.word b) 32 32 + 1) ∧ (t.core ctl).inbound = (s.core ctl).inbound
      else
        t.cli k fCliIngFramesCount = (s.cli k fCliIngFramesCount + 1) % 2 ^ fCliIngFramesCount.width ∧ t.cli k fCliIngDropCount = s.cli k fCliIngDropCount ∧
        m'.word b = putField (m.word b) 0 32 ((n + 1) % 2 ^ 32) ∧ m'.word (b + 1) = m.word (b + 1) ∧
        m'.word a = BitVec.ofNat 64 (f.bytes.length % 2 ^ 16 + port.val * 2 ^ 16 + f.kind % 8 * 2 ^ 20 + n * 2 ^ 32) ∧
        m'.word (a + 1) = BitVec.ofNat 64 f.time ∧ (∀ j x, f.bytes[j]? = some x → m'.byte (8 * (a + 2) + j) = x) ∧
        (i = ctl ∨ (s.send (clusterOfCore i) (clusterOfCore ctl)).1 = true → (t.core ctl).inbound =
          if seen = n then (s.core ctl).inbound ++ [⟨1, 1, k + (n + 1) % 2 ^ 32 * 2 ^ 10, s.rgn r fRgnStatusGeneration⟩] else (s.core ctl).inbound)) ∧
  (∀ (port : Fin 16) (k : Fin 1024) (f : IngFrame) (s : State), s.dev = .up → (s.port port.val).frameOf k.val = some f →
    s.fld fRgnQosCtrlPromoteAge ≠ 0 →
    max f.since ((s.port port.val).ages.look k.val 0 - 1) + 1000 * s.fld fRgnQosCtrlPromoteAge ≤ s.mono → (s.port port.val).promoted.contains k.val = false →
    ∃ t, exec (.ingressPromotion port k) s = .next t ∧ (t.port port.val).promoted = (s.port port.val).promoted ++ [k.val] ∧
      (t.port port.val).ingress = (s.port port.val).ingress)) ∧
  (∀ (k : Fin 1024) (s : State), let q := s.cli k.val fCliCfgPort
    let x := (s.port q).egress.look k.val egrNew
    let i := s.egrCore k.val
    let b := s.cli k.val fCliEgrBase
    let m := (s.core i).well.mem
    let ok : Prop := (s.access (s.gateOf q i) (s.placeOf i) 1 1 1).1.ok = true
    s.egressOn k.val = true → s.ringWaits q i = false →
    (x.known = false ∨ x.polled + 100 * s.cli k.val fCliEgrPoll ≤ s.mono → ∃ t, exec (.egressPoll k) s = .next t ∧ t.mesh = s.mesh ∧
      ∀ w, (s.portRead q i b).1 = some w → (t.port q).egress.look k.val egrNew =
        ⟨stopAt (fieldOf w 0 32) (s.egressCounts k.val).2 (s.cli k.val fCliEgrSlots), s.mono, true⟩) ∧
    (∀ l : Nat, x.known = true → (s.egressCounts k.val).2 ≠ x.tail → s.egressLink k.val = some l → ∃ t, exec (.egressFrameSend k) s = .next t ∧
      (¬ok → t.cli k.val fCliEgrFramesCount = s.cli k.val fCliEgrFramesCount ∧ t.cli k.val fCliEgrDropCount = s.cli k.val fCliEgrDropCount) ∧
      (ok → s.wordErrs = [] → m.written ((b + 1) / 64) = true →
        let n := fieldOf (m.word (b + 1)) 0 32
        let size := 512 * (s.cli k.val fCliEgrSlotSize + 1)
        let r := s.readSlot i (b + 64 + n % 2 ^ s.cli k.val fCliEgrSlots * (size / 8)) size
        ((t.port q).egress.look k.val egrNew).polled = s.mono ∧ (t.core i).well.mem.word (b + 1) = BitVec.ofNat 64 ((n + 1) % 2 ^ 32) ∧
        if r.1 = false ∨ (s.pfld q fPortEthCtrlSrcCheck = 1 ∧ octets r.2.1 6 6 ≠ s.fld (fldAt fPortEthMacAddress (0x1000 * q + 8 * l))) then
          t.cli k.val fCliEgrDropCount = (s.cli k.val fCliEgrDropCount + 1) % 2 ^ fCliEgrDropCount.width ∧
          t.cli k.val fCliEgrFramesCount = s.cli k.val fCliEgrFramesCount ∧ (t.port q).sentFrame = (s.port q).sentFrame
        else
          t.cli k.val fCliEgrFramesCount = (s.cli k.val fCliEgrFramesCount + 1) % 2 ^ fCliEgrFramesCount.width ∧
          t.cli k.val fCliEgrDropCount = s.cli k.val fCliEgrDropCount ∧
          t.pfld q fPortEthTxFramesCount = (s.pfld q fPortEthTxFramesCount + 1) % 2 ^ fPortEthTxFramesCount.width ∧
          (t.port q).sentFrame = some (l, s.wireFrame q r.2.1))))

/-! ## Clocks, time and power -/

/-- A frequency change (R348, R350, R378): a write of CLK_FREQ_AT arms it with the target as it stands, late if its time is past, and in manual mode
begins or gives up a raise of the rails; a write of CLK_FREQ_TARGET in manual mode is clamped to 700 MHz and the ceiling; at its time, a tick or more
after the arming and no raise being on its way, the slew begins; at the target it ends. That external writes of CLK_FREQ_TARGET outside manual mode do
nothing, and that the target is the one at the arming, are the model's readings (log entries 62 and 123). -/
def Obligations.FrequencyChange : Prop :=
  ∀ s : State, s.dev = .up →
    (∀ v : Word, let f := s.fld fClkFreqTargetMhz
      ∃ t, exec (.clkFreqAtWrite v) s = .next t ∧
        t.clocks = { s.clocks with freqAt := some ⟨f, v.toNat, decide (v.toNat < s.time), s.mono⟩ } ∧ t.rim = s.rim ∧
        (s.fld fPwrStatusMode ≠ 2 → t.power = s.power) ∧
        (s.fld fPwrStatusMode = 2 → t.power.raise = (if s.freqNow < f then some (f, s.mono) else none))) ∧
    (∀ v : Word, (s.fld fPwrStatusMode ≠ 2 → exec (.clkFreqTargetWrite v) s = .next s) ∧
      (s.fld fPwrStatusMode = 2 → ∃ t, exec (.clkFreqTargetWrite v) s = .next t ∧
        t.fld fClkFreqTargetMhz = max 700 (min (s.fld fPwrStatusFCeilingMhz) (v.toNat % 2048)) ∧
        t.fld fClkStatusClamped = (if t.fld fClkFreqTargetMhz = v.toNat % 2048 then s.fld fClkStatusClamped else 1) ∧ t.clocks = s.clocks)) ∧
    (∀ a : FreqArm, s.clocks.freqAt = some a → a.time ≤ s.time → s.mono ≠ a.armedAt → s.power.raise = none →
      ∃ t, exec .frequencySlewStart s = .next t ∧ t.fld fClkStatusSlewing = 1 ∧ t.fld fClkStatusFreqMhz = s.freqNow % 2048 ∧
        t.fld fClkStatusLate = (if a.past then 1 else s.fld fClkStatusLate) ∧
        t.clocks = { s.clocks with freqAt := none, slew := some ⟨a.target, s.mono, s.fld fClkCtrlSlew⟩ }) ∧
    (∀ w : Slew, s.clocks.slew = some w → s.freqNow = w.target →
      ∃ t, exec .frequencySlewEnd s = .next t ∧ t.clocks.slew = none ∧ t.fld fClkStatusSlewing = 0 ∧ t.fld fClkStatusFreqMhz = w.target % 2048)

/-- A sweep measures its crossing's margin (R352); below margin_warn the setting moves with the replica centre, which is recorded anew (R353), and a
margin below margin_fail retrains at once, the crossing failing where the margin stays below 8 (R354). References (R355 to R357): a cluster that loses
its reference holds over, switching to its alternate parent where that may be used; relocked, it leaves holdover; after a millisecond without an
alternate it is reported failed. The loss of REFCLK asserts FAULT_N and is reported, the seed and the time holding over, and its return releases
FAULT_N, refclk_lost staying. -/
def Obligations.CrossingsAndReferences : Prop :=
  (∀ (c : ClusterId) (side : Fin 4) (a b : Fin 512) (s : State), let n := c.val
    let w : Int × Int := (a.val, b.val)
    let old := s.xf n side.val fClkXingSetting
    let m := marginOf old w
    let new := ((centreOf w + old - s.xf n side.val fClkXingRefCentre) % 512).toNat
    s.alive n = true → sidePresent n side.val = true → s.xf n side.val fClkXingFailed = 0 → ∃ u : State,
      u.xf n side.val fClkXingMarginMin = min (s.xf n side.val fClkXingMarginMin) (max 0 m).toNat ∧ u.xf n side.val fClkXingFailed = 0 ∧
      u.xf n side.val fClkXingSetting = (if m < s.fld fClkCtrlMarginFail ∨ m < s.fld fClkCtrlMarginWarn then new else old) ∧
      u.xf n side.val fClkXingRefCentre = (if m < s.fld fClkCtrlMarginFail ∨ m < s.fld fClkCtrlMarginWarn then (centreOf w % 512).toNat
        else s.xf n side.val fClkXingRefCentre) ∧ u.cores = s.cores ∧ u.mesh = s.mesh ∧
      exec (.crossingSweep c side a b) s =
        .next (if m < s.fld fClkCtrlMarginFail ∧ marginOf new w < 8 then u.failXing n side.val else u)) ∧
  ((∀ (c : ClusterId) (s : State), let n := c.val
    s.alive n = true →
    (n ≠ 60 → s.ck n fClkClStatusHoldover = 0 → ∃ t, exec (.referenceLoss c) s = .next t ∧ t.ck n fClkClStatusHoldover = 1 ∧
      t.clocks.held.look n 0 = s.mono + 1 ∧ t.ck n fClkClStatusOnAlt = (if s.altUsable n then 1 else 0) ∧
      t.ck n fClkRefSwitchCount = (s.ck n fClkRefSwitchCount + if s.altUsable n then 1 else 0) % 2 ^ 64) ∧
    (∀ sweeps, s.ck n fClkClStatusHoldover = 1 → s.ck n fClkClStatusOnAlt = 1 → s.clocks.held.look n 0 ≠ 0 →
      ∃ t, exec (.pllRelock c sweeps) s = .next t ∧ t.ck n fClkClStatusHoldover = 0 ∧ t.clocks.held.look n 0 = 0 ∧
        ∀ i, t.core i = { s.core i with inbound := (t.core i).inbound }) ∧
    (∀ since : Nat, s.clocks.held.look n 0 = since + 1 → since + 1000000 ≤ s.mono → s.ck n fClkClStatusFailed = 0 →
      ∃ t, exec (.holdoverTimeout c) s = .next t ∧ Note.clusterFailed n ∈ t.notes)) ∧
  (∀ s : State, s.dev = .up →
    (s.island.refclk = true → ∃ t, exec .refclkLoss s = .next t ∧ t.island.refclk = false ∧ FaultCause.refclk ∈ t.island.faults ∧
      Note.island .refclk ∈ t.notes ∧ t.fld fClkStatusRefclkLost = 1 ∧ t.fld fClkStatusSeedLocked = 0 ∧ t.fld fTimeStatusHoldover = 1 ∧
      t.ck 60 fClkClStatusHoldover = 1) ∧
    (s.island.refclk = false → ∃ t, exec .refclkReturn s = .next t ∧ t.island.refclk = true ∧ FaultCause.refclk ∉ t.island.faults ∧
      t.fld fClkStatusRefclkLost = s.fld fClkStatusRefclkLost ∧ t.ck 60 fClkClStatusHoldover = 0 ∧
      (5 ≤ s.fld fRstStatusPhase → s.ck 60 fClkClStatusFailed = 0 → t.fld fClkStatusSeedLocked = 1))))

/-- The Global Time Counter (R359, R361 to R363): a tick advances the nanoseconds by 10, rolling over into the seconds; a read of TIME_NS latches the
seconds for its reader; a step that an edge of PPS_IN asked for is made at the tick (R364); a write of TIME_STAGE_CTRL arms a commit or is refused
with stage_err; at its time the commit takes the staged values. PPS (R364, R365): an edge within 0.9 s of the last accepted one is a glitch and
counted; any other is timestamped and, where PPS_IN steers, an error above a microsecond asks for a step of the nanoseconds at the next tick, to the
time since the edge, and a smaller one steers the rate, the time then being valid; two seconds without an edge set pps_lost and holdover; PPS_OUT
rises where the nanoseconds are 0, and falls when its width has passed by the island's clock, whatever the device does meanwhile. That the seconds
stay as PPS sets the nanoseconds to 0 is the model's reading (log entry 69). -/
def Obligations.TimeCounterAndPps : Prop :=
  (∀ s : State, s.dev = .up →
    (s.timeBase.toStep = none → s.clocks.slew = none ∨ (∀ x ∈ s.clocks.xings, x.1 < 576) →
      ∃ t, exec .timeBaseTick s = .next t ∧ t.mono = s.mono + 10 ∧ t.cores = s.cores ∧ t.island = { s.island with ns := s.island.ns + 10 } ∧
      (s.fld fTimeNsNs + 10 < 10 ^ 9 → t.fld fTimeNsNs = s.fld fTimeNsNs + 10 ∧ t.fld fTimeSecSec = s.fld fTimeSecSec) ∧
      (10 ^ 9 ≤ s.fld fTimeNsNs + 10 → t.fld fTimeNsNs = 0 ∧ t.fld fTimeSecSec = (s.fld fTimeSecSec + 1) % 2 ^ 48)) ∧
    (∀ v : Nat, v < 10 ^ 9 → s.timeBase.toStep = some v → s.clocks.slew = none → ∃ t, exec .timeBaseTick s = .next t ∧ t.mono = s.mono + 10 ∧
      t.fld fTimeNsNs = v / 10 * 10 ∧ t.fld fTimeSecSec = s.fld fTimeSecSec ∧ t.timeBase.toStep = none ∧ t.timeSteps = s.timeSteps + 1) ∧
    (∀ q : Fin 18, ∃ t, exec (.timeNsRead q) s = .next t ∧ t.lastRead = s.reg fTimeNsNs.off ∧ t.timeBase.latches.look q.val 0 = s.fld fTimeSecSec ∧
      (∀ q', q' ≠ q.val → t.timeBase.latches.look q' 0 = s.timeBase.latches.look q' 0) ∧ t.rim = s.rim) ∧
    (∀ v : Word, let refused := v.getLsbD 0 = true ∧
        (v.getLsbD 2 = true ∧ 10 ^ 9 ≤ s.fld fTimeNsStageNs ∨ (v.getLsbD 2 = true ∨ v.getLsbD 3 = true) ∧ s.fld fFabTimeParentEn = 1 ∨
          v.getLsbD 3 = true ∧ s.fld fTimeCtrlPpsEn = 1)
      (refused → ∃ t, exec (.timeStageArm v) s = .next t ∧ t.fld fTimeStatusStageErr = 1 ∧ t.reg fTimeStageCtrlArm.off = s.reg fTimeStageCtrlArm.off ∧
        t.timeBase = s.timeBase) ∧
      (¬refused → ∃ t, exec (.timeStageArm v) s = .next t ∧ t.fld fTimeStatusStageErr = s.fld fTimeStatusStageErr ∧
        (t.reg fTimeStageCtrlArm.off).toNat = v.toNat % 16 ∧ t.timeBase.armedAt = s.mono)) ∧
    (s.fld fTimeStageCtrlArm = 1 → s.mono ≠ s.timeBase.armedAt →
      (if s.fld fTimeStageCtrlMode = 0 then s.fld fTimeCommitAtTime ≤ s.time else s.fld fTimeNsNs = 0) → ∃ t, exec .timeCommit s = .next t ∧
        t.fld fTimeStageCtrlArm = 0 ∧
        (s.fld fTimeStageCtrlWhatTime = 1 → t.fld fTimeSecSec = s.fld fTimeSecStageSec ∧ t.fld fTimeNsNs = s.fld fTimeNsStageNs / 10 * 10 ∧
          t.fld fTimeStatusValid = 1 ∧ t.timeSteps = s.timeSteps + 1) ∧
        (s.fld fTimeStageCtrlWhatTime = 0 → t.fld fTimeSecSec = s.fld fTimeSecSec ∧ t.fld fTimeNsNs = s.fld fTimeNsNs ∧ t.timeSteps = s.timeSteps) ∧
        t.fld fTimeRateRate = (if s.fld fTimeStageCtrlWhatRate = 1 then s.stagedRate else s.fld fTimeRateRate))) ∧
  ((∀ s : State, s.dev = .up →
    (∀ (sub : Fin 40) (last : Nat), s.timeBase.pps = some last → 4 * s.mono + sub.val < last + 3600000000 → ∃ t, exec (.ppsInEdge sub) s = .next t ∧
      t.fld fTimePpsGlitchValue = (s.fld fTimePpsGlitchValue + 1) % 2 ^ 64 ∧ t.reg fTimePpsInValue.off = s.reg fTimePpsInValue.off ∧ t.timeBase = s.timeBase) ∧
    (∀ sub : Fin 40, (∀ last, s.timeBase.pps = some last → last + 3600000000 ≤ 4 * s.mono + sub.val) → ∃ t, exec (.ppsInEdge sub) s = .next t ∧
      t.reg fTimePpsInValue.off = BitVec.ofNat 64 (4 * s.time + sub.val) ∧ t.timeBase.pps = some (4 * s.mono + sub.val) ∧ t.timeBase.lost = false ∧
      t.fld fTimeSecSec = s.fld fTimeSecSec ∧ t.fld fTimeNsNs = s.fld fTimeNsNs ∧
      (s.fld fTimeCtrlPpsEn = 0 ∨ s.fld fFabTimeParentEn = 1 → t.fld fTimeRateRate = s.fld fTimeRateRate ∧ t.timeBase.toStep = s.timeBase.toStep) ∧
      (s.fld fTimeCtrlPpsEn = 1 → s.fld fFabTimeParentEn = 0 → let ns := 4 * s.fld fTimeNsNs + sub.val
        (4000 < ns → ns + 4000 < 4 * 10 ^ 9 → t.fld fTimeRateRate = s.fld fTimeRateRate ∧ t.timeBase.toStep = some (if sub.val = 0 then 10 else 0)) ∧
        (ns ≤ 4000 ∨ (4 * 10 ^ 9 ≤ ns + 4000 ∧ ns ≤ 4 * 10 ^ 9) → t.fld fTimeStatusValid = 1 ∧ t.timeBase.toStep = s.timeBase.toStep))) ∧
    (s.fld fTimeCtrlPpsEn = 1 → s.fld fFabTimeParentEn = 0 → s.timeBase.lost = false → s.timeBase.pps.getD (4 * s.timeBase.began) + 8000000000 ≤ 4 * s.mono →
      ∃ t, exec .ppsInLoss s = .next t ∧ t.fld fTimeStatusPpsLost = 1 ∧ t.fld fTimeStatusHoldover = 1 ∧ t.timeBase.lost = true ∧
        t.fld fTimeRateRate = s.fld fTimeRateRate) ∧
    (s.fld fTimeCtrlPpsOutEn = 1 → s.fld fTimeStatusValid = 1 → s.fld fTimeNsNs = 0 → exec .ppsOutPulse s =
      .next { s with island := { s.island with pps := some (s.island.pps.getD (s.island.ns + 1000000 * max 1 (s.fld fTimeCtrlPpsWidth))) } })) ∧
  (∀ (t : Nat) (s : State), s.island.pps = some t →
    exec .ppsOutEnd s = .next (if s.island.ns < t then s else { s with island := { s.island with pps := none } })))

/-- Rails (R368 to R370, R372): a frame of a row stores its twelve currents and the voltage of the rail whose turn it is, and serves the queued writes
that are due, one without a response staying queued; the thirteenth interface's frame reads the voltages and the currents of the four rim and DRAM
rails, a reading that fails leaving the last one. Three reads in a row that a rail leaves unanswered latch its fault: a rail with such a latch, or
that reports a fault, is faulted and its cluster fails, and a rim rail's fault stops the device, in a reset or a freeze too. A loop asks 5 mV more or
less, or holds, when the present band records its voltage. That a write without a response stays queued is the model's reading (log entry 124). -/
def Obligations.Rails : Prop :=
  (∀ (bus : Fin 13) (amps volts : List (Option Nat)) (answered : List Bool) (s : State), s.dev = .up →
    (bus.val < 12 → let turn := s.power.turns.look bus.val 0
      ∃ t, exec (.avsFrame bus amps volts answered) s = .next t ∧ t.cores = s.cores ∧ t.power.turns.look bus.val 0 = (turn + 1) % 12 ∧
      (∀ (cx : Fin 12) (i : Nat), amps.getD cx.val none = some i → t.pw (cx.val + 12 * bus.val) fPwrClStatusIA = i % 2 ^ 8) ∧
      (∀ n, 3 ≤ (s.clPower n).fails → (t.clPower n).fails = (s.clPower n).fails) ∧
      (∀ v, volts.getD 0 none = some v → (t.clPower (turn + 12 * bus.val)).readMv = v) ∧
      (∀ (cx : Fin 12) (v : Nat), let n := cx.val + 12 * bus.val
        (s.clPower n).want = some v → (s.clPower n).faulted = false →
        s.power.raise.isSome = true ∨ (s.clPower n).written = 0 ∨ (s.clPower n).written + 10000 ≤ s.mono →
        (t.clPower n).want = (if answered.getD cx.val true then none else some v) ∧ (t.clPower n).written = s.mono ∧ t.pw n fPwrClStatusVMv = v % 2 ^ 10)) ∧
    (bus.val = 12 → ∃ t, exec (.avsFrame bus amps volts answered) s = .next t ∧ t.cores = s.cores ∧
      ∀ j : Fin 4, t.power.rimMv.look j.val 0 = (volts.getD j.val none).getD (s.power.rimMv.look j.val 0) ∧
        t.power.rimA.look j.val 0 = (amps.getD j.val none).getD (s.power.rimA.look j.val 0) ∧
        t.power.railFails.look j.val 0 = (let f := s.power.railFails.look j.val 0
          if 3 ≤ f then f else if (amps.getD j.val none).isSome then (if f = 2 ∧ volts.getD j.val none = none then 3 else 0)
          else if (volts.getD j.val none).isSome then 1 else if f = 2 then 3 else f + 2))) ∧
  (∀ (bus : Fin 13) (rail : Fin 12) (reported : Bool) (s : State), s.dev = .up ∨ s.dev = .inReset ∨ s.dev = .frozen → let n := rail.val + 12 * bus.val
    (bus.val < 12 → s.dev ≠ .frozen → (s.clPower n).faulted = false → reported = true ∨ 3 ≤ (s.clPower n).fails → ∃ t, exec (.railFault bus rail reported) s = .next t ∧
      (t.clPower n).faulted = true ∧ FaultCause.rail ∈ t.island.faults) ∧
    (bus.val = 12 → rail.val < 4 → reported = true ∨ 3 ≤ s.power.railFails.look rail.val 0 → ∃ t, exec (.railFault bus rail reported) s = .next t ∧
      t.dev = .stopped ∧ FaultCause.rail ∈ t.island.faults ∧ t.fld fPwrStatusStopCause = 3)) ∧
  (∀ (c : ClusterId) (slack : Nat) (lowerOk : Bool) (s : State), let n := c.val
    let v := s.pw n fPwrClStatusVMv
    let band := fldAt fPwrClVfMv (8 * bandOf s.freqNow)
    let low := lowerOk && s.mayLower n (railMv (v - 5))
    s.alive n = true → s.fld fPwrStatusMode ≠ 0 → s.clFailed n = false → (s.clPower n).faulted = false → (s.clPower n).hint = none → s.power.raise = none →
    ∃ t, exec (.voltageLoopDecision c slack lowerOk) s = .next t ∧ t.cores = s.cores ∧
      (slack < s.fld fPwrGovSlackTarget → v ≤ 595 → (t.clPower n).want = some 600 ∧ t.rim = s.rim) ∧
      (slack < s.fld fPwrGovSlackTarget → 595 ≤ v → v ≤ 845 → (t.clPower n).want = some (v + 5) ∧ t.rim = s.rim) ∧
      (s.fld fPwrGovSlackTarget ≤ slack → low = true → 605 ≤ v → v ≤ 855 → (t.clPower n).want = some (v - 5) ∧ t.rim = s.rim) ∧
      (s.fld fPwrGovSlackTarget ≤ slack → low = false → (t.clPower n).want = none ∧ t.pw n band = max (s.pw n band) v))

/-- Droop, hints and temperature (R375, R376, R384): boosts, skips, shunts and the errors of skips that R349 forbids are counted; a hint given in time
raises the rail, which returns to its voltage; the boost reservoir is charged ahead of an announced rise; below the trip temperature a reading is
stored and from 85 degrees the reservoirs refresh twice as often; at it the device stops. The voltage to which a rail returns is the model's reading
(log entry 66). -/
def Obligations.DroopHintsTemperature : Prop :=
  (∀ (c : ClusterId) (s : State), let n := c.val
    let v := (s.clPower n).want.getD (s.pw n fPwrClStatusVMv)
    s.alive n = true →
    (∀ (below : Int) (negative paced : Bool) (clocks : Nat),
      let may := maySkip (((s.clPower n).skips.map (fun a => a + clocks)).filter (fun a => decide (a < 64)))
      ∃ t, exec (.droopDetect c below negative clocks paced) s = .next t ∧
      t.pw n fPwrClBoostCount = (s.pw n fPwrClBoostCount + if 25 ≤ below then 1 else 0) % 2 ^ 64 ∧
      t.pw n fPwrClShuntCount = (s.pw n fPwrClShuntCount + if below ≤ -30 then 1 else 0) % 2 ^ 64 ∧
      t.pw n fPwrClSkipCount = (s.pw n fPwrClSkipCount + if (45 ≤ below ∨ negative = true) ∧ may = true then 1 else 0) % 2 ^ 64 ∧
      t.pw n fPwrClDroopErrCount = (s.pw n fPwrClDroopErrCount + if negative = true ∧ may = false then 1 else 0) % 2 ^ 64) ∧
    (∀ (activity : Fin 17) (answered : Bool), s.fld fPwrStatusMode ≠ 0 → s.clFailed n = false → (s.clPower n).faulted = false → (s.clPower n).hint = none →
      s.risesIn n activity.val 3000 3000 4000 = true → ∃ t, exec (.hintRailRaise c activity answered) s = .next t ∧
      (t.clPower n).hint = some v ∧ t.pw n fPwrClStatusVMv = max 600 (min 850 (v + s.pw n fPwrClCtrlHintMv))) ∧
    (∀ activity : Fin 17, s.risesIn n activity.val 200 1 200 = true → ∃ t, exec (.boostPrecharge c activity) s = .next t ∧
      (t.clPower n).charged = true ∧ t.rim = s.rim) ∧
    (∀ (before : Nat) (answered : Bool), (s.clPower n).hint = some before → s.hintsOver n = true → (s.clPower n).faulted = false →
      ∃ t, exec (.hintRailReturn c answered) s = .next t ∧ (t.clPower n).hint = none ∧ t.pw n fPwrClStatusVMv = before % 2 ^ 10) ∧
    (∀ celsius : Fin 256, celsius.val < s.tripC → ∃ t, exec (.temperatureRead (some c) celsius) s = .next t ∧ t.dev = .up ∧
      t.pw n fPwrClStatusTempC = celsius.val ∧ ∀ i ∈ clusterCores n, (t.core i).rsv.hot = decide (85 ≤ celsius.val))) ∧
  (∀ (celsius : Fin 256) (s : State), s.dev = .up → celsius.val < s.tripC → ∃ t, exec (.temperatureRead none celsius) s = .next t ∧ t.dev = .up ∧
    t.power.rimTemp = some celsius.val ∧ t.cores = s.cores) ∧
  (∀ (c : Option ClusterId) (celsius : Fin 256) (s : State), s.dev = .up → s.tripC ≤ celsius.val →
    ∃ t, exec (.temperatureRead c celsius) s = .next t ∧ t.dev = .stopped ∧ t.island.thermTrip = true ∧ t.island.pwrEn = 0 ∧ t.fld fPwrStatusStopCause = 2)

/-- The governor and the limits (R374, R377, R379 to R381): a mode is taken at the next period, manual only in Maintenance; each period renews the ceiling
and the throttle, and in governed mode arms the lower frequency it chooses, giving up a raise, or begins the raise to a higher one, compared with the
frequency to which the clock is on its way; the change is armed settle_us after a raise's last write; the peak limit paces by the on-die estimate
until the clock has fallen and 100 microseconds have passed, and a current limit by the reading. What the governor forecasts is a free function, and
that the lowest step is chosen where none is within the limit is the model's choice (log entry 65). -/
def Obligations.Governor : Prop :=
  ∀ s : State, s.dev = .up →
    (∀ mode : Fin 4, (mode.val = 3 ∨ mode.val = 2 ∧ s.lifecycle ≠ 3 → ∃ t, exec (.pwrModeWrite mode) s = .next t ∧ t.fld fPwrStatusModeErr = 1 ∧
        t.fld fPwrCtrlMode = s.fld fPwrCtrlMode) ∧
      (¬(mode.val = 3 ∨ mode.val = 2 ∧ s.lifecycle ≠ 3) → ∃ t, exec (.pwrModeWrite mode) s = .next t ∧ t.fld fPwrCtrlMode = mode.val ∧
        t.fld fPwrStatusMode = s.fld fPwrStatusMode)) ∧
    (s.fld fRstStatusMrm = 0 → s.power.governed + 1000 * max 10 (s.fld fPwrGovPeriodUs) ≤ s.mono → ∃ t, exec .governorPeriod s = .next t ∧
      t.power.governed = s.mono ∧ t.fld fPwrStatusFCeilingMhz = s.ceiling ∧ t.fld fPwrStatusMode = s.fld fPwrCtrlMode ∧
      t.fld fPwrStatusThrottling = (if s.throttles = true ∧ s.fld fPwrCtrlMode = 1 then 1 else 0) ∧
      (s.fld fPwrStatusMode = 1 → s.fld fPwrCtrlMode = 1 → ∀ f, { t with clocks := s.clocks }.chooses = some f →
        (f < s.freqGoal → t.clocks.freqAt = some ⟨f, (s.time / 1000 + 1) * 1000, false, s.mono⟩ ∧ t.power.raise = none) ∧
        (f = s.freqGoal → t.clocks = s.clocks ∧ t.power.raise = none) ∧
        (s.freqGoal < f → t.clocks = s.clocks ∧ ∃ last, t.power.raise = some (f, last) ∧ (s.power.raise ≠ some (f, last) → last = s.mono)))) ∧
    (∀ mhz last : Nat, s.power.raise = some (mhz, last) → (∀ n < 144, s.clFailed n = true ∨ (s.clPower n).want = none) →
      last + 1000 * s.fld fPwrGovSettleUs ≤ s.mono → ∃ t, exec .raiseSettleElapsed s = .next t ∧ t.power.raise = none ∧
        (s.fld fPwrStatusMode ≠ 2 → t.fld fClkFreqTargetMhz = mhz % 2048 ∧ t.clocks.freqAt = some ⟨mhz, (s.time / 1000 + 1) * 1000, false, s.mono⟩) ∧
        (s.fld fPwrStatusMode = 2 → t.clocks = s.clocks ∧ t.rim = s.rim)) ∧
    (∀ (rest : Nat) (eighths : Fin 8), let est := s.estimate rest
      ∃ t, exec (.peakLimiter rest eighths) s = .next t ∧ t.fld fPwrEstEstW = min est 65535 ∧
      (s.peakW < est ∨ s.sustainW < est ∧ (∃ a, s.power.excess = some a ∧ a + 1000000 * max 1 (min 10 (s.fld fPwrLimitPeakMs)) < s.mono) →
        t.power.peak = max 1 eighths.val ∧ t.power.peakMhz = s.freqNow ∧ t.power.release = none ∧ t.fld fPwrStatusPeakActive = 1 ∧
        t.fld fPwrPeakEventsCount = (s.fld fPwrPeakEventsCount + 1) % 2 ^ fPwrPeakEventsCount.width) ∧
      (est ≤ s.sustainW → est ≤ s.peakW → t.power.excess = none ∧ t.fld fPwrPeakEventsCount = s.fld fPwrPeakEventsCount ∧
        (s.power.peak ≠ 0 → s.power.release = none → t.power.peak = s.power.peak ∧ t.power.release = (if s.hasFallen then some s.mono else none)) ∧
        (∀ a, s.power.release = some a → a + 100000 ≤ s.mono → t.power.peak = 0 ∧ t.power.release = none ∧ t.fld fPwrStatusPeakActive = 0))) ∧
    (∀ (c : ClusterId) (eighths : Fin 8), s.alive c.val = true → ∃ t, exec (.clusterCurrentLimit c () eighths) s = .next t ∧
      (t.clPower c.val).paced = (if min 145 (s.pw c.val fPwrClCtrlIlimA) < s.pw c.val fPwrClStatusIA then max 1 eighths.val else 0) ∧ t.rim = s.rim)

/-- Energy (R279, R383): what a cluster's cores are estimated to have used reaches the device's counter, the part of a microjoule kept; each millisecond
the cluster's factor becomes the ratio of read to estimated energy, within 0.75 and 1.25; the rim's energy of each frame of its rails reaches the
rim's and the device's counters, and that of the DRAM rails the device's alone, which is the model's reading (log entry 151). Keeping the remainder is
the model's choice (log entry 67). -/
def Obligations.EnergyAccounts : Prop :=
  let total (t : State) (f : Fld) := t.fld f * 10 ^ 9 + t.power.rest.look f.off 0
  (∀ (c : ClusterId) (s : State), let n := c.val
    s.alive n = true →
    (∀ counts : List (List Nat), let raws := ((clusterCores n).zip counts).map (fun x => s.rawEnergy n x.2)
      let used := (raws.map (fun r => r * s.pw n fPwrClCalFactor / 2 ^ 14)).sum
      (∀ i ∈ clusterCores n, (s.view i).ctl.cliSel < 1024) → total s fPwrEnergyDevCount + used < 2 ^ 64 * 10 ^ 9 →
      ∃ t, exec (.energyEstimate c counts) s = .next t ∧
        total t fPwrEnergyDevCount = total s fPwrEnergyDevCount + used ∧ (t.clPower n).spent = (s.clPower n).spent + raws.sum ∧
        (t.clPower n).lastFj = raws.sum * s.pw n fPwrClCalFactor / 2 ^ 14 ∧ t.cores = s.cores) ∧
    (∃ t, exec (.energyReconcile c) s = .next t ∧ (t.clPower n).spent = 0 ∧ (t.clPower n).readFj = 0 ∧
      t.pw n fPwrClCalFactor = (if (s.clPower n).spent = 0 then s.pw n fPwrClCalFactor
        else max 0x3000 (min 0x5000 ((s.clPower n).readFj * 2 ^ 14 / (s.clPower n).spent))) ∧ t.cores = s.cores)) ∧
  (∀ (bus : Fin 13) (amps volts : List (Option Nat)) (answered : List Bool) (s : State),
    let rail (j : Nat) : Nat := (volts.getD j none).getD (s.power.rimMv.look j 0) * (amps.getD j none).getD (s.power.rimA.look j 0)
    let fj := (rail 0 + rail 1) * 10 ^ 8
    let dram := (rail 2 + rail 3) * 10 ^ 8
    s.dev = .up → bus.val = 12 → total s fPwrEnergyRimCount + fj < 2 ^ 64 * 10 ^ 9 → total s fPwrEnergyDevCount + fj + dram < 2 ^ 64 * 10 ^ 9 →
    ∃ t, exec (.avsFrame bus amps volts answered) s = .next t ∧
      total t fPwrEnergyRimCount = total s fPwrEnergyRimCount + fj ∧ total t fPwrEnergyDevCount = total s fPwrEnergyDevCount + fj + dram)

/-! ## Ports and the fabric -/

/-- Control of a port (R281, R283, R288, R289, R297, R298): modes are staged or refused with mode_err; a block reset completes when its gateway is empty
or its time is up, in the staged mode, or off where four other ports run Ethernet, the partner and the admission gone, and none starts in Minimal
Recovery Mode, what its gateway still held being counted; admission needs a valid partner that is not this device; a partner not heard for its loss
count of intervals is lost. That a mode which the lifecycle refuses sets mode_err is the model's reading (log entry 39). mode_err in a lifecycle state
that refuses Ethernet is the model's reading (log entry 39). -/
def Obligations.PortControl : Prop :=
  ∀ (port : Fin 16) (s : State), let p := port.val
    let m := if s.pfld p fPortCtrlMode = 2 ∧ 4 ≤ (s.etherPorts p).length then 0 else s.pfld p fPortCtrlMode
    (∀ mode : Fin 4, s.dev = .up → let refused := mode.val = 3 ∨ mode.val = 2 ∧ (4 ≤ (s.etherHeld p).length ∨ s.lifecycle ≠ 2 ∧ s.lifecycle ≠ 3)
      ∃ t, exec (.portModeWrite port mode) s = .next t ∧ t.ports = s.ports ∧
        (refused → t.pfld p fPortStatusModeErr = 1 ∧ t.pfld p fPortCtrlMode = s.pfld p fPortCtrlMode) ∧
        (¬refused → t.pfld p fPortCtrlMode = mode.val ∧ t.pfld p fPortStatusModeErr = s.pfld p fPortStatusModeErr)) ∧
    (s.dev = .up → s.fld fRstStatusMrm = 1 → exec (.portBlockReset port) s = .next s) ∧
    (s.dev = .up → s.fld fRstStatusMrm = 0 → (s.port p).resetAt = none → ∃ t, exec (.portBlockReset port) s = .next t ∧ t.cores = s.cores ∧
      ((s.port p).gw = [] ∧ (s.port p).tx = [] → (t.port p).mode = m ∧ (t.port p).resetAt = none ∧ t.portState p = (if m = 0 then 0 else 2) ∧
        t.pfld p fPortCtrlAdmit = 0 ∧ t.pfld p fPortStatusPeerValid = 0 ∧ (s.pfld p fPortStatusPeerValid = 1 → Note.peer p false ∈ t.notes)) ∧
      (¬((s.port p).gw = [] ∧ (s.port p).tx = []) → t.portState p = 1 ∧ (t.port p).resetAt = some s.mono ∧ (t.port p).gw = (s.port p).gw)) ∧
    (∀ began : Nat, s.dev = .up → (s.port p).resetAt = some began → began + 1000 * 2 ^ s.pfld p fPortCtrlResetTimeout ≤ s.mono →
      ∃ t, exec (.portResetTimeout port) s = .next t ∧ (t.port p).gw = [] ∧ (t.port p).resetAt = none ∧ t.pfld p fPortStatusGwForced = 1 ∧
        (t.port p).mode = m ∧ t.pfld p fPortGwDropCount = (s.pfld p fPortGwDropCount + gwFlits (s.port p).gw + (s.port p).tx.length) % 2 ^ 64) ∧
    (∀ on : Bool, s.dev = .up →
      (on = true ∧ (s.pfld p fPortStatusPeerValid = 0 ∨ s.pfld p fPortStatusLoopback = 1) → exec (.portAdmitWrite port on) s = .next s) ∧
      (¬(on = true ∧ (s.pfld p fPortStatusPeerValid = 0 ∨ s.pfld p fPortStatusLoopback = 1)) → (s.port p).resetAt = none →
        ∃ t, exec (.portAdmitWrite port on) s = .next t ∧ t.pfld p fPortCtrlAdmit = (if on then 1 else 0))) ∧
    (s.fabLink p = true → s.pfld p fPortStatusPeerValid = 1 →
      (s.port p).helloAt + 100000 * s.pfld p fPortHelloInterval * s.pfld p fPortHelloLossCount ≤ s.mono → ∃ t, exec (.peerLoss port) s = .next t ∧
        t.pfld p fPortStatusPeerValid = 0 ∧ t.pfld p fPortCtrlAdmit = 0 ∧ Note.peer p false ∈ t.notes)

/-- Training and retraining (R284, R285, R287, R288): a link's lane groups are initialised on the lowest-numbered that both ends have good, at the largest
width, and the port stays in training until its hellos have gone and come; a group late in training fails, and with the eighth the port. A group past
its error limit is to leave the link at the next agreed block boundary and retrains once both ends have asked; one that has retrained comes back so,
or at once where no group is left; one that does not come back in 50 ms fails. -/
def Obligations.PortTraining : Prop :=
  ∀ (port : Fin 16) (s : State), let p := port.val
    let q := s.port p
    (∀ (group : Fin 8) (stage : Fin 4), s.dev = .up → q.mode = 1 → s.portState p = 2 → q.linked = false → group.val ∉ s.failedGroups p →
      q.trainAt + 1000000 * stepLimit stage.val ≤ s.mono → ∃ t, exec (.laneGroupTrainingTimeout port group stage) s = .next t ∧
        (t.pfld p fPortStatusGroupsFailed).testBit group.val = true ∧ t.portState p = (if (s.failedGroups p).length = 7 then 5 else 2) ∧
        ((s.failedGroups p).length = 7 → Note.portFailed p ∈ t.notes)) ∧
    (∀ (good peer : List (Fin 8)) (alloc adapted : List Nat), let common := ((good.map (·.val)).filter (fun g => !(s.failedGroups p).contains g)).filter (fun g =>
        peer.any (fun h => h.val = g))
      s.dev = .up → q.mode = 1 → s.portState p = 2 → q.linked = false → ∃ t, exec (.linkInitComplete port good peer alloc adapted) s = .next t ∧
        (common = [] → t.portState p = 5 ∧ Note.portFailed p ∈ t.notes) ∧
        (common ≠ [] → t.portState p = 2 ∧ (t.port p).linked = true ∧ (t.port p).active = widestOf common ∧ t.pfld p fPortStatusWidth = (widestOf common).length ∧
          (t.port p).txSeq = 0 ∧ (t.port p).rxSeq = 0 ∧ (t.port p).eq = adapted ∧ ∀ i < 8, (t.port p).credits.look i 0 = alloc.getD i 0)) ∧
    (∀ (group : Fin 8) (since : Nat), let g := group.val
      let past : Prop := 2 ^ (s.pfld p fPortCtrlBerLimit + 6) < q.symbols.look g 0 ∧ g ∈ s.goodGroups p ∧ g ∉ q.leaving
      q.windows.look g 0 = since + 1 → since + 1000000 ≤ s.mono → s.fabLink p = true → q.resetAt = none →
      ∃ t, exec (.fecWindowCheck port group) s = .next t ∧ (t.port p).windows.look g 0 = 0 ∧ (t.port p).symbols.look g 0 = 0 ∧
        (past → q.heard = false → (t.port p).leaving = q.leaving ++ [g] ∧ (t.port p).retrain = q.retrain ∧ t.portState p = s.portState p) ∧
        (past → q.heard = true → q.asked = true → (t.port p).leaving = [] ∧ (t.port p).retrain.look g 0 = s.mono + 1) ∧
        (q.symbols.look g 0 ≤ 2 ^ (s.pfld p fPortCtrlBerLimit + 6) → (t.port p).retrain = q.retrain ∧ (t.port p).leaving = q.leaving ∧ t.rim = s.rim)) ∧
    (∀ group : Fin 8, let g := group.val
      s.dev = .up → q.retrain.look g 0 ≠ 0 → q.resetAt = none → g ∉ q.coming →
      (∃ t, exec (.groupRetrainComplete port group) s = .next t ∧
        (q.active = [] ∨ q.heard = true ∧ q.asked = true → (t.port p).retrain.look g 0 = 0) ∧
        (q.active ≠ [] → q.heard = false → (t.port p).coming = q.coming ++ [g] ∧ (t.port p).retrain = q.retrain)) ∧
      (s.goodGroups p ≠ [] → q.retrain.look g 0 + 50000000 ≤ s.mono + 1 → ∃ t, exec (.groupRetrainTimeout port group) s = .next t ∧
        (t.port p).retrain = q.retrain.put g 0 0 ∧ (t.pfld p fPortStatusGroupsFailed).testBit g = true ∧
        (q.linked = true → q.greeted = true → q.helloTx ≠ 0 → t.portState p = (if (q.retrain.put g 0 0).isEmpty then 3 else 4))))

/-- Traffic of a port (R285, R290, R292 to R297, R299, R302, R307, R319): a queued reservation is granted, a refused one sent again, each by a flit, and
what a gateway has held too long through a retrain is discarded; hellos are sent and recorded, and the port is up once they have gone both ways; an
intact block in sequence is taken and a damaged one answered by one nak for each time that the awaited block fails, and a seventeenth failure of one
takes the link down; Ethernet frames are checked and counted, links come, their receivers adapted, and go, a timestamp is popped, and classification
entries are written whole. The state of an Ethernet port and the hold limit's beginning are the model's readings (log entries 41 and 53). -/
def Obligations.PortTraffic : Prop :=
  (∀ (idx : Nat) (x : FabWait) (s : State), s.fabWait[idx]? = some x →
    (s.dev = .up → x.stage = 1 ∨ x.stage = 3 → s.mayGrant idx x = true → ∃ t g, exec (.gatewayGrant idx) s = .next t ∧
      t.fabWait = s.fabWait.set idx { x with stage := 6 } ∧ t.mesh = s.mesh ++ [g] ∧ g.body = .gate 1 x.tag ∧ g.vc = 3 ∧ g.flits = [0]) ∧
    (s.dev = .up → x.stage = 2 → x.since + 1000 ≤ s.mono → ∃ t g, exec (.reservationRetry idx) s = .next t ∧
      t.fabWait = s.fabWait.set idx { x with stage := 5 } ∧ t.mesh = s.mesh ++ [g] ∧ g.body = .gate 0 x.tag ∧ g.vc = 3 ∧ g.flits = [0])) ∧
  (∀ (port : Fin 16) (s : State), let p := port.val
    let q := s.port p
    let held := fun x : GwPkt => max x.since (q.retrain.foldl (fun n y => max n y.2) 0 - 1) + 1000000 * 2 ^ s.pfld p fPortCtrlHoldLimit ≤ s.mono
    (s.dev = .up → s.portState p = 4 → ∃ t, exec (.gatewayHoldLimit port) s = .next t ∧ (t.port p).gw = q.gw.filter (fun x => !decide (held x)) ∧
      t.pfld p fPortGwDropCount = (s.pfld p fPortGwDropCount + gwFlits (q.gw.filter (fun x => decide (held x)))) % 2 ^ 64) ∧
    (s.fabLink p = true → q.resetAt = none → Agrees (fun a => decide (a = fFabIdValid.off)) s → q.helloTx = 0 ∨ q.helloTx + 100000 * s.pfld p fPortHelloInterval ≤ s.mono + 1 →
      ∃ t, exec (.helloSend port) s = .next t ∧ (t.port p).helloTx = s.mono + 1 ∧ (t.port p).helloSeq = (q.helloSeq + 1) % 2 ^ 16 ∧
        (q.greeted = true → t.portState p = (if q.retrain.isEmpty then 3 else 4))) ∧
    (∀ (idx : Nat) (x : FabPkt) (h : Hello), q.arrived[idx]? = some x → x.body = .hello h → s.tooOld x.injectUs = false → s.fabLink p = true → q.resetAt = none →
      ∃ t, exec (.helloReceive port idx) s = .next t ∧ t.reg (fPortPeerEuiEui.off + 0x1000 * p) = h.eui ∧ t.pfld p fPortStatusPeerValid = 1 ∧
        t.pfld p fPortPeerDeviceId = h.device % 2 ^ 18 ∧ t.pfld p fPortStatusLoopback = (if h.eui = Config.eui then 1 else 0) ∧
        (t.port p).helloAt = s.mono ∧ (t.port p).arrived = q.arrived.eraseIdx idx ∧ (s.pfld p fPortStatusPeerValid = 0 → Note.peer p true ∈ t.notes) ∧
        (q.helloTx ≠ 0 → t.portState p = (if q.retrain.isEmpty then 3 else 4))) ∧
    (∀ b : LinkBlock, s.dev = .up → q.mode = 1 → q.active ≠ [] → q.resetAt = none → b.widthReq = false → q.heard = false →
      (b.crcOk = false → b.uncorrectable = [] → ∃ t, exec (.linkBlockReceive port b) s = .next t ∧ (t.port p).awaiting = true ∧ (t.port p).rxSeq = q.rxSeq ∧
        (t.port p).arrived = q.arrived ∧ (q.awaiting = false ∨ b.seq = q.rxSeq → ∃ y ∈ (t.port p).wire, y.nak = true) ∧
        (q.awaiting = true → b.seq ≠ q.rxSeq → q.nak = false → ∀ y ∈ (t.port p).wire, y.nak = false) ∧ t.pfld p fPortBlocksRxCount = (s.pfld p fPortBlocksRxCount + 1) % 2 ^ 64) ∧
      (b.crcOk = true → b.uncorrectable = [] → b.seq = q.rxSeq → b.nak = true → q.replays < 16 → ∃ t, exec (.linkBlockReceive port b) s = .next t ∧
        (t.port p).awaiting = false ∧ (t.port p).rxSeq = (q.rxSeq + 1) % 2 ^ 16 ∧ t.pfld p fPortReplayCount = (s.pfld p fPortReplayCount + 1) % 2 ^ 64 ∧
        (t.port p).replays = (if q.unacked.any (fun y => decide (y.seq = b.ack)) then 1 else q.replays + 1)) ∧
      (b.crcOk = true → b.uncorrectable = [] → b.seq = q.rxSeq → b.nak = true → 16 ≤ q.replays → (∀ y ∈ q.unacked, y.seq ≠ b.ack) →
        ∃ t, exec (.linkBlockReceive port b) s = .next t ∧ t.portState p = 2 ∧ (t.port p).linked = false) ∧
      (b.crcOk = true → b.uncorrectable = [] → b.seq = q.rxSeq → b.nak = false → ∃ t, exec (.linkBlockReceive port b) s = .next t ∧
        (t.port p).awaiting = false ∧ (t.port p).rxSeq = (q.rxSeq + 1) % 2 ^ 16 ∧ t.pfld p fPortReplayCount = s.pfld p fPortReplayCount)) ∧
    (∀ (link : Fin 8) (bytes : List Byte) (fcsOk : Bool) (sub : Fin 40), s.dev = .up → q.mode = 2 → (s.pfld p fPortEthStatusLinkUp).testBit link.val = true →
      s.fld (fldAt fPortEthMacEnable (0x1000 * p + 8 * link.val)) = 1 →
      let bad := fcsOk = false ∨ bytes.length + 4 < 64 ∨ s.pfld p fPortEthCtrlMaxFrame < bytes.length + 4
      ∃ t, exec (.ethFrameReceive port link bytes fcsOk sub) s = .next t ∧ t.mesh = s.mesh ∧
        t.pfld p fPortEthFcsDropCount = (s.pfld p fPortEthFcsDropCount + if bad then 1 else 0) % 2 ^ 64 ∧
        t.pfld p fPortEthPauseDropCount = (s.pfld p fPortEthPauseDropCount + if ¬bad ∧ isPause bytes = true then 1 else 0) % 2 ^ 64 ∧
        t.pfld p fPortEthRxFramesCount = (s.pfld p fPortEthRxFramesCount +
          if ¬bad ∧ isPause bytes = false ∧ s.etherMine p link.val bytes = true then 1 else 0) % 2 ^ 64) ∧
    (∀ (link : Fin 8) (up : Bool) (found : EthFound), s.dev = .up → q.mode = 2 → s.portState p = 2 ∨ s.portState p = 3 →
      (up = true → s.fld (fldAt fPortEthMacEnable (0x1000 * p + 8 * link.val)) = 1) → ∃ t, exec (.ethLinkStateChange port link up found) s = .next t ∧
        (t.port p).eq = (if up then adaptLanes link.val found.adapted q.eq else q.eq) ∧
        (t.pfld p fPortEthStatusLinkUp).testBit link.val = up ∧ (t.pfld p fPortEthStatusCr4).testBit link.val = (up && found.cr4) ∧
        (∀ g < 8, g ≠ link.val → (t.pfld p fPortEthStatusLinkUp).testBit g = (s.pfld p fPortEthStatusLinkUp).testBit g) ∧
        t.portState p = (if t.pfld p fPortEthStatusLinkUp = 0 then 2 else 3)) ∧
    (s.dev = .up → ∃ t, exec (.ptpTxTagRead port) s = .next t ∧ t.lastRead = t.reg (fPortPtpTxTagTag.off + 0x1000 * p) ∧ (t.port p).ptpQ = q.ptpQ.tail ∧
      (q.ptpQ = [] → t.pfld p fPortPtpTxTagValid = 0) ∧ ∀ tag link time rest, q.ptpQ = (tag, link, time) :: rest → t.pfld p fPortPtpTxTagValid = 1 ∧
        t.pfld p fPortPtpTxTagTag = tag % 2 ^ 16 ∧ t.reg (fPortPtpTxTsTime.off + 0x1000 * p) = BitVec.ofNat 64 time)) ∧
  (∀ (v : Word) (s : State), s.dev = .up → v.getLsbD 12 = true → let x : ClsEntry := ⟨s.reg fPortClsStage0Valid.off, s.reg fPortClsStage1Addr.off, s.reg fPortClsStage2Addr.off⟩
    (x.f fPortClsStage0Action = 3 ∨ x.f fPortClsStage0IpVer = 3 → ∃ t, exec (.portClsCmdWrite v) s = .next t ∧ t.fld fPortClsStatusClsErr = 1 ∧ t.cls = s.cls) ∧
    (x.f fPortClsStage0Action ≠ 3 → x.f fPortClsStage0IpVer ≠ 3 → exec (.portClsCmdWrite v) s = .next { s with cls := s.cls.put (v.toNat % 4096) x clsNone }))

/-- Packets on their way (R289, R293, R312, R316, R317, R320 to R322, R324): what has arrived at a port goes on, is counted and discarded, or is delivered
over the mesh; a reservation is sent as a flit, queued at its gateway or answered by a retry, and one that has waited is promoted; escape packets
follow their route, never up after down, and leave their source by hop 0; a read unit that came back is presented again. -/
def Obligations.FabricRouting : Prop :=
  (∀ (port : Fin 16) (idx : Nat) (x : FabPkt) (s : State), let p := port.val
    let rest := (s.port p).arrived.eraseIdx idx
    let counted (f : Fld) (t : State) : Prop := t.fld f = (s.fld f + 1) % 2 ^ 64 ∧ (t.port p).arrived = rest ∧ t.fabWait = s.fabWait
    s.dev = .up → (s.port p).arrived[idx]? = some x → s.firstOf p idx x = true →
    (x.cls ≠ 0 → x.cls ≠ 5 →
      (s.tooOld x.injectUs = true → ∃ t, exec (.fabricPacketArrival port idx) s = .next t ∧ counted fFabAgeDropCount t) ∧
      (s.tooOld x.injectUs = false →
        (s.nextHop p x = .unreachable → ∃ t, exec (.fabricPacketArrival port idx) s = .next t ∧ counted fFabUnreachCount t) ∧
        (s.nextHop p x = .disorder → ∃ t, exec (.fabricPacketArrival port idx) s = .next t ∧ counted fFabOrderDropCount t) ∧
        (∀ (q : Nat) (c : Bool), s.nextHop p x = .out q c → s.fld fFabCtrlHopLimit < x.hops + 1 →
          ∃ t, exec (.fabricPacketArrival port idx) s = .next t ∧ counted fFabHopDropCount t) ∧
        (∀ (q : Nat) (c : Bool), s.nextHop p x = .out q c → x.hops + 1 ≤ s.fld fFabCtrlHopLimit →
          ∃ t, exec (.fabricPacketArrival port idx) s = .next t ∧ t.fld fFabTransitCount = (s.fld fFabTransitCount + 1) % 2 ^ 64 ∧
            (t.port p).arrived = rest ∧ t.fabWait = s.fabWait ++ [⟨x, p, q, c, 0, s.mono, s.fabTag⟩]) ∧
        (s.nextHop p x = .here → s.readWaits p x = true → exec (.fabricPacketArrival port idx) s = .next s) ∧
        (∀ (sig : Bool) (operand tag binding pc : Nat), s.nextHop p x = .here → s.readWaits p x = false → x.body = .lig sig operand tag binding pc →
          let way := s.farWay p x operand
          let crosses := ((s.takeArrived p idx x).cross (s.physical way.2.1 way.2.2) x.flits 0 4 4 (xFirst way.1 way.2)).1.ok
          ∃ t, exec (.fabricPacketArrival port idx) s = .next t ∧ (t.port p).arrived = rest ∧
            t.farOps = (if crosses then s.farOps ++ [⟨x.dstRegion, x.gen, sig, operand, x.injectUs, binding, pc⟩] else s.farOps)) ∧
        (∀ b : Body, s.nextHop p x = .here → s.readWaits p x = false → x.body = .channel b →
          let goal : Nat × Nat := (6 * s.rgn x.dstRegion fRgnCfgCx0 + x.x, 8 * s.rgn x.dstRegion fRgnCfgCy0 + x.y)
          goal.1 < 72 → goal.2 < 96 → ∃ t, exec (.fabricPacketArrival port idx) s = .next t ∧ (t.port p).arrived = rest ∧
            (s.classFits x (s.physical goal.1 goal.2) = false → t.fld fFabClassDropCount = (s.fld fFabClassDropCount + 1) % 2 ^ 64 ∧ t.mesh = s.mesh) ∧
            (s.classFits x (s.physical goal.1 goal.2) = true → ∃ g, t.mesh = s.mesh ++ [g] ∧ g.vc = 3 ∧ g.body = b ∧ g.region = x.dstRegion ∧ g.gen = x.gen ∧
              g.path = xFirst (attach p goal) goal ∧ g.flits = List.replicate x.flits 0)))) ∧
    (x.cls = 0 → x.kind ≠ 9 → s.tooOld x.injectUs = false →
      (x.route = [] → ∃ t, exec (.escapePacketArrival port idx) s = .next t ∧ counted fFabEscDropCount t) ∧
      (x.route ≠ [] → x.route.length ≤ 24 → x.routeIdx = x.route.length →
        s.scribe.escape.foldl (fun n y => n + 128 * y.flits) (128 * x.flits) ≤ 8388608 → ∃ t, exec (.escapePacketArrival port idx) s = .next t ∧
          t.scribe.escape = s.scribe.escape ++ [x] ∧ (t.port p).arrived = rest) ∧
      (∀ q : Nat, x.route.length ≤ 24 → x.route[x.routeIdx]? = some q → let up := (s.fld fFabEscDirUp).testBit q
        (up = true ∧ x.downTaken = true ∨ s.fabUp q = false → ∃ t, exec (.escapePacketArrival port idx) s = .next t ∧ counted fFabEscDropCount t) ∧
        (¬(up = true ∧ x.downTaken = true) → s.fabUp q = true → x.hops + 1 ≤ s.fld fFabCtrlHopLimit → ∃ t, exec (.escapePacketArrival port idx) s = .next t ∧
          t.fabWait = s.fabWait ++ [⟨{ x with routeIdx := x.routeIdx + 1, downTaken := x.downTaken || !up }, p, q, false, 0, s.mono, s.fabTag⟩])))) ∧
  (∀ (idx : Nat) (x : FabWait) (s : State), s.fabWait[idx]? = some x → s.dev = .up →
    (x.stage = 0 →
      let sent (y : FabWait) (t : State) : Prop :=
        t.fabWait = s.fabWait.set idx { y with stage := 5 } ∧ ∃ g, t.mesh = s.mesh ++ [g] ∧ g.body = .gate 0 y.tag ∧ g.flits = [0]
      (x.port < 16 → ∃ t, exec (.gatewayReservation idx) s = .next t ∧ sent x t) ∧
      (16 ≤ x.port → x.pkt.cls ≠ 0 →
        (s.nextHop 16 x.pkt = .unreachable → ∃ t, exec (.gatewayReservation idx) s = .next t ∧
          t.fabWait = s.fabWait.eraseIdx idx ∧ t.fld fFabUnreachCount = (s.fld fFabUnreachCount + 1) % 2 ^ 64) ∧
        (∀ (q : Nat) (c : Bool), s.nextHop 16 x.pkt = .out q c → ∃ t, exec (.gatewayReservation idx) s = .next t ∧ sent { x with port := q, continues := c } t)) ∧
      (16 ≤ x.port → x.pkt.cls = 0 →
        (∀ q : Nat, x.pkt.route[0]? = some q → x.pkt.route.length ≤ 24 → s.fabUp q = true → ∃ t, exec (.gatewayReservation idx) s = .next t ∧
          sent { x with port := q, pkt := { x.pkt with routeIdx := 1, downTaken := !(s.fld fFabEscDirUp).testBit q } } t) ∧
        (x.pkt.route = [] → ∃ t, exec (.gatewayReservation idx) s = .next t ∧
          t.fabWait = s.fabWait.eraseIdx idx ∧ t.fld fFabEscDropCount = (s.fld fFabEscDropCount + 1) % 2 ^ 64))) ∧
    (∀ k : Nat, x.stage = 5 → s.mesh.findIdx? (fun p => decide (p.body = .gate 0 x.tag) && p.atEnd) = some k →
      let full : Prop := 256 ≤ s.queued x ∨ (s.port x.port).resetAt ≠ none
      ∃ t, exec (.gatewayReservation idx) s = .next t ∧
        (full → t.fabWait = s.fabWait.set idx { x with stage := 9 } ∧ ∃ g, t.mesh = s.mesh.eraseIdx k ++ [g] ∧ g.body = .gate 2 x.tag) ∧
        (¬full → t.fabWait = s.fabWait.eraseIdx idx ++ [{ x with stage := 1, since := s.mono }] ∧ t.mesh = s.mesh.eraseIdx k)) ∧
    (x.stage = 1 → x.continues = false → x.pkt.cls ≠ 0 → x.pkt.cls ≠ 5 → s.fld fFabCtrlPromoteAge ≠ 0 →
      x.since + 1000 * s.fld fFabCtrlPromoteAge ≤ s.mono → ∃ t, exec (.enteringPromotion idx) s = .next t ∧
        t.fabWait = s.fabWait.set idx { x with stage := 3 } ∧ t.fld fFabPromotedCount = (s.fld fFabPromotedCount + 1) % 2 ^ 64)) ∧
  (∀ (port : Fin 16) (idx : Nat) (x : Packet) (since : Nat) (s : State), (s.port port.val).units[idx]? = some (x, since) → s.dev = .up → since + 1000 ≤ s.mono →
    ∃ t, exec (.gatewayReadRepresent port idx) s = .next t ∧ t.mesh = s.mesh ++ [{ x with flits := List.replicate x.flits.length 0, copy := false }] ∧
      (t.port port.val).units = (s.port port.val).units.eraseIdx idx)

/-- Where a packet of a class other than escape and control goes (R309, R316, R317, R318): the lowest dimension in which its destination's coordinate
differs from the device's is looked up in FAB_RT for the packet's epoch; of the entry's ports that FAB_PORTMAP gives that dimension and direction and
that are up, the one of least cost 2·L + P is taken, a tie going to the tied port at the place that the devices' numbers give; one that would turn to
a lower dimension or back in its own is out of order. That a port receives what travels the other way, and how levels are taken, are the model's
readings (log entries 42 and 47). -/
def Obligations.RouteChoice : Prop :=
  ∀ (inPort : Nat) (x : FabPkt) (s : State),
    let width (i : Nat) : Nat := fieldOf (s.reg fFabDimsNdims.off) (4 * i + 2) 4
    let coord (v i : Nat) : Nat := v / 2 ^ ((List.range i).map width).sum % 2 ^ width i
    let agrees (i : Nat) : Prop := coord x.dstDev i = coord (s.fld fFabIdDeviceId) i
    let entry (i : Nat) : Word := s.reg (fFabRtDir.off + 0x20000 * (if x.epoch then 1 else 0) + 0x8000 * i + 8 * coord x.dstDev i)
    let mapped (p i d : Nat) : Prop := let v := fieldOf (s.reg fFabPortmapPort.off) (4 * p) 4
      v.testBit 3 = true ∧ v % 4 = i ∧ v / 4 % 2 = d
    (s.fld fFabIdValid = 0 → s.nextHop inPort x = .unreachable) ∧
    (s.fld fFabIdValid = 1 → (∀ i ≤ s.fld fFabDimsNdims, agrees i) → s.nextHop inPort x = .here) ∧
    (∀ i ≤ s.fld fFabDimsNdims, s.fld fFabIdValid = 1 → ¬agrees i → (∀ j < i, agrees j) →
      let dir := (entry i).toNat % 4
      (s.idInRange (s.fld fFabIdDeviceId) = false ∨ dir = 0 → s.nextHop inPort x = .unreachable) ∧
      (s.idInRange (s.fld fFabIdDeviceId) = true → dir = 1 ∨ dir = 2 →
        ∀ ports : List Nat, ports.Sublist (List.range 16) → (∀ p, p ∈ ports ↔ p < 16 ∧ s.fabUp p = true ∧ (entry i).getLsbD (2 + p) = true ∧ mapped p i (dir - 1)) →
        let cost (p : Nat) : Nat := 2 * s.level p x.cls + s.partnerLevel p x.cls
        let tied := ports.filter (fun p => ports.all (fun q => decide (cost p ≤ cost q)))
        (ports = [] → s.nextHop inPort x = .unreachable) ∧
        (∀ q : Nat, tied[(Nat.xor x.srcDev x.dstDev) % tied.length]? = some q →
          (16 ≤ inPort ∨ (fieldOf (s.reg fFabPortmapPort.off) (4 * inPort) 4).testBit 3 = false → s.nextHop inPort x = .out q false) ∧
          (∀ j d : Nat, inPort < 16 → mapped inPort j d → s.nextHop inPort x =
            if i < j ∨ i = j ∧ d = dir - 1 then .disorder else .out q (decide (i = j)))) ∧
        (ports ≠ [] → tied ≠ [])))

/-- Upkeep of the fabric (R327 to R331): routing entries of the version not in force are written while idle; an epoch switch is armed, made and settled;
congestion maps and time are sent and taken in, a time packet with the time at which it came; the loss of the time parent holds the counter over. -/
def Obligations.FabricUpkeep : Prop :=
  (∀ s : State, s.dev = .up →
    (∀ (ver : Fin 2) (dim : Fin 4) (coord : Fin 4096) (v : Word), let a := fFabRtDir.off + 0x8000 * (4 * ver.val + dim.val) + 8 * coord.val
      ∃ t, exec (.fabRtWrite ver dim coord v) s = .next t ∧
      (ver.val ≠ s.fld fFabEpochBit → s.fld fFabEpochIdle = 1 → (t.reg a).toNat = v.toNat % 2 ^ 18 ∧ ∀ b, b ≠ a → t.reg b = s.reg b) ∧
      (ver.val = s.fld fFabEpochBit ∨ s.fld fFabEpochIdle = 0 → t.reg a = s.reg a ∧ t.fld fFabEpochWrErr = 1)) ∧
    (∀ time : Word, exec (.fabEpochAtWrite time) s = .next { s with epoch := ⟨some (time.toNat, decide (time.toNat < s.time)), s.mono, s.epoch.switched⟩ }) ∧
    (∀ (at_ : Nat) (past : Bool), s.epoch.armed = some (at_, past) → at_ ≤ s.time → s.mono ≠ s.epoch.armedAt → ∃ t, exec .epochSwitch s = .next t ∧
      t.fld fFabEpochBit = 1 - s.fld fFabEpochBit ∧ t.fld fFabEpochFmEpoch = s.fld fFabEpochStagedEpoch ∧ t.fld fFabEpochIdle = 0 ∧
      t.fld fFabEpochLate = (if past then 1 else s.fld fFabEpochLate) ∧ t.epoch = ⟨none, s.epoch.armedAt, s.mono⟩) ∧
    (s.fld fFabEpochIdle = 0 → s.epoch.switched + 64000 * min 160 (s.fld fFabCtrlMaxLife) ≤ s.mono → ∃ t, exec .epochIdle s = .next t ∧
      t.fld fFabEpochIdle = 1 ∧ t.fld fFabEpochBit = s.fld fFabEpochBit) ∧
    (s.fld fFabTimeParentEn = 1 → s.fld fFabTimeLocked = 1 ∨ s.fld fTimeStatusHoldover = 0 → let p := s.fld fFabTimeParent
      s.fabUp p = false ∨ (s.port p).ttAt + 40000 * s.fld fFabTimeTtInterval ≤ s.mono → ∃ t, exec .timeParentLoss s = .next t ∧
        t.fld fFabTimeLocked = 0 ∧ t.fld fTimeStatusHoldover = 1 ∧ Note.timeParentLost ∈ t.notes ∧ t.fld fTimeRateRate = s.fld fTimeRateRate)) ∧
  (∀ (port : Fin 16) (s : State), let p := port.val
    let q := s.port p
    (s.fabUp p = true → s.routed = true → q.cmapTx + 1000 * s.fld fFabCtrlCmapInterval ≤ s.mono → ∃ t, exec (.cmapSend port) s = .next t ∧
      (t.port p).cmapTx = s.mono ∧ t.cores = s.cores) ∧
    (s.fabUp p = true → q.cmapAt + 4000 * s.fld fFabCtrlCmapInterval ≤ s.mono → ∃ t, exec (.cmapStale port) s = .next t ∧
      t.fld (fldAt fFabCmapPartner (8 * p)) = 0xFFFF ∧ t.ports = s.ports) ∧
    (∀ sub : Fin 40, s.fabUp p = true → s.routed = true → q.resetAt = none → q.ttTx + 10000 * s.fld fFabTimeTtInterval ≤ s.mono → ∃ t, exec (.timeTransferSend port sub) s = .next t ∧
      (t.port p).ttTx = s.mono ∧ (t.port p).ttLast = q.ttLast) ∧
    (∀ (idx : Nat) (x : FabPkt), s.dev = .up → q.arrived[idx]? = some x → s.tooOld x.injectUs = false →
      (∀ (l : List (List Nat)) (i d : Nat), x.body = .cmap l → s.portDim p = some (i, d) → ∃ t, exec (.cmapReceive port idx) s = .next t ∧
        (t.port p).cmapAt = s.mono ∧ (t.port p).arrived = q.arrived.eraseIdx idx ∧ ∀ cls < 8, (∀ y ∈ l, y.length = 8) → 2 * i + d < l.length →
          fieldOf (t.reg (fFabCmapPartner.off + 8 * p)) (2 * cls + 16) 2 = (l.getD (2 * i + d) []).getD cls 0 % 4) ∧
      (∀ (sent : Nat) (sub : Fin 40), x.body = .time sent none → ∃ t, exec (.timeTransferReceive port idx sub) s = .next t ∧
        (t.port p).ttLast = some ⟨sent, stampAt (q.cameAt idx) sub.val (-(signedOf 16 (s.pfld p fPortPtpRxAdjAdj)))⟩ ∧ (t.port p).ttAt = s.mono ∧
        (t.port p).arrived = q.arrived.eraseIdx idx ∧ t.rim = s.rim)))

/-! ## Management -/

/-- Frames, sessions and status (R341 to R343, R456): over I3C, SETDASA at the static address gives the target its dynamic address, at which private
transfers are frames; a frame on another UDP port or of a session that is not open does nothing or is counted; a repeated request gets its kept reply,
one out of sequence a refusal, and the next in sequence is queued; requests held up by a gap are discarded after 100 ms; a session opens on a valid
signature and ends when closed; STATUS is answered with the device's condition. The payloads of SESSION_OPEN and STATUS and the treatment of gaps are
the model's choices and readings (log entries 98, 101, 95 and 97). -/
def Obligations.ManagementFrames : Prop :=
  (∀ (iface : Fin 2) (udp : Fin 65536) (bytes : List Byte) (s : State), let h := frameHead bytes
    let p := bytes.drop 16
    (iface.val = 0 → udp.val ≠ s.fld fScrMgmtCtrlUdpPort → exec (.mgmtFrameReceive iface udp bytes) s = .next s) ∧
    (iface.val = 1 → bytes.length ≠ 1 → udp.val ≠ s.island.i3c → exec (.mgmtFrameReceive iface udp bytes) s = .next s) ∧
    (∀ b : Byte, iface.val = 1 → udp.val = 0x4C → bytes = [b] → s.dev ≠ .off →
      exec (.mgmtFrameReceive iface udp bytes) s = .next { s with island := { s.island with i3c := b.toNat / 2 } }) ∧
    (iface.val = 1 ∧ udp.val = s.island.i3c ∧ udp.val ≠ 0 ∨ iface.val = 0 ∧ udp.val = s.fld fScrMgmtCtrlUdpPort → 16 ≤ bytes.length → s.dev = .up → 2 ≤ s.fld fRstStatusPhase →
      (h.session ≠ 0 → h.session ≤ 4 → s.scribe.sessions.look h.session none = none →
        ∃ t, exec (.mgmtFrameReceive iface udp bytes) s = .next t ∧ t.fld fScrAuthFailCount = (s.fld fScrAuthFailCount + 1) % 2 ^ 64 ∧ t.scribe = s.scribe) ∧
      (h.session = 0 → let x := s.session iface.val 0
        let reply (status : Nat) (detail : List Byte) : State :=
          { s with scribe := { s.scribe with sent := some ⟨iface.val, 0, h.seq, h.opcode, status, detail⟩ } }
        (∀ o, headBad h p = some o → exec (.mgmtFrameReceive iface udp bytes) s = .next (reply 2 (detailWord o))) ∧
        (headBad h p = none →
          (∀ k, x.kept.find? (fun k => k.seq = h.seq) = some k →
            exec (.mgmtFrameReceive iface udp bytes) s = .next { s with scribe := { s.scribe with sent := some k } }) ∧
          (x.kept.find? (fun k => k.seq = h.seq) = none →
            (x.last + 64 < h.seq → x.next ≤ h.seq → exec (.mgmtFrameReceive iface udp bytes) s = .next (reply 4 (detailWord x.last))) ∧
            (h.seq = x.next → h.seq ≤ x.last + 64 → x.waiting = [] → s.scribe.reqs = [] → s.barred ⟨iface.val, 0, h.seq, h.opcode, p, s.mono⟩ = none →
              ∃ t, exec (.mgmtFrameReceive iface udp bytes) s = .next t ∧ t.scribe.reqs = [⟨iface.val, 0, h.seq, h.opcode, p, s.mono⟩] ∧
                (t.session iface.val 0).next = x.next + 1 ∧ t.rim = s.rim)))))) ∧
  (∀ (iface : Fin 2) (n : Fin 5) (s : State), s.dev = .up → (∃ w ∈ (s.session iface.val n.val).waiting, w.1 + 100000000 ≤ s.mono) →
    exec (.sequenceGapTimeout iface n) s = .next (s.setSession iface.val n.val { s.session iface.val n.val with waiting := [] })) ∧
  (∀ (fresh : Nat) (p : List Byte) (s : State), s.payload 0x01 = some p → s.dev = .up →
    (s.freeSession = none → ∃ u : State, exec (.sessionOpen fresh) s = .next (u.answer 0x01 1 []) ∧ u.scribe.keyLocked = true) ∧
    (∀ n, s.freeSession = some n → p.length = 192 →
      (s.fld fScrStatusMcKeyValid = 0 ∨ Config.verifies 0 s.mcKey (p.take 96) (p.drop 96) = false →
        ∃ u : State, exec (.sessionOpen fresh) s = .next (u.answer 0x01 3 []) ∧ u.fld fScrAuthFailCount = (s.fld fScrAuthFailCount + 1) % 2 ^ 64 ∧
          u.scribe.keyLocked = true ∧ u.scribe.sessions = s.scribe.sessions) ∧
      (s.fld fScrStatusMcKeyValid = 1 → Config.verifies 0 s.mcKey (p.take 96) (p.drop 96) = true → ∃ u : State,
        exec (.sessionOpen fresh) s = .next (u.answer 0x01 0 (detailWord n ++ Config.openReply (p.take 96) fresh)) ∧ u.scribe.keyLocked = true ∧
        u.scribe.sessions.look n none = some ⟨Config.sessionKey (p.take 96) fresh, 0, 1, [], []⟩ ∧ u.fld fScrStatusSessions = u.scribe.sessions.length % 8))) ∧
  (∀ (r : MReq) (rest : List MReq) (s : State), s.scribe.reqs = r :: rest → s.dev = .up → r.opcode = 0x02 → ∃ u : State,
    exec .sessionClose s = .next u.settle ∧ u.scribe.sessions.look r.session none = none ∧ u.scribe.reqs = rest.filter (fun q => q.session != r.session) ∧
      u.scribe.sent = some ⟨r.iface, r.session, r.seq, 0x02, 0, []⟩) ∧
  (∀ s : State, s.asked 0x03 = true → s.dev = .up ∨ s.dev = .frozen →
    exec .status s = .next (s.answer 0x03 0 (detailWord s.statusWord ++ (s.failures.take 999).flatMap bytesOfWord)))

/-- Management accesses (R12, R14, R342, R344, R473, R475): a malformed request or one without the right is refused whole; otherwise its addresses are
read or written in order, and a window access that is lost on its way is answered with busy. A field written is taken by its type, and a write that
would change a locked field is ignored and logged; the two registers whose write has consequences elsewhere, FAB_TIME and PORT_ETH_MAC, are left to
R331 and R299. The key is written until it is locked, and a kick with bit 0 arms the watchdog. -/
def Obligations.ManagementAccesses : Prop :=
  (∀ (p : List Byte) (s : State), s.dev = .up →
    (s.payload 0x20 = some p →
      (∀ o upset slow, requestBad 8 p = some o → exec (.regRead slow upset) s = .next (s.answer 0x20 2 (detailWord o))) ∧
      (∀ upset slow, requestBad 8 p = none → (requestPlaces 8 p).all s.mayRead = false →
        exec (.regRead slow upset) s = .next (s.answer 0x20 5 (detailWord s.lifecycle))) ∧
      (∀ (a : Nat) (upset : List Upset), requestBad 8 p = none → requestPlaces 8 p = [.rim true a] → (requestPlaces 8 p).all s.mayRead = true →
        exec (.regRead none upset) s = .next ((upset.foldl State.upset s).answer 0x20 0 (bytesOfWord (s.rimShadow.look a 0) ++ bytesOfWord 0 ++ bytesOfWord 0)))) ∧
    (s.payload 0x21 = some p →
      (∀ o slow, requestBad 16 p = some o → exec (.regWrite slow) s = .next (s.answer 0x21 2 (detailWord o))) ∧
      (∀ slow, requestBad 16 p = none → (requestPlaces 16 p).all (s.mayWrite s.headIface) = false →
        exec (.regWrite slow) s = .next (s.answer 0x21 5 (detailWord s.lifecycle))) ∧
      (∀ x : Place, requestBad 16 p = none → requestPlaces 16 p = [x] → s.mayWrite s.headIface x = true → s.reachable x = true → s.wayWaits x = false →
        let y := s.pokeAt x (BitVec.ofNat 64 (numAt p 12 8))
        (y.1 = true → exec (.regWrite none) s = .next ((s.poke x (BitVec.ofNat 64 (numAt p 12 8))).answer 0x21 0 (bytesOfWord 0))) ∧
        (y.1 = false → x.isWindow = true → exec (.regWrite none) s = .next (y.2.answer 0x21 1 []))))) ∧
  (∀ (i : Fin 16) (addr v : Word) (a : Nat) (s : State), s.dev = .up → placeOf addr.toNat = some (.rim false a) → supervisorWrites (.rim false a) = true →
    s.writeActs a v = none → a ≠ fFabTimeParentEn.off →
    (0x2D0000 ≤ a → a % 0x1000 + 0x2D0000 < fPortEthMacEnable.off ∨ fPortEthMacEnable.off + 64 ≤ a % 0x1000 + 0x2D0000) →
    ∃ u : State, u.reg a = (writeReg rimRegs a (s.rimLocked a) (s.reg a) v).1 ∧ (∀ b, b ≠ a → u.reg b = s.reg b) ∧ u.cores = s.cores ∧
      exec (.registerWrite i addr v) s = .next (if (writeReg rimRegs a (s.rimLocked a) (s.reg a) v).2 then u.logLock (.rim false a) else u)) ∧
  (∀ (row : RegRow) (f : FieldRow) (off : Nat) (locked : Bool) (old v : Word), findReg rimRegs off = some row → f ∈ row.fields →
    fieldOf (writeReg rimRegs off locked old v).1 f.lo f.width = (match f.access with
      | .rw => fieldOf v f.lo f.width
      | .w1c => fieldOf (old &&& ~~~v) f.lo f.width
      | .rwl => if locked then fieldOf old f.lo f.width else fieldOf v f.lo f.width
      | _ => fieldOf old f.lo f.width)) ∧
  (∀ (k : Fin 12) (v : Word) (s : State), s.dev = .up → let a := fScrMcKeyKey.off + 8 * k.val
    (s.scribe.keyLocked = false → ∃ t, exec (.scrMcKeyWrite k v) s = .next t ∧ t.reg a = v ∧ t.fld fScrStatusMcKeyValid = 1) ∧
    (s.scribe.keyLocked = true → ∃ t, exec (.scrMcKeyWrite k v) s = .next t ∧ t.reg a = s.reg a)) ∧
  (∀ (n : Fin 16) (v : Word) (s : State), s.dev = .up →
    (v.getLsbD 0 = true → ∃ t, exec (.watchdogKick n v) s = .next t ∧ t.fld (fldAt fScrWdogCtrlArmed (8 * n.val)) = 1 ∧ (t.wdog n.val).kicked = s.mono) ∧
    (v.getLsbD 0 = false → exec (.watchdogKick n v) s = .next s))

/-- Images, licences and the repair list (R2, R396, R406 to R409, R417): chunks are staged, the one at offset 0 beginning a load; a container is applied,
or rejected whole with its reason; an aborted load is gone; what waits for credits on the way to the cores that stage it waits; a colophon is accepted
for this device only; the repair list is taken before the device image is. The order of sections in a container is the model's choice (log entry 76). -/
def Obligations.Images : Prop :=
  ∀ (p : List Byte) (s : State), s.dev = .up → let target := numAt p 0 2
    (s.payload 0x10 = some p → 12 ≤ p.length → numAt p 2 2 = 0 →
      (∀ st d, s.targetRefused target = some (st, d) → exec .imageChunk s = .next (s.answer 0x10 st (detailOf d))) ∧
      (s.targetRefused target = none →
        let off := numAt p 4 8
        let data := p.drop 12
        let kept (m : Mem) : Mem := (byteWrites (8 * Config.stageWord.val + off) ((data.take (48 * 2 ^ 20 - off)).map (fun b => (some b, false)))).foldl Mem.write m
        (s.stageWaits target (off + data.length) = true → exec .imageChunk s = .next s) ∧
        (s.stageWaits target (off + data.length) = false →
          (off = 0 → ∃ u : State, exec .imageChunk s = .next (u.answer 0x10 0 []) ∧ u.images.loads.look target none = some ⟨data.length⟩ ∧
            (target = 0 → ∃ m, u.scribe.sram = kept m)) ∧
          (∀ l : Load, off ≠ 0 → s.images.loads.look target none = some l → ∃ u : State, exec .imageChunk s = .next (u.answer 0x10 0 []) ∧
            u.images.loads.look target none = some ⟨max l.extent (off + data.length)⟩ ∧ (target = 0 → u.scribe.sram = kept s.scribe.sram ∧ u.cores = s.cores))))) ∧
    (∀ l : Load, s.payload 0x11 = some p → 2 ≤ p.length → s.targetRefused target = none → s.images.loads.look target none = some l → s.stageWaits target l.extent = false →
      let x := s.stageRead target (s.loaded target)
      let c := readContainer (x.1.map (·.1))
      let spoiled := x.1.any (·.2)
      (target = 0 → worst (s.headFailures c 0 l.extent (48 * 2 ^ 20) spoiled ++ deviceFailures c) = none → ∃ u : State,
        exec .imageCommit s = .next (u.answer 0x11 0 []) ∧ u.images.device = true ∧ u.images.loads.look 0 none = none ∧
        (s.fld fRstStatusMrm = 1 → u.fld fRstStatusMrm = 0 ∧ u.fld fRstStatusPhase = 4)) ∧
      (∀ reason sec : Nat, target = 0 → worst (s.headFailures c 0 l.extent (48 * 2 ^ 20) spoiled ++ deviceFailures c) = some (reason, sec) → ∃ u : State,
        exec .imageCommit s = .next (u.answer 0x11 0x15 (detailWord reason)) ∧ u.fld fRstLoadLastReason = reason % 2 ^ fRstLoadLastReason.width ∧
        u.fld fRstLoadLastValid = 1 ∧ u.images.device = s.images.device ∧ u.cores = s.cores) ∧
      (1 ≤ target → s.rgn (target - 1) fRgnStatusState = 1 → (∀ n ∈ s.rectClusters (target - 1), s.hubWaits (scribeHub n) n = false) → let t := x.2.siteOf (target - 1)
        let fails := x.2.headFailures c 1 l.extent (48 * t.width * t.height * 64 * 2 ^ 20) spoiled ++ x.2.needFailures t c ++
          (x.2.dropLoad target).bodyFailures t c
        (worst fails = none → ∃ u : State, exec .imageCommit s = .next (u.answer 0x11 0 []) ∧ (u.rgnSt (target - 1)).image = true ∧
          u.rgn (target - 1) fRgnCfgCompat = c.compat % 2) ∧
        (∀ reason sec : Nat, worst fails = some (reason, sec) → ∃ u : State, exec .imageCommit s = .next (u.answer 0x11 0x15 (detailWord reason)) ∧
          u.fld fRstLoadLastReason = reason % 2 ^ fRstLoadLastReason.width ∧ u.fld fRstLoadLastTarget = target % 2 ^ fRstLoadLastTarget.width ∧
          ∀ i, (u.core i).ctl.code = (s.core i).ctl.code ∧ (u.core i).groups = (s.core i).groups ∧ (u.core i).entry = (s.core i).entry))) ∧
    (s.payload 0x12 = some p → 2 ≤ p.length → s.targetRefused target = none → ∃ u : State, exec .imageAbort s = .next (u.answer 0x12 0 []) ∧
      u.images.loads.look target none = none ∧ (s.images.loads.look target none ≠ none → 1 ≤ target → s.rgn (target - 1) fRgnStatusState = 1 →
        u.rgn (target - 1) fRgnStatusState = 5)) ∧
    (s.payload 0x13 = some p → colophonBad p = none →
      let good := Config.wiarnSigned 0 (p.take 96) (p.drop 96) = true ∧ BitVec.ofNat 64 (numAt p 8 8) = Config.eui
      (¬good → ∃ (u : State) (check : Nat), exec .colophon s = .next (u.answer 0x13 0x14 (detailWord check)) ∧ u.lic = s.lic) ∧
      (good → numAt p 6 1 = 0 → ∃ u : State, exec .colophon s = .next (u.answer 0x13 0 []) ∧
        u.lic = { s.lic with tenancy := s.lic.tenancy || decide (numAt p 7 1 = 1) }) ∧
      (good → numAt p 6 1 = 1 → ∃ u : State, exec .colophon s = .next (u.answer 0x13 0 []) ∧ u.lic = { s.lic with pq := true })) ∧
    (s.payload 0x14 = some p → s.images.device = false → s.fld fRstStatusPhase ≤ 3 →
      (∀ o, listBad p = some o → exec .repairList s = .next (s.answer 0x14 2 (detailWord o))) ∧
      (listBad p = none → ∃ u : State, exec .repairList s = .next (u.answer 0x14 0 []) ∧ u.images.listed = true ∧
        u.images.repairs = (List.range (p.length / 8 - 1)).map (fun i => BitVec.ofNat 64 (numAt p (8 * i + 8) 8))))

/-- The Scribe's work for others (R208, R307, R336 to R340, R344, R394, R412, R413): a ready region's binding is set or refused; the fabric-manager role
is taken and obeyed; a forwarded reset resets its region only at its generation; DEVICE_RESET resets, with the lifecycle change that the boot ROM is
then to carry out where it may; frames are taken in order; an expired watchdog resets its core, or the device. Payload contents given as operands, who
may enable the fabric manager, and the target state of DEVICE_RESET are the model's choices (log entries 33, 102 and 75). -/
def Obligations.ScribeWork : Prop :=
  (∀ s : State, s.serving = true →
    (∀ (f : Scribe → Scribe) (region : Fin 64) (binding : Fin 256) (dev : Fin 262144) (rgn : Fin 64) (gen : Fin 256) (x y : Fin 128) (ep : Fin 64) (cls : Fin 8), s.asked 0x23 = true →
      Agrees (fun a => decide (a = fFabIdValid.off) || decide (a = fRgnCfgEnable.off + 0x40 * region.val)) s →
      s.scrTurn ⟨region.val, s.headSince, none, true⟩ (s.scrWaits (some region.val)) = some f → let c := Instr.bindingSet region binding dev rgn gen x y ep cls
      (s.rgn region.val fRgnStatusState ≠ 1 → exec c s = .next ((s.scrServed f).answer 0x23 0x12 (detailWord region.val))) ∧
      (s.rgn region.val fRgnStatusState = 1 →
        ((cls.val ≠ 2 ∧ cls.val ≠ 3 ∧ cls.val ≠ 4) ∨ s.fld fFabIdValid = 0 ∨ s.idInRange dev.val = false →
          exec c s = .next ((s.scrServed f).answer 0x23 0x16 (detailWord binding.val))) ∧
        (cls.val = 2 ∨ cls.val = 3 ∨ cls.val = 4 → s.fld fFabIdValid = 1 → s.idInRange dev.val = true → ∃ u : State, exec c s = .next (u.answer 0x23 0 []) ∧
          u.bindings.look (256 * region.val + binding.val) none = some ⟨dev.val, rgn.val, gen.val, x.val, y.val, ep.val, cls.val⟩ ∧
          (∀ k, k ≠ 256 * region.val + binding.val → u.bindings.look k none = s.bindings.look k none) ∧ u.cores = s.cores))) ∧
    (∀ (devices : List Nat) (sends : List FmSend), s.asked 0x40 = true → s.fld fFabIdValid = 1 → Agrees (fun a => decide (a = fFabIdValid.off)) s →
      (∀ x ∈ sends, x.route ≠ []) → let sent := sends.filter (fun x => (decide (x.eui ∈ devices) || decide (x.eui = Config.eui.toNat)) && x.writes.all (fun w => fmRegister w.1.toNat))
      ∃ u : State, exec (.fmEnable devices sends) s = .next (u.answer 0x40 0 []) ∧ u.fld fScrStatusFmRole = 1 ∧ u.scribe.managed = devices ∧
        u.fabWait.map (fun w => w.pkt.body) = s.fabWait.map (fun w => w.pkt.body) ++
          sent.map (fun x => FabBody.scribe Config.eui (x.writes.flatMap (fun w => bytesOfWord w.1 ++ bytesOfWord w.2)))) ∧
    (∀ p : List Byte, s.payload 0x41 = some p → p.length = 8 → ∃ u : State, exec .fmTrust s = .next (u.answer 0x41 0 []) ∧
      u.reg fScrFmEuiEui.off = BitVec.ofNat 64 (numAt p 0 8) ∧ u.fld fScrStatusFmNamed = (if BitVec.ofNat 64 (numAt p 0 8) = 0 then 0 else 1)) ∧
    (∀ (idx : Nat) (x : FabPkt) (source : Word) (bytes : List Byte) (writes : List (Word × Word)) (reset : Bool), s.scribe.escape[idx]? = some x → x.kind = 8 →
      x.body = .scribe source bytes →
      (s.trusts source = false → ∃ t, exec (.fmCommandArrival idx writes reset) s = .next t ∧ t.fld fScrAuthFailCount = (s.fld fScrAuthFailCount + 1) % 2 ^ 64 ∧
        t.scribe.escape = s.scribe.escape.eraseIdx idx ∧ t.ports = s.ports) ∧
      (s.trusts source = true → reset = true → ∃ t, exec (.fmCommandArrival idx writes reset) s = .next t ∧ t.dev = .inReset ∧ t.fld fAoiCauseLast = 7) ∧
      (s.trusts source = true → reset = false → writes = [] → ∃ t, exec (.fmCommandArrival idx writes reset) s = .next t ∧
        t.scribe.escape = s.scribe.escape.eraseIdx idx ∧ t.rim = s.rim)) ∧
    (∀ (idx : Nat) (x : FabPkt) (source : Word), s.scribe.escape[idx]? = some x → x.body = .jobReset source → let r := x.dstRegion % 64
      ∃ t, exec (.jobResetArrival idx) s = .next t ∧ t.scribe.acked = s.scribe.acked ++ [(x.srcDev, r)] ∧
        (s.rgn r fRgnCfgEnable = 0 ∨ s.rgn r fRgnStatusGeneration ≠ x.gen → t.cores = s.cores ∧ t.rgns = s.rgns) ∧
        (s.rgn r fRgnCfgEnable = 1 → s.rgn r fRgnStatusGeneration = x.gen → s.rgn r fRgnStatusState = 1 ∨ s.rgn r fRgnStatusState = 2 →
          t.rgn r fRgnStatusState = (if s.rgn r fRgnStatusState = 1 then 5 else 3)))) ∧
  (∀ s : State, s.asked 0x50 = true → s.dev = .up ∨ s.dev = .frozen →
    (∀ eui, ∃ t, exec (.deviceReset none eui) s = .next t ∧ t.dev = .inReset ∧ t.life = s.life ∧ t.fld fAoiCauseLast = 2) ∧
    (∀ (g : Fin 5) (eui : Option Word) (v : Nat), s.lifeTo g.val eui = some v → ∃ t, exec (.deviceReset (some g) eui) s = .next t ∧ t.dev = .inReset ∧
      t.life = s.life ∧ t.blowing = some v ∧ t.fld fAoiCauseLast = 2) ∧
    (∀ (g : Fin 5) (eui : Option Word), s.lifeTo g.val eui = none → exec (.deviceReset (some g) eui) s = .next (s.answer 0x50 5 (detailWord s.lifecycle)))) ∧
  (∀ s : State, s.dev = .up →
    (∀ (f : ScrFrame) (rest : List ScrFrame), s.scrFrames = f :: rest → let taken := (s.fld fScrFramesInCount + 1) % 2 ^ 64
      (∃ t, exec (.scribeFrameReceive .discard) s = .next t ∧ t.scrFrames = rest ∧ t.fld fScrFramesInCount = taken ∧
        t.fld fScrFramesDropCount = (s.fld fScrFramesDropCount + 1) % 2 ^ 64) ∧
      (∀ (link : Fin 8) (bytes : List Byte) (tag : Option (Fin 65536 × Fin 40)), f.port < 16 → s.etherUp f.port link.val = false → (s.port f.port).scribeQ = [] →
        ∃ t, exec (.scribeFrameReceive (.answer link bytes tag)) s = .next t ∧ t.scrFrames = rest ∧ t.fld fScrFramesInCount = taken ∧
          ((t.port f.port).scribeQ.map (fun y => (y.link, y.bytes))) = [(link.val, bytes)]) ∧
      (∀ k : Fin 1024, s.cli k.val fCliCfgValid = 1 → ∃ t, exec (.scribeFrameReceive (.pass k)) s = .next t ∧ t.scrFrames = rest ∧ t.fld fScrFramesInCount = taken ∧
        t.scribe.work = s.scribe.work ++
          [⟨s.cli k.val fCliCfgRegion, s.mono, .pass f.port ⟨k.val, s.cli k.val fCliCfgRegion, 2, f.bytes, f.time / 4, s.mono, none⟩⟩])) ∧
    (∀ (port : Fin 16) (link : Fin 8) (bytes : List Byte), s.etherUp port.val link.val = true → (s.port port.val).scribeQ = [] →
      ∃ t, exec (.scribeFrameReceive (.own port link bytes none)) s = .next t ∧ t.scrFrames = s.scrFrames ∧ (t.port port.val).scribeQ = [] ∧
        (t.port port.val).sentFrame = some (link.val, s.wireFrame port.val bytes)) ∧
    (∀ b : Option (Fin 64), s.scribe.work = [] → exec (.scribeFrameReceive (.serve b)) s = .next s)) ∧
  (∀ (n : Fin 16) (s : State), s.dev = .up → let w := s.wdog n.val
    (∀ acks : Bool, s.fld (fldAt fScrWdogCtrlArmed (8 * n.val)) = 1 → w.resetting = none →
      w.kicked + 1000000 * 2 ^ s.fld (fldAt fScrWdogCtrlTimeout (8 * n.val)) ≤ s.mono →
      let twice := n.val = 0 ∨ ∃ t ∈ w.expired, s.mono ≤ t + 10000000000
      (twice → ∃ t, exec (.watchdogExpiry n acks) s = .next t ∧ t.dev = .inReset ∧ t.fld fAoiCauseLast = 3) ∧
      (¬twice → ∃ t, exec (.watchdogExpiry n acks) s = .next t ∧ t.dev = .up ∧ t.scribe.irqs = s.scribe.irqs ++ [n.val] ∧
        t.fld fScrWdogExpiredCount = (s.fld fScrWdogExpiredCount + 1) % 2 ^ 64 ∧ (t.wdog n.val).resetting = (if acks then none else some s.mono))) ∧
    (∀ since : Nat, w.resetting = some since → since + 1000000 ≤ s.mono → ∃ t, exec (.scribeCoreBlockResetTimeout n) s = .next t ∧
      (t.wdog n.val).resetting = none ∧ t.fld (fldAt fScrWdogCtrlArmed (8 * n.val)) = 0 ∧ (t.fld fScrStatusCoresUp).testBit n.val = false))

/-! ## Repair, resets and observation -/

/-- Repair (R417 to R423, R427, R432): the oldest report leaves its core, and where no down link discards it on its way, one of a checksum failure raises
the core's score by one, up to 15, and fails the core at the limit; every score halves when a window of hours has passed; the running region of a
failed core begins to stop; once every region that uses its cluster is ready, a failed core is done with by the map, which records it in its row where
the row had no failure; a core without a pass in time makes its region overdue; a vote takes the verdict of the primary's copy and those of its
mirrors: agreement of all, correction of one dissenter of three, failure of the primary that two mirrors outvote, and no majority of two; agreement is
counted. The verdict where no majority is stated, and the moment of a remap, are the model's readings (log entries 79 and 81). -/
def Obligations.RepairAndVotes : Prop :=
  (∀ (i : CoreId) (s : State), s.dev = .up → let c := s.core i.val
    (∀ (r : Report) (rest : List Report), c.reports = r :: rest → s.hubWaits (clusterOfCore i.val) (scribeHub (clusterOfCore i.val)) = false →
      ∃ t, exec (.detectedErrorReport i) s = .next t ∧ (t.core i.val).reports = rest ∧
      (r.kind = .checksum → (s.send (clusterOfCore i.val) (scribeHub (clusterOfCore i.val))).1 = true → (t.core i.val).fld fCoreSuspectScore = min 15 (c.fld fCoreSuspectScore + 1) ∧
        (s.fld fRstRepairCtrlSuspectLimit ≤ min 15 (c.fld fCoreSuspectScore + 1) → (t.core i.val).fld fCoreSuspectFailed = 1))) ∧
    (∀ r x : Nat, c.fld fCoreSuspectFailed = 1 → c.fld fCoreCheckRole ≠ 2 → s.regionOf (clusterOfCore i.val) = some r → s.logicalX i.val = some x →
      s.rgn r fRgnStatusState = 2 → ∃ t, exec (.failedCoreProcedure i) s = .next t ∧ t.rgn r fRgnStatusState = 3) ∧
    (i.val ∈ s.repair.failed → (∀ r ∈ s.regionsUsing (clusterOfCore i.val), s.rgn r fRgnStatusState = 1) →
      Agrees (fun a => (repairCores (rowOf i.val)).any (fun j => decide (a = (rowReg (rowOf j) fRstRowmapFailQx).off))) s → ∃ t, exec (.repairRemap i) s = .next t ∧
      i.val ∉ t.repair.failed ∧ (∃ short, Note.repairEntry (coreEntry i.val) short ∈ t.notes) ∧
      (s.fld (rowReg (rowOf i.val) fRstRowmapFailQx) = 7 → t.fld (rowReg (rowOf i.val) fRstRowmapFailQx) = pxOf i.val % 7)) ∧
    (∀ r x : Nat, s.regionOf (clusterOfCore i.val) = some r → s.logicalX i.val = some x → s.passedWithin (3600 * s.fld fScrExCtrlCadenceH) i.val = false →
      s.timeBase.began + 3600 * s.fld fScrExCtrlCadenceH * 10 ^ 9 ≤ s.mono → s.rgn r fRgnCheckStatusExOverdue = 0 →
      ∃ t, exec (.exemplarOverdue i) s = .next t ∧ t.rgn r fRgnCheckStatusExOverdue = 1 ∧ Note.regionOverdue r ∈ t.notes)) ∧
  (∀ s : State, s.dev = .up → s.repair.halved + s.fld fRstRepairCtrlWindowH * 3600 * 10 ^ 9 ≤ s.mono → ∃ t, exec .suspectScoreHalving s = .next t ∧
    t.repair.halved = s.mono ∧ ∀ i, (t.core i).fld fCoreSuspectScore = (s.core i).fld fCoreSuspectScore / 2) ∧
  (∀ (fab : Bool) (idx r i since : Nat) (own : Digest) (s : State), s.dev = .up → s.heldPacket fab idx = some (r, i, since) → s.heldDigest fab idx = some own →
    (∀ digests : List Digest, digests.length = (s.mirrorsOf r i).length → (∀ d ∈ digests, d.kind = own.kind ∧ d.ep = own.ep ∧ d.seq = own.seq) →
      exec (.checkVote fab idx () digests) s = .next (s.vote r i fab idx (verdict own ((s.mirrorsOf r i).zip (digests.map some))))) ∧
    (∀ digests : List (Option Digest), digests.length = (s.mirrorsOf r i).length → none ∈ digests → (∀ d, some d ∈ digests → d.kind = own.kind ∧ d.ep = own.ep ∧ d.seq = own.seq) → since + 1000 * s.rgn r fRgnCheckVoteLimit ≤ s.mono →
      exec (.voteDigestTimeout fab idx () digests) s = .next (s.vote r i fab idx (verdict own ((s.mirrorsOf r i).zip digests)))) ∧
    (s.vote r i fab idx .agree).rgn r fRgnVotesAgreeCount = (s.rgn r fRgnVotesAgreeCount + 1) % 2 ^ fRgnVotesAgreeCount.width) ∧
  (∀ (own : Digest) (votes : List (Nat × Option Digest)), (verdict own votes = .agree ↔ ∀ v ∈ votes, v.2 = some own) ∧
    (∀ m n, ∀ d : Option Digest, d ≠ some own →
      verdict own [(m, some own), (n, d)] = .corrected [n] ∧ verdict own [(m, d), (n, some own)] = .corrected [m] ∧ verdict own [(m, d)] = .noMajority) ∧
    ∀ m n, ∀ d e : Digest, d ≠ own → e ≠ own → verdict own [(m, some d), (n, some e)] = if d = e then .primaryFails else .noMajority)

/-- Exemplars (R430 to R432): a staged record is accepted, in place of one of its identifier, or sets stage_err; the records are cleared together; a run
of a held record takes an idle core that no run has, is loaded and starts; a run outside regions ends when its cores have stopped, one has trapped or
halted, or its time is over, and passes where they only stopped, in time, with the expected digest of their output: it ends by a pass on each core, by
a repeat on the same cores, or, repeated, by the failure of its cores. The end and digest of a run are operands (log entry 82). -/
def Obligations.Exemplars : Prop :=
  ∀ s : State, s.serving = true →
    (let x := readRecord s.stagedRecord
      let others := s.repair.exemplars.filter (fun y => y.id != x.id)
      (s.recordOk s.stagedRecord = true → others.length < 64 → ∃ t, exec .exemplarCommit s = .next t ∧ t.repair.exemplars = others ++ [x] ∧
        t.fld fScrExStatusHeld = others.length + 1) ∧
      (s.recordOk s.stagedRecord = false ∨ 64 ≤ others.length → ∃ t, exec .exemplarCommit s = .next t ∧ t.repair = s.repair ∧ t.fld fScrExStatusStageErr = 1)) ∧
    (∃ t, exec .exemplarClearAll s = .next t ∧ t.repair.exemplars = [] ∧ t.fld fScrExStatusHeld = 0) ∧
    (∀ (id : Word) (i : CoreId), s.fld fScrExCtrlRunEn = 1 → (∃ y ∈ s.repair.exemplars, y.id = id) → (∀ x ∈ s.repair.runs, i.val ∉ x.cores) →
      s.idleCore i.val = true → ∃ t, exec (.exemplarRun id [i] none) s = .next t ∧ t.repair.runs = s.repair.runs ++ [⟨id, [i.val], false, none, s.mono⟩] ∧
        t.fld fScrExRunsCount = (s.fld fScrExRunsCount + 1) % 2 ^ 64) ∧
    (∀ (idx : Nat) (x : ExRun) (y : Exemplar), s.repair.runs[idx]? = some x →
      s.repair.exemplars.find? (fun y => decide (y.id = x.id)) = some y → x.region = none →
      let core (i : Nat) : Ctl := (s.core i).ctl
      let passes := (∀ i ∈ x.cores, (core i).stopped = true ∧ (core i).trapSeen = false ∧ (core i).halted = false) ∧ s.mono ≤ x.since + 1000 * y.runLimit ∧
        Config.sha384 (s.exOutput y x.cores) = y.expected
      let ended := (∀ i ∈ x.cores, (core i).stopped = true) ∨ (∃ i ∈ x.cores, (core i).trapSeen = true ∨ (core i).halted = true) ∨ x.since + 1000 * y.runLimit < s.mono
      (¬ended → exec (.exemplarRunEnd idx () ()) s = .next s) ∧
      (passes → ∃ t, exec (.exemplarRunEnd idx () ()) s = .next t ∧ t.repair.runs = s.repair.runs.eraseIdx idx ∧
        ∀ i ∈ x.cores, (t.core i).fld fCoreExLastValid = 1) ∧
      (ended → ¬passes → x.again = false → ∃ t, exec (.exemplarRunEnd idx () ()) s = .next t ∧
        t.repair.runs = s.repair.runs.set idx { x with again := true, since := s.mono } ∧ t.fld fScrExFailsCount = (s.fld fScrExFailsCount + 1) % 2 ^ 64 ∧
        t.fld fScrExRunsCount = (s.fld fScrExRunsCount + 1) % 2 ^ 64) ∧
      (ended → ¬passes → x.again = true → ∃ t, exec (.exemplarRunEnd idx () ()) s = .next t ∧ t.repair.runs = s.repair.runs.eraseIdx idx ∧
        ∀ i ∈ x.cores, (t.core i).fld fCoreSuspectFailed = 1))

/-- Resets (R385, R386, R388 to R390, R457, R458): at power-up all but the fuses, the waiting commands and the island's pins is as after power-on, and
FAULT_N is asserted; coolant that is up a second raises the rails of a device in reset; coolant lost, or a rail that does not come up, stops the
device with its cause, which a further one in the stop follows in the log; a restart is done when coolant and temperature permit and else refused and
reported; a reset by RESET_N or by command clears cores, clusters and mesh and records its cause, the log and the fuses staying; ten seconds of
RESET_N are latched. That these sequences are single steps is the model's choice (log entry 55). -/
def Obligations.PowerAndResets : Prop :=
  ∀ s : State,
    (∀ coolant resetN : Bool, ∃ i : Island,
      exec (.powerOn coolant resetN) s = .next { State.reset with
        dev := .inReset, life := s.life, lifeCopies := s.cutShort.lifeCopies, logBad := s.logBad, pending := s.pending, island := i } ∧
      i.coolant = coolant ∧ i.resetLow = !resetN ∧ i.pwrEn = (if coolant then 0x3FFF else 0) ∧ FaultCause.powerOn ∈ i.faults) ∧
    (s.dev ≠ .off → ∃ t, exec .coolantOkHigh s = .next t ∧ t.dev = s.dev ∧ t.island.coolantLong = true ∧
      t.island.pwrEn = (if s.dev = .inReset then 0x3FFF else s.island.pwrEn)) ∧
    (s.dev = .up → ∃ t, exec .coolantOkLow s = .next t ∧ t.island.coolant = false ∧ (s.island.pwrEn.testBit 0 = true → t.dev = .stopped ∧
      t.fld fPwrStatusStopCause = 1 ∧ t.island.pwrEn = 0 ∧ FaultCause.stop ∈ t.island.faults) ∧ (s.island.pwrEn.testBit 0 = false → t.dev = .up)) ∧
    (s.dev = .stopped → 4 ∉ s.island.causes → ∃ t, exec .coolantOkLow s = .next t ∧ t.dev = .stopped ∧ t.fld fAoiCauseLast = 4 ∧
      t.fld fAoiCausePrevious = s.fld fAoiCauseLast ∧ t.fld fPwrStatusStopCause = s.fld fPwrStatusStopCause) ∧
    (s.dev = .stopped → ∃ t, exec .islandRestart s = .next t ∧
      (s.island.coolantLong = true ∧ (∃ c, s.power.rimTemp = some c ∧ c + 10 < s.tripC) → t.dev = .inReset ∧ t.island.pwrEn = 0x3FFF ∧ t.island.thermTrip = false) ∧
      (¬(s.island.coolantLong = true ∧ ∃ c, s.power.rimTemp = some c ∧ c + 10 < s.tripC) → t.dev = .stopped ∧ t.island.refused = true ∧ Note.island .stop ∈ t.notes)) ∧
    (∀ (bus : Fin 13) (rail : Fin 12), s.dev = .inReset → s.island.pwrEn = 0x3FFF → bus.val < 12 ∨ rail.val < 4 →
      ∃ t, exec (.railRampTimeout bus rail) s = .next t ∧ t.dev = .stopped ∧ t.fld fPwrStatusStopCause = 3 ∧ FaultCause.rail ∈ t.island.faults) ∧
    (s.dev = .up ∨ s.dev = .frozen → ∃ t, exec .resetNAssert s = .next t ∧ t.dev = .inReset ∧ t.island.resetLow = true ∧ t.fld fAoiCauseLast = 1 ∧
      t.fld fAoiCausePrevious = s.fld fAoiCauseLast ∧ t.cores = [] ∧ t.clusters = [] ∧ t.mesh = [] ∧ t.log = s.log ∧ t.life = s.life ∧ Note.resetHeld ∈ t.notes) ∧
    (s.dev = .inReset → s.island.resetLow = true → s.island.heldDone = false → ∃ t, exec .resetNHeld s = .next t ∧ t.fld fAoiCauseHeldLatched = 1 ∧
      t.island.heldDone = true ∧ t.dev = .inReset ∧ Note.resetHeld ∈ t.notes) ∧
    (s.dev = .up → ∃ t, exec .rstDeviceReset s = .next t ∧ t.dev = .inReset ∧ t.fld fAoiCauseLast = 2 ∧ t.fld fAoiCausePrevious = s.fld fAoiCauseLast ∧
      t.cores = [] ∧ t.clusters = [] ∧ t.mesh = [] ∧ t.log = s.log ∧ t.life = s.life)

/-- The start (R395, R399 to R402, R413): at reset exit, once RESET_N and every rail are good, a lifecycle change that waits is blown and the device
resets again; otherwise the counter that two copies give holds, and the device is up, in Minimal Recovery Mode where the fuses, three failed starts or
a forced recovery ask for it, with FAULT_N released of stops and freezes; each phase leads to the next when its work can be done; a limit exceeded
ends the start; start-OK from phase 8 on sets start_ok, stops the start timer and clears the failed starts, and before phase 8 or after the start's
end does nothing; the timer's expiry, in a freeze too, counts a failed start and ends the start. -/
def Obligations.StartSequence : Prop :=
  ∀ s : State,
    (∀ (seen : ExitSeen) (bad : Bool), seen.resetN = false ∨ seen.railsOut ≠ [] → exec (.resetExit seen bad) s = .next s) ∧
    (∀ (seen : ExitSeen) (bad : Bool) (v : Nat), s.dev = .inReset → s.island.pwrEn = 0x3FFF → seen.resetN = true → seen.railsOut = [] → s.blowing = some v →
      ∃ t, exec (.resetExit seen bad) s = .next t ∧ t.dev = .inReset ∧ t.lifeCopies = (v, v, v) ∧ t.blowing = none ∧ t.log = [] ∧ t.life = s.life) ∧
    (∀ (seen : ExitSeen) (bad : Bool), s.dev = .inReset → s.island.pwrEn = 0x3FFF → seen.resetN = true → seen.railsOut = [] → s.blowing = none →
      let mrm := bad = true ∨ s.fld fAoiStartFailedStarts = 3 ∨ s.fld fAoiRecoverForceMrm = 1
      ∃ t, exec (.resetExit seen bad) s = .next t ∧ t.life = s.voteLife.life ∧ t.lifeCopies = (t.life, t.life, t.life) ∧ t.dev = .up ∧ t.fld fRstStatusMrm = (if mrm then 1 else 0) ∧ t.fld fAoiStartMrm = (if mrm then 1 else 0) ∧
        t.fld fAoiStartTimerRunning = (if mrm then 0 else 1) ∧ t.island.causes = [] ∧ FaultCause.stop ∉ t.island.faults ∧ FaultCause.freeze ∉ t.island.faults) ∧
    (s.dev = .up →
      (∀ found : Bringup, s.island.startEnded = false → s.phaseReady (s.fld fRstStatusPhase) = true → ∃ t, exec (.bringupPhaseComplete found) s = .next t ∧
        t.fld fRstStatusPhase = s.fld fRstStatusPhase + 1 ∧ t.dev = .up ∧ t.life = s.life) ∧
      (s.fld fRstStatusPhase ≤ 2 ∨ 4 ≤ s.fld fRstStatusPhase ∧ s.fld fRstStatusPhase ≤ 7 →
        exec .phaseLimitExceeded s = .next { s with island := { s.island with startEnded := true } }) ∧
      (8 ≤ s.fld fRstStatusPhase → s.island.startEnded = false → ∃ t, exec .startOk s = .next t ∧ t.fld fRstStatusStartOk = 1 ∧ t.fld fRstStatusPhase = 9 ∧
        t.fld fAoiStartTimerRunning = 0 ∧ t.fld fAoiStartFailedStarts = 0 ∧ FaultCause.failedStart ∉ t.island.faults) ∧
      (s.fld fRstStatusPhase < 8 ∨ s.island.startEnded = true → exec .startOk s = .next s)) ∧
    (s.dev = .up ∨ s.dev = .frozen → s.fld fAoiStartTimerRunning = 1 → ∃ t, exec .startTimerExpiry s = .next t ∧ t.fld fAoiStartTimerRunning = 0 ∧
        t.fld fAoiStartFailedStarts = min 3 (s.fld fAoiStartFailedStarts + 1) ∧ t.island.startEnded = true ∧ FaultCause.failedStart ∈ t.island.faults)

/-- Counter snaps and the log (R256, R439 to R443, R450): a snap is armed for its time, or late for ten microseconds from now, for the clusters that its
flood reaches; at its time every counter of the rim, and of each of those clusters that runs with its cores, is copied, and no counter, core or memory
changes; a write of the log register appends a firmware entry for a code from 0x80 on and does nothing below; LOG_READ answers the entries asked for. -/
def Obligations.SnapsAndLog : Prop :=
  ∀ s : State, s.dev = .up →
    (∀ time : Word, ∃ t, exec (.snapAtWrite time) s = .next t ∧ t.fld fDbgSnapStatusPending = 1 ∧
      t.dbg.snap = some (if time.toNat < s.time + 10000 then s.tickIn 10000 else time.toNat) ∧ t.dbg.reach = t.flooded ∧
      t.fld fDbgSnapStatusLate = (if time.toNat < s.time + 10000 then 1 else s.fld fDbgSnapStatusLate) ∧
      t.fld fDbgSnapStatusReplaced = (if s.fld fDbgSnapStatusPending = 1 then 1 else s.fld fDbgSnapStatusReplaced)) ∧
    (∀ at_ : Nat, s.dbg.snap = some at_ → at_ ≤ s.time → ∃ t, exec .snapCopy s = .next t ∧ t.dbg.snap = none ∧ t.fld fDbgSnapStatusPending = 0 ∧
      t.fld fDbgSnapStatusSeq = (s.fld fDbgSnapStatusSeq + 1) % 2 ^ 32 ∧ (t.reg fDbgSnapTimeTime.off) = BitVec.ofNat 64 at_ ∧
      (∀ a, isCounter rimRegs rimCounters a = true → a ∉ rimViews → t.rimShadow.look a 0 = s.reg a ∧ t.reg a = s.reg a) ∧
      (∀ i, (t.core i).regs = (s.core i).regs ∧ (t.core i).ctl = (s.core i).ctl ∧ (t.core i).well = (s.core i).well ∧ (t.core i).rsv = (s.core i).rsv) ∧
      ∀ n ∈ s.dbg.reach, n < 144 → s.alive n = true →
        (∀ o, isCounter clusterRegs clusterCounters o = true → o ≠ 0 → (t.cluster n).shadow.look o 0 = (s.cluster n).reg o) ∧
        ∀ i ∈ clusterCores n, ∀ o, isCounter coreRegs coreCounters o = true → o ∉ coreViews → o ≠ fCoreEvtStaleCount.off →
          (t.core i).shadow.look o 0 = (s.core i).reg o) ∧
    (∀ p : List Byte, s.payload 0x30 = some p → p.length = 8 → ∃ u : State, exec .counterSnap s = .next (u.answer 0x30 0 []) ∧
      u.dbg.snap = some (if numAt p 0 8 < s.time + 10000 then s.tickIn 10000 else numAt p 0 8)) ∧
    (∀ v : Word, (v.toNat % 256 < 0x80 → exec (.firmwareLogWrite v false) s = .next s) ∧
      (0x80 ≤ v.toNat % 256 → s.fld fAoiLogStatusLogLost = 0 → s.log.length < 8192 → ∃ t e, exec (.firmwareLogWrite v false) s = .next t ∧
        t.fld fAoiLogStatusLogLost = (if s.logBad.look (s.fld fAoiLogHeadNextSeq % 8192) false then 1 else 0) ∧
        t.log = s.log ++ [e] ∧ e.code = v.toNat % 256 ∧ e.severity = v.toNat / 256 % 4 ∧ e.detail = s.reg fAoiLogWrDetailDetail.off ∧
        e.seq = s.fld fAoiLogHeadNextSeq ∧ t.fld fAoiLogHeadNextSeq = (s.fld fAoiLogHeadNextSeq + 1) % 2 ^ 32)) ∧
    (∀ p : List Byte, s.payload 0x31 = some p → p.length = 8 → numAt p 4 4 ≤ 250 → s.logSpoiled (numAt p 0 4) (numAt p 4 4) = false →
      exec (.logRead false) s = .next (s.answer 0x31 0 (logBytes (numAt p 0 4) (numAt p 4 4) s.log)))

/-- Freezes, the blotter and the TAP (R444 to R449): a freeze is armed by a message or by FREEZE_N and taken at its tick, with FAULT_N asserted and no
control unit changed; choosing a chain sets its position to 0, and the blotter's data read 64 bits of it only while the device is frozen and outside
Service and Retired, and zero otherwise; JTAG instructions that drive pins take effect while RESET_N holds the device in reset or it is frozen, and
are refused with jtag_refused, acting as BYPASS, otherwise; the others take effect while the TAP is powered, BLOTTER as BYPASS in Service and Retired,
and DBGREG writes nothing while the device is up. The TAP follows the family's standard (log entry 89). -/
def Obligations.FreezeAndTap : Prop :=
  (∀ s : State, s.dev = .up →
    (∀ p : List Byte, s.payload 0x51 = some p → p.length = 8 → ∃ u : State, exec .freeze s = .next (u.answer 0x51 0 []) ∧ u.fld fDbgFreezeStatusArmed = 1 ∧
      u.dbg.freeze = some (if numAt p 0 8 < s.time + 2000 then s.tickIn 2000 else numAt p 0 8) ∧ u.fld fDbgFreezeStatusSource = 1) ∧
    (2 ≤ s.fld fRstStatusPhase → ∃ t, exec .freezeNLow s = .next t ∧ t.dbg.freeze = some (s.tickIn 2000) ∧ t.fld fDbgFreezeStatusArmed = 1 ∧
      t.fld fDbgFreezeStatusSource = 0) ∧
    (∀ f : Nat, s.dbg.freeze = some f → f ≤ s.time → ∃ u : State, exec .freezeTick s = .next u.settle ∧ u.dev = .frozen ∧ u.fld fDbgFreezeStatusFrozen = 1 ∧
      FaultCause.freeze ∈ u.island.faults ∧ Note.island .freeze ∈ u.notes ∧ ∀ i, (u.core i).ctl = (s.core i).ctl)) ∧
  (∀ s : State, s.dev = .up ∨ s.dev = .frozen →
    (∀ v : Word, ∃ t, exec (.dbgBlotSelWrite v) s = .next t ∧ t.fld fDbgBlotSelChain = v.toNat % 256 ∧ t.fld fDbgBlotPosPosition = 0) ∧
    (s.dev = .up ∨ s.lifecycle = 2 ∨ s.lifecycle = 4 → exec .dbgBlotDataRead s = .next { s with lastRead := 0 }) ∧
    (s.dev = .frozen → s.lifecycle ≠ 2 → s.lifecycle ≠ 4 → ∃ t, exec .dbgBlotDataRead s = .next t ∧
      t.fld fDbgBlotPosPosition = (s.fld fDbgBlotPosPosition + 64) % 2 ^ 32)) ∧
  (∀ s : State, s.dev ≠ .off → s.dev ≠ .stopped → let drives := s.dev = .frozen ∨ s.dev = .inReset ∧ s.island.resetLow = true
    let refused (t : State) : Prop := t.fld fDbgStatusJtagRefused = 1 ∧ t.dbg.tap.ir = 0x1F ∧ t.dbg.tap.boundary = s.dbg.tap.boundary
    let driven (ir : Nat) (pins load : List Bool) (t : State) : Prop := t.dbg.tap = ⟨ir, 0, pins, load⟩ ∧ t.rim = s.rim
    (∀ (c : Instr) (ir : Nat) (pins load : List Bool),
      (c, ir) ∈ [(.extest pins load, 0), (.extestPulse pins load, 5), (.extestTrain pins load, 6)] →
      (drives → ∃ t, exec c s = .next t ∧ driven ir pins load t) ∧ (¬drives → ∃ t, exec c s = .next t ∧ refused t)) ∧
    (∀ (c : Instr) (ir : Nat), (c, ir) ∈ [(.clamp, 3), (.highz, 4)] →
      (drives → ∃ t, exec c s = .next t ∧ driven ir s.dbg.tap.captured s.dbg.tap.boundary t) ∧ (¬drives → ∃ t, exec c s = .next t ∧ refused t)) ∧
    (∀ pins load : List Bool, ∃ t, exec (.samplePreload pins load) s = .next t ∧ driven 1 pins load t) ∧
    (∃ t, exec .idcode s = .next t ∧ t.dbg.tap.ir = 2 ∧ t.dbg.tap.dr = idcode ∧ t.rim = s.rim) ∧
    (∃ t, exec .bypass s = .next t ∧ t.dbg.tap.ir = 0x1F ∧ t.rim = s.rim) ∧
    (s.lifecycle = 2 ∨ s.lifecycle = 4 → ∃ t, exec .blotter s = .next t ∧ t.dbg.tap.ir = 0x1F ∧ t.rim = s.rim) ∧
    (s.lifecycle ≠ 2 → s.lifecycle ≠ 4 → ∃ t, exec .blotter s = .next t ∧ t.dbg.tap.ir = 0x11 ∧ t.dbg.tap.dr = s.blotRead.1) ∧
    (∀ (offset : Fin 65536) (v : Option Word), ∃ t, exec (.dbgreg offset v) s = .next t ∧ t.dbg.tap.ir = 0x10 ∧
      (s.dev = .up → v ≠ none → t.rim = s.rim)))
end

