-- ==== Sys2Proof/Laws/Tbl.lean ====
section
/-! SUPPORT. Laws of the sparse tables: a read after a write, and the canonical form that every write keeps. -/

namespace Sys2Proof.Machine

variable {α : Type}

theorem Tbl.look_drop_same (t : Tbl α) (k : Nat) (d : α) : (t.drop k).look k d = d := by
  induction t with
  | nil => rfl
  | cons e r ih =>
    obtain ⟨k', v⟩ := e
    by_cases h : k' = k <;> simp [Tbl.drop, Tbl.look, h, ih]

theorem Tbl.look_drop_ne (t : Tbl α) {j k : Nat} (h : j ≠ k) (d : α) : (t.drop k).look j d = t.look j d := by
  induction t with
  | nil => rfl
  | cons e r ih =>
    obtain ⟨k', v⟩ := e
    by_cases hk : k' = k
    · subst hk
      have : ¬k' = j := fun e => h e.symm
      simp [Tbl.drop, Tbl.look, this, ih]
    · by_cases hj : k' = j
      · subst hj
        simp [Tbl.drop, Tbl.look, h]
      · simp [Tbl.drop, Tbl.look, hk, hj, ih]

theorem Tbl.look_insert_same (t : Tbl α) (k : Nat) (v d : α) : (t.insert k v).look k d = v := by
  induction t with
  | nil => simp [Tbl.insert, Tbl.look]
  | cons e r ih =>
    obtain ⟨k', w⟩ := e
    by_cases h₁ : k < k'
    · simp [Tbl.insert, Tbl.look, h₁]
    · by_cases h₂ : k' = k <;> simp [Tbl.insert, Tbl.look, h₁, h₂, ih]

theorem Tbl.look_insert_ne (t : Tbl α) {j k : Nat} (h : j ≠ k) (v d : α) : (t.insert k v).look j d = t.look j d := by
  have h' : ¬k = j := fun e => h e.symm
  induction t with
  | nil => simp [Tbl.insert, Tbl.look, h']
  | cons e r ih =>
    obtain ⟨k', w⟩ := e
    by_cases h₁ : k < k'
    · simp [Tbl.insert, Tbl.look, h₁, h']
    · by_cases h₂ : k' = k
      · subst h₂
        simp [Tbl.insert, Tbl.look, h']
      · by_cases h₃ : k' = j
        · subst h₃
          simp [Tbl.insert, Tbl.look, h₁, h]
        · simp [Tbl.insert, Tbl.look, h₁, h₂, h₃, ih]

/-- A read after a write to the same key gives the value written. -/
theorem Tbl.look_put_same [DecidableEq α] (t : Tbl α) (k : Nat) (v d : α) : (t.put k v d).look k d = v := by
  by_cases h : v = d
  · simp [Tbl.put, h, Tbl.look_drop_same]
  · simp [Tbl.put, h, Tbl.look_insert_same]

/-- A write leaves every other key alone. -/
theorem Tbl.look_put_ne [DecidableEq α] (t : Tbl α) {j k : Nat} (h : j ≠ k) (v d d' : α) : (t.put k v d).look j d' = t.look j d' := by
  by_cases hv : v = d
  · simp [Tbl.put, hv, Tbl.look_drop_ne _ h]
  · simp [Tbl.put, hv, Tbl.look_insert_ne _ h]

/-! ## The canonical form -/

theorem Tbl.sortedFrom_mono {a b : Nat} (h : a ≤ b) : ∀ t : Tbl α, Tbl.sortedFrom (some b) t = true → Tbl.sortedFrom (some a) t = true
  | [], _ => rfl
  | (k, _) :: r, hs => by
    simp only [Tbl.sortedFrom, Bool.and_eq_true, decide_eq_true_eq] at hs ⊢
    exact ⟨by omega, hs.2⟩

theorem Tbl.sortedFrom_drop (k : Nat) : ∀ (lo : Nat) (t : Tbl α), Tbl.sortedFrom (some lo) t = true → Tbl.sortedFrom (some lo) (t.drop k) = true
  | _, [], _ => rfl
  | lo, (k', v) :: r, hs => by
    simp only [Tbl.sortedFrom, Bool.and_eq_true, decide_eq_true_eq] at hs
    by_cases h : k' = k
    · simp only [Tbl.drop, h, if_true]
      exact Tbl.sortedFrom_mono (by omega) _ (Tbl.sortedFrom_drop k k' r hs.2)
    · simp only [Tbl.drop, h, if_false, Tbl.sortedFrom, Bool.and_eq_true, decide_eq_true_eq]
      exact ⟨hs.1, Tbl.sortedFrom_drop k k' r hs.2⟩

theorem Tbl.sortedFrom_insert (k : Nat) (v : α) : ∀ (lo : Nat) (t : Tbl α), lo < k → Tbl.sortedFrom (some lo) t = true →
    Tbl.sortedFrom (some lo) (t.insert k v) = true
  | lo, [], h, _ => by simp [Tbl.insert, Tbl.sortedFrom, h]
  | lo, (k', w) :: r, h, hs => by
    simp only [Tbl.sortedFrom, Bool.and_eq_true, decide_eq_true_eq] at hs
    by_cases h₁ : k < k'
    · simp only [Tbl.insert, h₁, if_true, Tbl.sortedFrom, Bool.and_eq_true, decide_eq_true_eq]
      exact ⟨h, trivial, hs.2⟩
    · by_cases h₂ : k' = k
      · subst h₂
        simp only [Tbl.insert, h₁, if_false, if_true, Tbl.sortedFrom, Bool.and_eq_true, decide_eq_true_eq]
        exact ⟨h, hs.2⟩
      · simp only [Tbl.insert, h₁, h₂, if_false, Tbl.sortedFrom, Bool.and_eq_true, decide_eq_true_eq]
        exact ⟨hs.1, Tbl.sortedFrom_insert k v k' r (by omega) hs.2⟩

theorem Tbl.sorted_of_from (lo : Nat) (t : Tbl α) (h : Tbl.sortedFrom (some lo) t = true) : t.sorted = true := by
  match t, h with
  | [], _ => rfl
  | (k, v) :: r, h =>
    simp only [Tbl.sortedFrom, Bool.and_eq_true] at h
    exact h.2

theorem Tbl.sorted_drop (k : Nat) (t : Tbl α) (h : t.sorted = true) : (t.drop k).sorted = true := by
  match t, h with
  | [], _ => rfl
  | (k', v) :: r, h =>
    have h' : Tbl.sortedFrom (some k') r = true := h
    by_cases hk : k' = k
    · simp only [Tbl.drop, hk, if_true]
      exact Tbl.sorted_of_from k' _ (Tbl.sortedFrom_drop k k' r h')
    · simp only [Tbl.drop, hk, if_false]
      exact Tbl.sortedFrom_drop k k' r h'

theorem Tbl.sorted_insert (k : Nat) (v : α) (t : Tbl α) (h : t.sorted = true) : (t.insert k v).sorted = true := by
  match t, h with
  | [], _ => rfl
  | (k', w) :: r, h =>
    have h' : Tbl.sortedFrom (some k') r = true := h
    by_cases h₁ : k < k'
    · simp only [Tbl.insert, h₁, if_true, Tbl.sorted, Tbl.sortedFrom, Bool.and_eq_true, decide_eq_true_eq]
      exact ⟨trivial, h'⟩
    · by_cases h₂ : k' = k
      · subst h₂
        simp only [Tbl.insert, h₁, if_false, if_true]
        exact h'
      · simp only [Tbl.insert, h₁, h₂, if_false]
        exact Tbl.sortedFrom_insert k v k' r (by omega) h'

theorem Tbl.mem_drop (k : Nat) (t : Tbl α) (e : Nat × α) (h : e ∈ t.drop k) : e ∈ t := by
  induction t with
  | nil => exact h
  | cons x r ih =>
    obtain ⟨k', w⟩ := x
    by_cases hk : k' = k
    · simp only [Tbl.drop, hk, if_true] at h
      exact .tail _ (ih h)
    · simp only [Tbl.drop, hk, if_false, List.mem_cons] at h
      rcases h with h | h
      · exact h ▸ .head _
      · exact .tail _ (ih h)

theorem Tbl.mem_insert (k : Nat) (v : α) (t : Tbl α) (e : Nat × α) (h : e ∈ t.insert k v) : e = (k, v) ∨ e ∈ t := by
  induction t with
  | nil => simpa [Tbl.insert] using h
  | cons x r ih =>
    obtain ⟨k', w⟩ := x
    by_cases h₁ : k < k'
    · simpa [Tbl.insert, h₁] using h
    · by_cases h₂ : k' = k
      · subst h₂
        simp only [Tbl.insert, Nat.lt_irrefl, if_false, if_true, List.mem_cons] at h
        rcases h with h | h
        · exact .inl h
        · exact .inr (.tail _ h)
      · simp only [Tbl.insert, h₁, h₂, if_false, List.mem_cons] at h
        rcases h with h | h
        · exact .inr (h ▸ .head _)
        · rcases ih h with h | h
          · exact .inl h
          · exact .inr (.tail _ h)

/-- A write keeps the canonical form. -/
theorem Tbl.wf_put [DecidableEq α] (t : Tbl α) (d : Nat → α) (k : Nat) (v : α) (h : t.wf d = true) : (t.put k v (d k)).wf d = true := by
  simp only [Tbl.wf, Bool.and_eq_true, List.all_eq_true, decide_eq_true_eq] at h ⊢
  by_cases hv : v = d k
  · simp only [Tbl.put, hv, if_true]
    exact ⟨Tbl.sorted_drop k t h.1, fun e he => h.2 e (Tbl.mem_drop k t e he)⟩
  · simp only [Tbl.put, hv, if_false]
    refine ⟨Tbl.sorted_insert k v t h.1, fun e he => ?_⟩
    rcases Tbl.mem_insert k v t e he with rfl | he
    · exact hv
    · exact h.2 e he

/-- Removing the entries of some keys keeps the canonical form. -/
theorem Tbl.sortedFrom_clear (p : Nat → Bool) : ∀ (lo : Nat) (t : Tbl α), Tbl.sortedFrom (some lo) t = true →
    Tbl.sortedFrom (some lo) (t.clear p) = true
  | _, [], _ => rfl
  | lo, (k, v) :: r, hs => by
    simp only [Tbl.sortedFrom, Bool.and_eq_true, decide_eq_true_eq] at hs
    have ih := Tbl.sortedFrom_clear p k r hs.2
    by_cases hp : p k = true
    · simp only [Tbl.clear, List.filter, hp, Bool.not_true] at ih ⊢
      exact Tbl.sortedFrom_mono (by omega) _ ih
    · simp only [Bool.not_eq_true] at hp
      simp only [Tbl.clear, List.filter, hp, Bool.not_false, Tbl.sortedFrom, Bool.and_eq_true, decide_eq_true_eq] at ih ⊢
      exact ⟨hs.1, ih⟩

theorem Tbl.sorted_clear (p : Nat → Bool) (t : Tbl α) (h : t.sorted = true) : (t.clear p).sorted = true := by
  match t, h with
  | [], _ => rfl
  | (k, v) :: r, h =>
    have h' : Tbl.sortedFrom (some k) r = true := h
    have h₂ := Tbl.sortedFrom_clear p k r h'
    by_cases hp : p k = true
    · simp only [Tbl.clear, List.filter, hp, Bool.not_true] at h₂ ⊢
      exact Tbl.sorted_of_from k _ h₂
    · simp only [Bool.not_eq_true] at hp
      simp only [Tbl.clear, List.filter, hp, Bool.not_false] at h₂ ⊢
      exact h₂

theorem Tbl.wf_clear [DecidableEq α] (t : Tbl α) (d : Nat → α) (p : Nat → Bool) (h : t.wf d = true) : (t.clear p).wf d = true := by
  simp only [Tbl.wf, Bool.and_eq_true, List.all_eq_true, decide_eq_true_eq] at h ⊢
  exact ⟨Tbl.sorted_clear p t h.1, fun e he => h.2 e (List.mem_filter.mp he).1⟩

end Sys2Proof.Machine
end

