-- ==== Sys2Proof/Laws/State.lean ====
section
/-! SUPPORT. What each update of the state leaves in each field, so that no later proof unfolds a record update. -/

namespace Sys2Proof.Machine

/-! ## What each update leaves alone

One simp lemma for each update: each of its clauses is a rule for one field. -/

@[simp] theorem State.setReg_frame (s : State) (o : Nat) (w : Word) :
    (s.setReg o w).dev = s.dev ∧ (s.setReg o w).log = s.log ∧ (s.setReg o w).notes = s.notes ∧ (s.setReg o w).cores = s.cores ∧
    (s.setReg o w).clusters = s.clusters ∧ (s.setReg o w).mesh = s.mesh ∧ (s.setReg o w).fabWait = s.fabWait ∧ (s.setReg o w).fabTag = s.fabTag ∧
    (s.setReg o w).bindings = s.bindings ∧ (s.setReg o w).rimShadow = s.rimShadow ∧ (s.setReg o w).farOps = s.farOps ∧
    (s.setReg o w).beacon = s.beacon ∧ (s.setReg o w).timeSteps = s.timeSteps ∧ (s.setReg o w).mono = s.mono ∧ (s.setReg o w).clocks = s.clocks ∧
    (s.setReg o w).timeBase = s.timeBase ∧ (s.setReg o w).power = s.power ∧ (s.setReg o w).island = s.island ∧ (s.setReg o w).images = s.images ∧
    (s.setReg o w).repair = s.repair ∧ (s.setReg o w).dbg = s.dbg ∧ (s.setReg o w).lastRead = s.lastRead ∧ (s.setReg o w).rgns = s.rgns ∧
    (s.setReg o w).heldClusters = s.heldClusters ∧ (s.setReg o w).life = s.life ∧ (s.setReg o w).lifeCopies = s.lifeCopies ∧ (s.setReg o w).blowing = s.blowing ∧ (s.setReg o w).lic = s.lic ∧ (s.setReg o w).scribe = s.scribe ∧
    (s.setReg o w).ports = s.ports ∧ (s.setReg o w).cls = s.cls ∧ (s.setReg o w).epoch = s.epoch ∧ (s.setReg o w).scrFrames = s.scrFrames ∧
    (s.setReg o w).logBad = s.logBad ∧ (s.setReg o w).wordErrs = s.wordErrs ∧
    (s.setReg o w).hubHeld = s.hubHeld ∧ (s.setReg o w).removing = s.removing ∧ (s.setReg o w).pending = s.pending := by
  simp only [State.setReg, and_self]

@[simp] theorem State.setFld_frame (s : State) (f : Fld) (v : Nat) :
    (s.setFld f v).dev = s.dev ∧ (s.setFld f v).log = s.log ∧ (s.setFld f v).notes = s.notes ∧ (s.setFld f v).cores = s.cores ∧
    (s.setFld f v).clusters = s.clusters ∧ (s.setFld f v).mesh = s.mesh ∧ (s.setFld f v).fabWait = s.fabWait ∧ (s.setFld f v).fabTag = s.fabTag ∧
    (s.setFld f v).bindings = s.bindings ∧ (s.setFld f v).rimShadow = s.rimShadow ∧ (s.setFld f v).farOps = s.farOps ∧
    (s.setFld f v).beacon = s.beacon ∧ (s.setFld f v).timeSteps = s.timeSteps ∧ (s.setFld f v).mono = s.mono ∧ (s.setFld f v).clocks = s.clocks ∧
    (s.setFld f v).timeBase = s.timeBase ∧ (s.setFld f v).power = s.power ∧ (s.setFld f v).island = s.island ∧ (s.setFld f v).images = s.images ∧
    (s.setFld f v).repair = s.repair ∧ (s.setFld f v).dbg = s.dbg ∧ (s.setFld f v).lastRead = s.lastRead ∧ (s.setFld f v).rgns = s.rgns ∧
    (s.setFld f v).heldClusters = s.heldClusters ∧ (s.setFld f v).life = s.life ∧ (s.setFld f v).lifeCopies = s.lifeCopies ∧ (s.setFld f v).blowing = s.blowing ∧ (s.setFld f v).lic = s.lic ∧ (s.setFld f v).scribe = s.scribe ∧
    (s.setFld f v).ports = s.ports ∧ (s.setFld f v).cls = s.cls ∧ (s.setFld f v).epoch = s.epoch ∧ (s.setFld f v).scrFrames = s.scrFrames ∧
    (s.setFld f v).logBad = s.logBad ∧ (s.setFld f v).wordErrs = s.wordErrs ∧
    (s.setFld f v).hubHeld = s.hubHeld ∧ (s.setFld f v).removing = s.removing ∧ (s.setFld f v).pending = s.pending := by
  simp only [State.setFld, State.setReg, and_self]

@[simp] theorem State.setCore_frame (s : State) (i : Nat) (c : Core) :
    (s.setCore i c).dev = s.dev ∧ (s.setCore i c).log = s.log ∧ (s.setCore i c).notes = s.notes ∧ (s.setCore i c).clusters = s.clusters ∧
    (s.setCore i c).mesh = s.mesh ∧ (s.setCore i c).fabWait = s.fabWait ∧ (s.setCore i c).fabTag = s.fabTag ∧ (s.setCore i c).bindings = s.bindings ∧
    (s.setCore i c).rim = s.rim ∧ (s.setCore i c).rimShadow = s.rimShadow ∧ (s.setCore i c).farOps = s.farOps ∧ (s.setCore i c).beacon = s.beacon ∧
    (s.setCore i c).timeSteps = s.timeSteps ∧ (s.setCore i c).mono = s.mono ∧ (s.setCore i c).clocks = s.clocks ∧
    (s.setCore i c).timeBase = s.timeBase ∧ (s.setCore i c).power = s.power ∧ (s.setCore i c).island = s.island ∧ (s.setCore i c).images = s.images ∧
    (s.setCore i c).repair = s.repair ∧ (s.setCore i c).dbg = s.dbg ∧ (s.setCore i c).lastRead = s.lastRead ∧ (s.setCore i c).rgns = s.rgns ∧
    (s.setCore i c).heldClusters = s.heldClusters ∧ (s.setCore i c).life = s.life ∧ (s.setCore i c).lifeCopies = s.lifeCopies ∧ (s.setCore i c).blowing = s.blowing ∧ (s.setCore i c).lic = s.lic ∧ (s.setCore i c).scribe = s.scribe ∧
    (s.setCore i c).ports = s.ports ∧ (s.setCore i c).cls = s.cls ∧ (s.setCore i c).epoch = s.epoch ∧ (s.setCore i c).scrFrames = s.scrFrames ∧
    (s.setCore i c).logBad = s.logBad ∧ (s.setCore i c).wordErrs = s.wordErrs ∧ (s.setCore i c).copies = s.copies ∧
    (s.setCore i c).hubHeld = s.hubHeld ∧ (s.setCore i c).removing = s.removing ∧ (s.setCore i c).pending = s.pending := by
  simp only [State.setCore, and_self]

@[simp] theorem State.mapCore_frame (s : State) (i : Nat) (f : Core → Core) :
    (s.mapCore i f).dev = s.dev ∧ (s.mapCore i f).log = s.log ∧ (s.mapCore i f).notes = s.notes ∧ (s.mapCore i f).clusters = s.clusters ∧
    (s.mapCore i f).mesh = s.mesh ∧ (s.mapCore i f).fabWait = s.fabWait ∧ (s.mapCore i f).fabTag = s.fabTag ∧ (s.mapCore i f).bindings = s.bindings ∧
    (s.mapCore i f).rim = s.rim ∧ (s.mapCore i f).rimShadow = s.rimShadow ∧ (s.mapCore i f).farOps = s.farOps ∧ (s.mapCore i f).beacon = s.beacon ∧
    (s.mapCore i f).timeSteps = s.timeSteps ∧ (s.mapCore i f).mono = s.mono ∧ (s.mapCore i f).clocks = s.clocks ∧
    (s.mapCore i f).timeBase = s.timeBase ∧ (s.mapCore i f).power = s.power ∧ (s.mapCore i f).island = s.island ∧ (s.mapCore i f).images = s.images ∧
    (s.mapCore i f).repair = s.repair ∧ (s.mapCore i f).dbg = s.dbg ∧ (s.mapCore i f).lastRead = s.lastRead ∧ (s.mapCore i f).rgns = s.rgns ∧
    (s.mapCore i f).heldClusters = s.heldClusters ∧ (s.mapCore i f).life = s.life ∧ (s.mapCore i f).lifeCopies = s.lifeCopies ∧ (s.mapCore i f).blowing = s.blowing ∧ (s.mapCore i f).lic = s.lic ∧ (s.mapCore i f).scribe = s.scribe ∧
    (s.mapCore i f).ports = s.ports ∧ (s.mapCore i f).cls = s.cls ∧ (s.mapCore i f).epoch = s.epoch ∧ (s.mapCore i f).scrFrames = s.scrFrames ∧
    (s.mapCore i f).logBad = s.logBad ∧ (s.mapCore i f).wordErrs = s.wordErrs ∧ (s.mapCore i f).copies = s.copies ∧
    (s.mapCore i f).hubHeld = s.hubHeld ∧ (s.mapCore i f).removing = s.removing ∧ (s.mapCore i f).pending = s.pending := by
  simp only [State.mapCore, State.setCore, and_self]

@[simp] theorem State.setCluster_frame (s : State) (n : Nat) (k : Cluster) :
    (s.setCluster n k).dev = s.dev ∧ (s.setCluster n k).log = s.log ∧ (s.setCluster n k).notes = s.notes ∧ (s.setCluster n k).cores = s.cores ∧
    (s.setCluster n k).mesh = s.mesh ∧ (s.setCluster n k).fabWait = s.fabWait ∧ (s.setCluster n k).fabTag = s.fabTag ∧
    (s.setCluster n k).bindings = s.bindings ∧ (s.setCluster n k).rim = s.rim ∧ (s.setCluster n k).rimShadow = s.rimShadow ∧
    (s.setCluster n k).farOps = s.farOps ∧ (s.setCluster n k).beacon = s.beacon ∧ (s.setCluster n k).timeSteps = s.timeSteps ∧
    (s.setCluster n k).mono = s.mono ∧ (s.setCluster n k).clocks = s.clocks ∧ (s.setCluster n k).timeBase = s.timeBase ∧
    (s.setCluster n k).power = s.power ∧ (s.setCluster n k).island = s.island ∧ (s.setCluster n k).images = s.images ∧
    (s.setCluster n k).repair = s.repair ∧ (s.setCluster n k).dbg = s.dbg ∧ (s.setCluster n k).lastRead = s.lastRead ∧
    (s.setCluster n k).rgns = s.rgns ∧ (s.setCluster n k).heldClusters = s.heldClusters ∧ (s.setCluster n k).life = s.life ∧ (s.setCluster n k).lifeCopies = s.lifeCopies ∧ (s.setCluster n k).blowing = s.blowing ∧
    (s.setCluster n k).lic = s.lic ∧ (s.setCluster n k).scribe = s.scribe ∧ (s.setCluster n k).ports = s.ports ∧ (s.setCluster n k).cls = s.cls ∧
    (s.setCluster n k).epoch = s.epoch ∧ (s.setCluster n k).scrFrames = s.scrFrames ∧ (s.setCluster n k).logBad = s.logBad ∧ (s.setCluster n k).wordErrs = s.wordErrs ∧ (s.setCluster n k).copies = s.copies ∧
    (s.setCluster n k).hubHeld = s.hubHeld ∧ (s.setCluster n k).removing = s.removing ∧
    (s.setCluster n k).pending = s.pending := by
  simp only [State.setCluster, and_self]

@[simp] theorem State.mapCluster_frame (s : State) (n : Nat) (f : Cluster → Cluster) :
    (s.mapCluster n f).dev = s.dev ∧ (s.mapCluster n f).log = s.log ∧ (s.mapCluster n f).notes = s.notes ∧ (s.mapCluster n f).cores = s.cores ∧
    (s.mapCluster n f).mesh = s.mesh ∧ (s.mapCluster n f).fabWait = s.fabWait ∧ (s.mapCluster n f).fabTag = s.fabTag ∧
    (s.mapCluster n f).bindings = s.bindings ∧ (s.mapCluster n f).rim = s.rim ∧ (s.mapCluster n f).rimShadow = s.rimShadow ∧
    (s.mapCluster n f).farOps = s.farOps ∧ (s.mapCluster n f).beacon = s.beacon ∧ (s.mapCluster n f).timeSteps = s.timeSteps ∧
    (s.mapCluster n f).mono = s.mono ∧ (s.mapCluster n f).clocks = s.clocks ∧ (s.mapCluster n f).timeBase = s.timeBase ∧
    (s.mapCluster n f).power = s.power ∧ (s.mapCluster n f).island = s.island ∧ (s.mapCluster n f).images = s.images ∧
    (s.mapCluster n f).repair = s.repair ∧ (s.mapCluster n f).dbg = s.dbg ∧ (s.mapCluster n f).lastRead = s.lastRead ∧
    (s.mapCluster n f).rgns = s.rgns ∧ (s.mapCluster n f).heldClusters = s.heldClusters ∧ (s.mapCluster n f).life = s.life ∧ (s.mapCluster n f).lifeCopies = s.lifeCopies ∧ (s.mapCluster n f).blowing = s.blowing ∧
    (s.mapCluster n f).lic = s.lic ∧ (s.mapCluster n f).scribe = s.scribe ∧ (s.mapCluster n f).ports = s.ports ∧ (s.mapCluster n f).cls = s.cls ∧
    (s.mapCluster n f).epoch = s.epoch ∧ (s.mapCluster n f).scrFrames = s.scrFrames ∧ (s.mapCluster n f).logBad = s.logBad ∧ (s.mapCluster n f).wordErrs = s.wordErrs ∧ (s.mapCluster n f).copies = s.copies ∧
    (s.mapCluster n f).hubHeld = s.hubHeld ∧ (s.mapCluster n f).removing = s.removing ∧
    (s.mapCluster n f).pending = s.pending := by
  simp only [State.mapCluster, State.setCluster, and_self]

@[simp] theorem State.mapPort_frame (s : State) (p : Nat) (f : PortSt → PortSt) :
    (s.mapPort p f).dev = s.dev ∧ (s.mapPort p f).log = s.log ∧ (s.mapPort p f).notes = s.notes ∧ (s.mapPort p f).cores = s.cores ∧
    (s.mapPort p f).clusters = s.clusters ∧ (s.mapPort p f).mesh = s.mesh ∧ (s.mapPort p f).fabWait = s.fabWait ∧ (s.mapPort p f).fabTag = s.fabTag ∧
    (s.mapPort p f).bindings = s.bindings ∧ (s.mapPort p f).rim = s.rim ∧ (s.mapPort p f).rimShadow = s.rimShadow ∧
    (s.mapPort p f).farOps = s.farOps ∧ (s.mapPort p f).beacon = s.beacon ∧ (s.mapPort p f).timeSteps = s.timeSteps ∧ (s.mapPort p f).mono = s.mono ∧
    (s.mapPort p f).clocks = s.clocks ∧ (s.mapPort p f).timeBase = s.timeBase ∧ (s.mapPort p f).power = s.power ∧ (s.mapPort p f).island = s.island ∧
    (s.mapPort p f).images = s.images ∧ (s.mapPort p f).repair = s.repair ∧ (s.mapPort p f).dbg = s.dbg ∧ (s.mapPort p f).lastRead = s.lastRead ∧
    (s.mapPort p f).rgns = s.rgns ∧ (s.mapPort p f).heldClusters = s.heldClusters ∧ (s.mapPort p f).life = s.life ∧ (s.mapPort p f).lifeCopies = s.lifeCopies ∧ (s.mapPort p f).blowing = s.blowing ∧ (s.mapPort p f).lic = s.lic ∧
    (s.mapPort p f).scribe = s.scribe ∧ (s.mapPort p f).cls = s.cls ∧ (s.mapPort p f).epoch = s.epoch ∧ (s.mapPort p f).scrFrames = s.scrFrames ∧
    (s.mapPort p f).logBad = s.logBad ∧ (s.mapPort p f).wordErrs = s.wordErrs ∧ (s.mapPort p f).copies = s.copies ∧
    (s.mapPort p f).hubHeld = s.hubHeld ∧ (s.mapPort p f).removing = s.removing ∧ (s.mapPort p f).pending = s.pending := by
  simp only [State.mapPort, and_self]

@[simp] theorem State.mapRgn_frame (s : State) (r : Nat) (f : RgnSt → RgnSt) :
    (s.mapRgn r f).dev = s.dev ∧ (s.mapRgn r f).log = s.log ∧ (s.mapRgn r f).notes = s.notes ∧ (s.mapRgn r f).cores = s.cores ∧
    (s.mapRgn r f).clusters = s.clusters ∧ (s.mapRgn r f).mesh = s.mesh ∧ (s.mapRgn r f).fabWait = s.fabWait ∧ (s.mapRgn r f).fabTag = s.fabTag ∧
    (s.mapRgn r f).bindings = s.bindings ∧ (s.mapRgn r f).rim = s.rim ∧ (s.mapRgn r f).rimShadow = s.rimShadow ∧ (s.mapRgn r f).farOps = s.farOps ∧
    (s.mapRgn r f).beacon = s.beacon ∧ (s.mapRgn r f).timeSteps = s.timeSteps ∧ (s.mapRgn r f).mono = s.mono ∧ (s.mapRgn r f).clocks = s.clocks ∧
    (s.mapRgn r f).timeBase = s.timeBase ∧ (s.mapRgn r f).power = s.power ∧ (s.mapRgn r f).island = s.island ∧ (s.mapRgn r f).images = s.images ∧
    (s.mapRgn r f).repair = s.repair ∧ (s.mapRgn r f).dbg = s.dbg ∧ (s.mapRgn r f).lastRead = s.lastRead ∧
    (s.mapRgn r f).heldClusters = s.heldClusters ∧ (s.mapRgn r f).life = s.life ∧ (s.mapRgn r f).lifeCopies = s.lifeCopies ∧ (s.mapRgn r f).blowing = s.blowing ∧ (s.mapRgn r f).lic = s.lic ∧ (s.mapRgn r f).scribe = s.scribe ∧
    (s.mapRgn r f).ports = s.ports ∧ (s.mapRgn r f).cls = s.cls ∧ (s.mapRgn r f).epoch = s.epoch ∧ (s.mapRgn r f).scrFrames = s.scrFrames ∧
    (s.mapRgn r f).logBad = s.logBad ∧ (s.mapRgn r f).wordErrs = s.wordErrs ∧ (s.mapRgn r f).copies = s.copies ∧
    (s.mapRgn r f).hubHeld = s.hubHeld ∧ (s.mapRgn r f).removing = s.removing ∧ (s.mapRgn r f).pending = s.pending := by
  simp only [State.mapRgn, and_self]

@[simp] theorem State.note_frame (s : State) (n : Note) :
    (s.note n).dev = s.dev ∧ (s.note n).log = s.log ∧ (s.note n).cores = s.cores ∧ (s.note n).clusters = s.clusters ∧ (s.note n).mesh = s.mesh ∧
    (s.note n).fabWait = s.fabWait ∧ (s.note n).fabTag = s.fabTag ∧ (s.note n).bindings = s.bindings ∧ (s.note n).rim = s.rim ∧
    (s.note n).rimShadow = s.rimShadow ∧ (s.note n).farOps = s.farOps ∧ (s.note n).beacon = s.beacon ∧ (s.note n).timeSteps = s.timeSteps ∧
    (s.note n).mono = s.mono ∧ (s.note n).clocks = s.clocks ∧ (s.note n).timeBase = s.timeBase ∧ (s.note n).power = s.power ∧
    (s.note n).island = s.island ∧ (s.note n).images = s.images ∧ (s.note n).repair = s.repair ∧ (s.note n).dbg = s.dbg ∧
    (s.note n).lastRead = s.lastRead ∧ (s.note n).rgns = s.rgns ∧ (s.note n).heldClusters = s.heldClusters ∧ (s.note n).life = s.life ∧ (s.note n).lifeCopies = s.lifeCopies ∧ (s.note n).blowing = s.blowing ∧
    (s.note n).lic = s.lic ∧ (s.note n).scribe = s.scribe ∧ (s.note n).ports = s.ports ∧ (s.note n).cls = s.cls ∧ (s.note n).epoch = s.epoch ∧
    (s.note n).scrFrames = s.scrFrames ∧ (s.note n).logBad = s.logBad ∧ (s.note n).wordErrs = s.wordErrs ∧ (s.note n).copies = s.copies ∧
    (s.note n).hubHeld = s.hubHeld ∧ (s.note n).removing = s.removing ∧ (s.note n).pending = s.pending := by
  simp only [State.note, and_self]

/-! ## Cores and clusters -/

theorem State.core_setCore_same (s : State) (i : Nat) (c : Core) : (s.setCore i c).core i = c := Tbl.look_put_same _ _ _ _

theorem State.core_setCore_ne (s : State) {i j : Nat} (c : Core) (h : j ≠ i) : (s.setCore i c).core j = s.core j := Tbl.look_put_ne _ h _ _ _

theorem State.cluster_setCluster_same (s : State) (n : Nat) (k : Cluster) : (s.setCluster n k).cluster n = k := Tbl.look_put_same _ _ _ _

theorem State.cluster_setCluster_ne (s : State) {m n : Nat} (k : Cluster) (h : m ≠ n) : (s.setCluster n k).cluster m = s.cluster m :=
  Tbl.look_put_ne _ h _ _ _

/-! ## Rim registers -/

theorem State.reg_setReg_same (s : State) (o : Nat) (w : Word) : (s.setReg o w).reg o = w := Tbl.look_put_same _ _ _ _

theorem State.reg_setReg_ne (s : State) {o p : Nat} (w : Word) (h : p ≠ o) : (s.setReg o w).reg p = s.reg p := Tbl.look_put_ne _ h _ _ _

theorem fieldOf_eq (w : Word) (lo n : Nat) : fieldOf w lo n = (w.extractLsb' lo n).toNat := by
  simp [fieldOf]

/-- A field reads as it was set, cut to its width. -/
theorem fieldOf_putField (w : Word) (lo n v : Nat) (h : lo + n ≤ 64) : fieldOf (putField w lo n v) lo n = v % 2 ^ n := by
  have e : (putField w lo n v).extractLsb' lo n = BitVec.ofNat n v := by
    apply BitVec.eq_of_getLsbD_eq
    intro i hi
    have h1 : lo + i < 64 := by omega
    have h3 : i < 64 := by omega
    simp only [putField, maskOf, BitVec.getLsbD_extractLsb', hi, decide_true, Bool.true_and, BitVec.getLsbD_or, BitVec.getLsbD_and, BitVec.getLsbD_not,
      BitVec.getLsbD_shiftLeft, BitVec.getLsbD_ofNat, Nat.testBit_two_pow_sub_one, h1, h3, Nat.add_sub_cancel_left]
    simp
  rw [fieldOf_eq, e, BitVec.toNat_ofNat]

/-- Another field of the same word keeps its value. -/
theorem fieldOf_putField_other (w : Word) (lo n v lo' n' : Nat) (h : lo' + n' ≤ lo ∨ lo + n ≤ lo') :
    fieldOf (putField w lo n v) lo' n' = fieldOf w lo' n' := by
  have e : (putField w lo n v).extractLsb' lo' n' = w.extractLsb' lo' n' := by
    apply BitVec.eq_of_getLsbD_eq
    intro i hi
    simp only [putField, maskOf, BitVec.getLsbD_extractLsb', hi, decide_true, Bool.true_and, BitVec.getLsbD_or, BitVec.getLsbD_and, BitVec.getLsbD_not,
      BitVec.getLsbD_shiftLeft, BitVec.getLsbD_ofNat, Nat.testBit_two_pow_sub_one]
    by_cases h64 : lo' + i < 64
    · by_cases hlo : lo' + i < lo
      · simp [hlo, h64]
      · have : ¬ lo' + i - lo < n := by omega
        simp [this, h64]
    · have h' : w.getLsbD (lo' + i) = false := BitVec.getLsbD_of_ge _ _ (by omega)
      simp [h', h64]
  rw [fieldOf_eq, fieldOf_eq, e]

theorem State.fld_setFld_same (s : State) (f : Fld) (v : Nat) (h : f.lo + f.width ≤ 64) : (s.setFld f v).fld f = v % 2 ^ f.width := by
  simp only [State.fld, State.setFld, State.reg_setReg_same, fieldOf_putField _ _ _ _ h]

theorem State.fld_setFld_other (s : State) (f g : Fld) (v : Nat) (h : g.off ≠ f.off) : (s.setFld f v).fld g = s.fld g := by
  simp only [State.fld, State.setFld, State.reg_setReg_ne s _ h]

end Sys2Proof.Machine
end

