-- ==== Sys2Proof/Laws/Issue.lean ====
section
/-! SUPPORT. What the shared operation of issue can do, once for every instruction: what issueRow answers for a word that takes its own effect, for one
that it refuses, and for one that the encoding or the guard turns away. -/

namespace Sys2Proof.Machine

/-- A core that has not newly halted is replaced and nothing is told. -/
theorem State.putCore_eq (s : State) (i : Nat) (c : Core) (h : c.ctl.halted = true → (s.core i).ctl.halted = true) :
    s.putCore i c = s.setCore i c := by
  unfold State.putCore
  cases h' : c.ctl.halted
  · simp
  · simp [h h']

/-- A core that has newly halted is replaced and its cluster tells the Scribe Complex. -/
theorem State.putCore_halted (s : State) (i : Nat) (c : Core) (h : c.ctl.halted = true) (h' : (s.core i).ctl.halted = false) :
    s.putCore i c = (s.setCore i c).noteFrom (clusterOfCore i) (.coreHalted i (s.env i).region (s.env i).gen) := by
  unfold State.putCore
  simp [h, h']

theorem Fetches.notHalted {i : CoreId} {w : Word} {s : State} (h : Fetches i w s) : (s.core i.val).ctl.halted = false := by
  have := h.can
  simp only [Core.canIssue, Bool.and_eq_true, Bool.not_eq_true'] at this
  exact this.1.1.1.1.2

theorem Fetches.heldOk {i : CoreId} {w : Word} {s : State} (h : Fetches i w s) :
    ((s.core i.val).ctl.held.isSome && (s.core i.val).ctl.held != some w) = false := by
  rcases h.held with h | h <;> simp [h]

/-- A word of the row whose encoding is bad takes the illegal-encoding trap, whatever its guard (R44). -/
theorem Fetches.illegal {op : Nat} {bad : Word → Bool} {i : CoreId} {w : Word} {s : State} (h : Fetches i w s) (ho : opOf w = op) (hb : bad w = true)
    (source : Nat) (body : Env → Word → Core → Issue) :
    issueRow op source bad body i.val w s = .next (s.trapAt i 1 source (freeDetail 1 w)) := by
  simp [issueRow, Core.issueWord, ho, h.can, h.heldOk, h.clean, hb, State.trapAt]

/-- An engine's row is a row whose encoding is judged with the core at hand. -/
theorem issueEngine_eq (op source : Nat) (bad : Word → Bool) (early : Word → Core → Bool) (body : Env → Word → Core → Issue) (i : Nat) (w : Word)
    (s : State) : issueEngine op source bad early body i w s = issueRow op source (fun v => bad v || early v (s.core i)) body i w s := rfl

/-- A word of the row, with its encoding good and its guard on, does its work. -/
theorem Issues.row_eq {op : Nat} {resv : Word → Bool} {i : CoreId} {w : Word} {s : State} (h : Issues op resv i w s) (source : Nat)
    (body : Env → Word → Core → Issue) :
    issueRow op source resv body i.val w s =
      .next (s.putCore i.val ((s.core i.val).settle (s.env i.val) w (body (s.env i.val) w (s.core i.val)))) := by
  simp [issueRow, Core.issueWord, h.row, h.can, h.toFetches.heldOk, h.clean, h.legal, h.on]

/-- Work that takes effect moves issue past the instruction. -/
theorem Issues.next {op : Nat} {resv : Word → Bool} {i : CoreId} {w : Word} {s : State} (h : Issues op resv i w s) (source : Nat)
    (body : Env → Word → Core → Issue) (c : Core) (hb : body (s.env i.val) w (s.core i.val) = .next c) (hc : c.ctl.halted = false)
    (hr : (afterIndex (s.core i.val).ctl.pc c.ctl.loops).2 < 8192) :
    issueRow op source resv body i.val w s = .next (s.issued i c) := by
  rw [h.row_eq, hb]
  simp only [Core.settle, Core.past, Core.goto, hr, if_true]
  rw [State.putCore_eq _ _ _ (by simp [hc])]
  rfl

/-- The same for work on the control unit alone. -/
theorem Issues.nextCtl {op : Nat} {resv : Word → Bool} {i : CoreId} {w : Word} {s : State} (h : Issues op resv i w s) (source : Nat)
    (body : Env → Word → Core → Issue) (k : Ctl) (hb : body (s.env i.val) w (s.core i.val) = .next { s.core i.val with ctl := k })
    (hh : k.halted = false) (hr : (afterIndex (s.core i.val).ctl.pc k.loops).2 < 8192) :
    issueRow op source resv body i.val w s = .next (s.issuedCtl i k) := h.next source body _ hb hh hr

/-- Work that holds leaves the word held. -/
theorem Issues.stall {op : Nat} {resv : Word → Bool} {i : CoreId} {w : Word} {s : State} (h : Issues op resv i w s) (source : Nat)
    (body : Env → Word → Core → Issue) (hb : body (s.env i.val) w (s.core i.val) = .stall) :
    issueRow op source resv body i.val w s = .next (s.heldAt i w) := by
  rw [h.row_eq, hb]
  simp only [Core.settle]
  rw [State.putCore_eq _ _ _ (by simp [h.notHalted])]
  rfl

/-- Work that traps takes the trap. -/
theorem Issues.trap {op : Nat} {resv : Word → Bool} {i : CoreId} {w : Word} {s : State} (h : Issues op resv i w s) (source : Nat)
    (body : Env → Word → Core → Issue) (code src detail : Nat) (hb : body (s.env i.val) w (s.core i.val) = .trap code src detail) :
    issueRow op source resv body i.val w s = .next (s.trapAt i code src detail) := by
  rw [h.row_eq, hb]
  rfl

@[simp] theorem Ctl.setS_halted (k : Ctl) (i : Nat) (v : Word) (p : Bool) : (k.setS i v p).halted = k.halted := by
  unfold Ctl.setS; split <;> rfl
@[simp] theorem Ctl.setS_loops (k : Ctl) (i : Nat) (v : Word) (p : Bool) : (k.setS i v p).loops = k.loops := by
  unfold Ctl.setS; split <;> rfl
@[simp] theorem Ctl.setA_halted (k : Ctl) (i v : Nat) : (k.setA i v).halted = k.halted := by unfold Ctl.setA; split <;> rfl
@[simp] theorem Ctl.setA_loops (k : Ctl) (i v : Nat) : (k.setA i v).loops = k.loops := by unfold Ctl.setA; split <;> rfl
@[simp] theorem Ctl.setP_halted (k : Ctl) (i : Nat) (v : Bool) : (k.setP i v).halted = k.halted := by unfold Ctl.setP; split <;> rfl
@[simp] theorem Ctl.setP_loops (k : Ctl) (i : Nat) (v : Bool) : (k.setP i v).loops = k.loops := by unfold Ctl.setP; split <;> rfl

end Sys2Proof.Machine
end

