-- ==== Sys2Proof/Laws/Mem.lean ====
section
/-! SUPPORT. Laws of the memories: every operation over a well or a reservoir keeps the canonical form, and what a byte reads as after a word write. -/

namespace Sys2Proof.Machine

theorem Mem.wf_iff (m : Mem) : m.wf = true ↔ m.bytes.wf (fun _ => 0) = true ∧ m.poison.wf (fun _ => false) = true ∧
    m.ecc.wf (fun _ => .ok) = true ∧ m.wsw.wf (fun _ => false) = true := by
  simp only [Mem.wf, Bool.and_eq_true]
  tauto

/-- A wiped memory is in the canonical form. -/
theorem Mem.wf_wiped : Mem.wiped.wf = true := by decide

/-- The bytes of a word write, one at a time. -/
theorem foldl_put_wf (l : List Nat) (en : Nat → Bool) (a : Nat → Nat) (v : Nat → Byte) (t : Tbl Byte) (h : t.wf (fun _ => 0) = true) :
    (l.foldl (fun t i => if en i then t.put (a i) (v i) 0 else t) t).wf (fun _ => 0) = true := by
  induction l generalizing t with
  | nil => exact h
  | cons i r ih =>
    simp only [List.foldl_cons]
    apply ih
    split
    · exact Tbl.wf_put t (fun _ => 0) (a i) (v i) h
    · exact h

theorem Mem.wf_putBytes (m : Mem) (a : Nat) (en : BitVec 8) (d : Word) (h : m.wf = true) : (m.putBytes a en d).wf = true := by
  rw [Mem.wf_iff] at h ⊢
  exact ⟨foldl_put_wf _ _ _ _ _ h.1, h.2⟩

theorem Mem.wf_setPois (m : Mem) (a : Nat) (p : Bool) (h : m.wf = true) : (m.setPois a p).wf = true := by
  rw [Mem.wf_iff] at h ⊢
  exact ⟨h.1, Tbl.wf_put _ (fun _ => false) a p h.2.1, h.2.2⟩

theorem Mem.wf_setCheck (m : Mem) (a : Nat) (x : Ecc) (h : m.wf = true) : (m.setCheck a x).wf = true := by
  rw [Mem.wf_iff] at h ⊢
  exact ⟨h.1, h.2.1, Tbl.wf_put _ (fun _ => Ecc.ok) a x h.2.2.1, h.2.2.2⟩

theorem Mem.wf_mark (m : Mem) (g : Nat) (h : m.wf = true) : (m.mark g).wf = true := by
  rw [Mem.wf_iff] at h ⊢
  exact ⟨h.1, h.2.1, h.2.2.1, Tbl.wf_put _ (fun _ => false) g true h.2.2.2⟩

/-- Clearing a span keeps the canonical form. -/
theorem Mem.wf_blank (m : Mem) (lo hi : Nat) (h : m.wf = true) : (m.blank lo hi).wf = true := by
  rw [Mem.wf_iff] at h
  simp only [Mem.blank, Mem.wf_iff]
  exact ⟨Tbl.wf_clear _ _ _ h.1, Tbl.wf_clear _ _ _ h.2.1, Tbl.wf_clear _ _ _ h.2.2.1, Tbl.wf_clear _ _ _ h.2.2.2⟩

/-- A word write keeps the canonical form. -/
theorem Mem.wf_write (m : Mem) (ww : WordWrite) (h : m.wf = true) : (m.write ww).wf = true := by
  unfold Mem.write
  split
  · exact h
  · simp only
    split
    · exact Mem.wf_setCheck _ _ _ (Mem.wf_setPois _ _ _ (Mem.wf_putBytes _ _ _ _ h))
    · exact Mem.wf_mark _ _ (Mem.wf_setCheck _ _ _ (Mem.wf_setPois _ _ _ (Mem.wf_putBytes _ _ _ _ h)))

/-- So does a list of them. -/
theorem Mem.wf_writes (ws : List WordWrite) (m : Mem) (h : m.wf = true) : (ws.foldl Mem.write m).wf = true := by
  induction ws generalizing m with
  | nil => exact h
  | cons w r ih => exact ih _ (Mem.wf_write m w h)

/-- A byte outside the bytes that a list of places writes reads as before. -/
theorem foldl_put_other (l : List Nat) (en : Nat → Bool) (a : Nat → Nat) (v : Nat → Byte) (b : Nat) (hb : ∀ i ∈ l, a i ≠ b) (t : Tbl Byte) :
    (l.foldl (fun t i => if en i then t.put (a i) (v i) 0 else t) t).look b 0 = t.look b 0 := by
  induction l generalizing t with
  | nil => rfl
  | cons i r ih =>
    simp only [List.foldl_cons]
    rw [ih (fun j hj => hb j (.tail _ hj))]
    split
    · exact Tbl.look_put_ne _ (fun e => hb i (.head _) e.symm) _ _ _
    · rfl

/-- A byte that a list of places writes once reads as the value written. -/
theorem foldl_put_here (l : List Nat) (en : Nat → Bool) (a : Nat → Nat) (v : Nat → Byte) (i : Nat) (hi : i ∈ l) (hn : l.Nodup) (he : en i = true)
    (ha : ∀ j ∈ l, a j = a i → j = i) (t : Tbl Byte) :
    (l.foldl (fun t i => if en i then t.put (a i) (v i) 0 else t) t).look (a i) 0 = v i := by
  induction l generalizing t with
  | nil => cases hi
  | cons j r ih =>
    simp only [List.foldl_cons]
    rw [List.nodup_cons] at hn
    rcases List.mem_cons.mp hi with rfl | hi
    · rw [foldl_put_other _ _ _ _ _ (fun k hk e => hn.1 (ha k (.tail _ hk) e ▸ hk)), he, if_pos rfl, Tbl.look_put_same]
    · exact ih hi hn.2 (fun k hk => ha k (.tail _ hk)) _

/-- A word write leaves every byte of another word as it was. -/
theorem Mem.byte_write_other (m : Mem) (ww : WordWrite) (b : Nat) (h : b < 8 * ww.addr ∨ 8 * ww.addr + 8 ≤ b) :
    (m.write ww).byte b = m.byte b := by
  unfold Mem.write
  split
  · rfl
  · have key : ((m.putBytes ww.addr ww.en ww.data)).byte b = m.byte b := by
      refine foldl_put_other _ _ _ _ _ (fun i hi => ?_) _
      have := List.mem_range.mp hi
      omega
    simp only
    split <;> exact key

/-- A byte that a word write enables reads as the write's byte. -/
theorem Mem.byte_write_same (m : Mem) (ww : WordWrite) (n : Nat) (hn : n < 8) (he : ww.en.getLsbD n = true) :
    (m.write ww).byte (8 * ww.addr + n) = byteOf ww.data n := by
  have hv : ww.void = false := by
    simp only [WordWrite.void, Bool.and_eq_false_imp, decide_eq_true_eq]
    intro h0
    rw [h0] at he
    simp at he
  have key : (m.putBytes ww.addr ww.en ww.data).byte (8 * ww.addr + n) = byteOf ww.data n := by
    exact foldl_put_here _ (fun i => ww.en.getLsbD i) (fun i => 8 * ww.addr + i) _ n (List.mem_range.mpr hn) List.nodup_range he
      (fun j _ e => by omega) _
  unfold Mem.write
  simp only [hv]
  simp only [Bool.false_eq_true, if_false]
  split <;> exact key

end Sys2Proof.Machine
end

