-- ==== Sys2Proof/WellFormed.lean ====
section
/-! DEFINITION. Which terms of Instr are commands that a sender can send: the limits that the types of the operands do not say. The meanings are total
and do not ask for it. -/

namespace Sys2Proof

/-- Whether the opcode is assigned to a row of the table (R45). -/
def rowOpcode (op : Nat) : Bool :=
  decide (op ≤ 0x04) || decide (0x10 ≤ op ∧ op ≤ 0x27) || decide (0x30 ≤ op ∧ op ≤ 0x32) || decide (op = 0x38 ∨ op = 0x39) ||
    decide (0x40 ≤ op ∧ op ≤ 0x45) || decide (0x48 ≤ op ∧ op ≤ 0x4B) || decide (0x50 ≤ op ∧ op ≤ 0x52) || decide (op = 0x54) ||
    decide (0x60 ≤ op ∧ op ≤ 0x63) || decide (0x68 ≤ op ∧ op ≤ 0x6B) || decide (0x70 ≤ op ∧ op ≤ 0x72) || decide (op = 0x78) ||
    decide (0x80 ≤ op ∧ op ≤ 0x86) || decide (0xA0 ≤ op ∧ op ≤ 0xAF) || decide (0xC0 ≤ op ∧ op ≤ 0xC6) || decide (op = 0xCF) ||
    decide (0xD0 ≤ op ∧ op ≤ 0xD3) || decide (0xE0 ≤ op ∧ op ≤ 0xE5)

/-- A word of an instruction's row has the row's opcode, or one that no row has, which any row turns into the illegal-encoding trap (R44). -/
def ownWord (op : Nat) (w : Word) : Bool := decide (w.toNat / 2 ^ 56 = op) || !rowOpcode (w.toNat / 2 ^ 56)

/-- A word of a well (R139). -/
def wellAddrOk (a : Nat) : Bool := decide (a < 2 ^ 19)

/-- A list that names nothing twice. -/
def distinct {α : Type} [DecidableEq α] (l : List α) : Bool := l.eraseDups == l

/-- The cores whose operations a ligature unit applies in one clock, each named once: those of its own cluster, by physical coordinates (R7, R219). -/
def oneCluster (n : ClusterId) (ops : List (CoreId × Bool)) : Bool :=
  distinct ops && ops.all (fun x => decide (x.1.val % 84 / 7 = n.val % 12) && decide (x.1.val / 84 / 8 = n.val / 12))

/-- A rail of an AVSBus row: twelve of a row of clusters, and four of the rim (R368, R370). -/
def railOk (bus : Fin 13) (rail : Fin 12) : Bool := decide (bus.val < 12) || decide (rail.val < 4)

/-- A link block's fields within their widths: 16-bit sequence numbers, sixteen slots, eight counts of freed flits, and lane groups named once (R290, R292). -/
def blockOk (b : LinkBlock) : Bool :=
  decide (b.seq < 2 ^ 16) && decide (b.ack < 2 ^ 16) && decide (b.slots.length ≤ 16) && decide (b.credits.length ≤ 8) && distinct b.groups

/-- A request payload: whole bytes, at most what one frame carries (R341). -/
def payloadOk (own : Option (List Byte)) : Bool := own.all (fun p => decide (p.length < 2 ^ 14))

/-- A fabric manager's command: an EUI-64, a device ID of 18 bits and an escape route of at most 24 ports (R309, R321). -/
def sendOk (x : FmSend) : Bool :=
  decide (x.eui < 2 ^ 64) && decide (x.dev < 2 ^ 18) && decide (x.route.length ≤ 24) && x.route.all (fun p => decide (p < 16))

/-- What a phase of bring-up finds is of the part's own clusters, cores and ports, and every port's mode is one that R281 numbers. -/
def bringupOk (f : Bringup) : Bool :=
  f.failedClusters.all (fun n => decide (n < 144)) && f.failedCores.all (fun i => decide (i < 8064)) &&
    f.ports.all (fun x => decide (x.1 < 16) && decide (x.2 < 3))

/-- Whether the operands of a command are within what the manual gives them. -/
def Instr.wf : Instr → Bool
  | .nop _ w => ownWord 0x00 w
  | .capRead _ w => ownWord 0x01 w
  | .srRd _ w => ownWord 0x02 w
  | .srWr _ w => ownWord 0x03 w
  | .stop _ w => ownWord 0x04 w
  | .sAdd _ w => ownWord 0x10 w
  | .sSub _ w => ownWord 0x11 w
  | .sAnd _ w => ownWord 0x12 w
  | .sOr _ w => ownWord 0x13 w
  | .sXor _ w => ownWord 0x14 w
  | .sSll _ w => ownWord 0x15 w
  | .sSrl _ w => ownWord 0x16 w
  | .sSra _ w => ownWord 0x17 w
  | .sMul _ w => ownWord 0x18 w
  | .sMulhu _ w => ownWord 0x19 w
  | .sDivu _ w => ownWord 0x1A w
  | .sRemu _ w => ownWord 0x1B w
  | .sMin _ w => ownWord 0x1C w
  | .sMax _ w => ownWord 0x1D w
  | .sMinu _ w => ownWord 0x1E w
  | .sMaxu _ w => ownWord 0x1F w
  | .sAddi _ w => ownWord 0x20 w
  | .sAndi _ w => ownWord 0x21 w
  | .sOri _ w => ownWord 0x22 w
  | .sXori _ w => ownWord 0x23 w
  | .sSlli _ w => ownWord 0x24 w
  | .sSrli _ w => ownWord 0x25 w
  | .sSrai _ w => ownWord 0x26 w
  | .sLih _ w => ownWord 0x27 w
  | .aAddi _ w => ownWord 0x30 w
  | .aMv _ w => ownWord 0x31 w
  | .aRd _ w => ownWord 0x32 w
  | .sLd _ w => ownWord 0x38 w
  | .sSt _ w => ownWord 0x39 w
  | .pEq _ w => ownWord 0x40 w
  | .pNe _ w => ownWord 0x41 w
  | .pLt _ w => ownWord 0x42 w
  | .pLtu _ w => ownWord 0x43 w
  | .pGe _ w => ownWord 0x44 w
  | .pGeu _ w => ownWord 0x45 w
  | .pAnd _ w => ownWord 0x48 w
  | .pOr _ w => ownWord 0x49 w
  | .pXor _ w => ownWord 0x4A w
  | .pAndn _ w => ownWord 0x4B w
  | .br _ w => ownWord 0x50 w
  | .jl _ w => ownWord 0x51 w
  | .jr _ w => ownWord 0x52 w
  | .loop _ w => ownWord 0x54 w
  | .ccWait _ w => ownWord 0x60 w
  | .ccSet _ w => ownWord 0x61 w
  | .ccRd _ w => ownWord 0x62 w
  | .fence _ w => ownWord 0x63 w
  | .waitLimitBreach _ => true
  | .evPop _ w => ownWord 0x68 w
  | .evWait _ w => ownWord 0x69 w
  | .evRet _ w => ownWord 0x6A w
  | .evCtl _ w => ownWord 0x6B w
  | .tNow _ w => ownWord 0x70 w
  | .tArm _ w => ownWord 0x71 w
  | .tCancel _ w => ownWord 0x72 w
  | .hintPress _ w => ownWord 0x78 w
  | .eventArrival _ _ => true
  | .handlerEntry _ => true
  | .mxHand _ w => ownWord 0x80 w
  | .mxLoad _ w => ownWord 0x81 w
  | .mxAnchor _ w => ownWord 0x82 w
  | .mxStream _ w => ownWord 0x83 w
  | .mxDrain _ w => ownWord 0x84 w
  | .mxFlags _ w => ownWord 0x85 w
  | .mxLdacc _ w => ownWord 0x86 w
  | .matrixStart _ => true
  | .strokeEntry _ => true
  | .streamFeedTimeout _ => true
  | .matrixCompletion _ _ => true
  | .vxLd _ w => ownWord 0xA0 w
  | .vxSt _ w => ownWord 0xA1 w
  | .vxAdd _ w => ownWord 0xA2 w
  | .vxSub _ w => ownWord 0xA3 w
  | .vxMul _ w => ownWord 0xA4 w
  | .vxFma _ w => ownWord 0xA5 w
  | .vxMin _ w => ownWord 0xA6 w
  | .vxMax _ w => ownWord 0xA7 w
  | .vxFn _ w => ownWord 0xA8 w
  | .vxCmp _ w => ownWord 0xA9 w
  | .vxSel _ w => ownWord 0xAA w
  | .vxRed _ w => ownWord 0xAB w
  | .vxPerm _ w => ownWord 0xAC w
  | .vxBcast _ w => ownWord 0xAD w
  | .vxMask _ w => ownWord 0xAE w
  | .vxFlags _ w => ownWord 0xAF w
  | .vectorStart _ => true
  | .vectorCompletion _ _ => true
  | .vxPortLoadTimeout _ => true
  | .asyncWordForced _ _ _ _ a => wellAddrOk a
  | .wellScrubAccess _ a upset => wellAddrOk a && upset.all (fun x => wellAddrOk x.1)
  | .cpFetch _ w => ownWord 0xC0 w
  | .cpStore _ w => ownWord 0xC1 w
  | .cpMove _ w => ownWord 0xC2 w
  | .cpFeed _ w => ownWord 0xC3 w
  | .cpFill _ w => ownWord 0xC4 w
  | .cpRput _ w => ownWord 0xC5 w
  | .cpRget _ w => ownWord 0xC6 w
  | .cpSwap _ w => ownWord 0xCF w
  | .copyStart _ _ => true
  | .reservoirLineGrant _ _ _ => true
  | .reservoirLineDelivery _ _ k => decide (k < 2 ^ 22)
  | .backgroundPromotion _ _ _ => true
  | .reservoirRefresh _ _ _ _ => true
  | .reservoirScrub _ upset => upset.all (fun x => decide (x.1 < 320 * 2 ^ 16))
  | .reservoirRowSpare _ _ _ _ => true
  | .copyCompletion _ _ => true
  | .chSend _ w => ownWord 0xD0 w
  | .chCredit _ w => ownWord 0xD1 w
  | .chCount _ w => ownWord 0xD2 w
  | .chFlags _ w => ownWord 0xD3 w
  | .channelStart _ => true
  | .sendCreditAbandon _ _ => true
  | .channelCompletion _ _ => true
  | .multicastBranchAdmit _ _ => true
  | .messageArrival _ => true
  | .combiningRoundClose _ _ => true
  | .creditReturnArrival _ => true
  | .batchTokenArrival _ => true
  | .combiningGrantArrival _ => true
  | .readRequestArrival _ => true
  | .readUnitService _ => true
  | .readReplyArrival _ => true
  | .ligArrive _ w => ownWord 0xE0 w
  | .ligSignal _ w => ownWord 0xE1 w
  | .ligWait _ w => ownWord 0xE2 w
  | .ligReset _ w => ownWord 0xE3 w
  | .ligRead _ w => ownWord 0xE4 w
  | .ligTstat _ w => ownWord 0xE5 w
  | .ligatureOpApplied n ops => oneCluster n ops
  | .waiterRelease _ => true
  | .waitReapply _ => true
  | .ligatureWaitTimeout _ => true
  | .ligatureOpCompletion _ _ => true
  | .farLigatureArrival _ => true
  | .timedActionExecute _ _ => true
  | .coreMeshCfgWrite _ _ => true
  | .meshFlitHop _ _ ce ue => ce.all (fun n => !ue.contains n)
  | .meshLinkReplay _ _ _ => true
  | .hairlineReplay _ _ _ => true
  | .timeBeacon => true
  | .beaconArrival _ => true
  | .regionCreate _ _ _ => true
  | .regionReset _ _ => true
  | .regionRelease _ _ => true
  | .regionDelete _ _ => true
  | .regionIdle _ => true
  | .idleTimeout _ => true
  | .forceComplete _ => true
  | .forceOverrun _ _ => true
  | .wipingDone _ => true
  | .clientAdmit own _ _ _ => payloadOk own
  | .clientRemove own => payloadOk own
  | .clientRemoveComplete _ => true
  | .cliSeedWrite _ _ => true
  | .ingressDelivery _ => true
  | .ingressPromotion _ _ => true
  | .egressPoll _ => true
  | .egressFrameSend _ => true
  | .energyEstimate _ counts => decide (counts.length ≤ 56)
  | .energyReconcile _ => true
  | .portModeWrite _ _ => true
  | .portBlockReset _ => true
  | .portResetTimeout _ => true
  | .portAdmitWrite _ _ => true
  | .laneGroupTrainingTimeout _ _ _ => true
  | .linkInitComplete _ good peer alloc adapted => distinct good && distinct peer && decide (alloc.length = 8) && decide (adapted.length ≤ 32)
  | .fecWindowCheck _ _ => true
  | .groupRetrainComplete _ _ => true
  | .groupRetrainTimeout _ _ => true
  | .linkBlockReceive _ b => blockOk b
  | .gatewayReservation _ => true
  | .gatewayGrant _ => true
  | .reservationRetry _ => true
  | .gatewayHoldLimit _ => true
  | .helloSend _ => true
  | .helloReceive _ _ => true
  | .peerLoss _ => true
  | .ethFrameReceive _ _ bytes _ _ => decide (bytes.length < 2 ^ 14)
  | .ethLinkStateChange _ _ _ found => decide (found.adapted.length = 4)
  | .portClsCmdWrite _ => true
  | .ptpTxTagRead _ => true
  | .fabricPacketArrival _ _ => true
  | .escapePacketArrival _ _ => true
  | .gatewayReadRepresent _ _ => true
  | .enteringPromotion _ => true
  | .fabRtWrite _ _ _ _ => true
  | .fabEpochAtWrite _ => true
  | .epochSwitch => true
  | .epochIdle => true
  | .cmapSend _ => true
  | .cmapReceive _ _ => true
  | .cmapStale _ => true
  | .timeTransferSend _ _ => true
  | .timeTransferReceive _ _ _ => true
  | .timeParentLoss => true
  | .mgmtFrameReceive _ _ bytes => decide (bytes.length < 2 ^ 14)
  | .sequenceGapTimeout _ _ => true
  | .sessionOpen _ => true
  | .sessionClose => true
  | .status => true
  | .imageChunk => true
  | .imageCommit => true
  | .imageAbort => true
  | .colophon => true
  | .repairList => true
  | .regRead _ _ => true
  | .regWrite _ => true
  | .registerWrite _ _ _ => true
  | .bindingSet _ _ _ _ _ _ _ _ _ => true
  | .counterSnap => true
  | .logRead _ => true
  | .fmEnable devices sends =>
    devices.all (fun d => decide (d < 2 ^ 64)) && sends.all sendOk
  | .fmTrust => true
  | .fmCommandArrival _ _ _ => true
  | .jobResetArrival _ => true
  | .deviceReset _ _ => true
  | .freeze => true
  | .scribeFrameReceive act => match act with
    | .fabric sends => sends.all sendOk
    | _ => true
  | .scrMcKeyWrite _ _ => true
  | .watchdogKick _ _ => true
  | .watchdogExpiry _ _ => true
  | .startOk => true
  | .rstDeviceReset => true
  | .exemplarCommit => true
  | .exemplarClearAll => true
  | .exemplarRun _ cores _ => distinct cores && !cores.isEmpty
  | .exemplarRunEnd _ _ _ => true
  | .detectedErrorReport _ => true
  | .suspectScoreHalving => true
  | .failedCoreProcedure _ => true
  | .repairRemap _ => true
  | .checkVote _ _ _ digests => decide (digests.length ≤ 2)
  | .voteDigestTimeout _ _ _ digests => decide (digests.length ≤ 2)
  | .clkFreqAtWrite _ => true
  | .clkFreqTargetWrite _ => true
  | .frequencySlewStart => true
  | .crossingSweep _ _ _ _ => true
  | .referenceLoss _ => true
  | .pllRelock _ _ => true
  | .holdoverTimeout _ => true
  | .refclkLoss => true
  | .refclkReturn => true
  | .timeNsRead _ => true
  | .timeStageArm _ => true
  | .timeCommit => true
  | .ppsInEdge _ => true
  | .ppsInLoss => true
  | .ppsOutPulse => true
  | .ppsOutEnd => true
  | .avsFrame bus amps volts answered =>
    decide (amps.length ≤ 12) && decide (volts.length ≤ if bus.val = 12 then 4 else 1) && decide (answered.length ≤ 12)
  | .railFault bus rail _ => railOk bus rail
  | .voltageLoopDecision _ _ _ => true
  | .droopDetect _ _ _ clocks _ => decide (0 < clocks)
  | .hintRailRaise _ _ _ => true
  | .boostPrecharge _ _ => true
  | .hintRailReturn _ _ => true
  | .pwrModeWrite _ => true
  | .governorPeriod => true
  | .raiseSettleElapsed => true
  | .peakLimiter _ _ => true
  | .clusterCurrentLimit _ _ _ => true
  | .temperatureRead _ _ => true
  | .coolantOkLow => true
  | .islandRestart => true
  | .powerOn _ _ => true
  | .railRampTimeout bus rail => railOk bus rail
  | .resetNAssert => true
  | .resetNHeld => true
  | .resetExit seen _ => seen.railsOut.all (fun x => decide (x.1 < 12 ∧ x.2 < 12 ∨ x.1 = 12 ∧ x.2 < 4))
  | .bringupPhaseComplete found => bringupOk found
  | .phaseLimitExceeded => true
  | .startTimerExpiry => true
  | .snapAtWrite _ => true
  | .snapCopy => true
  | .firmwareLogWrite _ _ => true
  | .freezeNLow => true
  | .freezeTick => true
  | .dbgBlotSelWrite _ => true
  | .dbgBlotDataRead => true
  | .extest pins load => decide (pins.length = load.length)
  | .samplePreload pins load => decide (pins.length = load.length)
  | .idcode => true
  | .clamp => true
  | .highz => true
  | .extestPulse pins load => decide (pins.length = load.length)
  | .extestTrain pins load => decide (pins.length = load.length)
  | .dbgreg _ _ => true
  | .blotter => true
  | .bypass => true
  | .timeBaseTick => true
  | .frequencySlewEnd => true
  | .coolantOkHigh => true
  | .scribeCoreBlockResetTimeout _ => true
  | .exemplarOverdue _ => true

end Sys2Proof
end

