-- ==== Sys2Proof/Tests/Slice0.lean ====
section
/-! SUPPORT. The model's own tests: WellFormed turns ill-formed terms away, instructions written out from their encodings take one step, and for every
statement that has hypotheses a concrete state and operands meet them, clause by clause. -/

namespace Sys2Proof.Tests

open Sys2Proof.Machine

set_option Elab.async false

/-! ## States for the tests -/

/-- Region 0 on cluster 0, ready. -/
def tRegion (s : State) : State := (s.setRgn 0 fRgnCfgEnable 1).setRgn 0 fRgnCfgWidth 1

/-- The device up with cluster 0 locked and in region 0, core 0 running. -/
def tUp : State :=
  (tRegion ((({ State.reset with dev := .up }).setFld fClkClStatusLocked 1))).mapCore 0 (fun c => { c with ctl := { c.ctl with running := true } })

/-- That device with core 0 changed. -/
def tCore (f : Core → Core) : State := tUp.mapCore 0 f

/-- That device with the control unit of core 0 changed. -/
def tCtl (f : Ctl → Ctl) : State := tCore (fun c => { c with ctl := f c.ctl })

/-- An instruction word: its opcode in bits 63 to 56, and a value at each of some bit positions (R43, R44). -/
def tWord (op : Nat) (fs : List (Nat × Nat)) : Word := fs.foldl (fun w f => w ||| (BitVec.ofNat 64 f.2 <<< f.1)) (BitVec.ofNat 64 (op * 2 ^ 56))

/-- That each of some conditions holds. -/
def tAll (l : List Bool) : Bool := l.all id

/-- What Issues asks, as a Bool. -/
def issuesB (op : Nat) (resv : Word → Bool) (i : CoreId) (w : Word) (s : State) : Bool :=
  (s.core i.val).canIssue (s.env i.val) && decide ((s.core i.val).ctl.held = none ∨ (s.core i.val).ctl.held = some w) &&
    !(s.core i.val).ctl.codePoison.look (s.core i.val).ctl.pc false && decide (opOf w = op) && !resv w && guardOn w (s.core i.val).ctl

theorem issues_of {op : Nat} {resv : Word → Bool} {i : CoreId} {w : Word} {s : State} (h : issuesB op resv i w s = true) : Issues op resv i w s := by
  simp only [issuesB, Bool.and_eq_true, Bool.not_eq_true', decide_eq_true_eq] at h
  exact { can := h.1.1.1.1.1, held := h.1.1.1.1.2, clean := h.1.1.1.2, row := h.1.1.2, legal := h.1.2, on := h.2 }

/-- What Room asks, as a Bool. -/
def roomB (i : CoreId) (s : State) : Bool := decide ((afterIndex (s.core i.val).ctl.pc (s.core i.val).ctl.loops).2 < 8192)

theorem room_of {i : CoreId} {s : State} (h : roomB i s = true) : Room i s := by
  simpa [roomB, Room] using h

/-- Registers whose copies were never told apart agree. -/
theorem agrees_of {p : Nat → Bool} {s : State} (h : s.copies = []) : Agrees p s := by
  simp [Agrees, State.voteWhere, h]

/-- The states of the tests hold no copy apart. -/
theorem witness_Agrees : tUp.copies = [] ∧ Agrees (fun _ => true) tUp := ⟨by decide +kernel, agrees_of (by decide +kernel)⟩
/-! ## WellFormed: a term that each check turns away -/

theorem wf_row_opcodes : (List.range 256).all (fun op => rowOpcode op == assigned op) = true := by decide +kernel

theorem wf_word : (Instr.sAdd 0 (tWord 0x10 [])).wf = true ∧ (Instr.sAdd 0 (tWord 0x11 [])).wf = false ∧ (Instr.sAdd 0 (tWord 0x0F [])).wf = true := by
  decide

theorem wf_well_address : (Instr.asyncWordForced 0 0 true 0 524287).wf = true ∧ (Instr.asyncWordForced 0 0 true 0 524288).wf = false ∧
    (Instr.wellScrubAccess 0 524288 []).wf = false ∧ (Instr.wellScrubAccess 0 0 [(524288, true)]).wf = false := by decide

theorem wf_reservoir_line : (Instr.reservoirLineDelivery 0 0 4194304).wf = false ∧ (Instr.reservoirScrub 0 [(20971520, true)]).wf = false := by
  decide +kernel

theorem wf_flit_words : (Instr.meshFlitHop 0 0 [1] [1]).wf = false := by decide

theorem wf_one_cluster : (Instr.ligatureOpApplied 0 [(0, true), (8, true)]).wf = false ∧ (Instr.ligatureOpApplied 0 [(0, true), (0, true)]).wf = false ∧
    (Instr.ligatureOpApplied 0 [(0, true), (1, false)]).wf = true := by decide

theorem wf_counts : (Instr.energyEstimate 0 (List.replicate 57 [])).wf = false := by decide +kernel

theorem wf_lane_groups : (Instr.linkInitComplete 0 [1, 1] [] (List.replicate 8 0) []).wf = false ∧ (Instr.linkInitComplete 0 [] [] [] []).wf = false ∧
    (Instr.linkInitComplete 0 [] [] (List.replicate 8 0) (List.replicate 33 0)).wf = false := by decide +kernel

theorem wf_link_block : (Instr.linkBlockReceive 0 ⟨65536, 0, false, false, [], [], [], true, 0, [], []⟩).wf = false ∧
    (Instr.linkBlockReceive 0 ⟨0, 0, false, false, [], [], List.replicate 17 none, true, 0, [], []⟩).wf = false ∧
    (Instr.linkBlockReceive 0 ⟨0, 0, false, true, [1, 1], [], [], true, 0, [], []⟩).wf = false := by decide +kernel

theorem wf_request_payload : (Instr.clientAdmit (some (List.replicate 16384 0)) [] [] false).wf = false ∧
    (Instr.clientRemove (some (List.replicate 16384 0))).wf = false ∧ (Instr.mgmtFrameReceive 0 0 (List.replicate 16384 0)).wf = false ∧
    (Instr.ethFrameReceive 0 0 (List.replicate 16384 0) true 0).wf = false := by decide +kernel

theorem wf_managed_devices : (Instr.fmEnable [2 ^ 64] []).wf = false ∧ (Instr.fmEnable [] [⟨0, 2 ^ 18, [], []⟩]).wf = false ∧
    (Instr.fmEnable [] [⟨0, 0, List.replicate 25 0, []⟩]).wf = false ∧ (Instr.fmEnable [] [⟨0, 0, [16], []⟩]).wf = false ∧
    (Instr.scribeFrameReceive (.fabric [⟨2 ^ 64, 0, [], []⟩])).wf = false := by decide +kernel

theorem wf_reset_exit : (Instr.resetExit ⟨true, [(12, 4)], []⟩ false).wf = false ∧ (Instr.resetExit ⟨true, [(12, 3)], []⟩ false).wf = true := by decide

theorem wf_adapted_lanes : (Instr.ethLinkStateChange 0 0 true ⟨false, []⟩).wf = false := by decide

theorem wf_droop_clocks : (Instr.droopDetect 0 0 false 0 false).wf = false := by decide

theorem wf_exemplar : (Instr.exemplarRun 0 [] none).wf = false ∧ (Instr.exemplarRun 0 [3, 3] none).wf = false := by decide

theorem wf_digests : (Instr.checkVote false 0 () (List.replicate 3 ⟨0, 0, 0, 0⟩)).wf = false ∧
    (Instr.voteDigestTimeout false 0 () [none, none, none]).wf = false := by decide

theorem wf_rails : (Instr.avsFrame 0 (List.replicate 13 none) [] []).wf = false ∧ (Instr.avsFrame 0 [] [none, none] []).wf = false ∧
    (Instr.railFault 12 4 true).wf = false ∧ (Instr.railFault 12 3 true).wf = true ∧ (Instr.railRampTimeout 12 4).wf = false := by decide

theorem wf_bringup : (Instr.bringupPhaseComplete ⟨[144], [], [], [], [], [], [], []⟩).wf = false ∧
    (Instr.bringupPhaseComplete ⟨[], [], [], [], [], [(0, 3)], [], []⟩).wf = false := by decide

theorem wf_boundary : (Instr.samplePreload [true] []).wf = false ∧ (Instr.extest [true] []).wf = false ∧ (Instr.extestPulse [true] []).wf = false ∧
    (Instr.extestTrain [true] []).wf = false := by decide

/-! ## The manual's worked examples -/

/-- What a step's next state holds, or a value that says there is none. -/
def after {α : Type} (o : Host.Outcome State Fault Refusal) (d : α) (f : State → α) : α :=
  match o with
  | .next t => f t
  | _ => d

/-- The words of the summing loop and of the barrier, from the fields that the examples give (chapters 3 and 10). -/
theorem test_words :
    tWord 0x30 [(43, 1), (0, 0x1000)] = 0x3000080000001000 ∧ tWord 0x20 [(47, 5)] = 0x2002800000000000 ∧
    tWord 0x54 [(32, 2), (0, 64)] = 0x5400000200000040 ∧ tWord 0x38 [(47, 6), (43, 1), (42, 1), (0, 1)] = 0x38030C0000000001 ∧
    tWord 0x10 [(47, 5), (42, 5), (37, 6)] = 0x100294C000000000 ∧ tWord 0x39 [(47, 5), (43, 1)] = 0x3902880000000000 := by decide

/-- a.addi of the summing loop: a1 becomes the address of the first word. -/
theorem test_loop_address : after (exec (.aAddi 0 0x3000080000001000) tUp) 0 (fun t => (t.core 0).ctl.a 1) = 0x1000 := by decide +kernel

/-- loop of the summing loop: 64 passes over the two words after it. -/
theorem test_loop_count : after (exec (.loop 0 0x5400000200000040) tUp) [] (fun t => (t.core 0).ctl.loops.map (fun l => (l.start, l.count))) = [(1, 64)] := by
  decide +kernel

/-- s.add of the summing loop. -/
theorem test_loop_add : after (exec (.sAdd 0 0x100294C000000000) (tCtl (fun c => (c.setS 5 40 false).setS 6 2 false))) 0
    (fun t => ((t.core 0).ctl.s 5).toNat) = 42 := by decide +kernel

/-- Three products in any order sum to 1.0 at the format anchor (chapter 4). -/
theorem test_exact_sum :
    formatAnchor 4 4 = -32 ∧
    let term (n : Bool) (m : Nat) : LsTerm := lsTermOf (.fin n m 0) (-32) 80 false
    let sum (l : List LsTerm) : LsEntry := l.foldl lsAdd lsZero
    ([[term false (2 ^ 30), term false 1, term true (2 ^ 30)], [term false (2 ^ 30), term true (2 ^ 30), term false 1],
      [term true (2 ^ 30), term false (2 ^ 30), term false 1]]).all (fun l => (sum l).n = 2 ^ 32 && !(sum l).spill) = true := by decide +kernel

/-- Five products at the anchor −4: the integers sum to 7, with the spill tag (chapter 4). -/
theorem test_spilled_sum :
    let t (n : Bool) (m : Nat) (e : Int) : LsTerm := lsTermOf (.fin n m e) (-4) 80 false
    let e := [t false 7 (-1), t true 1 (-5), t false 3 (-4), t true 13 (-2), t false 3 (-5)].foldl lsAdd lsZero
    (e.n.toInt = 7 ∧ e.spill = true) := by decide +kernel

/-- An MXFP4 block of scale 2: 12.0, 5.0 and −0.3 (chapter 4). -/
theorem test_mxfp4 : roundTo 8 ⟨0, 0⟩ false (.fin false 6 0) = (7, 0) ∧ roundTo 8 ⟨0, 0⟩ false (.fin false 5 (-1)) = (4, flagInexact) ∧
    roundTo 8 ⟨0, 0⟩ false (.fin true 77 (-9)) = (8, flagInexact) := by decide +kernel

/-! ## Witnesses: the control unit -/

/-- StepRunsFrontCommand. -/
theorem witness_StepRunsFrontCommand : State.reset.pending = [] := rfl

/-- WordOfAnotherRowRefused: s.add's row with a word of s.sub. -/
theorem witness_WordOfAnotherRowRefused : (0x10, Instr.sAdd) ∈ wordRows ∧ opOf (tWord 0x11 []) ≠ 0x10 ∧ assigned (opOf (tWord 0x11 [])) = true :=
  ⟨by simp [wordRows], by decide, by decide⟩

/-- QueueUntouched: a command of an idle device. -/
theorem witness_QueueUntouched : step { State.reset with pending := [.startOk] } = .next State.reset := rfl

/-- LifecycleForward: in Provisioned, in Retired and in Blank. -/
theorem witness_LifecycleForward :
    (∀ n ∈ [1, 255, 0], let s : State := { State.reset with life := n, lifeCopies := (n, n, n) }
      LifeInv s ∧ step { s with pending := [.startOk] } = .next s) ∧
    ({ State.reset with life := 255 } : State).lifecycle = 4 ∧ ({ State.reset with life := 0 } : State).lifecycle = 0 := by
  refine ⟨fun n hn => ?_, by decide, by decide⟩
  simp only [List.mem_cons, List.not_mem_nil, or_false] at hn
  rcases hn with rfl | rfl | rfl <;> exact ⟨by simp [LifeInv, State.reset], rfl⟩

/-- The words of the next witnesses: s3 from s1 and s2, s0 from s1 and s2. -/
def tS (op : Nat) : Word := tWord op [(47, 3), (42, 1), (37, 2)]

/-- HardwiredRegisters. -/
theorem witness_HardwiredRegisters :
    (0x10, Instr.sAdd, fun a b : Word => BitVec.ofNat 64 (a.toNat + b.toNat)) ∈ scalarRows ∧ (0x48, Instr.pAnd, and) ∈ predicateRows ∧
    issuesB 0x10 resvS 0 (tWord 0x10 [(42, 1), (37, 2)]) tUp = true ∧ issuesB 0x30 (fun w => nz w 47 5 || nz w 32 7) 0 (tWord 0x30 [(39, 1), (0, 5)]) tUp = true ∧
    issuesB 0x48 resvPred 0 (tWord 0x48 [(46, 1), (43, 2)]) tUp = true ∧ roomB 0 tUp = true ∧
    (tUp.core 0).ctl.busy 1 = false ∧ (tUp.core 0).ctl.busy 2 = false ∧ fSd (tWord 0x10 [(42, 1), (37, 2)]) = 0 ∧ fAd (tWord 0x30 [(39, 1), (0, 5)]) = 0 ∧
    fieldOf (tWord 0x48 [(46, 1), (43, 2)]) 49 3 = 0 := by
  refine ⟨by simp [scalarRows], by simp [predicateRows], ?_⟩; decide +kernel

/-- ScalarResult: every scalar row, and s.lih. -/
theorem witness_ScalarResult :
    (scalarRows.all (fun r => issuesB r.1 resvS 0 (tS r.1) tUp) && immediateRows.all (fun r => issuesB r.1 r.2.1 0 (tWord r.1 [(47, 3), (42, 1), (0, 63)]) tUp) &&
      issuesB 0x27 (fun w => nz w 32 15) 0 (tWord 0x27 [(47, 31), (0, 0xFFFFFFFF)]) tUp && roomB 0 tUp) = true ∧
    (∀ n < 32, (tUp.core 0).ctl.busy n = false) := by decide +kernel

/-- AddressAndPredicateResult: a plain and a poisoned a.mv, a compare of registers, of an immediate and of a poisoned register, and predicate logic. -/
theorem witness_AddressAndPredicateResult :
    let w := tWord 0x31 [(47, 1), (43, 15), (0, 0xFFFFFFFF)]
    let p := tCtl (·.setS 1 7 true)
    (issuesB 0x30 (fun w => nz w 47 5 || nz w 32 7) 0 (tWord 0x30 [(43, 15), (39, 1), (0, 0xFFFFFFFF)]) tUp &&
      issuesB 0x31 (fun w => nz w 32 11) 0 w tUp && issuesB 0x31 (fun w => nz w 32 11) 0 w p &&
      issuesB 0x32 (fun w => nz w 43 4 || nz w 32 7) 0 (tWord 0x32 [(47, 2), (39, 1)]) tUp && roomB 0 tUp &&
      compareRows.all (fun r => issuesB r.1 resvCmp 0 (tWord r.1 [(49, 7), (38, 1), (33, 2)]) tUp) &&
      compareRows.all (fun r => issuesB r.1 resvCmp 0 (tWord r.1 [(49, 1), (38, 1), (32, 1), (0, 0x80000000)]) p) &&
      predicateRows.all (fun r => issuesB r.1 resvPred 0 (tWord r.1 [(49, 1), (46, 2), (43, 7)]) tUp)) = true ∧
    (tUp.core 0).ctl.busy 1 = false ∧ (tUp.core 0).ctl.sp 1 = false ∧ (p.core 0).ctl.busy 1 = false ∧ (p.core 0).ctl.sp 1 = true := by decide +kernel

/-- SystemInstructions: a register that can be read and written, one that can be read, and one that cannot. -/
theorem witness_SystemInstructions :
    let rd (n : Nat) := tWord 0x02 [(47, 1), (0, n)]
    let wr (n : Nat) := tWord 0x03 [(42, 1), (0, n)]
    let r : Word → Bool := fun w => nz w 32 15 || nz w 12 20
    let v : Word → Bool := fun w => nz w 47 5 || nz w 32 10 || nz w 12 20
    (issuesB 0x00 (fun w => nz w 0 52) 0 (tWord 0 []) tUp && issuesB 0x01 (fun w => nz w 32 15 || nz w 8 24) 0 (tWord 1 [(47, 1), (0, 255)]) tUp &&
      issuesB 0x02 r 0 (rd 0) tUp && issuesB 0x02 r 0 (rd 0xFFF) tUp && issuesB 0x03 v 0 (wr 1) tUp && issuesB 0x03 v 0 (wr 0x10) tUp &&
      issuesB 0x04 (fun w => nz w 0 52) 0 (tWord 4 []) tUp && roomB 0 tUp) = true ∧ (tUp.core 0).ctl.busy 1 = false ∧
    (specialRead (tUp.core 0).ctl (fieldOf (rd 0) 0 12)).isSome = true ∧ specialRead (tUp.core 0).ctl (fieldOf (rd 0xFFF) 0 12) = none ∧
    (specialWrite (tUp.core 0).ctl (fieldOf (wr 1) 0 12) ((tUp.core 0).ctl.s 1)).isSome = true ∧
    specialWrite (tUp.core 0).ctl (fieldOf (wr 0x10) 0 12) ((tUp.core 0).ctl.s 1) = none := by decide +kernel

/-- WellLoadsAndStores: the last word of the well, the first address past it, and a post-increment. -/
theorem witness_WellLoadsAndStores :
    (issuesB 0x38 resvM 0 (tWord 0x38 [(47, 1), (0, 2 ^ 19)]) tUp && issuesB 0x39 resvM 0 (tWord 0x39 [(47, 1), (0, 2 ^ 19)]) tUp &&
      issuesB 0x38 resvM 0 (tWord 0x38 [(47, 1), (0, 2 ^ 19 - 1)]) tUp && issuesB 0x39 resvM 0 (tWord 0x39 [(47, 1), (0, 2 ^ 19 - 1)]) tUp &&
      issuesB 0x39 resvM 0 (tWord 0x39 [(47, 1), (43, 1), (42, 1), (0, 8)]) tUp && roomB 0 tUp) = true ∧ (tUp.core 0).ctl.busy 1 = false ∧
    (∃ t, exec (.sLd 0 (tWord 0x38 [(47, 1), (0, 2 ^ 19 - 1)])) tUp = .next t) ∧ (∃ t, exec (.sSt 0 (tWord 0x39 [(47, 1), (0, 2 ^ 19 - 1)])) tUp = .next t) :=
  ⟨by decide +kernel, by decide +kernel, ⟨_, rfl⟩, ⟨_, rfl⟩⟩

/-- BranchTargets: to the first index and just below it, to the last index and just beyond it. -/
theorem witness_BranchTargets :
    let b : Word → Bool := fun w => nz w 16 36
    let j : Word → Bool := fun w => nz w 16 31
    (issuesB 0x50 b 0 (tWord 0x50 [(0, 8191)]) tUp && issuesB 0x50 b 0 (tWord 0x50 [(0, 8192)]) tUp && issuesB 0x50 b 0 (tWord 0x50 [(0, 0xFFFF)]) tUp &&
      issuesB 0x51 j 0 (tWord 0x51 [(47, 1)]) tUp && issuesB 0x51 j 0 (tWord 0x51 [(47, 1), (0, 0xFFFF)]) tUp &&
      issuesB 0x52 (fun w => nz w 0 47) 0 (tWord 0x52 [(47, 1)]) tUp) = true ∧ (tUp.core 0).ctl.busy 1 = false ∧
    (((tUp.core 0).ctl.pc : Int) + ((tWord 0x50 [(0, 8191)]).extractLsb' 0 16).toInt = (8191 : Nat)) ∧
    8192 ≤ ((tUp.core 0).ctl.pc : Int) + ((tWord 0x50 [(0, 8192)]).extractLsb' 0 16).toInt ∧
    ((tUp.core 0).ctl.pc : Int) + ((tWord 0x51 [(47, 1), (0, 0xFFFF)]).extractLsb' 0 16).toInt < 0 ∧
    (((tUp.core 0).ctl.pc : Int) + ((tWord 0x51 [(47, 1)]).extractLsb' 0 16).toInt = (0 : Nat)) := by decide +kernel

/-- LoopBodies: a body past the end, a fifth loop, a body that ends beyond the innermost, one that ends with it, and a count of 0. -/
theorem witness_LoopBodies :
    let r : Word → Bool := fun w => nz w 50 2 || (nz w 45 5 && nz w 0 32) || !nz w 32 13
    let l4 := tCtl (fun k => { k with loops := List.replicate 4 ⟨2, 0, 9⟩ })
    let l1 := tCtl (fun k => { k with loops := [⟨2, 0, 9⟩] })
    (issuesB 0x54 r 0 (tWord 0x54 [(32, 8191), (0, 3)]) (tCtl (fun k => { k with pc := 1 })) && issuesB 0x54 r 0 (tWord 0x54 [(32, 9), (0, 3)]) l4 &&
      issuesB 0x54 r 0 (tWord 0x54 [(32, 10), (0, 3)]) l1 && issuesB 0x54 r 0 (tWord 0x54 [(32, 9), (0, 1)]) l1 &&
      issuesB 0x54 r 0 (tWord 0x54 [(45, 1), (32, 9)]) l1) = true ∧
    (l1.core 0).ctl.busy 1 = false ∧ (l1.core 0).ctl.sp 1 = false ∧ (∃ l ∈ (l1.core 0).ctl.loops.head?, l.last < 10) ∧ (l1.core 0).ctl.loops.length < 4 ∧
    (∀ l ∈ (l1.core 0).ctl.loops.head?, 9 ≤ l.last) ∧ 4 ≤ (l4.core 0).ctl.loops.length ∧
    ((l1.core 0).ctl.s 1).toNat % 2 ^ 32 = 0 ∧ (afterIndex 9 (l1.core 0).ctl.loops).2 < 8192 := by decide +kernel

/-- CompletionCounters: a distance below zero, of zero, a quiet core and one with a queued instruction, and a wait past its limit. -/
theorem witness_CompletionCounters :
    let r : Word → Bool := fun w => nz w 47 2 || nz w 32 10
    let busy := tCore (fun c => { c with ch := { c.ch with queue := [⟨0, 0, 0, 0, 0, 0, 0, 0, 0, 0, false⟩] } })
    let wait := tCtl (fun k => { k with held := some (tWord 0x60 [(0, 1)]) })
    (issuesB 0x60 r 0 (tWord 0x60 [(49, 7), (0, 1)]) tUp && issuesB 0x60 r 0 (tWord 0x60 [(49, 7)]) tUp && issuesB 0x61 r 0 (tWord 0x61 [(42, 1)]) tUp &&
      issuesB 0x62 (fun w => nz w 47 2 || nz w 32 10 || nz w 0 32) 0 (tWord 0x62 [(42, 1)]) tUp && issuesB 0x63 (fun w => nz w 0 52) 0 (tWord 0x63 []) busy &&
      issuesB 0x63 (fun w => nz w 0 52) 0 (tWord 0x63 []) tUp && roomB 0 tUp) = true ∧
    ((tUp.core 0).ctl.cc[7]! - 1#32).toInt < 0 ∧ (tUp.core 0).quiet = true ∧ (busy.core 0).quiet = false ∧
    (wait.core 0).canIssue (wait.env 0) = true ∧ (wait.core 0).ctl.waitLimit ≠ 0 ∧ (wait.core 0).waits (wait.env 0) = true := by decide +kernel

/-- EventAndTimeInstructions: an empty and a filled queue, inside the handler and outside it. -/
theorem witness_EventAndTimeInstructions :
    let full := tCtl (fun k => { k with evq := [5] })
    let hand := tCtl (fun k => { k with inHandler := true, evtPc := 8191 })
    (issuesB 0x68 (fun w => nz w 0 47) 0 (tWord 0x68 [(47, 1)]) tUp && issuesB 0x69 (fun w => nz w 0 52) 0 (tWord 0x69 []) tUp &&
      issuesB 0x69 (fun w => nz w 0 52) 0 (tWord 0x69 []) full && issuesB 0x6A (fun w => nz w 0 52) 0 (tWord 0x6A []) hand &&
      issuesB 0x6A (fun w => nz w 0 52) 0 (tWord 0x6A []) tUp && issuesB 0x6B (fun w => nz w 1 51) 0 (tWord 0x6B [(0, 1)]) tUp &&
      issuesB 0x70 (fun w => nz w 0 47) 0 (tWord 0x70 [(47, 1)]) tUp && issuesB 0x71 resvTArm 0 (tWord 0x71 [(49, 7), (46, 1), (40, 1), (35, 2)]) tUp &&
      issuesB 0x72 (fun w => nz w 32 15 || nz w 3 29) 0 (tWord 0x72 [(47, 1), (0, 7)]) tUp && issuesB 0x78 (fun w => nz w 32 16) 0 (tWord 0x78 [(48, 15)]) tUp &&
      roomB 0 tUp && roomB 0 full) = true ∧ (∀ n < 32, (tUp.core 0).ctl.busy n = false ∧ (tUp.core 0).ctl.sp n = false) ∧
    (full.core 0).ctl.evq ≠ [] ∧ (hand.core 0).ctl.inHandler = true ∧ (hand.core 0).ctl.evtPc < 8192 := by decide +kernel

/-- GuardsAndPreciseTraps: a reserved field, a guard of p1, which reads 0, and a poisoned code-store word. -/
theorem witness_GuardsAndPreciseTraps :
    let p := tCtl (fun k => { k with codePoison := [(0, true)] })
    issuesB 0x10 (fun _ => false) 0 (tWord 0x10 [(0, 1)]) tUp = true ∧ resvS (tWord 0x10 [(0, 1)]) = true ∧
    (tUp.core 0).canIssue (tUp.env 0) = true ∧ guardOn (tWord 0x10 [(53, 1)]) (tUp.core 0).ctl = false ∧ resvS (tWord 0x10 [(53, 1)]) = false ∧ roomB 0 tUp = true ∧
    (tUp.core 0).ctl.held = none ∧ (tUp.core 0).ctl.codePoison.look (tUp.core 0).ctl.pc false = false ∧
    (tUp.core 0).ctl.halted = false ∧ (tUp.core 0).ctl.pc < 2 ^ 13 ∧ (p.core 0).canIssue (p.env 0) = true ∧ (p.core 0).ctl.held = none ∧
    (p.core 0).ctl.codePoison.look (p.core 0).ctl.pc false = true := by decide +kernel

/-- EventsAndHandler: the thirty-first and the thirty-second event, one of another generation, and a core about to enter its handler. -/
theorem witness_EventsAndHandler :
    let m (g : Nat) : EventMsg := ⟨2, 4, 0, g⟩
    let n (k g : Nat) := tCore (fun c => { c with inbound := [m g], ctl := { c.ctl with evq := List.replicate k 0 } })
    let h := tCtl (fun k => { k with evEn := true, evq := [5] })
    ((n 30 0).core 0).inbound.find? (fun m => decide (m.cls = 2)) = some (m 0) ∧ ((n 30 0).core 0).ctl.evq.length < 31 ∧
    31 ≤ ((n 31 0).core 0).ctl.evq.length ∧ ((n 0 1).core 0).inbound.find? (fun m => decide (m.cls = 2)) = some (m 1) ∧
    (m 0).gen % 256 = ((n 30 0).env 0).gen ∧ (m 0).gen % 256 = ((n 31 0).env 0).gen ∧ (m 1).gen % 256 ≠ ((n 0 1).env 0).gen ∧
    (h.core 0).entersHandler (h.env 0) = true := by decide +kernel

/-! ## Witnesses: ligatures and timed actions -/

/-- An operation as an engine's queue holds it: its word, and the values of sa and sb. -/
def tOp (w sa sb : Word) : EngOp := ⟨w, 0, sa, sb, 0, 0, 0, 0, 0, 0, false⟩

/-- That device with a time well past its start. -/
def tLate (ns : Nat) (s : State) : State := { s.setFld fTimeNsNs ns with mono := ns }

/-- The interpolated counter is at most 4 ns behind a cluster that does not hold over. -/
theorem timeAt_ge (s : State) (n k : Nat) (h : (s.cluster n).interp = 0) (hk : k + 4 ≤ s.time) : k ≤ s.timeAt n := by
  unfold State.timeAt; rw [h]; omega

/-- LigatureIssue: a ligature of the device, a name outside the region, and the binding 255. -/
theorem witness_LigatureIssue :
    let b : Binding := ⟨5, 0, 0, 0, 0, 0, 2⟩
    let s := { tUp with bindings := [(255, some b)] }
    let out := tCtl (·.setS 1 (BitVec.ofNat 64 (2 ^ 17 - 1)) false)
    (issuesB 0xE0 resvLigFire 0 (tWord 0xE0 [(43, 1)]) tUp && issuesB 0xE1 resvLigFire 0 (tWord 0xE1 [(43, 1)]) out &&
      issuesB 0xE1 resvLigFire 0 (tWord 0xE1 [(43, 1), (1, 255), (0, 1)]) s && issuesB 0xE2 resvLigTwo 0 (tWord 0xE2 [(43, 1), (38, 2)]) tUp &&
      issuesB 0xE3 resvLigTwo 0 (tWord 0xE3 [(43, 1), (38, 2)]) tUp && issuesB 0xE4 resvLigTwo 0 (tWord 0xE4 [(43, 1), (38, 2)]) tUp &&
      issuesB 0xE5 resvLigTstat 0 (tWord 0xE5 [(43, 1), (0, 7)]) tUp && roomB 0 tUp && roomB 0 out && roomB 0 s) = true ∧
    (∀ c ∈ [tUp.core 0, out.core 0, s.core 0], c.regsReady (tWord 0xE0 [(43, 1), (38, 2)]) true true = true ∧ c.ligFull = false ∧
      c.regsPoisoned (tWord 0xE0 [(43, 1), (38, 2)]) true true = false) ∧
    (ligCluster (tUp.env 0) ((tUp.core 0).engOp (tUp.env 0) (tWord 0xE0 [(43, 1)])).sa.toNat).isSome = true ∧
    ligCluster (out.env 0) ((out.core 0).engOp (out.env 0) (tWord 0xE1 [(43, 1)])).sa.toNat = none ∧
    ((s.core 0).engOp (s.env 0) (tWord 0xE1 [(43, 1), (1, 255), (0, 1)])).sa.toNat < 2 ^ 17 ∧
    s.bindings.look (256 * (s.env 0).region + fieldOf (tWord 0xE1 [(43, 1), (1, 255), (0, 1)]) 1 8) none = some b := by decide +kernel

/-- Cluster 0 with ligature 511 enabled and one arrival short of its expect. -/
def tLig (f : Cluster → Cluster) (s : State) : State :=
  s.mapCluster 0 (fun k => f (((k.setFld (fldAt fLigCfgEnable (8 * 511)) 1).setFld (fldAt fLigCfgTimeout (8 * 511)) 1).setLig 511 ⟨7, 2, 3⟩))

/-- LigatureOperation: each of the five operations on ligature 511. -/
theorem witness_LigatureOperation :
    ∀ op ∈ [0xE0, 0xE1, 0xE2, 0xE3, 0xE4], let o := tOp (tWord op []) 511 8
      let s := tLig id (tCore (fun c => { c with lig := { c.lig with queue := [o] } }))
      s.alive 0 = true ∧ (s.env 0).alive = true ∧ clusterOfCore 0 = 0 ∧ (s.core 0).lig.strays = [] ∧ (s.core 0).lig.queue = [o] ∧
      ligCluster (s.env 0) o.sa.toNat = some 0 ∧
      (s.cluster 0).ligOn (o.sa.toNat % 512) = true ∧ opOf o.w = op := by decide +kernel

/-- LigatureCompletion: a release, a wait tried again that is met and one that is not, a timeout of 1,000 ns, a lig.read and a lig.tstat. -/
theorem witness_LigatureCompletion :
    let o := tOp (tWord 0xE2 []) 511 8
    let x : Waiter := ⟨0, 511, 8, 511, 0, 0⟩
    let s := tLig (fun k => { k with releases := [0] }) (tCtl (fun k => { k with ligWait := some o }))
    let q := tLig (fun k => { k with waitQ := [x] }) tUp
    let q' := tLig (fun k => { k with waitQ := [{ x with target := 7 }] }) tUp
    let l := tLate 1004 (tLig (fun k => { k with waiters := [x] }) (tCtl (fun k => { k with ligWait := some o })))
    let d : LigDone := ⟨tOp (tWord 0xE4 [(38, 2)]) 511 0, 9⟩
    let r := tCore (fun c => { c with lig := { c.lig with applied := [d] } })
    let df : LigDone := ⟨tOp (tWord 0xE0 [(0, 1)]) 511 0, 0⟩
    let f := tCore (fun c => { c with lig := { c.lig with applied := [df] } })
    let t := tCore (fun c => { c with lig := { c.lig with queue := [tOp (tWord 0xE5 [(43, 1)]) 0 0] } })
    (ligCluster (s.env 0) o.sa.toNat = some 0 ∧ (s.env 0).alive = true ∧ (s.core 0).ctl.ligWait = some o ∧ 0 ∈ (s.cluster 0).releases ∧ roomB 0 s = true) ∧
    (q.alive 0 = true ∧ (q.cluster 0).waitQ = [x] ∧ (q.cluster 0).waiters.length < 1024 ∧ ligMet ((q.cluster 0).lig 511).phase 8 = false ∧
      ligMet ((q'.cluster 0).lig 511).phase 7 = true) ∧
    (f.farWaits (f.env 0) df.value.toNat = false ∧ (f.core 0).lig.applied[0]? = some df ∧ bitOf df.op.w 0 = true ∧ (f.env 0).alive = true) ∧
    (l.waitAt 0 = some 0 ∧ (l.cluster 0).waiters.find? (fun y => y.core = 0) = some x ∧ l.alive 0 = true ∧
      (l.cluster 0).fld (fldAt fLigCfgTimeout (8 * 511)) = 1 ∧ l.hubWaits 0 0 = false ∧ (l.send 0 0).1 = true ∧ x.since + 1000 * 2 ^ (1 - 1) ≤ l.timeAt 0) ∧
    ((r.env 0).alive = true ∧ (r.core 0).lig.applied[0]? = some d ∧ opOf d.op.w = 0xE4 ∧ eSb d.op.w ≠ 0) ∧
    ((t.env 0).alive = true ∧ (t.core 0).lig.applied[0]? = none ∧ (t.core 0).lig.queue = [tOp (tWord 0xE5 [(43, 1)]) 0 0] ∧
      opOf (tWord 0xE5 [(43, 1)]) = 0xE5 ∧ eSa (tWord 0xE5 [(43, 1)]) ≠ 0 ∧
      ((t.core 0).ctl.slots[fieldOf (tWord 0xE5 [(43, 1)]) 0 3]!).due (t.env 0).now = false) := by
  refine ⟨by decide +kernel, by decide +kernel, by decide +kernel, ⟨by decide +kernel, by decide +kernel, by decide +kernel, by decide +kernel,
    by decide +kernel, by decide +kernel, ?_⟩, by decide +kernel, by decide +kernel⟩
  exact timeAt_ge _ _ _ (by decide +kernel) (by decide +kernel)

/-- A slot as t.arm leaves it. -/
def tSlot (kind target armedAt : Nat) (strict : Bool) : TimedSlot := ⟨true, false, false, false, 0, target, armedAt, kind, strict, 511, 7, 0, false⟩

/-- FarAndTimedLigatureActions: a far signal, also while its region is being wiped, one of another generation and one to a ligature that is not enabled, and slot 7 on time, late, and late and strict, of each kind. -/
theorem witness_FarAndTimedLigatureActions :
    let x : FarOp := ⟨0, 0, true, 511, 0, 255, 9⟩
    let s := { tLig id tUp with farOps := [x, { x with gen := 1 }, { x with operand := 510 }] }
    (s.farOps[0]? = some x ∧ s.tooOld x.injectUs = false ∧ s.rgn x.region fRgnCfgEnable = 1 ∧ x.gen = s.rgn x.region fRgnStatusGeneration ∧
      ligCluster (s.regionEnv x.region) x.operand = some 0 ∧ (s.cluster 0).ligOn (x.operand % 512) = true) ∧
    (s.farOps[1]? = some { x with gen := 1 } ∧ 1 ≠ s.rgn 0 fRgnStatusGeneration ∧ s.farOps[2]? = some { x with operand := 510 } ∧
      ((ligCluster (s.regionEnv 0) 510).isNone || !(s.cluster (farUnit (s.regionEnv 0) 510)).ligOn (510 % 512)) = true) ∧
    (s.dev = .up ∧ s.rgn 0 fRgnStatusState ≠ 5 ∧ (s.setRgn 0 fRgnStatusState 5).rgn 0 fRgnStatusState = 5 ∧ (s.setRgn 0 fRgnStatusState 5).farOps[0]? = some x ∧
      (s.setRgn 0 fRgnStatusState 5).tooOld x.injectUs = false ∧ x.gen = (s.setRgn 0 fRgnStatusState 5).rgn 0 fRgnStatusGeneration ∧
      (s.setRgn 0 fRgnStatusState 5).rgn 0 fRgnCfgEnable = 1) ∧
    ∀ k ∈ [0, 1, 2, 3], ∀ strict ∈ [false, true], ∀ target ∈ [100, 10],
      let s := tLate 1000 (tCtl (fun c => { c with slots := c.slots.set! 7 (tSlot k target 95 strict) }))
      let y := (s.core 0).ctl.slots[7]!
      (s.env 0).alive = true ∧ y.due (s.env 0).now = true ∧ (∀ j, j < 8 → j ≠ 7 → ((s.core 0).ctl.slots[j]!).due (s.env 0).now = false) ∧ (s.core 0).inbound = [] ∧
      y.past = decide (target = 10) ∧ y.strict = strict ∧ y.kind = k ∧ (s.env 0).compat = false ∧ (s.core 0).ctl.evq.length < 31 ∧
      (ligCluster (s.env 0) y.operand.toNat).isSome = true := by
  refine ⟨by decide +kernel, by decide +kernel, by decide +kernel, ?_⟩
  intro k hk b hb target ht s y
  have rest : (s.env 0).alive = true ∧ y.past = decide (target = 10) ∧ y.strict = b ∧ y.kind = k ∧ (s.env 0).compat = false ∧
      (s.core 0).ctl.evq.length < 31 ∧ (ligCluster (s.env 0) y.operand.toNat).isSome = true ∧ y.armed = true ∧ y.tick ≤ 996 ∧
      (∀ j, j < 8 → j ≠ 7 → ((s.core 0).ctl.slots[j]!).armed = false) ∧ (s.core 0).inbound = [] ∧ (s.cluster 0).interp = 0 ∧ 1000 ≤ s.time := by
    revert k b target; decide +kernel
  obtain ⟨h1, h2, h3, h4, h5, h6, h7, h8, h9, h10, hin, h11, h12⟩ := rest
  have late : 996 ≤ s.timeAt 0 := timeAt_ge _ _ _ h11 (by omega)
  have now : (s.env 0).now = s.timeAt 0 := rfl
  refine ⟨h1, ?_, fun j hj hj7 => by simp [TimedSlot.due, h10 j hj hj7], hin, h2, h3, h4, h5, h6, h7⟩
  simp only [TimedSlot.due, h8, Bool.true_and, Bool.or_eq_true, decide_eq_true_eq]; exact .inr (by rw [now]; omega)

/-- TimedActions: of two slots that are due at one tick the lower acts first, and of two ticks the earlier. -/
theorem witness_TimedActions_order :
    let s := tCtl (fun c => { c with slots := ((c.slots.set! 6 (tSlot 0 100 95 false)).set! 7 (tSlot 3 100 95 false)).set! 5 (tSlot 0 101 95 false) })
    ((s.core 0).ctl.slots[6]!).tick = ((s.core 0).ctl.slots[7]!).tick ∧ ((s.core 0).ctl.slots[6]!).tick < ((s.core 0).ctl.slots[5]!).tick := by
  decide +kernel

/-- TimeInstructions: t.cancel of slot 7 before its tick, with no slot due, and at it. -/
theorem witness_TimeInstructions :
    let w := tWord 0x72 [(47, 1), (0, 7)]
    let s := tLate 1000 (tCtl (fun c => { c with slots := c.slots.set! 7 (tSlot 0 100 95 true) }))
    let q := tCtl (fun c => { c with slots := c.slots.set! 7 (tSlot 0 (10 ^ 9) 0 true) })
    (issuesB 0x72 (fun w => nz w 32 15 || nz w 3 29) 0 w s && issuesB 0x72 (fun w => nz w 32 15 || nz w 3 29) 0 w q && roomB 0 s && roomB 0 q) = true ∧
    (s.core 0).ctl.busy (fSd w) = false ∧ fSd w ≠ 0 ∧ ((s.core 0).ctl.slots[fieldOf w 0 3]!).past = false ∧
    (∀ n, n < 7 → ((q.core 0).ctl.slots[n]!).armed = false) ∧ ((q.core 0).ctl.slots[7]!).armed = true ∧
    ((s.core 0).ctl.slots[fieldOf w 0 3]!).due (s.env 0).now = true := by
  refine ⟨by decide +kernel, by decide +kernel, by decide +kernel, by decide +kernel, by decide +kernel, by decide +kernel, ?_⟩
  have late : 996 ≤ (tLate 1000 (tCtl (fun c => { c with slots := c.slots.set! 7 (tSlot 0 100 95 true) }))).timeAt 0 :=
    timeAt_ge _ _ _ (by decide +kernel) (by decide +kernel)
  show (tSlot 0 100 95 true).due _ = true
  have tick : (tSlot 0 100 95 true).tick ≤ 996 := by decide +kernel
  simp only [TimedSlot.due, Bool.and_eq_true, Bool.or_eq_true, decide_eq_true_eq]
  exact ⟨rfl, .inr (Nat.le_trans tick late)⟩

/-- EventsAndHandler: a timeout that the held lig.wait met, and events that end none. -/
theorem witness_EventsAndHandler_wait :
    let m : EventMsg := ⟨3, 3, 5 * 2 ^ 29, 0⟩
    let s := tCore (fun c => { c with inbound := [m], ctl := { c.ctl with ligWait := some { tOp (tWord 0xE2 []) 511 8 with pc := 5 } } })
    (s.core 0).inbound.find? (fun m => decide (m.cls = 3)) = some m ∧ m.gen % 256 = (s.env 0).gen ∧ m.endsWait (s.core 0) = true ∧
    (⟨2, 4, 0, 0⟩ : EventMsg).endsWait (s.core 0) = false := by decide +kernel

/-! ## Witnesses: the engines -/

/-- A core ready for every engine instruction: endpoint 0 sends and lands, pair 0 and shape 0 are enabled. -/
def tEng (f : Core → Core) : State := tCore (fun c =>
  f ((((((c.setFld fChDuctusAEnable 1).setFld fChLandAEnable 1).setFld fWellBufEnable 1).setFld fChDuctusACredits 8).setFld fChTxCredits 8).setReg fCpShapeAEnable.off 0x7F))

/-- A word of each engine row that its checks pass. -/
def tEngWords : List (EngineRow × Word) :=
  matrixRows.zip [tWord 0x80 [], tWord 0x81 [(5, 1), (0, 1)], tWord 0x82 [], tWord 0x83 [(26, 1), (21, 1)], tWord 0x84 [(6, 1)], tWord 0x85 [(43, 1)], tWord 0x86 []] ++
  vectorRows.zip ([0xA0, 0xA1, 0xA2, 0xA3, 0xA4, 0xA5, 0xA6, 0xA7, 0xA8, 0xA9, 0xAA, 0xAB, 0xAC, 0xAD, 0xAE].map (tWord · []) ++ [tWord 0xAF [(43, 1)]]) ++
  copyRows.zip ([0xC0, 0xC1, 0xC2, 0xC3, 0xC4].map (tWord · []) ++ [tWord 0xC5 [], tWord 0xC6 [], tWord 0xCF []]) ++
  channelRows.zip [tWord 0xD0 [], tWord 0xD1 [(6, 1)], tWord 0xD2 [(43, 1)], tWord 0xD3 [(43, 1)]]

/-- The state of those words: endpoint 0 reads a window for cp.rget. -/
def tEngState (op : Nat) : State :=
  tEng (fun c => let c := if op = 0xC6 then c.setFld fChDuctusBRdWindow 1 else c
    { c with mx := { c.mx with ctlValid := Vector.replicate 2 true, ctlFmt := Vector.replicate 2 1 } })

/-- EngineIssue: each row enters its queue, finds it full, and, where it names a register, finds it pending or poisoned; and the checks of a matrix, a
copy and a channel instruction trap. -/
theorem witness_EngineIssue : tEngWords.length = 35 ∧
    (∀ x ∈ tEngWords, let s := tEngState x.1.op
      issuesB x.1.op (x.1.bad 0 s) 0 x.2 s = true ∧ roomB 0 s = true ∧
      (s.core 0).regsReady x.2 (x.1.sa x.2 (s.core 0) || x.1.dest x.2) (x.1.sb x.2) = true ∧
      (s.core 0).regsPoisoned x.2 (x.1.sa x.2 (s.core 0)) (x.1.sb x.2) = false ∧ x.1.check (s.env 0) x.2 (s.core 0) = none ∧
      (x.1.queue (s.core 0)).length < x.1.cap) ∧
    (∀ x ∈ tEngWords, let s := tEngState x.1.op
      let s := s.mapCore 0 (fun c => (List.range x.1.cap).foldl (fun c _ => x.1.put (tOp x.2 0 0) c) c)
      issuesB x.1.op (x.1.bad 0 s) 0 x.2 s = true ∧ x.1.cap ≤ (x.1.queue (s.core 0)).length ∧
      (x.1.op ≠ 0x80 → x.1.op ≠ 0x81 → x.1.check (s.env 0) x.2 (s.core 0) = none)) ∧
    (let w := tWord 0x85 [(43, 1)]
      let s := tCtl (·.hold 1)
      issuesB 0x85 resvMxFlags 0 w s = true ∧ (s.core 0).regsReady w (false || true) false = false) ∧
    (let w := tWord 0xC0 [(43, 1)]
      let s := tCtl (·.setS 1 0 true)
      issuesB 0xC0 resvCpRsv 0 w s = true ∧ (s.core 0).regsReady w true false = true ∧ (s.core 0).regsPoisoned w true false = true) ∧
    (checkMxStream (tUp.env 0) (tWord 0x83 [(26, 1), (21, 1)]) (tUp.core 0)).isSome = true ∧
    earlyCp (tWord 0xC0 []) (tUp.core 0) = true ∧ (checkCpSwap (tUp.env 0) (tWord 0xCF []) (tUp.core 0)).isSome = true ∧
    earlyChSend (tWord 0xD0 []) (tUp.core 0) = true ∧ earlyMxLoad (tWord 0x81 [(6, 63)]) (tCore (fun c => { c with mx := { c.mx with ctlHand := 1 } } ) |>.core 0) = true := by decide +kernel

/-- A core with matrix instructions queued and running. -/
def tMx (queue : List EngOp) (running : List MxRun) (f : Core → Core) : State :=
  tEng (fun c => f { c with mx := { c.mx with queue := queue, running := running, ctlValid := Vector.replicate 2 true } })

/-- A started matrix instruction with strokes entered. -/
def tRun (o : EngOp) (entered : Nat) : MxRun := ⟨o, entered, false, false, [], 0, 0, 0⟩

/-- MatrixStart and MatrixStrokes: mx.hand behind nothing and behind a stream, mx.anchor on the last row, a load from the port that starts and one that waits for
bytes, and a stream with its port bytes and without. -/
theorem witness_MatrixStartAndMatrixStrokes :
    (let hand := tOp (tWord 0x80 [(0, 1)]) 0 0
    let anchor := tOp (tWord 0x82 [(0, 511)]) 0x3FF 0
    let stream := tOp (tWord 0x83 [(26, 0)]) 0 0
    let feed := tOp (tWord 0x83 [(26, 1), (21, 1)]) 0 0
    let s := tMx [hand] [] id
    let a := tMx [anchor] [] id
    let b := tMx [hand] [tRun stream 0] id
    let load := tOp (tWord 0x81 [(5, 1)]) 0 0
    let l := tMx [load] [] id
    let v := tMx [] [tRun stream 0, tRun load 0] id
    let d := tOp (tWord 0x82 [(26, 1), (24, 2)]) 0 0
    let r := tMx [] [tRun stream 0] id
    let f := tMx [] [tRun feed 0] id
    tAll [[s, a, b, l].all (fun s => (s.core 0).mx.running.all (fun r => decide (r.wants = 0)) && (s.env 0).alive), (b.core 0).mx.queue = [hand],
      (l.core 0).mx.queue = [load], mxMayStart (l.core 0).mx.running load, mxMayStart [] d, v.core 0 |>.mx.queue.isEmpty, (v.env 0).alive,
      (v.core 0).mx.running.findIdx? (fun r => decide (0 < r.wants)) = some 1, (v.core 0).mx.running[1]? = some (tRun load 0),
      (s.core 0).mx.queue = [hand], (s.env 0).alive, mxMayStart (s.core 0).mx.running hand, !mxMayStart (b.core 0).mx.running hand,
      mxMayStart (a.core 0).mx.running anchor, anchor.footprint.isSome, !bitOf anchor.w 26, fieldOf anchor.w 24 2 = 0,
      (r.core 0).mx.running.findIdx? MxRun.streaming = some 0, (r.core 0).mx.stream.has stream.strokePort, (r.env 0).alive,
      (f.core 0).mx.running.findIdx? MxRun.streaming = some 0, !(f.core 0).mx.stream.has feed.strokePort]) = true := by decide +kernel

/-- MatrixCompletion: each matrix instruction that has started and served its beats, with and without a drain's clear bit; a drain with a beat before it and a load from the
well with one, which may not complete before it. -/
theorem witness_MatrixCompletion :
    ([tWord 0x80 [], tWord 0x81 [], tWord 0x82 [], tWord 0x84 [], tWord 0x84 [(17, 1)], tWord 0x85 [(48, 1), (49, 7), (43, 31), (0, 63)], tWord 0x86 []].all (fun w =>
      let r := { tRun (tOp w 0 0) 0 with beats := (tOp w 0 0).mxBeats }
      let s := tMx [] [r] id
      let c := Core.mxServe (s.env 0) 0 0 (s.core 0)
      tAll [(s.env 0).alive, c.mx.running[0]? = some r, c.mxReady r]) &&
    [tWord 0x81 [], tWord 0x84 [], tWord 0x84 [(17, 1)]].all (fun w =>
      let r := tRun (tOp w 0 0) 0
      let s := tMx [] [r] id
      tAll [(s.core 0).mx.running[0]? = some r, (s.env 0).alive, decide (0 < r.left), !(s.core 0).mxReady r])) = true := by decide +kernel

/-- VectorStartAndCompletion: the five lane-wise operations, a completion with lanes, one with a mask, a load whose beats are served, a store with a beat left, which may not complete, and a port load without its bytes. -/
theorem witness_VectorStartAndCompletion :
    tAll [[0xA2, 0xA3, 0xA4, 0xA6, 0xA7].all (fun op => let o := tOp (tWord op [(0, 3), (5, 1), (10, 2)]) 0 0
        let s := tCore (fun c => { c with vx := { c.vx with queue := [o] } })
        tAll [(s.core 0).vx.queue = [o], (s.env 0).alive, vxMayStart (s.core 0).vx.running o, opOf o.w = op]),
      [(⟨tOp (tWord 0xA2 []) 0 0, some (List.replicate 64 ⟨1, false⟩), none, none, [], 0, ⟨0, false⟩, [], [], false, 0⟩ : VxRun),
        ⟨tOp (tWord 0xA9 []) 0 0, none, some ⟨5, false⟩, none, [], 0, ⟨0, false⟩, [], [], false, 0⟩,
        ⟨tOp (tWord 0xA0 []) 0 0, none, none, none, [], 0, ⟨0, false⟩, [], List.replicate 256 (7, false), false, (tOp (tWord 0xA0 []) 0 0).vxBeats.length⟩,
        ⟨tOp (tWord 0xAF [(43, 31)]) 0 0, none, none, some (0, false), [], 0, ⟨0, false⟩, [], [], false, 0⟩].all (fun r => let s := tCore (fun c => { c with vx := { c.vx with running := [r] } })
        tAll [(s.core 0).vx.running[0]? = some r, (s.env 0).alive, (s.core 0).vxReady 0 r, !vPort r.op.w]),
      (let r : VxRun := ⟨tOp (tWord 0xA1 []) 0 0, none, none, none, [[⟨5, 255, 0, false⟩]], 0, ⟨0, false⟩, [], [], false, 0⟩
        let s := tCore (fun c => { c with vx := { c.vx with running := [r] } })
        tAll [(s.core 0).vx.running[0]? = some r, (s.env 0).alive, decide (0 < r.left), !(s.core 0).vxReady 0 r]),
      (let r : VxRun := ⟨tOp (tWord 0xA0 [(9, 1)]) 0 0, none, none, none, [], 0, ⟨0, false⟩, [], [], false, 0⟩
        let s := tCore (fun c => { c with vx := { c.vx with running := [r] } })
        tAll [(s.core 0).vx.running.findIdx? (fun r => vPort r.op.w) = some 0, (s.env 0).alive, !(s.core 0).vx.port.has r.op.vxPortBytes])] = true := by
  decide +kernel

/-- A started copy in slot 0. -/
def tCp (w : Word) (waiting granted : List Nat) : CpRun := ⟨0, tOp w 0 0, 0, waiting, granted, 0, 0, [(0, 1)], [], 0, false⟩

/-- A core with copies queued and running. -/
def tCopy (queue : List EngOp) (running : List CpRun) (f : Core → Core) : State := tEng (fun c => f { c with cp := ⟨queue, running⟩ })

/-- WellEventsAndCopyStart: the last word forced before and after the first trap, a corrected and an uncorrectable word scrubbed in address order and
from the queue, and a copy and a swap that may start. -/
theorem witness_WellEventsAndCopyStart :
    (let a := 524287
    let s := tCore (fun c => c.setFld fWellCtrlAsyncLimit 1)
    let s' := tCore (fun c => { c.setFld fWellCtrlAsyncLimit 1 with well := { c.well with forcedTrap := true } })
    let w (x : Ecc) := tCore (fun c => { c.setFld fWellCtrlScrubEn 1 with well := { c.well with mem := c.well.mem.setCheck a x, scrubNext := a, scrubQ := [a] } })
    tAll [(s.env 0).alive, (s.core 0).fld fWellCtrlAsyncLimit ≠ 0, !(s.core 0).well.wiping, (s'.core 0).well.forcedTrap,
      (s'.core 0).fld fWellCtrlAsyncLimit ≠ 0,
      [Ecc.ce, .ue].all (fun x => tAll [(w x).alive (clusterOfCore 0), !((w x).core 0).well.wiping, (((w x).core 0).wellUpset [] |>.well.mem.check a) = x,
        a = ((w x).core 0).well.scrubNext, ((w x).core 0).fld fWellCtrlScrubEn = 1, a ∈ ((w x).core 0).well.scrubQ]),
      [0xC0, 0xC2, 0xCF].all (fun op => let o := tOp (tWord op []) 0 0
        let s := tCopy [o] [] id
        tAll [(s.core 0).cp.queue = [o], (s.env 0).alive, ((s.core 0).cpMayStart 0 o).isSome])]) = true := by decide +kernel

/-- Core 0 with the one line of a copy offered since time 0, past its promotion age. -/
def tDue (w : Word) : State := tLate 1004 (tCopy [] [tCp w [0] []] (fun c => c.setFld fCpCtrlPromoteAge 1))

/-- ReservoirLines: the one line of a cp.fetch and of a cp.store offered, delivered, and due for promotion. -/
theorem witness_ReservoirLines :
    ([tWord 0xC0 [], tWord 0xC1 []].all (fun w => let r := tCp w [0] []
      let g := tCp w [] [0]
      let s := tCopy [] [r] id
      let d := tCopy [] [g] id
      tAll [(s.env 0).alive, !(s.core 0).rsv.wiping, pickLine ((s.core 0).rsv.lastBg.look 0 7) ((s.core 0).offers 0 0) = some ⟨0, 0, 0, none, false⟩,
        (s.core 0).cp.running[0]? = some r,
        (d.core 0).cp.running.findIdx? (fun r => r.slot = 0) = some 0, (d.core 0).cp.running[0]? = some g, (d.env 0).alive,
        ((d.core 0).cpLines g.op g.base)[0]?.any ((d.core 0).mayDeliver g 0)])) = true := by decide +kernel

theorem witness_ReservoirLines_promotion :
    ([tWord 0xC0 [], tWord 0xC1 []].all (fun w => let r := tCp w [0] []
      let p := tDue w
      tAll [(p.core 0).cp.running.findIdx? (fun r => r.slot = 0) = some 0, (p.core 0).cp.running[0]? = some r, (p.env 0).alive,
        (p.core 0).fld fCpCtrlPromoteAge = 1, r.ages.look 0 0 = 1,
        fieldOf w 14 16 = 0, ((p.core 0).offered r ((p.core 0).cpLines r.op r.base) 0).isSome, !r.promoted.contains 0])) = true := by decide +kernel

theorem witness_ReservoirLines_age (w : Word) : 1 - 1 + 1000 * 1 ≤ ((tDue w).env 0).now :=
  timeAt_ge _ _ _ (by rfl) (by show 1000 + 4 ≤ (tLate 1004 tUp).time; decide +kernel)

/-- ReservoirUpkeep: a copy that is done, a cp.rput whose messages have left, a refresh with a line that waits for its bank and one postponed eight times, the scrub
at the last line, and the last row failing by an uncorrectable word. -/
theorem witness_ReservoirUpkeep :
    (let r := tCp (tWord 0xC0 []) [] []
    let s := tCopy [] [r] id
    let put : CpRun := { tCp (tWord 0xC5 []) [] [] with moved := 1 }
    let x := tCopy [] [put] id
    let w (n : Nat) := tCopy [] [tCp (tWord 0xC0 []) [0] []] (fun c => { c with rsv := { c.rsv with postponed := c.rsv.postponed.put 0 n 0 } })
    let u := tCore (fun c => { c.setFld fRsvCtrlScrubEn 1 with rsv := { c.rsv with scrubNext := rsvBytes / 64 - 1 } })
    let f := tCore (fun c => { c with rsv := { c.rsv with rowUe := c.rsv.rowUe.put 81919 true false } })
    tAll [(s.core 0).cp.running[0]? = some r, (s.env 0).alive, (s.core 0).cpDone r, opOf r.op.w ≠ 0xC5,
      (x.core 0).cp.running[0]? = some put, (x.env 0).alive, (x.core 0).cpDone put, !x.leaving (x.env 0) 0,
      [0, 7, 8].all (fun n => tAll [(w n).alive 0, ((w n).core 0).bankWaits 0 0, ((w n).core 0).rsv.postponed.look 0 0 = n]),
      u.alive 0, (u.core 0).fld fRsvCtrlScrubEn = 1, !(u.core 0).rsv.wiping, !(u.core 0).lineWaits (rsvChannel (64 * (u.core 0).rsv.scrubNext)),
      f.alive 0, (f.core 0).rowFails (f.fld fRstRepairCtrlRsvCeLimit) (256 * 319 + 16 * 15 + 15), !(f.core 0).lineWaits 15,
      (f.core 0).sparesUsed 15 15 < 24]) = true := by decide +kernel

/-- A core with channel instructions queued and running. -/
def tCh (queue running : List EngOp) (f : Core → Core) : State := tEng (fun c => f { c with ch := { c.ch with queue := queue, running := running } })

/-- ChannelSends: a send of each kind of ductus with its credits, one along a binding that is not set, one without credits, a credit return of a queue and one of a
half, a cp.rput that waits, and a count, the flags and a send that complete. -/
theorem witness_ChannelSends :
    (let o := tOp (tWord 0xD0 [(6, 7)]) 1 0
    let b : Binding := ⟨5, 0, 0, 0, 0, 0, 2⟩
    let s (kind : Nat) := { tCh [o] [] (fun c => ((c.setFld fChDuctusAKind kind).setFld fChDuctusBBinding 1).setFld (fldAt fChMemberCredits 0) 8) with bindings := [(1, some b)] }
    let un := { s 3 with bindings := [] }
    let no := tCh [o] [] (fun c => c.setFld fChTxCredits 0)
    let out := tOp (tWord 0xD1 [(6, 2)]) 0 0
    let put := tCp (tWord 0xC5 []) [] []
    let x := tCopy [] [put] (fun c => c.setFld fChTxCredits 0)
    tAll [[0, 1, 2, 3].all (fun k => tAll [((s k).core 0).ch.queue = [o], ((s k).env 0).alive, !(s k).sending ((s k).env 0),
        ((s k).core 0).duct 0 fChDuctusAKind = k, !(s k).unbound ((s k).env 0) o, ((s k).core 0).creditsFor 0 (sendWords o.w) o.sa]),
      (s 3).bindingOf ((s 3).env 0) ((s 3).core 0) 0 = some b,
      (un.core 0).ch.queue = [o], (un.env 0).alive, !un.sending (un.env 0), un.unbound (un.env 0) o,
      [0, 5].all (fun k => let s := tCh [out] [] (fun c => c.setFld fChLandATarget k)
        tAll [(s.core 0).ch.queue = [out], (s.env 0).alive, !s.sending (s.env 0), (s.core 0).land 0 fChLandATarget = k,
          (s.core 0).land 0 fChLandBRetMode = 0, (s.core 0).ch.retTo.look 0 none = none]),
      [0xD2, 0xD3].all (fun op => let o := tOp (tWord op [(43, 1)]) 0 0
        let s := tCh [o] [] id
        tAll [(s.core 0).ch.queue = [o], (s.env 0).alive, !s.sending (s.env 0)]),
      (no.core 0).ch.queue = [o], (no.core 0).ctl.waitLimit ≠ 0, no.sendWaits (no.env 0),
      (x.core 0).cp.running[0]? = some put, (x.env 0).alive, (x.core 0).ctl.waitLimit ≠ 0, (x.core 0).putWaits put,
      [tWord 0xD0 [], tWord 0xD2 [(43, 31)], tWord 0xD2 [(43, 31), (6, 1)], tWord 0xD3 [(43, 31)]].all (fun w => let s := tCh [] [tOp w 0 0] id
        tAll [(s.core 0).ch.running[0]? = some (tOp w 0 0), (s.env 0).alive, !s.leaving (s.env 0) 0])]) = true := by decide +kernel

/-- A packet whole at the router of core 0. -/
def tPkt (body : Body) : Packet := ⟨0, 0, 0, (0, 0), 0, 0, none, none, none, [(0, 0)], [2], body, [], 0, false, 0, false⟩

/-- A mesh that holds such a packet. -/
def tMesh (body : Body) (f : Core → Core) : State := { tEng f with mesh := [tPkt body] }

/-- What Fresh asks of that packet. -/
def freshB (s : State) (p : Packet) : Bool := decide (s.arrived 0 = some (p, 0)) && !s.aged p && !(s.env 0).stale p

theorem fresh_of {s : State} {p : Packet} (h : freshB s p = true) : Fresh s 0 p 0 := by
  simp only [freshB, Bool.and_eq_true, Bool.not_eq_true', decide_eq_true_eq] at h
  exact ⟨h.1.1, h.1.2, h.2⟩

/-- CreditsArrive: a return, a token and a grant, a return to a member of a selective half, the token that completes a batch, and a stale one of each. -/
theorem witness_CreditsArrive :
    (let z := (tMesh (.credit 0 0 3) id).setRgn 0 fRgnStatusGeneration 1
    let sel := tMesh (.credit 0 0 3) (fun c => c.setFld fChDuctusAKind 2)
    let bat := tMesh (.token 0 9) (fun c => { c.setFld fChDuctusBGroupSize 2 with ch := { c.ch with tokens := c.ch.tokens.put 0 ⟨(List.replicate 8 0).set 1 1, 1⟩ tokensReset } })
    let x := (bat.core 0).ch.tokens.look 0 tokensReset
    tAll [[Body.credit 0 0 3, .token 0 9, .grant 0].all (fun b => let s := tMesh b id
        let z := s.setRgn 0 fRgnStatusGeneration 1
        tAll [freshB s (tPkt b), !(s.core 0).well.wiping, (s.core 0).duct 0 fChDuctusAKind ≠ 2, (s.core 0).duct 0 fChDuctusBGroupSize = 0,
          (s.core 0).cp.running.all (fun r => opOf r.op.w != 0xC5), z.arrived 0 = some (tPkt b, 0), !z.aged (tPkt b), (z.env 0).stale (tPkt b)]),
      freshB sel (tPkt (.credit 0 0 3)), !(sel.core 0).well.wiping, (sel.core 0).duct 0 fChDuctusAKind = 2,
      (((List.range ((sel.core 0).duct 0 fChDuctusBMembers + 1)).map ((sel.core 0).duct 0 fChDuctusBFirstMember + ·)).find?
        (fun m => decide ((sel.core 0).member m fChMemberX = (tPkt (.credit 0 0 3)).sx) && decide ((sel.core 0).member m fChMemberY = (tPkt (.credit 0 0 3)).sy) &&
          decide ((sel.core 0).member m fChMemberEp = 0))) = some 0,
      freshB bat (tPkt (.token 0 9)), !(bat.core 0).well.wiping, (bat.core 0).cp.running.isEmpty, x.counters.length = 8, x.next % 8 = 9 % 8,
      (bat.core 0).duct 0 fChDuctusBGroupSize = 2, x.counters.getD 1 0 + 1 = 2, x.counters.getD 2 0 < 2,
      z.arrived 0 = some (tPkt (.credit 0 0 3), 0), !z.aged (tPkt (.credit 0 0 3)), (z.env 0).stale (tPkt (.credit 0 0 3))]) = true := by decide +kernel

/-- MessagesArrive: at a disabled endpoint, at the end of a window of a word, and at a branch whose buffer is just full with it. -/
theorem witness_MessagesArrive :
    (let b : Body := .message 0 0 0 0 0 [(5, false)]
    let off := tMesh b (fun c => c.setFld fChLandAEnable 0)
    let on := tMesh b (fun c => (c.setFld fChLandABase 524287).setFld fChLandASize 1)
    let p : Packet := { tPkt b with group := some 0, flits := List.replicate 36 1, outs := [4, 1] }
    let m := { tUp with mesh := [p] }
    tAll [freshB off (tPkt b), !(off.core 0).well.wiping, (off.core 0).land 0 fChLandAEnable = 0,
      freshB on (tPkt b), !(on.core 0).well.wiping, (on.core 0).land 0 fChLandAEnable ≠ 0, (on.core 0).land 0 fChLandATarget = 0,
      1 ≤ (on.core 0).land 0 fChLandASize, (on.core 0).land 0 fChLandABase + 1 ≤ 2 ^ 19,
      m.mesh[0]? = some p, p.atEnd, 4 ∈ p.outs, m.branchHolds p.stop none + p.flits.length ≤ 36,
      m.branchHolds p.stop (some (stepDir p.stop 1)) + p.flits.length ≤ 36]) = true := by decide +kernel

/-- CombiningRound: a full queue that writes its output, and one that forwards, before its records leave and after. -/
theorem witness_CombiningRound :
    (let q (mode closed : Nat) := tEng (fun c => let c := (((c.setFld fChCqAEnable 1).setFld fChCqBOutCredits 2).setFld fChCqAOutMode mode)
      { c with ch := { c.ch with closing := c.ch.closing.put 0 closed 0 } })
    tAll [((q 0 0).env 0).alive, ((q 0 0).core 0).cqFull 0, ((q 0 0).core 0).fld (fldAt fChCqAOutMode 0) = 0,
      ((q 0 0).core 0).fld (fldAt fChCqBOutCredits 0) ≠ 0,
      ((q 1 0).env 0).alive, ((q 1 0).core 0).cqFull 0, ((q 1 0).core 0).fld (fldAt fChCqAOutMode 0) ≠ 0, ((q 1 0).core 0).ch.closing.look 0 0 = 0,
      (((q 1 0).core 0).cqSlots 0).2 ≤ 256, ((q 1 0).core 0).duct (((q 1 0).core 0).fld (fldAt fChCqAFwdEp 0)) fChDuctusAKind = 0,
      ((q 1 0).core 0).creditsFor (((q 1 0).core 0).fld (fldAt fChCqAFwdEp 0)) (2 * (((q 1 0).core 0).cqSlots 0).2) 0,
      ((q 1 1).env 0).alive, ((q 1 1).core 0).cqFull 0, ((q 1 1).core 0).ch.closing.look 0 0 = (((q 1 1).core 0).cqSlots 0).2,
      !(q 1 1).leaving ((q 1 1).env 0) (((q 1 1).core 0).fld (fldAt fChCqAFwdEp 0))]) = true := by decide +kernel

/-- RemoteReads: a read of a disabled endpoint and of the last word of a window, a unit to serve, and a reply. -/
theorem witness_RemoteReads :
    (let b : Body := .readReq 0 0 3 0 [(6, 0)]
    let off := tMesh b (fun c => c.setFld fChLandAEnable 0)
    let on := tMesh b (fun c => (c.setFld fChLandATarget 6).setFld fChLandASize 7)
    let u : ReadUnit := ⟨0, [⟨none, 0, 0, 0, 0, 0, [(0, 0)], false⟩]⟩
    let s := tEng (fun c => { c with ch := { c.ch with readQ := [u] } })
    let r : CpRun := { tCp (tWord 0xC6 []) [] [] with awaiting := 1 }
    let w := tMesh (.readReply 0 [(0, 5, false)]) (fun c => { c with cp := ⟨[], [r]⟩ })
    tAll [freshB off (tPkt b), !(off.core 0).well.wiping, (off.core 0).land 0 fChLandAEnable = 0,
      freshB on (tPkt b), !(on.core 0).well.wiping, (on.core 0).land 0 fChLandAEnable = 1, (on.core 0).land 0 fChLandATarget = 6, 6 < (on.core 0).land 0 fChLandASize,
      (on.core 0).ch.readQ = [], (s.env 0).alive, (s.core 0).ch.readQ = [u], u.reqs.all (fun r => r.dev.isNone),
      freshB w (tPkt (.readReply 0 [(0, 5, false)])), !(w.core 0).well.wiping,
      (w.core 0).cp.running.findIdx? (fun r => r.slot = 0 && opOf r.op.w = 0xC6) = some 0, (w.core 0).cp.running[0]? = some r]) = true := by decide +kernel

/-! ## Witnesses: networks, regions and clients -/

/-- That device in service, in a lifecycle state. -/
def tServe (life : Nat) (s : State) : State := { s.setFld fRstStatusStartOk 1 with life := life }

/-- A request at the front of the Scribe Complex's queue. -/
def tAsk (op : Nat) (payload : List Byte) (s : State) : State := { s with scribe := { s.scribe with reqs := [⟨0, 1, 1, op, payload, 0⟩] } }

/-- A region's state set. -/
def tState (r v : Nat) (s : State) : State := s.setRgn r fRgnStatusState v

/-- A message of two flits on the way from logical router (0, 0) to (1, 0). -/
def tGoing (flits : List Nat) : Packet := { tPkt (.message 0 0 0 0 0 [(5, false)]) with path := [(0, 0), (1, 0)], flits := flits }

/-- MeshHops: into the network, over a link that is up and selected, with its grant and without, to the sink, with the buffer ahead full, a second flit that
may not overtake the first, and at a link that is down or that selects another router. -/
theorem witness_MeshHops :
    (let into := { tUp with mesh := [tGoing [0, 0]] }
    let hop := { tCore (fun c => c.setFld fCoreMeshCfgUsed 1) with mesh := [tGoing [1, 0]] }
    let other := { hop.mapCore 0 (fun c => { c with arb := c.arb.put 0 1 0 }) with mesh := [tGoing [1, 0], { tGoing [1, 0] with vc := 1 }] }
    let full := { hop with mesh := [tGoing [1, 0], { tGoing [2, 2, 2, 2] with came := 1 }] }
    let sink := { hop with mesh := [tGoing [2, 2]] }
    let down := { tCore (fun c => (c.setFld fCoreMeshCfgUsed 1).setFld fCoreMeshStatusLinkDown 1) with mesh := [tGoing [1, 0]] }
    let off := { tUp with mesh := [tGoing [1, 0]] }
    let p := tGoing [1, 0]
    tAll [tAll [into.dev = .up, into.mesh[0]? = some (tGoing [0, 0]), into.outOf (tGoing [0, 0]) 0 = some ((0, 0), 6),
      into.hopMoves 0 (tGoing [0, 0]) 0, !into.hopCut 0 (tGoing [0, 0]) 0, into.hopRoom 0 0 (tGoing [0, 0]) 0, into.mayHop 0 (tGoing [0, 0]) 0,
      !into.hopMoves 1 (tGoing [0, 0]) 0], tAll [hop.mesh[0]? = some p, hop.outOf p 1 = some ((0, 0), 0), hop.hopMoves 0 p 1, hop.hopRoom 0 0 p 1, hop.mayHop 0 p 1,
      !hop.hopCut 0 p 1, p.group = none, other.hopMoves 0 p 1, !other.hopCut 0 p 1, !other.mayHop 0 p 1,
      full.hopMoves 0 p 1, !full.hopCut 0 p 1, !full.hopRoom 0 0 p 1],
      tAll [sink.outOf (tGoing [2, 2]) 2 = some ((1, 0), 4), sink.hopMoves 0 (tGoing [2, 2]) 2, !sink.hopCut 0 (tGoing [2, 2]) 2, sink.hopRoom 0 0 (tGoing [2, 2]) 2,
      sink.mayHop 0 (tGoing [2, 2]) 2, (tGoing [2, 2]).last = 3],
      tAll [
      down.hopMoves 0 p 1, down.hopCut 0 p 1, p.here 1 = some (0, 0), off.hopMoves 0 p 1, off.hopCut 0 p 1, !off.linkDown (0, 0) (1, 0)]]) = true := by decide +kernel

/-- MeshHops: a selection that crosses the hairline, one that waits at a crossing in holdover, and one that a hub link down discards. -/
theorem witness_MeshHops_selection :
    (let wait := { tUp with clocks := { tUp.clocks with held := tUp.clocks.held.put 1 1 0 } }
    let lost := tUp.mapCluster 0 (fun k => k.setFld fLigHlStatusLinkDown 1)
    tAll [tUp.dev = .up, clusterOfCore 7 = 1, scribeHub 1 = 0, !tUp.hubWaits 0 1, (tUp.send 0 1).1, wait.dev = .up, wait.hubWaits 0 1,
      lost.dev = .up, !lost.hubWaits 0 1, !(lost.send 0 1).1]) = true := by decide +kernel

/-- LinkReplaysAndBeacons: the first and the sixteenth replay of a mesh and of a hub link, a beacon, and its first copy at cluster 0, from a neighbour that has it. -/
theorem witness_LinkReplaysAndBeacons :
    (let m (n : Nat) := { tCore (fun c => { c.setFld fCoreMeshCfgUsed 1 with replays := c.replays.put 0 n 0 }) with mesh := [tGoing [1, 0]] }
    let h (n : Nat) := tUp.mapCluster 0 (fun k => { k with replays := k.replays.put 0 n 0 })
    let b := ({ tUp with beacon := ⟨1, 0, 0⟩ }).mapCluster (hubStep 0 0) (fun k => { k with floodSeq := 2 })
    tAll [[0, 15].all (fun n => tAll [(m n).logicalX 0 = some 0, (m n).alive (clusterOfCore 0), !(m n).linkDown (0, 0) (stepDir (0, 0) 0), (m n).reaches (0, 0) (stepDir (0, 0) 0),
        !(m n).hubWaits 0 (scribeHub 0), ((m n).send 0 (scribeHub 0)).1,
        (m n).mesh.any (fun p => p.waitsFor (0, 0) (stepDir (0, 0) 0)), ((m n).core 0).replays.look 0 0 = n,
        clusterOfCore ((m n).physical (stepDir (0, 0) 0).1 (stepDir (0, 0) 0).2) = clusterOfCore 0]),
      [0, 15].all (fun n => tAll [(h n).alive 0, hubHas 0 0, !(((h n).cluster 0).fld fLigHlStatusLinkDown).testBit 0, ((h n).cluster 0).replays.look 0 0 = n]),
      tUp.dev = .up, tUp.time % 1000 = 0, b.alive 0, b.beacon.seq ≠ 0, (b.cluster 0).floodSeq ≠ b.beacon.seq + 1, b.beaconAt 0]) = true := by decide +kernel

/-- RegionCreate: by the firmware and by request, within the licence's limit and at it, one outside the device, one of a region that exists, one not asked for, and one whose registers have no majority. -/
theorem witness_RegionCreate :
    (let s := tServe 1 { State.reset with dev := .up }
    let q := tAsk 0x22 [] s
    let bad := (s.setRgn 63 fRgnCfgCx0 11).setRgn 63 fRgnCfgWidth 1
    let run := tServe 1 (tState 0 2 tUp)
    let split := { s with copies := [(fRgnCfgEnable.off, [some 1, some 2, none])] }
    let full := ((List.range run.regionLimit).map (· + 1)).foldl (fun s r => s.setRgn r fRgnCfgEnable 1) (s.setRgn 0 fRgnCfgCx0 0)
    tAll [split.rgnCommand false, !(split.voteWhere (split.readsOf 0 true)).1, s.copies.isEmpty, q.copies.isEmpty, full.copies.isEmpty, s.rgnCommand false, q.rgnCommand true, !s.rgnCommand true, s.rgn 0 fRgnStatusState = 0, s.rectOk 0, s.regionsOn.length < s.regionLimit,
      bad.rgnCommand false, !bad.rectOk 63, run.rgnCommand false, run.rgn 0 fRgnStatusState ≠ 0, full.regionLimit ≤ full.regionsOn.length]) = true := by decide +kernel

/-- RegionCommands: a release, a delete and a reset, and each of a region that is not in its state. -/
theorem witness_RegionCommands :
    (let free := tServe 1 { State.reset with dev := .up }
    let ready := tServe 1 { tState 0 1 tUp with rgns := [(0, { rgnFree with image := true })] }
    let run := tServe 1 (tState 0 2 tUp)
    tAll [ready.rgnCommand false, ready.rgn 0 fRgnStatusState = 1, (ready.rgnSt 0).image, !(ready.rectClusters 0).any ready.outOfService, !(ready.mirrorClusters 0).any ready.outOfService, ready.copies.isEmpty, run.copies.isEmpty,
      ready.clientsOf 0 = [], ready.rgn 0 fRgnCfgEnable = 1, run.rgn 0 fRgnStatusState = 2, run.rgn 0 fRgnCfgEnable = 1, run.rgnCommand false,
      free.rgn 0 fRgnStatusState = 0, free.rgnCommand false]) = true := by decide +kernel

/-- RegionStops: an idle stopping region, one at its timeout, a force that is done, one that overruns, and a wipe of 64 microseconds. -/
theorem witness_RegionStops :
    (let idle := tState 0 3 (tRegion (({ State.reset with dev := .up }).setRgn 0 fRgnCfgWidth 0))
    let late := { tState 0 3 tUp with mono := 2 ^ 40 }
    let force := { tState 0 4 tUp with mono := 20000 }
    let long := { force with mono := 1044000, rgns := [(0, { rgnFree with overrun := true })] }
    let wipe := { tState 0 5 tUp with mono := 64000 }
    tAll [idle.rgn 0 fRgnStatusState = 3, late.rgn 0 fRgnStatusState = 3, (late.rgnSt 0).since + 1000 * 2 ^ late.rgn 0 fRgnTimingIdleTimeout ≤ late.mono,
      force.rgn 0 fRgnStatusState = 4, !(force.rgnSt 0).overrun, (force.rgnSt 0).since + 20000 ≤ force.mono, force.holds 0 0, long.rgn 0 fRgnStatusState = 4, (long.rgnSt 0).overrun,
      (long.rgnSt 0).since + 1044000 ≤ long.mono,
      wipe.rgn 0 fRgnStatusState = 5, (wipe.rgnSt 0).genAt + 64000 ≤ wipe.mono]) = true := by decide +kernel

/-- RegionStops: the region whose cores have all stopped. -/
theorem witness_RegionIdle :
    (let s := tState 0 3 ((List.range 56).foldl (fun s n =>
        s.mapCore (n % 7 + 84 * (n / 7)) (fun c => { c with ctl := { c.ctl with stopped := true } })) (({ State.reset with dev := .up }).setRgn 0 fRgnCfgEnable 1))
    tAll [s.rgn 0 fRgnStatusState = 3, s.regionIdle 0]) = true := by decide +kernel

/-- A payload of eight-byte words. -/
def tPay (ws : List Nat) : List Byte := ws.flatMap (fun n => bytesOfWord (BitVec.ofNat 64 n))

/-- Region 0 ready with a ring area on its first core, in Service. -/
def tRings : State := tServe 2 { tState 0 1 tUp with rgns := [(0, { rgnFree with rings := [⟨0, 0, 0, 2 ^ 18⟩] })] }

/-- ClientEntries: an admission of the last client, in its turn and out of it, its removal and the removal's end, and a seed of a client that is valid and of one that is not. -/
theorem witness_ClientEntries :
    (let p := tPay [1023, 0, 77, 64 * 2 ^ 14 + 2 ^ 33, 512 * 2 ^ 14 + 2 ^ 33]
    let on := tRings.setCli 1023 fCliCfgValid 1
    let off := { on with removing := [(1023, 1)] }
    let late := { off with mono := 1000000 }
    let busy := { tRings with scribe := { tRings.scribe with work := [⟨0, 0, .enrolOwn (tPay [7]) []⟩] } }
    let r := fieldOf (payWord p 8) 1 6
    tAll [tRings.copies.isEmpty, on.copies.isEmpty, tRings.serving, tRings.admitRefused p = none, (tRings.enrolTurn (some p)).isSome, tRings.rgn r fRgnCfgEnable = 1,
      busy.serving, (busy.enrolTurn (some p)).isNone, on.serving, on.lifecycle = 2, on.cli 1023 fCliCfgValid = 1, on.removing.look 1023 0 = 0,
      (tPay [1023]).length = 8, fieldOf (payWord (tPay [1023]) 0) 0 16 = 1023, fieldOf (payWord (tPay [1023]) 0) 16 48 = 0,
      off.removing.look 1023 0 ≠ 0, off.clientDrained 1023, off.scribe.reqs = [], late.removing.look 1023 0 - 1 + 1000000 ≤ late.mono,
      tUp.dev = .up, tUp.cli 1023 fCliCfgValid = 0, on.dev = .up]) = true := by decide +kernel

/-- Port 12 in Ethernet mode with its last link up, client 1023 of region 0 on it, its egress ring in use. -/
def tPort (f : PortSt → PortSt) : State :=
  let s := (((((tRings.setCli 1023 fCliCfgValid 1).setCli 1023 fCliCfgEgressEn 1).setCli 1023 fCliCfgPort 12).setCli 1023 fCliCfgWeight 1).setRgn 0 fRgnStatusState 2)
  let s := (s.setFld (fldAt fPortEthStatusLinkUp (0x1000 * 12)) 128).setFld (fldAt fPortEthMacEnable (0x1000 * 12 + 8 * 7)) 1
  s.mapPort 12 (fun q => f { q with mode := 2 })

/-- The words at the base of client 1023's ring, the producer's and the consumer's, written. -/
def tRing (producer consumer : Nat) (s : State) : State := s.mapCore (s.ingCore 1023) (fun c => { c with well := { c.well with
  mem := ((c.well.mem.write ⟨0, 255, BitVec.ofNat 64 producer, false⟩).write ⟨1, 255, BitVec.ofNat 64 consumer, false⟩).mark 0 } })

/-- A waiting frame of client 1023 of some length. -/
def tIng (n : Nat) : IngFrame := ⟨1023, 0, 0, List.replicate n 7, 0, 0, none⟩

/-- IngressDelivery: a frame of a valid client into its empty ring, into one not empty, into a full one and one too long for a slot; a frame of a client that is gone; and
a promotion. -/
theorem witness_IngressDelivery :
    (let s (n : Nat) := tPort (fun q => { q with ingress := [tIng n] })
    let two := ((s 60).setCli 1023 fCliIngSlots 1)
    let gone := tPort (fun q => { q with ingress := [{ tIng 0 with client := 5 }], promoted := [5] })
    let old := { (s 0).setFld fRgnQosCtrlPromoteAge 1 with mono := 1000 }
    let ok (s : State) (n : Nat) : Bool := let i := s.ingCore 1023
      tAll [s.dev = .up, ((s.pickClient 12).map (·.1)) = some 1023, (s.port 12).frameOf 1023 = some (tIng n), !s.deliveryWaits 12 1023, s.cli 1023 fCliCfgValid = 1,
        s.cli 1023 fCliCfgRegion = 0, s.rgn 0 fRgnStatusState = 2, s.wordErrs.isEmpty, (s.access (s.gateOf 12 i) (s.placeOf i) 1 1 1).1.ok,
        (s.core i).well.mem.written (s.cli 1023 fCliIngBase / 64), (s.core i).well.mem.written ((s.cli 1023 fCliIngBase + 1) / 64), !(s.core i).well.wiping]
    let seen (s : State) : Nat × Nat := let m := (s.core (s.ingCore 1023)).well.mem
      (fieldOf (m.word 0) 0 32, fieldOf (m.word 1) 0 32)
    tAll [ok (tRing 3 3 (s 60)) 60, seen (tRing 3 3 (s 60)) = (3, 3), ok (tRing (2 ^ 32 - 1) (2 ^ 32 - 2) two) 60,
      seen (tRing (2 ^ 32 - 1) (2 ^ 32 - 2) two) = (2 ^ 32 - 1, 2 ^ 32 - 2), two.cli 1023 fCliIngSlots = 1, ok (tRing 4 3 (s 60)) 60, seen (tRing 4 3 (s 60)) = (4, 3),
      (s 60).cli 1023 fCliIngSlots = 0, (s 60).cli 1023 fCliIngSlotSize = 0, ok (tRing 3 3 (s 497)) 497, (tIng 0).injectUs = none,
      (s 60).ingCore 1023 = (s 60).regionCore 0 0 0,
      (gone.port 12).frameOf 5 = some { tIng 0 with client := 5 }, !gone.deliveryWaits 12 5, ((gone.pickClient 12).map (·.1)) = some 5, gone.cli 5 fCliCfgValid = 0,
      old.fld fRgnQosCtrlPromoteAge ≠ 0, (old.port 12).frameOf 1023 = some (tIng 0),
      max (tIng 0).since ((old.port 12).ages.look 1023 0 - 1) + 1000 * old.fld fRgnQosCtrlPromoteAge ≤ old.mono, !(old.port 12).promoted.contains 1023]) = true := by
  decide +kernel

/-- EgressRings: a poll never made; a frame of the length that its slot just holds, one too long, one whose source address is not the link's; and a ring that no link reaches. -/
theorem witness_EgressRings :
    (let new := tRing 0 0 (tPort id)
    let known (len : Nat) := (tRing 0 0 (tPort (fun q => { q with egress := q.egress.put 1023 ⟨1, 0, true⟩ egrNew }))).mapCore (new.egrCore 1023) (fun c =>
      { c with well := { c.well with mem := (c.well.mem.write ⟨64, 255, BitVec.ofNat 64 len, false⟩).mark 1 } })
    let forged := ((known 60).setP 12 fPortEthCtrlSrcCheck 1).setFld (fldAt fPortEthMacAddress (0x1000 * 12 + 8 * 7)) 5
    let lost := (known 60).setCli 1023 fCliEgrX 1
    let i := new.egrCore 1023
    let j := lost.egrCore 1023
    let ok (s : State) : Bool := (s.access (s.gateOf 12 i) (s.placeOf i) 1 1 1).1.ok
    let slot (s : State) : Bool × List Byte × Core := s.readSlot i 64 512
    let on (s : State) : Bool := tAll [s.egressOn 1023, !s.ringWaits 12 i, ((s.port 12).egress.look 1023 egrNew).known, (s.egressCounts 1023).2 ≠ 1, s.egressLink 1023 = some 7, ok s,
      s.wordErrs.isEmpty, (s.core i).well.mem.written ((s.cli 1023 fCliEgrBase + 1) / 64), s.cli 1023 fCliEgrBase = 0, s.cli 1023 fCliEgrSlotSize = 0]
    tAll [new.egressOn 1023, new.cli 1023 fCliCfgPort = 12, !((new.port 12).egress.look 1023 egrNew).known, !new.ringWaits 12 i, (new.portRead 12 i (new.cli 1023 fCliEgrBase)).1.isSome,
      on (known 496), (slot (known 496)).1, on (known 497), !(slot (known 497)).1, on (known 0), !(slot (known 0)).1,
      on forged, (slot forged).1, forged.pfld 12 fPortEthCtrlSrcCheck = 1, octets (slot forged).2.1 6 6 ≠ forged.fld (fldAt fPortEthMacAddress (0x1000 * 12 + 8 * 7)),
      octets (slot (known 496)).2.1 6 6 = (known 496).fld (fldAt fPortEthMacAddress (0x1000 * 12 + 8 * 7)), lost.egressOn 1023, !lost.ringWaits 12 j, (lost.egressCounts 1023).2 ≠ 1, lost.egressLink 1023 = some 7,
      !(lost.access (lost.gateOf 12 j) (lost.placeOf j) 1 1 1).1.ok]) = true := by decide +kernel

/-! ## Witnesses: clocks, time and power -/

/-- FrequencyChange: in manual mode and outside it, a change at its time, and a slew at its target. -/
theorem witness_FrequencyChange :
    (let man := tUp.setFld fPwrStatusMode 2
    let at_ := { tUp with clocks := { tUp.clocks with freqAt := some ⟨900, 0, true, 0⟩ }, mono := 10 }
    let slew := { tUp.setFld fClkStatusFreqMhz 900 with clocks := { tUp.clocks with slew := some ⟨900, 0, 1⟩ } }
    tAll [tUp.dev = .up, tUp.fld fPwrStatusMode ≠ 2, man.dev = .up, man.fld fPwrStatusMode = 2, at_.dev = .up, (at_.clocks.freqAt.map (·.time)) = some 0, 0 ≤ at_.time, at_.mono ≠ 0, at_.power.raise = none,
      slew.dev = .up, slew.freqNow = 900]) = true := by decide +kernel

/-- CrossingSweeps and References: a crossing of cluster 0, a cluster that loses its reference with an alternate parent and without, one that relocks, one
past its millisecond, and REFCLK. -/
theorem witness_CrossingSweeps_References :
    (let side := ((List.range 4).find? (fun d => sidePresent 0 d)).getD 9
    let alt := (tUp.setCk 0 fClkClStatusHoldover 1).setCk 0 fClkClStatusOnAlt 1
    let held := { alt with clocks := { alt.clocks with held := [(0, 1)] } }
    let late := { held with mono := 1000000 }
    let gone := { tUp.setFld fRstStatusPhase 5 with island := { tUp.island with refclk := false } }
    tAll [tUp.alive 0, side < 4, tUp.xf 0 side fClkXingFailed = 0, tUp.ck 0 fClkClStatusHoldover = 0, held.alive 0, held.ck 0 fClkClStatusHoldover = 1,
      held.ck 0 fClkClStatusOnAlt = 1, held.clocks.held.look 0 0 ≠ 0, late.clocks.held.look 0 0 = 0 + 1, 0 + 1000000 ≤ late.mono,
      late.ck 0 fClkClStatusFailed = 0, tUp.dev = .up, tUp.island.refclk, gone.dev = .up, !gone.island.refclk, 5 ≤ gone.fld fRstStatusPhase,
      gone.ck 60 fClkClStatusFailed = 0]) = true := by decide +kernel

/-- TimeCounter: the last tick of a second and the one before it, a step to the last nanoseconds of a second, a refused and an accepted arm, and a commit at its time. -/
theorem witness_TimeCounter :
    (let last := tUp.setFld fTimeNsNs 999999990
    let before := tUp.setFld fTimeNsNs 999999980
    let step := { tUp with timeBase := { tUp.timeBase with toStep := some 999999999 } }
    let bad := tUp.setFld fTimeNsStageNs (10 ^ 9)
    let armed := { (tUp.setFld fTimeStageCtrlArm 1).setFld fTimeStageCtrlWhatTime 1 with mono := 10 }
    tAll [tUp.dev = .up, last.dev = .up, 10 ^ 9 ≤ last.fld fTimeNsNs + 10, before.fld fTimeNsNs + 10 < 10 ^ 9, last.timeBase.toStep = none, last.clocks.slew = none,
      step.dev = .up, step.timeBase.toStep = some 999999999, step.clocks.slew = none, (5 : Word).getLsbD 0, (5 : Word).getLsbD 2,
      10 ^ 9 ≤ bad.fld fTimeNsStageNs, bad.dev = .up, !(4 : Word).getLsbD 0, armed.dev = .up, armed.fld fTimeStageCtrlArm = 1, armed.mono ≠ armed.timeBase.armedAt,
      armed.fld fTimeStageCtrlMode = 0, armed.fld fTimeCommitAtTime ≤ armed.time, armed.fld fTimeStageCtrlWhatTime = 1]) = true := by decide +kernel

/-- Pps: edges of PPS_IN after none, too soon, in the middle of a second and within a microsecond of one, its loss, and PPS_OUT. -/
theorem witness_Pps :
    (let soon := { tUp with timeBase := { tUp.timeBase with pps := some 0 }, mono := 899999999 }
    let pps := { (tUp.setFld fTimeCtrlPpsEn 1).setFld fTimeNsNs 1010 with mono := 2000000000 }
    let near := pps.setFld fTimeNsNs 990
    let before := pps.setFld fTimeNsNs 999999000
    let out := (tUp.setFld fTimeCtrlPpsOutEn 1).setFld fTimeStatusValid 1
    let high := { tUp with island := { tUp.island with pps := some 5 } }
    let fell := { high with island := { high.island with ns := 5 }, dev := .frozen }
    tAll [soon.dev = .up, soon.timeBase.pps = some 0, 4 * soon.mono + 3 < 0 + 3600000000,
      [pps, near, before].all (fun s => tAll [s.dev = .up, s.timeBase.pps = none, s.fld fTimeCtrlPpsEn = 1, s.fld fFabTimeParentEn = 0]),
      4000 < 4 * pps.fld fTimeNsNs + 0, 4 * pps.fld fTimeNsNs + 39 + 4000 < 4 * 10 ^ 9, 4 * near.fld fTimeNsNs + 39 ≤ 4000,
      4 * 10 ^ 9 ≤ 4 * before.fld fTimeNsNs + 0 + 4000, 4 * before.fld fTimeNsNs + 39 ≤ 4 * 10 ^ 9,
      !pps.timeBase.lost, pps.timeBase.pps.getD (4 * pps.timeBase.began) + 8000000000 ≤ 4 * pps.mono,
      out.dev = .up, out.fld fTimeCtrlPpsOutEn = 1, out.fld fTimeStatusValid = 1, out.fld fTimeNsNs = 0, out.island.pps = none,
      high.island.pps = some 5, high.island.ns < 5, fell.island.pps = some 5, 5 ≤ fell.island.ns]) = true := by decide +kernel

/-- A cluster's power changed, with a mode in force. -/
def tPower (mode : Nat) (f : ClPower → ClPower) : State := (tUp.setFld fPwrStatusMode mode).mapPower 0 f

/-- Rails: a queued write that is due, a rail fault of a cluster by reports and by failures and of the rim, and a loop that raises, one that lowers and one
that may not. -/
theorem witness_Rails :
    (let q := tPower 0 (fun k => { k with want := some 700 })
    let f := tPower 0 (fun k => { k with fails := 3 })
    let ask := { (tPower 0 (fun k => { k with want := some 700, written := 5 })) with power := { (tPower 0 (fun k => { k with want := some 700, written := 5 })).power with raise := some (900, 0) } }
    let g := { tUp with power := { tUp.power with railFails := [(3, 3)] } }
    let v (mv : Nat) := (tPower 1 id).setPw 0 fPwrClStatusVMv mv
    tAll [q.dev = .up, (q.clPower 0).want = some 700, (q.clPower 0).written = 0, f.dev = .up, !(f.clPower 0).faulted, 3 ≤ (f.clPower 0).fails, !(q.clPower 0).faulted,
      g.dev = .up, 3 ≤ g.power.railFails.look 3 0, { g with dev := .frozen }.dev = .frozen, { f with dev := .inReset }.dev = .inReset,
      (ask.clPower 0).want = some 700, !(ask.clPower 0).faulted, ask.power.raise.isSome, 3 ≤ (f.clPower 0).fails,
      [595, 600, 605, 845, 850].all (fun mv => let s := v mv
        tAll [s.alive 0, s.fld fPwrStatusMode ≠ 0, !s.clFailed 0, !(s.clPower 0).faulted, (s.clPower 0).hint = none, s.power.raise = none, s.mayLower 0 (railMv (mv - 5)),
          s.pw 0 fPwrClStatusVMv = mv]), 0 < (v 600).fld fPwrGovSlackTarget]) = true := by decide +kernel

/-- DroopHintsTemperature: a hint due for a raise, one due for a precharge, one that is over, and temperatures below and at the trip. -/
theorem witness_DroopHintsTemperature :
    (let h (lead mono : Nat) (since : Nat) := { (tCtl (fun k => { k with hint := some ⟨15, lead, 1, since⟩ })).setFld fPwrCtrlHintEn 1 with mono := mono }
    let ons (mono : Nat) := ((List.range 20).map (11 * ·)).map (fun n => (h n mono 0).setFld fPwrStatusMode 1)
    let up := (ons 0).filter (fun s => s.risesIn 0 0 3000 3000 4000)
    let pre := (ons 100).filter (fun s => s.risesIn 0 0 200 1 200)
    let excess := { (tPower 1 (fun k => { k with hint := some 800 })) with mono := 10 ^ 9 }
    tAll [up ≠ [], up.all (fun s => s.alive 0 && decide ((s.clPower 0).hint = none) && decide (s.fld fPwrStatusMode ≠ 0) && !s.clFailed 0 && !(s.clPower 0).faulted), pre ≠ [], pre.all (fun s => s.alive 0), excess.alive 0,
      (excess.clPower 0).hint = some 800, excess.hintsOver 0, !(excess.clPower 0).faulted, maySkip [], !maySkip [1, 2, 3, 4], 99 < tUp.tripC, tUp.tripC ≤ 255, tUp.dev = .up]) = true := by decide +kernel

/-- Governor: modes in Provisioned and in Maintenance, a period that is due, a raise settled in manual mode and outside it, and powers above
the limits, back below them with the clock as it was and fallen, and 100 microseconds past its fall. -/
theorem witness_Governor :
    (let man := { tUp with life := 3 }
    let due := { tUp.setFld fRstStatusMrm 0 with mono := 10 ^ 9 }
    let long := { tUp with power := { tUp.power with excess := some 0 }, mono := 10 ^ 9 }
    let at_ (mhz : Nat) := { ((tUp.setFld fPwrStatusMode 1).setFld fClkStatusFreqMhz 800) with power := { tUp.power with peak := 2, peakMhz := mhz } }
    let wait := at_ 800
    let fallen := at_ 810
    let out := { tUp with power := { tUp.power with peak := 2, release := some 0 }, mono := 100000 }
    let r (mode : Nat) := { tUp.setFld fPwrStatusMode mode with power := { tUp.power with raise := some (900, 0) }, mono := 10 ^ 9 }
    tAll [tUp.dev = .up, tUp.lifecycle ≠ 3, man.dev = .up, man.lifecycle = 3, due.dev = .up, due.fld fRstStatusMrm = 0,
      due.power.governed + 1000 * max 10 (due.fld fPwrGovPeriodUs) ≤ due.mono,
      [1, 2].all (fun m => tAll [(r m).dev = .up, (r m).power.raise = some (900, 0), (List.range 144).all (fun n => (r m).clFailed n || decide (((r m).clPower n).want = none)),
        0 + 1000 * (r m).fld fPwrGovSettleUs ≤ (r m).mono, (r m).fld fPwrStatusMode = m]),
      tUp.peakW < tUp.estimate (tUp.peakW + 1), long.sustainW < long.estimate (long.sustainW + 1), long.estimate (long.sustainW + 1) ≤ long.peakW,
      (long.power.excess.map (fun a => decide (a + 1000000 * max 1 (min 10 (long.fld fPwrLimitPeakMs)) < long.mono))) = some true,
      tUp.estimate 0 ≤ tUp.sustainW, tUp.estimate 0 ≤ tUp.peakW, [wait, fallen].all (fun s => tAll [s.estimate 0 ≤ s.sustainW, s.estimate 0 ≤ s.peakW, s.power.peak ≠ 0,
        s.power.release = none]), !wait.hasFallen, fallen.hasFallen, out.estimate 0 ≤ out.sustainW, out.estimate 0 ≤ out.peakW, out.power.release = some 0, 0 + 100000 ≤ out.mono,
      tUp.alive 0]) = true := by decide +kernel

/-- The governed device at a frequency, its rails' learned points such that only 700 MHz fits, at the end of a period. -/
def tGoverned (mhz : Nat) : State :=
  let s := (((tUp.setFld fPwrStatusMode 1).setFld fPwrCtrlMode 1).setFld fClkStatusFreqMhz mhz).setFld fPwrGovRaiseMv 0
  { (List.range 9).foldl (fun s j => s.setPw 0 (fldAt fPwrClVfMv (8 * (j + 1))) 851) s with mono := 10 ^ 9 }

/-- Where one step may be chosen, it is, whatever its forecast. -/
theorem chooses_one (s : State) (f : Nat)
    (h : s.steps.filter (fun f => if s.fld fPwrStatusThrottling = 1 then decide (f + 10 ≤ min s.freqNow s.freqGoal) else decide (f ≤ s.freqGoal + 50)) = [f]) :
    s.chooses = some f := by
  unfold State.chooses; rw [h]; simp only [List.find?]; split <;> rfl

/-- Governor: a period at whose end one step may be chosen, lower than the present frequency, equal to it or higher. -/
theorem witness_Governor_chooses :
    (∀ mhz ∈ [800, 700, 690], let s := tGoverned mhz
      s.dev = .up ∧ s.fld fRstStatusMrm = 0 ∧ s.power.governed + 1000 * max 10 (s.fld fPwrGovPeriodUs) ≤ s.mono ∧ s.fld fPwrStatusMode = 1 ∧
        s.fld fPwrCtrlMode = 1 ∧ s.clocks.slew = none ∧ s.clocks.freqAt = none ∧ s.power.raise = none ∧ s.freqNow = mhz) ∧
    (∀ mhz ∈ [800, 700, 690], (tGoverned mhz).chooses = some 700) := by
  refine ⟨by decide +kernel, ?_⟩
  intro mhz h
  refine chooses_one _ _ ?_
  revert mhz; decide +kernel

/-- EnergyAccounts: a cluster with no energy and one with some since the last reconciliation. -/
theorem witness_EnergyAccounts :
    (let some_ := tPower 1 (fun k => { k with spent := 5 })
    tAll [tUp.alive 0, (tUp.clPower 0).spent = 0, (clusterCores 0).all (fun i => decide ((tUp.view i).ctl.cliSel < 1024)), tUp.fld fPwrEnergyDevCount * 10 ^ 9 + tUp.power.rest.look fPwrEnergyDevCount.off 0 < 2 ^ 64 * 10 ^ 9, tUp.dev = .up,
      tUp.fld fPwrEnergyRimCount * 10 ^ 9 + tUp.power.rest.look fPwrEnergyRimCount.off 0 < 2 ^ 64 * 10 ^ 9, some_.alive 0, (some_.clPower 0).spent ≠ 0]) = true := by
  decide +kernel

/-! ## Witnesses: ports and the fabric -/

/-- Port 15 changed, with a mode and a PORT_STATUS.state, its link initialised where that is up or retraining. -/
def tP (mode state : Nat) (f : PortSt → PortSt) (s : State) : State := (s.mapPort 15 (fun q => f { q with mode := mode, linked := decide (3 ≤ state) })).setP 15 fPortStatusState state

/-- A fabric packet of a class for a device, with its body. -/
def tFab (cls dst : Nat) (body : FabBody) : FabPkt := ⟨dst, 0, cls, false, 0, 0, 0, 5, 0, 0, [], 0, false, 0, 0, 0, 0, 1, body⟩

/-- PortControl: an accepted and the refused modes, a reset of an empty gateway, of one with a packet and past four Ethernet ports, its timeout, an admission refused and
accepted, and a partner that is silent. -/
theorem witness_PortControl :
    (let gw := tP 1 3 (fun q => { q with gw := [⟨tFab 1 0 (.lig false 0 0 0 0), 0⟩] }) tUp
    let old := { tP 1 1 (fun q => { q with resetAt := some 0 }) tUp with mono := 2 ^ 50 }
    let peer := tUp.setP 15 fPortStatusPeerValid 1
    let lost := { tP 1 3 id peer with mono := 10 ^ 12 }
    let four := (List.range 4).foldl (fun s p => (s.mapPort p (fun q => { q with mode := 2 })).setP p fPortStatusState 2) { tUp with life := 2 }
    tAll [tUp.fld fRstStatusMrm = 0, (tUp.setFld fRstStatusMrm 1).fld fRstStatusMrm = 1, (tUp.setFld fRstStatusMrm 1).dev = .up,
      (four.setP 15 fPortCtrlMode 2).pfld 15 fPortCtrlMode = 2, tUp.dev = .up, tUp.lifecycle ≠ 2, tUp.lifecycle ≠ 3, 4 ≤ (four.etherHeld 15).length, four.dev = .up, four.lifecycle = 2, 4 ≤ (four.etherPorts 15).length,
      (tUp.etherHeld 15).length < 4, (tUp.port 15).resetAt = none, (tUp.port 15).gw = [], (tUp.port 15).tx = [], gw.dev = .up, (gw.port 15).resetAt = none,
      (gw.port 15).gw ≠ [], (old.port 15).resetAt = some 0, 0 + 1000 * 2 ^ old.pfld 15 fPortCtrlResetTimeout ≤ old.mono,
      tUp.pfld 15 fPortStatusPeerValid = 0, peer.pfld 15 fPortStatusPeerValid = 1, peer.pfld 15 fPortStatusLoopback = 0, peer.dev = .up,
      (peer.port 15).resetAt = none, lost.fabLink 15, lost.pfld 15 fPortStatusPeerValid = 1,
      (lost.port 15).helloAt + 100000 * lost.pfld 15 fPortHelloInterval * lost.pfld 15 fPortHelloLossCount ≤ lost.mono]) = true := by decide +kernel

/-- PortTraining: a late group and the eighth one, a link that comes up and one that cannot, a window above its limit, with the partner's request and without, and
one within it, and a group that comes back, at once and by request, and one that does not. -/
theorem witness_PortTraining :
    (let train := { tP 1 2 id tUp with mono := 10 ^ 12 }
    let seven := train.setP 15 fPortStatusGroupsFailed 127
    let win (n : Nat) (both : Bool) : State := { tP 1 3 (fun q => { q with windows := [(7, 1)], symbols := q.symbols.put 7 n 0, trained := [7], heard := both, asked := both }) tUp with mono := 1000000 }
    let ret (active : List Nat) := { tP 1 4 (fun q => { q with retrain := [(7, 1)], trained := [6, 7], active := active, greeted := true, helloTx := 1 }) tUp with mono := 50000000 }
    tAll [(train.port 15).mode = 1, train.portState 15 = 2, !(train.port 15).linked, 7 ∉ train.failedGroups 15, (train.port 15).trainAt + 1000000 * stepLimit 3 ≤ train.mono,
      (seven.failedGroups 15).length = 7, 7 ∉ seven.failedGroups 15, train.dev = .up, !(train.failedGroups 15).contains 7, (seven.failedGroups 15).contains 0,
      [(0, false), (1099511627776, false), (1099511627776, true)].all (fun (x : Nat × Bool) => let s := win x.1 x.2
        tAll [(s.port 15).windows.look 7 0 = 0 + 1, 0 + 1000000 ≤ s.mono, s.fabUp 15, (s.port 15).heard = x.2, (s.port 15).asked = x.2,
          (s.port 15).resetAt = none, 7 ∈ s.goodGroups 15, 7 ∉ (s.port 15).leaving,
          (decide ((s.port 15).symbols.look 7 0 ≤ (2 : Nat) ^ (s.pfld 15 fPortCtrlBerLimit + 6))) == (decide (x.1 = 0))]),
      [[], [6]].all (fun l => let s := ret l
        tAll [(s.port 15).retrain.look 7 0 ≠ 0, (s.port 15).resetAt = none, 7 ∉ (s.port 15).coming, (s.port 15).active = l, !(s.port 15).heard,
          (s.port 15).linked, (s.port 15).greeted, (s.port 15).helloTx ≠ 0, s.goodGroups 15 ≠ [], (s.port 15).retrain.look 7 0 + 50000000 ≤ s.mono + 1])]) = true := by
  decide +kernel

/-- PortTraffic: a grant and a retry, a packet held too long, a hello to send and one that came, link blocks damaged, as the awaited one, behind it and again, replayed and in sequence, an Ethernet
frame, a link that goes up, a timestamp, and classification commands. -/
theorem witness_PortTraffic :
    (let x (stage : Nat) : FabWait := ⟨tFab 1 0 (.lig false 0 0 0 0), 16, 15, false, stage, 0, 4⟩
    let w (stage : Nat) := { tUp with fabWait := [x stage], mono := 1000 }
    let hold := { tP 1 4 (fun q => { q with gw := [⟨tFab 1 0 (.lig false 0 0 0 0), 0⟩] }) tUp with mono := 2 ^ 60 }
    let up := tP 1 3 (fun q => { q with active := [0], greeted := true }) tUp
    let wait := tP 1 3 (fun q => { q with active := [0], awaiting := true }) tUp
    let worn := tP 1 3 (fun q => { q with active := [0], replays := 16 }) tUp
    let h : Hello := ⟨5, 0, 0, 0, 0, false, 0, 0⟩
    let hello := tP 1 3 (fun q => { q with arrived := [tFab 0 0 (.hello h)] }) tUp
    let e := (tP 2 3 id (tUp.setFld (fldAt fPortEthMacEnable (0x1000 * 15 + 56)) 1)).setP 15 fPortEthStatusLinkUp 128
    let ts := tP 2 3 (fun q => { q with ptpQ := [(65535, 7, 9)] }) tUp
    let bad := (tUp.setFld fPortClsStage0Action 3)
    tAll [[1, 3].all (fun k => tAll [(w k).fabWait[0]? = some (x k), (w k).dev = .up, (w k).mayGrant 0 (x k), !(w k).fabUp 15, ((w k).port 15).resetAt = none]),
      (w 2).fabWait[0]? = some (x 2), 0 + 1000 ≤ (w 2).mono, hold.portState 15 = 4, up.fabLink 15, (up.port 15).resetAt = none, (up.port 15).helloTx = 0,
      (hello.port 15).arrived[0]? = some (tFab 0 0 (.hello h)), hello.fabLink 15, !hello.tooOld 0, (hello.port 15).resetAt = none,
      hello.pfld 15 fPortStatusPeerValid = 0, (up.port 15).greeted] &&
    tAll [(up.port 15).mode = 1, (up.port 15).active ≠ [], (up.port 15).replays < 16, (up.port 15).rxSeq = 0, !(up.port 15).heard,
      (up.port 15).unacked = [], (worn.port 15).mode = 1, (worn.port 15).active ≠ [], (worn.port 15).resetAt = none, !(worn.port 15).heard, 16 ≤ (worn.port 15).replays,
      (worn.port 15).rxSeq = 0, (worn.port 15).unacked = [], up.copies.isEmpty, !(up.port 15).awaiting, (wait.port 15).awaiting, (wait.port 15).rxSeq = 0, !(wait.port 15).nak,
      (wait.port 15).mode = 1, (wait.port 15).active ≠ [], (wait.port 15).resetAt = none, !(wait.port 15).heard, wait.dev = .up] &&
    tAll [
      e.dev = .up, (e.port 15).mode = 2, (e.pfld 15 fPortEthStatusLinkUp).testBit 7, e.fld (fldAt fPortEthMacEnable (0x1000 * 15 + 56)) = 1,
      e.portState 15 = 3, ts.dev = .up, (ts.port 15).ptpQ = (65535, 7, 9) :: [], (e.port 15).ptpQ = [],
      (0x1FFF : Word).getLsbD 12, fieldOf (bad.reg fPortClsStage0Valid.off) fPortClsStage0Action.lo fPortClsStage0Action.width = 3, bad.dev = .up,
      fieldOf (tUp.reg fPortClsStage0Valid.off) fPortClsStage0Action.lo fPortClsStage0Action.width ≠ 3,
      fieldOf (tUp.reg fPortClsStage0Valid.off) fPortClsStage0IpVer.lo fPortClsStage0IpVer.width ≠ 3]) = true := by decide +kernel

/-- A device with identifier 0 of a ring of 4,096 in dimension 0: port 15 is its + port and up, port 14 its − port, and coordinate 1 lies in the + direction. -/
def tFabRing (s : State) : State :=
  let s := ((s.setFld fFabIdDeviceId 0).setFld fFabIdValid 1).setReg fFabPortmapPort.off (BitVec.ofNat 64 (8 * 2 ^ 60 + 12 * 2 ^ 56))
  let s := (s.setReg fFabDimsNdims.off (BitVec.ofNat 64 (12 * 2 ^ 2))).setReg fFabRingSize.off (BitVec.ofNat 64 4095)
  tP 1 3 id (s.setReg (fFabRtDir.off + 8) (BitVec.ofNat 64 (1 + 2 ^ 17)))

/-- That device with a packet at a port. -/
def tAt (p : Nat) (x : FabPkt) : State := (tFabRing tUp).mapPort p (fun q => { q with mode := 1, arrived := [x] })

/-- FabricRouting: a packet too old, unreachable, out of order, at the hop limit, going on and delivered; escape packets without a route, at its end, up
after down and onward; reservations queued, retried and unreachable; a promotion; and a read tried again. -/
theorem witness_FabricRouting :
    (let x := tFab 1 1 (.lig false 0 0 0 0)
    let here := tFab 1 0 (.lig true 511 0 0 0)
    let esc (route : List Nat) (k : Nat) (down : Bool) : FabPkt := { tFab 0 0 (.scribe 5 []) with kind := 8, route := route, routeIdx := k, downTaken := down }
    let old := { (tAt 14 x).setFld fTimeNsNs 900000000 with mono := 0 }
    let cut := (tAt 14 x).setFld fFabIdValid 0
    let up := (tAt 14 (esc [15] 0 true)).setFld fFabEscDirUp (2 ^ 15)
    let limit := { x with hops := 255 }
    let w (stage port : Nat) : State := { tUp with fabWait := [⟨x, 16, port, false, stage, 0, 0⟩], mono := 1000 }
    let r (s : State) := s.mapPort 15 (fun q => { q with resetAt := some 0 })
    let q5 := { w 5 15 with mesh := [tPkt (.gate 0 0)] }
    let msg : FabPkt := tFab 1 0 (.channel (.message 0 0 0 0 0 [(5, false)]))
    let busy := { (tAt 14 here) with mesh := [{ tPkt (.token 0 0) with path := [(0, 48), (0, 47)], flits := [1], vc := 3 }] }
    let source := { tFabRing tUp with fabWait := [⟨x, 16, 16, false, 0, 0, 0⟩] }
    let flee (route : List Nat) := { tFabRing tUp with fabWait := [⟨esc route 0 false, 16, 16, false, 0, 0, 0⟩] }
    let u := { tUp.mapPort 15 (fun q => { q with units := [(tPkt (.token 0 0), 0)] }) with mono := 1000 }
    tAll [(old.port 14).arrived[0]? = some x, old.firstOf 14 0 x, old.tooOld x.injectUs, !(tAt 14 x).tooOld x.injectUs, cut.nextHop 14 x = .unreachable,
      (tAt 15 x).nextHop 15 x = .disorder, (tAt 14 limit).nextHop 14 limit = .out 15 true, (tAt 14 limit).fld fFabCtrlHopLimit < 255 + 1,
      (tAt 14 x).nextHop 14 x = .out 15 true, x.hops + 1 ≤ (tAt 14 x).fld fFabCtrlHopLimit, (tAt 14 here).nextHop 14 here = .here, !(tAt 14 here).readWaits 14 here, busy.nextHop 14 here = .here, busy.readWaits 14 here,
      (tAt 14 msg).nextHop 14 msg = .here, !(tAt 14 msg).readWaits 14 msg, 6 * (tAt 14 msg).rgn 0 fRgnCfgCx0 + msg.x < 72, 8 * (tAt 14 msg).rgn 0 fRgnCfgCy0 + msg.y < 96,
      (tAt 14 msg).classFits msg ((tAt 14 msg).physical 0 0), !(tAt 14 { msg with cls := 2 }).classFits { msg with cls := 2 } ((tAt 14 msg).physical 0 0),
      
      ((tAt 14 (esc [] 0 false)).port 14).arrived[0]? = some (esc [] 0 false), (tAt 14 (esc [] 0 false)).firstOf 14 0 (esc [] 0 false),
      (esc [15] 1 false).routeIdx = (esc [15] 1 false).route.length,
      (tAt 14 (esc [15] 1 false)).scribe.escape.foldl (fun n y => n + 128 * y.flits) 128 ≤ 8388608,
      ((esc [15] 0 true).route).length ≤ 24] &&
    tAll [(esc [15] 0 true).kind ≠ 9, (esc [15] 0 true).route[(esc [15] 0 true).routeIdx]? = some 15, (up.fld fFabEscDirUp).testBit 15, (esc [15] 0 true).downTaken,
      (tAt 14 (esc [15] 0 false)).fabUp 15, !(esc [15] 0 false).downTaken, (esc [15] 0 false).hops + 1 ≤ (tAt 14 (esc [15] 0 false)).fld fFabCtrlHopLimit,
      (flee [15]).fabWait[0]? = some ⟨esc [15] 0 false, 16, 16, false, 0, 0, 0⟩,
      (w 0 15).dev = .up, q5.fabWait[0]? = some ⟨x, 16, 15, false, 5, 0, 0⟩, q5.mesh.findIdx? (fun p => decide (p.body = .gate 0 0) && p.atEnd) = some 0, q5.queued ⟨x, 16, 15, false, 5, 0, 0⟩ < 256,
      (q5.port 15).resetAt = none, ((r q5).port 15).resetAt ≠ none, (w 0 16).nextHop 16 x = .unreachable, source.nextHop 16 x = .out 15 false, x.cls ≠ 0,
      (flee [15]).fabUp 15, (flee []).dev = .up, (esc [15] 0 false).cls = 0] &&
    tAll [
      (w 1 15).fld fFabCtrlPromoteAge ≠ 0, 0 + 1000 * ((w 1 15).setFld fFabCtrlPromoteAge 1).fld fFabCtrlPromoteAge ≤ (w 1 15).mono,
      (u.port 15).units[0]? = some (tPkt (.token 0 0), 0), u.dev = .up, 0 + 1000 ≤ u.mono]) = true := by decide +kernel

/-- RouteChoice: a device without an identifier, a packet for it, one with no entry, one whose only port is down, one from the device itself and one by a port that the map leaves
out, one that goes on in its dimension, one that would turn back and one from a higher dimension, and two ports of one cost. -/
theorem witness_RouteChoice :
    (let x := tFab 1 1 (.lig false 0 0 0 0)
    let s := tFabRing tUp
    let none_ := s.setFld fFabIdValid 0
    let closed := s.setP 15 fPortStatusState 2
    let two := (tP 1 3 id s).mapPort 13 (fun q => { q with mode := 1, linked := true })
    let two := ((two.setP 13 fPortStatusState 3).setReg fFabPortmapPort.off (BitVec.ofNat 64 (8 * 2 ^ 60 + 12 * 2 ^ 56 + 8 * 2 ^ 52 + 9 * 2 ^ 48))).setReg (fFabRtDir.off + 8)
      (BitVec.ofNat 64 (1 + 2 ^ 17 + 2 ^ 15))
    let map (s : State) (p : Nat) : Nat := fieldOf (s.reg fFabPortmapPort.off) (4 * p) 4
    let cost (s : State) (p : Nat) : Nat := 2 * s.level p x.cls + s.partnerLevel p x.cls
    tAll [none_.fld fFabIdValid = 0, s.fld fFabIdValid = 1, s.fld fFabDimsNdims = 0, s.fld fFabIdDeviceId = 0, x.dstDev = 1, (tFab 1 0 x.body).dstDev = 0, s.idInRange 0,
      fieldOf (s.reg fFabDimsNdims.off) 2 4 = 12, (s.reg (fFabRtDir.off + 8)).toNat % 4 = 1, (s.reg (fFabRtDir.off + 16)).toNat % 4 = 0,
      (List.range 16).all (fun p => (s.fabUp p && (s.reg (fFabRtDir.off + 8)).getLsbD (2 + p)) == decide (p = 15)), (List.range 16).all (fun p => !closed.fabUp p),
      map s 15 = 8, map s 14 = 12, map s 3 = 0, map two 12 = 9, two.nextHop 12 x = .disorder, s.nextHop 16 x = .out 15 false, s.nextHop 3 x = .out 15 false,
      s.nextHop 14 x = .out 15 true, s.nextHop 15 x = .disorder, closed.nextHop 16 x = .unreachable, s.nextHop 16 { x with dstDev := 2 } = .unreachable,
      none_.nextHop 16 x = .unreachable, s.nextHop 16 { x with dstDev := 0 } = .here,
      cost two 13 = cost two 15, two.fabUp 13, two.fabUp 15, two.nextHop 16 x = .out 15 false, two.nextHop 16 { x with srcDev := 1 } = .out 13 false]) = true := by decide +kernel

/-- FabricUpkeep: entries of both versions, a switch at its time, one that has settled, a silent parent, and a port due to send and to receive. -/
theorem witness_FabricUpkeep :
    (let idle := tUp.setFld fFabEpochIdle 1
    let busy := tUp.setFld fFabEpochIdle 0
    let armed := { tUp with epoch := ⟨some (0, false), 0, 0⟩, mono := 10 }
    let done := { busy with mono := 10 ^ 9 }
    let par := (tUp.setFld fFabTimeParentEn 1).setFld fFabTimeLocked 1
    let due := { tFabRing tUp with mono := 10 ^ 12 }
    let map := tFab 5 0 (.cmap (List.replicate 8 (List.replicate 8 2)))
    let time := tFab 5 0 (.time 7 none)
    tAll [idle.dev = .up, 1 ≠ idle.fld fFabEpochBit, idle.fld fFabEpochIdle = 1, busy.fld fFabEpochIdle = 0, armed.epoch.armed = some (0, false), 0 ≤ armed.time,
      armed.mono ≠ armed.epoch.armedAt,
      done.epoch.switched + 64000 * min 160 (done.fld fFabCtrlMaxLife) ≤ done.mono, par.fld fFabTimeParentEn = 1, par.fld fFabTimeLocked = 1,
      !par.fabUp (par.fld fFabTimeParent), due.fabUp 15, due.routed, (due.port 15).cmapTx + 1000 * due.fld fFabCtrlCmapInterval ≤ due.mono,
      (due.port 15).cmapAt + 4000 * due.fld fFabCtrlCmapInterval ≤ due.mono, (due.port 15).resetAt = none,
      (due.port 15).ttTx + 10000 * due.fld fFabTimeTtInterval ≤ due.mono, !(tAt 15 map).tooOld map.injectUs, !(tAt 15 time).tooOld time.injectUs,
      ((tAt 15 map).port 15).arrived[0]? = some map, (tAt 15 map).portDim 15 = some (0, 0),
      ((tAt 15 time).port 15).arrived[0]? = some time]) = true := by decide +kernel

/-! ## Witnesses: the Scribe Complex -/

/-- A request of the management port on session 1. -/
def tReq (op : Nat) (p : List Byte) : MReq := ⟨0, 1, 1, op, p, 0⟩

/-- A serving device with a request at the head of the Scribe's queue, and session 1 open. -/
def tAsk1 (op : Nat) (p : List Byte) (s : State) : State :=
  { ((s.setFld fRstStatusPhase 9).setFld fRstStatusStartOk 1) with
    life := 2, scribe := { s.scribe with reqs := [tReq op p], sessions := [(1, some sessionNew)] } }

/-- A management frame's bytes: version, type, session, sequence number and opcode, with status zero and no payload. -/
def tFrame (version type session seq op : Nat) : List Byte := (FrameHead.mk version type session seq op 0 0).bytes

/-- ManagementFrames: an I3C target with its dynamic address, and another; another UDP port, a session not open, a bad header, a repeated, a late and an expected request on session 0; a gap held too long; four
sessions open and none, with the key valid and not; a close and a status. -/
theorem witness_ManagementFrames :
    (let s := (tUp.setFld fRstStatusPhase 9).setFld fRstStatusStartOk 1
    let x (n : Nat) : Session := { sessionNew with kept := if n = 0 then [⟨0, 0, 1, 3, 0, []⟩] else [], next := if n = 1 then 200 else 1 }
    let on (n : Nat) : State := s.setSession 0 0 (x n)
    let gap : State := { s.setSession 1 4 { sessionNew with waiting := [(0, tReq 3 [])] } with mono := 100000000 }
    let open_ (n : Nat) : State := { tAsk1 1 (List.replicate 192 0) tUp with
      scribe := { tUp.scribe with reqs := [tReq 1 (List.replicate 192 0)], sessions := (List.range n).map (fun k => (k + 1, some sessionNew)) } }
    let named := { s with island := { s.island with i3c := 0x20 } }
    tAll [0x21 ≠ named.island.i3c, 0x20 = named.island.i3c, (0x4C : Nat) < 65536, s.dev ≠ .off, 2000 ≠ s.fld fScrMgmtCtrlUdpPort, s.dev = .up, 2 ≤ s.fld fRstStatusPhase, 16 ≤ (tFrame 1 0 2 1 3).length,
      (frameHead (tFrame 1 0 2 1 3)).session = 2, s.scribe.sessions.look 2 none = none, (frameHead (tFrame 2 0 0 1 3)).session = 0,
      headBad (frameHead (tFrame 2 0 0 1 3)) [] = some 0, headBad (frameHead (tFrame 1 1 0 1 3)) [] = some 1,
      headBad (frameHead (tFrame 1 0 0 1 3)) [0] = some 12, headBad (frameHead (tFrame 1 0 0 1 3)) [] = none,
      ((on 0).session 0 0).kept.find? (fun k => k.seq = (frameHead (tFrame 1 0 0 1 3)).seq) = some ⟨0, 0, 1, 3, 0, []⟩,
      ((on 2).session 0 0).kept.find? (fun k => k.seq = (frameHead (tFrame 1 0 0 65 3)).seq) = none,
      ((on 2).session 0 0).last + 64 < (frameHead (tFrame 1 0 0 65 3)).seq, ((on 2).session 0 0).next < (frameHead (tFrame 1 0 0 65 3)).seq,
      (frameHead (tFrame 1 0 0 1 3)).seq = ((on 2).session 0 0).next, (frameHead (tFrame 1 0 0 1 3)).seq ≤ ((on 2).session 0 0).last + 64, ((on 2).session 0 0).waiting = [], (on 2).scribe.reqs = [],
      (on 2).barred ⟨0, 0, 1, 3, [], (on 2).mono⟩ = none,
      tAll [(gap.session 1 4).waiting.any (fun w => w.1 + 100000000 ≤ gap.mono), (open_ 4).payload 0x01 = some (List.replicate 192 0), (open_ 4).dev = .up,
      (open_ 4).freeSession = none, (open_ 3).payload 0x01 = some (List.replicate 192 0), (open_ 3).freeSession = some 4,
      (List.replicate 192 (0 : Byte)).length = 192, (open_ 3).fld fScrStatusMcKeyValid = 0,
      ((open_ 3).setFld fScrStatusMcKeyValid 1).fld fScrStatusMcKeyValid = 1,
      (tAsk1 2 [] tUp).scribe.reqs = tReq 2 [] :: [], (tReq 2 []).opcode = 2, (tAsk1 3 [] tUp).asked 0x03, (tAsk1 3 [] tUp).dev = .up,
      ({ tAsk1 3 [] tUp with dev := .frozen }).asked 0x03]]) = true := by decide +kernel

/-- A list of register reads. -/
def tReads (l : List Nat) : List Byte := bytesOfNat 4 l.length ++ l.flatMap (bytesOfNat 8)

/-- A list of register writes of zero. -/
def tWrites (l : List Nat) : List Byte := bytesOfNat 4 l.length ++ l.flatMap (fun a => bytesOfNat 8 a ++ bytesOfNat 8 0)

/-- ManagementAccesses: malformed reads and writes, those that Service does not allow, those of one place, a firmware write, a field of each type, a key
unlocked and locked, and both bits of a kick. -/
theorem witness_ManagementAccesses :
    (let rd (l : List Nat) := tAsk1 0x20 (tReads l) tUp
    let wr (l : List Nat) := tAsk1 0x21 (tWrites l) tUp
    let a := fPwrCtrlMode.off
    let x := fRgnCfgEnable.off
    let w := 0x1000400000
    let gone := { wr [w] with life := 3 }
    let locked := { tUp with scribe := { tUp.scribe with keyLocked := true } }
    tAll [(rd []).dev = .up, (rd []).payload 0x20 = some (tReads []), requestBad 8 (tReads []) = some 0, requestBad 8 (tReads [4]) = some 4,
      requestBad 8 (tReads [0x40]) = none, (requestPlaces 8 (tReads [0x40])).all (rd [0x40]).mayRead = false,
      (requestPlaces 8 (tReads [0x1000000])).all (rd [0x1000000]).mayRead,
      requestPlaces 8 (tReads [0x1000000]) = [.rim true 0], requestBad 8 (tReads [0x1000000]) = none,
      (wr []).payload 0x21 = some (tWrites []), requestBad 16 (tWrites []) = some 0, requestBad 16 (tWrites [0x2CB000]) = none,
      (requestPlaces 16 (tWrites [0x2CB000])).all ((wr []).mayWrite (wr []).headIface) = false, requestBad 16 (tWrites [a]) = none,
      requestPlaces 16 (tWrites [a]) = [.rim false a], (wr [a]).mayWrite (wr [a]).headIface (.rim false a), (wr [a]).reachable (.rim false a),
      placeOf (BitVec.ofNat 64 x).toNat = some (.rim false x), supervisorWrites (.rim false x), (tUp.writeActs x 0).isNone, x ≠ fFabTimeParentEn.off, x < 0x2D0000,
      [Access.rw, .w1c, .rwl, .ro].all (fun y => rimRegs.any (fun r => r.fields.any (fun f => f.access = y)))] &&
    tAll [!(wr [a]).wayWaits (.rim false a), ((wr [a]).pokeAt (.rim false a) 0).1,
      requestBad 16 (tWrites [w]) = none, requestPlaces 16 (tWrites [w]) = [.well 1 0], (gone.setFld fClkClStatusLocked 1).payload 0x21 = some (tWrites [w]),
      gone.mayWrite gone.headIface (.well 1 0), gone.reachable (.well 1 0), !gone.wayWaits (.well 1 0), !(gone.pokeAt (.well 1 0) 0).1, Place.isWindow (.well 1 0),
      tUp.scribe.keyLocked = false, locked.scribe.keyLocked = true, locked.dev = .up, (1 : Word).getLsbD 0, !(2 : Word).getLsbD 0]) = true := by
  decide +kernel

/-- An image chunk's payload: a target, an offset and its bytes. -/
def tChunk (target off : Nat) (bs : List Byte) : List Byte := bytesOfNat 2 target ++ bytesOfNat 2 0 ++ bytesOfNat 8 off ++ bs

/-- Images: chunks at the start, further on, for no region, and for cores behind a crossing in holdover; a commit of each target, an abort of each, a colophon that is well formed, and a repair list
that is too short. -/
theorem witness_Images :
    (let ready (op : Nat) (p : List Byte) := (tAsk1 op p tUp).setRgn 0 fRgnStatusState 1
    let early (op : Nat) (p : List Byte) := (tAsk1 op p tUp).setFld fRstStatusPhase 3
    let load : Load := ⟨1⟩
    let held (s : State) (k : Nat) := s.setLoad k (some load)
    let crossing := let s := (ready 0x10 []).setRgn 0 fRgnCfgWidth 1
      { s with clocks := { s.clocks with held := s.clocks.held.put 1 1 0 } }
    let col (kind value : Nat) : List Byte := bytesOfNat 4 0x4F43574B ++ bytesOfNat 2 1 ++ bytesOfNat 1 kind ++ bytesOfNat 1 value ++ List.replicate 184 0
    tAll [(ready 0x10 (tChunk 1 0 [7])).dev = .up, (ready 0x10 (tChunk 1 0 [7])).payload 0x10 = some (tChunk 1 0 [7]), 12 ≤ (tChunk 1 0 [7]).length,
      numAt (tChunk 1 0 [7]) 2 2 = 0, numAt (tChunk 1 0 [7]) 0 2 = 1, (ready 0x10 []).targetRefused 1 = none, (ready 0x10 []).targetRefused 2 ≠ none,
      (ready 0x10 []).targetRefused 65 = some (2, some 0), numAt (tChunk 1 0 [7]) 4 8 = 0, numAt (tChunk 1 8 [7]) 4 8 ≠ 0,
      (held (ready 0x10 []) 1).images.loads.look 1 none = some load, (held (ready 0x10 []) 1).targetRefused 1 = none,
      (held (early 0x11 (tChunk 0 0 [])) 0).payload 0x11 = some (tChunk 0 0 []), (held (early 0x11 []) 0).targetRefused 0 = none,
      (held (early 0x11 []) 0).images.loads.look 0 none = some load, numAt (tChunk 0 0 []) 0 2 = 0,
      ((early 0x11 []).setFld fRstStatusMrm 1).fld fRstStatusMrm = 1, (held (ready 0x11 []) 1).rgn (1 - 1) fRgnStatusState = 1,
      (ready 0x12 (tChunk 1 0 [])).payload 0x12 = some (tChunk 1 0 []), (held (ready 0x12 []) 1).images.loads.look 1 none ≠ none,
      colophonBad (col 0 1) = none, colophonBad (col 1 1) = none, numAt (col 0 1) 6 1 = 0, numAt (col 1 1) 6 1 = 1,
      (ready 0x13 (col 0 1)).payload 0x13 = some (col 0 1), (early 0x14 []).payload 0x14 = some [], (early 0x14 []).images.device = false,
      (early 0x14 []).fld fRstStatusPhase ≤ 3] &&
    tAll [[0, 1].all (fun t => !(ready 0x10 []).stageWaits t 1), crossing.stageWaits 1 (2 ^ 29), crossing.targetRefused 1 = none,
      !(held (early 0x11 []) 0).stageWaits 0 1, !(held (ready 0x11 []) 1).stageWaits 1 1, ((ready 0x11 []).rectClusters 0).all (fun n => !(ready 0x11 []).hubWaits (scribeHub n) n)]) =
      true := by decide +kernel

/-- A device image of which only the magic is looked at is rejected for its header, whatever the signer's checks say. -/
theorem witness_Images_rejected :
    worst (({ State.reset with life := 2 } : State).headFailures (readContainer []) 0 0 (48 * 2 ^ 20) false ++ deviceFailures (readContainer [])) = some (1, 0xFFFF) := by
  have e : (decide (1 < (readContainer []).alg) || !(Config.firmwareKey (Config.sha384 (readContainer []).key) && !State.reset.island.badFuses) ||
      !Config.verifies (readContainer []).alg (readContainer []).key (readContainer []).signed (readContainer []).signature) = true ∨
      (decide (1 < (readContainer []).alg) || !(Config.firmwareKey (Config.sha384 (readContainer []).key) && !State.reset.island.badFuses) ||
      !Config.verifies (readContainer []).alg (readContainer []).key (readContainer []).signed (readContainer []).signature) = false := by
    cases (decide (1 < (readContainer []).alg) || !(Config.firmwareKey (Config.sha384 (readContainer []).key) && !State.reset.island.badFuses) ||
      !Config.verifies (readContainer []).alg (readContainer []).key (readContainer []).signed (readContainer []).signature) <;> simp
  rcases e with e | e <;> simp only [State.headFailures, if_true, Bool.false_or, e] <;> decide +kernel

/-- A colophon for another device is not good: of two identifiers one is another device's. -/
theorem witness_Images_colophon : ¬(BitVec.ofNat 64 0 = Config.eui ∧ BitVec.ofNat 64 1 = Config.eui) := by
  rintro ⟨h, k⟩
  rw [← k] at h
  exact absurd h (by decide)

/-- A repair list without its device's identifier is malformed, and one of no entries with it is not. -/
theorem witness_Images_list : listBad [] = some 0 ∧ listBad (bytesOfWord Config.eui) = none := by
  have n : numAt (bytesOfWord Config.eui) 0 8 = Config.eui.toNat := by
    have b := Config.eui.isLt
    simp only [numAt, bytesOfWord, bytesOfNat, List.drop, List.take, natOfBytes, BitVec.toNat_ofNat]
    omega
  have l : (bytesOfWord Config.eui).length = 8 := rfl
  refine ⟨?_, ?_⟩
  · simp [listBad]
  · simp [listBad, n, l]

/-- ScribeWork: bindings of a region that is not ready, of a class that has none and of one that has; the fabric manager's messages; escape messages of both
kinds; lifecycle changes allowed and not; a frame; and watchdogs of core 0 and of another, once and twice. -/
theorem witness_ScribeWork :
    (let ask (op : Nat) (p : List Byte) := ((tAsk1 op p (tFabRing tUp)).setRgn 0 fRgnStatusState 1)
    let fm (source : Word) : FabPkt := tFab 0 0 (.scribe source [])
    let fmSend : FmSend := ⟨9, 1, [15], [(0x280000 - 8, 1)]⟩
    let job : FabPkt := tFab 0 0 (.jobReset 0)
    let esc (x : FabPkt) (s : State) := { s with scribe := { s.scribe with escape := [x] } }
    let named := ((ask 0x41 []).setFld fScrStatusFmNamed 1).setReg fScrFmEuiEui.off 9
    let f : ScrFrame := ⟨0, 0, [], 0, true, true⟩
    let wd (n : Nat) (w : Wdog) : State :=
      { (tUp.setFld (fldAt fScrWdogCtrlArmed (8 * n)) 1) with mono := 1000000000000, scribe := { tUp.scribe with wdog := [(n, w)] } }
    tAll [(ask 0x23 []).serving, [0, 1].all (fun r => ((ask 0x23 []).scrTurn ⟨r, (ask 0x23 []).headSince, none, true⟩ ((ask 0x23 []).scrWaits (some r))).isSome), (ask 0x23 []).copies.isEmpty,
      (ask 0x23 []).asked 0x23, (ask 0x23 []).rgn 0 fRgnStatusState = 1, (ask 0x23 []).rgn 1 fRgnStatusState ≠ 1,
      (ask 0x23 []).fld fFabIdValid = 1, (ask 0x23 []).idInRange 1, (tAsk1 0x23 [] tUp).fld fFabIdValid = 0, !(ask 0x23 []).idInRange 4096,
      [fmSend].all (fun x => decide (x.route ≠ []) && x.writes.all (fun w => fmRegister w.1.toNat)), !fmRegister 0x2C0000, (ask 0x40 []).copies.isEmpty, (ask 0x40 []).asked 0x40, (ask 0x40 []).fld fFabIdValid = 1, (ask 0x41 (bytesOfNat 8 9)).payload 0x41 = some (bytesOfNat 8 9), (bytesOfNat 8 9).length = 8,
      (esc (fm 9) named).serving, (esc (fm 9) named).scribe.escape[0]? = some (fm 9), (esc (fm 9) named).trusts 9,
      (esc (fm 9) (ask 0x41 [])).trusts 9 = false, (esc job named).scribe.escape[0]? = some job, (esc job named).rgn 0 fRgnCfgEnable = 1,
      job.dstRegion % 64 = 0, (esc job (named.setRgn 0 fRgnStatusState 2)).rgn 0 fRgnStatusState = 2, (esc { job with gen := 7 } named).rgn 0 fRgnStatusGeneration ≠ 7,
      (ask 0x50 []).asked 0x50, (ask 0x50 []).dev = .up, (ask 0x50 []).lifeTo 3 none = some 3, (ask 0x50 []).lifeTo 2 none = none,
      ({ ask 0x50 [] with dev := .frozen }).asked 0x50] &&
    tAll [({ tUp with scrFrames := [f] }).scrFrames = f :: [], tUp.etherUp 0 0 = false, (tUp.port 0).scribeQ = [], (tPort id).cli 1023 fCliCfgValid = 1,
      (tPort id).etherUp 12 7, ((tPort id).port 12).scribeQ = [], (tPort id).dev = .up, tUp.scribe.work = [], tUp.asked 0x24 = false,
      [0, 1].all (fun n => tAll [(wd n ⟨0, [], none⟩).fld (fldAt fScrWdogCtrlArmed (8 * n)) = 1, ((wd n ⟨0, [], none⟩).wdog n).resetting = none,
        0 + 1000000 * 2 ^ (wd n ⟨0, [], none⟩).fld (fldAt fScrWdogCtrlTimeout (8 * n)) ≤ (wd n ⟨0, [], none⟩).mono]),
      ((wd 1 ⟨0, [999999999999], none⟩).wdog 1).expired.any (fun t => (wd 1 ⟨0, [], none⟩).mono ≤ t + 10000000000),
      ((wd 1 ⟨0, [], none⟩).wdog 1).expired = [], ((wd 1 ⟨0, [], some 0⟩).wdog 1).resetting = some 0, 0 + 1000000 ≤ (wd 1 ⟨0, [], some 0⟩).mono]) = true := by
  decide +kernel

/-! ## Witnesses: repair, resets and observation -/

/-- A device with a region of clusters 0 and 1 in which core 0 is the primary of a pair, and a packet of it that its router holds. -/
def tHeld : State :=
  let s := (tUp.mapCore 0 (fun c => c.setFld fCoreCheckRole 1)).setRgn 0 fRgnStatusState 2
  { s with mesh := [{ tPkt (.token 0 0) with hold := 1 }], mono := 1000000000 }

/-- RepairAndVotes: a report of a checksum, a core that has failed in a running region and in a ready one, one without a pass, scores to halve, and a held
packet with no mirror, whose vote has every digest. -/
theorem witness_RepairAndVotes :
    (let r : Report := ⟨.checksum, 0, 0, 0⟩
    let rep := tCore (fun c => { c with reports := [r] })
    let fail := (tCore (fun c => c.setFld fCoreSuspectFailed 1)).setRgn 0 fRgnStatusState 2
    let map : State := { tUp.setRgn 0 fRgnStatusState 1 with repair := { tUp.repair with failed := [0] } }
    let late : State := { tUp with mono := 10 ^ 18 }
    tAll [rep.dev = .up, (rep.core 0).reports = r :: [], r.kind = .checksum, !rep.hubWaits (clusterOfCore 0) (scribeHub (clusterOfCore 0)),
      (rep.send (clusterOfCore 0) (scribeHub (clusterOfCore 0))).1,
      ((rep.setFld fRstRepairCtrlSuspectLimit 1).fld fRstRepairCtrlSuspectLimit) ≤ min 15 ((rep.core 0).fld fCoreSuspectScore + 1),
      (fail.core 0).fld fCoreSuspectFailed = 1, (fail.core 0).fld fCoreCheckRole ≠ 2, fail.regionOf (clusterOfCore 0) = some 0,
      (fail.logicalX 0).isSome, fail.rgn 0 fRgnStatusState = 2, map.repair.failed.contains 0,
      (map.regionsUsing (clusterOfCore 0)).all (fun r => map.rgn r fRgnStatusState = 1), map.fld (rowReg (rowOf 0) fRstRowmapFailQx) = 7,
      late.regionOf (clusterOfCore 0) = some 0, (late.logicalX 0).isSome, late.passedWithin (3600 * late.fld fScrExCtrlCadenceH) 0 = false,
      late.timeBase.began + 3600 * late.fld fScrExCtrlCadenceH * 10 ^ 9 ≤ late.mono, late.rgn 0 fRgnCheckStatusExOverdue = 0,
      late.repair.halved + late.fld fRstRepairCtrlWindowH * 3600 * 10 ^ 9 ≤ late.mono, tHeld.dev = .up, (tHeld.heldPacket false 0).isSome,
      (tHeld.mirrorsOf 0 0).length = 0, (tHeld.heldDigest false 0).isSome, map.copies.isEmpty]) = true := by decide +kernel

/-- A pair: region 0 of cluster 0 checked in cluster 1's rectangle, whose mirror of core 0 has the role of one. -/
def tPair : State :=
  ((tUp.setRgn 0 fRgnCfgWidth 0).setRgn 0 fRgnCheckShare 2).setRgn 0 fRgnCheckMx0 1

/-- RepairAndVotes: the mirrors of a pair's primary, with a digest that has not come and the time for it gone. -/
theorem witness_RepairAndVotes_timeout :
    (let m := ((tPair.checkGroups 0).filter (fun g => g.1 = 0)).flatMap (fun g => g.2)
    let s : State := { m.foldl (fun (s : State) i => s.mapCore i (fun c => c.setFld fCoreCheckRole 2)) tPair with
      mesh := [{ tPkt (.token 0 0) with hold := 1 }], mono := 1000000000 }
    tAll [m.length = 1, s.heldPacket false 0 = some (0, 0, 0), ([none] : List (Option Digest)).length = (s.mirrorsOf 0 0).length,
      ([none] : List (Option Digest)).contains none, (s.heldDigest false 0).isSome, 0 + 1000 * s.rgn 0 fRgnCheckVoteLimit ≤ s.mono, s.dev = .up]) = true := by decide +kernel

/-- Exemplars: a serving device with a record held and run: passing, failing first and failing again, with an empty staging space. -/
theorem witness_Exemplars :
    (let e : Exemplar := ⟨7, 0, 0, 0, [1], 1000, []⟩
    let s := (((({ tUp with repair := { tUp.repair with exemplars := [e] } } : State).setFld fRstStatusStartOk 1).setFld fScrExCtrlRunEn 1).setFld
      (fldAt fClkClStatusLocked 0x200) 1)
    let i := 14
    let run (again : Bool) : State := { s with repair := { s.repair with runs := [⟨7, [i], again, none, 0⟩] } }
    tAll [s.serving, (s.repair.exemplars.filter (fun y => y.id != 8)).length < 64, s.recordOk s.stagedRecord = false, s.fld fScrExCtrlRunEn = 1,
      s.repair.exemplars.any (fun y => y.id = 7), s.repair.runs.all (fun x => !x.cores.contains i), s.idleCore i,
      [true, false].all (fun again => tAll [(run again).serving, (run again).repair.runs[0]? = some ⟨7, [i], again, none, 0⟩,
        (run again).repair.exemplars.find? (fun y => decide (y.id = 7)) = some e]),
      !((run false).core i).ctl.stopped, !((run false).core i).ctl.trapSeen, !((run false).core i).ctl.halted, (run false).mono ≤ 0 + 1000 * e.runLimit,
      [true, false].all (fun again => let h := (run again).mapCore i (fun c => { c with ctl := { c.ctl with halted := true } })
        tAll [(h.core i).ctl.halted, h.serving])]) = true := by decide +kernel

/-- PowerAndResets: devices off, up, stopped, cold and hot, in reset with its rails on and the reset pin held, and frozen. -/
theorem witness_PowerAndResets :
    (let stopped : State := { tUp with dev := .stopped }
    let ready : State := { stopped with island := { tUp.island with coolantLong := true }, power := { tUp.power with rimTemp := some 20 } }
    let reset : State := { tUp with dev := .inReset, island := { tUp.island with pwrEn := 0x3FFF, resetLow := true, heldDone := false } }
    let on : State := { tUp with island := { tUp.island with pwrEn := 1 } }
    tAll [tUp.dev ≠ .off, tUp.dev = .up, on.island.pwrEn.testBit 0, !({ tUp with island := { tUp.island with pwrEn := 0 } } : State).island.pwrEn.testBit 0,
      stopped.dev = .stopped, ready.island.coolantLong, (ready.power.rimTemp.map (fun c => decide (c + 10 < ready.tripC))) = some true, stopped.island.causes = [], !stopped.island.coolantLong, reset.dev = .inReset,
      reset.island.pwrEn = 0x3FFF, reset.island.resetLow, reset.island.heldDone = false]) = true := by decide +kernel

/-- StartSequence: reset exits with good and bad fuses, each phase ready, its limit, the start timer, and start-OK taken and ignored. -/
theorem witness_StartSequence :
    (let reset : State := { tUp with dev := .inReset, island := { tUp.island with pwrEn := 0x3FFF } }
    let at_ (p : Nat) (ended : Bool) : State :=
      { tUp.setFld fRstStatusPhase p with island := { tUp.island with refclk := true, startEnded := ended }, images := { tUp.images with device := true } }
    tAll [({ reset with blowing := some 2 } : State).blowing = some 2, reset.blowing = none, reset.dev = .inReset, reset.island.pwrEn = 0x3FFF, reset.fld fAoiStartFailedStarts ≠ 3, reset.fld fAoiRecoverForceMrm ≠ 1,
      [1, 2, 3, 4, 5, 6, 7].all (fun p => tAll [(at_ p false).phaseReady ((at_ p false).fld fRstStatusPhase), (at_ p false).island.startEnded = false]),
      (at_ 2 false).fld fRstStatusPhase ≤ 2, 4 ≤ (at_ 7 false).fld fRstStatusPhase, (at_ 7 false).fld fRstStatusPhase ≤ 7,
      (tUp.setFld fAoiStartTimerRunning 1).fld fAoiStartTimerRunning = 1, (({ tUp with dev := .frozen } : State).setFld fAoiStartTimerRunning 1).fld fAoiStartTimerRunning = 1, 8 ≤ (at_ 8 false).fld fRstStatusPhase, (at_ 8 false).dev = .up,
      (at_ 7 false).fld fRstStatusPhase < 8, (at_ 8 true).island.startEnded]) = true := by decide +kernel

/-- SnapsAndLog: a device up, a snap at its time, a request for one, firmware entries of both kinds of code, and a read of the log. -/
theorem witness_SnapsAndLog :
    (let snap : State := { tUp with dbg := { tUp.dbg with snap := some 0, reach := [0] } }
    tAll [tUp.dev = .up, snap.dbg.snap = some 0, snap.alive 0, snap.dbg.reach = [0],
      clusterCounters.any (fun o => isCounter clusterRegs clusterCounters o && o != 0),
      coreCounters.any (fun o => isCounter coreRegs coreCounters o && !coreViews.contains o && o != fCoreEvtStaleCount.off),
      rimCounters.any (fun o => isCounter rimRegs rimCounters o && !rimViews.contains o), (tAsk1 0x30 (bytesOfNat 8 0) tUp).payload 0x30 = some (bytesOfNat 8 0),
      (bytesOfNat 8 0).length = 8, (0x17F : Word).toNat % 256 < 0x80, 0x80 ≤ (0x380 : Word).toNat % 256, tUp.fld fAoiLogStatusLogLost = 0,
      tUp.log.length < 8192, (tAsk1 0x31 (bytesOfNat 4 0 ++ bytesOfNat 4 250) tUp).payload 0x31 = some (bytesOfNat 4 0 ++ bytesOfNat 4 250),
      numAt (bytesOfNat 4 0 ++ bytesOfNat 4 250) 4 4 ≤ 250, !tUp.logSpoiled 0 250, !(tUp.logBad.look 0 false),
      ({ tUp with logBad := [(0, true)] } : State).logBad.look 0 false]) = true := by decide +kernel

theorem witness_SnapsAndLog_time : 0 ≤ ({ tUp with dbg := { tUp.dbg with snap := some 0 } } : State).time := Nat.zero_le _

/-- FreezeAndTap: a request and the pin, a tick that has come, and devices up, frozen, in reset with the pin low, in Service and in Maintenance. -/
theorem witness_FreezeAndTap :
    (let frozen (life : Nat) : State := { tUp with dev := .frozen, life := life }
    let tick : State := { tUp with dbg := { tUp.dbg with freeze := some 0 } }
    let low : State := { tUp with dev := .inReset, island := { tUp.island with resetLow := true } }
    tAll [(tAsk1 0x51 (bytesOfNat 8 0) tUp).payload 0x51 = some (bytesOfNat 8 0), (bytesOfNat 8 0).length = 8,
      2 ≤ (tAsk1 0x51 [] tUp).fld fRstStatusPhase, tick.dev = .up, tick.dbg.freeze = some 0, (frozen 2).dev = .frozen, (frozen 2).lifecycle = 2,
      (frozen 3).lifecycle ≠ 2, (frozen 3).lifecycle ≠ 4, (frozen 255).lifecycle = 4, (frozen 3).dev ≠ .off, (frozen 3).dev ≠ .stopped,
      low.dev = .inReset, low.island.resetLow, tUp.dev = .up]) = true := by decide +kernel

/-- Exemplars: an outside run whose cores have stopped in time, whatever its digest is to be: a record that expects the digest of what they left, and one that does not. -/
theorem witness_Exemplars_digest :
    let s := tUp.mapCore 14 (fun c => { c with ctl := { c.ctl with stopped := true } })
    let e (x : List Byte) : Exemplar := ⟨7, 0, 0, 0, x, 1000, []⟩
    ((s.core 14).ctl.stopped && !(s.core 14).ctl.trapSeen && !(s.core 14).ctl.halted && decide (s.mono ≤ 0 + 1000 * (e []).runLimit)) = true ∧
    Config.sha384 (s.exOutput (e (Config.sha384 [])) [14]) = (e (Config.sha384 [])).expected ∧
    Config.sha384 (s.exOutput (e (1 :: Config.sha384 [])) [14]) ≠ (e (1 :: Config.sha384 [])).expected := by
  have out (x : List Byte) : State.exOutput (tUp.mapCore 14 (fun c => { c with ctl := { c.ctl with stopped := true } })) ⟨7, 0, 0, 0, x, 1000, []⟩ [14] = [] := by
    simp [State.exOutput]
  refine ⟨by decide +kernel, by rw [out], ?_⟩
  rw [out]
  exact fun h => absurd (congrArg List.length h) (by simp)

/-- LifecycleForward: before power-on, and in Service with a change to Maintenance cut short after its first copy. -/
theorem witness_LifecycleForward_change :
    LifeInv State.reset ∧ LifeInv { State.reset with life := 2, lifeCopies := (3, 2, 2), blowing := some 3 } := by
  refine ⟨⟨by decide, by decide, ?_, fun h => absurd h (by decide)⟩, by decide, by decide, ?_, fun h => absurd h (by decide)⟩
  · intro v h
    exact absurd h (by simp [State.reset])
  · intro v h
    cases h
    exact ⟨by decide, by decide⟩

/-- A record of an exemplar: its own header, an image for one cluster without sections, and room for the signatures. -/
def tRecord : List Byte :=
  let inner := bytesOfNat 4 0x4D49574B ++ bytesOfNat 2 1 ++ bytesOfNat 1 1 ++ bytesOfNat 1 0 ++ bytesOfNat 8 320 ++ bytesOfNat 4 0 ++ bytesOfNat 1 2 ++
    bytesOfNat 1 1 ++ bytesOfNat 1 1 ++ List.replicate 297 0
  bytesOfNat 4 0x5845574B ++ bytesOfNat 2 1 ++ List.replicate 122 0 ++ inner ++ List.replicate 96 0

/-- That record staged on a serving device. -/
def tStaged : State :=
  (List.range 68).foldl (fun (s : State) j => s.setReg (fScrExStageData.off + 8 * j) (wordOfBytes (tRecord.drop (8 * j))))
    { tUp.setFld fRstStatusStartOk 1 with life := 2 }

/-- Exemplars: a staged record that is accepted where WIARN's signature verifies. -/
theorem witness_Exemplars_record :
    tStaged.stagedRecord = tRecord ∧ tStaged.recordOk tRecord = Config.wiarnSigned 1 (tRecord.take 448) (tRecord.drop 448) := by
  refine ⟨by decide +kernel, ?_⟩
  have len : numAt (tRecord.drop 128) 8 8 = 320 := by decide +kernel
  have two : ∀ b : Bool, (failIf b 2 0xFFFF).all (fun f => decide (f.1 = 2)) = true := by decide
  have head : (tStaged.headFailures (readContainer ((tRecord.drop 128).take 320)) 1 ((tRecord.drop 128).take 320).length (48 * 64 * 2 ^ 20) false).all
      (fun f => decide (f.1 = 2)) = true := by
    simp only [State.headFailures, List.all_append, two, Bool.and_true]
    decide +kernel
  simp only [State.recordOk, len, head, Bool.and_true]
  rw [Bool.eq_iff_iff]
  simp only [Bool.and_eq_true]
  constructor
  · exact fun h => h.1.1.2
  · exact fun h => ⟨⟨⟨by decide +kernel, h⟩, by decide +kernel⟩, by decide +kernel⟩

end Sys2Proof.Tests
end

/-! SUPPORT. Regions and the device before power-on: the rules by which proofs about regions read the state (what a field reads after another is
set, what a change of cores leaves of the rim, what an access over the mesh or a message over the hairline leaves alone), what wiping, region start
and a reset do, and from them what each region command does. -/

namespace Sys2Proof.Machine

/-! ## Reads that depend on the rim alone -/

theorem State.fld_of_rim {s t : State} (h : t.rim = s.rim) (f : Fld) : t.fld f = s.fld f := by
  simp only [State.fld, State.reg, h]

theorem State.rgn_of_rim {s t : State} (h : t.rim = s.rim) (r : Nat) (f : Fld) : t.rgn r f = s.rgn r f := State.fld_of_rim h _

theorem State.logicalX_of_rim {s t : State} (h : t.rim = s.rim) (i : Nat) : t.logicalX i = s.logicalX i := by
  simp only [State.logicalX, State.fld_of_rim h]

/-- The fields of a region that give its rectangle (R260). -/
def rectFields : List Fld := [fRgnCfgCx0, fRgnCfgCy0, fRgnCfgWidth, fRgnCfgHeight]

theorem State.rectClusters_congr {s t : State} {r : Nat} (h : ∀ f ∈ rectFields, t.rgn r f = s.rgn r f) : t.rectClusters r = s.rectClusters r := by
  simp only [rectFields, List.forall_mem_cons] at h
  obtain ⟨hx, hy, hw, hh, -⟩ := h
  simp only [State.rectClusters, hx, hy, hw, hh]

theorem State.rectCores_congr {s t : State} {r : Nat} (h : ∀ f ∈ rectFields, t.rgn r f = s.rgn r f) : t.rectCores r = s.rectCores r := by
  simp only [State.rectCores, State.rectClusters_congr h]

/-! ## Fields of regions -/

/-- A field keeps its value when another register, or another field of its register, is set. -/
theorem State.fld_setFld_apart (s : State) {f g : Fld} (v : Nat) (h : g.off ≠ f.off ∨ g.lo + g.width ≤ f.lo ∨ f.lo + f.width ≤ g.lo) :
    (s.setFld f v).fld g = s.fld g := by
  by_cases ho : g.off = f.off
  · simp only [State.fld, State.setFld, ho, State.reg_setReg_same]
    exact fieldOf_putField_other _ _ _ _ _ _ (h.resolve_left (not_not_intro ho))
  · exact State.fld_setFld_other s f g v ho

theorem State.rgn_setRgn_same (s : State) (r v : Nat) {f : Fld} (h : f.lo + f.width ≤ 64) : (s.setRgn r f v).rgn r f = v % 2 ^ f.width :=
  State.fld_setFld_same s (fldAt f (0x40 * r)) v h

/-- Another field keeps its value in every region. -/
theorem State.rgn_setRgn_apart (s : State) (q r v : Nat) {f g : Fld}
    (h : g.off % 0x40 ≠ f.off % 0x40 ∨ g.lo + g.width ≤ f.lo ∨ f.lo + f.width ≤ g.lo) : (s.setRgn r f v).rgn q g = s.rgn q g := by
  refine State.fld_setFld_apart s v (h.imp_left fun ho => ?_)
  simp only [fldAt]
  omega

/-- Another region keeps its field. -/
theorem State.rgn_setRgn_ne (s : State) {q r : Nat} (v : Nat) (f : Fld) (h : q ≠ r) : (s.setRgn r f v).rgn q f = s.rgn q f := by
  refine State.fld_setFld_other s _ _ v ?_
  simp only [fldAt]
  omega

@[simp] theorem State.rgn_mapRgn (s : State) (q r : Nat) (f : RgnSt → RgnSt) (g : Fld) : (s.mapRgn r f).rgn q g = s.rgn q g := rfl

@[simp] theorem State.rgnSt_mapRgn (s : State) (r : Nat) (f : RgnSt → RgnSt) : (s.mapRgn r f).rgnSt r = f (s.rgnSt r) := Tbl.look_put_same _ _ _ _

@[simp] theorem State.rgn_enter (s : State) (r st : Nat) : (s.enter r st).rgn r fRgnStatusState = st % 8 :=
  State.rgn_setRgn_same s r st (by decide)

theorem State.rgn_enter_ne (s : State) {q r : Nat} (st : Nat) (h : q ≠ r) : (s.enter r st).rgn q fRgnStatusState = s.rgn q fRgnStatusState :=
  State.rgn_setRgn_ne s st _ h

theorem State.rgn_enter_apart (s : State) (q r st : Nat) {g : Fld} (h : g.off % 0x40 ≠ 0x10 ∨ 3 ≤ g.lo) : (s.enter r st).rgn q g = s.rgn q g :=
  State.rgn_setRgn_apart s q r st (h.imp id .inr)

@[simp] theorem State.core_enter (s : State) (r st i : Nat) : (s.enter r st).core i = s.core i := rfl
@[simp] theorem State.core_setRgn (s : State) (r v i : Nat) (f : Fld) : (s.setRgn r f v).core i = s.core i := rfl
@[simp] theorem State.core_mapRgn (s : State) (r i : Nat) (f : RgnSt → RgnSt) : (s.mapRgn r f).core i = s.core i := rfl

/-! ## Cores changed one after another -/

theorem State.core_mapCore_same (s : State) (i : Nat) (f : Core → Core) : (s.mapCore i f).core i = f (s.core i) := State.core_setCore_same _ _ _

theorem State.core_mapCore_ne (s : State) {i j : Nat} (f : Core → Core) (h : j ≠ i) : (s.mapCore i f).core j = s.core j :=
  State.core_setCore_ne _ _ h

@[simp] theorem State.core_mapCluster (s : State) (n i : Nat) (f : Cluster → Cluster) : (s.mapCluster n f).core i = s.core i := rfl

/-- What `f` keeps of every core, a change by `f` of any core keeps of each. -/
theorem State.keeps_mapCore {P : Core → Prop} {f : Core → Core} (hf : ∀ c, P c → P (f c)) {s : State} (i : Nat) {j : Nat} (h : P (s.core j)) :
    P ((s.mapCore i f).core j) := by
  by_cases hj : j = i
  · subst hj
    rw [State.core_mapCore_same]
    exact hf _ h
  · rwa [State.core_mapCore_ne s f hj]

/-- Cores changed in turn, each by what the state then says: what the change makes of any core holds in the end of every core of the list. -/
theorem State.foldl_mapCore {f : State → Nat → Core → Core} {I : State → Prop} {P : Nat → Core → Prop} {s : State} (start : I s)
    (keep : ∀ t i, I t → I (t.mapCore i (f t i))) (made : ∀ t i, I t → P i (f t i (t.core i))) (l : List Nat) :
    I (l.foldl (fun t i => t.mapCore i (f t i)) s) ∧ ∀ i ∈ l, P i ((l.foldl (fun t i => t.mapCore i (f t i)) s).core i) := by
  induction l using List.reverseRecOn with
  | nil => exact ⟨start, fun i hi => absurd hi List.not_mem_nil⟩
  | append_singleton l a ih =>
    obtain ⟨hI, hP⟩ := ih
    simp only [List.foldl_append, List.foldl_cons, List.foldl_nil]
    refine ⟨keep _ _ hI, fun i hi => ?_⟩
    by_cases ha : i = a
    · subst ha
      rw [State.core_mapCore_same]
      exact made _ _ hI
    · rw [State.core_mapCore_ne _ _ ha]
      exact hP i (by simpa [ha] using hi)

@[simp] theorem State.mapCores_rim (s : State) (r : Nat) (f : Core → Core) : (s.mapCores r f).rim = s.rim :=
  List.foldlRecOn _ _ (motive := fun t : State => t.rim = s.rim) rfl fun _ h _ _ => h

@[simp] theorem State.mapClusters_rim (s : State) (r : Nat) (f : Cluster → Cluster) : (s.mapClusters r f).rim = s.rim :=
  List.foldlRecOn _ _ (motive := fun t : State => t.rim = s.rim) rfl fun _ h _ _ => h

@[simp] theorem State.mapClusters_cores (s : State) (r : Nat) (f : Cluster → Cluster) : (s.mapClusters r f).cores = s.cores :=
  List.foldlRecOn _ _ (motive := fun t : State => t.cores = s.cores) rfl fun _ h _ _ => h

theorem State.core_of_cores {s t : State} (h : t.cores = s.cores) (i : Nat) : t.core i = s.core i := by
  simp only [State.core, h]

/-! ## What crosses the networks -/

/-- `t` has the rim of `s` and every core's control unit as `s` has it. -/
structure State.SameControl (s t : State) : Prop where
  rim : t.rim = s.rim
  ctl : ∀ i, (t.core i).ctl = (s.core i).ctl

theorem State.SameControl.refl (s : State) : State.SameControl s s := ⟨rfl, fun _ => rfl⟩

theorem State.SameControl.trans {s t u : State} (h : State.SameControl s t) (k : State.SameControl t u) : State.SameControl s u :=
  ⟨k.rim.trans h.rim, fun i => (k.ctl i).trans (h.ctl i)⟩

theorem State.SameControl.foldl {α : Type} {g : State → α → State} (h : ∀ t a, State.SameControl t (g t a)) (l : List α) (s : State) :
    State.SameControl s (l.foldl g s) :=
  List.foldlRecOn _ _ (motive := State.SameControl s) (.refl s) fun t ht a _ => ht.trans (h t a)

theorem State.SameControl.mapCore (s : State) (i : Nat) {f : Core → Core} (h : ∀ c, (f c).ctl = c.ctl) : State.SameControl s (s.mapCore i f) :=
  ⟨rfl, fun j => State.keeps_mapCore (P := fun c => c.ctl = (s.core j).ctl) (fun c hc => (h c).trans hc) i rfl⟩

/-- Flits granted and words checked at a router touch its core's counters and reports only. -/
theorem Core.granted_ctl (vc d inp n : Nat) (header : Bool) (c : Core) : (Core.granted vc d inp n header c).ctl = c.ctl := by
  simp only [Core.granted]
  split
  · rfl
  · split <;> rfl

theorem Core.checked_ctl (ce ue r g sender : Nat) (c : Core) : (Core.checked ce ue r g sender c).ctl = c.ctl := by
  simp only [Core.checked]
  split <;> rfl

theorem State.wordCheck_sameControl (s : State) (i w : Nat) (a b : Nat × Nat) : State.SameControl s (s.wordCheck i w a b).2 := by
  simp only [State.wordCheck]
  split
  · exact .refl s
  · refine .trans ?_ (.mapCore _ _ fun _ => Core.checked_ctl ..)
    exact ⟨rfl, fun _ => rfl⟩

theorem State.cross_sameControl (i n w d : Nat) : ∀ (p : List (Nat × Nat)) (s : State) (inp : Nat), State.SameControl s (s.cross i n w d inp p).2
  | [], s, _ => .refl s
  | [_], s, _ => .mapCore s _ fun _ => Core.granted_ctl ..
  | a :: b :: r, s, inp => by
    simp only [State.cross]
    split
    · exact .mapCore s _ fun c => (rfl : (c.bump _ _).ctl = c.ctl)
    · exact ((State.SameControl.mapCore s _ fun _ => Core.granted_ctl ..).trans (State.wordCheck_sameControl ..)).trans
        (State.cross_sameControl i n w d (b :: r) _ _)

/-- An access over the mesh, however it fares. -/
theorem State.access_sameControl (s : State) (a b : Nat × Nat) (out back w : Nat) : State.SameControl s (s.access a b out back w).2 := by
  simp only [State.access]
  split
  · exact State.cross_sameControl ..
  · split
    · exact (State.cross_sameControl ..).trans (State.cross_sameControl ..)
    · exact State.cross_sameControl ..

theorem State.hairline_rim (l : List (Nat × Nat)) (s : State) : (s.hairline l).2.rim = s.rim := by
  induction l generalizing s with
  | nil => rfl
  | cons x l ih =>
    simp only [State.hairline]
    split
    · rfl
    · exact ih _

theorem State.send_rim (s : State) (a b : Nat) : (s.send a b).2.rim = s.rim := State.hairline_rim _ s

theorem State.hubSend_rim (s : State) (m : HubMsg) : (s.hubSend m).rim = s.rim := by
  cases m with
  | report a b x =>
    simp only [State.hubSend]
    split
    · rfl
    · split <;> exact State.send_rim s a b
  | event a b i x =>
    simp only [State.hubSend]
    split
    · rfl
    · split <;> exact State.send_rim s a b

theorem State.putCore_rim (s : State) (i : Nat) (c : Core) : (s.putCore i c).rim = s.rim := by
  simp only [State.putCore]
  split
  · exact State.hubSend_rim ..
  · rfl

/-! ## Wiping -/

/-- A core whose memories are wiped and that does not run. -/
def Core.Blank (c : Core) : Prop := c.well.mem = Mem.wiped ∧ c.rsv.mem = Mem.wiped ∧ c.ctl.running = false

theorem Core.blank_wipe (c : Core) : c.wipe.Blank := ⟨rfl, rfl, rfl⟩

theorem Core.blank_wipe_wiped (c : Core) : c.wipe.wiped.Blank := ⟨rfl, rfl, rfl⟩

/-- The cores of region `r` and of its mirror rectangle changed by `f`, and their clusters wiped: what enterWiping and deleteRegion have in common. -/
def State.wipeUnits (s : State) (r : Nat) (f : Core → Core) : State :=
  let t := (s.mapCores r f).mapClusters r Cluster.wipe
  (t.mirrorClusters r).foldl (fun s n => (clusterCores n).foldl (fun s i => s.mapCore i f) (s.mapCluster n Cluster.wipe)) t

/-- What a fold over the cores of some clusters and over the clusters themselves keeps. -/
theorem State.foldl_wipeCluster {M : State → Prop} {f : Core → Core} (core : ∀ t i, M t → M (t.mapCore i f))
    (cluster : ∀ t n, M t → M (t.mapCluster n Cluster.wipe)) (l : List Nat) {s : State} (h : M s) :
    M (l.foldl (fun s n => (clusterCores n).foldl (fun s i => s.mapCore i f) (s.mapCluster n Cluster.wipe)) s) :=
  List.foldlRecOn _ _ h fun t ht n _ => List.foldlRecOn _ _ (cluster t n ht) fun u hu i _ => core u i hu

@[simp] theorem State.wipeUnits_rim (s : State) (r : Nat) (f : Core → Core) : (s.wipeUnits r f).rim = s.rim :=
  State.foldl_wipeCluster (M := fun t => t.rim = s.rim) (fun _ _ h => h) (fun _ _ h => h) _ (by simp)

/-- Where `f` leaves a blank core, the cores of the region are left blank. -/
theorem State.wipeUnits_blank {f : Core → Core} (hf : ∀ c, (f c).Blank) (s : State) {r i : Nat} (hi : i ∈ s.rectCores r) :
    ((s.wipeUnits r f).core i).Blank := by
  refine State.foldl_wipeCluster (M := fun t => (t.core i).Blank) (fun t j h => State.keeps_mapCore (fun c _ => hf c) j h) (fun _ _ h => h) _ ?_
  rw [State.core_of_cores (State.mapClusters_cores ..)]
  exact (State.foldl_mapCore (I := fun _ => True) (P := fun _ c => c.Blank) trivial (fun _ _ _ => trivial) (fun _ _ _ => hf _) _).2 i hi

theorem State.dissolve_rim (s : State) (r : Nat) : (s.dissolve r).rim = s.rim :=
  List.foldlRecOn _ _ (motive := fun t : State => t.rim = s.rim) rfl fun _ h _ _ =>
    List.foldlRecOn _ _ (motive := fun t : State => t.rim = s.rim) h fun _ h _ _ => h

theorem State.rgn_advance_same (s : State) (r : Nat) :
    (s.advance r).rgn r fRgnStatusGeneration = (s.rgn r fRgnStatusGeneration + 1) % 2 ^ fRgnStatusGeneration.width :=
  State.rgn_setRgn_same s r _ (by decide)

theorem State.rgn_advance_apart (s : State) (q r : Nat) {g : Fld} (h : g.off % 0x40 ≠ 0x10 ∨ g.lo + g.width ≤ 3 ∨ 11 ≤ g.lo) :
    (s.advance r).rgn q g = s.rgn q g :=
  State.rgn_setRgn_apart s q r _ h

/-- Region `r` as it is before its units are wiped: its groups dissolved, and its generation advanced where `adv` says so. -/
def State.closeGeneration (s : State) (r : Nat) (adv : Bool) : State := if adv then (s.dissolve r).advance r else s.dissolve r

/-- The bindings and the waiting image of region `r` forgotten. -/
def State.forgetImage (s : State) (r : Nat) : State :=
  { s with bindings := s.bindings.clear (fun k => decide (k / 256 = r)), images := { s.images with loads := s.images.loads.put (r + 1) none none } }

theorem State.enterWiping_eq (s : State) (r : Nat) (adv : Bool) :
    s.enterWiping r adv = ((((((s.closeGeneration r adv).wipeUnits r Core.wipe).forgetImage r).enter r 5).setRgn r fRgnCfgCompat 0).mapRgn r
      (fun x => { x with image := false, rings := [], locked := false, overrun := false })) := rfl

@[simp] theorem State.rgn_forgetImage (s : State) (q r : Nat) (g : Fld) : (s.forgetImage r).rgn q g = s.rgn q g := rfl
@[simp] theorem State.core_forgetImage (s : State) (r i : Nat) : (s.forgetImage r).core i = s.core i := rfl

theorem State.rgn_closeGeneration_apart (s : State) (q r : Nat) (adv : Bool) {g : Fld} (h : g.off % 0x40 ≠ 0x10 ∨ g.lo + g.width ≤ 3 ∨ 11 ≤ g.lo) :
    (s.closeGeneration r adv).rgn q g = s.rgn q g := by
  have dissolved := State.rgn_of_rim (s.dissolve_rim r) q g
  cases adv
  · exact dissolved
  · exact (State.rgn_advance_apart _ q r h).trans dissolved

theorem State.generation_closeGeneration (s : State) (r : Nat) :
    (s.closeGeneration r true).rgn r fRgnStatusGeneration = (s.rgn r fRgnStatusGeneration + 1) % 2 ^ fRgnStatusGeneration.width := by
  rw [State.closeGeneration, if_pos rfl, State.rgn_advance_same, State.rgn_of_rim (s.dissolve_rim r)]

/-- The rectangle stays where it is. -/
theorem State.rectCores_closeGeneration (s : State) (r : Nat) (adv : Bool) : (s.closeGeneration r adv).rectCores r = s.rectCores r :=
  State.rectCores_congr fun f hf => State.rgn_closeGeneration_apart s r r adv (by revert f; decide)

theorem State.state_enterWiping_same (s : State) (r : Nat) (adv : Bool) : (s.enterWiping r adv).rgn r fRgnStatusState = 5 := by
  rw [State.enterWiping_eq, State.rgn_mapRgn, State.rgn_setRgn_apart _ _ _ _ (by decide), State.rgn_enter]

theorem State.state_enterWiping_ne (s : State) {q r : Nat} (adv : Bool) (h : q ≠ r) :
    (s.enterWiping r adv).rgn q fRgnStatusState = s.rgn q fRgnStatusState := by
  rw [State.enterWiping_eq, State.rgn_mapRgn, State.rgn_setRgn_apart _ _ _ _ (by decide), State.rgn_enter_ne _ _ h, State.rgn_forgetImage,
    State.rgn_of_rim (State.wipeUnits_rim ..), State.rgn_closeGeneration_apart _ _ _ _ (by decide)]

/-- A field that is neither state nor compat is as the closed generation has it. -/
theorem State.rgn_enterWiping_apart (s : State) (q r : Nat) (adv : Bool) {g : Fld} (state : g.off % 0x40 ≠ 0x10 ∨ 3 ≤ g.lo)
    (compat : g.off % 0x40 ≠ 0 ∨ g.lo + g.width ≤ 33 ∨ 34 ≤ g.lo) : (s.enterWiping r adv).rgn q g = (s.closeGeneration r adv).rgn q g := by
  rw [State.enterWiping_eq, State.rgn_mapRgn, State.rgn_setRgn_apart _ _ _ _ compat, State.rgn_enter_apart _ _ _ _ state, State.rgn_forgetImage,
    State.rgn_of_rim (State.wipeUnits_rim ..)]

theorem State.generation_enterWiping (s : State) (r : Nat) :
    (s.enterWiping r true).rgn r fRgnStatusGeneration = (s.rgn r fRgnStatusGeneration + 1) % 2 ^ fRgnStatusGeneration.width := by
  rw [State.rgn_enterWiping_apart _ _ _ _ (by decide) (by decide), State.generation_closeGeneration]

theorem State.enable_enterWiping (s : State) (q r : Nat) (adv : Bool) : (s.enterWiping r adv).rgn q fRgnCfgEnable = s.rgn q fRgnCfgEnable := by
  rw [State.rgn_enterWiping_apart _ _ _ _ (by decide) (by decide), State.rgn_closeGeneration_apart _ _ _ _ (by decide)]

/-- Entering wiping leaves the region's cores with wiped memories and none of them running (R274). -/
theorem State.blank_enterWiping (s : State) {r i : Nat} (adv : Bool) (hi : i ∈ s.rectCores r) : ((s.enterWiping r adv).core i).Blank := by
  rw [State.enterWiping_eq, State.core_mapRgn, State.core_setRgn, State.core_enter, State.core_forgetImage]
  exact State.wipeUnits_blank Core.blank_wipe _ (by rwa [State.rectCores_closeGeneration])

/-! ## Ending ingress and the stop request -/

/-- `t` has every region's state as `s` has it. -/
def State.SameStates (s t : State) : Prop := ∀ q, t.rgn q fRgnStatusState = s.rgn q fRgnStatusState

theorem State.sameStates_of_rim {s t : State} (h : t.rim = s.rim) : State.SameStates s t := fun q => State.rgn_of_rim h q _

theorem State.SameStates.trans {s t u : State} (h : State.SameStates s t) (k : State.SameStates t u) : State.SameStates s u :=
  fun q => (k q).trans (h q)

theorem State.SameStates.foldl {α : Type} {g : State → α → State} (h : ∀ t a, State.SameStates t (g t a)) (l : List α) (s : State) :
    State.SameStates s (l.foldl g s) :=
  List.foldlRecOn _ _ (motive := State.SameStates s) (fun _ => rfl) fun t ht a _ => ht.trans (h t a)

theorem State.portRead_rim (s : State) (port i a : Nat) : (s.portRead port i a).2.rim = s.rim := by
  simp only [State.portRead]
  split
  · exact (State.putCore_rim ..).trans (State.access_sameControl ..).rim
  · exact (State.access_sameControl ..).rim

theorem State.portWrite_rim (s : State) (port i : Nat) (ws : List WordWrite) : (s.portWrite port i ws).rim = s.rim := by
  simp only [State.portWrite]
  split
  · exact (State.putCore_rim ..).trans (State.access_sameControl ..).rim
  · exact (State.access_sameControl ..).rim

/-- A client's counter lies in no register of a region, whatever the client's number. -/
theorem State.bumpCli_sameStates (s : State) (k n : Nat) : State.SameStates s (s.bumpCli k fCliIngDropCount n) := fun q =>
  State.fld_setFld_other s _ _ _ (by simp only [fldAt, fRgnStatusState, fCliIngDropCount]; omega)

theorem State.dropIngress_sameStates (s : State) (port k : Nat) : State.SameStates s (s.dropIngress port k) := by
  refine (s.bumpCli_sameStates k 1).trans (State.sameStates_of_rim ?_)
  simp only [State.dropIngress]
  split
  · rfl
  · have read := State.portRead_rim (s.bumpCli k fCliIngDropCount 1) port (s.ingCore k) (s.cli k fCliIngBase)
    split <;> rename_i heq <;> rw [heq] at read
    · exact read
    · exact (State.portWrite_rim ..).trans read

theorem State.endIngress_sameStates (s : State) (r : Nat) : State.SameStates s (s.endIngress r) := by
  have drop (p : Nat) (t : State) (f : IngFrame) : State.SameStates t (t.dropIngress p f.client) := t.dropIngress_sameStates p f.client
  have waiting (t : State) (p : Nat) : State.SameStates t (t.dropWaiting r p) := by
    simp only [State.dropWaiting]
    refine .trans ?_ (.foldl (drop p) _ _)
    exact State.sameStates_of_rim rfl
  have passed (t : State) : State.SameStates t (t.dropPassed r) := by
    simp only [State.dropPassed]
    refine .trans ?_ (.foldl (drop 16) _ _)
    exact State.sameStates_of_rim rfl
  exact (State.SameStates.foldl waiting _ s).trans (passed _)

/-! ## A reset of a job -/

/-- The state to which a reset takes a region that is in state `st` (R261, R271). -/
def afterReset (st : Nat) : Nat := if st = 1 then 5 else if st = 2 then 3 else st

theorem afterReset_idem (st : Nat) : afterReset (afterReset st) = afterReset st := by
  unfold afterReset
  split
  · rfl
  · split <;> simp_all

/-- A reset of region `q` moves its own state and no other region's. -/
theorem State.state_resetRegion (s : State) (q r : Nat) :
    (s.resetRegion q).rgn r fRgnStatusState = if r = q then afterReset (s.rgn r fRgnStatusState) else s.rgn r fRgnStatusState := by
  have stop : (((s.enter q 3).endIngress q).stopRequest q).rgn r fRgnStatusState = (s.enter q 3).rgn r fRgnStatusState :=
    ((s.enter q 3).endIngress_sameStates q).trans (State.sameStates_of_rim (State.hubSend_rim ..)) r
  simp only [State.resetRegion]
  by_cases hr : r = q
  · subst hr
    rw [if_pos rfl]
    split <;> rename_i st
    · rw [State.state_enterWiping_same, st]
      rfl
    · rw [stop, State.rgn_enter, st]
      rfl
    · simp_all [afterReset]
  · rw [if_neg hr]
    split
    · exact State.state_enterWiping_ne s true hr
    · exact stop.trans (State.rgn_enter_ne s 3 hr)
    · rfl

theorem State.state_foldl_resetRegion (r : Nat) (l : List Nat) (s : State) :
    (l.foldl State.resetRegion s).rgn r fRgnStatusState = if r ∈ l then afterReset (s.rgn r fRgnStatusState) else s.rgn r fRgnStatusState := by
  induction l generalizing s with
  | nil => rfl
  | cons q l ih =>
    rw [List.foldl_cons, ih, State.state_resetRegion]
    by_cases hr : r = q <;> by_cases hl : r ∈ l <;> simp [hr, hl, afterReset_idem]

theorem State.mem_regionsOn {s : State} {r : Nat} : r ∈ s.regionsOn ↔ r < 64 ∧ s.rgn r fRgnCfgEnable = 1 := by
  simp [State.regionsOn]

/-- An enabled region is among those that a reset of its job resets. -/
theorem State.state_resetJob (s : State) {r : Nat} (hr : r < 64) (on : s.rgn r fRgnCfgEnable = 1) :
    (s.resetJob r).rgn r fRgnStatusState = afterReset (s.rgn r fRgnStatusState) := by
  refine (State.state_foldl_resetRegion r _ s).trans (if_pos ?_)
  simp [State.mem_regionsOn, hr, on]

/-! ## Region start -/

/-- A core at index `pc`, in no loop and with no event queued, which runs where `runs` says so. -/
def Core.Started (runs : Bool) (pc : Nat) (c : Core) : Prop := c.ctl.running = runs ∧ c.ctl.pc = pc ∧ c.ctl.loops = [] ∧ c.ctl.evq = []

/-- `d` has the control unit and the entry of `c`. -/
def Core.SamePlan (c d : Core) : Prop := d.ctl = c.ctl ∧ d.entry = c.entry

theorem Core.SamePlan.trans {c d e : Core} (h : Core.SamePlan c d) (k : Core.SamePlan d e) : Core.SamePlan c e :=
  ⟨k.1.trans h.1, k.2.trans h.2⟩

theorem Core.SamePlan.foldl {α : Type} {g : Core → α → Core} (h : ∀ c a, Core.SamePlan c (g c a)) (l : List α) (c : Core) :
    Core.SamePlan c (l.foldl g c) :=
  List.foldlRecOn _ _ (motive := Core.SamePlan c) ⟨rfl, rfl⟩ fun d hd a _ => hd.trans (h d a)

theorem Core.setReg_samePlan (c : Core) (o : Nat) (w : Word) : Core.SamePlan c (c.setReg o w) := ⟨rfl, rfl⟩

theorem Core.setFld_samePlan (c : Core) (f : Fld) (v : Nat) : Core.SamePlan c (c.setFld f v) := ⟨rfl, rfl⟩

/-- What region start does for ductus `n`. -/
def Core.startDuctus (c : Core) (n : Nat) : Core :=
  let c := c.setReg (fChTxCredits.off + 8 * n) (BitVec.ofNat 64 (c.duct n fChDuctusACredits))
  let c := c.setReg (fChRxLanded.off + 8 * n) 0
  if c.duct n fChDuctusAEnable = 1 && c.duct n fChDuctusAKind = 2 then
    (List.range (c.duct n fChDuctusBMembers + 1)).foldl (fun (c : Core) m =>
      let j := c.duct n fChDuctusBFirstMember + m
      (c.setMember j fChMemberCredits (c.duct n fChDuctusACredits)).setMember j fChMemberSeq 0) c
  else c

/-- What region start does for combining queue `q`. -/
def Core.startQueue (c : Core) (q : Nat) : Core := (c.setFld (fldAt fChCqBRound (16 * q)) 0).setFld (fldAt fChCqBOutCredits (16 * q)) 2

theorem Core.startChannels_eq (c : Core) :
    c.startChannels =
      { (((List.range 16).foldl Core.startQueue ((List.range 64).foldl Core.startDuctus c)).setReg fChCqFlagsSpill.off 0).setFld fChDropLastValid 0 with
        ch := Chan.reset } := rfl

theorem Core.startDuctus_samePlan (c : Core) (n : Nat) : Core.SamePlan c (c.startDuctus n) := by
  simp only [Core.startDuctus]
  split
  · refine ((c.setReg_samePlan ..).trans (Core.setReg_samePlan ..)).trans (.foldl (fun d m => ?_) _ _)
    exact (d.setFld_samePlan ..).trans (Core.setFld_samePlan ..)
  · exact (c.setReg_samePlan ..).trans (Core.setReg_samePlan ..)

/-- The channel registers are no part of the control unit. -/
theorem Core.startChannels_samePlan (c : Core) : Core.SamePlan c c.startChannels := by
  have queues (d : Core) (q : Nat) : Core.SamePlan d (d.startQueue q) := (d.setFld_samePlan ..).trans (Core.setFld_samePlan ..)
  have rest (d : Core) : Core.SamePlan d { (d.setReg fChCqFlagsSpill.off 0).setFld fChDropLastValid 0 with ch := Chan.reset } := ⟨rfl, rfl⟩
  rw [Core.startChannels_eq]
  exact ((Core.SamePlan.foldl Core.startDuctus_samePlan _ c).trans (.foldl queues _ _)).trans (rest _)

/-- A core at region start stands at its entry, which it keeps (R73). -/
theorem Core.started_start (client : Nat) (runs : Bool) (c : Core) :
    (Core.start client runs c).Started runs c.entry ∧ (Core.start client runs c).entry = c.entry := by
  obtain ⟨ctl, entry⟩ : Core.SamePlan _ (Core.start client runs c) := Core.startChannels_samePlan _
  simp only [Core.Started, ctl, entry]
  exact ⟨⟨rfl, rfl, rfl, rfl⟩, rfl⟩

/-- The cores of region `r` at region start, each running where it carries a logical core. -/
def State.startCores (s : State) (r : Nat) : State :=
  (s.rectCores r).foldl (fun t i => t.mapCore i (Core.start (s.rgn r fRgnCfgSeedClient) (t.logicalX i).isSome)) s

theorem State.started_startCores (s : State) {r i : Nat} (hi : i ∈ s.rectCores r) :
    ((s.startCores r).core i).Started (s.logicalX i).isSome (s.core i).entry := by
  refine (State.foldl_mapCore (I := fun t => t.rim = s.rim ∧ ∀ j, (t.core j).entry = (s.core j).entry)
    (P := fun j c => c.Started (s.logicalX j).isSome (s.core j).entry) ⟨rfl, fun _ => rfl⟩ (fun t j h => ⟨h.1, fun k => ?_⟩) (fun t j h => ?_) _).2 i hi
  · exact State.keeps_mapCore (P := fun c => c.entry = (s.core k).entry) (fun c hc => (Core.started_start _ _ c).2.trans hc) j (h.2 k)
  · rw [State.logicalX_of_rim h.1, ← h.2 j]
    exact (Core.started_start _ _ _).1

/-- The control granules of one ring of region `r` zeroed (R268). -/
def State.zeroRing (s : State) (r x y base : Nat) : State :=
  let i := s.regionCore r x y
  let (x, s) := s.access (0, pyOf i) (s.placeOf i) (flitsOf 64) 0 64
  if x.ok then s.mapCore i (fun c => (List.range 64).foldl (fun (c : Core) j => c.windowWrite (base + j) 0 (x.bad.contains j)) c) else s

theorem State.zeroRings_eq (s : State) (k : Nat) :
    s.zeroRings k =
      let r := s.cli k fCliCfgRegion
      let t := s.zeroRing r (s.cli k fCliIngX) (s.cli k fCliIngY) (s.cli k fCliIngBase)
      t.zeroRing r (t.cli k fCliEgrX) (t.cli k fCliEgrY) (t.cli k fCliEgrBase) := rfl

theorem State.zeroRing_sameControl (s : State) (r x y base : Nat) : State.SameControl s (s.zeroRing r x y base) := by
  simp only [State.zeroRing]
  split
  · refine (State.access_sameControl ..).trans (.mapCore _ _ fun c => ?_)
    exact List.foldlRecOn _ _ (motive := fun d : Core => d.ctl = c.ctl) rfl fun _ h _ _ => h
  · exact State.access_sameControl ..

theorem State.zeroRings_sameControl (s : State) (k : Nat) : State.SameControl s (s.zeroRings k) := by
  rw [State.zeroRings_eq]
  exact (State.zeroRing_sameControl ..).trans (State.zeroRing_sameControl ..)

/-- The rings of region `r`'s clients made new, and what the ports know of them forgotten. -/
def State.newRings (s : State) (r : Nat) : State :=
  (s.clientsOf r).foldl (fun s k => (s.zeroRings k).mapPort (s.cli k fCliCfgPort) (fun q => { q with egress := q.egress.put k egrNew egrNew })) s

theorem State.newRings_sameControl (s : State) (r : Nat) : State.SameControl s (s.newRings r) := by
  have port (t : State) (p : Nat) (f : PortSt → PortSt) : State.SameControl t (t.mapPort p f) := ⟨rfl, fun _ => rfl⟩
  exact .foldl (fun t k => (t.zeroRings_sameControl k).trans (port _ _ _)) _ s

/-- The roles of a check group are registers of its cores. -/
theorem State.formGroups_ctl (s : State) (r i : Nat) : ((s.formGroups r).core i).ctl = (s.core i).ctl := by
  have role (t : State) (m v : Nat) : State.SameControl t (t.mapCore m (fun c => (c.setFld fCoreCheckRole v).setFld fCoreCheckDegraded 0)) :=
    .mapCore t m fun c => ((c.setFld_samePlan fCoreCheckRole v).trans (Core.setFld_samePlan ..)).1
  simp only [State.formGroups, State.core_setRgn]
  exact (State.SameControl.foldl (fun t (g : Nat × List Nat) => (role t g.1 1).trans (.foldl (fun u m => role u m 2) g.2 _)) _ s).ctl i

theorem State.startRegion_eq (s : State) (r : Nat) :
    s.startRegion r = (((((s.startCores r).mapClusters r Cluster.start).newRings r).formGroups r).enter r 2).mapRgn r (fun x => { x with locked := true }) :=
  rfl

theorem State.state_startRegion (s : State) (r : Nat) : (s.startRegion r).rgn r fRgnStatusState = 2 := by
  rw [State.startRegion_eq, State.rgn_mapRgn, State.rgn_enter]

theorem State.locked_startRegion (s : State) (r : Nat) : ((s.startRegion r).rgnSt r).locked = true := by
  rw [State.startRegion_eq, State.rgnSt_mapRgn]

/-- Region start leaves every core of the region at its entry, the logical cores running (R73, R268). -/
theorem State.started_startRegion (s : State) {r i : Nat} (hi : i ∈ s.rectCores r) :
    ((s.startRegion r).core i).Started (s.logicalX i).isSome (s.core i).entry := by
  have ctl : ((s.startRegion r).core i).ctl = ((s.startCores r).core i).ctl := by
    rw [State.startRegion_eq, State.core_mapRgn, State.core_enter, State.formGroups_ctl, (State.newRings_sameControl ..).ctl,
      State.core_of_cores (State.mapClusters_cores ..)]
  simp only [Core.Started, ctl]
  exact s.started_startCores hi

/-! ## A delete -/

/-- Region `r` deleted: its units wiped, its image forgotten, and its rectangle free. -/
def State.freeRegion (s : State) (r : Nat) : State :=
  ((((((s.wipeUnits r (fun c => c.wipe.wiped)).forgetImage r).setRgn r fRgnCfgEnable 0).setRgn r fRgnCfgCompat 0).enter r 0).mapRgn r
    (fun x => { x with image := false, rings := [], locked := false }))

theorem State.state_freeRegion (s : State) (r : Nat) : (s.freeRegion r).rgn r fRgnStatusState = 0 := by
  rw [State.freeRegion, State.rgn_mapRgn, State.rgn_enter]

theorem State.enable_freeRegion (s : State) (r : Nat) : (s.freeRegion r).rgn r fRgnCfgEnable = 0 := by
  rw [State.freeRegion, State.rgn_mapRgn, State.rgn_enter_apart _ _ _ _ (by decide), State.rgn_setRgn_apart _ _ _ _ (by decide),
    State.rgn_setRgn_same _ _ _ (by decide)]
  rfl

theorem State.blank_freeRegion (s : State) {r i : Nat} (hi : i ∈ s.rectCores r) : ((s.freeRegion r).core i).Blank := by
  rw [State.freeRegion, State.core_mapRgn, State.core_enter, State.core_setRgn, State.core_setRgn, State.core_forgetImage]
  exact State.wipeUnits_blank Core.blank_wipe_wiped s hi

/-! ## The commands -/

section
variable {s : State} {r : Nat} {req : Bool}

/-- Where the copies that it reads agree, a command goes on as if none were held in copies (R435). -/
theorem State.withVotes_of_agrees {rows : Bool} (h : Agrees (s.readsOf r rows) s) (f : State → State) : s.withVotes r rows f = f s := by
  have h : s.voteWhere (s.readsOf r rows) = (true, s) := h
  simp only [State.withVotes, h, if_true]

theorem State.createRegion_of_agrees (come : s.rgnCommand req = true) (agree : Agrees (s.readsOf r true) s) :
    s.createRegion r req =
      if s.rgn r fRgnStatusState != 0 || !s.rectOk r then s.rgnError r req
      else if s.regionLimit ≤ s.regionsOn.length then
        if req then (s.setRgn r fRgnStatusCmdErr 1).answer 0x22 0x10 (detailWord (s.setRgn r fRgnStatusCmdErr 1).regionLimit)
        else s.setRgn r fRgnStatusCmdErr 1
      else ((s.setRgn r fRgnCfgEnable 1).enterWiping r true).rgnDone req := by
  simp only [State.createRegion, come, State.withVotes_of_agrees agree]
  rfl

theorem State.releaseRegion_of_agrees (come : s.rgnCommand req = true) (agree : Agrees (s.readsOf r true) s) :
    s.releaseRegion r req =
      if s.rgn r fRgnStatusState = 1 && (s.rgnSt r).image && !(s.rectClusters r).any s.outOfService && !(s.mirrorClusters r).any s.outOfService then
        (s.startRegion r).rgnDone req
      else s.rgnError r req := by
  simp only [State.releaseRegion, come, State.withVotes_of_agrees agree]
  rfl

theorem State.deleteRegion_of_agrees (come : s.rgnCommand req = true) (agree : Agrees (s.readsOf r false) s) :
    s.deleteRegion r req =
      if s.rgn r fRgnStatusState = 1 && (s.clientsOf r).isEmpty then (s.freeRegion r).rgnDone req else s.rgnError r req := by
  simp only [State.deleteRegion, come, State.withVotes_of_agrees agree]
  rfl

theorem State.resetCommand_of_agrees (come : s.rgnCommand req = true) (agree : Agrees (s.readsOf r false) s) :
    s.resetCommand r req = if s.rgn r fRgnStatusState = 0 then s.rgnError r req else (s.resetJob r).rgnDone req := by
  simp only [State.resetCommand, come, State.withVotes_of_agrees agree]
  rfl

/-! ### Carried out, or refused -/

/-- A create that is carried out: the region wipes under its next generation, its cores wiped (R262, R263, R274). -/
theorem State.createRegion_carriedOut (come : s.rgnCommand req = true) (agree : Agrees (s.readsOf r true) s) (free : s.rgn r fRgnStatusState = 0)
    (fits : s.rectOk r = true) (few : s.regionsOn.length < s.regionLimit) :
    ∃ u : State, s.createRegion r req = u.rgnDone req ∧ u.rgn r fRgnStatusState = 5 ∧ u.rgn r fRgnCfgEnable = 1 ∧
      u.rgn r fRgnStatusGeneration = (s.rgn r fRgnStatusGeneration + 1) % 2 ^ fRgnStatusGeneration.width ∧
      ∀ i ∈ s.rectCores r, (u.core i).well.mem = Mem.wiped ∧ (u.core i).rsv.mem = Mem.wiped ∧ (u.core i).ctl.running = false := by
  refine ⟨(s.setRgn r fRgnCfgEnable 1).enterWiping r true, ?_, State.state_enterWiping_same .., ?_, ?_, fun i hi => State.blank_enterWiping _ true ?_⟩
  · simp [State.createRegion_of_agrees come agree, free, fits, Nat.not_le.mpr few]
  · rw [State.enable_enterWiping, State.rgn_setRgn_same _ _ _ (by decide)]
    rfl
  · rw [State.generation_enterWiping, State.rgn_setRgn_apart _ _ _ _ (by decide)]
  · rwa [State.rectCores_congr fun f hf => State.rgn_setRgn_apart s r r 1 (f := fRgnCfgEnable) (by revert f; decide)]

/-- A create past the licence's limit (R5). The limit is the licence's, which the region's registers do not hold. -/
theorem State.createRegion_pastLimit (come : s.rgnCommand req = true) (agree : Agrees (s.readsOf r true) s) (free : s.rgn r fRgnStatusState = 0)
    (fits : s.rectOk r = true) (many : s.regionLimit ≤ s.regionsOn.length) :
    s.createRegion r req =
      if req then (s.setRgn r fRgnStatusCmdErr 1).answer 0x22 0x10 (detailWord s.regionLimit) else s.setRgn r fRgnStatusCmdErr 1 := by
  have limit : (s.setRgn r fRgnStatusCmdErr 1).regionLimit = s.regionLimit := rfl
  simp [State.createRegion_of_agrees come agree, free, fits, many, limit]

theorem State.createRegion_refused (come : s.rgnCommand req = true) (agree : Agrees (s.readsOf r true) s)
    (bad : s.rgn r fRgnStatusState ≠ 0 ∨ s.rectOk r = false) : s.createRegion r req = s.rgnError r req := by
  rw [State.createRegion_of_agrees come agree, if_pos (by simpa using bad)]

/-- A release that is carried out: the region runs, its image locked and its cores at their entries (R73, R268, R274). -/
theorem State.releaseRegion_carriedOut (come : s.rgnCommand req = true) (agree : Agrees (s.readsOf r true) s) (ready : s.rgn r fRgnStatusState = 1)
    (image : (s.rgnSt r).image = true) (own : (s.rectClusters r).any s.outOfService = false)
    (mirrors : (s.mirrorClusters r).any s.outOfService = false) :
    ∃ u : State, s.releaseRegion r req = u.rgnDone req ∧ u.rgn r fRgnStatusState = 2 ∧ (u.rgnSt r).locked = true ∧
      ∀ i ∈ s.rectCores r, (u.core i).Started (s.logicalX i).isSome (s.core i).entry := by
  refine ⟨s.startRegion r, ?_, State.state_startRegion .., State.locked_startRegion .., fun i hi => State.started_startRegion s hi⟩
  rw [State.releaseRegion_of_agrees come agree, if_pos (by simp only [ready, image, own, mirrors]; rfl)]

theorem State.releaseRegion_refused (come : s.rgnCommand req = true) (agree : Agrees (s.readsOf r true) s) (other : s.rgn r fRgnStatusState ≠ 1) :
    s.releaseRegion r req = s.rgnError r req := by
  rw [State.releaseRegion_of_agrees come agree, if_neg (by simp [other])]

/-- A delete that is carried out: the region is free, its cores' memories wiped (R260, R408). -/
theorem State.deleteRegion_carriedOut (come : s.rgnCommand req = true) (agree : Agrees (s.readsOf r false) s) (ready : s.rgn r fRgnStatusState = 1)
    (noClients : s.clientsOf r = []) :
    ∃ u : State, s.deleteRegion r req = u.rgnDone req ∧ u.rgn r fRgnStatusState = 0 ∧ u.rgn r fRgnCfgEnable = 0 ∧
      ∀ i ∈ s.rectCores r, (u.core i).well.mem = Mem.wiped ∧ (u.core i).rsv.mem = Mem.wiped := by
  refine ⟨s.freeRegion r, ?_, State.state_freeRegion .., State.enable_freeRegion .., fun i hi => ?_⟩
  · rw [State.deleteRegion_of_agrees come agree, if_pos (by simp [ready, noClients])]
  · obtain ⟨well, rsv, -⟩ := s.blank_freeRegion hi
    exact ⟨well, rsv⟩

theorem State.deleteRegion_refused (come : s.rgnCommand req = true) (agree : Agrees (s.readsOf r false) s)
    (bad : s.rgn r fRgnStatusState ≠ 1 ∨ s.clientsOf r ≠ []) : s.deleteRegion r req = s.rgnError r req := by
  rw [State.deleteRegion_of_agrees come agree, if_neg]
  simpa only [Bool.and_eq_true, decide_eq_true_eq, List.isEmpty_iff] using not_and_or.mpr bad

/-- A reset that is carried out, of the region with its job (R261, R264, R271). -/
theorem State.resetCommand_carriedOut (come : s.rgnCommand req = true) (agree : Agrees (s.readsOf r false) s) (hr : r < 64)
    (on : s.rgn r fRgnCfgEnable = 1) (live : s.rgn r fRgnStatusState = 1 ∨ s.rgn r fRgnStatusState = 2) :
    ∃ u : State, s.resetCommand r req = u.rgnDone req ∧ u.rgn r fRgnStatusState = if s.rgn r fRgnStatusState = 1 then 5 else 3 := by
  refine ⟨s.resetJob r, ?_, (s.state_resetJob hr on).trans ?_⟩
  · rw [State.resetCommand_of_agrees come agree, if_neg (by omega)]
  · rcases live with st | st <;> rw [st] <;> rfl

theorem State.resetCommand_refused (come : s.rgnCommand req = true) (agree : Agrees (s.readsOf r false) s) (free : s.rgn r fRgnStatusState = 0) :
    s.resetCommand r req = s.rgnError r req := by
  rw [State.resetCommand_of_agrees come agree, if_pos free]

end

/-! ## The rows -/

theorem exec_regionCreate (r : Fin 64) (req : Bool) (s : State) : exec (.regionCreate r req []) s = .next (s.createRegion r.val req) := rfl

theorem exec_regionRelease (r : Fin 64) (req : Bool) (s : State) : exec (.regionRelease r req) s = .next (s.releaseRegion r.val req) := rfl

theorem exec_regionDelete (r : Fin 64) (req : Bool) (s : State) : exec (.regionDelete r req) s = .next (s.deleteRegion r.val req) := rfl

theorem exec_regionReset (r : Fin 64) (req : Bool) (s : State) : exec (.regionReset r req) s = .next (s.resetCommand r.val req) := rfl

/-- Settles O34, clause by clause: each command, once its votes agree, by what its region's state allows. -/
theorem regionCommands : Obligations.RegionCommands := by
  unfold Obligations.RegionCommands
  simp only [exec_regionCreate, exec_regionRelease, exec_regionDelete, exec_regionReset, Host.Outcome.next.injEq]
  constructor
  · intro r req s
    refine ⟨fun idle => by simp [State.createRegion, idle], fun come split => ?_, fun come agree => ⟨?_, ?_, ?_⟩⟩
    · simp [State.createRegion, come, State.withVotes, split]
    · exact State.createRegion_carriedOut come agree
    · exact State.createRegion_pastLimit come agree
    · exact State.createRegion_refused come agree
  · intro r req s come agreeRows agree
    exact ⟨State.releaseRegion_carriedOut come agreeRows, State.releaseRegion_refused come agreeRows, State.deleteRegion_carriedOut come agree,
      State.deleteRegion_refused come agree, State.resetCommand_carriedOut come agree r.isLt, State.resetCommand_refused come agree⟩

/-! ## Before power-on -/

/-- A provisioned device's copies hold its counter, and no change waits (R412). -/
theorem State.lifeInv_reset : LifeInv State.reset := by
  refine ⟨by decide, by decide, fun v waits => ?_, fun blank => absurd blank (by decide)⟩
  exact absurd waits (by simp [State.reset])

theorem step_of_pending_nil {s : State} (h : s.pending = []) : step s = .next s := by
  simp only [step, h]

/-- Settles O3: every file of registers is empty, so that each register reads its reset value, and every memory is a wiped one. -/
theorem resetState : Obligations.ResetState := by
  unfold Obligations.ResetState
  have core (i : Nat) : State.reset.core i = Core.reset := rfl
  refine ⟨rfl, rfl, fun _ => rfl, fun _ _ => rfl, fun _ _ => rfl, fun i => ?_, ?_, State.lifeInv_reset, fun _ => step_of_pending_nil⟩
  · rw [core]
    exact ⟨Mem.wf_wiped, Mem.wf_wiped⟩
  · exact List.mem_singleton_self _

end Sys2Proof.Machine

/-! SUPPORT. Events and the handler: what a core that is replaced leaves of the cores, what an arriving event makes of its core's control unit, and what
the entry into the handler saves. -/

namespace Sys2Proof.Machine

/-! ## A core replaced -/

theorem State.hairline_cores (l : List (Nat × Nat)) (s : State) : (s.hairline l).2.cores = s.cores := by
  induction l generalizing s with
  | nil => rfl
  | cons x l ih =>
    simp only [State.hairline]
    split
    · rfl
    · exact ih _

theorem State.noteFrom_cores (s : State) (n : Nat) (x : Note) : (s.noteFrom n x).cores = s.cores := by
  simp only [State.noteFrom, State.hubSend]
  split
  · rfl
  · split <;> exact State.hairline_cores _ s

/-- The core is the new one even where it has halted and the Scribe Complex is told (R66). -/
theorem State.core_putCore_same (s : State) (i : Nat) (c : Core) : (s.putCore i c).core i = c := by
  refine Eq.trans ?_ (s.core_setCore_same i c)
  simp only [State.putCore]
  split
  · exact State.core_of_cores (State.noteFrom_cores ..) i
  · rfl

/-! ## The lig.wait that holds issue -/

theorem Core.preciseTrap_ligWait (e : Env) (code source detail : Nat) (c : Core) : (c.preciseTrap e code source detail).ctl.ligWait = c.ctl.ligWait := by
  simp only [Core.preciseTrap]
  split <;> rfl

/-- Issue that moves past an index, with the fetch trap where the code store ends there (R42). -/
theorem Core.past_ligWait (e : Env) (idx : Nat) (c : Core) : (c.past e idx).ctl.ligWait = c.ctl.ligWait := by
  simp only [Core.past, Core.goto]
  split
  · rfl
  · exact Core.preciseTrap_ligWait ..

theorem Core.complete_ligWait (w : Word) (c : Core) : (c.complete w).ctl.ligWait = c.ctl.ligWait := by
  simp only [Core.complete]
  split <;> rfl

theorem Core.endWait_ligWait (e : Env) (c : Core) : (c.endWait e).ctl.ligWait = none := by
  unfold Core.endWait
  split
  next none_held => exact none_held
  next => rw [Core.past_ligWait, Core.complete_ligWait]

/-! ## An event that arrives -/

theorem Core.enqueue_room (r : Word) {c : Core} (room : c.ctl.evq.length < 31) : c.enqueue r = { c with ctl := { c.ctl with evq := c.ctl.evq ++ [r] } } :=
  if_pos room

theorem Core.enqueue_full (r : Word) {c : Core} (full : 31 ≤ c.ctl.evq.length) :
    c.enqueue r = { c with ctl := { c.ctl with evLost := true, evqOverflow := true } } :=
  if_neg (Nat.not_lt.mpr full)

theorem EventMsg.setsBreach_eq (m : EventMsg) : m.setsBreach = (decide (m.cls = 3) && decide (m.code ∈ [1, 2, 3, 5])) := by
  simp [EventMsg.setsBreach, Bool.or_assoc]

/-- The core once an event of its own generation has joined its queue or was lost for a full one, before a lig.wait ends (R61, R225). -/
def Core.taken (m : EventMsg) (c : Core) : Core :=
  let d := c.enqueue (eventRecord m.cls m.code m.info m.gen)
  { d with ctl := { d.ctl with breach := d.ctl.breach || m.setsBreach } }

theorem Core.taken_room (m : EventMsg) {c : Core} (room : c.ctl.evq.length < 31) : c.taken m =
    { c with ctl := { c.ctl with evq := c.ctl.evq ++ [eventRecord m.cls m.code m.info m.gen], breach := c.ctl.breach || m.setsBreach } } := by
  simp only [Core.taken, Core.enqueue_room _ room]

theorem Core.taken_full (m : EventMsg) {c : Core} (full : 31 ≤ c.ctl.evq.length) : c.taken m =
    { c with ctl := { c.ctl with evLost := true, evqOverflow := true, breach := c.ctl.breach || m.setsBreach } } := by
  simp only [Core.taken, Core.enqueue_full _ full]

theorem Core.taken_inbound (m : EventMsg) (c : Core) : (c.taken m).inbound = c.inbound := by
  obtain room | full := Nat.lt_or_ge c.ctl.evq.length 31
  · rw [Core.taken_room m room]
  · rw [Core.taken_full m full]

/-- Whether an event ends the wait does not depend on the queue that it joins. -/
theorem EventMsg.endsWait_enqueue (m : EventMsg) (r : Word) (c : Core) : m.endsWait (c.enqueue r) = m.endsWait c := by
  simp only [Core.enqueue]
  split <;> rfl

theorem Core.receive_stale {e : Env} {m : EventMsg} (stale : m.gen % 256 ≠ e.gen) (c : Core) :
    c.receive e m = { c with ctl := { c.ctl with evtStale := (c.ctl.evtStale + 1) % 2 ^ 32 } } :=
  if_pos stale

theorem Core.receive_own {e : Env} {m : EventMsg} (own : m.gen % 256 = e.gen) (c : Core) :
    c.receive e m = if m.endsWait c then (c.taken m).endWait e else c.taken m := by
  rw [← EventMsg.endsWait_enqueue m (eventRecord m.cls m.code m.info m.gen) c]
  cases breaks : m.setsBreach <;> simp [Core.receive, Core.taken, own, breaks, EventMsg.endsWait]

section
variable {e : Env} {m : EventMsg} {c : Core}

theorem Core.receive_own_goesOn (own : m.gen % 256 = e.gen) (goesOn : m.endsWait c = false) : c.receive e m = c.taken m := by
  rw [Core.receive_own own, goesOn, if_neg Bool.false_ne_true]

/-- An event that ends no wait leaves the messages still on their way as they are. -/
theorem Core.receive_inbound (goesOn : m.endsWait c = false) : (c.receive e m).inbound = c.inbound := by
  by_cases own : m.gen % 256 = e.gen
  · rw [Core.receive_own_goesOn own goesOn, Core.taken_inbound]
  · rw [Core.receive_stale own]

theorem Core.receive_ctl_room (own : m.gen % 256 = e.gen) (goesOn : m.endsWait c = false) (room : c.ctl.evq.length < 31) : (c.receive e m).ctl =
    { c.ctl with
      evq := c.ctl.evq ++ [eventRecord m.cls m.code m.info m.gen]
      breach := c.ctl.breach || (decide (m.cls = 3) && decide (m.code ∈ [1, 2, 3, 5])) } := by
  rw [Core.receive_own_goesOn own goesOn, Core.taken_room m room, EventMsg.setsBreach_eq]

theorem Core.receive_ctl_full (own : m.gen % 256 = e.gen) (goesOn : m.endsWait c = false) (full : 31 ≤ c.ctl.evq.length) : (c.receive e m).ctl =
    { c.ctl with
      evLost := true, evqOverflow := true
      breach := c.ctl.breach || (decide (m.cls = 3) && decide (m.code ∈ [1, 2, 3, 5])) } := by
  rw [Core.receive_own_goesOn own goesOn, Core.taken_full m full, EventMsg.setsBreach_eq]

theorem Core.receive_ligWait (own : m.gen % 256 = e.gen) (ends : m.endsWait c = true) : (c.receive e m).ctl.ligWait = none := by
  rw [Core.receive_own own, if_pos ends, Core.endWait_ligWait]

end

/-- The core with the oldest of its inbound events of a class taken from those on their way (R30). -/
def Core.arrived (cls : Nat) (c : Core) : Core := { c with inbound := c.inbound.eraseP (fun m => decide (m.cls = cls)) }

theorem exec_eventArrival {i : CoreId} {cls : Fin 7} {m : EventMsg} {s : State} (up : s.dev = .up)
    (oldest : (s.core i.val).inbound.find? (fun m => decide (m.cls = cls.val)) = some m) :
    ∃ t, exec (.eventArrival i cls) s = .next t ∧ t.core i.val = ((s.core i.val).arrived cls.val).receive (s.env i.val) m := by
  refine ⟨_, ?_, State.core_putCore_same s i.val _⟩
  change execEventArrival i cls s = _
  simp [execEventArrival, up, oldest, Core.arrived]

/-! ## The handler -/

/-- At its ligature's unit a wait may be withdrawn besides (R223), which no core sees. -/
theorem exec_handlerEntry {i : CoreId} {s : State} (enters : (s.core i.val).entersHandler (s.env i.val) = true) :
    ∃ t, exec (.handlerEntry i) s = .next t ∧ t.core i.val = (s.core i.val).enterHandler := by
  change ∃ t, execHandlerEntry i s = .next t ∧ _
  simp only [execHandlerEntry, enters, if_true]
  split
  · exact ⟨_, rfl, State.core_putCore_same ..⟩
  · split
    · exact ⟨_, rfl, State.core_putCore_same ..⟩
    · exact ⟨_, rfl, (State.core_mapCluster ..).trans (State.core_putCore_same ..)⟩

/-- Settles O16: the event by its generation and the room in the queue, one that ends the wait, and the entry into the handler. -/
theorem eventsAndHandler : Obligations.EventsAndHandler := by
  unfold Obligations.EventsAndHandler
  refine ⟨fun i cls m s up oldest goesOn => ?_, fun i m s up oldest own ends => ?_, fun i s enters => ?_⟩
  · obtain ⟨t, ht, core⟩ := exec_eventArrival up oldest
    refine ⟨t, ht, ?_⟩
    have stays : m.endsWait ((s.core i.val).arrived cls.val) = false := goesOn
    rw [core]
    exact ⟨Core.receive_inbound stays, fun stale => congrArg Core.ctl (Core.receive_stale stale _),
      fun own room => Core.receive_ctl_room own stays room, fun own full => Core.receive_ctl_full own stays full⟩
  · obtain ⟨t, ht, core⟩ := exec_eventArrival (cls := 3) up oldest
    have ended : m.endsWait ((s.core i.val).arrived 3) = true := ends
    exact ⟨t, ht, core ▸ Core.receive_ligWait own ended⟩
  · obtain ⟨t, ht, core⟩ := exec_handlerEntry enters
    refine ⟨t, ht, ?_⟩
    rw [core]
    exact ⟨rfl, rfl, rfl, rfl, rfl, rfl, rfl, rfl, rfl, rfl⟩

end Sys2Proof.Machine

/-! SUPPORT. The instructions of the control unit: the rows that issue them, what issue leaves of a core that moves on, and from them the scalar, address
and predicate results. -/

namespace Sys2Proof.Machine

/-! ## Issue that moves on -/

section
variable {op : Nat} {resv : Word → Bool} {i : CoreId} {w : Word} {s : State}

/-- Reserved fields that are written in another way are the same fields. -/
theorem Issues.congr {resv' : Word → Bool} (h : Issues op resv i w s) (same : resv' w = resv w) : Issues op resv' i w s :=
  { h with legal := same.trans h.legal }

/-- Work that takes effect and leaves the loop stack moves issue past the instruction (R42, R54). -/
theorem Issues.moveOn (h : Issues op resv i w s) (room : Room i s) (source : Nat) (body : Env → Word → Core → Issue) {c : Core}
    (work : body (s.env i.val) w (s.core i.val) = .next c) (halted : c.ctl.halted = (s.core i.val).ctl.halted)
    (loops : c.ctl.loops = (s.core i.val).ctl.loops) : issueRow op source resv body i.val w s = .next (s.issued i c) :=
  h.next source body c work (halted.trans h.notHalted) (by rw [loops]; exact room)

/-- The same for work on the control unit alone. -/
theorem Issues.moveOnCtl (h : Issues op resv i w s) (room : Room i s) (source : Nat) (body : Env → Word → Core → Issue) {k : Ctl}
    (work : body (s.env i.val) w (s.core i.val) = .next { s.core i.val with ctl := k }) (halted : k.halted = (s.core i.val).ctl.halted)
    (loops : k.loops = (s.core i.val).ctl.loops) : issueRow op source resv body i.val w s = .next (s.issuedCtl i k) :=
  h.moveOn room source body work halted loops

end

/-! ## The scalar operations (R46) -/

theorem word_add (a b : Word) : a + b = BitVec.ofNat 64 (a.toNat + b.toNat) := by simp [BitVec.ofNat_add]

theorem word_sub (a b : Word) : a - b = BitVec.ofInt 64 (a.toInt - b.toInt) := by
  apply BitVec.eq_of_toInt_eq
  simp [BitVec.toInt_sub]

theorem word_mul (a b : Word) : a * b = BitVec.ofNat 64 (a.toNat * b.toNat) := by
  apply BitVec.eq_of_toNat_eq
  simp

theorem word_shiftLeft (a : Word) (n : Nat) : a <<< n = BitVec.ofNat 64 (a.toNat * 2 ^ n) := by
  apply BitVec.eq_of_toNat_eq
  simp [Nat.shiftLeft_eq]

theorem word_ofNat_of_le {a : Word} {n : Nat} (h : n ≤ a.toNat) : (BitVec.ofNat 64 n).toNat = n :=
  Nat.mod_eq_of_lt (Nat.lt_of_le_of_lt h a.isLt)

theorem word_shiftRight (a : Word) (n : Nat) : a >>> n = BitVec.ofNat 64 (a.toNat / 2 ^ n) := by
  apply BitVec.eq_of_toNat_eq
  rw [word_ofNat_of_le (Nat.div_le_self _ _), BitVec.toNat_ushiftRight, Nat.shiftRight_eq_div_pow]

theorem word_sshiftRight (a : Word) (n : Nat) : a.sshiftRight n = BitVec.ofInt 64 (a.toInt / 2 ^ n) := by
  simp [BitVec.sshiftRight, Int.shiftRight_eq_div_pow]

theorem word_div (a b : Word) : a / b = BitVec.ofNat 64 (a.toNat / b.toNat) := by
  apply BitVec.eq_of_toNat_eq
  rw [word_ofNat_of_le (Nat.div_le_self _ _), BitVec.toNat_udiv]

theorem word_mod (a b : Word) : a % b = BitVec.ofNat 64 (a.toNat % b.toNat) := by
  apply BitVec.eq_of_toNat_eq
  rw [word_ofNat_of_le (Nat.mod_le _ _), BitVec.toNat_umod]

/-- Which of two words is less decides a choice as which is not greater does, where words that tie leave no choice. -/
theorem ite_slt_eq_ite_toInt_le {a b x y : Word} (tie : a = b → x = y) : (if a.slt b then x else y) = if a.toInt ≤ b.toInt then x else y := by
  obtain less | same | more := Int.lt_trichotomy a.toInt b.toInt
  · simp [BitVec.slt_iff_toInt_lt, less, less.le]
  · simp [BitVec.slt_iff_toInt_lt, same, tie (BitVec.eq_of_toInt_eq same)]
  · simp [BitVec.slt_iff_toInt_lt, more.not_gt, more.not_ge]

theorem ite_ult_eq_ite_toNat_le {a b x y : Word} (tie : a = b → x = y) : (if a.ult b then x else y) = if a.toNat ≤ b.toNat then x else y := by
  obtain less | same | more := Nat.lt_trichotomy a.toNat b.toNat
  · simp [BitVec.ult_iff_toNat_lt, less, less.le]
  · simp [BitVec.ult_iff_toNat_lt, same, tie (BitVec.eq_of_toNat_eq same)]
  · simp [BitVec.ult_iff_toNat_lt, more.not_gt, more.not_ge]

section
variable (f : Word → Word → Word) (e : Env) {w : Word} {c : Core}

theorem scalarRR_ready (ready_a : c.ctl.busy (fSa w) = false) (ready_b : c.ctl.busy (fSb w) = false) (ready_d : c.ctl.busy (fSd w) = false) :
    scalarRR f e w c = .next { c with ctl := c.ctl.setS (fSd w) (f (c.ctl.s (fSa w)) (c.ctl.s (fSb w))) (c.ctl.sp (fSa w) || c.ctl.sp (fSb w)) } := by
  simp [scalarRR, ready_a, ready_b, ready_d, Core.withCtl]

theorem scalarRI_ready (ready_a : c.ctl.busy (fSa w) = false) (ready_d : c.ctl.busy (fSd w) = false) :
    scalarRI f e w c = .next { c with ctl := c.ctl.setS (fSd w) (f (c.ctl.s (fSa w)) (imm64 w)) (c.ctl.sp (fSa w)) } := by
  simp [scalarRI, ready_a, ready_d, Core.withCtl]

end

/-- Every scalar row of two registers issues its table's function (R46). -/
theorem exec_scalarRows : ∀ r ∈ scalarRows, ∀ (i : CoreId) (w : Word) (s : State),
    exec (r.2.1 i w) s = issueRow r.1 0 resvS (scalarRR r.2.2) i.val w s := by
  have row (op : Nat) {f g : Word → Word → Word} (same : ∀ a b, f a b = g a b) (i : CoreId) (w : Word) (s : State) :
      issueRow op 0 resvS (scalarRR f) i.val w s = issueRow op 0 resvS (scalarRR g) i.val w s := by rw [funext₂ same]
  simp only [scalarRows, List.forall_mem_cons]
  exact ⟨row 0x10 word_add, row 0x11 word_sub, row 0x12 fun _ _ => rfl, row 0x13 fun _ _ => rfl, row 0x14 fun _ _ => rfl,
    row 0x15 fun a _ => word_shiftLeft a _, row 0x16 fun a _ => word_shiftRight a _, row 0x17 fun a _ => word_sshiftRight a _,
    row 0x18 word_mul, row 0x19 fun _ _ => rfl, row 0x1A fun a b => by rw [word_div], row 0x1B fun a b => by rw [word_mod],
    row 0x1C fun _ _ => ite_slt_eq_ite_toInt_le id, row 0x1D fun _ _ => ite_slt_eq_ite_toInt_le Eq.symm,
    row 0x1E fun _ _ => ite_ult_eq_ite_toNat_le id, row 0x1F fun _ _ => ite_ult_eq_ite_toNat_le Eq.symm, List.forall_mem_nil _⟩

/-- A field read as signed is its bits read as signed (R11). -/
theorem signedOf_fieldOf (w : Word) (lo : Nat) {n : Nat} (some_bit : 0 < n) : signedOf n (fieldOf w lo n) = (w.extractLsb' lo n).toInt := by
  rw [fieldOf_eq, signedOf, BitVec.toInt_eq_toNat_cond, Nat.mod_eq_of_lt (BitVec.isLt _)]
  obtain ⟨m, rfl⟩ := Nat.exists_eq_add_of_lt some_bit
  have double : 2 ^ (0 + m + 1) = 2 * 2 ^ (0 + m) := Nat.pow_succ'
  have double_int : (2 : Int) ^ (0 + m + 1) = ((2 * 2 ^ (0 + m) : Nat) : Int) := by rw [← double]; simp
  simp only [Nat.add_sub_cancel, double, double_int]
  split <;> split <;> omega

theorem imm64_eq (w : Word) : imm64 w = (w.extractLsb' 0 32).signExtend 64 :=
  congrArg (BitVec.ofInt 64) (signedOf_fieldOf w 0 (by decide))

theorem imm64_add (a w : Word) : a + imm64 w = BitVec.ofInt 64 (a.toInt + (w.extractLsb' 0 32).toInt) := by
  rw [imm64_eq, BitVec.signExtend, BitVec.ofInt_add, BitVec.ofInt_toInt]

/-- With the shifts' reserved bits zero, imm32 is the shift amount (R46). -/
theorem shiftAmount_imm64 {w : Word} (legal : resvShift w = false) : shiftAmount (imm64 w) = (w.extractLsb' 0 32).toNat := by
  have small : (w.extractLsb' 0 32).toNat < 64 := by
    simp [resvShift, nz, fieldOf, Nat.shiftRight_eq_div_pow] at legal
    simp
    omega
  have positive : (w.extractLsb' 0 32).msb = false := by
    rw [BitVec.msb_eq_false_iff_two_mul_lt]
    omega
  rw [shiftAmount, imm64_eq, BitVec.signExtend_eq_setWidth_of_msb_false positive, BitVec.toNat_setWidth]
  omega

/-- Every scalar row of a register and imm32 issues its table's function, where no reserved field is set (R46). -/
theorem exec_immediateRows : ∀ r ∈ immediateRows, ∀ (i : CoreId) (w : Word) (s : State), r.2.1 w = false →
    ∃ f, exec (r.2.2.1 i w) s = issueRow r.1 0 r.2.1 (scalarRI f) i.val w s ∧ ∀ a, f a (imm64 w) = r.2.2.2 a (w.extractLsb' 0 32) := by
  simp only [immediateRows, List.forall_mem_cons]
  exact ⟨fun _ w _ _ => ⟨_, rfl, fun a => imm64_add a w⟩, fun _ w _ _ => ⟨_, rfl, fun a => by rw [imm64_eq]⟩,
    fun _ w _ _ => ⟨_, rfl, fun a => by rw [imm64_eq]⟩, fun _ w _ _ => ⟨_, rfl, fun a => by rw [imm64_eq]⟩,
    fun _ w _ legal => ⟨_, rfl, fun a => by rw [shiftAmount_imm64 legal, word_shiftLeft]⟩,
    fun _ w _ legal => ⟨_, rfl, fun a => by rw [shiftAmount_imm64 legal, word_shiftRight]⟩,
    fun _ w _ legal => ⟨_, rfl, fun a => by rw [shiftAmount_imm64 legal, word_sshiftRight]⟩, List.forall_mem_nil _⟩

/-- The upper half of a word replaced (R46). -/
theorem putField_upper (v w : Word) : putField v 32 32 (imm32 w) = w.extractLsb' 0 32 ++ v.extractLsb' 0 32 := by
  have halves (x : Word) : x.toNat = fieldOf x 32 32 * 2 ^ 32 + fieldOf x 0 32 := by
    simp only [fieldOf, Nat.shiftRight_eq_div_pow]
    omega
  apply BitVec.eq_of_toNat_eq
  rw [halves (putField ..), fieldOf_putField _ _ _ _ (by decide), fieldOf_putField_other _ _ _ _ _ _ (.inl (by decide)), imm32, fieldOf_eq, fieldOf_eq,
    Nat.mod_eq_of_lt (BitVec.isLt _), BitVec.toNat_append, ← Nat.shiftLeft_add_eq_or_of_lt (BitVec.isLt _), Nat.shiftLeft_eq]

/-- The reserved fields of s.lih are those of format I and its sa field (R43, R46). -/
theorem resvSLih_eq (w : Word) : (resvI w || nz w 42 5) = nz w 32 15 := by
  rw [Bool.eq_iff_iff]
  simp only [resvI, nz, fieldOf, Nat.shiftRight_eq_div_pow, Bool.or_eq_true, bne_iff_ne]
  omega

/-- Settles O7: each row issues its function of the table, and its work at issue writes sd alone. -/
theorem scalarResult : Obligations.ScalarResult := by
  unfold Obligations.ScalarResult
  refine ⟨fun op mk f row i w s h room => ?_, fun op resv mk f row i w s h room => ?_, fun i w s h room => ?_⟩
  · intro k ready_a ready_b ready_d
    rw [exec_scalarRows _ row i w s]
    exact h.moveOnCtl room 0 _ (scalarRR_ready f _ ready_a ready_b ready_d) (k.setS_halted ..) (k.setS_loops ..)
  · intro k ready_a ready_d
    obtain ⟨g, issue, same⟩ := exec_immediateRows _ row i w s h.legal
    rw [issue, ← show g (k.s (fSa w)) (imm64 w) = f (k.s (fSa w)) (w.extractLsb' 0 32) from same _]
    exact h.moveOnCtl room 0 _ (scalarRI_ready g _ ready_a ready_d) (k.setS_halted ..) (k.setS_loops ..)
  · intro k ready
    rw [← putField_upper]
    exact (h.congr (resvSLih_eq w)).moveOnCtl room 0 workSLih (if_neg (by simp [k, ready])) (k.setS_halted ..) (k.setS_loops ..)

/-! ## Registers that are hard-wired (R41) -/

theorem Ctl.setS_zero (k : Ctl) (v : Word) (poison : Bool) : k.setS 0 v poison = k := rfl

theorem Ctl.setA_zero (k : Ctl) (v : Nat) : k.setA 0 v = k := rfl

theorem Ctl.setP_zero (k : Ctl) (v : Bool) : k.setP 0 v = k := rfl

/-! ## Address registers and predicates (R46) -/

/-- An address register keeps a value modulo two to the 32. -/
theorem Ctl.setA_congr (k : Ctl) (n : Nat) {v v' : Nat} (same : v % 2 ^ 32 = v' % 2 ^ 32) : k.setA n v = k.setA n v' := by
  have cut : BitVec.ofNat 32 v = BitVec.ofNat 32 v' := BitVec.eq_of_toNat_eq (by simpa using same)
  simp only [Ctl.setA, cut]

theorem imm32_eq (w : Word) : imm32 w = w.toNat % 2 ^ 32 := rfl

/-- Every comparison row issues its table's relation (R46). -/
theorem exec_compareRows : ∀ r ∈ compareRows, ∀ (i : CoreId) (w : Word) (s : State),
    exec (r.2.1 i w) s = issueRow r.1 0 resvCmp (compare r.2.2) i.val w s := by
  have row (op : Nat) {f g : Word → Word → Bool} (same : ∀ a b, f a b = g a b) (i : CoreId) (w : Word) (s : State) :
      issueRow op 0 resvCmp (compare f) i.val w s = issueRow op 0 resvCmp (compare g) i.val w s := by rw [funext₂ same]
  simp only [compareRows, List.forall_mem_cons]
  have same_word (a b : Word) : a = b ↔ a.toNat = b.toNat := BitVec.toNat_inj.symm
  exact ⟨row 0x40 fun a b => by rw [beq_eq_decide, decide_eq_decide, same_word],
    row 0x41 fun a b => by rw [bne, beq_eq_decide, ← decide_not, decide_eq_decide, same_word],
    row 0x42 fun a b => BitVec.slt_eq_decide, row 0x43 fun a b => BitVec.ult_eq_decide,
    row 0x44 fun a b => by rw [BitVec.slt_eq_decide, ← decide_not, decide_eq_decide, Int.not_lt],
    row 0x45 fun a b => by rw [BitVec.ult_eq_decide, ← decide_not, decide_eq_decide, Nat.not_lt], List.forall_mem_nil _⟩

/-- Every row of the predicate logic issues its table's function (R46). -/
theorem exec_predicateRows : ∀ r ∈ predicateRows, ∀ (i : CoreId) (w : Word) (s : State),
    exec (r.2.1 i w) s = issueRow r.1 0 resvPred (predLogic r.2.2) i.val w s := by
  simp only [predicateRows, List.forall_mem_cons]
  exact ⟨fun _ _ _ => rfl, fun _ _ _ => rfl, fun _ _ _ => rfl, fun _ _ _ => rfl, List.forall_mem_nil _⟩

section
variable (f : Word → Word → Bool) (e : Env) {w : Word} {c : Core} (ready_a : c.ctl.busy (fieldOf w 38 5) = false)
  (ready_b : bitOf w 32 = false → c.ctl.busy (fieldOf w 33 5) = false)
include ready_a ready_b

theorem compare_poisoned (poisoned : c.ctl.sp (fieldOf w 38 5) = true ∨ (bitOf w 32 = false ∧ c.ctl.sp (fieldOf w 33 5) = true)) :
    compare f e w c = .trap 6 0 (freeDetail 6 w) := by
  cases immediate : bitOf w 32 <;> simp_all [compare]

theorem compare_clean (clean : ¬(c.ctl.sp (fieldOf w 38 5) = true ∨ (bitOf w 32 = false ∧ c.ctl.sp (fieldOf w 33 5) = true))) :
    let b := if bitOf w 32 then (w.extractLsb' 0 32).signExtend 64 else c.ctl.s (fieldOf w 33 5)
    compare f e w c = .next { c with ctl := c.ctl.setP (fieldOf w 49 3) (f (c.ctl.s (fieldOf w 38 5)) b) } := by
  rw [← imm64_eq]
  cases immediate : bitOf w 32 <;> simp_all [compare, Core.withCtl]

end

/-- Settles O8: each row's work at issue, with imm32 added modulo two to the 32. -/
theorem addressAndPredicateResult : Obligations.AddressAndPredicateResult := by
  unfold Obligations.AddressAndPredicateResult
  refine ⟨fun i w s => ?_, fun op mk f row i w s h => ?_, fun op mk f row i w s h room => ?_⟩
  · intro k
    refine ⟨fun h room => ?_, fun h room ready clean => ?_, fun h ready poisoned => ?_, fun h room ready => ?_⟩
    · rw [k.setA_congr _ (Nat.mod_mod _ _)]
      exact h.moveOnCtl room 0 workAAddi rfl (k.setA_halted ..) (k.setA_loops ..)
    · have sum : ((k.s (fSd w)).toNat + w.toNat) % 2 ^ 32 % 2 ^ 32 = (fieldOf (k.s (fSd w)) 0 32 + imm32 w) % 2 ^ 32 := by
        simp only [imm32, fieldOf, Nat.shiftRight_zero, Nat.add_mod, Nat.mod_mod]
      rw [k.setA_congr _ sum]
      exact h.moveOnCtl room 0 workAMv (by simp [workAMv, k, ready, clean, Core.withCtl]) (k.setA_halted ..) (k.setA_loops ..)
    · exact h.trap 0 workAMv 6 0 _ (by simp [workAMv, k, ready, poisoned])
    · have sum : (k.a (fAa w) + w.toNat) % 2 ^ 32 = (k.a (fAa w) + imm32 w) % 2 ^ 32 := by simp only [imm32_eq, Nat.add_mod, Nat.mod_mod]
      rw [sum]
      exact h.moveOnCtl room 0 workARd (by simp [workARd, k, ready, Core.withCtl]) (k.setS_halted ..) (k.setS_loops ..)
  · intro k a b ui ready_a ready_b
    rw [exec_compareRows _ row i w s]
    split
    next poisoned => exact h.trap 0 _ 6 0 _ (compare_poisoned f _ ready_a ready_b poisoned)
    next clean => exact fun room => h.moveOnCtl room 0 _ (compare_clean f _ ready_a ready_b clean) (k.setP_halted ..) (k.setP_loops ..)
  · intro k
    rw [exec_predicateRows _ row i w s]
    exact h.moveOnCtl room 0 _ rfl (k.setP_halted ..) (k.setP_loops ..)

/-- Settles O6: the register file's own cases of register 0, and the rows of O7 and O8 with that destination. -/
theorem hardwiredRegisters : Obligations.HardwiredRegisters := by
  unfold Obligations.HardwiredRegisters
  refine ⟨fun k => ⟨rfl, rfl, rfl, rfl, fun _ _ => ⟨rfl, rfl⟩, fun _ => rfl, fun _ => rfl⟩, fun op mk f row i w s h room zero ready_a ready_b => ?_,
    fun i w s h room zero => ?_, fun op mk f row i w s h room zero => ?_⟩
  · have issue := scalarResult.1 op mk f row i w s h room ready_a ready_b (by rw [zero]; rfl)
    rwa [zero, Ctl.setS_zero] at issue
  · have issue := (addressAndPredicateResult.1 i w s).1 h room
    rwa [zero, Ctl.setA_zero] at issue
  · have issue := addressAndPredicateResult.2.2 op mk f row i w s h room
    simpa only [zero, Ctl.setP_zero] using issue

end Sys2Proof.Machine

/-! SUPPORT. Rows by their opcodes, the special registers and the capabilities: what the rows of the opcode table share at issue, and the system
instructions. -/

namespace Sys2Proof.Machine

/-! ## Rows whose word alone is the operand -/

/-- A row refuses a word with the opcode of another (R45). -/
theorem issueRow_other (op source : Nat) (bad : Word → Bool) (body : Env → Word → Core → Issue) (i : Nat) {w : Word} (s : State) (other : opOf w ≠ op)
    (known : assigned (opOf w) = true) : issueRow op source bad body i w s = .refused (.wordOfAnotherRow (opOf w)) := by
  simp [issueRow, other, known]

/-- Every row but those of lig.arrive and lig.signal issues its word and does no more; these two may send a far operation besides (R226). -/
theorem exec_wordRows : ∀ r ∈ wordRows, ∀ (i : CoreId) (w : Word) (s : State),
    (∃ source bad body, exec (r.2 i w) s = issueRow r.1 source bad body i.val w s) ∨
      exec (r.2 i w) s = ligFire r.1 i w s := by
  simp only [wordRows, List.forall_mem_cons, List.not_mem_nil, false_implies, implies_true, and_true]
  and_intros
  any_goals exact fun i w s => .inl ⟨_, _, _, rfl⟩
  all_goals exact fun i w s => .inr rfl

/-- Settles O2: a row's issue, and with it lig.arrive's and lig.signal's, refuses such a word before it looks at the core. -/
theorem wordOfAnotherRowRefused : Obligations.WordOfAnotherRowRefused := by
  unfold Obligations.WordOfAnotherRowRefused
  intro op mk row i w s other known
  obtain ⟨source, bad, body, issue⟩ | issue := exec_wordRows _ row i w s
  · exact issue.trans (issueRow_other op source bad body i.val s other known)
  · rw [show exec (mk i w) s = ligFire op i w s from issue, ligFire, issueRow_other _ _ _ _ _ s other known]

/-! ## Bits and fields of a number -/

theorem bit_le_one (b : Bool) : bit b ≤ 1 := by cases b <;> decide

/-- A bit of a word made from a number is the number's bit. -/
theorem bitOf_ofNat {n i : Nat} {b : Bool} (inside : i < 64) (same : n / 2 ^ i % 2 = bit b) : bitOf (BitVec.ofNat 64 n) i = b := by
  rw [bitOf, BitVec.getLsbD_ofNat, Nat.testBit_eq_decide_div_mod_eq, same]
  cases b <;> simp [bit, inside]

/-- A field of a word made from a number that fits is the number's field. -/
theorem fieldOf_ofNat {n : Nat} (fits : n < 2 ^ 64) (lo len : Nat) : fieldOf (BitVec.ofNat 64 n) lo len = n / 2 ^ lo % 2 ^ len := by
  rw [fieldOf, BitVec.toNat_ofNat, Nat.mod_eq_of_lt fits, Nat.shiftRight_eq_div_pow]

/-! ## The special registers and the capabilities (R31, R71, R72) -/

/-- CORE_STATUS reads as its fields (R72). -/
theorem Ctl.status_fields (k : Ctl) : let v := k.status
    bitOf v 0 = k.running ∧ bitOf v 1 = k.halted ∧ bitOf v 2 = k.stopped ∧ bitOf v 3 = k.inHandler ∧ fieldOf v 4 3 = k.loops.length % 8 ∧
    bitOf v 7 = k.breach ∧ bitOf v 8 = k.poisonSeen ∧ fieldOf v 9 6 = k.evq.length % 64 ∧ bitOf v 15 = k.evqOverflow ∧ fieldOf v 16 48 = 0 := by
  have := bit_le_one k.running
  have := bit_le_one k.halted
  have := bit_le_one k.stopped
  have := bit_le_one k.inHandler
  have := bit_le_one k.breach
  have := bit_le_one k.poisonSeen
  have := bit_le_one k.evqOverflow
  refine ⟨bitOf_ofNat ?_ ?_, bitOf_ofNat ?_ ?_, bitOf_ofNat ?_ ?_, bitOf_ofNat ?_ ?_, (fieldOf_ofNat ?_ _ _).trans ?_, bitOf_ofNat ?_ ?_,
    bitOf_ofNat ?_ ?_, (fieldOf_ofNat ?_ _ _).trans ?_, bitOf_ofNat ?_ ?_, (fieldOf_ofNat ?_ _ _).trans ?_⟩ <;> omega

/-- CORE_CTRL reads as its fields (R72). -/
theorem Ctl.ctrl_fields (k : Ctl) : let v := k.ctrl
    bitOf v 0 = k.evEn ∧ fieldOf v 1 4 = k.waitLimit % 16 ∧ fieldOf v 5 59 = 0 := by
  have := bit_le_one k.evEn
  refine ⟨bitOf_ofNat ?_ ?_, (fieldOf_ofNat ?_ _ _).trans ?_, (fieldOf_ofNat ?_ _ _).trans ?_⟩ <;> omega

theorem specialRead_counter (k : Ctl) {n : Nat} (counter : n < 8) : specialRead k (0x010 + n) = some ((k.cc[n]!).setWidth 64) := by
  unfold specialRead
  split
  any_goals omega
  rw [if_pos (by simp; omega), Nat.add_sub_cancel_left]

theorem specialRead_none (k : Ctl) {n : Nat} (outside : (4 < n ∧ n < 0x010) ∨ 0x017 < n) : specialRead k n = none := by
  unfold specialRead
  split
  any_goals omega
  exact if_neg (by simp; omega)

theorem specialWrite_none (k : Ctl) {n : Nat} (v : Word) (outside : 4 ≤ n) : specialWrite k n v = none := by
  unfold specialWrite
  split
  any_goals omega
  rfl

/-- No special register's write touches what issue goes by: halted and the loop stack. -/
theorem specialWrite_issue {k k' : Ctl} {n : Nat} {v : Word} (write : specialWrite k n v = some k') : k'.halted = k.halted ∧ k'.loops = k.loops := by
  unfold specialWrite at write
  split at write
  case h_5 => cases write
  all_goals
    obtain rfl := Option.some.inj write
    exact ⟨rfl, rfl⟩

theorem capability_outside (e : Env) {n : Nat} (above : 0x12 < n) (not_region : n ≠ 0x20) (not_generation : n ≠ 0x21) : capability e n = 0 := by
  unfold capability
  split
  any_goals omega
  rfl

theorem capability_table (e : Env) : capability e 0x00 = (if e.compat then 2 else 3) ∧ capability e 0x01 = BitVec.ofNat 64 e.width ∧
    capability e 0x02 = BitVec.ofNat 64 e.height ∧ capability e 0x0F = (if e.compat then 1 else 0) ∧ capability e 0x11 = (if e.compat then 0 else 1) ∧
    capability e 0x12 = (if e.compat then 0 else 512) ∧ capability e 0x20 = BitVec.ofNat 64 e.region ∧ capability e 0x21 = BitVec.ofNat 64 e.gen := by
  refine ⟨?_, rfl, rfl, ?_, ?_, ?_, rfl, rfl⟩ <;> cases compat : e.compat <;> simp [capability, bit, compat]

/-- Work after which issue stays leaves the core as the work made it, with no word held. -/
theorem Issues.stays {op : Nat} {resv : Word → Bool} {i : CoreId} {w : Word} {s : State} (h : Issues op resv i w s) (source : Nat)
    (body : Env → Word → Core → Issue) {c : Core} (work : body (s.env i.val) w (s.core i.val) = .stay c)
    (halted : c.ctl.halted = (s.core i.val).ctl.halted) :
    issueRow op source resv body i.val w s = .next (s.setCore i.val { c with ctl := { c.ctl with held := none } }) := by
  rw [h.row_eq, work]
  exact congrArg Host.Outcome.next (State.putCore_eq _ _ _ fun stopped => halted.symm.trans stopped)

/-- Settles O9: each row's work at issue, and the tables of the capabilities and the special registers index by index. -/
theorem systemInstructions : Obligations.SystemInstructions := by
  unfold Obligations.SystemInstructions
  refine ⟨fun i w s => ?_, fun k => ⟨_, rfl, k.status_fields⟩, fun k => ⟨_, rfl, k.ctrl_fields⟩, fun k => ⟨rfl, rfl, rfl⟩,
    fun k n counter => specialRead_counter k counter, fun k n outside => specialRead_none k outside, fun k v => rfl, fun k v => ⟨rfl, rfl, rfl⟩,
    fun k n v outside => specialWrite_none k v outside⟩
  intro k
  refine ⟨fun h room => h.moveOnCtl room 0 workNop rfl rfl rfl, fun h room ready => ?_, fun h ready => ⟨fun v read room => ?_, fun closed => ?_⟩,
    fun h ready => ⟨fun k' write room => ?_, fun closed => ?_⟩, fun h => h.stays 0 workStop rfl rfl, fun e => ?_⟩
  · exact h.moveOnCtl room 0 workCapRead (by simp [workCapRead, k, ready, Core.withCtl]) (k.setS_halted ..) (k.setS_loops ..)
  · exact h.moveOnCtl room 0 workSrRd (by simp [workSrRd, k, ready, Core.withCtl, show specialRead (s.core i.val).ctl _ = _ from read])
      (k.setS_halted ..) (k.setS_loops ..)
  · exact h.trap 0 workSrRd 9 0 _ (by simp [workSrRd, k, ready, show specialRead (s.core i.val).ctl _ = _ from closed])
  · obtain ⟨halted, loops⟩ := specialWrite_issue write
    exact h.moveOnCtl room 0 workSrWr (by simp [workSrWr, k, ready, Core.withCtl, show specialWrite (s.core i.val).ctl _ _ = _ from write]) halted loops
  · exact h.trap 0 workSrWr 9 0 _ (by simp [workSrWr, k, ready, show specialWrite (s.core i.val).ctl _ _ = _ from closed])
  · obtain ⟨version, width, height, compat, signal, signals, region, gen⟩ := capability_table e
    refine ⟨version, width, height, compat, signal, signals, region, gen, ?_, fun n => capability_outside e⟩
    intro n v listed
    fin_cases listed <;> rfl

end Sys2Proof.Machine

/-! SUPPORT. Issue that goes elsewhere than past its instruction: branches, loops, and the waits for completion counters and engines. -/

namespace Sys2Proof.Machine

/-! ## Issue that goes elsewhere (R52 to R55) -/

section
variable {op : Nat} {resv : Word → Bool} {i : CoreId} {w : Word} {s : State}

/-- Work that takes effect moves issue to the index that the loop stack it leaves gives (R54). -/
theorem Issues.moveTo (h : Issues op resv i w s) (source : Nat) (body : Env → Word → Core → Issue) {c : Core} {l : List LoopRec} {n : Nat}
    (work : body (s.env i.val) w (s.core i.val) = .next c) (halted : c.ctl.halted = (s.core i.val).ctl.halted)
    (after : afterIndex (s.core i.val).ctl.pc c.ctl.loops = (l, n)) (inside : n < 8192) :
    issueRow op source resv body i.val w s = .next (s.setCore i.val { c with ctl := { c.ctl with pc := n, loops := l, held := none } }) := by
  rw [h.next source body c work (halted.trans h.notHalted) (by rw [after]; exact inside), State.issued, Ctl.advance, after]

/-- A branch to an index of the code store ends the loops whose bodies do not contain it (R55). -/
theorem Issues.jumps (h : Issues op resv i w s) (source : Nat) (body : Env → Word → Core → Issue) {c : Core} {n : Nat}
    (work : body (s.env i.val) w (s.core i.val) = .jump c n) (inside : n < 8192) (halted : c.ctl.halted = (s.core i.val).ctl.halted) :
    issueRow op source resv body i.val w s = .next (s.setCore i.val { c with ctl := { c.ctl with
      pc := n, loops := c.ctl.loops.filter (fun l => decide (l.start ≤ n) && decide (n ≤ l.last)), held := none } }) := by
  rw [h.row_eq, work]
  simp only [Core.settle, Core.branch, Core.goto, inside, if_true]
  exact congrArg Host.Outcome.next (State.putCore_eq _ _ _ fun stopped => halted.symm.trans stopped)

/-- A branch past the code store takes the code-range trap (R52). -/
theorem Issues.jumps_outside (h : Issues op resv i w s) (source : Nat) (body : Env → Word → Core → Issue) {c : Core} {n : Nat}
    (work : body (s.env i.val) w (s.core i.val) = .jump c n) (outside : 8192 ≤ n) :
    issueRow op source resv body i.val w s = .next (s.trapAt i 7 0 0) := by
  rw [h.row_eq, work]
  simp only [Core.settle, Nat.not_lt.mpr outside, if_false]
  rfl

/-- A skip reaches the index that it names as its own instruction would (R53, R54). -/
theorem Issues.skips (h : Issues op resv i w s) (source : Nat) (body : Env → Word → Core → Issue) {n : Nat}
    (work : body (s.env i.val) w (s.core i.val) = .skip (s.core i.val) n) (room : (afterIndex n (s.core i.val).ctl.loops).2 < 8192) :
    issueRow op source resv body i.val w s =
      .next (s.setCore i.val { s.core i.val with ctl := (s.core i.val).ctl.advance n }) := by
  rw [h.row_eq, work]
  simp only [Core.settle, Core.past, Core.goto, room, if_true]
  exact congrArg Host.Outcome.next (State.putCore_eq _ _ _ id)

/-- Issue that resumes at an index of the code store (R63). -/
theorem Issues.resumes (h : Issues op resv i w s) (source : Nat) (body : Env → Word → Core → Issue) {c : Core} {n : Nat}
    (work : body (s.env i.val) w (s.core i.val) = .resume c n) (inside : n < 8192) (halted : c.ctl.halted = (s.core i.val).ctl.halted) :
    issueRow op source resv body i.val w s = .next (s.setCore i.val { c with ctl := { c.ctl with pc := n, held := none } }) := by
  rw [h.row_eq, work]
  simp only [Core.settle, Core.goto, inside, if_true]
  exact congrArg Host.Outcome.next (State.putCore_eq _ _ _ fun stopped => halted.symm.trans stopped)

end

/-! ## Branches (R52, R55) -/

/-- Where br and jl go: pc + off16, where that is not below 0 (R52). -/
theorem branchTarget_eq (w : Word) (c : Core) : let off : Int := (c.ctl.pc : Int) + (w.extractLsb' 0 16).toInt
    branchTarget w c = if off < 0 then none else some off.toNat := by
  simp only [branchTarget, signedOf_fieldOf w 0 (show 0 < 16 by decide)]

section
variable {w : Word} {c : Core}

theorem branchTarget_inside {n : Nat} (target : (c.ctl.pc : Int) + (w.extractLsb' 0 16).toInt = n) : branchTarget w c = some n := by
  rw [branchTarget_eq, target]
  simp

/-- A target outside the code store is none, or an index past its end. -/
theorem branchTarget_outside (outside : (c.ctl.pc : Int) + (w.extractLsb' 0 16).toInt < 0 ∨ 8192 ≤ (c.ctl.pc : Int) + (w.extractLsb' 0 16).toInt) :
    branchTarget w c = none ∨ ∃ n, branchTarget w c = some n ∧ 8192 ≤ n := by
  rw [branchTarget_eq]
  obtain below | past := outside
  · exact .inl (if_pos below)
  · exact .inr ⟨_, if_neg (by omega), by omega⟩

variable (e : Env) {n : Nat}

theorem workBr_jump (target : branchTarget w c = some n) : workBr e w c = .jump c n := by simp [workBr, target]

theorem workJl_jump (ready : c.ctl.busy (fSd w) = false) (target : branchTarget w c = some n) :
    workJl e w c = .jump { c with ctl := c.ctl.setS (fSd w) (BitVec.ofNat 64 (c.ctl.pc + 1)) false } n := by simp [workJl, ready, target]

theorem workJr_jump (ready : c.ctl.busy (fSd w) = false) (clean : c.ctl.sp (fSd w) = false) : workJr e w c = .jump c (c.ctl.s (fSd w)).toNat := by
  simp [workJr, ready, clean]

end

/-- Settles O11: each branch's work gives its target, and issue jumps there or takes the code-range trap. -/
theorem branchTargets : Obligations.BranchTargets := by
  unfold Obligations.BranchTargets
  intro i w s k off go
  refine ⟨fun h => ⟨fun n target inside => ?_, fun outside => ?_⟩, fun h ready => ⟨fun n target inside => ?_, fun outside => ?_⟩, fun h ready => ?_⟩
  · exact h.jumps 0 workBr (workBr_jump _ (branchTarget_inside target)) inside rfl
  · obtain below | ⟨n, past, large⟩ := branchTarget_outside outside
    · exact h.trap 0 workBr 7 0 0 (by simp [workBr, below])
    · exact h.jumps_outside 0 workBr (workBr_jump _ past) large
  · have jump := h.jumps 0 workJl (workJl_jump _ ready (branchTarget_inside target)) inside (k.setS_halted ..)
    rw [Ctl.setS_loops] at jump
    exact jump
  · obtain below | ⟨n, past, large⟩ := branchTarget_outside outside
    · exact h.trap 0 workJl 7 0 0 (by simp [workJl, below, show (s.core i.val).ctl.busy (fSd w) = false from ready])
    · exact h.jumps_outside 0 workJl (workJl_jump _ ready past) large
  · split
    next poisoned =>
      exact h.trap 0 workJr 6 0 _ (by simp [workJr, show (s.core i.val).ctl.busy (fSd w) = false from ready,
        show (s.core i.val).ctl.sp (fSd w) = true from poisoned])
    next clean =>
      have work := workJr_jump (s.env i.val) ready (Bool.eq_false_of_not_eq_true clean)
      split
      next inside => exact h.jumps 0 workJr work inside rfl
      next outside => exact h.jumps_outside 0 workJr work (Nat.not_lt.mp outside)

/-! ## Loops (R53, R54) -/

theorem afterIndex_elsewhere {l : LoopRec} {n : Nat} (elsewhere : l.last ≠ n) (r : List LoopRec) : afterIndex n (l :: r) = (l :: r, n + 1) :=
  if_neg elsewhere

theorem afterIndex_again {l : LoopRec} {n : Nat} (ends : l.last = n) (left : 1 < l.count) (r : List LoopRec) :
    afterIndex n (l :: r) = ({ l with count := l.count - 1 } :: r, l.start) := by
  simp [afterIndex, ends, left]

theorem afterIndex_over {l : LoopRec} {n : Nat} (ends : l.last = n) (last_run : l.count ≤ 1) (r : List LoopRec) :
    afterIndex n (l :: r) = afterIndex n r := by
  simp [afterIndex, ends, Nat.not_lt.mpr last_run]

/-- What loop does at issue once its count register is ready and clean: its body past the code store, badly nested, run or skipped (R53). -/
theorem workLoop_ready {e : Env} {w : Word} {c : Core} (ready : c.ctl.busy (fieldOf w 45 5) = false) (clean : c.ctl.sp (fieldOf w 45 5) = false) :
    let last := c.ctl.pc + fieldOf w 32 13
    let n := if fieldOf w 45 5 = 0 then w.toNat % 2 ^ 32 else (c.ctl.s (fieldOf w 45 5)).toNat % 2 ^ 32
    (8192 ≤ last → workLoop e w c = .trap 7 0 0) ∧
    (last < 8192 → 4 ≤ c.ctl.loops.length ∨ (∃ l ∈ c.ctl.loops.head?, l.last < last) → workLoop e w c = .trap 8 0 (freeDetail 8 w)) ∧
    (last < 8192 → c.ctl.loops.length < 4 → (∀ l ∈ c.ctl.loops.head?, last ≤ l.last) → workLoop e w c =
      if n = 0 then .skip c last else .next { c with ctl := { c.ctl with loops := ⟨n, c.ctl.pc + 1, last⟩ :: c.ctl.loops } }) := by
  intro last n
  have beyond : c.ctl.loops.head?.any (fun l => decide (l.last < last)) = true ↔ ∃ l ∈ c.ctl.loops.head?, l.last < last := by
    simp [Option.any_eq_true]
  refine ⟨fun past => ?_, fun inside nesting => ?_, fun inside few within => ?_⟩
  · simp [workLoop, ready, clean, last, past]
  · simp only [workLoop, ready, clean]
    rw [if_neg Bool.false_ne_true, if_neg Bool.false_ne_true, if_neg (Nat.not_le.mpr inside), if_pos]
    simpa only [Bool.or_eq_true, decide_eq_true_eq] using nesting.imp_right beyond.mpr
  · simp only [workLoop, ready, clean]
    rw [if_neg Bool.false_ne_true, if_neg Bool.false_ne_true, if_neg (Nat.not_le.mpr inside), if_neg]
    · rfl
    · simp only [Bool.or_eq_true, decide_eq_true_eq, not_or]
      refine ⟨by omega, fun found => ?_⟩
      obtain ⟨l, first, below⟩ := beyond.mp found
      exact absurd (within l first) (Nat.not_le.mpr below)

/-- Settles O12: loop's work at issue, and the decision of each loop at its last index. -/
theorem loopBodies : Obligations.LoopBodies := by
  unfold Obligations.LoopBodies
  refine ⟨fun i w s h => ?_, fun l r n => ⟨fun elsewhere => afterIndex_elsewhere elsewhere r, fun ends left => afterIndex_again ends left r,
    fun ends last_run => afterIndex_over ends last_run r⟩⟩
  intro k sa last n ready clean
  obtain ⟨past, nested, runs⟩ := workLoop_ready (e := s.env i.val) ready clean
  refine ⟨fun far => h.trap 0 workLoop 7 0 0 (past far), fun inside bad => h.trap 0 workLoop 8 0 _ (nested inside bad),
    fun inside few within some_runs => ?_, fun inside few within no_run room => ?_⟩
  · have body : fieldOf w 32 13 ≠ 0 := by
      have legal := h.legal
      simp [nz] at legal
      exact legal.2
    have longer : last ≠ k.pc := Nat.ne_of_gt (Nat.lt_add_of_pos_right (Nat.pos_of_ne_zero body))
    have first_inside : k.pc + 1 < 8192 := by omega
    have enters := h.moveTo 0 workLoop ((runs inside few within).trans (if_neg some_runs)) rfl (afterIndex_elsewhere longer _) first_inside
    exact enters
  · exact h.skips 0 workLoop ((runs inside few within).trans (if_pos no_run)) room

/-! ## Completion counters and waits (R58 to R60) -/

theorem ccOperand_eq (w : Word) (k : Ctl) : ccOperand w k = (k.s (fSa w)).extractLsb' 0 32 + w.extractLsb' 0 32 := by
  apply BitVec.eq_of_toNat_eq
  simp [ccOperand, imm32, fieldOf]

/-- cc.wait waits for the counter's signed distance past its operand (R59). -/
theorem workCcWait_clean {e : Env} {w : Word} {c : Core} (ready : c.ctl.busy (fSa w) = false) (clean : c.ctl.sp (fSa w) = false) :
    workCcWait e w c =
      if (c.ctl.cc[fieldOf w 49 3]! - ((c.ctl.s (fSa w)).extractLsb' 0 32 + w.extractLsb' 0 32)).toInt < 0 then .stall else .next c := by
  simp only [workCcWait, ready, clean, Bool.false_eq_true, if_false, ccOperand_eq]

/-- Taking a precise trap for a schedule breach sets CORE_STATUS.breach (R60). -/
theorem Core.preciseTrap_breach (e : Env) (source detail : Nat) (c : Core) : (c.preciseTrap e 4 source detail).ctl.breach = true := by
  simp only [Core.preciseTrap, decide_true, Bool.or_true]
  split <;> rfl

/-- Settles O13: each row's work at issue by what it waits for, and the wait limit's trap. -/
theorem completionCounters : Obligations.CompletionCounters := by
  unfold Obligations.CompletionCounters
  refine ⟨fun i w s => ?_, fun i s can limit waits => ?_⟩
  · intro k c v
    refine ⟨fun h ready clean => ⟨fun early => ?_, fun due room => ?_⟩, fun h ready clean room => ?_, fun h ready room => ?_,
      fun h => ⟨fun busy => ?_, fun quiet room => ?_⟩⟩
    · exact h.stall 0 workCcWait ((workCcWait_clean ready clean).trans (if_pos early))
    · exact h.moveOnCtl room 0 workCcWait ((workCcWait_clean ready clean).trans (if_neg (Int.not_lt.mpr due))) rfl rfl
    · exact h.moveOnCtl room 0 workCcSet (by simp [workCcSet, k, c, v, ready, clean, ccOperand_eq]) rfl rfl
    · exact h.moveOnCtl room 0 workCcRd (by simp [workCcRd, k, c, ready]) (k.setS_halted ..) (k.setS_loops ..)
    · exact h.stall 0 workFence (by simp [workFence, busy])
    · exact h.moveOnCtl room 0 workFence (by simp [workFence, quiet, k]) rfl rfl
  · refine ⟨s.trapAt i 4 0 _, ?_, ?_, rfl⟩
    · change execWaitLimitBreach i s = _
      simp [execWaitLimitBreach, Core.waitLimitBreach, can, limit, waits, State.trapAt]
    · rw [State.trapAt, State.core_putCore_same]
      exact Core.preciseTrap_breach ..

end Sys2Proof.Machine

/-! SUPPORT. Registers and slots of the control unit: what a register reads once another is written, what an event that a core raises leaves of its
program, what the slots whose tick has come do, and from them the event and time instructions. -/

namespace Sys2Proof.Machine

/-! ## Entries of a vector -/

theorem getElem!_set!_same {α : Type} [Inhabited α] {n j : Nat} (v : Vector α n) (x : α) (inside : j < n) : (v.set! j x)[j]! = x := by
  simp [inside]

theorem getElem!_set!_ne {α : Type} [Inhabited α] {n j m : Nat} (v : Vector α n) (x : α) (other : m ≠ j) : (v.set! j x)[m]! = v[m]! := by
  grind

theorem fieldOf_lt (w : Word) (lo n : Nat) : fieldOf w lo n < 2 ^ n := Nat.mod_lt _ (Nat.two_pow_pos n)

/-! ## Registers read after a write (R41, R48) -/

section
variable (k : Ctl) {m n : Nat} (v : Word) (poison : Bool)

theorem Ctl.s_setS_same (real : n % 32 ≠ 0) : (k.setS n v poison).s n = v ∧ (k.setS n v poison).sp n = poison := by
  have inside : n % 32 < 32 := Nat.mod_lt _ (by decide)
  simp only [Ctl.s, Ctl.sp, Ctl.setS, if_neg real]
  exact ⟨getElem!_set!_same _ _ inside, getElem!_set!_same _ _ inside⟩

theorem Ctl.s_setS_ne (other : m % 32 ≠ n % 32) : (k.setS n v poison).s m = k.s m ∧ (k.setS n v poison).sp m = k.sp m := by
  by_cases zero : n % 32 = 0
  · simp only [Ctl.setS, if_pos zero, and_self]
  · simp only [Ctl.s, Ctl.sp, Ctl.setS, if_neg zero, getElem!_set!_ne _ _ other, and_self]

/-- A scalar result leaves the rest of the control unit. -/
theorem Ctl.setS_frame : (k.setS n v poison).areg = k.areg ∧ (k.setS n v poison).preg = k.preg ∧ (k.setS n v poison).cc = k.cc ∧
    (k.setS n v poison).slots = k.slots ∧ (k.setS n v poison).evq = k.evq ∧ (k.setS n v poison).evLost = k.evLost := by
  unfold Ctl.setS
  split <;> exact ⟨rfl, rfl, rfl, rfl, rfl, rfl⟩

end

/-! ## What a core's events leave of its program -/

/-- `k'` has the registers, the loop stack and the halted bit of `k`: what its program computes with and issue goes by. -/
structure Ctl.SameProgram (k k' : Ctl) : Prop where
  sreg : k'.sreg = k.sreg
  spoison : k'.spoison = k.spoison
  sbusy : k'.sbusy = k.sbusy
  areg : k'.areg = k.areg
  preg : k'.preg = k.preg
  loops : k'.loops = k.loops
  halted : k'.halted = k.halted

/-- `k'` has the completion counters and the slots of `k` besides. -/
structure Ctl.SameWork (k k' : Ctl) : Prop extends Ctl.SameProgram k k' where
  cc : k'.cc = k.cc
  slots : k'.slots = k.slots

theorem Ctl.SameProgram.refl (k : Ctl) : Ctl.SameProgram k k := ⟨rfl, rfl, rfl, rfl, rfl, rfl, rfl⟩

theorem Ctl.SameWork.refl (k : Ctl) : Ctl.SameWork k k := ⟨.refl k, rfl, rfl⟩

theorem Ctl.SameProgram.trans {k l m : Ctl} (h : Ctl.SameProgram k l) (h' : Ctl.SameProgram l m) : Ctl.SameProgram k m :=
  ⟨h'.sreg.trans h.sreg, h'.spoison.trans h.spoison, h'.sbusy.trans h.sbusy, h'.areg.trans h.areg, h'.preg.trans h.preg, h'.loops.trans h.loops,
    h'.halted.trans h.halted⟩

theorem Ctl.SameWork.trans {k l m : Ctl} (h : Ctl.SameWork k l) (h' : Ctl.SameWork l m) : Ctl.SameWork k m :=
  ⟨h.toSameProgram.trans h'.toSameProgram, h'.cc.trans h.cc, h'.slots.trans h.slots⟩

/-- Scalar registers read alike. -/
theorem Ctl.SameProgram.setS {k k' : Ctl} (h : Ctl.SameProgram k k') (n : Nat) : k'.s n = k.s n ∧ k'.sp n = k.sp n := by
  simp only [Ctl.s, Ctl.sp, h.sreg, h.spoison, and_self]

theorem Core.enqueue_sameWork (c : Core) (r : Word) : Ctl.SameWork c.ctl (c.enqueue r).ctl := by
  unfold Core.enqueue
  split <;> exact ⟨⟨rfl, rfl, rfl, rfl, rfl, rfl, rfl⟩, rfl, rfl⟩

theorem Core.asyncTrap_sameWork (e : Env) (code idx source detail : Nat) (c : Core) :
    Ctl.SameWork c.ctl (c.asyncTrap e code idx source detail).ctl := by
  unfold Core.asyncTrap
  refine .trans ?_ (Core.enqueue_sameWork _ _)
  exact ⟨⟨rfl, rfl, rfl, rfl, rfl, rfl, rfl⟩, rfl, rfl⟩

/-- The core with CORE_STATUS.breach set, unless the ligature fault is that of a cancelled slot (R225). -/
def Core.faulted (code : Nat) (c : Core) : Core := if code = 4 then c else { c with ctl := { c.ctl with breach := true } }

theorem Core.ligFault_eq (e : Env) (code info : Nat) (c : Core) : c.ligFault e code info =
    if (c.faulted code).inbound.any (fun m => decide (m.cls = 3)) then
      { c.faulted code with inbound := (c.faulted code).inbound ++ [⟨3, code, info, e.gen⟩] }
    else (c.faulted code).enqueue (eventRecord 3 code info e.gen) := rfl

theorem Core.ligFault_sameWork (e : Env) (code info : Nat) (c : Core) : Ctl.SameWork c.ctl (c.ligFault e code info).ctl := by
  have faulted : Ctl.SameWork c.ctl (c.faulted code).ctl := by
    unfold Core.faulted
    split <;> exact ⟨⟨rfl, rfl, rfl, rfl, rfl, rfl, rfl⟩, rfl, rfl⟩
  rw [Core.ligFault_eq]
  split
  · exact faulted
  · exact faulted.trans (Core.enqueue_sameWork _ _)

theorem Core.timedAct_sameProgram (e : Env) (n : Nat) (t : TimedSlot) (c : Core) :
    Ctl.SameProgram c.ctl (c.timedAct e n t).ctl ∧ (c.timedAct e n t).ctl.slots = c.ctl.slots := by
  unfold Core.timedAct
  split
  · have same := Core.enqueue_sameWork c (eventRecord 5 1 (n * 2 ^ 40 + t.tag % 2 ^ 32) e.gen)
    exact ⟨same.toSameProgram, same.slots⟩
  · exact ⟨⟨rfl, rfl, rfl, rfl, rfl, rfl, rfl⟩, rfl⟩
  · split
    · have same := Core.ligFault_sameWork e 1 (slotInfo t.operand.toNat n) c
      exact ⟨same.toSameProgram, same.slots⟩
    · exact ⟨.refl _, rfl⟩

/-! ## The slots whose tick has come (R69, R228 to R230) -/

/-- A slot once it has acted: executed, or cancelled for the strict bit and a past target. -/
def TimedSlot.acted (compat : Bool) (t : TimedSlot) : TimedSlot :=
  if t.past && t.strict && !compat then { t with armed := false, cancelled := true, late := true, lateness := t.delay }
  else { t with armed := false, executed := true, late := t.past, lateness := if t.past then t.delay else 0 }

theorem TimedSlot.acted_armed (compat : Bool) (t : TimedSlot) : (t.acted compat).armed = false := by
  unfold TimedSlot.acted
  split <;> rfl

theorem TimedSlot.acted_executed {compat : Bool} {t : TimedSlot} (in_time : (t.past && t.strict && !compat) = false) :
    (t.acted compat).executed = true := by
  simp [TimedSlot.acted, in_time]

theorem TimedSlot.acted_due (compat : Bool) (now : Nat) (t : TimedSlot) : (t.acted compat).due now = false := by
  simp [TimedSlot.due, t.acted_armed]

/-- A slot that acts changes itself among the slots, and no register of the program. -/
theorem Core.timedExec_sameProgram (e : Env) (n : Nat) (c : Core) : Ctl.SameProgram c.ctl (c.timedExec e n).ctl ∧
    (c.timedExec e n).ctl.slots = c.ctl.slots.set! n ((c.ctl.slots[n]!).acted e.compat) := by
  unfold Core.timedExec TimedSlot.acted
  dsimp only
  split
  · refine ⟨.trans ?_ (Core.ligFault_sameWork e 4 _ _).toSameProgram, (Core.ligFault_sameWork e 4 _ _).slots⟩
    exact ⟨rfl, rfl, rfl, rfl, rfl, rfl, rfl⟩
  · refine ⟨.trans ?_ (Core.timedAct_sameProgram e n _ _).1, (Core.timedAct_sameProgram e n _ _).2⟩
    exact ⟨rfl, rfl, rfl, rfl, rfl, rfl, rfl⟩

/-- Slot `n` of a core has a tick that has come. -/
def Core.slotDue (now : Nat) (c : Core) (n : Nat) : Bool := (c.ctl.slots[n]!).due now

/-- The slot that acts next is due. -/
theorem Core.slotDue_of_nextDue {now n : Nat} {c : Core} (next : c.nextDue now = some n) : n < 8 ∧ c.slotDue now n = true := by
  unfold Core.nextDue at next
  have found := List.find?_some next
  simp only [Bool.and_eq_true] at found
  exact ⟨List.mem_range.mp (List.mem_of_find?_eq_some next), found.1⟩

/-- While a slot is due, one acts next: the first in the order of ticks, and then of slots. -/
theorem Core.nextDue_isSome {now n : Nat} {c : Core} (slot : n < 8) (due : c.slotDue now n = true) : (c.nextDue now).isSome = true := by
  let key (m : Nat) : Nat := 8 * (c.ctl.slots[m]!).tick + m
  obtain ⟨m, found, least⟩ := Finset.exists_min_image ((Finset.range 8).filter (fun m => c.slotDue now m = true)) key ⟨n, by simp [slot, due]⟩
  simp only [Finset.mem_filter, Finset.mem_range] at found least
  rw [Core.nextDue, List.find?_isSome]
  refine ⟨m, List.mem_range.mpr found.1, ?_⟩
  simp only [Bool.and_eq_true, List.all_eq_true, List.mem_range, Bool.or_eq_true, Bool.not_eq_true', decide_eq_true_eq]
  refine ⟨found.2, fun j slot_j => ?_⟩
  by_cases due_j : c.slotDue now j = true
  · have before := least j ⟨slot_j, due_j⟩
    simp only [key] at before
    omega
  · exact .inl (.inl (Bool.eq_false_of_not_eq_true due_j))

/-- The next slot whose tick has come acts, if there is one. -/
def Core.timedNext (e : Env) (c : Core) : Core := (c.nextDue e.now).elim c (fun n => c.timedExec e n)

theorem Core.timedDue_eq (e : Env) (c : Core) : c.timedDue e = (List.range 8).foldl (fun c _ => c.timedNext e) c := by
  refine List.foldl_ext _ _ _ fun d _ _ => ?_
  unfold Core.timedNext
  cases d.nextDue e.now <;> rfl

/-- A slot of `d` is as in `c`, or has acted since. -/
def Core.SlotActed (e : Env) (c d : Core) (n : Nat) : Prop :=
  d.ctl.slots[n]! = c.ctl.slots[n]! ∨ (c.slotDue e.now n = true ∧ d.ctl.slots[n]! = (c.ctl.slots[n]!).acted e.compat)

/-- The slots of a core that are due. -/
def Core.dueSlots (now : Nat) (c : Core) : Finset Nat := (Finset.range 8).filter (fun n => c.slotDue now n = true)

theorem Core.mem_dueSlots {now n : Nat} {c : Core} : n ∈ c.dueSlots now ↔ n < 8 ∧ c.slotDue now n = true := by
  simp [Core.dueSlots]

/-- One slot's action at most: no register of the program changes, each slot is as before or has acted, and while slots are due one fewer is. -/
theorem Core.timedNext_spec (e : Env) (c : Core) : Ctl.SameProgram c.ctl (c.timedNext e).ctl ∧ (∀ n, Core.SlotActed e c (c.timedNext e) n) ∧
    ((c.timedNext e).dueSlots e.now).card ≤ (c.dueSlots e.now).card - 1 := by
  unfold Core.timedNext
  cases next : c.nextDue e.now with
  | none =>
    have idle : c.dueSlots e.now = ∅ := by
      refine Finset.eq_empty_of_forall_notMem fun n due => ?_
      obtain ⟨slot, due⟩ := Core.mem_dueSlots.mp due
      simpa [next] using Core.nextDue_isSome slot due
    exact ⟨.refl _, fun n => .inl rfl, by simp [idle]⟩
  | some n =>
    obtain ⟨slot, due⟩ := Core.slotDue_of_nextDue next
    obtain ⟨program, slots⟩ := Core.timedExec_sameProgram e n c
    have acts : (c.timedExec e n).ctl.slots[n]! = (c.ctl.slots[n]!).acted e.compat := by rw [slots, getElem!_set!_same _ _ slot]
    have stays {m : Nat} (other : m ≠ n) : (c.timedExec e n).ctl.slots[m]! = c.ctl.slots[m]! := by rw [slots, getElem!_set!_ne _ _ other]
    refine ⟨program, fun m => ?_, ?_⟩
    · by_cases same : m = n
      · subst same
        exact .inr ⟨due, acts⟩
      · exact .inl (stays same)
    · rw [← Finset.card_erase_of_mem (Core.mem_dueSlots.mpr ⟨slot, due⟩)]
      refine Finset.card_le_card fun m still => ?_
      obtain ⟨slot_m, due_m⟩ := Core.mem_dueSlots.mp still
      simp only [Option.elim_some, Core.slotDue] at due_m
      have other : m ≠ n := by
        rintro rfl
        simp [acts, TimedSlot.acted_due] at due_m
      rw [stays other] at due_m
      exact Finset.mem_erase.mpr ⟨other, Core.mem_dueSlots.mpr ⟨slot_m, due_m⟩⟩

theorem Core.SlotActed.trans {e : Env} {b c d : Core} {n : Nat} (h : Core.SlotActed e b c n) (h' : Core.SlotActed e c d n) :
    Core.SlotActed e b d n := by
  obtain same | ⟨due, acted⟩ := h
  · simpa only [Core.SlotActed, Core.slotDue, same] using h'
  · obtain same' | ⟨due', -⟩ := h'
    · exact .inr ⟨due, same'.trans acted⟩
    · rw [Core.slotDue, acted, TimedSlot.acted_due] at due'
      cases due'

/-- Every slot that is due acts, once, and no other: `timedDue` leaves no register of the program changed (R69, R228). -/
theorem Core.timedDue_spec (e : Env) (c : Core) : Ctl.SameProgram c.ctl (c.timedDue e).ctl ∧
    ∀ n, n < 8 → (c.timedDue e).ctl.slots[n]! = if c.slotDue e.now n = true then (c.ctl.slots[n]!).acted e.compat else c.ctl.slots[n]! := by
  have runs (l : List Nat) (d : Core) : Ctl.SameProgram d.ctl (l.foldl (fun c _ => c.timedNext e) d).ctl ∧
      (∀ n, Core.SlotActed e d (l.foldl (fun c _ => c.timedNext e) d) n) ∧
      ((l.foldl (fun c _ => c.timedNext e) d).dueSlots e.now).card ≤ (d.dueSlots e.now).card - l.length := by
    induction l generalizing d with
    | nil => exact ⟨.refl _, fun n => .inl rfl, le_refl _⟩
    | cons x l ih =>
      obtain ⟨program, slots, fewer⟩ := d.timedNext_spec e
      obtain ⟨program', slots', fewer'⟩ := ih (d.timedNext e)
      refine ⟨program.trans program', fun n => (slots n).trans (slots' n), fewer'.trans ?_⟩
      simp only [List.length_cons]
      omega
  obtain ⟨program, slots, left⟩ := runs (List.range 8) c
  rw [← Core.timedDue_eq] at program slots left
  refine ⟨program, fun n slot => ?_⟩
  have eight : (c.dueSlots e.now).card ≤ 8 := (Finset.card_filter_le _ _).trans_eq (Finset.card_range 8)
  have idle : (c.timedDue e).dueSlots e.now = ∅ := by
    rw [← Finset.card_eq_zero]
    simp only [List.length_range] at left
    omega
  obtain same | ⟨due, acted⟩ := slots n
  · have quiet : c.slotDue e.now n ≠ true := fun due =>
      Finset.notMem_empty n (idle ▸ Core.mem_dueSlots.mpr ⟨slot, by rwa [Core.slotDue, same]⟩)
    rw [if_neg quiet, same]
  · rw [if_pos due, acted]

/-- With no slot due nothing happens. -/
theorem Core.timedDue_idle {e : Env} {c : Core} (idle : ∀ n, n < 8 → c.slotDue e.now n = false) : c.timedDue e = c := by
  have none_next : c.nextDue e.now = none := by
    cases next : c.nextDue e.now with
    | none => rfl
    | some n =>
      obtain ⟨slot, due⟩ := Core.slotDue_of_nextDue next
      rw [idle n slot] at due
      cases due
  rw [Core.timedDue_eq]
  exact List.foldlRecOn _ _ (motive := fun d => d = c) rfl fun d same _ _ => by rw [same, Core.timedNext, none_next]; rfl

/-! ## Events, time and hints at issue (R61 to R70) -/

section
variable {e : Env} {w : Word} {c : Core}

/-- The control unit once ev.pop has taken the oldest record (R61, R267). -/
def Ctl.popped (w : Word) (k : Ctl) : Ctl :=
  { k.setS (fSd w) k.oldest false with
    evq := k.evq.drop 1
    evLost := k.evLost && decide (k.evq = [])
    cliSel := if fieldOf k.oldest 60 4 = 1 then fieldOf k.oldest 0 10 else (k.setS (fSd w) k.oldest false).cliSel }

theorem workEvPop_ready (ready : c.ctl.busy (fSd w) = false) : workEvPop e w c = .next { c with ctl := c.ctl.popped w } := by
  obtain ⟨-, -, -, -, evq, lost⟩ := c.ctl.setS_frame (n := fSd w) c.ctl.oldest false
  simp only [workEvPop, ready, Bool.false_eq_true, if_false, Ctl.popped, evq, lost]
  cases events : c.ctl.evq <;> simp

theorem State.env_now (s : State) (i : Nat) : (s.env i).now = s.timeAt (clusterOfCore i) := rfl

theorem workTNow_ready (ready : c.ctl.busy (fSd w) = false) :
    workTNow e w c = .next { c with ctl := c.ctl.setS (fSd w) (BitVec.ofNat 64 e.now) false } := by
  simp [workTNow, ready]

/-- A slot as t.arm leaves it (R68, R232). -/
def armedSlot (e : Env) (w : Word) (k : Ctl) : TimedSlot :=
  { armed := true, executed := false, late := false, cancelled := false, lateness := 0, target := (k.s (fieldOf w 40 5)).toNat, armedAt := e.now
    kind := fieldOf w 46 3, strict := bitOf w 45, operand := k.s (fieldOf w 35 5), counter := fieldOf w 32 3, tag := fieldOf w 0 32, stepped := false }

/-- The core with one slot given anew. -/
def Core.putSlot (c : Core) (n : Nat) (t : TimedSlot) : Core := { c with ctl := { c.ctl with slots := c.ctl.slots.set! n t } }

theorem Core.putSlot_halted (c : Core) (n : Nat) (t : TimedSlot) : (c.putSlot n t).ctl.halted = c.ctl.halted := rfl

theorem Core.putSlot_loops (c : Core) (n : Nat) (t : TimedSlot) : (c.putSlot n t).ctl.loops = c.ctl.loops := rfl

theorem Core.putSlot_slots (c : Core) (n : Nat) (t : TimedSlot) : (c.putSlot n t).ctl.slots = c.ctl.slots.set! n t := rfl

theorem workTArm_ready (ready_a : c.ctl.busy (fieldOf w 40 5) = false) (ready_b : c.ctl.busy (fieldOf w 35 5) = false)
    (clean_a : c.ctl.sp (fieldOf w 40 5) = false) (clean_b : c.ctl.sp (fieldOf w 35 5) = false) :
    workTArm e w c = .next ((c.timedDue e).putSlot (fieldOf w 49 3) (armedSlot e w c.ctl)) := by
  simp [workTArm, ready_a, ready_b, clean_a, clean_b, armedSlot, Core.putSlot]

/-- The control unit once t.cancel has disarmed its slot (R69). -/
def Ctl.cancelled (w : Word) (k : Ctl) : Ctl :=
  let t := k.slots[fieldOf w 0 3]!
  { k.setS (fSd w) (if t.armed then 1 else 0) false with slots := k.slots.set! (fieldOf w 0 3) { t with armed := false } }

theorem Ctl.cancelled_issue (w : Word) (k : Ctl) : (k.cancelled w).halted = k.halted ∧ (k.cancelled w).loops = k.loops :=
  ⟨k.setS_halted .., k.setS_loops ..⟩

theorem workTCancel_ready (ready : c.ctl.busy (fSd w) = false) :
    workTCancel e w c = .next { c.timedDue e with ctl := (c.timedDue e).ctl.cancelled w } := by
  obtain ⟨-, -, -, slots, -, -⟩ := (c.timedDue e).ctl.setS_frame (n := fSd w)
    (if ((c.timedDue e).ctl.slots[fieldOf w 0 3]!).armed then 1 else 0) false
  simp only [workTCancel, ready, Bool.false_eq_true, if_false, slots]
  rfl

theorem State.core_issued (s : State) (i : CoreId) (c : Core) :
    (s.issued i c).core i.val = { c with ctl := c.ctl.advance (s.core i.val).ctl.pc } := State.core_setCore_same ..

/-- A field of five bits that is not zero names a register that is not s0. -/
theorem Ctl.s_setS_field (k : Ctl) {lo : Nat} (v : Word) (poison : Bool) (real : fieldOf w lo 5 ≠ 0) :
    (k.setS (fieldOf w lo 5) v poison).s (fieldOf w lo 5) = v ∧ (k.setS (fieldOf w lo 5) v poison).sp (fieldOf w lo 5) = poison := by
  refine k.s_setS_same v poison ?_
  rwa [Nat.mod_eq_of_lt (show _ < 32 from fieldOf_lt w lo 5)]

end

/-- Settles O14: each row's work at issue; t.arm and t.cancel after every slot whose tick has come has acted. -/
theorem eventAndTimeInstructions : Obligations.EventAndTimeInstructions := by
  unfold Obligations.EventAndTimeInstructions
  refine ⟨fun i w s => ?_, fun i w s => ?_⟩
  · intro k
    refine ⟨fun h room ready => ?_, fun h => ⟨fun empty => ?_, fun some_event room => ?_⟩, fun h => ⟨fun inside pc => ?_, fun outside => ?_⟩,
      fun h room => ?_⟩
    · refine ⟨_, h.moveOnCtl room 0 workEvPop (workEvPop_ready ready) (k.setS_halted ..) (k.setS_loops ..), ?_⟩
      rw [State.issuedCtl, State.core_setCore_same]
      exact ⟨rfl, fun real => k.s_setS_field k.oldest false real, rfl⟩
    · exact h.stall 0 workEvWait (by simp [workEvWait, show (s.core i.val).ctl.evq = [] from empty])
    · exact h.moveOnCtl room 0 workEvWait (by simpa [workEvWait, k] using some_event) rfl rfl
    · exact h.resumes 0 workEvRet (if_pos inside) pc rfl
    · exact h.trap 0 workEvRet 9 0 _ (by simp [workEvRet, show (s.core i.val).ctl.inHandler = false from outside])
    · exact h.moveOnCtl room 0 workEvCtl rfl rfl rfl
  · intro k now
    refine ⟨fun h room ready => ?_, fun h room ready_a ready_b clean_a clean_b => ?_, fun h room ready => ?_,
      fun h room => h.moveOnCtl room 0 workHintPress rfl rfl rfl⟩
    · have issue := h.moveOnCtl room 0 workTNow (workTNow_ready ready) (Ctl.setS_halted ..) (Ctl.setS_loops ..)
      rw [State.env_now] at issue
      exact issue
    · obtain ⟨program, slots⟩ := (s.core i.val).timedDue_spec (s.env i.val)
      refine ⟨_, h.moveOn room 0 workTArm (workTArm_ready ready_a ready_b clean_a clean_b) ((Core.putSlot_halted ..).trans program.halted)
        ((Core.putSlot_loops ..).trans program.loops), ?_⟩
      rw [State.core_issued]
      simp only [Ctl.advance, Core.putSlot_slots, getElem!_set!_same _ _ (fieldOf_lt w 49 3)]
      refine ⟨rfl, rfl, rfl, rfl, rfl, rfl, rfl, rfl, rfl, rfl, rfl, rfl, fun n slot other idle => ?_⟩
      rw [getElem!_set!_ne _ _ other, slots n slot, if_neg (by simpa [Core.slotDue] using idle)]
    · intro x
      obtain ⟨program, slots⟩ := (s.core i.val).timedDue_spec (s.env i.val)
      refine ⟨fun idle => ?_, fun due => ?_⟩
      · have work := workTCancel_ready (e := s.env i.val) ready
        rw [Core.timedDue_idle idle] at work
        exact h.moveOnCtl room 0 workTCancel work (Ctl.cancelled_issue w k).1 (Ctl.cancelled_issue w k).2
      · have acted := (slots _ (fieldOf_lt w 0 3)).trans (if_pos due)
        refine ⟨_, h.moveOn room 0 workTCancel (workTCancel_ready ready) ((Ctl.cancelled_issue w _).1.trans program.halted)
          ((Ctl.cancelled_issue w _).2.trans program.loops), ?_⟩
        rw [State.core_issued]
        simp only [Ctl.advance, Ctl.cancelled, acted, TimedSlot.acted_armed, getElem!_set!_same _ _ (fieldOf_lt w 0 3)]
        exact ⟨trivial, TimedSlot.acted_executed, fun real => Ctl.s_setS_field _ 0 false real⟩

end Sys2Proof.Machine

/-! SUPPORT. Precise traps: the record that a trap writes, the report of a halt on its way to the Scribe Complex, and what takes the illegal-encoding
trap or nothing before an instruction's work. -/

namespace Sys2Proof.Machine

/-! ## The record of a trap (R61, R65) -/

/-- The record of a precise trap reads as its fields. -/
theorem eventRecord_trap_fields {pc code source detail gen : Nat} (pc_fits : pc < 2 ^ 13) (code_fits : code < 256) (source_fits : source < 8)
    (detail_fits : detail < 2 ^ 27) : let r := eventRecord 2 code (trapInfo pc source detail) gen
    fieldOf r 60 4 = 2 ∧ bitOf r 59 = false ∧ fieldOf r 51 8 = gen % 256 ∧ fieldOf r 43 8 = code ∧ fieldOf r 30 13 = pc ∧ fieldOf r 27 3 = source ∧
      fieldOf r 0 27 = detail := by
  have fits : 2 % 16 * 2 ^ 60 + gen % 256 * 2 ^ 51 + code % 256 * 2 ^ 43 + trapInfo pc source detail % 2 ^ 43 < 2 ^ 64 := by omega
  have info : trapInfo pc source detail = pc * 2 ^ 30 + source * 2 ^ 27 + detail := by
    rw [trapInfo, Nat.mod_eq_of_lt pc_fits, Nat.mod_eq_of_lt source_fits, Nat.mod_eq_of_lt detail_fits]
  refine ⟨(fieldOf_ofNat fits _ _).trans ?_, bitOf_ofNat (by decide) ?_, (fieldOf_ofNat fits _ _).trans ?_, (fieldOf_ofNat fits _ _).trans ?_,
    (fieldOf_ofNat fits _ _).trans ?_, (fieldOf_ofNat fits _ _).trans ?_, (fieldOf_ofNat fits _ _).trans ?_⟩ <;>
    simp only [info, bit, Bool.false_eq_true, if_false] <;> omega

section
variable {e : Env} {code source detail : Nat} {c : Core}

/-- The record of a precise trap of this core. -/
def Core.trapRecord (e : Env) (code source detail : Nat) (c : Core) : Word := eventRecord 2 code (trapInfo c.ctl.pc source detail) e.gen

theorem Core.preciseTrap_same (e : Env) (code source detail : Nat) (c : Core) : let t := c.preciseTrap e code source detail
    t.ctl.evtPc = c.ctl.pc ∧ t.ctl.pc = c.ctl.pc ∧ t.ctl.sreg = c.ctl.sreg ∧ t.well = c.well ∧ t.lig = c.lig := by
  simp only [Core.preciseTrap]
  split <;> exact ⟨rfl, rfl, rfl, rfl, rfl⟩

theorem Core.preciseTrap_event (events : c.ctl.evEn = true) (outside : c.ctl.inHandler = false) : let t := c.preciseTrap e code source detail
    t.ctl.evq = c.ctl.evq ++ [c.trapRecord e code source detail] ∧ t.ctl.trapped = true ∧ t.ctl.halted = c.ctl.halted := by
  simp [Core.preciseTrap, events, outside, Core.trapRecord]

theorem Core.preciseTrap_halts (unhandled : ¬(c.ctl.evEn = true ∧ c.ctl.inHandler = false)) : let t := c.preciseTrap e code source detail
    t.ctl.halted = true ∧ t.ctl.running = false ∧ t.ctl.haltRec = c.trapRecord e code source detail := by
  have no_event : (c.ctl.evEn && !c.ctl.inHandler) = false := by simpa using unhandled
  simp [Core.preciseTrap, no_event, Core.trapRecord]

end

/-! ## A packet of the hairline network and another core (R254, R258, R356) -/

section
variable (s : State) (i : Nat) (c : Core)

theorem State.hubRoute_setCore (b n : Nat) (turn : Option Nat) (a : Nat) : (s.setCore i c).hubRoute b n turn a = s.hubRoute b n turn a := by
  induction n generalizing turn a with
  | zero => rfl
  | succ n ih =>
    simp only [State.hubRoute, ih]
    rfl

theorem State.hairline_setCore (l : List (Nat × Nat)) : (s.setCore i c).hairline l = ((s.hairline l).1, (s.hairline l).2.setCore i c) := by
  induction l generalizing s with
  | nil => rfl
  | cons x l ih =>
    simp only [State.hairline]
    rw [show (s.setCore i c).hubCut x.1 x.2 = s.hubCut x.1 x.2 from rfl]
    split
    · rfl
    · exact ih (s.mapCluster x.1 fun k => k.bump fLigHlPacketsCount 1)

theorem State.hubWaits_setCore (a b : Nat) : (s.setCore i c).hubWaits a b = s.hubWaits a b := by
  simp only [State.hubWaits, State.waitsAt, State.hubWay, State.hubRoute_setCore]
  rfl

theorem State.send_setCore (a b : Nat) : ((s.setCore i c).send a b).1 = (s.send a b).1 := by
  simp only [State.send, State.hubWay, State.hubRoute_setCore, State.hairline_setCore]

end

theorem State.hairline_notes (l : List (Nat × Nat)) (s : State) : (s.hairline l).2.notes = s.notes := by
  induction l generalizing s with
  | nil => rfl
  | cons x l ih =>
    simp only [State.hairline]
    split
    · rfl
    · exact ih _

theorem State.noteFrom_waits {s : State} {n : Nat} (x : Note) (waits : s.hubWaits n (scribeHub n) = true) :
    s.noteFrom n x = { s with hubHeld := s.hubHeld ++ [.report n (scribeHub n) x] } := if_pos waits

theorem State.noteFrom_sent {s : State} {n : Nat} (x : Note) (goes : s.hubWaits n (scribeHub n) = false) :
    (s.noteFrom n x).notes = if (s.send n (scribeHub n)).1 then s.notes ++ [x] else s.notes := by
  have same : (s.send n (scribeHub n)).2.notes = s.notes := State.hairline_notes _ s
  simp only [State.noteFrom, State.hubSend, goes, Bool.false_eq_true, if_false]
  cases (s.send n (scribeHub n)).1
  · exact same
  · exact congrArg (· ++ [x]) same

/-! ## Traps and guards at issue (R43, R44, R65, R66) -/

/-- A trap that the core handles itself stays its own; any other halts the core, and the Scribe Complex is told (R66). -/
theorem State.trapAt_notes {s : State} {i : CoreId} {code source detail : Nat} (runs : (s.core i.val).ctl.halted = false) :
    let k := (s.core i.val).ctl
    let t := s.trapAt i code source detail
    let x : Note := .coreHalted i.val (s.env i.val).region (s.env i.val).gen
    let n := clusterOfCore i.val
    (k.evEn = true → k.inHandler = false → t.notes = s.notes) ∧
    (¬(k.evEn = true ∧ k.inHandler = false) →
      (s.hubWaits n (scribeHub n) = true → t.notes = s.notes ∧ t.hubHeld = s.hubHeld ++ [.report n (scribeHub n) x]) ∧
      (s.hubWaits n (scribeHub n) = false → t.notes = if (s.send n (scribeHub n)).1 then s.notes ++ [x] else s.notes)) := by
  intro k t x n
  refine ⟨fun events outside => ?_, fun unhandled => ?_⟩
  · obtain ⟨-, -, halted⟩ := Core.preciseTrap_event (e := s.env i.val) (code := code) (source := source) (detail := detail) events outside
    have same : t = s.setCore i.val _ := State.putCore_eq _ _ _ fun h => halted.symm.trans h
    rw [same]
    rfl
  · obtain ⟨halted, -, -⟩ := Core.preciseTrap_halts (e := s.env i.val) (code := code) (source := source) (detail := detail) unhandled
    have told : t = (s.setCore i.val _).noteFrom n x := State.putCore_halted _ _ _ halted runs
    refine ⟨fun waits => ?_, fun goes => ?_⟩
    · rw [told, State.noteFrom_waits x (by rwa [State.hubWaits_setCore])]
      exact ⟨rfl, rfl⟩
    · rw [told, State.noteFrom_sent x (by rwa [State.hubWaits_setCore]), State.send_setCore]
      rfl

/-- A false guard makes the instruction a nop (R43). -/
theorem Fetches.guarded {op : Nat} {bad : Word → Bool} {i : CoreId} {w : Word} {s : State} (h : Fetches i w s) (row : opOf w = op)
    (legal : bad w = false) (off : guardOn w (s.core i.val).ctl = false) (room : Room i s) (source : Nat) (body : Env → Word → Core → Issue) :
    issueRow op source bad body i.val w s = .next (s.issuedCtl i (s.core i.val).ctl) := by
  have past : (s.core i.val).past (s.env i.val) (s.core i.val).ctl.pc =
      { s.core i.val with ctl := (s.core i.val).ctl.advance (s.core i.val).ctl.pc } := if_pos room
  have issue : Core.issueWord (s.env i.val) op source bad body w (s.core i.val) = (s.core i.val).past (s.env i.val) (s.core i.val).ctl.pc := by
    simp [Core.issueWord, row, h.can, h.heldOk, h.clean, legal, off]
  have mine : (opOf w != op && assigned (opOf w)) = false := by simp [row]
  simp only [issueRow, mine, Bool.false_eq_true, if_false, issue, past]
  exact congrArg Host.Outcome.next (State.putCore_eq s i.val _ id)

/-- A poisoned code-store word takes the illegal-encoding trap, whatever its row (R44, R181). -/
theorem issueRow_poisoned {op : Nat} {i : CoreId} {w : Word} {s : State} (row : opOf w = op) (can : (s.core i.val).canIssue (s.env i.val) = true)
    (held : (s.core i.val).ctl.held = none) (poisoned : (s.core i.val).ctl.codePoison.look (s.core i.val).ctl.pc false = true) (source : Nat)
    (bad : Word → Bool) (body : Env → Word → Core → Issue) : issueRow op source bad body i.val w s = .next (s.trapAt i 1 0 (freeDetail 1 w)) := by
  simp [issueRow, Core.issueWord, row, can, held, poisoned, State.trapAt]

/-- An instruction that has sent no far operation sends none off its device (R226). -/
theorem State.farOut_same (before : State) (i : Nat) {s : State} (unsent : (s.core i).lig.farSeq = (before.core i).lig.farSeq) :
    before.farOut i s = s := by
  simp only [State.farOut, unsent, if_true]
  cases (s.core i).lig.applied.getLast? <;> rfl

/-- Settles O15: encoding and guard of the scalar rows, the record of a trap and where it goes, and a poisoned word of any row. -/
theorem guardsAndPreciseTraps : Obligations.GuardsAndPreciseTraps := by
  unfold Obligations.GuardsAndPreciseTraps
  refine ⟨fun op mk f row i w s h ho => ⟨fun bad => ?_, fun legal off room => ?_⟩,
    fun i code source detail s runs code_fits source_fits detail_fits pc_fits => ?_, fun op mk row i w s ho can held poisoned => ?_⟩
  · rw [exec_scalarRows _ row]
    exact h.illegal ho bad 0 _
  · rw [exec_scalarRows _ row]
    exact h.guarded ho legal off room 0 _
  · intro k t
    have trapped : t.core i.val = (s.core i.val).preciseTrap (s.env i.val) code source detail := State.core_putCore_same ..
    obtain ⟨cls, stale, gen, codes, idx, src, dtl⟩ :=
      eventRecord_trap_fields (gen := (s.env i.val).gen) pc_fits code_fits source_fits detail_fits
    obtain ⟨evtPc, pc, sreg, well, -⟩ := (s.core i.val).preciseTrap_same (s.env i.val) code source detail
    obtain ⟨kept, told⟩ := s.trapAt_notes (code := code) (source := source) (detail := detail) runs
    refine ⟨(s.core i.val).trapRecord (s.env i.val) code source detail, cls, stale, gen, codes, idx, src, dtl, ?_⟩
    rw [trapped]
    refine ⟨evtPc, pc, sreg, well, ?_⟩
    split
    next handled =>
      obtain ⟨evq, traps, -⟩ := Core.preciseTrap_event (e := s.env i.val) (code := code) (source := source) (detail := detail) handled.1 handled.2
      exact ⟨evq, traps, kept handled.1 handled.2⟩
    next unhandled =>
      obtain ⟨halted, running, haltRec⟩ := Core.preciseTrap_halts (e := s.env i.val) (code := code) (source := source) (detail := detail) unhandled
      exact ⟨halted, running, haltRec, told unhandled⟩
  · obtain ⟨source, bad, body, issue⟩ | issue := exec_wordRows _ row i w s
    · exact issue.trans (issueRow_poisoned ho can held poisoned source bad body)
    · refine issue.trans ?_
      rw [ligFire, issueRow_poisoned ho can held poisoned]
      obtain ⟨-, -, -, -, lig⟩ := (s.core i.val).preciseTrap_same (s.env i.val) 1 0 (freeDetail 1 w)
      refine congrArg Host.Outcome.next (State.farOut_same s i.val ?_)
      exact (congrArg (·.lig.farSeq) (State.core_putCore_same ..)).trans (congrArg (·.farSeq) lig)

end Sys2Proof.Machine

/-! SUPPORT. The well's ports: what the checks of an access leave unchanged, what a read and a write do to the memory, and from them the loads and stores
of the control unit. -/

namespace Sys2Proof.Machine

/-! ## What an access to the well leaves unchanged (R148, R150 to R158) -/

/-- `d` has what the program and the engines of `c` compute with, but for the well. -/
structure Core.SameEngines (c d : Core) : Prop where
  ctl : Ctl.SameWork c.ctl d.ctl
  rsv : d.rsv = c.rsv
  mx : d.mx = c.mx
  vx : d.vx = c.vx
  cp : d.cp = c.cp
  ch : d.ch = c.ch
  lig : d.lig = c.lig

/-- `d` has the memory of the well of `c` besides. -/
structure Core.SameData (c d : Core) : Prop extends Core.SameEngines c d where
  mem : d.well.mem = c.well.mem

theorem Core.SameEngines.refl (c : Core) : Core.SameEngines c c := ⟨.refl _, rfl, rfl, rfl, rfl, rfl, rfl⟩

theorem Core.SameData.refl (c : Core) : Core.SameData c c := ⟨.refl c, rfl⟩

theorem Core.SameEngines.trans {b c d : Core} (h : Core.SameEngines b c) (h' : Core.SameEngines c d) : Core.SameEngines b d :=
  ⟨h.ctl.trans h'.ctl, h'.rsv.trans h.rsv, h'.mx.trans h.mx, h'.vx.trans h.vx, h'.cp.trans h.cp, h'.ch.trans h.ch, h'.lig.trans h.lig⟩

theorem Core.SameData.trans {b c d : Core} (h : Core.SameData b c) (h' : Core.SameData c d) : Core.SameData b d :=
  ⟨h.toSameEngines.trans h'.toSameEngines, h'.mem.trans h.mem⟩

section
variable (e : Env) (c : Core)

theorem Core.setReg_sameData (off : Nat) (w : Word) : Core.SameData c (c.setReg off w) := ⟨⟨.refl _, rfl, rfl, rfl, rfl, rfl, rfl⟩, rfl⟩

theorem Core.setFld_sameData (f : Fld) (v : Nat) : Core.SameData c (c.setFld f v) := c.setReg_sameData _ _

theorem Core.bump_sameData (f : Fld) (n : Nat) : Core.SameData c (c.bump f n) := c.setFld_sameData _ _

theorem Core.enqueue_sameData (r : Word) : Core.SameData c (c.enqueue r) := by
  refine ⟨⟨c.enqueue_sameWork r, ?_, ?_, ?_, ?_, ?_, ?_⟩, ?_⟩ <;> unfold Core.enqueue <;> split <;> rfl

theorem Core.asyncTrap_sameData (code idx source detail : Nat) : Core.SameData c (c.asyncTrap e code idx source detail) :=
  .trans (c := { c with ctl := { c.ctl with breach := c.ctl.breach || decide (code = 4), trapSeen := true } })
    ⟨⟨⟨⟨rfl, rfl, rfl, rfl, rfl, rfl, rfl⟩, rfl, rfl⟩, rfl, rfl, rfl, rfl, rfl, rfl⟩, rfl⟩ (Core.enqueue_sameData _ _)

theorem Core.report_sameData (kind : ReportKind) (detail : Nat) : Core.SameData c (c.report e kind detail) := by
  unfold Core.report
  split
  · exact ⟨⟨.refl _, rfl, rfl, rfl, rfl, rfl, rfl⟩, rfl⟩
  · exact .refl c

theorem Core.putWell_sameData {x : Well} (mem : x.mem = c.well.mem) : Core.SameData c { c with well := x } :=
  ⟨⟨.refl _, rfl, rfl, rfl, rfl, rfl, rfl⟩, mem⟩

theorem Core.wellBreach_sameData (acc : Acc) (a pair : Nat) (write : Bool) : Core.SameData c (c.wellBreach e acc a pair write) := by
  have counted := (c.bump_sameData fWellBreachCountCount 1).trans (Core.setFld_sameData _ fWellStatusBreachSeen 1)
  simp only [Core.wellBreach]
  generalize (c.bump fWellBreachCountCount 1).setFld fWellStatusBreachSeen 1 = d at counted
  refine counted.trans ?_
  split
  · exact .refl d
  · refine .trans (c := { d with well := { d.well with breached := d.well.breached.set! pair true } }) (d.putWell_sameData rfl) ?_
    split
    · exact Core.asyncTrap_sameData ..
    · exact (Core.asyncTrap_sameData ..).trans (Core.setReg_sameData ..)

theorem Core.checkRoles_sameData (acc : Acc) (a : Nat) (write : Bool) : Core.SameData c (c.checkRoles e acc a write).2 := by
  simp only [Core.checkRoles]
  split
  · exact .refl c
  · split
    · exact .refl c
    · split
      · exact c.wellBreach_sameData e acc a _ write
      · exact .refl c

theorem Core.wellCheck_sameData (a : Nat) : Core.SameData c (c.wellCheck e a) := by
  unfold Core.wellCheck
  split
  · exact .refl c
  · exact (c.bump_sameData _ 1).trans ⟨⟨.refl _, rfl, rfl, rfl, rfl, rfl, rfl⟩, rfl⟩
  · have counted := (c.bump_sameData fWellEccUeCount 1).trans (Core.setFld_sameData _ fWellStatusUeSeen 1)
    refine .trans ?_ (Core.report_sameData e _ _ _)
    split
    · exact counted
    · exact counted.trans (Core.setReg_sameData _ _ _)

end

section
variable (e : Env) (acc : Acc)

theorem Reads.word_sameData (r : Reads) (a : Nat) : Core.SameData r.c (r.word e acc a).c := by
  have roles := r.c.checkRoles_sameData e acc a false
  have checked := roles.trans (Core.wellCheck_sameData e _ a)
  simp only [Reads.word]
  split
  · split
    · exact checked
    · exact (checked.trans (Core.bump_sameData _ _ 1)).trans (Core.asyncTrap_sameData e _ 3 _ _ _)
  · exact checked

theorem Reads.word_out (r : Reads) (a : Nat) : (r.word e acc a).out.length = r.out.length + 1 := by
  simp only [Reads.word]
  split
  · split <;> rfl
  · rfl

/-- A read through a port changes no memory, and answers one word for each address. -/
theorem Core.wellRead_spec (wsw : Bool) (as : List Nat) (c : Core) :
    Core.SameData c (c.wellRead e acc wsw as).2.1 ∧ (c.wellRead e acc wsw as).1.length = as.length := by
  have runs (r : Reads) : Core.SameData r.c (as.foldl (Reads.word e acc) r).c ∧
      (as.foldl (Reads.word e acc) r).out.length = r.out.length + as.length := by
    induction as generalizing r with
    | nil => exact ⟨.refl _, rfl⟩
    | cons a as ih =>
      obtain ⟨same, words⟩ := ih (r.word e acc a)
      refine ⟨(r.word_sameData e acc a).trans same, words.trans ?_⟩
      rw [r.word_out, List.length_cons]
      omega
  obtain ⟨same, words⟩ := runs ⟨c, wsw, []⟩
  exact ⟨same, by simpa [Core.wellRead] using words⟩

/-- A word write through a port leaves all but the well, of which it writes the word. -/
theorem Core.wellWrite_spec (c : Core) {ww : WordWrite} (real : ww.void = false) :
    Core.SameEngines c (c.wellWrite e acc ww) ∧
      ∃ poison, (c.wellWrite e acc ww).well.mem = c.well.mem.write { ww with poison := poison } := by
  have roles := c.checkRoles_sameData e acc ww.addr true
  simp only [Core.wellWrite, real, Bool.false_eq_true, if_false]
  split
  · refine ⟨roles.toSameEngines.trans ⟨.refl _, rfl, rfl, rfl, rfl, rfl, rfl⟩, ww.poison || (c.checkRoles e acc ww.addr true).1, ?_⟩
    exact congrArg (fun m : Mem => m.write { ww with poison := ww.poison || (c.checkRoles e acc ww.addr true).1 }) roles.mem
  · have checked := roles.trans (Core.wellCheck_sameData e _ ww.addr)
    refine ⟨checked.toSameEngines.trans ⟨.refl _, rfl, rfl, rfl, rfl, rfl, rfl⟩, ww.poison || (c.checkRoles e acc ww.addr true).1, ?_⟩
    exact congrArg (fun m : Mem => m.write { ww with poison := ww.poison || (c.checkRoles e acc ww.addr true).1 }) checked.mem

theorem Core.wellWrite_sameEngines (c : Core) (ww : WordWrite) : Core.SameEngines c (c.wellWrite e acc ww) := by
  cases void : ww.void with
  | false => exact (c.wellWrite_spec e acc void).1
  | true =>
    rw [Core.wellWrite, if_pos void]
    exact .refl c

theorem Core.wellWrites_sameEngines (ws : List WordWrite) (c : Core) : Core.SameEngines c (c.wellWrites e acc ws) :=
  List.foldlRecOn ws _ (motive := Core.SameEngines c) (.refl c) fun d same ww _ => same.trans (d.wellWrite_sameEngines e acc ww)

end

/-! ## What issue leaves of what the program sees -/

/-- `d` has the registers, the counters, the slots and the memories of `c`. -/
structure Core.SameView (c d : Core) : Prop where
  sreg : d.ctl.sreg = c.ctl.sreg
  spoison : d.ctl.spoison = c.ctl.spoison
  areg : d.ctl.areg = c.ctl.areg
  preg : d.ctl.preg = c.ctl.preg
  cc : d.ctl.cc = c.ctl.cc
  slots : d.ctl.slots = c.ctl.slots
  rsv : d.rsv = c.rsv
  mem : d.well.mem = c.well.mem

theorem Core.SameView.refl (c : Core) : Core.SameView c c := ⟨rfl, rfl, rfl, rfl, rfl, rfl, rfl, rfl⟩

theorem Core.preciseTrap_sameView (e : Env) (code source detail : Nat) (c : Core) : Core.SameView c (c.preciseTrap e code source detail) := by
  simp only [Core.preciseTrap]
  split <;> exact ⟨rfl, rfl, rfl, rfl, rfl, rfl, rfl, rfl⟩

theorem Core.past_sameView (e : Env) (idx : Nat) (c : Core) : Core.SameView c (c.past e idx) := by
  simp only [Core.past, Core.goto]
  split
  · exact ⟨rfl, rfl, rfl, rfl, rfl, rfl, rfl, rfl⟩
  · obtain ⟨sreg, spoison, areg, preg, cc, slots, rsv, mem⟩ := Core.preciseTrap_sameView e 7 0 0x2000
      { c with ctl := { c.ctl with loops := (afterIndex idx c.ctl.loops).1, pc := 8191, held := none } }
    exact ⟨sreg, spoison, areg, preg, cc, slots, rsv, mem⟩

theorem State.core_putCore_ne (s : State) {i j : Nat} (c : Core) (other : j ≠ i) : (s.putCore i c).core j = s.core j := by
  refine Eq.trans ?_ (s.core_setCore_ne c other)
  simp only [State.putCore]
  split
  · exact State.core_of_cores (State.noteFrom_cores ..) j
  · rfl

/-! ## s.ld and s.st (R47, R48, R64) -/

theorem wellAddr_eq (w : Word) (c : Core) : wellAddr w c = (c.ctl.a (fAd w) + if bitOf w 42 then 0 else w.toNat % 2 ^ 32) % 2 ^ 32 := by
  have small : c.ctl.a (fAd w) < 2 ^ 32 := by
    unfold Ctl.a
    split
    · decide
    · exact BitVec.isLt _
  unfold wellAddr
  split
  · exact (Nat.mod_eq_of_lt small).symm
  · rfl

/-- The post-increment writes its address register and nothing else. -/
theorem postInc_frame (w : Word) (k : Ctl) : (postInc w k).sreg = k.sreg ∧ (postInc w k).spoison = k.spoison ∧ (postInc w k).preg = k.preg ∧
    (postInc w k).cc = k.cc ∧ (postInc w k).slots = k.slots ∧ (postInc w k).halted = k.halted ∧ (postInc w k).loops = k.loops := by
  simp only [postInc, Ctl.setA]
  split
  · split <;> exact ⟨rfl, rfl, rfl, rfl, rfl, rfl, rfl⟩
  · exact ⟨rfl, rfl, rfl, rfl, rfl, rfl, rfl⟩

theorem postInc_a_ne (w : Word) (k : Ctl) {r : Nat} (other : r % 16 ≠ fAd w % 16 ∨ bitOf w 42 = false) : (postInc w k).a r = k.a r := by
  obtain other | fixed := other
  · simp only [postInc, Ctl.setA]
    split
    · split
      · rfl
      · simp only [Ctl.a, getElem!_set!_ne _ _ other]
    · rfl
  · simp [postInc, fixed]

section
variable (e : Env) (w : Word) (c : Core)

/-- The core after s.ld has read its word. -/
def Core.loaded : Core :=
  let r := c.wellRead e ⟨0, 0, c.ctl.pc⟩ false [wellAddr w c]
  let v := r.1.headD (0, false)
  { r.2.1 with ctl := (postInc w r.2.1.ctl).setS (fSd w) v.1 v.2 }

/-- The word that s.st writes. -/
def storedWord : WordWrite := ⟨wellAddr w c, BitVec.allOnes 8, c.ctl.s (fSd w), c.ctl.sp (fSd w)⟩

/-- The core after s.st has written its word. -/
def Core.stored : Core :=
  let c' := c.wellWrite e ⟨0, 0, c.ctl.pc⟩ (storedWord w c)
  { c' with ctl := postInc w c'.ctl }

/-- s.ld and s.st alike: a pending register holds issue, an address outside the well traps, any other is accessed. -/
theorem workSLd_eq : workSLd e w c = if c.ctl.busy (fSd w) then .stall else
    if 2 ^ 19 ≤ wellAddr w c then .trap 5 0 (wellAddr w c % 2 ^ 27) else .next (c.loaded e w) := by
  unfold workSLd
  rfl

theorem workSSt_eq : workSSt e w c = if c.ctl.busy (fSd w) then .stall else
    if 2 ^ 19 ≤ wellAddr w c then .trap 5 0 (wellAddr w c % 2 ^ 27) else .next (c.stored e w) := by
  unfold workSSt
  rfl

theorem storedWord_void : (storedWord w c).void = false := by simp [WordWrite.void, storedWord]

theorem Core.loaded_issue : (c.loaded e w).ctl.halted = c.ctl.halted ∧ (c.loaded e w).ctl.loops = c.ctl.loops := by
  obtain ⟨same, -⟩ := c.wellRead_spec e ⟨0, 0, c.ctl.pc⟩ false [wellAddr w c]
  obtain ⟨-, -, -, -, -, halted, loops⟩ := postInc_frame w (c.wellRead e ⟨0, 0, c.ctl.pc⟩ false [wellAddr w c]).2.1.ctl
  exact ⟨((Ctl.setS_halted ..).trans halted).trans same.ctl.halted, ((Ctl.setS_loops ..).trans loops).trans same.ctl.loops⟩

theorem Core.stored_issue : (c.stored e w).ctl.halted = c.ctl.halted ∧ (c.stored e w).ctl.loops = c.ctl.loops := by
  have same := c.wellWrite_sameEngines e ⟨0, 0, c.ctl.pc⟩ (storedWord w c)
  obtain ⟨-, -, -, -, -, halted, loops⟩ := postInc_frame w (c.wellWrite e ⟨0, 0, c.ctl.pc⟩ (storedWord w c)).ctl
  exact ⟨halted.trans same.ctl.halted, loops.trans same.ctl.loops⟩

end

/-- What a load to register `r` or a store leaves: the other registers, but for the post-increment, the counters, the slots and the reservoir. -/
structure Core.AccessFrame (w : Word) (r : Nat) (c d : Core) : Prop where
  rsv : d.rsv = c.rsv
  s : ∀ m, m % 32 ≠ r % 32 → d.ctl.s m = c.ctl.s m ∧ d.ctl.sp m = c.ctl.sp m
  a : ∀ m, m % 16 ≠ fAd w % 16 ∨ bitOf w 42 = false → d.ctl.a m = c.ctl.a m
  preg : d.ctl.preg = c.ctl.preg
  cc : d.ctl.cc = c.ctl.cc
  slots : d.ctl.slots = c.ctl.slots

theorem Core.SameView.accessFrame {c d d' : Core} (h : Core.SameView d d') {w : Word} {r : Nat} (frame : Core.AccessFrame w r c d) :
    Core.AccessFrame w r c d' where
  rsv := h.rsv.trans frame.rsv
  s m other := by simpa only [Ctl.s, Ctl.sp, h.sreg, h.spoison] using frame.s m other
  a m other := by simpa only [Ctl.a, h.areg] using frame.a m other
  preg := h.preg.trans frame.preg
  cc := h.cc.trans frame.cc
  slots := h.slots.trans frame.slots

theorem Core.AccessFrame.refl (w : Word) (r : Nat) (c : Core) : Core.AccessFrame w r c c :=
  ⟨rfl, fun _ _ => ⟨rfl, rfl⟩, fun _ _ => rfl, rfl, rfl, rfl⟩

/-- The post-increment stays in the frame of the access. -/
theorem Core.SameEngines.accessFrame_postInc {c d : Core} (h : Core.SameEngines c d) (w : Word) (r : Nat) :
    Core.AccessFrame w r c { d with ctl := postInc w d.ctl } := by
  obtain ⟨sreg, spoison, preg, cc, slots, -, -⟩ := postInc_frame w d.ctl
  refine ⟨h.rsv, fun m _ => ?_, fun m other => ?_, preg.trans h.ctl.preg, cc.trans h.ctl.cc, slots.trans h.ctl.slots⟩
  · simp only [Ctl.s, Ctl.sp, sreg, spoison, h.ctl.sreg, h.ctl.spoison, and_self]
  · exact (postInc_a_ne w d.ctl other).trans (by simp only [Ctl.a, h.ctl.areg])

/-- So does a result written to the register after it. -/
theorem Core.SameEngines.accessFrame_result {c d : Core} (h : Core.SameEngines c d) (w : Word) (r : Nat) (v : Word) (poison : Bool) :
    Core.AccessFrame w r c { d with ctl := (postInc w d.ctl).setS r v poison } := by
  obtain ⟨rsv, s, a, preg, cc, slots⟩ := h.accessFrame_postInc w r
  obtain ⟨areg', preg', cc', slots', -, -⟩ := (postInc w d.ctl).setS_frame (n := r) v poison
  refine ⟨rsv, fun m other => ?_, fun m other => ?_, preg'.trans preg, cc'.trans cc, slots'.trans slots⟩
  · obtain ⟨value, mark⟩ := (postInc w d.ctl).s_setS_ne v poison other
    exact ⟨value.trans (s m other).1, mark.trans (s m other).2⟩
  · rw [← a m other]
    simp only [Ctl.a, areg']

theorem Core.loaded_frame (e : Env) (w : Word) (c : Core) :
    Core.AccessFrame w (fSd w) c (c.loaded e w) ∧ (c.loaded e w).well.mem = c.well.mem := by
  obtain ⟨same, -⟩ := c.wellRead_spec e ⟨0, 0, c.ctl.pc⟩ false [wellAddr w c]
  exact ⟨same.accessFrame_result w (fSd w) _ _, same.mem⟩

theorem Core.stored_frame (e : Env) (w : Word) (c : Core) : Core.AccessFrame w 0 c (c.stored e w) :=
  (c.wellWrite_sameEngines e ⟨0, 0, c.ctl.pc⟩ (storedWord w c)).accessFrame_postInc w 0

/-- A store writes its eight bytes and no other. -/
theorem Core.stored_bytes (e : Env) (w : Word) (c : Core) :
    (∀ b, b < 8 * wellAddr w c ∨ 8 * wellAddr w c + 8 ≤ b → (c.stored e w).well.mem.byte b = c.well.mem.byte b) ∧
    ∀ n, n < 8 → (c.stored e w).well.mem.byte (8 * wellAddr w c + n) = byteOf (c.ctl.s (fSd w)) n := by
  obtain ⟨-, poison, mem⟩ := c.wellWrite_spec e ⟨0, 0, c.ctl.pc⟩ (storedWord_void w c)
  have written : (c.stored e w).well.mem = c.well.mem.write { storedWord w c with poison := poison } := mem
  rw [written]
  refine ⟨fun b outside => Mem.byte_write_other _ _ b outside, fun n hn => Mem.byte_write_same _ _ n hn ?_⟩
  simp only [storedWord, BitVec.getLsbD_allOnes, decide_eq_true_eq]
  exact hn

/-- Whatever an access at issue comes to, each other core is as before, and the core sees what it saw or what the access left. -/
theorem Issues.access {op : Nat} {i : CoreId} {w : Word} {s t : State} (h : Issues op resvM i w s) {body : Env → Word → Core → Issue} {d : Core}
    (work : body (s.env i.val) w (s.core i.val) = if (s.core i.val).ctl.busy (fSd w) then .stall else
      if 2 ^ 19 ≤ wellAddr w (s.core i.val) then .trap 5 0 (wellAddr w (s.core i.val) % 2 ^ 27) else .next d)
    (after : issueRow op 0 resvM body i.val w s = .next t) :
    (∀ j, j ≠ i.val → t.core j = s.core j) ∧
      if (s.core i.val).ctl.busy (fSd w) = false ∧ wellAddr w (s.core i.val) < 2 ^ 19 then Core.SameView d (t.core i.val)
      else Core.SameView (s.core i.val) (t.core i.val) := by
  rw [h.row_eq, work] at after
  obtain rfl := Host.Outcome.next.inj after
  refine ⟨fun j other => State.core_putCore_ne _ _ other, ?_⟩
  rw [State.core_putCore_same]
  by_cases pending : (s.core i.val).ctl.busy (fSd w) = true
  · rw [if_pos pending, if_neg (by simp [pending])]
    exact ⟨rfl, rfl, rfl, rfl, rfl, rfl, rfl, rfl⟩
  · have ready := Bool.eq_false_of_not_eq_true pending
    rw [if_neg pending]
    by_cases outside : 2 ^ 19 ≤ wellAddr w (s.core i.val)
    · rw [if_pos outside, if_neg (by omega)]
      exact Core.preciseTrap_sameView ..
    · rw [if_neg outside, if_pos ⟨ready, by omega⟩]
      exact Core.past_sameView ..

/-- Settles O10: the three ways of an access at issue, and its frame whatever it comes to. -/
theorem wellLoadsAndStores : Obligations.WellLoadsAndStores := by
  unfold Obligations.WellLoadsAndStores
  refine ⟨fun i w s => ?_, fun i w s => ?_⟩
  · intro c a ready
    have addr : wellAddr w c = a := wellAddr_eq w c
    rw [← addr]
    refine ⟨fun h outside => ?_, fun h outside => ?_, fun h room inside => ?_, fun h room inside => ?_⟩
    · exact h.trap 0 workSLd 5 0 _ (by rw [workSLd_eq, ready, if_neg Bool.false_ne_true, if_pos outside])
    · exact h.trap 0 workSSt 5 0 _ (by rw [workSSt_eq, ready, if_neg Bool.false_ne_true, if_pos outside])
    · obtain ⟨halted, loops⟩ := c.loaded_issue (s.env i.val) w
      exact h.moveOn room 0 workSLd (c := c.loaded (s.env i.val) w)
        (by rw [workSLd_eq, ready, if_neg Bool.false_ne_true, if_neg (Nat.not_le.mpr inside)]) halted loops
    · obtain ⟨halted, loops⟩ := c.stored_issue (s.env i.val) w
      exact h.moveOn room 0 workSSt (c := c.stored (s.env i.val) w)
        (by rw [workSSt_eq, ready, if_neg Bool.false_ne_true, if_neg (Nat.not_le.mpr inside)]) halted loops
  · intro c a same
    have framed {t : State} {r : Nat} (others : ∀ j, j ≠ i.val → t.core j = s.core j) (frame : Core.AccessFrame w r c (t.core i.val)) : same t r :=
      ⟨others, frame.rsv, frame.s, frame.a, frame.preg, frame.cc, frame.slots⟩
    refine ⟨fun t h after => ?_, fun t h after => ?_⟩
    · obtain ⟨others, view⟩ := h.access (workSLd_eq ..) after
      split at view
      · obtain ⟨frame, mem⟩ := c.loaded_frame (s.env i.val) w
        exact ⟨framed others (view.accessFrame frame), fun b => congrArg (·.byte b) (view.mem.trans mem)⟩
      · exact ⟨framed others (view.accessFrame (.refl ..)), fun b => congrArg (·.byte b) view.mem⟩
    · obtain ⟨others, view⟩ := h.access (workSSt_eq ..) after
      split at view
      · obtain ⟨outside, inside⟩ := c.stored_bytes (s.env i.val) w
        rw [view.mem]
        exact ⟨framed others (view.accessFrame (c.stored_frame ..)), outside, fun _ _ => inside⟩
      next none_done =>
        rw [view.mem]
        exact ⟨framed others (view.accessFrame (.refl ..)), fun _ _ => rfl, fun ready inside => absurd ⟨ready, inside⟩ none_done⟩

end Sys2Proof.Machine

/-! SUPPORT. Ligature instructions at issue: what a ligature fault and a pending result leave of issue, the work of the ligature rows case by case, and the
packet of a far operation. -/

namespace Sys2Proof.Machine

/-! ## What the ligature rows leave of issue -/

theorem Ctl.hold_issue (k : Ctl) (n : Nat) : (k.hold n).halted = k.halted ∧ (k.hold n).loops = k.loops := by
  unfold Ctl.hold
  split <;> exact ⟨rfl, rfl⟩

theorem Core.enqueue_lig (c : Core) (r : Word) : (c.enqueue r).lig = c.lig := (c.enqueue_sameData r).lig

/-- A ligature fault is the core's event, and no operation of a ligature (R225). -/
theorem Core.ligFault_lig (e : Env) (code info : Nat) (c : Core) : (c.ligFault e code info).lig = c.lig := by
  have faulted : (c.faulted code).lig = c.lig := by
    unfold Core.faulted
    split <;> rfl
  rw [Core.ligFault_eq]
  split
  · exact faulted
  · exact (Core.enqueue_lig _ _).trans faulted

/-! ## The work of a ligature row (R217, R218, R221) -/

section
variable {e : Env} {w : Word} {c : Core} {sb dest : Bool} {bound : Nat → Bool}

/-- An operation on a ligature of the core's own region joins the queue. -/
theorem workLig_near (ready : c.regsReady w true (sb || dest) = true) (clean : c.regsPoisoned w true sb = false)
    (near : bitOf w 0 = false ∨ 0xE1 < opOf w) (inside : (ligCluster e (c.engOp e w).sa.toNat).isSome = true) (space : c.ligFull = false) :
    workLig sb dest bound e w c = if opOf w = 0xE2 then .stay { ligPut (c.engOp e w) c with ctl := { c.ctl with ligWait := some (c.engOp e w) } }
      else .next (if dest then { ligPut (c.engOp e w) c with ctl := c.ctl.hold (eSb w) } else ligPut (c.engOp e w) c) := by
  have not_far : (bitOf w 0 && decide (opOf w ≤ 0xE1)) = false := by
    obtain near | near := near
    · simp [near]
    · simp [Nat.not_le.mpr near]
  obtain ⟨n, cluster⟩ := Option.isSome_iff_exists.mp inside
  simp [workLig, ready, clean, not_far, cluster, space, ligPut]

/-- A name outside the region is a fault event and nothing else (R225). -/
theorem workLig_outside (ready : c.regsReady w true (sb || dest) = true) (clean : c.regsPoisoned w true sb = false) (near : bitOf w 0 = false)
    (outside : ligCluster e (c.engOp e w).sa.toNat = none) :
    workLig sb dest bound e w c = .next (c.ligFault e 1 (ligInfo (c.engOp e w).sa.toNat 0 c.ctl.pc)) := by
  simp [workLig, ready, clean, near, outside]

/-- A far operation with a binding leaves the core as sent (R226). -/
theorem workLig_far (ready : c.regsReady w true (sb || dest) = true) (clean : c.regsPoisoned w true sb = false) (far : bitOf w 0 = true)
    (row : opOf w ≤ 0xE1) (operand : (c.engOp e w).sa.toNat < 2 ^ 17) (binding : bound (fieldOf w 1 8) = true) (space : c.ligFull = false) :
    workLig sb dest bound e w c = .next (ligFar (c.engOp e w) c) := by
  rw [workLig]
  simp only [ready, clean, far, row, if_neg (Nat.not_le.mpr operand), binding, space, Bool.true_and, decide_true, Bool.not_true,
    Bool.false_eq_true, if_false, if_true]

theorem workLigTstat_ready (ready : c.regsReady w true false = true) (space : c.ligFull = false) :
    workLigTstat e w c = .next { ligPut (c.engOp e w) c with ctl := c.ctl.hold (eSa w) } := by
  simp [workLigTstat, ready, space, ligPut]

end

/-! ## The packet of a far operation (R226) -/

/-- An operation that the core has just sent leaves for its binding's device, with its name, its sequence number, its binding and its index, and
waits for the vote at a core whose messages are held for a check. -/
theorem State.farOut_sent (before : State) (i : Nat) {s : State} {l : List LigDone} {d : LigDone} {b : Binding}
    (sent : (s.core i).lig.applied = l ++ [d]) (counted : (s.core i).lig.farSeq = (before.core i).lig.farSeq + 1)
    (binding : s.bindings.look (256 * (before.env i).region + fieldOf d.op.w 1 8) none = some b) :
    ∃ p : FabPkt, before.farOut i s = s.await p 16 16 false (if s.voteMark i = 0 then 0 else 4) ∧ p.dstDev = b.dev ∧ p.dstRegion = b.region ∧
      p.gen = b.gen ∧ p.cls = 3 ∧ p.kind = 5 ∧
      p.body = .lig (opOf d.op.w = 0xE1) (d.op.sa.toNat % 2 ^ 17) (before.core i).lig.farSeq (fieldOf d.op.w 1 8) d.op.pc := by
  simp only [State.farOut, sent, List.getLast?_concat, counted, Nat.add_eq_left, one_ne_zero, if_false, binding]
  exact ⟨_, rfl, rfl, rfl, rfl, rfl, rfl, rfl⟩

section
variable {op : Nat} {i : CoreId} {w : Word} {s : State} {c : Core}

/-- lig.arrive and lig.signal that send nothing off their device end as their row does. -/
theorem ligFire_near (unsent : c.lig.farSeq = (s.core i.val).lig.farSeq)
    (issue : issueRow op 5 resvLigFire (workLig false false (s.bound i.val)) i.val w s = .next (s.issued i c)) :
    ligFire op i w s = .next (s.issued i c) := by
  rw [ligFire, issue]
  exact congrArg Host.Outcome.next (State.farOut_same s i.val ((congrArg (·.lig.farSeq) (State.core_issued s i c)).trans unsent))

/-- A far operation ends its row as sent, with its packet waiting. -/
theorem ligFire_far {o : EngOp} {b : Binding} (binding : s.bindings.look (256 * (s.env i.val).region + fieldOf o.w 1 8) none = some b)
    (issue : issueRow op 5 resvLigFire (workLig false false (s.bound i.val)) i.val w s = .next (s.issued i (ligFar o (s.core i.val)))) :
    ∃ p : FabPkt, ligFire op i w s = .next ((s.issued i (ligFar o (s.core i.val))).await p 16 16 false (if s.voteMark i.val = 0 then 0 else 4)) ∧
      p.dstDev = b.dev ∧ p.dstRegion = b.region ∧ p.gen = b.gen ∧ p.cls = 3 ∧ p.kind = 5 ∧
      p.body = .lig (opOf o.w = 0xE1) (o.sa.toNat % 2 ^ 17) (s.core i.val).lig.farSeq (fieldOf o.w 1 8) o.pc := by
  have core := State.core_issued s i (ligFar o (s.core i.val))
  obtain ⟨p, out, fields⟩ := State.farOut_sent s i.val (s := s.issued i (ligFar o (s.core i.val)))
    (d := ⟨o, BitVec.ofNat 64 (s.core i.val).lig.farSeq⟩) (congrArg (·.lig.applied) core)
    (congrArg (·.lig.farSeq) core) binding
  have mark : (s.issued i (ligFar o (s.core i.val))).voteMark i.val = s.voteMark i.val := by
    simp only [State.voteMark, core]
    rfl
  refine ⟨p, ?_, fields⟩
  rw [ligFire, issue, ← mark, ← out]

end

/-- Settles O17: the rows one by one. -/
theorem ligatureIssue : Obligations.LigatureIssue := by
  unfold Obligations.LigatureIssue
  intro i w s c e o
  refine ⟨fun op mk row h room ready clean => ?_, fun h ready clean inside space => ?_, fun h room ready clean inside space => ?_,
    fun h room ready clean inside space => ?_, fun h room ready space => ?_⟩
  · have fires : exec (mk i w) s = ligFire op i w s := by
      simp only [List.mem_cons, Prod.mk.injEq, List.not_mem_nil, or_false] at row
      obtain ⟨rfl, rfl⟩ | ⟨rfl, rfl⟩ := row <;> rfl
    have fire : opOf w ≤ 0xE1 := by
      simp only [List.mem_cons, Prod.mk.injEq, List.not_mem_nil, or_false] at row
      have := h.row
      omega
    rw [fires]
    refine ⟨fun near inside space => ?_, fun near outside => ?_, fun b far operand binding space => ?_⟩
    · refine ligFire_near (c := ligPut o c) rfl (h.moveOn room 5 _ ?_ rfl rfl)
      exact (workLig_near ready clean (.inl near) inside space).trans (if_neg (by omega))
    · have same := c.ligFault_sameWork e 1 (ligInfo o.sa.toNat 0 c.ctl.pc)
      exact ligFire_near (congrArg (·.farSeq) (c.ligFault_lig e 1 _))
        (h.moveOn room 5 _ (workLig_outside ready clean near outside) same.halted same.loops)
    · have bound : s.bound i.val (fieldOf w 1 8) = true := Option.isSome_iff_exists.mpr ⟨b, binding⟩
      obtain ⟨p, out, dev, region, gen, cls, kind, body⟩ := ligFire_far (o := o) binding
        (h.moveOn room 5 _ (workLig_far ready clean far fire operand bound space) rfl rfl)
      rw [Nat.mod_eq_of_lt operand] at body
      exact ⟨_, _, out, rfl, rfl, rfl, dev, region, gen, cls, kind, body⟩
  · exact h.stays 5 (workLig true false fun _ => false)
      ((workLig_near ready clean (.inr (by rw [h.row]; decide)) inside space).trans (if_pos h.row)) rfl
  · refine h.moveOn room 5 (workLig true false fun _ => false) (c := ligPut o c) ?_ rfl rfl
    exact (workLig_near ready clean (.inr (by rw [h.row]; decide)) inside space).trans (if_neg (by rw [h.row]; decide))
  · refine h.moveOn room 5 (workLig false true fun _ => false) (c := { ligPut o c with ctl := c.ctl.hold (eSb w) }) ?_ (c.ctl.hold_issue _).1
      (c.ctl.hold_issue _).2
    exact (workLig_near ready clean (.inr (by rw [h.row]; decide)) inside space).trans (if_neg (by rw [h.row]; decide))
  · exact h.moveOn room 5 workLigTstat (workLigTstat_ready ready space) (c.ctl.hold_issue _).1 (c.ctl.hold_issue _).2

end Sys2Proof.Machine

/-! SUPPORT. A ch.credit whose producer's name lies outside the region. -/

namespace Sys2Proof.Machine

/-- A device with region 0 of 2 x 1 clusters, 12 x 8 cores, on which core 0 runs; its landing zone 0 is enabled, and returns credits to the core at
x 100, y 0, outside the region. -/
def strayReturn : State :=
  ((({ State.reset with dev := .up }.setFld fClkClStatusLocked 1).setRgn 0 fRgnCfgEnable 1).setRgn 0 fRgnCfgWidth 1).setCore 0
    { (Core.reset.setFld fChLandAEnable 1).setFld fChLandBRetX 100 with ctl := { Ctl.reset with running := true } }

/-- ch.credit of one credit on landing zone 0. -/
def creditWord : Word := BitVec.ofNat 64 (0xD1 * 2 ^ 56 + 1 * 2 ^ 6)

/-- The row of ch.credit, whose checks are given as none. -/
def creditRow : EngineRow := channelRows[1]

theorem creditRow_mem : creditRow ∈ matrixRows ++ vectorRows ++ copyRows ++ channelRows := List.mem_append_right _ (List.getElem_mem _)

theorem strayReturn_issues : Issues 0xD1 (creditRow.bad 0 strayReturn) 0 creditWord strayReturn where
  can := by decide +kernel
  held := .inl (by decide +kernel)
  clean := by decide +kernel
  row := by decide +kernel
  legal := by decide +kernel
  on := by decide +kernel

/-- The name that the landing zone returns to is outside the region (R27). -/
theorem strayReturn_check : checkChCredit (strayReturn.env 0) creditWord (strayReturn.core 0) = some (2, nameDetail 100 0) := by
  have named : ((strayReturn.core 0).land (chEp creditWord) fChLandATarget = 5 ||
      ((strayReturn.core 0).ch.retTo.look (chEp creditWord) none).isSome) = false := by decide +kernel
  have x : (strayReturn.core 0).land (chEp creditWord) fChLandBRetX = 100 := by decide +kernel
  have y : (strayReturn.core 0).land (chEp creditWord) fChLandBRetY = 0 := by decide +kernel
  have outside : (strayReturn.env 0).inside 100 0 = false := by decide +kernel
  simp [checkChCredit, named, x, y, nameCheck, outside]

/-- ch.credit checks the name that its landing zone returns to, and traps (R27, R57). -/
theorem exec_strayReturn : exec (.chCredit 0 creditWord) strayReturn = .next (strayReturn.trapAt 0 2 4 (nameDetail 100 0)) :=
  strayReturn_issues.trap 4 (engIssue 4 false false false checkChCredit Core.chFull chPut) 2 4 _
    (by simp [engIssue, Core.regsReady, Core.regsPoisoned, strayReturn_check])

/-- Refutes O21: the row table gives ch.credit no checks, so the word above would enter the queue, where the model's ch.credit takes the address-range trap
for its return name and queues nothing. -/
theorem not_engineIssue : ¬ Obligations.EngineIssue := by
  unfold Obligations.EngineIssue
  intro h
  obtain ⟨-, -, issue⟩ := h creditRow creditRow_mem
  obtain ⟨-, checked⟩ := issue 0 creditWord strayReturn strayReturn_issues
  obtain ⟨-, enters⟩ := (checked (by decide +kernel)).2 (by decide +kernel)
  have queued := (enters.2 rfl (by decide +kernel) (by unfold Room; decide +kernel)).symm.trans exec_strayReturn
  have same := congrArg (fun s : State => (s.core 0).ch.queue.length) (Host.Outcome.next.inj queued)
  revert same
  decide +kernel

end Sys2Proof.Machine

/-! SUPPORT. Counters of a core's registers, the reservoir's check bits, and from them the completion of a copy and the reservoir's upkeep. -/

namespace Sys2Proof.Machine

/-! ## A core's registers -/

theorem Core.reg_setReg_same (c : Core) (o : Nat) (w : Word) : (c.setReg o w).reg o = w := Tbl.look_put_same _ _ _ _

theorem Core.fld_setFld_same (c : Core) (f : Fld) (v : Nat) (fits : f.lo + f.width ≤ 64) : (c.setFld f v).fld f = v % 2 ^ f.width := by
  rw [Core.fld, Core.setFld, Core.reg_setReg_same, fieldOf_putField _ _ _ _ fits]

/-- A counter counts modulo its width. -/
theorem Core.fld_bump_same (c : Core) (f : Fld) (n : Nat) (fits : f.lo + f.width ≤ 64) : (c.bump f n).fld f = (c.fld f + n) % 2 ^ f.width :=
  c.fld_setFld_same f _ fits

/-- An instruction that completes counts in the counter that it names, if any, and nowhere else (R58). -/
theorem Core.complete_eq (w : Word) (c : Core) : c.complete w = { c with ctl := { c.ctl with cc := ccAfter w c.ctl } } := by
  simp only [Core.complete, ccAfter]
  split <;> rfl

/-! ## A copy completes (R56, R58, R175, R176) -/

theorem Core.cpRetire_spec (k : Nat) (r : CpRun) (c : Core) : let d := c.cpRetire k r
    d.cp.running = c.cp.running.eraseIdx k ∧ d.ctl.cc = ccAfter r.op.w c.ctl ∧
      d.fld fCpInstrCount = (c.fld fCpInstrCount + 1) % 2 ^ fCpInstrCount.width := by
  simp only [Core.cpRetire, Core.complete_eq]
  exact ⟨rfl, rfl, Core.fld_bump_same _ fCpInstrCount 1 (by decide)⟩

theorem Core.cpComplete_done {e : Env} {k : Nat} {r : CpRun} {c : Core} (here : c.cp.running[k]? = some r) (alive : e.alive = true)
    (done : c.cpDone r = true) : c.cpComplete e k = c.cpRetire k r := by
  simp [Core.cpComplete, here, alive, done]

/-! ## Refresh (R168) -/

theorem Core.refresh_spec (ch bank : Nat) (postpone : Bool) (c : Core) : let key := 16 * ch + bank
    let d := c.refresh ch bank postpone
    if postpone = true ∧ c.bankWaits ch bank = true ∧ c.rsv.postponed.look key 0 < 8 then
      d.rsv.postponed.look key 0 = c.rsv.postponed.look key 0 + 1
    else d.rsv.postponed.look key 0 = 0 ∧ d.fld fRsvRefreshCount = (c.fld fRsvRefreshCount + 1) % 2 ^ fRsvRefreshCount.width := by
  simp only [Core.refresh, Bool.and_eq_true, decide_eq_true_eq, and_assoc]
  split
  · exact Tbl.look_put_same c.rsv.postponed (16 * ch + bank) (c.rsv.postponed.look (16 * ch + bank) 0 + 1) 0
  · exact ⟨Tbl.look_put_same c.rsv.postponed (16 * ch + bank) 0 0, Core.fld_bump_same _ fRsvRefreshCount 1 (by decide)⟩

/-! ## The scrub (R164, R167) -/

theorem Mem.check_setCheck_same (m : Mem) (a : Nat) (x : Ecc) : (m.setCheck a x).check a = x := Tbl.look_put_same m.ecc a x .ok

theorem Mem.check_setCheck_ne (m : Mem) {a b : Nat} (x : Ecc) (other : b ≠ a) : (m.setCheck a x).check b = m.check b :=
  Tbl.look_put_ne m.ecc other x .ok .ok

/-- Reading a word's check bits rewrites it where its error can be corrected, and no other word. -/
theorem Core.rsvCheck_mem (e : Env) (a : Nat) (c : Core) :
    (c.rsvCheck e a).rsv.mem = if c.rsv.mem.check a = .ce then c.rsv.mem.setCheck a .ok else c.rsv.mem := by
  cases state : c.rsv.mem.check a <;> simp only [Core.rsvCheck, state, if_true, reduceCtorEq, if_false]
  case ce => rfl
  case ue =>
    simp only [Core.report]
    split <;> split <;> rfl

theorem Core.rsvCheck_bytes (e : Env) (a : Nat) (c : Core) : (c.rsvCheck e a).rsv.mem.bytes = c.rsv.mem.bytes := by
  rw [Core.rsvCheck_mem]
  split <;> rfl

/-- A word whose check bits have been read holds no error that can be corrected, nor does one that held none before. -/
theorem Core.rsvCheck_corrects (e : Env) {a b : Nat} {c : Core} (h : b = a ∨ c.rsv.mem.check b ≠ .ce) : (c.rsvCheck e a).rsv.mem.check b ≠ .ce := by
  rw [Core.rsvCheck_mem]
  split
  next error =>
    by_cases same : b = a
    · rw [same, Mem.check_setCheck_same]
      decide
    · rw [Mem.check_setCheck_ne _ _ same]
      exact h.resolve_left same
  next clean => exact h.elim (fun same => same ▸ clean) id

/-- The check bits of a list of words read in order. -/
theorem Core.rsvChecks_spec (e : Env) (as : List Nat) (c : Core) : let d := as.foldl (fun (c : Core) a => c.rsvCheck e a) c
    d.rsv.mem.bytes = c.rsv.mem.bytes ∧ ∀ b, b ∈ as ∨ c.rsv.mem.check b ≠ .ce → d.rsv.mem.check b ≠ .ce := by
  induction as generalizing c with
  | nil => exact ⟨rfl, fun b h => h.resolve_left List.not_mem_nil⟩
  | cons a as ih =>
    obtain ⟨bytes, corrected⟩ := ih (c.rsvCheck e a)
    refine ⟨bytes.trans (c.rsvCheck_bytes e a), fun b h => corrected b ?_⟩
    rw [List.mem_cons, or_assoc] at h
    obtain first | later | clean := h
    · exact .inr (Core.rsvCheck_corrects e (.inl first))
    · exact .inl later
    · exact .inr (Core.rsvCheck_corrects e (.inr clean))

/-- Opening a row and recording a read of it leave the memory. -/
theorem Core.rowRead_rowOpen_mem (line : Nat) (as : List Nat) (c : Core) : ((c.rowOpen line).rowRead as).rsv.mem = c.rsv.mem := by
  simp only [Core.rowRead, Core.rowOpen]
  split <;> split <;> rfl

theorem Core.rsvScrub_spec (e : Env) {c : Core} (enabled : c.fld fRsvCtrlScrubEn = 1) (live : c.rsv.wiping = false)
    (idle : c.lineWaits (rsvChannel (64 * c.rsv.scrubNext)) = false) : let d := c.rsvScrub e
    d.rsv.mem.bytes = c.rsv.mem.bytes ∧ d.rsv.scrubNext = (if c.rsv.scrubNext + 1 = rsvBytes / 64 then 0 else c.rsv.scrubNext + 1) ∧
      ∀ n, n < 8 → d.rsv.mem.check (8 * c.rsv.scrubNext + n) ≠ .ce := by
  obtain ⟨bytes, corrected⟩ := Core.rsvChecks_spec e (lineWords c.rsv.scrubNext) ((c.rowOpen c.rsv.scrubNext).rowRead (lineWords c.rsv.scrubNext))
  have scrubs : (c.fld fRsvCtrlScrubEn = 0 || c.rsv.wiping || c.lineWaits (rsvChannel (64 * c.rsv.scrubNext))) = false := by
    simp [enabled, live, idle]
  rw [Core.rowRead_rowOpen_mem] at bytes
  simp only [Core.rsvScrub, scrubs, Bool.false_eq_true, if_false]
  refine ⟨bytes, trivial, fun n hn => corrected _ (.inl ?_)⟩
  exact List.mem_map.mpr ⟨n, List.mem_range.mpr hn, rfl⟩

/-- Upsets turn check bits alone. -/
theorem Core.rsvUpset_bytes (upset : List (Nat × Bool)) (c : Core) : (c.rsvUpset upset).rsv.mem.bytes = c.rsv.mem.bytes :=
  List.foldlRecOn _ _ (motive := fun m : Mem => m.bytes = c.rsv.mem.bytes) rfl fun _ same _ _ => same

/-- Whether a copy's line waits does not depend on the reservoir. -/
theorem Core.lineWaits_rsvUpset (upset : List (Nat × Bool)) (c : Core) (ch : Nat) : (c.rsvUpset upset).lineWaits ch = c.lineWaits ch := rfl

/-! ## Spare rows (R420) -/

/-- A row's words take their spare's check bits and poison, and keep their bytes. -/
theorem Core.spareRow_spec (e : Env) {limit ch bank row : Nat} {c : Core} (ch_fits : ch < 16) (bank_fits : bank < 16)
    (fails : c.rowFails limit (256 * row + 16 * ch + bank) = true) (idle : c.lineWaits ch = false) (spare : c.sparesUsed ch bank < 24) :
    let key := 256 * row + 16 * ch + bank
    let d := c.spareRow e limit ch bank row
    d.rsv.spared.look key 0 = c.sparesUsed ch bank + 1 ∧ d.rsv.rowCe.look key 0 = 0 ∧ d.rsv.rowUe.look key false = false ∧
      d.rsv.mem.bytes = c.rsv.mem.bytes ∧ d.fld fRsvRowSparedCount = (c.fld fRsvRowSparedCount + 1) % 2 ^ fRsvRowSparedCount.width := by
  intro key
  have bank_key : key % 256 = 16 * ch + bank := by omega
  simp only [Core.spareRow, fails, idle, Bool.not_true, Bool.or_false, Bool.false_eq_true, if_false, if_neg (Nat.not_le.mpr spare)]
  refine ⟨?_, Tbl.look_put_same c.rsv.rowCe key 0 0, Tbl.look_put_same c.rsv.rowUe key false false, ?_,
    Core.fld_bump_same _ fRsvRowSparedCount 1 (by decide)⟩
  · rw [Core.sparesUsed, ← bank_key]
    exact Tbl.look_put_same c.rsv.spared key (c.rsv.spares.look (key % 256) 0 + 1) 0
  · refine List.foldlRecOn c.rsv.mem.ecc _ (motive := fun m : Mem => m.bytes = c.rsv.mem.bytes) rfl fun m same x _ => ?_
    split
    · split <;> exact same
    · exact same

theorem State.core_of_noteFrom_putCore (s : State) (i n : Nat) (c : Core) (x : Note) (told : Bool) :
    (if told then (s.putCore i c).noteFrom n x else s.putCore i c).core i = c := by
  refine Eq.trans ?_ (s.core_putCore_same i c)
  split
  · exact State.core_of_cores (State.noteFrom_cores ..) i
  · rfl

/-- Settles O27: each transition leaves the core that its lemma above speaks of. -/
theorem reservoirUpkeep : Obligations.ReservoirUpkeep := by
  unfold Obligations.ReservoirUpkeep
  refine ⟨fun i idx s r => ?_, fun i ch bank postpone s => ?_, fun i upset s => ?_, fun i ch bank row s => ?_⟩
  · intro c here alive done left
    refine ⟨s.putCore i (c.cpComplete (s.env i.val) idx), ?_, ?_⟩
    · have stays : (opOf r.op.w = 0xC5 && s.leaving (s.env i.val) (cpEp r.op.w)) = false := by
        by_cases put : opOf r.op.w = 0xC5
        · simp [left put]
        · simp [put]
      change execCopyCompletion i idx s = _
      simp only [execCopyCompletion, show (s.core i.val).cp.running[idx]? = some r from here, stays, Bool.false_eq_true, if_false]
      rfl
    · rw [State.core_putCore_same, Core.cpComplete_done here alive done]
      exact c.cpRetire_spec idx r
  · intro c key alive
    refine ⟨s.putCore i (c.refresh ch.val bank.val postpone), if_pos alive, ?_⟩
    rw [State.core_putCore_same]
    exact c.refresh_spec ch.val bank.val postpone
  · intro c alive enabled live idle
    have upset_core : (s.putCore i (c.rsvUpset upset)).core i.val = c.rsvUpset upset := State.core_putCore_same ..
    have upset_alive : (s.putCore i (c.rsvUpset upset)).alive (clusterOfCore i.val) = true := by
      rw [State.putCore_eq s i.val (c.rsvUpset upset) id]
      exact alive
    refine ⟨_, if_pos upset_alive, ?_⟩
    rw [State.core_putCore_same, upset_core]
    obtain ⟨bytes, next, corrected⟩ := Core.rsvScrub_spec (c := c.rsvUpset upset) ((s.putCore i (c.rsvUpset upset)).env i.val) enabled live
      ((c.lineWaits_rsvUpset upset _).trans idle)
    exact ⟨bytes.trans (c.rsvUpset_bytes upset), next, corrected⟩
  · intro c key alive fails idle spare
    refine ⟨_, if_pos alive, ?_⟩
    rw [State.core_of_noteFrom_putCore]
    exact Core.spareRow_spec (s.env i.val) ch.isLt bank.isLt fails idle spare

end Sys2Proof.Machine

/-! SUPPORT. What engine instructions share as they complete: the scalar register that takes a result, and the credits that the operand ports return, which
leave the engine's own work alone. -/

namespace Sys2Proof.Machine

/-! ## A result that lands in a scalar register (R50, R56) -/

section
variable (k : Ctl) {n : Nat} (v : Word) (poison : Bool)

theorem Ctl.land_cc : (k.land n v poison).cc = k.cc := by
  unfold Ctl.land
  split
  · rfl
  · exact (k.setS_frame (n := n) v poison).2.2.1

/-- The register has no write pending any more; s0 never has one. -/
theorem Ctl.land_busy : (k.land n v poison).busy n = false := by
  have inside : n % 32 < 32 := Nat.mod_lt _ (by decide)
  unfold Ctl.land Ctl.busy
  split
  · rfl
  · exact getElem!_set!_same _ _ inside

theorem Ctl.s_land (real : n % 32 ≠ 0) : (k.land n v poison).s n = v ∧ (k.land n v poison).sp n = poison := by
  rw [Ctl.land, if_neg real]
  exact k.s_setS_same v poison real

/-- A field that is not zero names a register that is not s0. -/
theorem Ctl.s_land_eSa {w : Word} (real : eSa w ≠ 0) : (k.land (eSa w) v poison).s (eSa w) = v ∧ (k.land (eSa w) v poison).sp (eSa w) = poison := by
  refine k.s_land v poison ?_
  rwa [Nat.mod_eq_of_lt (show eSa w < 32 from fieldOf_lt w 43 5)]

end

theorem ccAfter_congr {w : Word} {k k' : Ctl} (same : k'.cc = k.cc) : ccAfter w k' = ccAfter w k := by rw [ccAfter, same, ccAfter]

/-! ## Credits of the operand ports (R186, R196, R197) -/

/-- `d` is `c` but for what its operand ports hold and what its channels have sent. -/
structure Core.SameButPorts (c d : Core) : Prop where
  ctl : d.ctl = c.ctl
  well : d.well = c.well
  mx : ∃ load stream, d.mx = { c.mx with load := load, stream := stream }
  vx : ∃ port, d.vx = { c.vx with port := port }

theorem Core.SameButPorts.refl (c : Core) : Core.SameButPorts c c := ⟨rfl, rfl, ⟨_, _, rfl⟩, ⟨_, rfl⟩⟩

theorem Core.SameButPorts.trans {b c d : Core} (h : Core.SameButPorts b c) (h' : Core.SameButPorts c d) : Core.SameButPorts b d := by
  obtain ⟨load, stream, mx⟩ := h'.mx
  obtain ⟨_, _, mx'⟩ := h.mx
  obtain ⟨port, vx⟩ := h'.vx
  obtain ⟨_, vx'⟩ := h.vx
  exact ⟨h'.ctl.trans h.ctl, h'.well.trans h.well, ⟨load, stream, by rw [mx, mx']⟩, ⟨port, by rw [vx, vx']⟩⟩

section
variable (e : Env)

theorem State.sendBack_cores (s : State) (n : Nat) (body : Body) : (s.sendBack e n body).cores = s.cores := by
  simp only [State.sendBack, State.returnFar]
  split
  · split <;> rfl
  · split <;> rfl

theorem State.sendTokens_core (n k : Nat) (s : State) : Core.SameButPorts (s.core e.core) ((s.sendTokens e n k).core e.core) := by
  induction k generalizing s with
  | zero => exact .refl _
  | succ k ih =>
    refine .trans ?_ (ih _)
    rw [State.core_setCore_same]
    exact ⟨rfl, rfl, ⟨_, _, rfl⟩, ⟨_, rfl⟩⟩

theorem State.returnPort_core (s : State) (target : Nat) (get : Core → Port) {set : Core → Port → Core}
    (port : ∀ c p, Core.SameButPorts c (set c p)) : Core.SameButPorts (s.core e.core) ((s.returnPort e target get set).core e.core) := by
  have taken (p : Port) : Core.SameButPorts (s.core e.core) ((s.setCore e.core (set (s.core e.core) p)).core e.core) := by
    rw [State.core_setCore_same]
    exact port _ p
  simp only [State.returnPort]
  split
  next => exact .refl _
  next n _ =>
    generalize (if s.batchOf e (s.core e.core) n = 0 then 0 else (get (s.core e.core)).taken / 64 / s.batchOf e (s.core e.core) n) = tokens
    split
    · split
      · rw [State.sendCredit, State.core_of_cores (State.sendBack_cores ..)]
        exact taken _
      · exact .refl _
    · split
      · exact .refl _
      · exact (taken _).trans (State.sendTokens_core ..)

end

/-- What the three operand ports of a core return leaves its program, its well and its engines' work. -/
theorem State.returnPorts_core (s : State) (i : Nat) : Core.SameButPorts (s.core i) ((s.returnPorts i).core i) := by
  have load := s.returnPort_core (s.env i) 2 (fun c => c.mx.load) (set := fun c p => { c with mx := { c.mx with load := p } })
    fun c p => ⟨rfl, rfl, ⟨_, _, rfl⟩, ⟨_, rfl⟩⟩
  have stream (t : State) := t.returnPort_core (s.env i) 3 (fun c => c.mx.stream) (set := fun c p => { c with mx := { c.mx with stream := p } })
    fun c p => ⟨rfl, rfl, ⟨_, _, rfl⟩, ⟨_, rfl⟩⟩
  have port (t : State) := t.returnPort_core (s.env i) 4 (fun c => c.vx.port) (set := fun c p => { c with vx := { c.vx with port := p } })
    fun c p => ⟨rfl, rfl, ⟨_, _, rfl⟩, ⟨_, rfl⟩⟩
  exact (load.trans (stream _)).trans (port _)

end Sys2Proof.Machine

/-! SUPPORT. The accumulator file as part of the matrix engine, the beats that the well serves, and the completion of matrix instructions. -/

namespace Sys2Proof.Machine

/-! ## Operations of the accumulator file (R106, R107, R112, R113, R116) -/

/-- The engine `b` with the entries and row-segments of `m`. -/
def Matrix.withFile (b m : Matrix) : Matrix := { b with acc := m.acc, segs := m.segs }

/-- An operation of the file reads and writes entries and row-segments alone. -/
def FileOp (op : Matrix → Matrix) : Prop := ∀ b m : Matrix, op (b.withFile m) = b.withFile (op m)

theorem FileOp.comp {f g : Matrix → Matrix} (hf : FileOp f) (hg : FileOp g) : FileOp (fun m => g (f m)) := fun b m =>
  (congrArg g (hf b m)).trans (hg b (f m))

theorem FileOp.foldl {α : Type} {f : Matrix → α → Matrix} (l : List α) (h : ∀ x, FileOp (f · x)) : FileOp (fun m => l.foldl f m) := by
  induction l with
  | nil => exact fun _ _ => rfl
  | cons x l ih => exact (h x).comp ih

/-- An operation of the file leaves the rest of the engine, and makes of the same file the same file. -/
theorem FileOp.spec {op : Matrix → Matrix} (h : FileOp op) {b m : Matrix} (acc : b.acc = m.acc) (segs : b.segs = m.segs) : op b = b.withFile (op m) := by
  have same : b.withFile m = b := by rw [Matrix.withFile, ← acc, ← segs]
  rw [← h b m, same]

theorem FileOp.running {op : Matrix → Matrix} (h : FileOp op) (m : Matrix) : (op m).running = m.running :=
  congrArg (·.running) (h.spec (b := m) (m := m) rfl rfl)

theorem FileOp.acc {op : Matrix → Matrix} (h : FileOp op) {b m : Matrix} (acc : b.acc = m.acc) (segs : b.segs = m.segs) : (op b).acc = (op m).acc :=
  congrArg (·.acc) (h.spec acc segs)

theorem Matrix.setEntry_fileOp (r c : Nat) (x : Matrix → LsEntry) (reads : ∀ b m : Matrix, x (b.withFile m) = x m) :
    FileOp (fun m => m.setEntry r c (x m)) := fun b m => by
  simp only [Matrix.setEntry, reads]
  rfl

theorem Matrix.setSeg_fileOp (r g : Nat) (x : Matrix → Segment) (reads : ∀ b m : Matrix, x (b.withFile m) = x m) :
    FileOp (fun m => m.setSeg r g (x m)) := fun b m => by
  simp only [Matrix.setSeg, reads]
  rfl

theorem Matrix.clearSeg_fileOp (a : Anchor) (r g : Nat) : FileOp (fun m => m.clearSeg a r g) :=
  (FileOp.foldl (List.range 8) fun i => Matrix.setEntry_fileOp r (8 * g + i) (fun _ => lsZero) fun _ _ => rfl).comp
    (Matrix.setSeg_fileOp r g (fun _ => ⟨a, none, 0, false⟩) fun _ _ => rfl)

theorem Matrix.clearRect_fileOp (a : Anchor) (t : Rect) : FileOp (fun m => m.clearRect a t) :=
  FileOp.foldl _ fun i => FileOp.foldl _ fun g => Matrix.clearSeg_fileOp a (t.r0 + i) (t.c0 / 8 + g)

theorem Matrix.resolve_fileOp (rows segs : List Nat) (f : Nat → Nat → Nat → Int → Int) : FileOp (fun m => m.resolve rows segs f) :=
  FileOp.foldl _ fun r => FileOp.foldl _ fun g b m => by
    have same : (b.withFile m).seg r g = m.seg r g := rfl
    simp only [same]
    cases (m.seg r g).anchor <;> rfl

theorem Matrix.ckAdd_fileOp (r c0 w : Nat) (q : Option Int) : FileOp (fun m => m.ckAdd r c0 w q) := fun b m => by
  have marks (hit : List Nat) := FileOp.foldl (f := fun (m : Matrix) h => m.setSeg r h { m.seg r h with unchecked := true }) hit
    (fun h => Matrix.setSeg_fileOp r h (fun m => { m.seg r h with unchecked := true }) fun _ _ => rfl) b m
  have same (h : Nat) : (b.withFile m).seg r h = m.seg r h := rfl
  simp only [Matrix.ckAdd, same, marks]
  rfl

theorem Matrix.addRecords_fileOp (t : Rect) (data : List (Byte × Bool)) : FileOp (fun m => m.addRecords t data) :=
  (Matrix.resolve_fileOp _ _ _).comp (FileOp.foldl _ fun i => FileOp.foldl _ fun j b m =>
    Matrix.ckAdd_fileOp (t.r0 + i) t.c0 t.w _ b (m.setEntry (t.r0 + i) (t.c0 + j) _))

/-! ## Beats served by the well (R143, R147) -/

section
variable (e : Env)

/-- A beat read from the well changes no memory, and answers one byte for each address. -/
theorem Core.wellBeat_spec (acc : Acc) (wsw : Bool) (as : List Nat) (c : Core) :
    Core.SameData c (c.wellBeat e acc wsw as).2.1 ∧ (c.wellBeat e acc wsw as).1.length = as.length :=
  ⟨(c.wellRead_spec e acc wsw _).1, List.length_map ..⟩

/-- Only loads, drains and loads of records have beats. -/
theorem MxRun.op_of_left {r : MxRun} (left : 0 < r.left) : opOf r.op.w = 0x81 ∨ opOf r.op.w = 0x84 ∨ opOf r.op.w = 0x86 := by
  by_contra other
  simp only [not_or] at other
  have none : r.op.mxBeats = 0 := by simp [EngOp.mxBeats, other]
  simp [MxRun.left, none] at left

theorem Core.mxBeat_load {r : MxRun} (op : opOf r.op.w = 0x81) (c : Core) : Core.SameData c (c.mxBeat e r).1 ∧ (c.mxBeat e r).2.op = r.op ∧
    (c.mxBeat e r).2.beats = r.beats + 1 ∧ (c.mxBeat e r).2.data.length = r.data.length + min 256 (r.op.loadBytes - 256 * r.beats) := by
  obtain ⟨same, bytes⟩ := c.wellBeat_spec e ⟨2, 1, r.op.pc⟩ r.wsw
    ((List.range (min 256 (r.op.loadBytes - 256 * r.beats))).map (fun i => r.op.loadByte (256 * r.beats + i)))
  simp only [Core.mxBeat, op]
  refine ⟨same, trivial, trivial, ?_⟩
  rw [List.length_append, bytes, List.length_map, List.length_range]

theorem Core.mxBeat_records {r : MxRun} (op : opOf r.op.w = 0x86) (c : Core) : Core.SameData c (c.mxBeat e r).1 ∧ (c.mxBeat e r).2.op = r.op ∧
    (c.mxBeat e r).2.beats = r.beats + 1 := by
  simp only [Core.mxBeat, op]
  exact ⟨(c.wellBeat_spec e _ _ _).1, trivial, trivial⟩

theorem Core.mxBeat_drain {r : MxRun} (op : opOf r.op.w = 0x84) (c : Core) :
    c.mxBeat e r = (c.wellWrites e ⟨3, 1, r.op.pc⟩ (c.drainBeat e r.op r.beats), { r with beats := r.beats + 1 }) := by
  simp only [Core.mxBeat, op]

theorem Core.mxServe_one {k : Nat} {c : Core} {r : MxRun} (here : c.mx.running[k]? = some r) (alive : e.alive = true) (left : 0 < r.left) :
    c.mxServe e k 1 = { (c.mxBeat e r).1 with
      mx := { (c.mxBeat e r).1.mx with running := (c.mxBeat e r).1.mx.running.set k (c.mxBeat e r).2 } } := by
  simp [Core.mxServe, here, alive, left]

/-- A beat moves its instruction one beat on; a drain's writes to the well, the other two read it. -/
theorem Core.mxServe_one_spec {k : Nat} {c : Core} {r : MxRun} (here : c.mx.running[k]? = some r) (alive : e.alive = true) (left : 0 < r.left) :
    ∃ r', (c.mxServe e k 1).mx.running = c.mx.running.set k r' ∧ r'.op = r.op ∧ r'.beats = r.beats + 1 ∧
      (c.mxServe e k 1).well.mem =
        (if opOf r.op.w = 0x84 then (c.wellWrites e ⟨3, 1, r.op.pc⟩ (c.drainBeat e r.op r.beats)).well.mem else c.well.mem) ∧
      (opOf r.op.w = 0x81 → r'.data.length = r.data.length + min 256 (r.op.loadBytes - 256 * r.beats)) := by
  refine ⟨(c.mxBeat e r).2, ?_⟩
  rw [Core.mxServe_one e here alive left]
  obtain op | op | op := MxRun.op_of_left left
  · obtain ⟨same, instr, beats, bytes⟩ := c.mxBeat_load e op
    exact ⟨by simp only [same.mx], instr, beats, by simp [op, same.mem], fun _ => bytes⟩
  · have same := c.wellWrites_sameEngines e ⟨3, 1, r.op.pc⟩ (c.drainBeat e r.op r.beats)
    rw [c.mxBeat_drain e op]
    exact ⟨by simp only [same.mx], rfl, rfl, by simp [op], fun load => by simp [op] at load⟩
  · obtain ⟨same, instr, beats⟩ := c.mxBeat_records e op
    exact ⟨by simp only [same.mx], instr, beats, by simp [op, same.mem], fun load => by simp [op] at load⟩

end

/-! ## Completion (R56, R58, R105, R111 to R114) -/

section
variable (e : Env)

/-- `d` is `c` but for flags, counters and reports. -/
structure Core.SameButFlags (c d : Core) : Prop where
  ctl : d.ctl = c.ctl
  well : d.well = c.well
  mx : ∃ flags, d.mx = { c.mx with flags := flags }

theorem Core.SameButFlags.trans {b c d : Core} (h : Core.SameButFlags b c) (h' : Core.SameButFlags c d) : Core.SameButFlags b d := by
  obtain ⟨flags, mx⟩ := h'.mx
  obtain ⟨_, mx'⟩ := h.mx
  exact ⟨h'.ctl.trans h.ctl, h'.well.trans h.well, flags, by rw [mx, mx']⟩

theorem Core.ckCount_sameButFlags (c : Core) (x : Nat × Nat × Nat × CkFound) : Core.SameButFlags c (Core.ckCount e c x) := by
  unfold Core.ckCount
  split
  · exact ⟨rfl, rfl, _, rfl⟩
  · exact ⟨rfl, rfl, _, rfl⟩
  · simp only [Core.report]
    split <;> exact ⟨rfl, rfl, _, rfl⟩

/-- A drain that completes leaves the program and the well; with its clear bit it clears its rectangle, and else it leaves the file (R112, R117). -/
theorem Core.drain_spec (r : MxRun) (c : Core) : let d := c.drain e r
    d.ctl = c.ctl ∧ d.well = c.well ∧ ∃ flags, d.mx = if bitOf r.op.w 17 then
      ({ c.mx with flags := flags } : Matrix).clearRect (.pending r.defMode (signedOf 10 r.defValue)) (drainRect r.op.w r.op.sb)
      else { c.mx with flags := flags } := by
  have counted (f : BitVec 6) : Core.SameButFlags c (((c.mx.ckTests (drainRect r.op.w r.op.sb)).foldl (Core.ckCount e) c).mxFlag f) :=
    .trans (List.foldlRecOn _ _ (motive := Core.SameButFlags c) ⟨rfl, rfl, _, rfl⟩ fun d same x _ => same.trans (d.ckCount_sameButFlags e x))
      ⟨rfl, rfl, _, rfl⟩
  simp only [Core.drain]
  generalize List.foldl _ (0 : BitVec 6) _ = f
  obtain ⟨ctl, well, flags, mx⟩ := counted f
  split
  · exact ⟨ctl, well, flags, by rw [← mx]⟩
  · exact ⟨ctl, well, flags, mx⟩

/-- Whatever the instruction, its completion leaves the well, the list of started instructions and the completion counters. -/
theorem Core.mxFinish_frame (r : MxRun) (c : Core) :
    (c.mxFinish e r).well = c.well ∧ (c.mxFinish e r).mx.running = c.mx.running ∧ (c.mxFinish e r).ctl.cc = c.ctl.cc := by
  simp only [Core.mxFinish]
  split
  · exact ⟨rfl, rfl, rfl⟩
  · obtain ⟨ctl, well, flags, mx⟩ := c.drain_spec e r
    refine ⟨well, ?_, congrArg (·.cc) ctl⟩
    rw [mx]
    split
    · exact (Matrix.clearRect_fileOp _ _).running _
    · rfl
  · exact ⟨rfl, rfl, c.ctl.land_cc ..⟩
  · exact ⟨rfl, (Matrix.addRecords_fileOp _ _).running _, rfl⟩
  · exact ⟨rfl, rfl, rfl⟩

theorem Core.mxFinish_load {r : MxRun} (op : opOf r.op.w = 0x81) (c : Core) : (c.mxFinish e r).mx.planes = c.mx.planes.set! (fieldOf r.op.w 4 1)
    (planeOf (fieldOf r.op.w 0 4) (depthOf (fieldOf r.op.w 0 4) r.op.hand) (fieldOf r.op.w 6 6 + 1) r.data) := by
  simp only [Core.mxFinish, op]

theorem Core.mxFinish_drain {r : MxRun} (op : opOf r.op.w = 0x84) (c : Core) : c.mxFinish e r = c.drain e r := by
  simp only [Core.mxFinish, op]

theorem Core.mxFinish_flags {r : MxRun} (op : opOf r.op.w = 0x85) (c : Core) : c.mxFinish e r =
    { c with
      ctl := c.ctl.land (eSa r.op.w) (c.mx.flags.setWidth 64) false
      mx := { c.mx with flags := clearFlags c.mx.flags (fieldOf r.op.w 0 6) } } := by
  simp only [Core.mxFinish, op]

theorem Core.mxFinish_records {r : MxRun} (op : opOf r.op.w = 0x86) (c : Core) :
    (c.mxFinish e r).mx = c.mx.addRecords (drainRect r.op.w r.op.sb) r.data := by
  simp only [Core.mxFinish, op]

/-- The core as a started matrix instruction leaves the list. -/
def Core.mxLeft (k : Nat) (c : Core) : Core := { c with mx := { c.mx with running := c.mx.running.eraseIdx k } }

theorem Core.mxComplete_ready {k : Nat} {c : Core} {r : MxRun} (here : c.mx.running[k]? = some r) (alive : e.alive = true) (ready : c.mxReady r = true) :
    c.mxComplete e k = ((c.mxLeft k).mxFinish e r).complete r.op.w := by
  simp only [Core.mxComplete, here, alive, ready, Bool.and_self, if_true]
  rfl

theorem Core.mxComplete_unready {k : Nat} {c : Core} {r : MxRun} (here : c.mx.running[k]? = some r) (unready : c.mxReady r = false) :
    c.mxComplete e k = c := by
  simp [Core.mxComplete, here, unready]

/-- What the completion of an instruction leaves, before the ports return their credits. -/
structure Core.MxCompleted (k : Nat) (r : MxRun) (c d : Core) : Prop where
  well : d.well = c.well
  running : d.mx.running = c.mx.running.eraseIdx k
  cc : d.ctl.cc = ccAfter r.op.w c.ctl
  flags : opOf r.op.w = 0x85 → d.mx.flags = c.mx.flags &&& ~~~(BitVec.ofNat 6 (fieldOf r.op.w 0 6)) ∧ d.ctl.busy (eSa r.op.w) = false ∧
    (eSa r.op.w ≠ 0 → d.ctl.s (eSa r.op.w) = c.mx.flags.setWidth 64 ∧ d.ctl.sp (eSa r.op.w) = false)
  records : opOf r.op.w = 0x86 → d.mx.acc = (c.mx.addRecords (drainRect r.op.w r.op.sb) r.data).acc
  planes : opOf r.op.w = 0x81 → d.mx.planes = c.mx.planes.set! (fieldOf r.op.w 4 1)
    (planeOf (fieldOf r.op.w 0 4) (depthOf (fieldOf r.op.w 0 4) r.op.hand) (fieldOf r.op.w 6 6 + 1) r.data)
  kept : opOf r.op.w = 0x84 → bitOf r.op.w 17 = false → d.mx.acc = c.mx.acc ∧ d.mx.segs = c.mx.segs
  cleared : opOf r.op.w = 0x84 → bitOf r.op.w 17 = true →
    d.mx.acc = (c.mx.clearRect (.pending r.defMode (signedOf 10 r.defValue)) (drainRect r.op.w r.op.sb)).acc

theorem Core.mxComplete_spec {k : Nat} {c : Core} {r : MxRun} (here : c.mx.running[k]? = some r) (alive : e.alive = true) (ready : c.mxReady r = true) :
    Core.MxCompleted k r c (c.mxComplete e k) := by
  obtain ⟨well, running, cc⟩ := (c.mxLeft k).mxFinish_frame e r
  rw [Core.mxComplete_ready e here alive ready, Core.complete_eq]
  refine ⟨well, running, ccAfter_congr cc, fun op => ?_, fun op => ?_, fun op => (c.mxLeft k).mxFinish_load e op, fun op keep => ?_, fun op clear => ?_⟩
  · rw [Core.mxFinish_flags e op]
    exact ⟨rfl, c.ctl.land_busy .., c.ctl.s_land_eSa _ _⟩
  · rw [Core.mxFinish_records e op]
    exact (Matrix.addRecords_fileOp _ _).acc rfl rfl
  · obtain ⟨-, -, flags, mx⟩ := (c.mxLeft k).drain_spec e r
    rw [Core.mxFinish_drain e op, mx, keep]
    exact ⟨rfl, rfl⟩
  · obtain ⟨-, -, flags, mx⟩ := (c.mxLeft k).drain_spec e r
    rw [Core.mxFinish_drain e op, mx, clear]
    exact (Matrix.clearRect_fileOp _ _).acc rfl rfl

/-- Credits that the ports return leave what a completion has done. -/
theorem Core.MxCompleted.returned {k : Nat} {r : MxRun} {b c d : Core} (h : Core.MxCompleted k r b c) (ports : Core.SameButPorts c d) :
    Core.MxCompleted k r b d := by
  obtain ⟨load, stream, mx⟩ := ports.mx
  exact { well := ports.well.trans h.well, running := mx ▸ h.running, cc := ports.ctl ▸ h.cc, flags := mx ▸ ports.ctl ▸ h.flags, records := mx ▸ h.records
          planes := mx ▸ h.planes, kept := mx ▸ h.kept, cleared := mx ▸ h.cleared }

end

/-- MATRIX_COMPLETION ends with the credits that the ports return. -/
theorem exec_matrixCompletion (i : CoreId) (k n : Nat) (s : State) : ∃ t, exec (.matrixCompletion i ⟨k, n⟩) s = .next t ∧
    Core.SameButPorts (Core.mxComplete (s.env i.val) k (Core.mxServe (s.env i.val) k n (s.core i.val))) (t.core i.val) := by
  refine ⟨_, rfl, ?_⟩
  have ports := State.returnPorts_core (s.putCore i.val (Core.mxComplete (s.env i.val) k (Core.mxServe (s.env i.val) k n (s.core i.val)))) i.val
  rwa [State.core_putCore_same] at ports

/-- Settles O23: a completion by its instruction, and one beat of the three that have beats. -/
theorem matrixCompletion : Obligations.MatrixCompletion := by
  unfold Obligations.MatrixCompletion
  refine ⟨fun i k n s r => ?_, fun e c k r here alive left => Core.mxServe_one_spec e here alive left⟩
  intro e c here alive
  obtain ⟨t, step, ports⟩ := exec_matrixCompletion i k n s
  refine ⟨t, step, ?_⟩
  cases ready : c.mxReady r with
  | false =>
    obtain ⟨ctl, well, ⟨load, stream, mx⟩, -⟩ := Core.mxComplete_unready e here ready ▸ ports
    exact ⟨congrArg (·.mem) well, fun _ => ⟨by rw [mx], by rw [mx], by rw [mx], ctl⟩, nofun⟩
  | true =>
    obtain ⟨well, running, cc, flags, records, planes, kept, cleared⟩ := (Core.mxComplete_spec e here alive ready).returned ports
    exact ⟨congrArg (·.mem) well, nofun, fun _ => ⟨running, cc, flags, records, planes, kept, cleared⟩⟩

end Sys2Proof.Machine

/-! SUPPORT. The vector engine: the lanes that an instruction computes, what its completion writes, the beats of a store and the load that waits too long. -/

namespace Sys2Proof.Machine

/-! ## Lanes computed at the start (R123, R124, R127, R128) -/

theorem mergeLanes_getElem? (m : Mask) (zm : Bool) (old new : Nat → Lane) {l : Nat} (lane : l < 64) : (mergeLanes m zm old new)[l]? =
    some (let x := if bitOf m.bits l then new l else if zm then ⟨0, false⟩ else old l
      ⟨x.v, x.poison || m.poison⟩) := by
  simp [mergeLanes, lane]

/-- A lane-wise operation of two operands gives each active lane its result and the OR of the poison bits; an inactive lane zero or what it held. -/
theorem vxMap_two_lanes (v : Vec) (w : Word) (zm : Bool) (f : BitVec 32 → BitVec 32 → BitVec 32 × BitVec 6) (va vb : Nat) :
    ∃ ls, (vxMap v w zm [va, vb] (two f)).lanes = some ls ∧ ∀ l, l < 64 → ls[l]? =
      some (if bitOf (v.mask (vVm w)).bits l then
        ⟨(f (v.lane va l).v (v.lane vb l).v).1, (v.lane va l).poison || (v.lane vb l).poison || (v.mask (vVm w)).poison⟩
      else if zm then ⟨0, (v.mask (vVm w)).poison⟩ else ⟨(v.lane (vVd w) l).v, (v.lane (vVd w) l).poison || (v.mask (vVm w)).poison⟩) := by
  refine ⟨_, rfl, fun l lane => ?_⟩
  rw [mergeLanes_getElem? _ _ _ _ lane]
  split
  · simp [two, lane]
  · cases zm <;> simp

/-- The five lane-wise operations of two operands. -/
theorem Core.vxCompute_two {e : Env} {o : EngOp} (c : Core) {op : Nat} {f : BitVec 32 → BitVec 32 → BitVec 32 × BitVec 6}
    (row : (op, f) ∈ [(0xA2, vAdd e.compat), (0xA3, vSub e.compat), (0xA4, vMul e.compat), (0xA6, vMinMax e.compat false), (0xA7, vMinMax e.compat true)])
    (instr : opOf o.w = op) : c.vxCompute e o = vxMap c.vx o.w (vZm o.w) [vVa o.w, vVb o.w] (two f) := by
  simp only [List.mem_cons, Prod.mk.injEq, List.not_mem_nil, or_false] at row
  obtain ⟨rfl, rfl⟩ | ⟨rfl, rfl⟩ | ⟨rfl, rfl⟩ | ⟨rfl, rfl⟩ | ⟨rfl, rfl⟩ := row <;> simp only [Core.vxCompute, instr]

theorem Core.vxStart_starts {e : Env} {c : Core} {o : EngOp} {q : List EngOp} (queue : c.vx.queue = o :: q) (alive : e.alive = true)
    (may : vxMayStart c.vx.running o = true) :
    c.vxStart e = { c with vx := { c.vx with queue := q, running := c.vx.running ++ [c.vxRunOf e o] } } := by
  simp [Core.vxStart, queue, alive, may]

/-! ## What a completion writes (R56, R58, R136, R137) -/

section
variable (r : VxRun) (c : Core)

/-- The vector register that an instruction has computed. -/
def Core.tookLanes : Core := r.lanes.elim c fun ls => { c with vx := c.vx.setReg (vVd r.op.w) ls }

/-- The mask register that an instruction has computed. -/
def Core.tookMask : Core := r.mask.elim c fun m => { c with vx := c.vx.setMask (fieldOf r.op.w 0 3) m }

/-- The scalar register that an instruction has computed. -/
def Core.tookScalar : Core := r.scalar.elim c fun x => { c with ctl := c.ctl.land (eSa r.op.w) x.1 x.2 }

/-- The flags that an instruction has raised, which vx.flags reads and clears. -/
def Core.tookFlags : Core :=
  let c := c.vxFlag r.flags
  if opOf r.op.w = 0xAF then
    { c with
      ctl := c.ctl.land (eSa r.op.w) (c.vx.flags.setWidth 64) false
      vx := { c.vx with flags := clearFlags c.vx.flags (fieldOf r.op.w 0 6) } }
  else c

theorem Core.vxFinish_eq : c.vxFinish r = (((c.tookLanes r).tookMask r).tookScalar r).tookFlags r := by
  unfold Core.vxFinish Core.tookLanes Core.tookMask Core.tookScalar
  cases r.lanes <;> cases r.mask <;> cases r.scalar <;> rfl

/-- `d` is `c` but for what a vector instruction may write. -/
structure Core.VxFrame (c d : Core) : Prop where
  well : d.well = c.well
  running : d.vx.running = c.vx.running
  cc : d.ctl.cc = c.ctl.cc

theorem Core.VxFrame.trans {b c d : Core} (h : Core.VxFrame b c) (h' : Core.VxFrame c d) : Core.VxFrame b d :=
  ⟨h'.well.trans h.well, h'.running.trans h.running, h'.cc.trans h.cc⟩

theorem Vec.setMask_frame (v : Vec) (n : Nat) (m : Mask) :
    (v.setMask n m).regs = v.regs ∧ (v.setMask n m).running = v.running ∧ (v.setMask n m).flags = v.flags := by
  unfold Vec.setMask
  split <;> exact ⟨rfl, rfl, rfl⟩

theorem Core.tookLanes_spec : Core.VxFrame c (c.tookLanes r) ∧ (c.tookLanes r).ctl = c.ctl ∧ (c.tookLanes r).vx.masks = c.vx.masks ∧
    (c.tookLanes r).vx.flags = c.vx.flags := by
  unfold Core.tookLanes
  cases r.lanes <;> exact ⟨⟨rfl, rfl, rfl⟩, rfl, rfl, rfl⟩

theorem Core.tookMask_spec : Core.VxFrame c (c.tookMask r) ∧ (c.tookMask r).ctl = c.ctl ∧ (c.tookMask r).vx.regs = c.vx.regs ∧
    (c.tookMask r).vx.flags = c.vx.flags := by
  unfold Core.tookMask
  cases r.mask with
  | none => exact ⟨⟨rfl, rfl, rfl⟩, rfl, rfl, rfl⟩
  | some m =>
    obtain ⟨regs, running, flags⟩ := c.vx.setMask_frame (fieldOf r.op.w 0 3) m
    exact ⟨⟨rfl, running, rfl⟩, rfl, regs, flags⟩

theorem Core.tookScalar_spec : Core.VxFrame c (c.tookScalar r) ∧ (c.tookScalar r).vx = c.vx := by
  unfold Core.tookScalar
  cases r.scalar with
  | none => exact ⟨⟨rfl, rfl, rfl⟩, rfl⟩
  | some x => exact ⟨⟨rfl, rfl, c.ctl.land_cc ..⟩, rfl⟩

theorem Core.tookFlags_spec : Core.VxFrame c (c.tookFlags r) ∧ (c.tookFlags r).vx.regs = c.vx.regs ∧ (c.tookFlags r).vx.masks = c.vx.masks ∧
    (opOf r.op.w ≠ 0xAF → (c.tookFlags r).ctl = c.ctl) := by
  simp only [Core.tookFlags]
  split
  next op => exact ⟨⟨rfl, rfl, c.ctl.land_cc ..⟩, rfl, rfl, fun other => absurd op other⟩
  next => exact ⟨⟨rfl, rfl, rfl⟩, rfl, rfl, fun _ => rfl⟩

/-- What the completion of a vector instruction writes: its destinations, and with vx.flags the flags. -/
structure Core.VxWritten (r : VxRun) (c d : Core) : Prop where
  regs_some : ∀ ls, r.lanes = some ls → d.vx.regs = (c.vx.setReg (vVd r.op.w) ls).regs
  regs_none : r.lanes = none → d.vx.regs = c.vx.regs
  masks_some : ∀ m, r.mask = some m → d.vx.masks = (c.vx.setMask (fieldOf r.op.w 0 3) m).masks
  masks_none : r.mask = none → d.vx.masks = c.vx.masks
  scalar : ∀ v, r.scalar = some v → opOf r.op.w ≠ 0xAF → eSa r.op.w ≠ 0 → d.ctl.s (eSa r.op.w) = v.1 ∧ d.ctl.sp (eSa r.op.w) = v.2 ∧
    d.ctl.busy (eSa r.op.w) = false
  flags : opOf r.op.w = 0xAF → r.flags = 0 → d.vx.flags = c.vx.flags &&& ~~~(BitVec.ofNat 6 (fieldOf r.op.w 0 6)) ∧
    (eSa r.op.w ≠ 0 → d.ctl.s (eSa r.op.w) = c.vx.flags.setWidth 64 ∧ d.ctl.sp (eSa r.op.w) = false ∧ d.ctl.busy (eSa r.op.w) = false)

theorem Vec.setMask_masks {v v' : Vec} (same : v'.masks = v.masks) (n : Nat) (m : Mask) : (v'.setMask n m).masks = (v.setMask n m).masks := by
  unfold Vec.setMask
  split
  · exact same
  · exact congrArg (·.set! (n % 8) m) same

theorem Core.vxFinish_spec : Core.VxFrame c (c.vxFinish r) ∧ Core.VxWritten r c (c.vxFinish r) := by
  obtain ⟨frame₁, ctl₁, masks₁, flags₁⟩ := c.tookLanes_spec r
  obtain ⟨frame₂, ctl₂, regs₂, flags₂⟩ := (c.tookLanes r).tookMask_spec r
  obtain ⟨frame₃, vx₃⟩ := ((c.tookLanes r).tookMask r).tookScalar_spec r
  obtain ⟨frame₄, regs₄, masks₄, ctl₄⟩ := (((c.tookLanes r).tookMask r).tookScalar r).tookFlags_spec r
  have regs : (c.vxFinish r).vx.regs = (c.tookLanes r).vx.regs := by rw [Core.vxFinish_eq, regs₄, vx₃, regs₂]
  have masks : (c.vxFinish r).vx.masks = ((c.tookLanes r).tookMask r).vx.masks := by rw [Core.vxFinish_eq, masks₄, vx₃]
  refine ⟨c.vxFinish_eq r ▸ ((frame₁.trans frame₂).trans frame₃).trans frame₄, fun ls lanes => ?_, fun none => ?_, fun m mask => ?_, fun none => ?_,
    fun v scalar op real => ?_, fun op quiet => ?_⟩
  · rw [regs, Core.tookLanes, lanes]
    rfl
  · rw [regs, Core.tookLanes, none]
    rfl
  · rw [masks, Core.tookMask, mask]
    exact Vec.setMask_masks masks₁ _ _
  · rw [masks, Core.tookMask, none]
    exact masks₁
  · rw [Core.vxFinish_eq, ctl₄ op, Core.tookScalar, scalar]
    obtain ⟨value, poison⟩ := ((c.tookLanes r).tookMask r).ctl.s_land_eSa v.1 v.2 real
    exact ⟨value, poison, Ctl.land_busy ..⟩
  · have before : ((((c.tookLanes r).tookMask r).tookScalar r).vxFlag r.flags).vx.flags = c.vx.flags := by
      simp only [Core.vxFlag, quiet, vx₃, flags₂, flags₁]
      exact BitVec.or_zero
    rw [Core.vxFinish_eq, Core.tookFlags]
    simp only [op, if_true, before]
    refine ⟨rfl, fun real => ?_⟩
    obtain ⟨value, poison⟩ := (((c.tookLanes r).tookMask r).tookScalar r).ctl.s_land_eSa (c.vx.flags.setWidth 64) false real
    exact ⟨value, poison, Ctl.land_busy ..⟩

end

/-! ## Completion, beats and the timeout (R56, R58, R135 to R137, R147) -/

/-- The bytes that a load computes from, those that it has read or takes from the port, and the port without them (R132, R135). -/
def VxRun.bytes (r : VxRun) (c : Core) : List (Byte × Bool) × Port := if vPort r.op.w then c.vx.port.take r.op.vxPortBytes else (r.data, c.vx.port)

theorem VxRun.bytes_fst (r : VxRun) (c : Core) : (r.bytes c).1 = if vPort r.op.w then (c.vx.port.take r.op.vxPortBytes).1 else r.data := by
  unfold VxRun.bytes
  split <;> rfl

/-- The lanes and flags of a load that completes. -/
def VxRun.loaded (e : Env) (r : VxRun) (c : Core) : VxOut :=
  vxLoad e r.under r.old r.op ((r.bytes c).1.take (vxBytes (vFmt r.op.w))) ((r.bytes c).1.drop (vxBytes (vFmt r.op.w)))

/-- A started instruction as it completes: a load has computed its lanes by then. -/
def VxRun.outcome (e : Env) (r : VxRun) (c : Core) : VxRun :=
  if opOf r.op.w = 0xA0 then { r with lanes := (r.loaded e c).lanes, flags := (r.loaded e c).flags } else r

/-- The core as a started vector instruction leaves the list, with its count and, for a load, the port's bytes taken. -/
def Core.vxLeft (k : Nat) (r : VxRun) (c : Core) : Core :=
  let d := c.vxRetire k r
  { d with vx := { d.vx with port := if opOf r.op.w = 0xA0 then (r.bytes c).2 else c.vx.port } }

theorem Core.vxRetire_spec (k : Nat) (r : VxRun) (c : Core) : (c.vxRetire k r).well = c.well ∧
    (c.vxRetire k r).vx = { c.vx with running := c.vx.running.eraseIdx k } ∧ (c.vxRetire k r).ctl = { c.ctl with cc := ccAfter r.op.w c.ctl } := by
  rw [Core.vxRetire, Core.complete_eq]
  exact ⟨rfl, rfl, rfl⟩

theorem VxRun.outcome_same (e : Env) (r : VxRun) (c : Core) :
    (r.outcome e c).op = r.op ∧ (r.outcome e c).mask = r.mask ∧ (r.outcome e c).scalar = r.scalar := by
  unfold VxRun.outcome
  split <;> exact ⟨rfl, rfl, rfl⟩

section
variable {e : Env} {k : Nat} {c : Core} {r : VxRun}

theorem Core.vxComplete_ready (here : c.vx.running[k]? = some r) (alive : e.alive = true) (ready : c.vxReady k r = true) :
    c.vxComplete e k = (c.vxLeft k r).vxFinish (r.outcome e c) := by
  obtain ⟨-, vx, -⟩ := c.vxRetire_spec k r
  have port : (c.vxRetire k r).vx.port = c.vx.port := congrArg (·.port) vx
  simp only [Core.vxComplete, here, alive, ready, Bool.and_self, if_true, Core.vxLeft, VxRun.outcome, port]
  split
  · rfl
  · rw [← port]

theorem Core.vxComplete_unready (here : c.vx.running[k]? = some r) (unready : c.vxReady k r = false) : c.vxComplete e k = c := by
  simp [Core.vxComplete, here, unready]

theorem Core.vxComplete_spec (here : c.vx.running[k]? = some r) (alive : e.alive = true) (ready : c.vxReady k r = true) :
    let d := c.vxComplete e k
    d.well = c.well ∧ d.vx.running = c.vx.running.eraseIdx k ∧ d.ctl.cc = ccAfter r.op.w c.ctl ∧ Core.VxWritten (r.outcome e c) c d := by
  intro d
  obtain ⟨well, vx, ctl⟩ := c.vxRetire_spec k r
  obtain ⟨⟨well', running', cc'⟩, written⟩ := (c.vxLeft k r).vxFinish_spec (r.outcome e c)
  rw [← Core.vxComplete_ready here alive ready] at well' running' cc' written
  obtain ⟨regs_some, regs_none, masks_some, masks_none, scalar, flags⟩ := written
  have same_regs : (c.vxLeft k r).vx.regs = c.vx.regs := congrArg (·.regs) vx
  have same_masks : (c.vxLeft k r).vx.masks = c.vx.masks := congrArg (·.masks) vx
  have same_flags : (c.vxLeft k r).vx.flags = c.vx.flags := congrArg (·.flags) vx
  refine ⟨well'.trans well, running'.trans (congrArg (·.running) vx), cc'.trans (congrArg (·.cc) ctl), fun ls lanes => (regs_some ls lanes).trans ?_,
    fun none => (regs_none none).trans same_regs, fun m mask => (masks_some m mask).trans (Vec.setMask_masks same_masks _ _),
    fun none => (masks_none none).trans same_masks, scalar, same_flags ▸ flags⟩
  simp only [Vec.setReg, same_regs]

/-- Credits that the ports return leave what a completion has written. -/
theorem Core.VxWritten.returned {b d : Core} (h : Core.VxWritten r b c) (ports : Core.SameButPorts c d) : Core.VxWritten r b d := by
  obtain ⟨port, vx⟩ := ports.vx
  exact { regs_some := vx ▸ h.regs_some, regs_none := vx ▸ h.regs_none, masks_some := vx ▸ h.masks_some, masks_none := vx ▸ h.masks_none
          scalar := ports.ctl ▸ h.scalar, flags := vx ▸ ports.ctl ▸ h.flags }

theorem Core.vxServe_store (here : c.vx.running[k]? = some r) (alive : e.alive = true) (store : opOf r.op.w = 0xA1) (left : 0 < r.left)
    (first : ∀ x ∈ c.vx.running.take k, opOf x.op.w ≠ 0xA1) :
    (c.vxServe e k 1).well.mem = (c.wellWrites e ⟨5, 2, r.op.pc⟩ (r.writes.getD r.beats [])).well.mem ∧
      (c.vxServe e k 1).vx.running = c.vx.running.set k { r with beats := r.beats + 1 } := by
  have turn : (c.vx.running.take k).all (fun x => opOf x.op.w != 0xA1 || x.left = 0) = true := by
    rw [List.all_eq_true]
    exact fun x earlier => by simp [first x earlier]
  have same := c.wellWrites_sameEngines e ⟨5, 2, r.op.pc⟩ (r.writes.getD r.beats [])
  have beat : c.vxBeat e r = (c.wellWrites e ⟨5, 2, r.op.pc⟩ (r.writes.getD r.beats []), { r with beats := r.beats + 1 }) :=
    if_neg (by rw [store]; decide)
  simp only [Core.vxServe, here, alive, left, turn, beat, Bool.and_self, decide_true, if_true]
  exact ⟨trivial, by rw [same.vx]⟩

/-- The schedule-breach trap sets CORE_STATUS.breach (R60, R135). -/
theorem Core.asyncTrap_breach (e : Env) (idx source detail : Nat) (c : Core) : (c.asyncTrap e 4 idx source detail).ctl.breach = true := by
  simp only [Core.asyncTrap, Core.enqueue]
  split <;> simp

theorem Core.vxTimeout_ends (first : c.vx.running.findIdx? (fun r => vPort r.op.w) = some k) (here : c.vx.running[k]? = some r) (alive : e.alive = true)
    (short : c.vx.port.has r.op.vxPortBytes = false) : let d := c.vxTimeout e
    d.vx.running = c.vx.running.eraseIdx k ∧ d.vx.regs = c.vx.regs ∧ d.vx.port = c.vx.port ∧ d.ctl.cc = ccAfter r.op.w c.ctl ∧ d.ctl.breach = true := by
  have trapped := c.asyncTrap_sameData e 4 r.op.pc 2 (freeDetail 4 r.op.w)
  have breach := c.asyncTrap_breach e r.op.pc 2 (freeDetail 4 r.op.w)
  obtain ⟨-, vx, ctl⟩ := (c.asyncTrap e 4 r.op.pc 2 (freeDetail 4 r.op.w)).vxRetire_spec k r
  simp only [Core.vxTimeout, first, here, alive, short, Bool.not_false, Bool.and_self, if_true, vx, ctl]
  exact ⟨by rw [trapped.vx], by rw [trapped.vx], by rw [trapped.vx], ccAfter_congr trapped.ctl.cc, breach⟩

end

/-- VECTOR_COMPLETION ends with the ages of the copies, which only they see, and with the credits that the ports return. -/
theorem exec_vectorCompletion (i : CoreId) (k n : Nat) (s : State) : ∃ t, exec (.vectorCompletion i ⟨k, n⟩) s = .next t ∧
    Core.SameButPorts (Core.vxComplete (s.env i.val) k (Core.vxServe (s.env i.val) k n (s.core i.val))) (t.core i.val) := by
  let done := Core.vxComplete (s.env i.val) k (Core.vxServe (s.env i.val) k n (s.core i.val))
  have aged : Core.SameButPorts done (done.ageCopies (s.env i.val)) := ⟨rfl, rfl, ⟨_, _, rfl⟩, ⟨_, rfl⟩⟩
  refine ⟨_, rfl, aged.trans ?_⟩
  have ports := State.returnPorts_core (s.putCore i.val (done.ageCopies (s.env i.val))) i.val
  rwa [State.core_putCore_same] at ports

/-- Settles O24: the start with its lanes, the completion by what the instruction has computed, a store's beat, and the timeout. -/
theorem vectorStartAndCompletion : Obligations.VectorStartAndCompletion := by
  unfold Obligations.VectorStartAndCompletion
  refine ⟨fun i s o q => ?_, fun i k n s r => ?_, fun e c k r here alive store left first => Core.vxServe_store here alive store left first,
    fun i k s r => ?_⟩
  · intro c compat queue alive may
    refine ⟨s.putCore i.val (c.vxStart (s.env i.val)), c.vxRunOf (s.env i.val) o, rfl, ?_⟩
    rw [State.core_putCore_same, Core.vxStart_starts queue alive may]
    refine ⟨rfl, rfl, rfl, rfl, fun op f row instr => ?_⟩
    simp only [Core.vxRunOf, c.vxCompute_two row instr]
    exact vxMap_two_lanes ..
  · intro e c here alive
    obtain ⟨t, step, ports⟩ := exec_vectorCompletion i k n s
    refine ⟨t, step, ?_⟩
    cases ready : c.vxReady k r with
    | false =>
      obtain ⟨ctl, well, -, ⟨port, vx⟩⟩ := Core.vxComplete_unready (e := e) here ready ▸ ports
      exact ⟨congrArg (·.mem) well, fun _ => ⟨by rw [vx], by rw [vx], by rw [vx], ctl⟩, nofun⟩
    | true =>
      obtain ⟨well, running, cc, written⟩ := Core.vxComplete_spec (e := e) here alive ready
      obtain ⟨op, mask, scalar⟩ := r.outcome_same e c
      obtain ⟨regs_some, regs_none, masks_some, masks_none, scalars, flags⟩ := written.returned ports
      rw [op] at regs_some masks_some scalars flags
      rw [mask] at masks_some masks_none
      rw [scalar] at scalars
      obtain ⟨port, vx⟩ := ports.vx
      refine ⟨congrArg (·.mem) (ports.well.trans well), nofun, fun _ => ⟨?_, (congrArg (·.cc) ports.ctl).trans cc, fun other => ?_, fun load => ?_,
        masks_some, masks_none, scalars, fun op quiet => flags op ?_⟩⟩
      · rw [vx]
        exact running
      · rw [VxRun.outcome, if_neg other] at regs_some regs_none
        exact ⟨regs_some, regs_none⟩
      · rw [VxRun.outcome, if_pos load] at regs_some
        simp only [VxRun.loaded, r.bytes_fst] at regs_some
        exact regs_some
      · rw [VxRun.outcome, if_neg (by rw [op]; decide)]
        exact quiet
  · intro c first here alive short
    refine ⟨s.putCore i.val (c.vxTimeout (s.env i.val)), rfl, ?_⟩
    rw [State.core_putCore_same]
    exact Core.vxTimeout_ends first here alive short

end Sys2Proof.Machine

/-! SUPPORT. The matrix engine before completion: the start of an instruction, the load that takes its port's bytes, the stroke that enters and the stream
that waits too long. -/

namespace Sys2Proof.Machine

/-! ## Registers beside the operand ports -/

/-- A field keeps its value when another register, or another field of its register, is set. -/
theorem Core.fld_setFld_apart (c : Core) {f g : Fld} (v : Nat) (h : g.off ≠ f.off ∨ g.lo + g.width ≤ f.lo ∨ f.lo + f.width ≤ g.lo) :
    (c.setFld f v).fld g = c.fld g := by
  by_cases ho : g.off = f.off
  · simp only [Core.fld, Core.setFld, ho, Core.reg_setReg_same]
    exact fieldOf_putField_other _ _ _ _ _ _ (h.resolve_left (not_not_intro ho))
  · exact congrArg (fieldOf · g.lo g.width) (Tbl.look_put_ne c.regs ho _ _ _)

theorem Core.fld_of_regs {c d : Core} (h : d.regs = c.regs) (f : Fld) : d.fld f = c.fld f := by rw [Core.fld, Core.reg, h, Core.fld, Core.reg]

/-- A core with other operand ports and other numbers of sent tokens. -/
def Core.withPorts (c : Core) (load stream port : Port) (tokens : Tbl Nat) : Core :=
  { c with mx := { c.mx with load := load, stream := stream }, vx := { c.vx with port := port }, ch := { c.ch with sentTokens := tokens } }

section
variable (e : Env) {P : Core → Prop} (ports : ∀ c load stream port tokens, P c → P (c.withPorts load stream port tokens))
include ports

theorem State.sendTokens_keeps (n k : Nat) {s : State} (h : P (s.core e.core)) : P ((s.sendTokens e n k).core e.core) := by
  induction k generalizing s with
  | zero => exact h
  | succ k ih =>
    refine ih ?_
    rw [State.core_setCore_same]
    exact ports _ _ _ _ _ h

theorem State.returnPort_keeps (target : Nat) (get : Core → Port) {set : Core → Port → Core} (put : ∀ c p, P c → P (set c p)) {s : State}
    (h : P (s.core e.core)) : P ((s.returnPort e target get set).core e.core) := by
  have taken (p : Port) : P ((s.setCore e.core (set (s.core e.core) p)).core e.core) := by
    rw [State.core_setCore_same]
    exact put _ p h
  simp only [State.returnPort]
  split
  next => exact h
  next n _ =>
    generalize (if s.batchOf e (s.core e.core) n = 0 then 0 else (get (s.core e.core)).taken / 64 / s.batchOf e (s.core e.core) n) = k
    by_cases units : (s.core e.core).land n fChLandBRetMode = 0
    · rw [if_pos units]
      split
      · rw [State.sendCredit, State.core_of_cores (State.sendBack_cores ..)]
        exact taken _
      · exact h
    · rw [if_neg units]
      split
      · exact h
      · exact State.sendTokens_keeps e ports n k (taken _)

/-- What no operand port and no number of a token can change of a core, it keeps as its ports return credits. -/
theorem State.returnPorts_keeps {s : State} {i : Nat} (h : P (s.core i)) : P ((s.returnPorts i).core i) := by
  have load := State.returnPort_keeps (s.env i) ports 2 (fun c => c.mx.load) (set := fun c p => { c with mx := { c.mx with load := p } })
    (fun c p => ports c p c.mx.stream c.vx.port c.ch.sentTokens) h
  have stream := State.returnPort_keeps (s.env i) ports 3 (fun c => c.mx.stream) (set := fun c p => { c with mx := { c.mx with stream := p } })
    (fun c p => ports c c.mx.load p c.vx.port c.ch.sentTokens) load
  exact State.returnPort_keeps (s.env i) ports 4 (fun c => c.vx.port) (set := fun c p => { c with vx := { c.vx with port := p } })
    (fun c p => ports c c.mx.load c.mx.stream p c.ch.sentTokens) stream

end

/-! ## What a start does (R103 to R107) -/

/-- What the start of instruction `o`, recorded as `r`, makes of the core `c`. -/
structure Core.MxBegun (o : EngOp) (c d : Core) (r : MxRun) : Prop where
  queue : d.mx.queue = c.mx.queue
  running : d.mx.running = c.mx.running
  load : d.mx.load = c.mx.load
  run : ∃ mode value, r = { mxRunOf o with defMode := mode, defValue := value }
  hand : opOf o.w = 0x80 → d.mx.hand = fieldOf o.w 0 2 ∧ d.mx.planes = Vector.replicate 2 ⟨0, 0, []⟩
  cleared : ∀ x, opOf o.w = 0x82 → bitOf o.w 26 = false → fieldOf o.w 24 2 = 0 → o.footprint = some x →
    d.mx.acc = (c.mx.clearRect (.at (signedOf 10 (fieldOf o.sa 0 10))) x).acc
  default : opOf o.w = 0x82 → bitOf o.w 26 = true → d.fld fMxAnchorDefMode = fieldOf o.w 24 2 ∧ d.mx.acc = c.mx.acc

section
variable {o : EngOp} (c : Core)

theorem Core.mxBegin_hand (op : opOf o.w = 0x80) : Core.MxBegun o c (c.mxBegin o).1 (c.mxBegin o).2 := by
  simp only [Core.mxBegin, op]
  exact ⟨rfl, rfl, rfl, ⟨_, _, rfl⟩, fun _ => ⟨rfl, rfl⟩, by simp [op], by simp [op]⟩

/-- With def, MX_ANCHOR_DEF takes both fields; the value leaves the mode. -/
theorem Core.mxBegin_default (op : opOf o.w = 0x82) (dflt : bitOf o.w 26 = true) : Core.MxBegun o c (c.mxBegin o).1 (c.mxBegin o).2 := by
  simp only [Core.mxBegin, op, dflt, if_true]
  refine ⟨rfl, rfl, rfl, ⟨_, _, rfl⟩, by simp [op], by simp [dflt], fun _ _ => ⟨?_, rfl⟩⟩
  rw [Core.fld_setFld_apart _ _ (by decide), Core.fld_setFld_same _ _ _ (by decide)]
  exact Nat.mod_eq_of_lt (fieldOf_lt o.w 24 2)

theorem Core.mxBegin_clear (op : opOf o.w = 0x82) (dflt : bitOf o.w 26 = false) : Core.MxBegun o c (c.mxBegin o).1 (c.mxBegin o).2 := by
  simp only [Core.mxBegin, op, dflt, Bool.false_eq_true, if_false]
  split
  next x rect =>
    have file (a : Anchor) := (Matrix.clearRect_fileOp a x).spec (b := c.mx) (m := c.mx) rfl rfl
    refine ⟨?_, ?_, ?_, ⟨_, _, rfl⟩, by simp [op], fun y _ _ fixed rect' => ?_, by simp [dflt]⟩
    · exact congrArg (·.queue) (file _)
    · exact congrArg (·.running) (file _)
    · exact congrArg (·.load) (file _)
    · obtain rfl : x = y := by simpa [rect] using rect'
      simp [fixed]
  next none => exact ⟨rfl, rfl, rfl, ⟨_, _, rfl⟩, by simp [op], by simp [none], by simp [dflt]⟩

/-- The start of any other instruction resolves anchors or records the default at most. -/
theorem Core.mxBegin_other (hand : opOf o.w ≠ 0x80) (anchor : opOf o.w ≠ 0x82) : Core.MxBegun o c (c.mxBegin o).1 (c.mxBegin o).2 := by
  simp only [Core.mxBegin]
  split
  · contradiction
  · contradiction
  · have file (rows segs : List Nat) (f : Nat → Nat → Nat → Int → Int) :=
      (Matrix.resolve_fileOp rows segs f).spec (b := c.mx) (m := c.mx) rfl rfl
    refine ⟨?_, ?_, ?_, ⟨_, _, rfl⟩, by simp [hand], by simp [anchor], by simp [anchor]⟩
    · exact congrArg (·.queue) (file _ _ _)
    · exact congrArg (·.running) (file _ _ _)
    · exact congrArg (·.load) (file _ _ _)
  · exact ⟨rfl, rfl, rfl, ⟨_, _, rfl⟩, by simp [hand], by simp [anchor], by simp [anchor]⟩
  · exact ⟨rfl, rfl, rfl, ⟨_, _, rfl⟩, by simp [hand], by simp [anchor], by simp [anchor]⟩

theorem Core.mxBegin_spec : Core.MxBegun o c (c.mxBegin o).1 (c.mxBegin o).2 := by
  by_cases anchor : opOf o.w = 0x82
  · cases dflt : bitOf o.w 26 with
    | true => exact c.mxBegin_default anchor dflt
    | false => exact c.mxBegin_clear anchor dflt
  · by_cases hand : opOf o.w = 0x80
    · exact c.mxBegin_hand hand
    · exact c.mxBegin_other hand anchor

end

/-! ## A load that takes its port's bytes (R105, R190) -/

/-- No bytes asked of a port, none taken. -/
theorem Port.take_avail_zero (p : Port) : (p.take (p.avail 0)).1 = [] := by simp [Port.avail, Port.take, Port.drop]

/-- A started instruction with the bytes that its port has for it. -/
def MxRun.fed (load : Port) (r : MxRun) : MxRun := { r with data := r.data ++ (load.take (load.avail r.wants)).1 }

/-- One that waits for none is as it was. -/
theorem MxRun.fed_sated {r : MxRun} (sated : r.wants = 0) (load : Port) : r.fed load = r := by
  rw [MxRun.fed, sated, load.take_avail_zero, List.append_nil]

section
variable {e : Env} {c : Core} {r : MxRun}

theorem MxRun.findIdx?_wants_sated {rs : List MxRun} (sated : ∀ x ∈ rs, x.wants = 0) : rs.findIdx? (fun x => decide (0 < x.wants)) = none := by
  rw [List.findIdx?_eq_none_iff]
  exact fun x started => by simp [sated x started]

theorem Core.mxFeed_sated (sated : ∀ x ∈ c.mx.running, x.wants = 0) : c.mxFeed e = c := by rw [Core.mxFeed, MxRun.findIdx?_wants_sated sated]

theorem Core.mxFeed_first {k : Nat} (first : c.mx.running.findIdx? (fun x => decide (0 < x.wants)) = some k) (here : c.mx.running[k]? = some r)
    (alive : e.alive = true) : ∃ load, c.mxFeed e = { c with mx := { c.mx with load := load, running := c.mx.running.set k (r.fed c.mx.load) } } := by
  simp only [Core.mxFeed, first, here, alive, if_true]
  exact ⟨_, rfl⟩

/-- Where no earlier instruction waits, the one started last takes what there is for it. -/
theorem Core.mxFeed_last {rs : List MxRun} (last : c.mx.running = rs ++ [r]) (sated : ∀ x ∈ rs, x.wants = 0) (alive : e.alive = true) :
    ∃ load, c.mxFeed e = { c with mx := { c.mx with load := load, running := rs ++ [r.fed c.mx.load] } } := by
  by_cases wants : r.wants = 0
  · refine ⟨c.mx.load, ?_⟩
    rw [MxRun.fed_sated wants, ← last]
    refine Core.mxFeed_sated fun x started => ?_
    rw [last, List.mem_append, List.mem_singleton] at started
    exact started.elim (sated x) fun here => here ▸ wants
  · have first : c.mx.running.findIdx? (fun x => decide (0 < x.wants)) = some rs.length := by
      rw [last, List.findIdx?_append, MxRun.findIdx?_wants_sated sated]
      simp [Nat.pos_of_ne_zero wants]
    obtain ⟨load, fed⟩ := Core.mxFeed_first (r := r) first (by simp [last]) alive
    refine ⟨load, ?_⟩
    rw [fed, last]
    simp

end

/-! ## The oldest instruction starts (R103) -/

section
variable {e : Env} {c : Core} {o : EngOp} {q : List EngOp}

theorem Core.mxStart_empty (queue : c.mx.queue = []) : c.mxStart e = c := by rw [Core.mxStart, queue]

theorem Core.mxStart_blocked (queue : c.mx.queue = o :: q) (may : mxMayStart c.mx.running o = false) : c.mxStart e = c := by
  simp [Core.mxStart, queue, may]

/-- The core as its oldest matrix instruction leaves the queue. -/
def Core.mxTaken (q : List EngOp) (c : Core) : Core := { c with mx := { c.mx with queue := q } }

/-- The core with a matrix instruction recorded as started. -/
def Core.mxRecorded (x : Core × MxRun) : Core := { x.1 with mx := { x.1.mx with running := x.1.mx.running ++ [x.2] } }

theorem Core.mxStart_starts (queue : c.mx.queue = o :: q) (alive : e.alive = true) (may : mxMayStart c.mx.running o = true) :
    c.mxStart e = Core.mxRecorded ((c.mxTaken q).mxBegin o) := by
  simp only [Core.mxStart, queue, alive, may, Bool.and_self, if_true]
  rfl

/-- What a start leaves, before the ports return their credits. -/
structure Core.MxStarted (o : EngOp) (q : List EngOp) (c d : Core) (r : MxRun) : Prop where
  queue : d.mx.queue = q
  running : d.mx.running = c.mx.running ++ [r]
  op : r.op = o
  entered : r.entered = 0
  ended : r.ended = false
  hand : opOf o.w = 0x80 → d.mx.hand = fieldOf o.w 0 2 ∧ d.mx.planes = Vector.replicate 2 ⟨0, 0, []⟩
  data : opOf o.w = 0x81 → r.data = (c.mx.load.take (c.mx.load.avail (loadPort o))).1
  cleared : ∀ x, opOf o.w = 0x82 → bitOf o.w 26 = false → fieldOf o.w 24 2 = 0 → o.footprint = some x →
    d.mx.acc = (c.mx.clearRect (.at (signedOf 10 (fieldOf o.sa 0 10))) x).acc
  default : opOf o.w = 0x82 → bitOf o.w 26 = true → d.fld fMxAnchorDefMode = fieldOf o.w 24 2 ∧ d.mx.acc = c.mx.acc

theorem Core.mxStart_spec (queue : c.mx.queue = o :: q) (alive : e.alive = true) (sated : ∀ x ∈ c.mx.running, x.wants = 0)
    (may : mxMayStart c.mx.running o = true) : ∃ r, Core.MxStarted o q c ((c.mxStart e).mxFeed e) r := by
  have begun := (c.mxTaken q).mxBegin_spec (o := o)
  rw [Core.mxStart_starts queue alive may]
  generalize (c.mxTaken q).mxBegin o = x at begun
  obtain ⟨d, r⟩ := x
  obtain ⟨taken, running, load, ⟨mode, value, run⟩, hand, cleared, default⟩ := begun
  dsimp only at taken running load run hand cleared default
  have last : (Core.mxRecorded (d, r)).mx.running = c.mx.running ++ [r] := congrArg (· ++ [r]) running
  obtain ⟨port, fed⟩ := Core.mxFeed_last last sated alive
  rw [fed]
  refine ⟨r.fed d.mx.load, taken, rfl, ?_, ?_, ?_, hand, fun op => ?_, fun x op dflt fixed rect => ?_, default⟩
  · exact congrArg (·.op) run
  · exact congrArg (·.entered) run
  · exact congrArg (·.ended) run
  · rw [load, run]
    simp [MxRun.fed, MxRun.wants, mxRunOf, op, Core.mxTaken]
  · exact (cleared x op dflt fixed rect).trans ((Matrix.clearRect_fileOp _ x).acc rfl rfl)

/-- Credits that the ports return leave what a start has done. -/
theorem Core.MxStarted.returned {r : MxRun} {b d : Core} (h : Core.MxStarted o q b c r) (ports : Core.SameButPorts c d) (regs : d.regs = c.regs) :
    Core.MxStarted o q b d r := by
  obtain ⟨load, stream, mx⟩ := ports.mx
  exact { queue := mx ▸ h.queue, running := mx ▸ h.running, op := h.op, entered := h.entered, ended := h.ended, hand := mx ▸ h.hand, data := h.data
          cleared := mx ▸ h.cleared, default := mx ▸ Core.fld_of_regs regs _ ▸ h.default }

end

/-- MATRIX_START ends with the credits that the ports return. -/
theorem exec_matrixStart (i : CoreId) (s : State) : ∃ t, exec (.matrixStart i) s = .next t ∧
    let d := (Core.mxStart (s.env i.val) (s.core i.val)).mxFeed (s.env i.val)
    Core.SameButPorts d (t.core i.val) ∧ (t.core i.val).regs = d.regs := by
  let d := (Core.mxStart (s.env i.val) (s.core i.val)).mxFeed (s.env i.val)
  have ports := State.returnPorts_core (s.putCore i.val d) i.val
  rw [State.core_putCore_same] at ports
  exact ⟨_, rfl, ports, State.returnPorts_keeps (P := fun c => c.regs = d.regs) (fun _ _ _ _ _ same => same) (by rw [State.core_putCore_same])⟩

/-! ## Strokes (R101, R108, R110, R116) -/

theorem Matrix.addStroke_fileOp (p : Plane) (row c0 : Nat) (ws : List Elem) : FileOp (fun m => m.addStroke p row c0 ws) := fun b m => by
  have columns := FileOp.foldl p.cols.zipIdx
    (f := fun m x => m.setEntry row (c0 + x.2) (addColumn (m.anchorAt row ((c0 + x.2) / 8)) x.1 ws (m.entry row (c0 + x.2))))
    (fun x => Matrix.setEntry_fileOp row (c0 + x.2) (fun m => addColumn (m.anchorAt row ((c0 + x.2) / 8)) x.1 ws (m.entry row (c0 + x.2)))
      fun _ _ => rfl) b m
  exact (congrArg (·.ckAdd row c0 p.u (strokeSum (m.anchorAt row (c0 / 8)) p ws)) columns).trans (Matrix.ckAdd_fileOp row c0 p.u _ b _)

section
variable {e : Env} {k : Nat} {c : Core} {r : MxRun}

theorem Core.wellBytes_sameData (acc : Acc) (wsw : Bool) (b n : Nat) (c : Core) : Core.SameData c (c.wellBytes e acc wsw b n).2.1 := by
  unfold Core.wellBytes
  split
  · exact .refl c
  · exact (c.wellRead_spec e acc wsw _).1

/-- The reads of a stroke take bytes of the stream port and leave the rest of the engine. -/
theorem Core.stroke_mx (o : EngOp) (n : Nat) (wsw : Bool) (c : Core) : ∃ stream, (c.stroke e o n wsw).2.1.mx = { c.mx with stream := stream } := by
  simp only [Core.stroke]
  split
  · exact ⟨_, rfl⟩
  · exact ⟨_, ((Core.wellBytes_sameData ..).trans (Core.wellBytes_sameData ..)).mx⟩

theorem Core.strokeEnter_spec (first : c.mx.running.findIdx? MxRun.streaming = some k) (here : c.mx.running[k]? = some r) (alive : e.alive = true)
    (fed : c.mx.stream.has r.op.strokePort = true) :
    let (ws, c', f) := c.stroke e r.op r.entered r.wsw
    let m := c'.mx.addStroke (c.mx.planes[fieldOf r.op.w 25 1]!) (fieldOf r.op.w 0 9 + r.entered) (fieldOf r.op.w 18 3 * handM r.op.hand) ws
    let d := c.strokeEnter e
    d.mx.running = c.mx.running.set k { r with entered := r.entered + 1, wsw := f } ∧ d.mx.acc = m.acc ∧ d.mx.segs = m.segs := by
  obtain ⟨stream, mx⟩ := c.stroke_mx (e := e) r.op r.entered r.wsw
  have planes : (c.stroke e r.op r.entered r.wsw).2.1.mx.planes = c.mx.planes := by rw [mx]
  have running (p : Plane) (row c0 : Nat) (ws : List Elem) :
      ((c.stroke e r.op r.entered r.wsw).2.1.mx.addStroke p row c0 ws).running = c.mx.running :=
    ((Matrix.addStroke_fileOp p row c0 ws).running _).trans (by rw [mx])
  simp only [Core.strokeEnter, first, here, alive, fed, Bool.and_self, if_true, Core.bump, Core.setFld, Core.setReg, planes,
    running, and_self]

theorem Core.feedTimeout_ends (first : c.mx.running.findIdx? MxRun.streaming = some k) (here : c.mx.running[k]? = some r) (alive : e.alive = true)
    (short : c.mx.stream.has r.op.strokePort = false) : let d := c.feedTimeout e
    d.mx.running = c.mx.running.eraseIdx k ∧ d.ctl.breach = true ∧ d.ctl.cc = ccAfter r.op.w c.ctl ∧ d.mx.acc = c.mx.acc ∧
      d.mx.stream = c.mx.stream := by
  have trapped := c.asyncTrap_sameData e 4 r.op.pc 1 (freeDetail 4 r.op.w)
  have breach := c.asyncTrap_breach e r.op.pc 1 (freeDetail 4 r.op.w)
  simp only [Core.feedTimeout, first, here, alive, short, Bool.not_false, Bool.and_self, if_true, Core.complete_eq]
  exact ⟨by rw [trapped.mx], breach, ccAfter_congr trapped.ctl.cc, by rw [trapped.mx], by rw [trapped.mx]⟩

end

/-- STROKE_ENTRY ends with the ages of the copies, which only they see, and with the credits that the ports return. -/
theorem exec_strokeEntry (i : CoreId) (s : State) : ∃ t, exec (.strokeEntry i) s = .next t ∧
    Core.SameButPorts (Core.strokeEnter (s.env i.val) (s.core i.val)) (t.core i.val) := by
  let done := Core.strokeEnter (s.env i.val) (s.core i.val)
  have aged : Core.SameButPorts done (done.ageCopies (s.env i.val)) := ⟨rfl, rfl, ⟨_, _, rfl⟩, ⟨_, rfl⟩⟩
  have ports := State.returnPorts_core (s.putCore i.val (done.ageCopies (s.env i.val))) i.val
  rw [State.core_putCore_same] at ports
  exact ⟨_, rfl, aged.trans ports⟩

/-- Settles O22: a start held back or made, a load that takes further bytes, a stroke that enters, and the stream that waits too long. -/
theorem matrixStartAndStrokes : Obligations.MatrixStartAndStrokes := by
  unfold Obligations.MatrixStartAndStrokes
  refine ⟨⟨fun i s o q => ?_, fun i s k r => ?_⟩, fun i s k r => ?_⟩
  · intro c queue alive sated
    obtain ⟨t, step, ports, regs⟩ := exec_matrixStart i s
    refine ⟨fun blocked => ⟨t, step, ?_⟩, fun may => ?_⟩
    · rw [Core.mxStart_blocked queue blocked, Core.mxFeed_sated sated] at ports
      obtain ⟨load, stream, mx⟩ := ports.mx
      exact ⟨by rw [mx], by rw [mx], by rw [mx], by rw [mx]⟩
    · obtain ⟨r, started⟩ := Core.mxStart_spec queue alive sated may
      obtain ⟨queue', running, op, entered, ended, hand, data, cleared, default⟩ := started.returned ports regs
      exact ⟨t, r, step, queue', running, op, entered, ended, hand, fun load _ => data load, cleared, default⟩
  · intro c queue alive first here
    obtain ⟨t, step, ports, -⟩ := exec_matrixStart i s
    obtain ⟨load, fed⟩ := Core.mxFeed_first first here alive
    rw [Core.mxStart_empty queue, fed] at ports
    obtain ⟨load, stream, mx⟩ := ports.mx
    exact ⟨t, step, by rw [mx]; rfl⟩
  · intro c first here alive
    refine ⟨fun fed => ?_, fun short => ?_⟩
    · obtain ⟨t, step, ports⟩ := exec_strokeEntry i s
      obtain ⟨running, acc, segs⟩ := Core.strokeEnter_spec first here alive fed
      obtain ⟨load, stream, mx⟩ := ports.mx
      exact ⟨t, step, mx ▸ running, mx ▸ acc, mx ▸ segs⟩
    · refine ⟨s.putCore i.val (c.feedTimeout (s.env i.val)), rfl, ?_⟩
      rw [State.core_putCore_same]
      exact Core.feedTimeout_ends first here alive short

end Sys2Proof.Machine

/-! SUPPORT. Forced words, the scrub port of the well, and the start of copies: what an asynchronous trap leaves of registers and well, what the two events
of the well do, and what the start of a copy does, with the messages that leave the core behind it. -/

namespace Sys2Proof.Machine

/-! ## A word that takes its bank by force (R146) -/

theorem Core.asyncTrap_rest (e : Env) (code idx source detail : Nat) (c : Core) :
    (c.asyncTrap e code idx source detail).regs = c.regs ∧ (c.asyncTrap e code idx source detail).well = c.well := by
  simp only [Core.asyncTrap, Core.enqueue]
  split <;> exact ⟨rfl, rfl⟩

/-- A trap that finds room joins the queue at once (R61, R65). -/
theorem Core.asyncTrap_evq_room (e : Env) (code idx source detail : Nat) {c : Core} (room : c.ctl.evq.length < 31) :
    (c.asyncTrap e code idx source detail).ctl.evq = c.ctl.evq ++ [eventRecord 2 code (trapInfo idx source detail) e.gen] :=
  congrArg (fun c : Core => c.ctl.evq)
    (Core.enqueue_room (c := { c with ctl := { c.ctl with breach := c.ctl.breach || decide (code = 4), trapSeen := true } }) _ room)

/-- The core once a forced word has been counted and marked, before any trap. -/
def Core.forcedMarks (c : Core) : Core :=
  { (c.bump fWellAsyncForcedCount 1).setFld fWellStatusBreachSeen 1 with ctl := { c.ctl with breach := true } }

theorem Core.forcedMarks_flds (c : Core) :
    c.forcedMarks.fld fWellAsyncForcedCount = (c.fld fWellAsyncForcedCount + 1) % 2 ^ fWellAsyncForcedCount.width ∧
      c.forcedMarks.fld fWellStatusBreachSeen = 1 := by
  refine ⟨?_, Core.fld_setFld_same _ fWellStatusBreachSeen 1 (by decide)⟩
  exact (Core.fld_setFld_apart _ 1 (.inl (by decide))).trans (c.fld_bump_same fWellAsyncForcedCount 1 (by decide))

section
variable {e : Env} {port a : Nat} {c : Core} (alive : e.alive = true) (async : 8 ≤ port) (no_fill : port ≠ 13) (no_scrub : port ≠ 14) (fits : a < 2 ^ 19)
  (limit : c.fld fWellCtrlAsyncLimit ≠ 0) (live : c.well.wiping = false) (put : Bool) (run : Nat)
include alive async no_fill no_scrub fits limit live

theorem Core.forced_eq : c.forced e port put run a =
    if c.well.forcedTrap then c.forcedMarks
    else { c.forcedMarks with well := { c.well with forcedTrap := true } }.asyncTrap e 4 (c.forcedMarks.forcedIndex port put run (a + port * 2 ^ 19))
      (asyncSource port put) (a + port * 2 ^ 19) := by
  have taken : (e.alive && 8 ≤ port && port != 13 && port != 14 && decide (a < 2 ^ 19) && c.fld fWellCtrlAsyncLimit != 0 && !c.well.wiping) = true := by
    simp [-Nat.reducePow, alive, async, no_fill, no_scrub, fits, limit, live]
  exact if_pos taken

theorem Core.forced_spec : let d := c.forced e port put run a
    d.fld fWellAsyncForcedCount = (c.fld fWellAsyncForcedCount + 1) % 2 ^ fWellAsyncForcedCount.width ∧ d.fld fWellStatusBreachSeen = 1 ∧
      d.ctl.breach = true ∧ d.well.forcedTrap = true ∧ (c.well.forcedTrap = true → d.ctl.evq = c.ctl.evq) ∧
      (c.well.forcedTrap = false → c.ctl.evq.length < 31 → ∃ pc, d.ctl.evq =
        c.ctl.evq ++ [eventRecord 2 4 (trapInfo pc (asyncSource port put) (a + port * 2 ^ 19)) e.gen]) := by
  obtain ⟨count, seen⟩ := c.forcedMarks_flds
  rw [Core.forced_eq alive async no_fill no_scrub fits limit live]
  cases before : c.well.forcedTrap with
  | true => exact ⟨count, seen, rfl, before, fun _ => rfl, nofun⟩
  | false =>
    let first : Core := { c.forcedMarks with well := { c.well with forcedTrap := true } }
    let idx := c.forcedMarks.forcedIndex port put run (a + port * 2 ^ 19)
    obtain ⟨regs, well⟩ := first.asyncTrap_rest e 4 idx (asyncSource port put) (a + port * 2 ^ 19)
    exact ⟨(Core.fld_of_regs regs _).trans count, (Core.fld_of_regs regs _).trans seen, first.asyncTrap_breach e idx _ _, congrArg Well.forcedTrap well,
      nofun, fun _ room => ⟨idx, first.asyncTrap_evq_room e 4 idx _ _ room⟩⟩

end

/-! ## The scrub port of the well (R156, R159) -/

/-- Upsets turn check bits alone. -/
theorem Core.wellUpset_bytes (upset : List (Nat × Bool)) (c : Core) : (c.wellUpset upset).well.mem.bytes = c.well.mem.bytes :=
  List.foldlRecOn _ _ (motive := fun m : Mem => m.bytes = c.well.mem.bytes) rfl fun _ same _ _ => same

theorem Core.scrub_spec (e : Env) {a : Nat} {c : Core} (live : c.well.wiping = false) (fits : a < 2 ^ 19)
    (due : (a = c.well.scrubNext ∧ c.fld fWellCtrlScrubEn = 1) ∨ a ∈ c.well.scrubQ) : let d := c.scrub e a
    a ∉ d.well.scrubQ ∧ (c.well.mem.check a = .ce → d.well.mem.check a = .ok) ∧ (c.well.mem.check a = .ue → d.well.mem.check a = .ue) ∧
      d.well.mem.bytes = c.well.mem.bytes ∧ (a = c.well.scrubNext → c.fld fWellCtrlScrubEn = 1 → d.well.scrubNext = (a + 1) % 2 ^ 19) := by
  have turn_or_queued : ((decide (a = c.well.scrubNext) && c.fld fWellCtrlScrubEn = 1) || c.well.scrubQ.contains a) = true := by simpa using due
  have checked := (c.wellCheck_sameData e a).mem
  simp only [Core.scrub, live, decide_eq_true fits, turn_or_queued, Bool.not_true, Bool.or_false, Bool.false_eq_true, if_false, checked]
  refine ⟨by simp, fun single => ?_, fun worse => ?_, ?_, fun next enabled => ?_⟩
  · rw [if_pos single, Mem.check_setCheck_same]
  · rwa [if_neg (by rw [worse]; decide)]
  · split <;> rfl
  · simp [← next, enabled]

/-! ## What the move pipe and a swap do (R152, R174, R175) -/

theorem Core.movePieces_sameEngines (e : Env) (o : EngOp) (fill : Bool) (pieces : List (List Part)) (late : List (List WordWrite)) (wsw : Bool) (c : Core) :
    Core.SameEngines c (c.movePieces e o fill pieces late wsw) := by
  induction pieces generalizing late wsw c with
  | nil =>
    exact List.foldlRecOn late _ (motive := Core.SameEngines c) (.refl c) fun d same ws _ => same.trans (d.wellWrites_sameEngines e _ ws)
  | cons p r ih =>
    simp only [Core.movePieces]
    split
    · exact (c.wellWrites_sameEngines e _ _).trans (ih ..)
    · exact ((c.wellWrites_sameEngines e _ _).trans (Core.wellRead_spec ..).1.toSameEngines).trans (ih ..)

theorem Core.moveAll_cp (e : Env) (o : EngOp) (base : Nat) (c : Core) : (c.moveAll e o base).cp = c.cp := by
  simp only [Core.moveAll]
  split <;> exact (Core.movePieces_sameEngines ..).cp

theorem Core.swapPair_halves {p n : Nat} (p_fits : p < 8) (n_fits : n < 8) (c : Core) :
    (c.swapPair p).well.verso[n]! = (if n = p then !c.well.verso[n]! else c.well.verso[n]!) ∧
      (c.swapPair p).well.breached[n]! = (if n = p then false else c.well.breached[n]!) := by
  simp only [Core.swapPair, Nat.mod_eq_of_lt p_fits]
  split
  next here => subst here; exact ⟨getElem!_set!_same _ _ n_fits, getElem!_set!_same _ _ n_fits⟩
  next other => exact ⟨getElem!_set!_ne _ _ other, getElem!_set!_ne _ _ other⟩

theorem cpPair_lt (w : Word) : cpPair w < 8 := by
  unfold cpPair
  split <;> exact fieldOf_lt w _ 3

section
variable {c : Core} {clk slot : Nat} {o : EngOp} (may : c.cpMayStart clk o = some slot)
include may

theorem Core.cpMayStart_move (move : opOf o.w = 0xC2) : slot = 8 := by
  simp only [Core.cpMayStart, cpOnPipe, move, decide_true, Bool.true_or, Nat.reduceEqDiff, if_false, if_true, Option.ite_none_left_eq_some,
    Option.some.injEq] at may
  obtain ⟨-, -, slot⟩ := may
  exact slot.symm

theorem Core.cpMayStart_swap (swap : opOf o.w = 0xCF) : slot = 9 := by
  simp only [Core.cpMayStart, swap, Nat.reduceEqDiff, if_true, Option.ite_none_left_eq_some, Option.some.injEq] at may
  obtain ⟨-, -, slot⟩ := may
  exact slot.symm

end

/-! ## Copies that stay as they are while their messages leave (R205, R206) -/

/-- What of a started copy neither its age nor its messages change: its operation, its slot and the lines granted to it. -/
def CpRun.course (r : CpRun) : EngOp × Nat × List Nat := (r.op, r.slot, r.granted)

/-- `d` has the copies of `c`, queued and started, but for their ages and what they have sent and await. -/
structure Core.SameCopies (c d : Core) : Prop where
  queue : d.cp.queue = c.cp.queue
  running : d.cp.running.map CpRun.course = c.cp.running.map CpRun.course

theorem Core.SameCopies.of_cp {c d : Core} (same : d.cp = c.cp) : Core.SameCopies c d := ⟨by rw [same], by rw [same]⟩

theorem Core.SameCopies.refl (c : Core) : Core.SameCopies c c := .of_cp rfl

theorem Core.SameCopies.trans {b c d : Core} (h : Core.SameCopies b c) (h' : Core.SameCopies c d) : Core.SameCopies b d :=
  ⟨h'.queue.trans h.queue, h'.running.trans h.running⟩

theorem Core.setRun_sameCopies {c : Core} {k : Nat} {x y : CpRun} (here : c.cp.running[k]? = some x) (same : y.course = x.course) :
    Core.SameCopies c (c.setRun k y) := by
  refine ⟨rfl, ?_⟩
  obtain ⟨inside, rfl⟩ := List.getElem?_eq_some_iff.mp here
  simp only [Core.setRun, List.map_set, same]
  rw [← List.getElem_map (f := CpRun.course) (h := by simpa using inside), List.set_getElem_self]

theorem Core.ageCopies_sameCopies (e : Env) (c : Core) : Core.SameCopies c (c.ageCopies e) := by
  refine ⟨rfl, ?_⟩
  simp only [Core.ageCopies, List.map_map]
  refine List.map_congr_left fun r _ => ?_
  simp only [Function.comp, Core.aged]
  split <;> rfl

theorem Core.takeCredits_cp (ep n : Nat) (mask : Word) (c : Core) : (c.takeCredits ep n mask).cp = c.cp := by
  unfold Core.takeCredits
  split
  · exact List.foldlRecOn _ _ (motive := fun d : Core => d.cp = c.cp) rfl fun _ same _ _ => same
  · rfl

theorem Core.putMessage_cp (e : Env) (r : CpRun) (m : Nat × Nat × Nat) (c : Core) : (c.putMessage e r m).2.2.1.cp = c.cp :=
  (Core.wellBytes_sameData ..).cp

theorem State.launch_cp (e : Env) (ep off : Nat) (ws : List (Word × Bool)) (s : State) :
    ((s.launch e ep off ws).core e.core).cp = (s.core e.core).cp := by
  have counted (c : Core) (same : c.cp = (s.core e.core).cp) : ((s.setCore e.core c).core e.core).cp = (s.core e.core).cp := by
    rwa [State.core_setCore_same]
  simp only [State.launch]
  split
  · exact counted _ rfl
  · split
    · exact counted _ rfl
    · rfl
  · split <;> exact counted _ rfl

theorem State.pumpPut_sameCopies (e : Env) (k : Nat) (messages : List (Nat × Nat × Nat)) (s : State) :
    Core.SameCopies (s.core e.core) ((s.pumpPut e k messages).core e.core) := by
  induction messages generalizing s with
  | nil => exact .refl _
  | cons m r ih =>
    simp only [State.pumpPut]
    split
    next => exact .refl _
    next x here =>
      split
      · have cp := (Core.takeCredits_cp (cpEp x.op.w) m.2.2 0 _).trans (Core.putMessage_cp e x m (s.core e.core))
        have taken (moved : Nat) (wsw : Bool) : Core.SameCopies (s.core e.core) ((s.setCore e.core
            ((((s.core e.core).putMessage e x m).2.2.1.takeCredits (cpEp x.op.w) m.2.2 0).setRun k
              { x with moved := moved, wsw := wsw })).core e.core) := by
          rw [State.core_setCore_same]
          exact (Core.SameCopies.of_cp cp).trans (Core.setRun_sameCopies (x := x) (by rw [cp, here]) rfl)
        refine .trans ?_ (ih _)
        split
        · exact taken _ _
        · exact (taken _ _).trans (.of_cp (State.launch_cp ..))
      · exact .refl _

theorem State.pumpPuts_sameCopies (s : State) (i : Nat) : Core.SameCopies (s.core i) ((s.pumpPuts i).core i) := by
  refine List.foldlRecOn _ _ (motive := fun t : State => Core.SameCopies (s.core i) (t.core i)) (.refl _) fun t same k _ => ?_
  split
  · split
    · exact same.trans (t.pumpPut_sameCopies (s.env i) k _)
    · exact same
  · exact same

theorem State.sendGets_sameCopies (e : Env) (r : CpRun) (s : State) : Core.SameCopies (s.core e.core) ((s.sendGets e r).core e.core) := by
  refine List.foldlRecOn _ _ (motive := fun t : State => Core.SameCopies (s.core e.core) (t.core e.core)) (.refl _) fun t same row _ => ?_
  refine State.keeps_mapCore (fun c same => ?_) e.core ?_
  · dsimp only
    split
    next x here => exact same.trans (Core.setRun_sameCopies here rfl)
    next => exact same
  · split
    · split <;> exact same
    · simp only
      split <;> exact same

/-! ## The oldest queued copy starts (R174) -/

section
variable {e : Env} {clk slot : Nat} {o : EngOp} {q : List EngOp} {c : Core}

/-- A copy that may start takes its slot, with no line granted, and works on the well alone: as a swap in slot 9, on the move pipe in slot 8. -/
theorem Core.cpStart_spec (queue : c.cp.queue = o :: q) (alive : e.alive = true) (may : c.cpMayStart clk o = some slot) :
    ∃ d r, c.cpStart e clk = (d, some r) ∧ r.course = (o, slot, []) ∧ d.cp = ⟨q, c.cp.running ++ [r]⟩ ∧
      d.well = (if slot = 9 then c.swapPair (cpPair o.w) else if slot = 8 then c.moveAll e o (c.cpBase o) else c).well := by
  have cp : (if slot = 9 then c.swapPair (cpPair o.w) else if slot = 8 then c.moveAll e o (c.cpBase o) else c).cp = c.cp := by
    split
    · rfl
    · split
      · exact c.moveAll_cp ..
      · rfl
  simp only [Core.cpStart, queue, alive, if_true, may, cp]
  exact ⟨_, _, rfl, rfl, rfl, rfl⟩

/-- What the started copies, and their messages, leave of a start. -/
theorem Core.SameCopies.started {d d' : Core} {r : CpRun} (same : Core.SameCopies d d') (course : r.course = (o, slot, []))
    (cp : d.cp = ⟨q, c.cp.running ++ [r]⟩) : d'.cp.queue = q ∧
      d'.cp.running.map (fun r => r.op) = c.cp.running.map (fun r => r.op) ++ [o] ∧
      ∃ r, d'.cp.running.getLast? = some r ∧ r.op = o ∧ r.slot = slot ∧ r.granted = [] := by
  obtain ⟨queue, running⟩ := same
  simp only [cp, List.map_append, List.map_cons, List.map_nil, course] at queue running
  refine ⟨queue, ?_, ?_⟩
  · simpa [CpRun.course, Function.comp_def] using congrArg (List.map Prod.fst) running
  · have last := congrArg List.getLast? running
    rw [List.getLast?_map, List.getLast?_concat, Option.map_eq_some_iff] at last
    obtain ⟨x, last, course⟩ := last
    simp only [CpRun.course, Prod.mk.injEq] at course
    exact ⟨x, last, course⟩

end

/-- COPY_START of a copy ends with the ages of the copies and with the messages or requests of a remote one. -/
theorem exec_copyStart {i : CoreId} {clk : Nat} {s : State} {d : Core} {r : CpRun}
    (start : (s.core i.val).cpStart (s.env i.val) clk = (d, some r)) : ∃ t, exec (.copyStart i clk) s = .next t ∧
      Core.SameCopies d (t.core i.val) ∧ (opOf r.op.w ≠ 0xC5 → opOf r.op.w ≠ 0xC6 → (t.core i.val).well = d.well) := by
  let aged := s.putCore i.val (d.ageCopies (s.env i.val))
  have core : aged.core i.val = d.ageCopies (s.env i.val) := State.core_putCore_same ..
  have same : Core.SameCopies d (aged.core i.val) := core ▸ d.ageCopies_sameCopies (s.env i.val)
  have step : exec (.copyStart i clk) s = if opOf r.op.w = 0xC5 then .next (aged.pumpPuts i)
      else if opOf r.op.w = 0xC6 then .next (aged.sendGets (s.env i.val) r) else .next aged := by
    change execCopyStart i clk s = _
    simp only [execCopyStart, start]
    rfl
  rw [step]
  by_cases put : opOf r.op.w = 0xC5
  · exact ⟨_, if_pos put, same.trans (State.pumpPuts_sameCopies ..), fun other => absurd put other⟩
  rw [if_neg put]
  by_cases get : opOf r.op.w = 0xC6
  · exact ⟨_, if_pos get, same.trans (State.sendGets_sameCopies (s.env i.val) r aged), fun _ other => absurd get other⟩
  · exact ⟨_, if_neg get, same, fun _ _ => (congrArg Core.well core).trans rfl⟩

/-- Settles O25: a forced word, an access of the scrub port, and the start of a copy, on the move pipe and as a swap too. -/
theorem wellEventsAndCopyStart : Obligations.WellEventsAndCopyStart := by
  unfold Obligations.WellEventsAndCopyStart
  refine ⟨⟨fun i port put run a s => ?_, fun i a upset s => ?_⟩, fun i clk s o q slot => ?_⟩
  · intro c alive async no_fill no_scrub fits limit live
    refine ⟨_, rfl, ?_⟩
    rw [State.core_putCore_same]
    exact Core.forced_spec alive async no_fill no_scrub fits limit live put run
  · intro c m alive live fits due
    have upset_core : (s.putCore i (c.wellUpset upset)).core i.val = c.wellUpset upset := State.core_putCore_same ..
    have upset_alive : (s.putCore i (c.wellUpset upset)).alive (clusterOfCore i.val) = true := by
      rw [State.putCore_eq s i.val (c.wellUpset upset) id]
      exact alive
    refine ⟨_, if_pos upset_alive, ?_⟩
    rw [State.core_putCore_same, upset_core]
    obtain ⟨unqueued, corrected, left, bytes, next⟩ :=
      Core.scrub_spec (c := c.wellUpset upset) ((s.putCore i (c.wellUpset upset)).env i.val) live fits due
    exact ⟨unqueued, corrected, left, bytes.trans (c.wellUpset_bytes upset), next⟩
  · intro c queue alive may
    obtain ⟨d, r, start, course, cp, well⟩ := Core.cpStart_spec queue alive may
    obtain ⟨t, step, same, keeps⟩ := exec_copyStart start
    obtain ⟨queued, ops, last⟩ := same.started course cp
    have op : r.op = o := congrArg Prod.fst course
    refine ⟨t, step, queued, ops, last, fun move => ?_, fun swap p fits => ?_⟩
    · rw [keeps (by rw [op, move]; decide) (by rw [op, move]; decide), well, Core.cpMayStart_move may move]
      rfl
    · rw [keeps (by rw [op, swap]; decide) (by rw [op, swap]; decide), well, Core.cpMayStart_swap may swap]
      exact c.swapPair_halves (cpPair_lt o.w) fits

end Sys2Proof.Machine

/-! SUPPORT. Lines of the reservoir: what the ages leave of a started copy, what accesses to the reservoir leave of the rest of the core, and from them
the grant of a line, its delivery and the promotion of a background line. -/

namespace Sys2Proof.Machine

/-! ## A started copy and its ages (R179) -/

theorem Core.aged_eq (e : Env) (c : Core) (r : CpRun) : ∃ ages, c.aged e r = { r with ages := ages } := by
  unfold Core.aged
  split
  · exact ⟨r.ages, rfl⟩
  · exact ⟨_, rfl⟩

/-- A started copy that is replaced, and then aged, is the new one but for its ages. -/
theorem Core.ageCopies_setRun_here (e : Env) {c : Core} {k : Nat} {r : CpRun} (here : c.cp.running[k]? = some r) (x : CpRun) :
    ∃ y, ((c.setRun k x).ageCopies e).cp.running[k]? = some y ∧ y.granted = x.granted ∧ y.waiting = x.waiting ∧ y.op = x.op := by
  obtain ⟨ages, aged⟩ := (c.setRun k x).aged_eq e x
  obtain ⟨inside, -⟩ := List.getElem?_eq_some_iff.mp here
  refine ⟨{ x with ages := ages }, ?_, rfl, rfl, rfl⟩
  rw [Core.ageCopies, List.getElem?_map, Core.setRun, List.getElem?_set_self inside]
  exact congrArg some aged

/-! ## The line that a channel grants (R163, R168, R179) -/

/-- A fold that takes the first element, and then keeps its choice or takes the element at hand, chooses an element of the list. -/
theorem mem_of_foldl_choice {α : Type} {choose : Option α → α → Option α} (first : ∀ x, choose none x = some x)
    (either : ∀ a x, choose (some a) x = some x ∨ choose (some a) x = some a) {xs : List α} {o : α} (chosen : xs.foldl choose none = some o) :
    o ∈ xs := by
  refine List.foldlRecOn xs choose (motive := fun acc => acc = some o → o ∈ xs) (by simp) (fun acc held x inside same => ?_) chosen
  cases acc with
  | none =>
    cases (first x).symm.trans same
    exact inside
  | some a =>
    obtain taken | kept := either a x
    · cases taken.symm.trans same
      exact inside
    · exact held (kept.symm.trans same)

theorem pickLine_mem {last : Nat} {os : List Offer} {o : Offer} (pick : pickLine last os = some o) : o ∈ os := by
  simp only [pickLine] at pick
  split at pick
  · exact mem_of_foldl_choice (fun _ => rfl) (fun _ _ => ite_eq_or_eq ..) pick
  · exact List.mem_of_mem_filter (mem_of_foldl_choice (fun _ => rfl) (fun _ _ => ite_eq_or_eq ..) pick)

theorem Core.offered_channel {c : Core} {r : CpRun} {ls : List Line} {ch k : Nat} (offer : c.offered r ls ch = some k) :
    rsvChannel (64 * (ls.getD k ⟨0, []⟩).line) = ch := by
  simp only [Core.offered] at offer
  split at offer
  next => cases offer
  next j first =>
    have channel := List.find?_some first
    split at offer
    · cases offer
    · split at offer
      · cases offer
      · cases offer
        exact of_decide_eq_true channel

/-- An offer on a channel names a started copy, by its place, and a line of it that lies on the channel. -/
theorem Core.offers_line {c : Core} {ch clk : Nat} {o : Offer} {r : CpRun} (offer : o ∈ c.offers ch clk) (here : c.cp.running[o.at_]? = some r) :
    rsvChannel (64 * ((c.cpLines r.op r.base).getD o.line ⟨0, []⟩).line) = ch := by
  obtain ⟨⟨x, n⟩, listed, made⟩ := List.mem_filterMap.mp offer
  have place := List.mem_zipIdx_iff_getElem?.mp listed
  dsimp only at made place
  split at made
  next => cases made
  next k offered =>
    cases made
    cases Option.some.inj (place.symm.trans here)
    exact Core.offered_channel offered

theorem Core.rowOpen_opens (line : Nat) (c : Core) :
    (c.rowOpen line).rsv.openRow.look (16 * rsvChannel (64 * line) + rsvBank (64 * line)) 0 = rsvRow (64 * line) + 1 := by
  simp only [Core.rowOpen]
  split
  next already => exact already
  next => exact Tbl.look_put_same c.rsv.openRow (16 * rsvChannel (64 * line) + rsvBank (64 * line)) (rsvRow (64 * line) + 1) 0

theorem Core.rowOpen_fld (line : Nat) (c : Core) {f : Fld} (other : f.off ≠ fRsvRowOpenCount.off) : (c.rowOpen line).fld f = c.fld f := by
  simp only [Core.rowOpen]
  split
  · rfl
  · exact Core.fld_setFld_apart _ _ (.inl other)

theorem Core.rowOpen_cp (line : Nat) (c : Core) : (c.rowOpen line).cp = c.cp := by
  simp only [Core.rowOpen]
  split <;> rfl

/-- The core with the row of a granted line open and the line counted as so many, late where the offer's deadline has passed; the slot of a background
line is the last served. -/
def Core.countGrant (c : Core) (ch clk lines line : Nat) (o : Offer) : Core :=
  let c := (c.rowOpen line).bump fCpLinesCount lines
  let c := if o.dl.any (fun d => decide (d < (clk : Int))) then c.bump fCpLateCount lines else c
  if o.dl.isNone then { c with rsv := { c.rsv with lastBg := c.rsv.lastBg.put ch o.slot 7 } } else c

theorem Core.countGrant_spec (c : Core) (ch clk lines line : Nat) (o : Offer) : let d := c.countGrant ch clk lines line o
    d.cp = c.cp ∧ d.rsv.openRow.look (16 * rsvChannel (64 * line) + rsvBank (64 * line)) 0 = rsvRow (64 * line) + 1 ∧
      d.fld fCpLinesCount = (c.fld fCpLinesCount + lines) % 2 ^ fCpLinesCount.width := by
  have counted : ((c.rowOpen line).bump fCpLinesCount lines).fld fCpLinesCount = (c.fld fCpLinesCount + lines) % 2 ^ fCpLinesCount.width := by
    rw [Core.fld_bump_same _ _ _ (by decide), Core.rowOpen_fld _ _ (by decide)]
  have late (n : Nat) := (Core.fld_setFld_apart ((c.rowOpen line).bump fCpLinesCount lines) (f := fCpLateCount) n (.inl (by decide))).trans counted
  refine ⟨?_, ?_, ?_⟩ <;> simp only [Core.countGrant]
  · split <;> split <;> exact c.rowOpen_cp line
  · split <;> split <;> exact c.rowOpen_opens line
  · by_cases passed : o.dl.any (fun d => decide (d < (clk : Int))) = true
    · rw [if_pos passed]
      split <;> exact late _
    · rw [if_neg passed]
      split <;> exact counted

/-- A copy once a line of it has been granted on a channel. -/
def CpRun.afterGrant (r : CpRun) (ch line : Nat) : CpRun :=
  { r with waiting := r.waiting.filter (fun k => k != line), granted := r.granted ++ [line], promoted := r.promoted.filter (fun x => x != ch),
           ages := r.ages.put ch 0 0 }

theorem Core.grant_eq {e : Env} {ch clk : Nat} {c : Core} {o : Offer} {r : CpRun} (alive : e.alive = true) (live : c.rsv.wiping = false)
    (pick : pickLine (c.rsv.lastBg.look ch 7) (c.offers ch clk) = some o) (here : c.cp.running[o.at_]? = some r) :
    let l := (c.cpLines r.op r.base).getD o.line ⟨0, []⟩
    c.grant e ch clk = ((c.countGrant ch clk (if cpWritesRsv r.op.w && !l.whole then 2 else 1) l.line o).setRun o.at_
      (r.afterGrant ch o.line)).ageCopies e := by
  simp only [Core.grant, alive, live, Bool.not_true, Bool.or_self, Bool.false_eq_true, if_false, pick, here]
  rfl

/-! ## Accesses to the reservoir (R164, R166, R168) -/

/-- `d` has the copies of `c` and the memory of its well. -/
structure Core.SameWell (c d : Core) : Prop where
  cp : d.cp = c.cp
  mem : d.well.mem = c.well.mem

theorem Core.SameWell.refl (c : Core) : Core.SameWell c c := ⟨rfl, rfl⟩

theorem Core.SameWell.trans {b c d : Core} (h : Core.SameWell b c) (h' : Core.SameWell c d) : Core.SameWell b d :=
  ⟨h'.cp.trans h.cp, h'.mem.trans h.mem⟩

theorem Core.SameData.sameWell {c d : Core} (same : Core.SameData c d) : Core.SameWell c d := ⟨same.cp, same.mem⟩

theorem Core.rowRead_sameWell (as : List Nat) (c : Core) : Core.SameWell c (c.rowRead as) := by
  simp only [Core.rowRead]
  split <;> exact ⟨rfl, rfl⟩

theorem Core.rowRead_mem (as : List Nat) (c : Core) : (c.rowRead as).rsv.mem = c.rsv.mem := by
  simp only [Core.rowRead]
  split <;> rfl

section
variable (e : Env)

theorem Core.rsvCheck_sameWell (a : Nat) (c : Core) : Core.SameWell c (c.rsvCheck e a) := by
  simp only [Core.rsvCheck]
  split
  next => exact .refl c
  next => exact ⟨rfl, rfl⟩
  next =>
    refine .trans ?_ (Core.report_sameData e _ _ _).sameWell
    split <;> exact ⟨rfl, rfl⟩

/-- A word read from the reservoir changes no byte of it. -/
theorem Core.rsvReadWord_spec (pc : Nat) (window wsw : Bool) (a : Nat) (c : Core) : let d := (c.rsvReadWord e pc window wsw a).2.1
    Core.SameWell c d ∧ d.rsv.mem.bytes = c.rsv.mem.bytes := by
  have same := c.rsvCheck_sameWell e a
  have bytes := c.rsvCheck_bytes e a
  simp only [Core.rsvReadWord]
  split
  · split
    · exact ⟨same, bytes⟩
    · have trapped := ((c.rsvCheck e a).bump_sameData fRsvWswTrapsCount 1).trans (Core.asyncTrap_sameData e _ 3 pc 3 (a / 64 + 2 ^ 26))
      exact ⟨same.trans trapped.sameWell, (congrArg (fun x => x.mem.bytes) trapped.rsv).trans bytes⟩
  · exact ⟨same, bytes⟩

theorem Core.rsvWords_spec (pc : Nat) (wsw : Bool) (as : List Nat) (c : Core) : let d := (c.rsvWords e pc wsw as).2.1
    Core.SameWell c d ∧ d.rsv.mem.bytes = c.rsv.mem.bytes := by
  refine List.foldlRecOn as _ (motive := fun x : List (Nat × Word × Bool) × Core × Bool =>
    Core.SameWell c x.2.1 ∧ x.2.1.rsv.mem.bytes = c.rsv.mem.bytes) ⟨c.rowRead_sameWell as, congrArg Mem.bytes (c.rowRead_mem as)⟩ ?_
  rintro x ⟨before, kept⟩ a -
  obtain ⟨same, bytes⟩ := x.2.1.rsvReadWord_spec e pc false x.2.2 a
  exact ⟨before.trans same, bytes.trans kept⟩

theorem Core.rsvWriteLine_sameWell (line : Nat) (ws : List WordWrite) (c : Core) : Core.SameWell c (c.rsvWriteLine e line ws) := by
  have written (d : Core) (same : Core.SameWell c d) :
      Core.SameWell c (ws.foldl (fun (c : Core) w => { c with rsv := { c.rsv with mem := c.rsv.mem.write w } }) d) :=
    List.foldlRecOn ws _ (motive := Core.SameWell c) same fun _ same _ _ => same.trans ⟨rfl, rfl⟩
  simp only [Core.rsvWriteLine]
  split
  · exact written c (.refl c)
  · refine written _ (List.foldlRecOn _ _ (motive := Core.SameWell c) (c.rowRead_sameWell _) fun d same a _ => ?_)
    have checked := same.trans (d.rsvCheck_sameWell e a)
    split
    · exact checked.trans ⟨rfl, rfl⟩
    · exact checked

/-! ## The work of a delivered line (R168, R176, R181) -/

theorem Core.feedEnter_cp (w : Word) (idx0 moved : Nat) (bs : List (Byte × Bool)) (c : Core) : (c.feedEnter w idx0 moved bs).cp = c.cp := by
  unfold Core.feedEnter
  split
  · rfl
  · rfl
  · exact List.foldlRecOn _ _ (motive := fun d : Core => d.cp = c.cp) rfl fun _ same _ _ => same

variable (r : CpRun) (l : Line) (c : Core)

/-- The work of a line leaves the started copies, and of its own copy all but what it has moved and whether its trap has been raised. -/
theorem Core.deliverLine_spec : (c.deliverLine e r l).1.cp = c.cp ∧ ∃ moved wsw, (c.deliverLine e r l).2 = { r with moved := moved, wsw := wsw } := by
  simp only [Core.deliverLine]
  split
  next => -- cp.fetch
    exact ⟨(Core.wellWrites_sameEngines ..).cp.trans (Core.rsvWords_spec ..).1.cp, _, _, rfl⟩
  next => -- cp.feed
    split
    · exact ⟨(Core.feedEnter_cp ..).trans (Core.wellRead_spec ..).1.cp, _, _, rfl⟩
    · exact ⟨(Core.feedEnter_cp ..).trans (Core.rsvWords_spec ..).1.cp, _, _, rfl⟩
  next => -- cp.store
    exact ⟨(Core.rsvWriteLine_sameWell ..).cp.trans (Core.wellRead_spec ..).1.cp, _, _, rfl⟩
  next => -- cp.fill
    exact ⟨(Core.rsvWriteLine_sameWell ..).cp, _, _, rfl⟩

/-- A line of a cp.fetch changes no byte of the reservoir. -/
theorem Core.deliverLine_fetch (fetch : opOf r.op.w = 0xC0) : (c.deliverLine e r l).1.rsv.mem.bytes = c.rsv.mem.bytes := by
  simp only [Core.deliverLine, fetch]
  exact (congrArg (fun x => x.mem.bytes) (Core.wellWrites_sameEngines ..).rsv).trans (Core.rsvWords_spec ..).2

/-- A line of a cp.store changes no byte of the well. -/
theorem Core.deliverLine_store (store : opOf r.op.w = 0xC1) : (c.deliverLine e r l).1.well.mem = c.well.mem := by
  simp only [Core.deliverLine, store]
  exact (Core.rsvWriteLine_sameWell ..).mem.trans (Core.wellRead_spec ..).1.mem

end

/-- A copy once a line of it has been delivered. -/
def CpRun.afterDelivery (r : CpRun) (line : Nat) : CpRun :=
  { r with waiting := r.waiting.filter (fun k => k != line), granted := r.granted.filter (fun k => k != line) }

theorem Core.deliver_eq {e : Env} {slot j k : Nat} {r : CpRun} {l : Line} {c : Core}
    (found : c.cp.running.findIdx? (fun r => r.slot = slot) = some j) (here : c.cp.running[j]? = some r)
    (line : (c.cpLines r.op r.base)[k]? = some l) (alive : e.alive = true) (may : c.mayDeliver r k l = true) :
    c.deliver e slot k = ((c.deliverLine e r l).1.setRun j ((c.deliverLine e r l).2.afterDelivery k)).ageCopies e := by
  simp only [Core.deliver, found, here, line, alive, may, Bool.and_self, if_true]
  rfl

/-! ## Promotion (R179) -/

theorem Core.promote_eq {e : Env} {slot ch k : Nat} {r : CpRun} {c : Core} (found : c.cp.running.findIdx? (fun r => r.slot = slot) = some k)
    (here : c.cp.running[k]? = some r) (alive : e.alive = true) (enabled : c.fld fCpCtrlPromoteAge ≠ 0) (waits : r.ages.look ch 0 ≠ 0)
    (old : r.ages.look ch 0 - 1 + 1000 * c.fld fCpCtrlPromoteAge ≤ e.now) (background : fieldOf r.op.w 14 16 = 0)
    (offered : (c.offered r (c.cpLines r.op r.base) ch).isSome) (unpromoted : r.promoted.contains ch = false) :
    c.promote e slot ch = (c.bump fCpPromotedCount 1).setRun k
      { r with promoted := r.promoted ++ [ch], ages := r.ages.put ch (e.now + 1) 0 } := by
  simp only [Core.promote, found, here]
  exact if_pos (by simp only [alive, bne_iff_ne.mpr enabled, bne_iff_ne.mpr waits, decide_eq_true old, decide_eq_true background, offered, unpromoted,
    Bool.and_self, Bool.not_false])

/-- Settles O26: the grant, the delivery and the promotion each replace one started copy of the core. -/
theorem reservoirLines : Obligations.ReservoirLines := by
  unfold Obligations.ReservoirLines
  refine ⟨fun i ch clk s o r => ?_, fun i slot k j s r l => ?_, fun i slot ch k s r => ?_⟩
  · intro c alive live pick here
    let l := (c.cpLines r.op r.base).getD o.line ⟨0, []⟩
    obtain ⟨cp, opened, counted⟩ := c.countGrant_spec ch.val clk (if cpWritesRsv r.op.w && !l.whole then 2 else 1) l.line o
    obtain ⟨r', there, granted, waiting, op⟩ :=
      Core.ageCopies_setRun_here (s.env i.val) ((congrArg (·.running[o.at_]?) cp).trans here) (r.afterGrant ch.val o.line)
    rw [Core.offers_line (pickLine_mem pick) here] at opened
    refine ⟨_, r', rfl, ?_⟩
    rw [State.core_putCore_same, Core.grant_eq alive live pick here]
    exact ⟨there, granted, waiting, op, opened, counted⟩
  · intro c found here line alive may
    obtain ⟨cp, moved, wsw, run⟩ := c.deliverLine_spec (s.env i.val) r l
    obtain ⟨r', there, granted, waiting, op⟩ :=
      Core.ageCopies_setRun_here (s.env i.val) ((congrArg (·.running[j]?) cp).trans here) ((c.deliverLine (s.env i.val) r l).2.afterDelivery k)
    rw [run] at granted waiting op
    refine ⟨_, r', rfl, ?_⟩
    rw [State.core_putCore_same, Core.deliver_eq found here line alive may]
    exact ⟨there, granted, waiting, op, rfl, rfl, rfl, rfl, c.deliverLine_fetch (s.env i.val) r l, c.deliverLine_store (s.env i.val) r l⟩
  · intro c now found here alive enabled waits old background offered unpromoted
    refine ⟨_, rfl, ?_⟩
    rw [State.core_putCore_same, Core.promote_eq found here alive enabled waits old background offered unpromoted]
    exact ⟨rfl, c.fld_bump_same fCpPromotedCount 1 (by decide)⟩

end Sys2Proof.Machine

/-! SUPPORT. Channels: the registers that an access to the well leaves alone, a message that leaves a sending half, and from them the channel instructions
as they start, are abandoned and complete. -/

namespace Sys2Proof.Machine

/-! ## Registers beside those of the well (R150 to R158) -/

/-- `d` has the registers of `c` that lie below `limit`. -/
structure Core.SameBelow (limit : Nat) (c d : Core) : Prop where
  reg : ∀ off, off < limit → d.reg off = c.reg off

section
variable {limit : Nat}

theorem Core.SameBelow.refl (c : Core) : Core.SameBelow limit c c := ⟨fun _ _ => rfl⟩

theorem Core.SameBelow.trans {b c d : Core} (h : Core.SameBelow limit b c) (h' : Core.SameBelow limit c d) : Core.SameBelow limit b d :=
  ⟨fun off low => (h'.reg off low).trans (h.reg off low)⟩

theorem Core.SameBelow.mono {limit' : Nat} (le : limit' ≤ limit) {c d : Core} (h : Core.SameBelow limit c d) : Core.SameBelow limit' c d :=
  ⟨fun off low => h.reg off (Nat.lt_of_lt_of_le low le)⟩

theorem Core.SameBelow.of_regs {c d : Core} (same : d.regs = c.regs) : Core.SameBelow limit c d := ⟨fun off _ => by rw [Core.reg, same, Core.reg]⟩

theorem Core.SameBelow.fld {c d : Core} (h : Core.SameBelow limit c d) (f : Fld) (low : f.off < limit) : d.fld f = c.fld f := by
  rw [Core.fld, h.reg f.off low, Core.fld]

theorem Core.setReg_sameBelow (c : Core) {off : Nat} (high : limit ≤ off) (w : Word) : Core.SameBelow limit c (c.setReg off w) :=
  ⟨fun _ low => Tbl.look_put_ne _ (Nat.ne_of_lt (Nat.lt_of_lt_of_le low high)) _ _ _⟩

theorem Core.setFld_sameBelow (c : Core) {f : Fld} (high : limit ≤ f.off) (v : Nat) : Core.SameBelow limit c (c.setFld f v) :=
  c.setReg_sameBelow high _

theorem Core.bump_sameBelow (c : Core) {f : Fld} (high : limit ≤ f.off) (n : Nat) : Core.SameBelow limit c (c.bump f n) := c.setReg_sameBelow high _

end

section
variable (e : Env) (c : Core)

theorem Core.asyncTrap_sameBelow (code idx source detail : Nat) : Core.SameBelow 0x6000 c (c.asyncTrap e code idx source detail) :=
  .of_regs (c.asyncTrap_rest e code idx source detail).1

theorem Core.report_sameBelow (kind : ReportKind) (detail : Nat) : Core.SameBelow 0x6000 c (c.report e kind detail) := by
  unfold Core.report
  split
  · exact .of_regs rfl
  · exact .refl c

theorem Core.wellBreach_sameBelow (acc : Acc) (a pair : Nat) (write : Bool) : Core.SameBelow 0x6000 c (c.wellBreach e acc a pair write) := by
  have counted := (c.bump_sameBelow (limit := 0x6000) (f := fWellBreachCountCount) (by decide) 1).trans
    (Core.setFld_sameBelow _ (f := fWellStatusBreachSeen) (by decide) 1)
  have trapped (d : Core) (x : Well) (idx source detail : Nat) : Core.SameBelow 0x6000 d ({ d with well := x }.asyncTrap e 4 idx source detail) :=
    .of_regs (Core.asyncTrap_rest ..).1
  simp only [Core.wellBreach]
  split
  · exact counted
  · split
    · exact counted.trans (trapped _ _ _ _ _)
    · exact (counted.trans (trapped _ _ _ _ _)).trans (Core.setReg_sameBelow _ (off := fWellBreachValid.off) (by decide) _)

theorem Core.checkRoles_sameBelow (acc : Acc) (a : Nat) (write : Bool) : Core.SameBelow 0x6000 c (c.checkRoles e acc a write).2 := by
  simp only [Core.checkRoles]
  split
  · exact .refl c
  · split
    · exact .refl c
    · split
      · exact c.wellBreach_sameBelow e acc a _ write
      · exact .refl c

theorem Core.wellCheck_sameBelow (a : Nat) : Core.SameBelow 0x6000 c (c.wellCheck e a) := by
  unfold Core.wellCheck
  split
  · exact .refl c
  · exact (c.bump_sameBelow (by decide) 1).trans (.of_regs rfl)
  · have counted := (c.bump_sameBelow (limit := 0x6000) (f := fWellEccUeCount) (by decide) 1).trans (Core.setFld_sameBelow _ (f := fWellStatusUeSeen) (by decide) 1)
    refine .trans ?_ (Core.report_sameBelow e _ _ _)
    split
    · exact counted
    · exact counted.trans (Core.setReg_sameBelow _ (off := fWellEccLastValid.off) (by decide) _)

end

section
variable (e : Env) (acc : Acc)

theorem Reads.word_sameBelow (r : Reads) (a : Nat) : Core.SameBelow 0x6000 r.c (r.word e acc a).c := by
  have checked := (r.c.checkRoles_sameBelow e acc a false).trans (Core.wellCheck_sameBelow e _ a)
  simp only [Reads.word]
  split
  · split
    · exact checked
    · exact (checked.trans (Core.bump_sameBelow _ (by decide) 1)).trans (Core.asyncTrap_sameBelow e _ 3 _ _ _)
  · exact checked

theorem Core.wellRead_sameBelow (wsw : Bool) (as : List Nat) (c : Core) : Core.SameBelow 0x6000 c (c.wellRead e acc wsw as).2.1 :=
  List.foldlRecOn as _ (motive := fun r : Reads => Core.SameBelow 0x6000 c r.c) (.refl c) fun r same a _ => same.trans (r.word_sameBelow e acc a)

theorem Core.wellWrite_sameBelow (c : Core) (ww : WordWrite) : Core.SameBelow 0x6000 c (c.wellWrite e acc ww) := by
  have roles := c.checkRoles_sameBelow e acc ww.addr true
  simp only [Core.wellWrite]
  split
  · exact .refl c
  · split
    · exact roles.trans (.of_regs rfl)
    · exact (roles.trans (Core.wellCheck_sameBelow e _ ww.addr)).trans (.of_regs rfl)

theorem Core.wellWrites_sameBelow (ws : List WordWrite) (c : Core) : Core.SameBelow 0x6000 c (c.wellWrites e acc ws) :=
  List.foldlRecOn ws _ (motive := Core.SameBelow 0x6000 c) (.refl c) fun d same ww _ => same.trans (d.wellWrite_sameBelow e acc ww)

end

/-! ## Fields of endpoints, members and queues -/

section
variable (c : Core) (ep v : Nat) {f g : Fld}

theorem Core.fld_setFld_at (d : Nat) (fits : f.lo + f.width ≤ 64) : (c.setFld (fldAt f d) v).fld (fldAt f d) = v % 2 ^ f.width :=
  Core.fld_setFld_same c (fldAt f d) v fits

theorem Core.fld_setFld_at_apart (d : Nat) (h : g.off ≠ f.off ∨ g.lo + g.width ≤ f.lo ∨ f.lo + f.width ≤ g.lo) :
    (c.setFld (fldAt f d) v).fld (fldAt g d) = c.fld (fldAt g d) :=
  Core.fld_setFld_apart c v (h.imp_left fun other => by simpa [fldAt] using other)

theorem Core.tx_setTx_same (fits : f.lo + f.width ≤ 64) : (c.setTx ep f v).tx ep f = v % 2 ^ f.width := c.fld_setFld_at v (8 * ep) fits

theorem Core.tx_setTx_apart (h : g.off ≠ f.off ∨ g.lo + g.width ≤ f.lo ∨ f.lo + f.width ≤ g.lo) : (c.setTx ep f v).tx ep g = c.tx ep g :=
  c.fld_setFld_at_apart v (8 * ep) h

/-- The registers of endpoints that lie below those of their counters do not change with these. -/
theorem Core.setTx_sameBelow (high : 0x4d00 ≤ f.off) : Core.SameBelow 0x4d00 c (c.setTx ep f v) :=
  c.setFld_sameBelow (Nat.le_trans high (Nat.le_add_right ..)) v

theorem Core.SameBelow.duct {c d : Core} {limit : Nat} (h : Core.SameBelow limit c d) {ep : Nat} (low : f.off + 16 * ep < limit) :
    d.duct ep f = c.duct ep f := h.fld (fldAt f (16 * ep)) low

theorem Core.SameBelow.tx {c d : Core} {limit : Nat} (h : Core.SameBelow limit c d) {ep : Nat} (low : f.off + 8 * ep < limit) : d.tx ep f = c.tx ep f :=
  h.fld (fldAt f (8 * ep)) low

end

theorem Core.duct_kind_lt (c : Core) (ep : Nat) : c.duct ep fChDuctusAKind < 4 := fieldOf_lt _ _ 2

/-! ## Credits taken (R193, R199) -/

section
variable (c : Core) {ep : Nat} (n : Nat) (mask : Word)

theorem Core.takeCredits_ch : (c.takeCredits ep n mask).ch = c.ch := by
  unfold Core.takeCredits
  split
  · exact List.foldlRecOn _ _ (motive := fun d : Core => d.ch = c.ch) rfl fun _ same _ _ => same
  · rfl

theorem Core.takeCredits_half (half : c.duct ep fChDuctusAKind ≠ 2) :
    c.takeCredits ep n mask = c.setTx ep fChTxCredits (c.tx ep fChTxCredits - c.sendNeed ep n) := if_neg half

theorem Core.takeCredits_sameBelow : Core.SameBelow 0x4d00 c (c.takeCredits ep n mask) := by
  by_cases half : c.duct ep fChDuctusAKind = 2
  · simp only [Core.takeCredits, if_pos half]
    exact List.foldlRecOn _ _ (motive := Core.SameBelow 0x4d00 c) (.refl c) fun d same m _ =>
      same.trans (d.setFld_sameBelow (Nat.le_trans (by decide) (Nat.le_add_right fChMemberCredits.off (8 * m))) _)
  · rw [c.takeCredits_half n mask half]
    exact c.setTx_sameBelow ep _ (by decide)

/-- A half that holds the credits for a message keeps what is above them. -/
theorem Core.takeCredits_credits (half : c.duct ep fChDuctusAKind ≠ 2) :
    (c.takeCredits ep n mask).tx ep fChTxCredits = c.tx ep fChTxCredits - c.sendNeed ep n := by
  have fits : c.tx ep fChTxCredits < 2 ^ 16 := fieldOf_lt _ _ 16
  rw [c.takeCredits_half n mask half, c.tx_setTx_same ep _ (by decide)]
  exact Nat.mod_eq_of_lt (Nat.lt_of_le_of_lt (Nat.sub_le ..) fits)

end

/-! ## A message that leaves a sending half (R185, R188, R189, R198, R199, R208) -/

/-- The core once a message of `n` words has left the sending half of endpoint `ep`. -/
def Core.sent (ep n : Nat) (c : Core) : Core :=
  ((c.setTx ep fChTxSeq (c.tx ep fChTxSeq + 1)).setTx ep fChTxPosition (c.tx ep fChTxPosition + 8 * n)).bump fChSentCount 1

/-- The core once a copy of `n` words for member `m` has left a selective sending half. -/
def Core.sentMember (m n : Nat) (c : Core) : Core :=
  let d := (c.setMember m fChMemberSeq (c.member m fChMemberSeq + 1)).bump fChSentCount 1
  { d with ch := { d.ch with memberPos := d.ch.memberPos.put m ((c.ch.memberPos.look m 0 + 8 * n) % 2 ^ 32) 0 } }

theorem Core.sent_credits (ep n : Nat) (c : Core) : (c.sent ep n).tx ep fChTxCredits = c.tx ep fChTxCredits := by
  have counted (d : Core) : (d.bump fChSentCount 1).tx ep fChTxCredits = d.tx ep fChTxCredits :=
    Core.fld_setFld_apart d _ (.inl (Nat.ne_of_gt (Nat.lt_of_lt_of_le (by decide) (Nat.le_add_right fChTxCredits.off (8 * ep)))))
  rw [Core.sent, counted, Core.tx_setTx_apart _ _ _ (.inr (.inl (by decide))), Core.tx_setTx_apart _ _ _ (.inr (.inl (by decide)))]

section
variable {e : Env} {ep : Nat} (off : Nat) (ws : List (Word × Bool)) {s : State}

theorem State.launch_plain (plain : (s.core e.core).duct ep fChDuctusAKind = 0) :
    ∃ path, s.launch e ep off ws = (s.setCore e.core ((s.core e.core).sent ep ws.length)).inject e
      (if (s.core e.core).duct ep fChDuctusAOrder = 0 then 0 else 1) path (flitsOf ws.length)
      (.message ((s.core e.core).duct ep fChDuctusADestEp) ep ((s.core e.core).tx ep fChTxSeq) ((s.core e.core).tx ep fChTxPosition) off ws) := by
  simp only [State.launch, plain]
  split
  · exact ⟨_, rfl⟩
  · exact ⟨_, rfl⟩

theorem State.launch_tree (tree : (s.core e.core).duct ep fChDuctusAKind = 1) :
    s.launch e ep off ws = (s.setCore e.core ((s.core e.core).sent ep ws.length)).injectTree e ((s.core e.core).duct ep fChDuctusAGroup)
      (flitsOf ws.length)
      (.message ((s.core e.core).duct ep fChDuctusADestEp) ep ((s.core e.core).tx ep fChTxSeq) ((s.core e.core).tx ep fChTxPosition) off ws) := by
  simp only [State.launch, tree]
  rfl

theorem State.launch_fabric (fabric : (s.core e.core).duct ep fChDuctusAKind = 3) {b : Binding} (bound : s.bindingOf e (s.core e.core) ep = some b) :
    s.launch e ep off ws = (s.setCore e.core ((s.core e.core).sent ep ws.length)).injectFabric e b b.cls 0 (8 * ws.length)
      (.message b.ep ep ((s.core e.core).tx ep fChTxSeq) ((s.core e.core).tx ep fChTxPosition) off ws) := by
  simp only [State.launch, fabric, bound]
  rfl

/-- Along a binding that is not set nothing leaves. -/
theorem State.launch_core : (s.launch e ep off ws).core e.core = (s.core e.core).sent ep ws.length ∨
    (s.launch e ep off ws).core e.core = s.core e.core := by
  have counted : (s.setCore e.core ((s.core e.core).sent ep ws.length)).core e.core = (s.core e.core).sent ep ws.length := State.core_setCore_same ..
  simp only [State.launch]
  split
  · exact .inl counted
  · split
    · exact .inl counted
    · exact .inr rfl
  · split <;> exact .inl counted

theorem State.launch_ch : ((s.launch e ep off ws).core e.core).ch = (s.core e.core).ch := by
  rcases s.launch_core off ws with core | core <;> rw [core]
  rfl

theorem State.launch_credits : ((s.launch e ep off ws).core e.core).tx ep fChTxCredits = (s.core e.core).tx ep fChTxCredits := by
  rcases s.launch_core off ws with core | core <;> rw [core]
  exact Core.sent_credits ..

theorem State.launchMember_spec (m : Nat) : ∃ vc path body, s.launchMember e ep off ws m =
    (s.setCore e.core ((s.core e.core).sentMember m ws.length)).inject e vc path (flitsOf ws.length) body := by
  simp only [State.launchMember]
  split <;> exact ⟨_, _, _, rfl⟩

/-- The copies of a selective message, one packet for each member, leave the instructions of the channel engine. -/
theorem State.launchMembers_spec (ms : List Nat) (s : State) : let t := ms.foldl (fun s m => s.launchMember e ep off ws m) s
    (t.core e.core).ch.queue = (s.core e.core).ch.queue ∧ (t.core e.core).ch.running = (s.core e.core).ch.running ∧
      ∃ ps, t.mesh = s.mesh ++ ps ∧ ps.length = ms.length ∧ ∀ p ∈ ps, p.region = e.region ∧ p.gen = e.gen := by
  induction ms generalizing s with
  | nil => exact ⟨rfl, rfl, [], (List.append_nil _).symm, rfl, by simp⟩
  | cons m ms ih =>
    obtain ⟨vc, path, body, one⟩ := s.launchMember_spec (e := e) (ep := ep) off ws m
    obtain ⟨queue, running, ps, mesh, len, own⟩ := ih (s.launchMember e ep off ws m)
    have core : (s.launchMember e ep off ws m).core e.core = (s.core e.core).sentMember m ws.length := by
      rw [one]
      exact State.core_setCore_same ..
    have grown : ∃ p, (s.launchMember e ep off ws m).mesh = s.mesh ++ [p] ∧ p.region = e.region ∧ p.gen = e.gen := by
      rw [one]
      exact ⟨_, rfl, rfl, rfl⟩
    obtain ⟨p, first, here⟩ := grown
    rw [core] at queue running
    rw [first, List.append_assoc] at mesh
    exact ⟨queue, running, p :: ps, mesh, by simp [len], by simpa using ⟨here, own⟩⟩

end

/-! ## A ch.send starts (R193, R199, R208) -/

section
variable (e : Env) (o : EngOp) (c : Core)

/-- What a ch.send that begins to run reads through port 10: its words, and the core after the reads. -/
def Core.payload : List (Word × Bool) × Core × Bool :=
  (Core.chRun o c).wellRead e ⟨10, 4, o.pc⟩ false ((List.range (sendWords o.w)).map (o.aa + ·))

/-- The core once a ch.send runs, has read its payload and has taken its credits. -/
def Core.paid : Core := (c.payload e o).2.1.takeCredits (chEp o.w) (sendWords o.w) o.sa

theorem Core.payload_sameBelow : Core.SameBelow 0x6000 c (c.payload e o).2.1 :=
  .trans (c := Core.chRun o c) (.of_regs rfl) (Core.wellRead_sameBelow ..)

theorem chEp_lt (w : Word) : chEp w < 64 := fieldOf_lt w 0 6

theorem Core.payload_duct {f : Fld} (low : f.off < 0x4c00) : (c.payload e o).2.1.duct (chEp o.w) f = c.duct (chEp o.w) f :=
  (c.payload_sameBelow e o).duct (by have := chEp_lt o.w; omega)

theorem Core.payload_tx {f : Fld} (low : f.off < 0x4e00) : (c.payload e o).2.1.tx (chEp o.w) f = c.tx (chEp o.w) f :=
  (c.payload_sameBelow e o).tx (by have := chEp_lt o.w; omega)

theorem Core.paid_ch : (c.paid e o).ch = (Core.chRun o c).ch :=
  (Core.takeCredits_ch ..).trans (Core.wellRead_spec ..).1.ch

theorem Core.paid_duct {f : Fld} (low : f.off < 0x4900) : (c.paid e o).duct (chEp o.w) f = c.duct (chEp o.w) f :=
  ((Core.takeCredits_sameBelow ..).duct (by have := chEp_lt o.w; omega)).trans (c.payload_duct e o (Nat.lt_trans low (by decide)))

section
variable {e o c} (half : c.duct (chEp o.w) fChDuctusAKind ≠ 2)
include half

theorem Core.paid_credits : (c.paid e o).tx (chEp o.w) fChTxCredits = c.tx (chEp o.w) fChTxCredits - c.sendNeed (chEp o.w) (sendWords o.w) := by
  rw [Core.paid, Core.takeCredits_credits _ _ _ (by rwa [c.payload_duct e o (by decide)]), c.payload_tx e o (by decide), Core.sendNeed,
    c.payload_duct e o (by decide), Core.sendNeed]

/-- The sequence number and the position of the half do not change with its credits. -/
theorem Core.paid_tx {f : Fld} (low : f.off < 0x4e00) (above : fChTxCredits.width ≤ f.lo) : (c.paid e o).tx (chEp o.w) f = c.tx (chEp o.w) f := by
  rw [Core.paid, Core.takeCredits_half _ _ _ (by rwa [c.payload_duct e o (by decide)]),
    Core.tx_setTx_apart _ _ _ (.inr (.inr ((Nat.zero_add _).trans_le above))), c.payload_tx e o low]

end

end

section
variable {e : Env} {o : EngOp} {s : State}

theorem State.sendStart_half (half : (s.core e.core).duct (chEp o.w) fChDuctusAKind ≠ 2) : s.sendStart e o =
    (s.setCore e.core ((s.core e.core).paid e o)).launch e (chEp o.w) (fieldOf o.sb 0 19) ((s.core e.core).payload e o).1 := by
  have kind : ((s.core e.core).payload e o).2.1.selective o.w ≠ true := by
    rw [Core.selective, Core.payload_duct _ _ _ (by decide)]
    simpa using half
  exact if_neg kind

theorem State.sendStart_selective (selective : (s.core e.core).duct (chEp o.w) fChDuctusAKind = 2) : s.sendStart e o =
    ((s.core e.core).selected (chEp o.w) o.sa).foldl
      (fun t m => t.launchMember e (chEp o.w) (fieldOf o.sb 0 19) ((s.core e.core).payload e o).1 m)
      (s.setCore e.core ((s.core e.core).paid e o)) := by
  have kind : ((s.core e.core).payload e o).2.1.selective o.w = true := by
    rw [Core.selective, Core.payload_duct _ _ _ (by decide)]
    exact decide_eq_true selective
  have members : ((s.core e.core).payload e o).2.1.selected (chEp o.w) o.sa = (s.core e.core).selected (chEp o.w) o.sa := by
    simp only [Core.selected, Core.payload_duct _ _ _ (show fChDuctusBMembers.off < 0x4c00 by decide),
      Core.payload_duct _ _ _ (show fChDuctusBFirstMember.off < 0x4c00 by decide)]
  rw [← members]
  exact if_pos kind

/-- A send runs from its start, whatever its ductus. -/
theorem State.sendStart_ch : ((s.sendStart e o).core e.core).ch.queue = (s.core e.core).ch.queue.drop 1 ∧
    ((s.sendStart e o).core e.core).ch.running = (s.core e.core).ch.running ++ [o] := by
  have paid : ((s.setCore e.core ((s.core e.core).paid e o)).core e.core).ch = (Core.chRun o (s.core e.core)).ch := by
    rw [State.core_setCore_same, Core.paid_ch]
  by_cases kind : (s.core e.core).duct (chEp o.w) fChDuctusAKind = 2
  · obtain ⟨queue, running, -⟩ := State.launchMembers_spec (e := e) (ep := chEp o.w) (fieldOf o.sb 0 19) ((s.core e.core).payload e o).1
      ((s.core e.core).selected (chEp o.w) o.sa) (s.setCore e.core ((s.core e.core).paid e o))
    rw [State.sendStart_selective kind, queue, running, paid]
    exact ⟨rfl, rfl⟩
  · rw [State.sendStart_half kind, State.launch_ch, paid]
    exact ⟨rfl, rfl⟩

theorem State.sendStart_credits (half : (s.core e.core).duct (chEp o.w) fChDuctusAKind ≠ 2) :
    ((s.sendStart e o).core e.core).tx (chEp o.w) fChTxCredits =
      (s.core e.core).tx (chEp o.w) fChTxCredits - (s.core e.core).sendNeed (chEp o.w) (sendWords o.w) := by
  rw [State.sendStart_half half, State.launch_credits, State.core_setCore_same, Core.paid_credits half]

/-- The message of a send on the mesh: on its virtual channel to one core, or along its tree. -/
theorem State.sendStart_mesh (kind : (s.core e.core).duct (chEp o.w) fChDuctusAKind = 0 ∨ (s.core e.core).duct (chEp o.w) fChDuctusAKind = 1) :
    ∃ p, (s.sendStart e o).mesh = s.mesh ++ [p] ∧ p.region = e.region ∧ p.gen = e.gen ∧
      p.body = .message ((s.core e.core).duct (chEp o.w) fChDuctusADestEp) (chEp o.w) ((s.core e.core).tx (chEp o.w) fChTxSeq)
        ((s.core e.core).tx (chEp o.w) fChTxPosition) (fieldOf o.sb 0 19) ((s.core e.core).payload e o).1 ∧
      ((s.core e.core).duct (chEp o.w) fChDuctusAKind = 0 → p.vc = if (s.core e.core).duct (chEp o.w) fChDuctusAOrder = 0 then 0 else 1) ∧
      ((s.core e.core).duct (chEp o.w) fChDuctusAKind = 1 → p.vc = 0 ∧ p.group = some ((s.core e.core).duct (chEp o.w) fChDuctusAGroup)) := by
  have half : (s.core e.core).duct (chEp o.w) fChDuctusAKind ≠ 2 := by omega
  have core := State.core_setCore_same s e.core ((s.core e.core).paid e o)
  have duct {f : Fld} (low : f.off < 0x4900) := Core.paid_duct e o (s.core e.core) low
  have seq := Core.paid_tx (e := e) half (f := fChTxSeq) (by decide) (by decide)
  have pos := Core.paid_tx (e := e) half (f := fChTxPosition) (by decide) (by decide)
  rw [State.sendStart_half half]
  rcases kind with kind | kind
  · obtain ⟨path, launch⟩ := State.launch_plain (e := e) (ep := chEp o.w) (fieldOf o.sb 0 19) ((s.core e.core).payload e o).1
      (s := s.setCore e.core ((s.core e.core).paid e o)) (by rw [core, duct (by decide), kind])
    rw [core, duct (by decide), duct (by decide), seq, pos] at launch
    rw [launch]
    exact ⟨_, rfl, rfl, rfl, rfl, fun _ => rfl, fun tree => absurd (kind.symm.trans tree) (by decide)⟩
  · rw [State.launch_tree _ _ (by rw [core, duct (by decide), kind]), core, duct (by decide), duct (by decide), seq, pos]
    refine ⟨_, rfl, rfl, rfl, rfl, fun plain => absurd (kind.symm.trans plain) (by decide), fun _ => ⟨rfl, rfl⟩⟩

theorem State.sendStart_members (kind : (s.core e.core).duct (chEp o.w) fChDuctusAKind = 2) :
    ∃ ps, (s.sendStart e o).mesh = s.mesh ++ ps ∧ ps.length = ((s.core e.core).selected (chEp o.w) o.sa).length ∧
      ∀ p ∈ ps, p.region = e.region ∧ p.gen = e.gen := by
  rw [State.sendStart_selective kind]
  exact (State.launchMembers_spec _ _ _ (s.setCore e.core _)).2.2

theorem State.sendStart_fabric (kind : (s.core e.core).duct (chEp o.w) fChDuctusAKind = 3) {b : Binding}
    (bound : s.bindingOf e (s.core e.core) (chEp o.w) = some b) :
    ∃ x, (s.sendStart e o).fabWait = s.fabWait ++ [x] ∧ x.pkt.dstDev = b.dev ∧ x.pkt.dstRegion = b.region ∧ x.pkt.gen = b.gen ∧ x.pkt.cls = b.cls ∧
      x.pkt.body = .channel (.message b.ep (chEp o.w) ((s.core e.core).tx (chEp o.w) fChTxSeq)
        ((s.core e.core).tx (chEp o.w) fChTxPosition) (fieldOf o.sb 0 19) ((s.core e.core).payload e o).1) := by
  have half : (s.core e.core).duct (chEp o.w) fChDuctusAKind ≠ 2 := by omega
  have core := State.core_setCore_same s e.core ((s.core e.core).paid e o)
  have bound' : (s.setCore e.core ((s.core e.core).paid e o)).bindingOf e ((s.core e.core).paid e o) (chEp o.w) = some b := by
    rw [State.bindingOf, Core.paid_duct _ _ _ (by decide)]
    exact bound
  rw [State.sendStart_half half, State.launch_fabric _ _ (by rw [core, Core.paid_duct _ _ _ (by decide), kind]) (by rw [core, bound']), core,
    Core.paid_tx (e := e) half (f := fChTxSeq) (by decide) (by decide), Core.paid_tx (e := e) half (f := fChTxPosition) (by decide) (by decide)]
  exact ⟨_, rfl, rfl, rfl, rfl, rfl, rfl⟩

end

/-! ## A ch.send or a cp.rput is abandoned (R194, R208) -/

/-- An asynchronous trap leaves the work of every engine. -/
theorem Core.asyncTrap_halted (e : Env) (code idx source detail : Nat) (c : Core) :
    (c.asyncTrap e code idx source detail).ctl.halted = c.ctl.halted := by
  simp only [Core.asyncTrap, Core.enqueue]
  split <;> rfl

section
variable {e : Env} {o : EngOp} {s : State}

theorem State.abandonSend_spec : let t := s.abandonSend e o
    (t.core e.core).ch.queue = (s.core e.core).ch.queue.drop 1 ∧ (t.core e.core).ctl.breach = true ∧ t.mesh = s.mesh ∧
      (t.core e.core).ctl.cc = ccAfter o.w (s.core e.core).ctl := by
  have trapped := Core.asyncTrap_sameData e
    { s.core e.core with ch := { (s.core e.core).ch with queue := (s.core e.core).ch.queue.drop 1 } } 4 o.pc 4 (freeDetail 4 o.w)
  simp only [State.abandonSend, State.core_mapCore_same, Core.complete_eq]
  exact ⟨congrArg Chan.queue trapped.ch, Core.asyncTrap_breach .., rfl, ccAfter_congr trapped.ctl.cc⟩

/-- A cp.rput that is abandoned leaves the list of copies and completes with its trap. -/
theorem Core.abandonPut_spec (e : Env) (k : Nat) (r : CpRun) (detail : Nat) (c : Core) :
    let d := Core.cpRetire k r (c.asyncTrap e 4 r.op.pc 3 detail)
    d.cp.running = c.cp.running.eraseIdx k ∧ d.ctl.breach = true ∧ d.ctl.cc = ccAfter r.op.w c.ctl ∧ d.ctl.halted = c.ctl.halted := by
  have trapped := c.asyncTrap_sameData e 4 r.op.pc 3 detail
  obtain ⟨running, cc, -⟩ := Core.cpRetire_spec k r (c.asyncTrap e 4 r.op.pc 3 detail)
  have rest : (Core.cpRetire k r (c.asyncTrap e 4 r.op.pc 3 detail)).ctl.breach = (c.asyncTrap e 4 r.op.pc 3 detail).ctl.breach ∧
      (Core.cpRetire k r (c.asyncTrap e 4 r.op.pc 3 detail)).ctl.halted = (c.asyncTrap e 4 r.op.pc 3 detail).ctl.halted := by
    simp only [Core.cpRetire, Core.complete_eq]
    exact ⟨rfl, rfl⟩
  exact ⟨running.trans (by rw [trapped.cp]), rest.1.trans (Core.asyncTrap_breach ..), cc.trans (ccAfter_congr trapped.ctl.cc),
    rest.2.trans (Core.asyncTrap_halted ..)⟩

end

/-! ## A ch.credit starts (R196, R202, R247) -/

section
variable {e : Env} {o : EngOp} {s : State}

theorem Core.returnOutput_credits (q n : Nat) (c : Core) : let f := fldAt fChCqBOutCredits (16 * q)
    (c.returnOutput q n).fld f = min 2 (c.fld f + n) := by
  simp only [Core.returnOutput]
  split
  next few =>
    rw [Core.fld_setFld_at _ _ _ (by decide), Nat.min_eq_right few]
    exact Nat.mod_eq_of_lt (Nat.lt_of_le_of_lt few (show 2 < 2 ^ 2 by decide))
  next many =>
    rw [Core.bump, Core.fld_setFld_apart _ _ (.inl (Nat.ne_of_gt (Nat.lt_of_lt_of_le (by decide) (Nat.le_add_right fChCqBOutCredits.off (16 * q))))),
      Core.fld_setFld_at _ _ _ (by decide), Nat.min_eq_left (Nat.le_of_not_le many)]
    rfl

theorem Core.returnOutput_ch (q n : Nat) (c : Core) : (c.returnOutput q n).ch = c.ch := by
  simp only [Core.returnOutput]
  split <;> rfl

theorem State.sendTokens_work (n k : Nat) (s : State) : ((s.sendTokens e n k).core e.core).ch.queue = (s.core e.core).ch.queue ∧
    ((s.sendTokens e n k).core e.core).ch.running = (s.core e.core).ch.running :=
  State.sendTokens_keeps (P := fun c => c.ch.queue = (s.core e.core).ch.queue ∧ c.ch.running = (s.core e.core).ch.running) e
    (fun _ _ _ _ _ same => same) n k ⟨rfl, rfl⟩

/-- A credit return runs from its start, whatever it returns. -/
theorem State.creditStart_ch : ((s.creditStart e o).core e.core).ch.queue = (s.core e.core).ch.queue.drop 1 ∧
    ((s.creditStart e o).core e.core).ch.running = (s.core e.core).ch.running ++ [o] := by
  have runs := State.core_mapCore_same s e.core (Core.chRun o)
  simp only [State.creditStart]
  split
  · rw [State.core_setCore_same, Core.returnOutput_ch, runs]
    exact ⟨rfl, rfl⟩
  · split
    · rw [State.sendCredit, State.core_of_cores (State.sendBack_cores ..), runs]
      exact ⟨rfl, rfl⟩
    · obtain ⟨queue, running⟩ := State.sendTokens_work (e := e) (chEp o.w) (fieldOf o.w 6 16) (s.mapCore e.core (Core.chRun o))
      rw [queue, running, runs]
      exact ⟨rfl, rfl⟩

theorem State.creditStart_output (queue : (s.core e.core).land (chEp o.w) fChLandATarget = 5) :
    s.creditStart e o = (s.mapCore e.core (Core.chRun o)).setCore e.core
      ((Core.chRun o (s.core e.core)).returnOutput ((s.core e.core).land (chEp o.w) fChLandAQueue) (fieldOf o.w 6 16)) := by
  simp only [State.creditStart, State.core_mapCore_same]
  exact if_pos queue

/-- Units go back on VC 2 to a core of the region, and to no other (R196, R247). -/
theorem State.creditStart_units (other : (s.core e.core).land (chEp o.w) fChLandATarget ≠ 5) (units : (s.core e.core).land (chEp o.w) fChLandBRetMode = 0)
    (near : (s.core e.core).ch.retTo.look (chEp o.w) none = none) : let c := s.core e.core
    if e.inside (c.land (chEp o.w) fChLandBRetX) (c.land (chEp o.w) fChLandBRetY) then
      ∃ p, (s.creditStart e o).mesh = s.mesh ++ [p] ∧ p.vc = 2 ∧ p.body = .credit (c.land (chEp o.w) fChLandBRetEp) (chEp o.w) (fieldOf o.w 6 16)
    else (s.creditStart e o).mesh = s.mesh := by
  have near' : (Core.chRun o (s.core e.core)).ch.retTo.look (chEp o.w) none = none := near
  have land (f : Fld) : (Core.chRun o (s.core e.core)).land (chEp o.w) f = (s.core e.core).land (chEp o.w) f := rfl
  have start : s.creditStart e o = (s.mapCore e.core (Core.chRun o)).sendCredit e (chEp o.w) (fieldOf o.w 6 16) := by
    simp only [State.creditStart, State.core_mapCore_same]
    exact (if_neg other).trans (if_pos units)
  simp only [start, State.sendCredit, State.sendBack, State.core_mapCore_same, near', land]
  split
  · exact ⟨_, rfl, rfl, rfl⟩
  · rfl

end

/-! ## The oldest instruction starts (R193, R195) -/

section
variable {e : Env} {s : State} {o : EngOp} {q : List EngOp} (queue : (s.core e.core).ch.queue = o :: q) (alive : e.alive = true)
  (idle : s.sending e = false)
include queue alive idle

theorem State.chStart_send (op : opOf o.w = 0xD0) (bound : s.unbound e o = false)
    (credits : (s.core e.core).creditsFor (chEp o.w) (sendWords o.w) o.sa = true) : s.chStart e = s.sendStart e o := by
  simp only [State.chStart, queue, alive, idle, op, bound, credits, Bool.not_true, Bool.or_self, Bool.false_eq_true, if_true, if_false]

theorem State.chStart_unbound (op : opOf o.w = 0xD0) (unbound : s.unbound e o = true) : s.chStart e = s.abandonSend e o := by
  simp only [State.chStart, queue, alive, idle, op, unbound, Bool.not_true, Bool.or_self, Bool.false_eq_true, if_true, if_false]

theorem State.chStart_credit (op : opOf o.w = 0xD1) : s.chStart e = s.creditStart e o := by
  simp only [State.chStart, queue, alive, idle, op, Bool.not_true, Bool.or_self, Bool.false_eq_true, Nat.reduceEqDiff, if_true, if_false]

theorem State.chStart_other (send : opOf o.w ≠ 0xD0) (credit : opOf o.w ≠ 0xD1) : s.chStart e = s.setCore e.core (Core.chRun o (s.core e.core)) := by
  simp only [State.chStart, queue, alive, idle, send, credit, Bool.not_true, Bool.or_self, Bool.false_eq_true, if_false]
  rfl

end

theorem exec_channelStart {i : CoreId} {s t : State} (start : s.chStart (s.env i.val) = t) : exec (.channelStart i) s = .next t := congrArg _ start

/-- A send that has waited for the limit is abandoned (R194). -/
theorem exec_sendCreditAbandon_send {i : CoreId} {s : State} {o : EngOp} {q : List EngOp} (queue : (s.core i.val).ch.queue = o :: q)
    (limit : (s.core i.val).ctl.waitLimit ≠ 0) (waits : s.sendWaits (s.env i.val) = true) :
    exec (.sendCreditAbandon i none) s = .next (s.abandonSend (s.env i.val) o) := by
  have alive : (s.env i.val).alive = true := by
    have queue : (s.core (s.env i.val).core).ch.queue = o :: q := queue
    simp only [State.sendWaits, queue, Bool.and_eq_true] at waits
    exact waits.1.1.1
  show execSendCreditAbandon i none s = _
  simp [execSendCreditAbandon, queue, limit, waits, alive]

theorem exec_sendCreditAbandon_put {i : CoreId} {k : Nat} {r : CpRun} {s : State} (here : (s.core i.val).cp.running[k]? = some r)
    (alive : (s.env i.val).alive = true) (limit : (s.core i.val).ctl.waitLimit ≠ 0) (waits : (s.core i.val).putWaits r = true) :
    exec (.sendCreditAbandon i (some k)) s =
      .next (s.putCore i.val (Core.cpRetire k r ((s.core i.val).asyncTrap (s.env i.val) 4 r.op.pc 3 (freeDetail 4 r.op.w)))) := by
  show execSendCreditAbandon i (some k) s = _
  simp [execSendCreditAbandon, here, limit, waits, alive]

/-! ## Completion (R58, R193, R195) -/

section
variable (o : EngOp) (c : Core)

/-- What the completion of ch.count and ch.flags writes is a scalar register and the flags of the combining queues. -/
theorem Core.chFinish_frame : (c.chFinish o).ch = c.ch ∧ (c.chFinish o).ctl.cc = c.ctl.cc := by
  simp only [Core.chFinish]
  split
  · exact ⟨rfl, Ctl.land_cc ..⟩
  · split
    · exact ⟨rfl, Ctl.land_cc ..⟩
    · exact ⟨rfl, rfl⟩

theorem Core.chFinish_count (op : opOf o.w = 0xD2) : (c.chFinish o).ctl = c.ctl.land (eSa o.w)
    (BitVec.ofNat 64 (if fieldOf o.w 6 2 = 0 then c.fld (fldAt fChRxLanded (8 * chEp o.w)) else c.tx (chEp o.w) fChTxCredits)) false := by
  simp only [Core.chFinish, op, if_true]

theorem Core.chFinish_flags (op : opOf o.w = 0xD3) : (c.chFinish o).ctl = c.ctl.land (eSa o.w) (c.cqFlags.setWidth 64) false ∧
    (c.chFinish o).cqFlags = clearFlags c.cqFlags (fieldOf o.w 0 6) := by
  simp only [Core.chFinish, op, Nat.reduceEqDiff, if_true, if_false]
  refine ⟨rfl, ?_⟩
  rw [Core.cqFlags, Core.reg_setReg_same]
  exact BitVec.eq_of_toNat_eq (by simp; omega)

end

/-- The core once the instruction at place `idx` of those started has completed. -/
def Core.chDone (idx : Nat) (o : EngOp) (c : Core) : Core :=
  Core.complete o.w ({ c with ch := { c.ch with running := c.ch.running.eraseIdx idx } }.chFinish o)

theorem Core.chDone_spec (idx : Nat) (o : EngOp) (c : Core) : let d := c.chDone idx o
    d.ch.running = c.ch.running.eraseIdx idx ∧ d.ctl.cc = ccAfter o.w c.ctl ∧
      (opOf o.w = 0xD2 → eSa o.w ≠ 0 → d.ctl.busy (eSa o.w) = false ∧ d.ctl.s (eSa o.w) =
        BitVec.ofNat 64 (if fieldOf o.w 6 2 = 0 then c.fld (fldAt fChRxLanded (8 * chEp o.w)) else c.tx (chEp o.w) fChTxCredits)) ∧
      (opOf o.w = 0xD3 → eSa o.w ≠ 0 → d.ctl.s (eSa o.w) = c.cqFlags.setWidth 64 ∧ d.cqFlags = clearFlags c.cqFlags (fieldOf o.w 0 6)) := by
  simp only [Core.chDone, Core.complete_eq]
  generalize left : { c with ch := { c.ch with running := c.ch.running.eraseIdx idx } } = b
  obtain ⟨ch, cc⟩ := b.chFinish_frame o
  refine ⟨(congrArg Chan.running ch).trans (by rw [← left]), (ccAfter_congr cc).trans (by rw [← left]), fun op real => ?_, fun op real => ?_⟩
  · have written := b.chFinish_count o op
    rw [← left] at written ⊢
    exact ⟨(congrArg (·.busy (eSa o.w)) written).trans (Ctl.land_busy ..), (congrArg (·.s (eSa o.w)) written).trans (Ctl.s_land_eSa _ _ _ real).1⟩
  · obtain ⟨written, flags⟩ := b.chFinish_flags o op
    rw [← left] at written flags ⊢
    exact ⟨(congrArg (·.s (eSa o.w)) written).trans (Ctl.s_land_eSa _ _ _ real).1, flags⟩

theorem exec_channelCompletion {i : CoreId} {idx : Nat} {s : State} {o : EngOp} (here : (s.core i.val).ch.running[idx]? = some o)
    (alive : (s.env i.val).alive = true) (left : opOf o.w = 0xD0 → s.leaving (s.env i.val) (chEp o.w) = false) :
    exec (.channelCompletion i idx) s = .next (s.putCore i.val ((s.core i.val).chDone idx o)) := by
  have done : (!(s.env i.val).alive || (decide (opOf o.w = 0xD0) && s.leaving (s.env i.val) (chEp o.w))) = false := by
    simpa [alive] using left
  show execChannelCompletion i idx s = _
  simp only [execChannelCompletion, here, done]
  rfl

/-- Settles O28: the start of each channel instruction, the two ways to be abandoned, and completion. -/
theorem channelSends : Obligations.ChannelSends := by
  unfold Obligations.ChannelSends
  refine ⟨fun i s o q => ?_, fun i s o q => ?_, fun i k r s => ?_, fun i idx s o => ?_⟩
  · intro c e ep n off ws queue alive idle
    have popped : c.ch.queue.drop 1 = q := by rw [queue]; rfl
    refine ⟨fun op bound credits => ?_, fun op unbound => ?_, fun op => ?_, fun op => ?_⟩
    · obtain ⟨left, runs⟩ := State.sendStart_ch (e := e) (o := o) (s := s)
      exact ⟨_, exec_channelStart (State.chStart_send queue alive idle op bound credits), left.trans popped, runs, fun half =>
        State.sendStart_credits half, fun kind => State.sendStart_mesh kind, fun kind => State.sendStart_members kind,
        fun kind b bound => State.sendStart_fabric kind bound⟩
    · obtain ⟨left, rest⟩ := State.abandonSend_spec (e := e) (o := o) (s := s)
      exact ⟨_, exec_channelStart (State.chStart_unbound queue alive idle op unbound), left.trans popped, rest⟩
    · obtain ⟨left, runs⟩ := State.creditStart_ch (e := e) (o := o) (s := s)
      refine ⟨_, exec_channelStart (State.chStart_credit queue alive idle op), left.trans popped, runs, fun output => ?_, fun other units near => ?_⟩
      · rw [State.creditStart_output output]
        refine ⟨?_, rfl⟩
        exact (congrArg (Core.fld · _) (State.core_setCore_same ..)).trans (Core.returnOutput_credits ..)
      · exact State.creditStart_units other units near
    · refine exec_channelStart (State.chStart_other queue alive idle ?_ ?_) <;> rcases op with op | op <;> rw [op] <;> decide
  · intro c queue limit waits
    obtain ⟨left, rest⟩ := State.abandonSend_spec (e := s.env i.val) (o := o) (s := s)
    exact ⟨_, exec_sendCreditAbandon_send queue limit waits, left.trans (congrArg (List.drop 1) queue), rest⟩
  · intro c here alive limit waits
    obtain ⟨left, breach, counts, runs⟩ := c.abandonPut_spec (s.env i.val) k r (freeDetail 4 r.op.w)
    refine ⟨_, exec_sendCreditAbandon_put here alive limit waits, ?_⟩
    rw [State.core_putCore_same]
    refine ⟨left, breach, ?_, counts⟩
    rw [State.putCore_eq _ _ _ fun halted => runs.symm.trans halted]
    rfl
  · intro c c' here alive left
    refine ⟨_, exec_channelCompletion here alive left, ?_⟩
    simp only [c', State.core_putCore_same]
    exact c.chDone_spec idx o

end Sys2Proof.Machine

/-! SUPPORT. Credits that come back: what units, batch tokens and grants add to a sending half, and the arrival of each at its core. -/

namespace Sys2Proof.Machine

/-! ## Units added to a sending half (R196, R199) -/

section
variable (c : Core) (ep n : Nat)

/-- Excess units are counted in another register than those of endpoints and members. -/
theorem Core.fld_bump_excess {f : Fld} (high : 0x4400 ≤ f.off) : (c.bump fChCreditExcessCount 1).fld f = c.fld f :=
  Core.fld_setFld_apart c _ (.inl (Nat.ne_of_gt (Nat.lt_of_lt_of_le (by decide) high)))

theorem Core.addCredits_rest : (c.addCredits ep n).ch = c.ch ∧ (c.addCredits ep n).cp = c.cp := by
  simp only [Core.addCredits]
  split <;> exact ⟨rfl, rfl⟩

theorem Core.addCredits_credits : (c.addCredits ep n).tx ep fChTxCredits = min (c.tx ep fChTxCredits + n) (c.duct ep fChDuctusACredits) := by
  have top : c.duct ep fChDuctusACredits < 2 ^ fChTxCredits.width := fieldOf_lt _ _ 16
  simp only [Core.addCredits]
  split
  next fits => rw [Core.tx_setTx_same _ _ _ (by decide), Nat.min_eq_left fits, Nat.mod_eq_of_lt (Nat.lt_of_le_of_lt fits top)]
  next excess =>
    have high : 0x4400 ≤ (fldAt fChTxCredits (8 * ep)).off := Nat.le_trans (by decide) (Nat.le_add_right fChTxCredits.off (8 * ep))
    rw [Core.tx, Core.fld_bump_excess _ high, ← Core.tx, Core.tx_setTx_same _ _ _ (by decide), Nat.min_eq_right (Nat.le_of_not_le excess),
      Nat.mod_eq_of_lt top]

theorem Core.addCredits_duct {f : Fld} (inside : ep < 64) (low : 0x4400 ≤ f.off ∧ f.off < 0x4900) : (c.addCredits ep n).duct ep f = c.duct ep f := by
  have half (v : Nat) : (c.setTx ep fChTxCredits v).duct ep f = c.duct ep f := (c.setTx_sameBelow ep v (by decide)).duct (by omega)
  simp only [Core.addCredits]
  split
  · exact half _
  · exact (Core.fld_bump_excess _ (Nat.le_trans low.1 (Nat.le_add_right ..))).trans (half _)

/-- The members of a selective half, and the first of them that names a returning half (R199). -/
def Core.memberOf (x y from_ : Nat) : Option Nat :=
  ((List.range (c.duct ep fChDuctusBMembers + 1)).map (c.duct ep fChDuctusBFirstMember + ·)).find?
    (fun m => decide (c.member m fChMemberX = x) && decide (c.member m fChMemberY = y) && decide (c.member m fChMemberEp = from_))

theorem Core.addMember_cp (x y from_ : Nat) : (c.addMember ep n x y from_).cp = c.cp := by
  simp only [Core.addMember]
  split
  · rfl
  · split <;> rfl

theorem Core.addMember_credits {x y from_ m : Nat} (found : c.memberOf ep x y from_ = some m) :
    (c.addMember ep n x y from_).member m fChMemberCredits = min (c.member m fChMemberCredits + n) (c.duct ep fChDuctusACredits) := by
  have top : c.duct ep fChDuctusACredits < 2 ^ fChMemberCredits.width := fieldOf_lt _ _ 16
  have same (d : Core) (v : Nat) : (d.setMember m fChMemberCredits v).member m fChMemberCredits = v % 2 ^ fChMemberCredits.width :=
    d.fld_setFld_at v (8 * m) (by decide)
  rw [Core.memberOf] at found
  simp only [Core.addMember, found]
  split
  next fits => rw [same, Nat.min_eq_left fits, Nat.mod_eq_of_lt (Nat.lt_of_le_of_lt fits top)]
  next excess =>
    have high : 0x4400 ≤ (fldAt fChMemberCredits (8 * m)).off := Nat.le_trans (by decide) (Nat.le_add_right fChMemberCredits.off (8 * m))
    rw [Core.member, Core.fld_bump_excess _ high, ← Core.member, same, Nat.min_eq_right (Nat.le_of_not_le excess), Nat.mod_eq_of_lt top]

end

/-! ## Batch tokens (R197) -/

section
variable (c : Core) (ep : Nat)

/-- A core with the token counters of a sending half replaced. -/
def Core.withTokens (t : TxTokens) : Core := { c with ch := { c.ch with tokens := c.ch.tokens.put ep t tokensReset } }

theorem Core.withTokens_look (t : TxTokens) : (c.withTokens ep t).ch.tokens.look ep tokensReset = t := Tbl.look_put_same _ _ _ _

/-- The token counters once a token of batch `b` has been counted. -/
def TxTokens.counted (b : Nat) (t : TxTokens) : TxTokens := { t with counters := t.counters.set (b % 8) (t.counters.getD (b % 8) 0 + 1) }

theorem Core.addToken_eq (b : Nat) :
    c.addToken ep b = Core.releaseBatches ep 8 (c.withTokens ep ((c.ch.tokens.look ep tokensReset).counted b)) := rfl

theorem Core.releaseBatches_cp (fuel : Nat) : (Core.releaseBatches ep fuel c).cp = c.cp := by
  induction fuel generalizing c with
  | zero => rfl
  | succ fuel ih =>
    simp only [Core.releaseBatches]
    split
    · rw [ih, (Core.addCredits_rest ..).2]
    · rfl

theorem Core.addToken_cp (b : Nat) : (c.addToken ep b).cp = c.cp := by
  rw [Core.addToken_eq, Core.releaseBatches_cp]
  rfl

/-- No batch is released while the next lacks a token of its group. -/
theorem Core.releaseBatches_short {fuel : Nat} (short : c.duct ep fChDuctusBGroupSize = 0 ∨ (c.ch.tokens.look ep tokensReset).counters.getD
    ((c.ch.tokens.look ep tokensReset).next % 8) 0 < c.duct ep fChDuctusBGroupSize) : Core.releaseBatches ep fuel c = c := by
  cases fuel with
  | zero => rfl
  | succ fuel =>
    refine if_neg ?_
    simp only [Bool.and_eq_true, bne_iff_ne, decide_eq_true_eq]
    omega

/-- A batch of which every member of the group has sent its token is released: its counter starts again and its credits come back. -/
theorem Core.releaseBatches_full {fuel : Nat} {t : TxTokens} (tokens : c.ch.tokens.look ep tokensReset = t) (group : c.duct ep fChDuctusBGroupSize ≠ 0)
    (full : c.duct ep fChDuctusBGroupSize ≤ t.counters.getD (t.next % 8) 0) : Core.releaseBatches ep (fuel + 1) c =
      Core.releaseBatches ep fuel ((c.withTokens ep { counters := t.counters.set (t.next % 8) 0, next := t.next + 1 }).addCredits ep
        (c.duct ep fChDuctusBBatch)) := by
  simp only [Core.releaseBatches, tokens]
  exact if_pos (by simpa using ⟨group, full⟩)

theorem Core.addToken_alone {b : Nat} (alone : c.duct ep fChDuctusBGroupSize = 0) :
    (c.addToken ep b).ch.tokens.look ep tokensReset = (c.ch.tokens.look ep tokensReset).counted b := by
  have alone' (t : TxTokens) : (c.withTokens ep t).duct ep fChDuctusBGroupSize = 0 := alone
  rw [Core.addToken_eq, Core.releaseBatches_short _ _ (.inl (alone' _)), Core.withTokens_look]

/-- The token that completes the next batch, where the batch after it is not complete, releases that batch alone. -/
theorem Core.addToken_completes {b : Nat} {x : TxTokens} (inside_ep : ep < 64) (tokens : c.ch.tokens.look ep tokensReset = x) (eight : x.counters.length = 8)
    (next : x.next % 8 = b % 8) (group : 1 < c.duct ep fChDuctusBGroupSize)
    (last : x.counters.getD (b % 8) 0 + 1 = c.duct ep fChDuctusBGroupSize) (after : x.counters.getD ((b + 1) % 8) 0 < c.duct ep fChDuctusBGroupSize) :
    (c.addToken ep b).ch.tokens.look ep tokensReset = { counters := x.counters.set (b % 8) 0, next := x.next + 1 } ∧
      (c.addToken ep b).tx ep fChTxCredits = min (c.tx ep fChTxCredits + c.duct ep fChDuctusBBatch) (c.duct ep fChDuctusACredits) := by
  have inside : b % 8 < x.counters.length := by omega
  have other : (x.next + 1) % 8 ≠ b % 8 := by omega
  have follows : (x.next + 1) % 8 = (b + 1) % 8 := by omega
  have full : c.duct ep fChDuctusBGroupSize ≤ (x.counted b).counters.getD ((x.counted b).next % 8) 0 := by
    simp only [TxTokens.counted, next]
    rw [List.getD_eq_getElem?_getD, List.getElem?_set_self inside, Option.getD_some, last]
  have released : ({ counters := (x.counted b).counters.set ((x.counted b).next % 8) 0, next := (x.counted b).next + 1 } : TxTokens) =
      { counters := x.counters.set (b % 8) 0, next := x.next + 1 } := by
    simp only [TxTokens.counted, next, List.set_set]
  rw [Core.addToken_eq, tokens, Core.releaseBatches_full (fuel := 7) _ _ (Core.withTokens_look ..) (Nat.ne_of_gt (Nat.lt_trans (by decide) group)) full,
    released]
  generalize ended : ((c.withTokens ep (x.counted b)).withTokens ep { counters := x.counters.set (b % 8) 0, next := x.next + 1 }) = d
  have duct (f : Fld) : d.duct ep f = c.duct ep f := by rw [← ended]; rfl
  have look : (d.addCredits ep (c.duct ep fChDuctusBBatch)).ch.tokens.look ep tokensReset =
      { counters := x.counters.set (b % 8) 0, next := x.next + 1 } := by
    rw [(Core.addCredits_rest ..).1, ← ended, Core.withTokens_look]
  have short : (x.counters.set (b % 8) 0).getD ((x.next + 1) % 8) 0 < c.duct ep fChDuctusBGroupSize := by
    rwa [List.getD_eq_getElem?_getD, List.getElem?_set_ne other.symm, follows, ← List.getD_eq_getElem?_getD]
  have batch : (c.withTokens ep (x.counted b)).duct ep fChDuctusBBatch = c.duct ep fChDuctusBBatch := rfl
  rw [batch, Core.releaseBatches_short _ _ (.inr (by rwa [look, Core.addCredits_duct _ _ _ inside_ep (by decide), duct]))]
  refine ⟨look, ?_⟩
  rw [Core.addCredits_credits, duct, ← ended]
  rfl

end

/-! ## Arrivals (R196, R197, R199, R202, R211) -/

/-- A core at which no cp.rput runs sends nothing of its own when credits come. -/
theorem State.pumpPuts_idle {s : State} {i : Nat} (idle : ∀ r ∈ (s.core i).cp.running, opOf r.op.w ≠ 0xC5) : s.pumpPuts i = s := by
  refine List.foldlRecOn _ _ (motive := fun t => t = s) rfl fun t same k _ => ?_
  subst same
  split
  next x here => exact if_neg (idle x (List.mem_of_getElem? here))
  next => rfl

theorem State.core_dropPacket (s : State) (k i : Nat) : (s.dropPacket k).core i = s.core i := rfl

/-- What comes with a packet reaches its core, and the packet leaves the mesh. -/
theorem State.credited {s : State} {i : Nat} (idx : Nat) {c : Core} (idle : ∀ r ∈ (s.core i).cp.running, opOf r.op.w ≠ 0xC5)
    (copies : c.cp = (s.core i).cp) : let t := ((s.dropPacket idx).setCore i c).pumpPuts i
    t.mesh = s.mesh.eraseIdx idx ∧ t.core i = c := by
  rw [State.pumpPuts_idle (by rwa [State.core_setCore_same, copies])]
  exact ⟨rfl, State.core_setCore_same ..⟩

section
variable {idx i : Nat} {p : Packet} {s : State} (fresh : Fresh s idx p i) (live : (s.core i).well.wiping = false)
  (idle : ∀ r ∈ (s.core i).cp.running, opOf r.op.w ≠ 0xC5)
include fresh live idle

theorem exec_creditReturnArrival {ep srcEp n : Nat} (body : p.body = .credit ep srcEp n) : ∃ t, exec (.creditReturnArrival idx) s = .next t ∧
    t.mesh = s.mesh.eraseIdx idx ∧ t.core i = if (s.core i).duct ep fChDuctusAKind = 2 then (s.core i).addMember ep n p.sx p.sy srcEp
      else (s.core i).addCredits ep n := by
  have young : (s.dropPacket idx).aged p = false := fresh.young
  refine ⟨_, ?_, State.credited idx idle ?_⟩
  · show execCreditReturnArrival idx s = _
    simp only [execCreditReturnArrival, fresh.whole, body, young, fresh.current, State.core_dropPacket, live, Bool.false_eq_true, if_false]
    rfl
  · split
    · exact Core.addMember_cp ..
    · exact (Core.addCredits_rest ..).2

theorem exec_batchTokenArrival {ep b : Nat} (body : p.body = .token ep b) : ∃ t, exec (.batchTokenArrival idx) s = .next t ∧
    t.mesh = s.mesh.eraseIdx idx ∧ t.core i = (s.core i).addToken ep b := by
  have young : (s.dropPacket idx).aged p = false := fresh.young
  refine ⟨_, ?_, State.credited idx idle (Core.addToken_cp ..)⟩
  show execBatchTokenArrival idx s = _
  simp only [execBatchTokenArrival, fresh.whole, body, young, fresh.current, State.core_dropPacket, live, Bool.false_eq_true, if_false]
  rfl

theorem exec_combiningGrantArrival {ep : Nat} (body : p.body = .grant ep) : ∃ t, exec (.combiningGrantArrival idx) s = .next t ∧
    t.mesh = s.mesh.eraseIdx idx ∧ t.core i = (s.core i).addCredits ep ((s.core i).duct ep fChDuctusBBatch) := by
  have young : (s.dropPacket idx).aged p = false := fresh.young
  refine ⟨_, ?_, State.credited idx idle (Core.addCredits_rest ..).2⟩
  show execCombiningGrantArrival idx s = _
  simp only [execCombiningGrantArrival, fresh.whole, body, young, fresh.current, State.core_dropPacket, live, Bool.false_eq_true, if_false]

end

/-- Settles O29: each return by what it adds, and a stale one by its count. -/
theorem creditsArrive : Obligations.CreditsArrive := by
  unfold Obligations.CreditsArrive
  refine ⟨fun idx i ep srcEp n p s fresh body live _ idle => ?_, fun idx i ep b p s fresh body live alone idle => ?_,
    fun idx i ep b p s fresh body live inside idle => ?_, fun idx i ep p s fresh body live _ idle => ?_,
    fun idx i p c s whole young stale row => ?_⟩
  · obtain ⟨t, ht, mesh, core⟩ := exec_creditReturnArrival fresh live idle body
    refine ⟨t, ht, mesh, fun half => ?_, fun selective m found => ?_⟩
    · rw [core, if_neg half, Core.addCredits_credits]
    · rw [core, if_pos selective, Core.addMember_credits _ _ _ found]
  · obtain ⟨t, ht, mesh, core⟩ := exec_batchTokenArrival fresh live idle body
    refine ⟨t, ht, mesh, ?_⟩
    rw [core, Core.addToken_alone _ _ alone]
    rfl
  · intro x size eight next group last after
    obtain ⟨t, ht, mesh, core⟩ := exec_batchTokenArrival fresh live idle body
    refine ⟨t, ht, mesh, ?_⟩
    rw [core]
    exact Core.addToken_completes _ _ inside rfl eight next group last after
  · obtain ⟨t, ht, mesh, core⟩ := exec_combiningGrantArrival fresh live idle body
    refine ⟨t, ht, mesh, ?_⟩
    rw [core, Core.addCredits_credits]
  · have young : (s.dropPacket idx).aged p = false := young
    rcases row with ⟨rfl, ep, srcEp, n, body⟩ | ⟨rfl, ep, b, body⟩ | ⟨rfl, ep, body⟩
    · show execCreditReturnArrival idx s = _
      simp only [execCreditReturnArrival, whole, body, young, stale, Bool.false_eq_true, if_true, if_false]
      rfl
    · show execBatchTokenArrival idx s = _
      simp only [execBatchTokenArrival, whole, body, young, stale, Bool.false_eq_true, if_true, if_false]
      rfl
    · show execCombiningGrantArrival idx s = _
      simp only [execCombiningGrantArrival, whole, body, young, stale, Bool.false_eq_true, if_true, if_false]
      rfl

end Sys2Proof.Machine

/-! SUPPORT. Messages that arrive: what a message between a cluster and the Scribe Complex leaves alone, the packets that operand ports send back, the words
that land in the well, and the arrival of a message at its core and at a branch of its tree. -/

namespace Sys2Proof.Machine

/-! ## What a message over the hairline network leaves alone (R254, R258, R356) -/

/-- A state with other cores, clusters, messages that wait at a crossing and reports. -/
def State.withHub (s : State) (cores : Tbl Core) (clusters : Tbl Cluster) (held : List HubMsg) (notes : List Note) : State :=
  { s with cores := cores, clusters := clusters, hubHeld := held, notes := notes }

theorem State.hairline_withHub (l : List (Nat × Nat)) (s : State) : ∃ clusters, (s.hairline l).2 = s.withHub s.cores clusters s.hubHeld s.notes := by
  induction l generalizing s with
  | nil => exact ⟨s.clusters, rfl⟩
  | cons x l ih =>
    simp only [State.hairline]
    split
    · exact ⟨_, rfl⟩
    · obtain ⟨clusters, rest⟩ := ih (s.mapCluster x.1 (fun k => k.bump fLigHlPacketsCount 1))
      exact ⟨clusters, rest⟩

/-- A message changes nothing but cores, clusters, what waits at a crossing and the reports that have arrived. -/
theorem State.hubSend_withHub (s : State) (m : HubMsg) : ∃ cores clusters held notes, s.hubSend m = s.withHub cores clusters held notes := by
  have sent (a b : Nat) : ∃ clusters, (s.send a b).2 = s.withHub s.cores clusters s.hubHeld s.notes := State.hairline_withHub _ s
  cases m with
  | report a b x =>
    obtain ⟨clusters, sent⟩ := sent a b
    simp only [State.hubSend, sent]
    split
    · exact ⟨_, _, _, _, rfl⟩
    · split <;> exact ⟨_, _, _, _, rfl⟩
  | event a b i x =>
    obtain ⟨clusters, sent⟩ := sent a b
    simp only [State.hubSend, sent]
    split
    · exact ⟨_, _, _, _, rfl⟩
    · split <;> exact ⟨_, _, _, _, rfl⟩

theorem State.putCore_mesh (s : State) (i : Nat) (c : Core) : (s.putCore i c).mesh = s.mesh := by
  simp only [State.putCore]
  split
  · obtain ⟨_, _, _, _, told⟩ := (s.setCore i c).hubSend_withHub (.report (clusterOfCore i) (scribeHub (clusterOfCore i))
      (.coreHalted i (s.env i).region (s.env i).gen))
    rw [State.noteFrom, told]
    rfl
  · rfl

/-! ## Packets that are sent back (R196, R197) -/

/-- `t` has the packets of the mesh of `s`, and new ones behind them. -/
def State.Sends (s t : State) : Prop := ∃ ps, t.mesh = s.mesh ++ ps

theorem State.Sends.of_mesh {s t : State} (same : t.mesh = s.mesh) : s.Sends t := ⟨[], by rw [same, List.append_nil]⟩

theorem State.Sends.trans {s t u : State} (h : s.Sends t) (h' : t.Sends u) : s.Sends u := by
  obtain ⟨ps, first⟩ := h
  obtain ⟨qs, second⟩ := h'
  exact ⟨ps ++ qs, by rw [second, first, List.append_assoc]⟩

section
variable (e : Env)

theorem State.returnFar_mesh (s : State) (d : Nat × Nat) (kind x y : Nat) (body : Body) : (s.returnFar e d kind x y body).mesh = s.mesh := by
  simp only [State.returnFar]
  split <;> rfl

theorem State.sendBack_sends (s : State) (n : Nat) (body : Body) : s.Sends (s.sendBack e n body) := by
  simp only [State.sendBack]
  split
  · exact .of_mesh (State.returnFar_mesh ..)
  · split
    · exact ⟨_, rfl⟩
    · exact .of_mesh rfl

theorem State.sendTokens_sends (n k : Nat) (s : State) : s.Sends (s.sendTokens e n k) := by
  induction k generalizing s with
  | zero => exact .of_mesh rfl
  | succ k ih =>
    obtain ⟨ps, sent⟩ := s.sendBack_sends e n (.token ((s.core e.core).land n fChLandBRetEp) ((s.core e.core).ch.sentTokens.look n 0))
    exact .trans ⟨ps, sent⟩ (ih _)

theorem State.returnPort_sends (s : State) (target : Nat) (get : Core → Port) (set : Core → Port → Core) :
    s.Sends (s.returnPort e target get set) := by
  have taken (c : Core) : s.Sends (s.setCore e.core c) := .of_mesh rfl
  simp only [State.returnPort]
  split
  next => exact .of_mesh rfl
  next n _ =>
    generalize (if s.batchOf e (s.core e.core) n = 0 then 0 else (get (s.core e.core)).taken / 64 / s.batchOf e (s.core e.core) n) = tokens
    split
    · split
      · exact (taken _).trans (State.sendBack_sends ..)
      · exact .of_mesh rfl
    · split
      · exact .of_mesh rfl
      · exact (taken _).trans (State.sendTokens_sends ..)

end

theorem State.returnPorts_sends (s : State) (i : Nat) : s.Sends (s.returnPorts i) := by
  have load := s.returnPort_sends (s.env i) 2 (fun c => c.mx.load) (fun c p => { c with mx := { c.mx with load := p } })
  have stream (t : State) := t.returnPort_sends (s.env i) 3 (fun c => c.mx.stream) (fun c p => { c with mx := { c.mx with stream := p } })
  have port (t : State) := t.returnPort_sends (s.env i) 4 (fun c => c.vx.port) (fun c p => { c with vx := { c.vx with port := p } })
  exact (load.trans (stream _)).trans (port _)

/-! ## Words that land (R186) -/

theorem wordWrites_cons (a : Nat) (x : Word × Bool) (xs : List (Word × Bool)) :
    wordWrites a (x :: xs) = ⟨a, BitVec.allOnes 8, x.1, x.2⟩ :: wordWrites (a + 1) xs := by
  simp only [wordWrites, List.zipIdx_cons, List.map_cons, Nat.zero_add, List.zipIdx_succ, List.map_map, Nat.add_zero]
  refine congrArg _ (List.map_congr_left fun y _ => ?_)
  simp only [Function.comp_apply, Nat.add_assoc, Nat.add_comm 1]

section
variable (e : Env) (acc : Acc)

/-- A whole word written through a port is the word at its place, and leaves the bytes of the others. -/
theorem Core.wellWrite_bytes (c : Core) (a : Nat) (x : Word × Bool) :
    (∀ m, m < 8 → (c.wellWrite e acc ⟨a, BitVec.allOnes 8, x.1, x.2⟩).well.mem.byte (8 * a + m) = byteOf x.1 m) ∧
    ∀ b, b < 8 * a ∨ 8 * (a + 1) ≤ b → (c.wellWrite e acc ⟨a, BitVec.allOnes 8, x.1, x.2⟩).well.mem.byte b = c.well.mem.byte b := by
  obtain ⟨-, poison, mem⟩ := c.wellWrite_spec e acc (ww := ⟨a, BitVec.allOnes 8, x.1, x.2⟩) (by simp [WordWrite.void])
  rw [mem]
  refine ⟨fun m inside => Mem.byte_write_same _ _ m inside ?_, fun b outside => Mem.byte_write_other _ _ b outside⟩
  rw [BitVec.getLsbD_allOnes]
  exact decide_eq_true inside

theorem Core.wellWrites_bytes (ws : List (Word × Bool)) (a : Nat) (c : Core) : let d := c.wellWrites e acc (wordWrites a ws)
    (∀ n v, ws[n]? = some v → ∀ m, m < 8 → d.well.mem.byte (8 * (a + n) + m) = byteOf v.1 m) ∧
    ∀ b, b < 8 * a ∨ 8 * (a + ws.length) ≤ b → d.well.mem.byte b = c.well.mem.byte b := by
  induction ws generalizing a c with
  | nil => exact ⟨fun n v here => by simp at here, fun _ _ => rfl⟩
  | cons x xs ih =>
    obtain ⟨word, others⟩ := c.wellWrite_bytes e acc a x
    obtain ⟨later, outside⟩ := ih (a + 1) (c.wellWrite e acc ⟨a, BitVec.allOnes 8, x.1, x.2⟩)
    rw [wordWrites_cons]
    refine ⟨fun n v here m inside => ?_, fun b apart => ?_⟩
    · cases n with
      | zero =>
        obtain rfl : x = v := by simpa using here
        exact (outside _ (.inl (by omega))).trans (word m inside)
      | succ n =>
        rw [← Nat.add_assoc, Nat.add_right_comm a n 1]
        exact later n v (by simpa using here) m inside
    · rw [List.length_cons] at apart
      exact (outside b (by omega)).trans (others b (by omega))

end

/-! ## A message lands or is dropped (R190, R210, R212) -/

section
variable (c : Core)

theorem Core.heard_rest (p : Packet) (ep was : Nat) : (c.heard p ep was).regs = c.regs ∧ (c.heard p ep was).well = c.well ∧
    (c.heard p ep was).inbound = c.inbound := by
  simp only [Core.heard]
  split
  · exact ⟨rfl, rfl, rfl⟩
  · split
    · split
      · simp only [Core.contributor]
        split <;> exact ⟨rfl, rfl, rfl⟩
      · exact ⟨rfl, rfl, rfl⟩
    · exact ⟨rfl, rfl, rfl⟩

theorem Core.mxFeed_rest (e : Env) : (c.mxFeed e).regs = c.regs ∧ (c.mxFeed e).well = c.well ∧ (c.mxFeed e).inbound = c.inbound := by
  simp only [Core.mxFeed]
  split
  · exact ⟨rfl, rfl, rfl⟩
  · split
    · exact ⟨rfl, rfl, rfl⟩
    · split <;> exact ⟨rfl, rfl, rfl⟩

theorem Core.dropMsg_rest (e : Env) (code info : Nat) : (c.dropMsg e code info).well = c.well ∧
    (c.dropMsg e code info).inbound = c.inbound ++ [⟨4, code, info, e.gen⟩] := by
  have noted (w : Word) : let d := (c.bump fChDropCount 1).setReg fChDropLastInfo.off w
      d.well = c.well ∧ d.inbound = c.inbound := ⟨rfl, rfl⟩
  simp only [Core.dropMsg]
  split
  · exact ⟨rfl, rfl⟩
  · exact ⟨(noted _).1, congrArg (· ++ _) (noted _).2⟩

theorem Core.landed_spec (ep : Nat) (inside : ep < 64) : (c.landed ep).well = c.well ∧
    (c.landed ep).fld fChLandedCount = (c.fld fChLandedCount + 1) % 2 ^ fChLandedCount.width := by
  have apart : fChLandedCount.off ≠ (fldAt fChRxLanded (8 * ep)).off := by
    have low : fChRxLanded.off = 0x4f00 := rfl
    have high : fChLandedCount.off = 0x4148 := rfl
    simp only [fldAt, low, high]
    omega
  have counted : ((c.bump (fldAt fChRxLanded (8 * ep)) 1).bump fChLandedCount 1).fld fChLandedCount =
      (c.fld fChLandedCount + 1) % 2 ^ fChLandedCount.width := by
    rw [Core.fld_bump_same _ _ _ (by decide), Core.bump, Core.fld_setFld_apart _ _ (.inl apart)]
  simp only [Core.landed]
  split
  · exact ⟨rfl, (Core.fld_of_regs rfl _).trans counted⟩
  · exact ⟨rfl, counted⟩

variable {c} {e : Env} {p : Packet} {ep srcEp seq pos off : Nat} {ws : List (Word × Bool)}

theorem Core.landMessage_disabled (off_ : c.land ep fChLandAEnable = 0) :
    c.landMessage e p ep srcEp seq pos off ws = c.dropMsg e 1 (dropInfo p ep srcEp seq) := if_pos off_

theorem Core.landMessage_well (enabled : c.land ep fChLandAEnable ≠ 0) (target : c.land ep fChLandATarget = 0)
    (fits : off + ws.length ≤ c.land ep fChLandASize) (ends : c.land ep fChLandABase + off + ws.length ≤ 2 ^ 19) : ∃ acc,
    c.landMessage e p ep srcEp seq pos off ws = (c.wellWrites e acc (wordWrites (c.land ep fChLandABase + off) ws)).landed ep := by
  simp only [Core.landMessage, enabled, target, Nat.not_lt.mpr fits, Core.landWell, Nat.not_lt.mpr ends, if_false]
  exact ⟨_, rfl⟩

end

section
variable {idx i : Nat} {p : Packet} {s : State} (fresh : Fresh s idx p i) (live : (s.core i).well.wiping = false)
include fresh live

/-- The message leaves the mesh, and its core is what landing has made of it but for the ports that return credits. -/
theorem exec_messageArrival {ep srcEp seq pos off : Nat} {ws : List (Word × Bool)} (body : p.body = .message ep srcEp seq pos off ws) :
    ∃ t ps, exec (.messageArrival idx) s = .next t ∧ t.mesh = s.mesh.eraseIdx idx ++ ps ∧
      let d := (s.core i).landMessage (s.env i) p ep srcEp seq pos off ws
      (t.core i).regs = d.regs ∧ (t.core i).well = d.well ∧ (t.core i).inbound = d.inbound := by
  have young : (s.dropPacket idx).aged p = false := fresh.young
  generalize landing : (s.core i).landMessage (s.env i) p ep srcEp seq pos off ws = d
  generalize heard : (d.heard p ep ((s.core i).fld fChLandedCount)).mxFeed (s.env i) = d'
  have runs : exec (.messageArrival idx) s = .next (((s.dropPacket idx).putCore i d').returnPorts i) := by
    show execMessageArrival idx s = _
    simp only [execMessageArrival, fresh.whole, body, young, fresh.current, State.core_dropPacket, live, Bool.false_eq_true, if_false]
    rw [landing, heard]
  obtain ⟨ps, mesh⟩ := State.returnPorts_sends ((s.dropPacket idx).putCore i d') i
  obtain ⟨regs, well, inbound⟩ := d.heard_rest p ep ((s.core i).fld fChLandedCount)
  obtain ⟨regs', well', inbound'⟩ := (d.heard p ep ((s.core i).fld fChLandedCount)).mxFeed_rest (s.env i)
  rw [heard] at regs' well' inbound'
  refine ⟨_, ps, runs, ?_, State.returnPorts_keeps (P := fun c => c.regs = d.regs ∧ c.well = d.well ∧ c.inbound = d.inbound)
    (fun _ _ _ _ _ kept => kept) ?_⟩
  · rw [mesh, State.putCore_mesh]
    rfl
  · rw [State.core_putCore_same]
    exact ⟨regs'.trans regs, well'.trans well, inbound'.trans inbound⟩

end

/-! ## A branch of a multicast tree (R198, R248) -/

theorem State.withOuts_rest (s : State) (q : Packet) : (s.withOuts q).body = q.body ∧ (s.withOuts q).flits = q.flits ∧ (s.withOuts q).path = q.path := by
  simp only [State.withOuts]
  split <;> exact ⟨rfl, rfl, rfl⟩

theorem exec_multicastBranchAdmit {idx g : Nat} {dir : Fin 5} {p : Packet} {s : State} (up : s.dev = .up) (here : s.mesh[idx]? = some p)
    (group : p.group = some g) (whole : p.atEnd = true) (open_ : dir.val ∈ p.outs)
    (room : s.branchHolds p.stop (if dir.val = 4 then none else some (stepDir p.stop dir.val)) + p.flits.length ≤ 36) :
    ∃ t q, exec (.multicastBranchAdmit idx dir) s = .next t ∧ q.body = p.body ∧ q.flits = p.flits.map (fun _ => 1) ∧ q.path.head? = some p.stop ∧
      t.mesh = (if p.outs.filter (fun d => d != dir.val) = [] then s.mesh.eraseIdx idx
        else s.mesh.set idx { p with outs := p.outs.filter (fun d => d != dir.val) }) ++ [q] := by
  have admits : (p.atEnd && p.outs.contains dir.val && decide (s.branchHolds p.stop (if dir.val = 4 then none
      else some (stepDir p.stop dir.val)) + p.flits.length ≤ 36)) = true := by
    simpa [whole, open_] using room
  show ∃ t q, execMulticastBranchAdmit idx dir s = _ ∧ _
  simp only [execMulticastBranchAdmit, up, here, group, Option.bind_some, admits, bne_self_eq_false, Bool.false_eq_true, if_false, if_true,
    List.isEmpty_iff]
  refine ⟨_, _, rfl, ?_, ?_, ?_, rfl⟩ <;> by_cases local_ : dir.val = 4 <;> simp [local_, State.withOuts_rest]

/-- Settles O30: each message by what landing makes of its core. -/
theorem messagesArrive : Obligations.MessagesArrive := by
  unfold Obligations.MessagesArrive
  refine ⟨fun idx i ep srcEp seq pos off ws p s fresh body live inside => ?_,
    fun idx g dir p s up here group whole outs room => exec_multicastBranchAdmit up here group whole outs room⟩
  obtain ⟨t, ps, ht, mesh, regs, well, inbound⟩ := exec_messageArrival fresh live body
  refine ⟨fun disabled => ⟨t, ps, ht, mesh, ?_⟩, fun enabled target fits ends => ⟨t, ps, ht, mesh, ?_⟩⟩
  · obtain ⟨kept, told⟩ := (s.core i).dropMsg_rest (s.env i) 1 (dropInfo p ep srcEp seq)
    rw [Core.landMessage_disabled disabled] at well inbound
    exact ⟨inbound.trans told, well.trans kept⟩
  · obtain ⟨acc, lands⟩ := Core.landMessage_well (e := s.env i) (p := p) (srcEp := srcEp) (seq := seq) (pos := pos) enabled target fits ends
    rw [lands] at regs well
    obtain ⟨kept, counted⟩ := Core.landed_spec ((s.core i).wellWrites (s.env i) acc (wordWrites ((s.core i).land ep fChLandABase + off) ws)) ep inside
    rw [kept] at well
    rw [well, Core.fld_of_regs regs, counted, (Core.wellWrites_sameBelow ..).fld fChLandedCount (by decide)]
    exact ⟨rfl, Core.wellWrites_bytes ..⟩

end Sys2Proof.Machine

/-! SUPPORT. Combining queues and remote reads: what the end of a round makes of its core, the records that a round forwards, and the requests, the service
and the replies of remote reads. -/

namespace Sys2Proof.Machine

/-- The keys that are cleared read as their default again. -/
theorem Tbl.look_clear_same {α : Type} (t : Tbl α) {p : Nat → Bool} {k : Nat} (own : p k = true) (d : α) : (t.clear p).look k d = d := by
  induction t with
  | nil => rfl
  | cons x t ih =>
    obtain ⟨j, v⟩ := x
    by_cases keep : p j = true
    · simpa [Tbl.clear, keep] using ih
    · have other : j ≠ k := fun same => keep (same ▸ own)
      simpa [Tbl.clear, keep, Tbl.look, other] using ih

/-! ## The end of a round (R202, R204) -/

/-- Whether a slot of the store is one of queue `q`. -/
def Core.cqOwns (q : Nat) (c : Core) (k : Nat) : Bool := decide ((c.cqSlots q).1 ≤ k) && decide (k < (c.cqSlots q).1 + (c.cqSlots q).2)

/-- The core with the slots of queue `q` cleared, its flags told and its contributors forgotten. -/
def Core.cqCleared (q : Nat) (c : Core) : Core :=
  let d := c.cqFlag (cqOutFlags ((List.range (c.cqSlots q).2).map (fun k => c.ch.store.look ((c.cqSlots q).1 + k) lsZero)))
  { d with ch := { d.ch with
    contrib := d.ch.contrib.put q [] []
    store := d.ch.store.clear (c.cqOwns q)
    terms := d.ch.terms.clear (c.cqOwns q)
    closing := d.ch.closing.put q 0 0 } }

/-- The core once the round of queue `q` has ended. -/
def Core.cqEnded (q : Nat) (c : Core) : Core :=
  let d : Core := (c.cqCleared q).bump (fldAt fChCqBRound (16 * q)) 1
  if d.fld (fldAt fChCqBCountEn (16 * q)) = 1 then d.count (d.fld (fldAt fChCqBCounter (16 * q))) else d

section
variable (c : Core) {q : Nat}

theorem Core.cqCleared_fld {f : Fld} (high : 0x4c00 ≤ f.off) : (c.cqCleared q).fld (fldAt f (16 * q)) = c.fld (fldAt f (16 * q)) :=
  congrArg (fieldOf · f.lo f.width) (Tbl.look_put_ne c.regs (Nat.ne_of_gt (Nat.lt_of_lt_of_le (by decide) (Nat.le_trans high (Nat.le_add_right ..)))) _ _ _)

theorem Core.cqEnded_rest : (c.cqEnded q).ch = (c.cqCleared q).ch ∧ (c.cqEnded q).regs = ((c.cqCleared q).bump (fldAt fChCqBRound (16 * q)) 1).regs := by
  simp only [Core.cqEnded]
  split <;> exact ⟨rfl, rfl⟩

/-- A field of a queue's registers that is neither the round's nor a neighbour's keeps its value as the flags, the store and the round change. -/
theorem Core.cqEnded_fld {f : Fld} (high : 0x4c00 ≤ f.off) (apart : f.off ≠ fChCqBRound.off ∨ f.lo + f.width ≤ fChCqBRound.lo ∨
    fChCqBRound.lo + fChCqBRound.width ≤ f.lo) : (c.cqEnded q).fld (fldAt f (16 * q)) = c.fld (fldAt f (16 * q)) := by
  rw [Core.fld_of_regs c.cqEnded_rest.2, Core.bump, Core.fld_setFld_at_apart _ _ _ apart, c.cqCleared_fld high]

theorem Core.cqEnded_round : (c.cqEnded q).fld (fldAt fChCqBRound (16 * q)) = (c.fld (fldAt fChCqBRound (16 * q)) + 1) % 2 ^ fChCqBRound.width := by
  rw [Core.fld_of_regs c.cqEnded_rest.2, Core.bump, Core.fld_setFld_at _ _ _ (by decide), c.cqCleared_fld (by decide)]

theorem Core.cqEnded_slots {k : Nat} (first : (c.cqSlots q).1 ≤ k) (last : k < (c.cqSlots q).1 + (c.cqSlots q).2) :
    (c.cqEnded q).cqTerms k = 0 ∧ (c.cqEnded q).ch.store.look k lsZero = lsZero := by
  have own : c.cqOwns q k = true := by simp [Core.cqOwns, first, last]
  rw [Core.cqTerms, c.cqEnded_rest.1]
  exact ⟨Tbl.look_clear_same c.ch.terms own 0, Tbl.look_clear_same c.ch.store own lsZero⟩

end

section
variable {e : Env} {q : Nat} (s : State)

theorem State.returnFar_cores (d : Nat × Nat) (kind x y : Nat) (body : Body) : (s.returnFar e d kind x y body).cores = s.cores := by
  simp only [State.returnFar]
  split <;> rfl

/-- `t` is `s` with the round of queue `q` ended at core `i`, which was `c`: a grant has left through the return group. -/
structure State.RoundEnded (i q : Nat) (c : Core) (s t : State) : Prop where
  core : t.core i = c.cqEnded q
  grant : ∃ p, t.mesh = s.mesh ++ [p] ∧ p.body = .grant (c.fld (fldAt fChCqBRetEp (16 * q))) ∧ p.group = some (c.fld (fldAt fChCqAGroup (16 * q)))

theorem State.withOuts_group (p : Packet) : (s.withOuts p).group = p.group := by
  simp only [State.withOuts]
  split <;> rfl

theorem State.injectTree_spec (g f : Nat) (b : Body) : ∃ p, (s.injectTree e g f b).mesh = s.mesh ++ [p] ∧ p.body = b ∧ p.group = some g :=
  ⟨_, rfl, (State.withOuts_rest ..).1, State.withOuts_group ..⟩

theorem State.cqEnd_ended : State.RoundEnded e.core q (s.core e.core) s (s.cqEnd e q) := by
  generalize ended : (s.core e.core).cqEnded q = d
  have ends : s.cqEnd e q = ((s.core e.core).ch.contrib.look q []).foldl (fun (s : State) x => s.returnFar e (x.1, x.2.1) 2 x.2.2.1 x.2.2.2
      (.grant (d.fld (fldAt fChCqBRetEp (16 * q))))) ((s.setCore e.core d).injectTree e (d.fld (fldAt fChCqAGroup (16 * q))) 1
        (.grant (d.fld (fldAt fChCqBRetEp (16 * q))))) := by
    rw [← ended]
    rfl
  have told (l : List (Nat × Nat × Nat × Nat)) (t : State) (b : Body) : (l.foldl (fun (s : State) x => s.returnFar e (x.1, x.2.1) 2 x.2.2.1 x.2.2.2 b) t).mesh = t.mesh ∧
      (l.foldl (fun (s : State) x => s.returnFar e (x.1, x.2.1) 2 x.2.2.1 x.2.2.2 b) t).cores = t.cores :=
    List.foldlRecOn l _ (motive := fun u : State => u.mesh = t.mesh ∧ u.cores = t.cores) ⟨rfl, rfl⟩ fun u same x _ =>
      ⟨(State.returnFar_mesh ..).trans same.1, (State.returnFar_cores ..).trans same.2⟩
  have ret : d.fld (fldAt fChCqBRetEp (16 * q)) = (s.core e.core).fld (fldAt fChCqBRetEp (16 * q)) := by
    rw [← ended, Core.cqEnded_fld _ (by decide) (.inr (.inl (by decide)))]
  have group : d.fld (fldAt fChCqAGroup (16 * q)) = (s.core e.core).fld (fldAt fChCqAGroup (16 * q)) := by
    rw [← ended, Core.cqEnded_fld _ (by decide) (.inl (by decide))]
  rw [ret, group] at ends
  obtain ⟨mesh, cores⟩ := told ((s.core e.core).ch.contrib.look q []) ((s.setCore e.core d).injectTree e ((s.core e.core).fld (fldAt fChCqAGroup (16 * q))) 1
    (.grant ((s.core e.core).fld (fldAt fChCqBRetEp (16 * q))))) (.grant ((s.core e.core).fld (fldAt fChCqBRetEp (16 * q))))
  rw [← ends] at mesh cores
  refine ⟨?_, ?_⟩
  · rw [State.core_of_cores cores, ended]
    exact State.core_setCore_same ..
  · rw [mesh]
    exact State.injectTree_spec ..

end

/-! ## A full queue that writes its output (R202) -/

section
variable (e : Env) (c : Core) {q : Nat} (inside : q < 16)
include inside

/-- The records written take one output credit, and leave the queue's other fields and its slots. -/
theorem Core.cqWrite_spec : (c.cqWrite e q).ch = c.ch ∧
    (c.cqWrite e q).fld (fldAt fChCqBOutCredits (16 * q)) = c.fld (fldAt fChCqBOutCredits (16 * q)) - 1 ∧
    ∀ f : Fld, f.off ≤ 0x4c08 → (f.off ≠ fChCqBOutCredits.off ∨ f.lo + f.width ≤ fChCqBOutCredits.lo) →
      (c.cqWrite e q).fld (fldAt f (16 * q)) = c.fld (fldAt f (16 * q)) := by
  have low {f : Fld} (h : f.off ≤ 0x4c08) : (fldAt f (16 * q)).off < 0x6000 := by
    simp only [fldAt]
    omega
  have top : c.fld (fldAt fChCqBOutCredits (16 * q)) < 2 ^ fChCqBOutCredits.width := fieldOf_lt _ _ 2
  simp only [Core.cqWrite]
  refine ⟨(Core.wellWrites_sameEngines ..).ch, ?_, fun f below apart => ?_⟩
  · rw [(Core.wellWrites_sameBelow ..).fld _ (low (by decide)), Core.fld_setFld_at _ _ _ (by decide)]
    exact Nat.mod_eq_of_lt (Nat.lt_of_le_of_lt (Nat.sub_le ..) top)
  · rw [(Core.wellWrites_sameBelow ..).fld _ (low below), Core.fld_setFld_at_apart _ _ _ (apart.imp_right .inl)]

theorem Core.cqWrite_slots : (c.cqWrite e q).cqSlots q = c.cqSlots q := by
  obtain ⟨-, -, kept⟩ := c.cqWrite_spec e inside
  rw [Core.cqSlots, kept fChCqAFirst (by decide) (.inl (by decide)), kept fChCqASlots (by decide) (.inl (by decide)), Core.cqSlots]

end

/-! ## A full queue that forwards (R202) -/

section
variable {e : Env} {q : Nat} {s : State}

theorem State.cqForward_done {fuel : Nat} (all : (s.core e.core).ch.closing.look q 0 = ((s.core e.core).cqSlots q).2) : State.cqForward e q fuel s = s := by
  cases fuel with
  | zero => rfl
  | succ fuel =>
    refine if_pos ?_
    simp [all]

/-- The core once `n` records have been taken for the forwarding endpoint `ep` of a queue that has sent none. -/
def Core.forwarding (q ep n : Nat) (c : Core) : Core :=
  let d := c.takeCredits ep (2 * n) 0
  { d with ch := { d.ch with closing := d.ch.closing.put q n 0 } }

theorem State.cqForward_all {fuel ep : Nat} (fwd : (s.core e.core).fld (fldAt fChCqAFwdEp (16 * q)) = ep)
    (none_ : (s.core e.core).ch.closing.look q 0 = 0) (small : ((s.core e.core).cqSlots q).2 ≤ 256) (plain : (s.core e.core).duct ep fChDuctusAKind = 0)
    (credits : (s.core e.core).creditsFor ep (2 * ((s.core e.core).cqSlots q).2) 0 = true) :
    State.cqForward e q (fuel + 1) s = State.cqForward e q fuel ((s.setCore e.core ((s.core e.core).forwarding q ep ((s.core e.core).cqSlots q).2)).launch e ep 0
      ((List.range ((s.core e.core).cqSlots q).2).flatMap (fun k => (s.core e.core).cqRecord q k))) := by
  have some_ : ((s.core e.core).cqSlots q).2 ≠ 0 := Nat.succ_ne_zero _
  simp only [State.cqForward, fwd, none_, Nat.sub_zero, Nat.min_eq_right small, plain, credits, Nat.zero_add, some_]
  rfl

end

section
variable (c : Core) {q ep n : Nat}

theorem Core.forwarding_sameBelow : Core.SameBelow 0x4d00 c (c.forwarding q ep n) := (c.takeCredits_sameBelow (2 * n) 0).trans (.of_regs rfl)

theorem Core.forwarding_ch : (c.forwarding q ep n).ch.closing = c.ch.closing.put q n 0 ∧ (c.forwarding q ep n).ch.store = c.ch.store := by
  simp only [Core.forwarding, Core.takeCredits_ch, and_self]

theorem Core.forwarding_tx {f : Fld} (plain : c.duct ep fChDuctusAKind = 0) (apart : f.off ≠ fChTxCredits.off ∨ f.lo + f.width ≤ fChTxCredits.lo ∨
    fChTxCredits.lo + fChTxCredits.width ≤ f.lo) : (c.forwarding q ep n).tx ep f = c.tx ep f := by
  have taken : (c.forwarding q ep n).tx ep f = (c.takeCredits ep (2 * n) 0).tx ep f := rfl
  rw [taken, Core.takeCredits_half _ _ _ (by simp [plain]), Core.tx_setTx_apart _ _ _ apart]

/-- What a message that has left changes lies beside the registers of queues. -/
theorem Core.sent_cq {f : Fld} (q_ : q < 16) (queue : 0x4c00 ≤ f.off ∧ f.off ≤ 0x4c08) : (c.sent ep n).fld (fldAt f (16 * q)) = c.fld (fldAt f (16 * q)) := by
  have low : (fldAt f (16 * q)).off < 0x4d00 := by
    simp only [fldAt]
    omega
  have half : Core.SameBelow 0x4d00 c ((c.setTx ep fChTxSeq (c.tx ep fChTxSeq + 1)).setTx ep fChTxPosition (c.tx ep fChTxPosition + 8 * n)) :=
    (c.setTx_sameBelow ep _ (by decide)).trans (Core.setTx_sameBelow _ ep _ (by decide))
  have high : fChSentCount.off < (fldAt f (16 * q)).off := Nat.lt_of_lt_of_le (by decide) (Nat.le_trans queue.1 (Nat.le_add_right ..))
  exact (Core.fld_setFld_apart _ _ (.inl (Nat.ne_of_gt high))).trans (half.fld _ low)

end

/-! ## COMBINING_ROUND_CLOSE (R202) -/

section
variable {i : CoreId} {queue : Fin 16} {s : State}

variable (alive : (s.env i.val).alive = true) (full : (s.core i.val).cqFull queue.val = true)
include alive full

/-- A queue that writes its output ends its round from the core that has written it. -/
theorem exec_combiningRoundClose_writes (writes : (s.core i.val).fld (fldAt fChCqAOutMode (16 * queue.val)) = 0)
    (credit : (s.core i.val).fld (fldAt fChCqBOutCredits (16 * queue.val)) ≠ 0) : ∃ t, exec (.combiningRoundClose i queue) s = .next t ∧
    State.RoundEnded i.val queue.val ((s.core i.val).cqWrite (s.env i.val) queue.val) s t := by
  generalize written : (s.core i.val).cqWrite (s.env i.val) queue.val = d
  have runs : exec (.combiningRoundClose i queue) s = .next ((s.setCore i.val d).cqEnd (s.env i.val) queue.val) := by
    show execCombiningRoundClose i queue s = _
    simp only [execCombiningRoundClose, alive, full, writes, credit, Bool.not_true, Bool.or_self, Bool.false_eq_true, if_false, if_true, written]
  obtain ⟨core, grant⟩ := State.cqEnd_ended (e := s.env i.val) (q := queue.val) (s.setCore i.val d)
  have here : (s.setCore i.val d).core (s.env i.val).core = d := State.core_setCore_same ..
  rw [here] at core grant
  exact ⟨_, runs, core, grant⟩

theorem exec_combiningRoundClose_left (forwards : (s.core i.val).fld (fldAt fChCqAOutMode (16 * queue.val)) ≠ 0)
    (all : (s.core i.val).ch.closing.look queue.val 0 = ((s.core i.val).cqSlots queue.val).2)
    (left : s.leaving (s.env i.val) ((s.core i.val).fld (fldAt fChCqAFwdEp (16 * queue.val))) = false) : ∃ t,
    exec (.combiningRoundClose i queue) s = .next t ∧ State.RoundEnded i.val queue.val (s.core i.val) s t := by
  have done : State.cqForward (s.env i.val) queue.val 8 s = s := State.cqForward_done all
  refine ⟨_, ?_, State.cqEnd_ended (e := s.env i.val) s⟩
  show execCombiningRoundClose i queue s = _
  simp only [execCombiningRoundClose, alive, full, forwards, done, all, left, Bool.not_true, Bool.or_self, Bool.false_eq_true, if_false, if_true,
    Bool.not_false, Bool.and_true, decide_true]

theorem exec_combiningRoundClose_forwards {t : State} (forwards : (s.core i.val).fld (fldAt fChCqAOutMode (16 * queue.val)) ≠ 0)
    (sent : State.cqForward (s.env i.val) queue.val 8 s = t) (leaving : t.leaving (s.env i.val) ((t.core i.val).fld (fldAt fChCqAFwdEp (16 * queue.val))) = true) :
    exec (.combiningRoundClose i queue) s = .next t := by
  show execCombiningRoundClose i queue s = _
  simp only [execCombiningRoundClose, alive, full, forwards, sent, leaving, Bool.not_true, Bool.or_self, Bool.false_eq_true, if_false, Bool.and_false]

end

/-- A message whose flits have just been queued is leaving its core. -/
theorem State.leaving_inject {s : State} {e : Env} {ep vc n dst seq pos off : Nat} {path : List (Nat × Nat)} {ws : List (Word × Bool)} :
    (s.inject e vc path (flitsOf n) (.message dst ep seq pos off ws)).leaving e ep = true := by
  have flit : (List.replicate (flitsOf n) 0).contains 0 = true := by
    have some_ : flitsOf n ≠ 0 := by
      simp only [flitsOf, ceilDiv]
      omega
    simp [some_]
  simp only [State.leaving, State.inject, List.any_append, List.any_cons, flit]
  simp

section
variable {s : State} {e : Env} {q ep n : Nat} (plain : (s.core e.core).duct ep fChDuctusAKind = 0)

/-- The registers of a queue are those from before its records were forwarded. -/
theorem Core.cq_forwarded (c : Core) {f : Fld} (queue : q < 16) (low : 0x4c00 ≤ f.off ∧ f.off ≤ 0x4c08) (m : Nat) :
    ((c.forwarding q ep n).sent ep m).fld (fldAt f (16 * q)) = c.fld (fldAt f (16 * q)) := by
  rw [Core.sent_cq _ queue low]
  refine (c.forwarding_sameBelow).fld _ ?_
  simp only [fldAt]
  omega

include plain

/-- What a forwarding endpoint of the mesh launches goes to where its ductus points, under its own number and position. -/
theorem State.launch_forwarding (ep_lt : ep < 64) (ws : List (Word × Bool)) : ∃ vc path,
    (s.setCore e.core ((s.core e.core).forwarding q ep n)).launch e ep 0 ws =
      ((s.setCore e.core ((s.core e.core).forwarding q ep n)).setCore e.core (((s.core e.core).forwarding q ep n).sent ep ws.length)).inject e vc path (flitsOf ws.length)
        (.message ((s.core e.core).duct ep fChDuctusADestEp) ep ((s.core e.core).tx ep fChTxSeq) ((s.core e.core).tx ep fChTxPosition) 0 ws) := by
  have seq := (s.core e.core).forwarding_tx (q := q) (n := n) (f := fChTxSeq) plain (.inr (.inr (by decide)))
  have position := (s.core e.core).forwarding_tx (q := q) (n := n) (f := fChTxPosition) plain (.inr (.inr (by decide)))
  have below := (s.core e.core).forwarding_sameBelow (q := q) (ep := ep) (n := n)
  generalize (s.core e.core).forwarding q ep n = d at seq position below ⊢
  have duct (f : Fld) (low : f.off ≤ 0x4908) : d.duct ep f = (s.core e.core).duct ep f := below.duct (by omega)
  have here : (s.setCore e.core d).core e.core = d := State.core_setCore_same ..
  obtain ⟨path, launched⟩ := State.launch_plain (e := e) (ep := ep) 0 ws (s := s.setCore e.core d)
    (by rw [here, duct _ (by decide), plain])
  rw [here, duct fChDuctusADestEp (by decide), seq, position] at launched
  exact ⟨_, path, launched⟩

/-- The records of a whole round leave in one message along a plain ductus, and the queue remembers that they have left. -/
theorem State.cqForward_plain {fuel : Nat} (queue : q < 16) (fwd : (s.core e.core).fld (fldAt fChCqAFwdEp (16 * q)) = ep)
    (none_ : (s.core e.core).ch.closing.look q 0 = 0) (small : ((s.core e.core).cqSlots q).2 ≤ 256)
    (credits : (s.core e.core).creditsFor ep (2 * ((s.core e.core).cqSlots q).2) 0 = true) : ∃ t, State.cqForward e q (fuel + 1) s = t ∧
    (∃ p, t.mesh = s.mesh ++ [p] ∧ p.body = .message ((s.core e.core).duct ep fChDuctusADestEp) ep ((s.core e.core).tx ep fChTxSeq)
      ((s.core e.core).tx ep fChTxPosition) 0 ((List.range ((s.core e.core).cqSlots q).2).flatMap (fun k => (s.core e.core).cqRecord q k))) ∧
    (t.core e.core).ch.closing = (s.core e.core).ch.closing.put q ((s.core e.core).cqSlots q).2 0 ∧ (t.core e.core).ch.store = (s.core e.core).ch.store ∧
    t.leaving e ((t.core e.core).fld (fldAt fChCqAFwdEp (16 * q))) = true := by
  have ep_lt : ep < 64 := fwd ▸ fieldOf_lt _ _ 6
  obtain ⟨vc, path, launched⟩ := State.launch_forwarding (q := q) (n := ((s.core e.core).cqSlots q).2) plain ep_lt
    ((List.range ((s.core e.core).cqSlots q).2).flatMap (fun k => (s.core e.core).cqRecord q k))
  rw [State.cqForward_all fwd none_ small plain credits, launched]
  generalize (List.range ((s.core e.core).cqSlots q).2).flatMap (fun k => (s.core e.core).cqRecord q k) = ws
  generalize taken : s.setCore e.core ((s.core e.core).forwarding q ep ((s.core e.core).cqSlots q).2) = u
  have mesh : u.mesh = s.mesh := taken ▸ rfl
  generalize sent : State.inject (u.setCore e.core (((s.core e.core).forwarding q ep ((s.core e.core).cqSlots q).2).sent ep ws.length)) e vc path
    (flitsOf ws.length) (.message ((s.core e.core).duct ep fChDuctusADestEp) ep ((s.core e.core).tx ep fChTxSeq)
      ((s.core e.core).tx ep fChTxPosition) 0 ws) = t
  have core : t.core e.core = ((s.core e.core).forwarding q ep ((s.core e.core).cqSlots q).2).sent ep ws.length := by
    rw [← sent]
    exact State.core_setCore_same ..
  have closing : (t.core e.core).ch.closing = (s.core e.core).ch.closing.put q ((s.core e.core).cqSlots q).2 0 := by
    rw [core]
    exact (Core.forwarding_ch _).1
  have store : (t.core e.core).ch.store = (s.core e.core).ch.store := by
    rw [core]
    exact (Core.forwarding_ch _).2
  have cq (f : Fld) (low : 0x4c00 ≤ f.off ∧ f.off ≤ 0x4c08) : (t.core e.core).fld (fldAt f (16 * q)) = (s.core e.core).fld (fldAt f (16 * q)) := by
    rw [core, Core.cq_forwarded _ queue low]
  have slots : ((t.core e.core).cqSlots q).2 = ((s.core e.core).cqSlots q).2 := congrArg (· + 1) (cq fChCqASlots (by decide))
  refine ⟨t, State.cqForward_done ?_, ?_, closing, store, ?_⟩
  · rw [closing, slots]
    exact Tbl.look_put_same (s.core e.core).ch.closing q ((s.core e.core).cqSlots q).2 0
  · rw [← sent, ← mesh]
    exact ⟨_, rfl, rfl⟩
  · rw [cq fChCqAFwdEp (by decide), fwd, ← sent]
    exact State.leaving_inject

end

/-! ## Remote reads (R206, R207) -/

theorem readUnits_singleton (base w tag : Nat) : readUnits base [(w, tag)] = [((base + w) / 16, [(base + w, tag)])] := by
  simp [readUnits, List.eraseDups_cons]

/-- A unit takes the first place of an empty queue. -/
theorem Core.enterUnits_first (r : ReadFrom) (g : Nat) (ws : List (Nat × Nat)) {c : Core} (idle : c.ch.readQ = []) :
    c.enterUnits r [(g, ws)] = ({ c with ch := { c.ch with readQ := [⟨g, [{ r with words := ws }]⟩] } }, []) := by
  simp [Core.enterUnits, Core.enterUnit, idle]

section
variable {idx i : Nat} {p : Packet} {s : State} (fresh : Fresh s idx p i) (live : (s.core i).well.wiping = false)
include fresh live

theorem exec_readRequestArrival_disabled {ep srcEp slot gen : Nat} {ws : List (Nat × Nat)} (body : p.body = .readReq ep srcEp slot gen ws)
    (disabled : (s.core i).land ep fChLandAEnable = 0) : ∃ t, exec (.readRequestArrival idx) s = .next t ∧ t.mesh = s.mesh.eraseIdx idx ∧
      ∃ m, (t.core i).inbound = (s.core i).inbound ++ [m] ∧ m.cls = 4 ∧ m.code = 1 := by
  have runs : exec (.readRequestArrival idx) s = .next ((s.dropPacket idx).putCore i ((s.core i).dropMsg (s.env i) 1
      (dropInfo p ep srcEp (Config.readSeq srcEp).toNat))) := by
    show execReadRequestArrival idx s = _
    simp only [execReadRequestArrival, fresh.whole, body, fresh.young, fresh.current, live, disabled, Bool.false_eq_true, if_false, if_true]
  refine ⟨_, runs, State.putCore_mesh .., ⟨4, 1, dropInfo p ep srcEp (Config.readSeq srcEp).toNat, (s.env i).gen⟩, ?_, rfl, rfl⟩
  rw [State.core_putCore_same]
  exact (Core.dropMsg_rest ..).2

theorem exec_readRequestArrival_word {ep srcEp slot gen w tag : Nat} (body : p.body = .readReq ep srcEp slot gen [(w, tag)])
    (enabled : (s.core i).land ep fChLandAEnable = 1) (window : (s.core i).land ep fChLandATarget = 6) (inside : w < (s.core i).land ep fChLandASize)
    (idle : (s.core i).ch.readQ = []) : ∃ t r, exec (.readRequestArrival idx) s = .next t ∧ t.mesh = s.mesh.eraseIdx idx ∧
      (t.core i).ch.readQ = [⟨((s.core i).land ep fChLandABase + w) / 16, [r]⟩] ∧ r.words = [((s.core i).land ep fChLandABase + w, tag)] ∧ r.slot = slot := by
  have reach : ¬ (s.core i).land ep fChLandABase + (s.core i).land ep fChLandASize ≤ (s.core i).land ep fChLandABase + w := by omega
  generalize entered : ({ s.core i with ch := { (s.core i).ch with readQ := [⟨((s.core i).land ep fChLandABase + w) / 16,
    [{ State.requester p slot gen with words := [((s.core i).land ep fChLandABase + w, tag)] }]⟩] } } : Core) = d
  have runs : exec (.readRequestArrival idx) s = .next ((s.putCore i d).dropPacket idx) := by
    show execReadRequestArrival idx s = _
    simp only [execReadRequestArrival, fresh.whole, body, fresh.young, fresh.current, live, enabled, window, readUnits_singleton, List.filter_cons,
      List.any_cons, List.any_nil, reach]
    simp [Core.enterUnits_first _ _ _ idle, entered]
  refine ⟨_, { State.requester p slot gen with words := [((s.core i).land ep fChLandABase + w, tag)] }, runs, ?_, ?_, rfl, rfl⟩
  · exact congrArg (·.eraseIdx idx) (State.putCore_mesh ..)
  · rw [State.core_dropPacket, State.core_putCore_same, ← entered]

/-- The words of a reply are written to the well, and the run no longer awaits them. -/
theorem exec_readReplyArrival {slot k : Nat} {ws : List (Nat × Word × Bool)} {r : CpRun} (body : p.body = .readReply slot ws)
    (first : (s.core i).cp.running.findIdx? (fun r => r.slot = slot && opOf r.op.w = 0xC6) = some k) (here : (s.core i).cp.running[k]? = some r) :
    ∃ t, exec (.readReplyArrival idx) s = .next t ∧ t.mesh = s.mesh.eraseIdx idx ∧
      t.core i = ((s.core i).wellWrites (s.env i) ⟨11, 4, r.op.pc⟩ (beatWrites (ws.flatMap (fun x => Core.getBytes r.op (s.core i) x.1 x.2.1 x.2.2)))).setRun k
        { r with awaiting := r.awaiting - ws.length } := by
  have young : (s.dropPacket idx).aged p = false := fresh.young
  refine ⟨(s.dropPacket idx).putCore i _, ?_, State.putCore_mesh _ i _, State.core_putCore_same _ i _⟩
  show execReadReplyArrival idx s = _
  simp only [execReadReplyArrival, fresh.whole, body, young, fresh.current, State.core_dropPacket, live, first, here, Bool.false_eq_true, if_false]

end

/-! ### The unit at the head of the queue -/

theorem State.markRequests_rest (rs : List ReadFrom) (s : State) : (s.markRequests rs).mesh = s.mesh.map (Packet.markRaised rs) ∧
    (s.markRequests rs).cores = s.cores := by
  simp only [State.markRequests]
  refine List.foldlRecOn _ _ (motive := fun t : State => t.mesh = s.mesh.map (Packet.markRaised rs) ∧ t.cores = s.cores) ⟨rfl, rfl⟩ fun t same p _ => ?_
  simpa only [State.mapPort_frame] using same

/-- A reply goes to each requester of the device on VC 2. -/
theorem State.replies_spec (e : Env) (words : ReadFrom → List (Nat × Word × Bool)) (rs : List ReadFrom) (near : ∀ r ∈ rs, r.dev = none) (s : State) :
    let t := rs.foldl (fun (s : State) r => s.reply e r (words r)) s
    t.cores = s.cores ∧ ∃ ps, t.mesh = s.mesh ++ ps ∧ ps.length = rs.length ∧ ∀ p ∈ ps, p.vc = 2 := by
  induction rs generalizing s with
  | nil => exact ⟨rfl, [], (List.append_nil _).symm, rfl, by simp⟩
  | cons r rs ih =>
    have one : ∃ p, (s.reply e r (words r)).mesh = s.mesh ++ [p] ∧ (s.reply e r (words r)).cores = s.cores ∧ p.vc = 2 := by
      simp only [State.reply, near r List.mem_cons_self]
      exact ⟨_, rfl, rfl, rfl⟩
    obtain ⟨p, first, same, vc⟩ := one
    obtain ⟨cores, ps, mesh, len, vcs⟩ := ih (fun r later => near r (List.mem_cons_of_mem _ later)) (s.reply e r (words r))
    rw [first, List.append_assoc] at mesh
    exact ⟨cores.trans same, p :: ps, mesh, by simp [len], by simpa using ⟨vc, vcs⟩⟩

theorem State.serveUnit_spec {s : State} {e : Env} {u : ReadUnit} {q : List ReadUnit} (head : (s.core e.core).ch.readQ = u :: q)
    (near : ∀ r ∈ u.reqs, r.dev = none) : let t := s.serveUnit e u
    ∃ ps, ((t.core e.core).ch.readQ = q ∨ (t.core e.core).ch.readQ = markRaised u.reqs q) ∧
      (t.mesh = s.mesh ++ ps ∨ t.mesh = s.mesh.map (Packet.markRaised u.reqs) ++ ps) ∧ ps.length = u.reqs.length ∧ ∀ p ∈ ps, p.vc = 2 := by
  have reads (acc : Acc) (once : Bool) (as : List Nat) : ((s.core e.core).wellRead e acc once as).2.1.ch.readQ = u :: q := by
    rw [(Core.wellRead_spec e acc once as (s.core e.core)).1.ch, head]
  simp only [State.serveUnit, List.drop_one, reads, List.tail_cons]
  generalize u.reqs.all (fun r => r.wsw) = once
  generalize (Core.wellRead e _ once _ (s.core e.core)).2.2 = raised
  generalize served : s.setCore e.core _ = t
  have mesh : t.mesh = s.mesh := served ▸ rfl
  have left : (t.core e.core).ch.readQ = q ∨ (t.core e.core).ch.readQ = markRaised u.reqs q := by
    rw [← served, State.core_setCore_same]
    split
    · exact .inr rfl
    · exact .inl rfl
  generalize marks : (if (raised && !once) = true then t.markRequests u.reqs else t) = m
  obtain ⟨cores, ps, replies, len, vc⟩ := State.replies_spec e _ u.reqs near m
  refine ⟨ps, ?_, ?_, len, vc⟩
  · rw [State.core_of_cores cores, ← marks]
    split
    · rwa [State.core_of_cores (State.markRequests_rest ..).2]
    · exact left
  · rw [replies, ← marks]
    split
    · rw [(State.markRequests_rest ..).1, mesh]
      exact .inr rfl
    · rw [mesh]
      exact .inl rfl

theorem exec_readUnitService {i : CoreId} {s : State} {u : ReadUnit} {q : List ReadUnit} (alive : (s.env i.val).alive = true)
    (head : (s.core i.val).ch.readQ = u :: q) : exec (.readUnitService i) s = .next (s.serveUnit (s.env i.val) u) := by
  show execReadUnitService i s = _
  simp only [execReadUnitService, head, alive, if_true]

/-- Settles O31: the rounds by what closing makes of the queue, the reads by the queue's units. -/
theorem combiningAndRemoteReads : Obligations.CombiningAndRemoteReads := by
  unfold Obligations.CombiningAndRemoteReads
  refine ⟨fun i queue s => ?_, fun idx i ep srcEp slot gen ws p s fresh body live => ⟨fun disabled => ?_, fun w tag one enabled window inside idle => ?_⟩,
    fun i s u q alive head near => ?_, fun idx i slot k ws r p s fresh body live first here => ?_⟩
  · intro c e q fwd ends alive full
    refine ⟨fun writes credit => ?_, fun forwards all left => ?_, fun forwards none_ small plain credits => ?_⟩
    · obtain ⟨ch, credits, kept⟩ := c.cqWrite_spec e queue.isLt
      have slots := c.cqWrite_slots e queue.isLt
      obtain ⟨t, ht, ended⟩ := exec_combiningRoundClose_writes alive full writes credit
      have fld {f : Fld} (low : f.off ≤ 0x4c08) (apart : f.off ≠ fChCqBOutCredits.off ∨ f.lo + f.width ≤ fChCqBOutCredits.lo) :
        (c.cqWrite e q).fld (fldAt f (16 * q)) = c.fld (fldAt f (16 * q)) := kept f low apart
      obtain ⟨p, mesh, body, group⟩ := ended.grant
      refine ⟨t, ht, ⟨⟨p, mesh, ?_, ?_⟩, ?_, fun k first last => ?_⟩, ?_⟩
      · exact body.trans (congrArg Body.grant (fld (by decide) (.inr (by decide))))
      · exact group.trans (congrArg some (fld (by decide) (.inl (by decide))))
      · rw [ended.core]
        exact (Core.cqEnded_round _).trans (by rw [fld (by decide) (.inr (by decide))])
      · rw [ended.core]
        exact Core.cqEnded_slots _ (slots ▸ first) (slots ▸ last)
      · rw [ended.core]
        exact (Core.cqEnded_fld _ (by decide) (.inr (.inr (by decide)))).trans credits
    · obtain ⟨t, ht, ended⟩ := exec_combiningRoundClose_left alive full forwards all left
      refine ⟨t, ht, ended.grant, ?_, fun k first last => ?_⟩
      · rw [ended.core]
        exact Core.cqEnded_round _
      · rw [ended.core]
        exact Core.cqEnded_slots _ first last
    · obtain ⟨t, sent, grown, closing, store, leaving⟩ := State.cqForward_plain (e := e) (fuel := 7) plain queue.isLt rfl none_ small credits
      obtain ⟨p, mesh, body⟩ := grown
      refine ⟨t, p, exec_combiningRoundClose_forwards alive full forwards sent leaving, mesh, body, ?_, store⟩
      exact (congrArg (Tbl.look · q 0) closing).trans (Tbl.look_put_same ..)
  · exact exec_readRequestArrival_disabled fresh live body disabled
  · subst one
    exact exec_readRequestArrival_word fresh live body enabled window inside idle
  · obtain ⟨ps, left, mesh, len, vc⟩ := State.serveUnit_spec (e := s.env i.val) head near
    exact ⟨_, ps, exec_readUnitService alive head, left, mesh, len, vc⟩
  · obtain ⟨t, ht, mesh, core⟩ := exec_readReplyArrival fresh live body first here
    refine ⟨t, ht, mesh, ?_, ?_⟩
    · rw [core, Core.setRun, (Core.wellWrites_sameEngines ..).cp]
    · rw [core, Core.setRun]

end Sys2Proof.Machine

/-! SUPPORT. The Scribe's work: what an answer, an access over the mesh and the reset of a region leave of the Scribe Complex, what a reset of the device
leaves of it, and bindings, the fabric manager's role, forwarded commands, frames and watchdogs. -/

namespace Sys2Proof.Machine

/-! ## What the mesh and the hairline network leave of the Scribe Complex -/

theorem State.hubSend_scribe (s : State) (m : HubMsg) : (s.hubSend m).scribe = s.scribe := by
  obtain ⟨_, _, _, _, sent⟩ := s.hubSend_withHub m
  rw [sent]
  rfl

theorem State.putCore_scribe (s : State) (i : Nat) (c : Core) : (s.putCore i c).scribe = s.scribe := by
  simp only [State.putCore]
  split
  · exact State.hubSend_scribe ..
  · rfl

theorem State.wordCheck_scribe (s : State) (i w : Nat) (a b : Nat × Nat) : (s.wordCheck i w a b).2.scribe = s.scribe := by
  simp only [State.wordCheck]
  split <;> rfl

theorem State.cross_scribe (i n w d : Nat) : ∀ (p : List (Nat × Nat)) (s : State) (inp : Nat), (s.cross i n w d inp p).2.scribe = s.scribe
  | [], _, _ => rfl
  | [_], _, _ => rfl
  | a :: b :: r, s, inp => by
    simp only [State.cross]
    split
    · rfl
    · exact (State.cross_scribe i n w d (b :: r) _ _).trans (State.wordCheck_scribe ..)

theorem State.access_scribe (s : State) (a b : Nat × Nat) (out back w : Nat) : (s.access a b out back w).2.scribe = s.scribe := by
  simp only [State.access]
  split
  · exact State.cross_scribe ..
  · split
    · exact (State.cross_scribe ..).trans (State.cross_scribe ..)
    · exact State.cross_scribe ..

theorem State.portRead_scribe (s : State) (port i a : Nat) : (s.portRead port i a).2.scribe = s.scribe := by
  simp only [State.portRead]
  split
  · exact (State.putCore_scribe ..).trans (State.access_scribe ..)
  · exact State.access_scribe ..

theorem State.portWrite_scribe (s : State) (port i : Nat) (ws : List WordWrite) : (s.portWrite port i ws).scribe = s.scribe := by
  simp only [State.portWrite]
  split
  · exact (State.putCore_scribe ..).trans (State.access_scribe ..)
  · exact State.access_scribe ..

theorem State.dropIngress_scribe (s : State) (port k : Nat) : (s.dropIngress port k).scribe = s.scribe := by
  simp only [State.dropIngress]
  split
  · rfl
  · have read := State.portRead_scribe (s.bumpCli k fCliIngDropCount 1) port (s.ingCore k) (s.cli k fCliIngBase)
    split <;> rename_i heq <;> rw [heq] at read
    · exact read
    · exact (State.portWrite_scribe ..).trans read

/-! ## Acknowledgements outlast the reset of a job (R261, R264, R337) -/

theorem State.enterWiping_scribe (s : State) (r : Nat) (adv : Bool) : (s.enterWiping r adv).scribe = s.scribe := by
  have dissolved : (s.dissolve r).scribe = s.scribe :=
    List.foldlRecOn _ _ (motive := fun t : State => t.scribe = s.scribe) rfl fun _ h _ _ =>
      List.foldlRecOn _ _ (motive := fun t : State => t.scribe = s.scribe) h fun _ h _ _ => h
  have closed : (s.closeGeneration r adv).scribe = s.scribe := by
    cases adv
    · exact dissolved
    · exact dissolved
  have cores (t : State) (l : List Nat) (f : Core → Core) : (l.foldl (fun s i => s.mapCore i f) t).scribe = t.scribe :=
    List.foldlRecOn l _ (motive := fun u : State => u.scribe = t.scribe) rfl fun _ h _ _ => h
  have clusters (t : State) (l : List Nat) (f : Cluster → Cluster) : (l.foldl (fun s n => s.mapCluster n f) t).scribe = t.scribe :=
    List.foldlRecOn l _ (motive := fun u : State => u.scribe = t.scribe) rfl fun _ h _ _ => h
  have wiped (t : State) : (t.wipeUnits r Core.wipe).scribe = t.scribe :=
    State.foldl_wipeCluster (M := fun u => u.scribe = t.scribe) (fun _ _ h => h) (fun _ _ h => h) _ ((clusters _ _ _).trans (cores _ _ _))
  rw [State.enterWiping_eq]
  have kept := (wiped (s.closeGeneration r adv)).trans closed
  generalize (s.closeGeneration r adv).wipeUnits r Core.wipe = t at kept ⊢
  exact kept

theorem State.endIngress_acked (s : State) (r : Nat) : (s.endIngress r).scribe.acked = s.scribe.acked := by
  have dropped (p : Nat) (l : List IngFrame) (t : State) : (l.foldl (fun s f => s.dropIngress p f.client) t).scribe = t.scribe :=
    List.foldlRecOn l _ (motive := fun u : State => u.scribe = t.scribe) rfl fun _ h _ _ => (State.dropIngress_scribe ..).trans h
  have waiting : ((s.ports.map (·.1)).foldl (fun s p => s.dropWaiting r p) s).scribe = s.scribe :=
    List.foldlRecOn _ _ (motive := fun u : State => u.scribe = s.scribe) rfl fun _ h _ _ => (dropped _ _ _).trans h
  have passed (t : State) : (t.dropPassed r).scribe.acked = t.scribe.acked := (congrArg Scribe.acked (dropped 16 _ _)).trans rfl
  exact (passed _).trans (congrArg Scribe.acked waiting)

theorem State.resetRegion_acked (s : State) (r : Nat) : (s.resetRegion r).scribe.acked = s.scribe.acked := by
  simp only [State.resetRegion]
  split
  · exact congrArg Scribe.acked (State.enterWiping_scribe ..)
  · exact (congrArg Scribe.acked (State.hubSend_scribe ..)).trans (State.endIngress_acked _ r)
  · rfl

theorem State.resetJob_acked (s : State) (r : Nat) : (s.resetJob r).scribe.acked = s.scribe.acked :=
  List.foldlRecOn _ _ (motive := fun t : State => t.scribe.acked = s.scribe.acked) rfl fun t h q _ => (t.resetRegion_acked q).trans h

/-! ## Messages of the escape class (R321, R322) -/

/-- A message with a route waits for its reservation, and nothing else changes. -/
theorem State.escapeSend_routed (s : State) {route : List Nat} (routed : route ≠ []) (kind dev region gen bytes : Nat) (b : FabBody) :
    ∃ w, (s.escapeSend kind dev region gen route bytes b) = { s with fabWait := s.fabWait ++ [w], fabTag := s.fabTag + 1 } ∧ w.pkt.body = b := by
  have taken : (!route.isEmpty) = true := by simp [routed]
  simp only [State.escapeSend, taken, if_true]
  exact ⟨_, rfl, rfl⟩

/-- `t` is `s` but for what waits for the fabric, the receive space and the counters of messages discarded. -/
structure State.SameButEscape (s t : State) : Prop where
  cores : t.cores = s.cores
  rgns : t.rgns = s.rgns
  acked : t.scribe.acked = s.scribe.acked
  rgn : ∀ r, r < 64 → ∀ f : Fld, 0x2c1000 ≤ f.off → t.rgn r f = s.rgn r f

theorem State.bump_sameButEscape (s : State) {f : Fld} (low : f.off < 0x2c1000) : State.SameButEscape s (s.bump f 1) := by
  refine ⟨rfl, rfl, rfl, fun r _ g high => State.fld_setFld_other s f (fldAt g (0x40 * r)) _ ?_⟩
  simp only [fldAt]
  omega

theorem State.escapeSend_sameButEscape (s : State) (kind dev region gen : Nat) (route : List Nat) (bytes : Nat) (b : FabBody) :
    State.SameButEscape s (s.escapeSend kind dev region gen route bytes b) := by
  simp only [State.escapeSend]
  split
  · exact ⟨rfl, rfl, rfl, fun _ _ _ _ => rfl⟩
  · split
    · simp only [State.escapeHere]
      split
      · exact s.bump_sameButEscape (by decide)
      · exact ⟨rfl, rfl, rfl, fun _ _ _ _ => rfl⟩
    · exact s.bump_sameButEscape (by decide)

/-! ## Bindings (R208) -/

/-- The state with a binding set. -/
def State.withBinding (s : State) (k : Nat) (b : Binding) : State := { s with bindings := s.bindings.put k (some b) none }

theorem State.withBinding_spec (s : State) (k : Nat) (b : Binding) : (s.withBinding k b).bindings.look k none = some b ∧
    ∀ j, j ≠ k → (s.withBinding k b).bindings.look j none = s.bindings.look j none :=
  ⟨Tbl.look_put_same s.bindings k (some b) none, fun _ other => Tbl.look_put_ne s.bindings other (some b) none none⟩

section
variable {s : State} {region : Fin 64} {binding : Fin 256} {dev : Fin 262144} {rgn : Fin 64} {gen : Fin 256} {x y : Fin 128} {ep : Fin 64} {cls : Fin 8}
  {f : Scribe → Scribe} (serving : s.serving = true) (asked : s.asked 0x23 = true)
  (agree : Agrees (fun a => decide (a = fFabIdValid.off) || decide (a = fRgnCfgEnable.off + 0x40 * region.val)) s)
  (turn : s.scrTurn ⟨region.val, s.headSince, none, true⟩ (s.scrWaits (some region.val)) = some f)
include serving asked agree turn

theorem exec_bindingSet_notReady (other : s.rgn region.val fRgnStatusState ≠ 1) :
    exec (.bindingSet region binding dev rgn gen x y ep cls) s = .next ((s.scrServed f).answer 0x23 0x12 (detailWord region.val)) := by
  unfold Agrees at agree
  show execBindingSet region binding dev rgn gen x y ep cls s = _
  simp only [execBindingSet, asked, serving, agree, turn, Bool.not_true, Bool.or_self, Bool.false_eq_true, if_false]
  exact if_pos (bne_iff_ne.mpr other)

/-- A binding of a ready region is refused, or set. -/
theorem exec_bindingSet_ready (ready : s.rgn region.val fRgnStatusState = 1) : exec (.bindingSet region binding dev rgn gen x y ep cls) s =
    if (cls.val ≠ 2 ∧ cls.val ≠ 3 ∧ cls.val ≠ 4) ∨ s.fld fFabIdValid = 0 ∨ s.idInRange dev.val = false then
      .next ((s.scrServed f).answer 0x23 0x16 (detailWord binding.val))
    else .next (((s.scrServed f).withBinding (256 * region.val + binding.val) ⟨dev.val, rgn.val, gen.val, x.val, y.val, ep.val, cls.val⟩).answer 0x23 0 []) := by
  unfold Agrees at agree
  have ready' : ((s.scrServed f).rgn region.val fRgnStatusState != 1) = false := bne_eq_false_iff_eq.mpr ready
  show execBindingSet region binding dev rgn gen x y ep cls s = _
  simp only [execBindingSet, asked, serving, agree, turn, Bool.not_true, Bool.or_self, Bool.false_eq_true, if_false, ready']
  refine if_congr ?_ rfl rfl
  simp only [Bool.or_eq_true, Bool.and_eq_true, bne_iff_ne, decide_eq_true_eq, Bool.not_eq_true', and_assoc, or_assoc]
  exact Iff.rfl

end

/-! ## The fabric manager's role (R339, R340) -/

/-- Whether the role sends a command: to one of the devices it manages, or its own, and of its registers. -/
def fmSends (devices : List Nat) (x : FmSend) : Bool :=
  (decide (x.eui ∈ devices) || decide (x.eui = Config.eui.toNat)) && x.writes.all (fun w => fmRegister w.1.toNat)

/-- The device has the fabric manager's role for the devices named. -/
structure State.Manages (devices : List Nat) (s : State) : Prop where
  role : s.fld fScrStatusFmRole = 1
  managed : s.scribe.managed = devices

section
variable {devices : List Nat}

/-- What the role sends by a route waits for the fabric, and the role is kept. -/
theorem State.fmCommand_spec {s : State} {x : FmSend} (manages : s.Manages devices) (routed : x.route ≠ []) : (s.fmCommand x).Manages devices ∧
    (s.fmCommand x).fabWait.map (fun w => w.pkt.body) = s.fabWait.map (fun w => w.pkt.body) ++
      ([x].filter (fmSends devices)).map (fun x => FabBody.scribe Config.eui (x.writes.flatMap (fun w => bytesOfWord w.1 ++ bytesOfWord w.2))) := by
  have decides : (decide (s.fld fScrStatusFmRole = 1) && (s.scribe.managed.contains x.eui || decide (x.eui = Config.eui.toNat)) &&
      x.writes.all (fun w => fmRegister w.1.toNat)) = fmSends devices x := by
    simp only [fmSends, manages.role, manages.managed, List.contains_eq_mem, decide_true, Bool.true_and]
  simp only [State.fmCommand, decides]
  split
  next sends =>
    obtain ⟨w, sent, body⟩ := s.escapeSend_routed routed 8 x.dev 0 0 (x.writes.flatMap (fun w => bytesOfWord w.1 ++ bytesOfWord w.2)).length
      (.scribe Config.eui (x.writes.flatMap (fun w => bytesOfWord w.1 ++ bytesOfWord w.2)))
    rw [sent]
    refine ⟨⟨manages.role, manages.managed⟩, ?_⟩
    simp [sends, body]
  next silent => exact ⟨manages, by simp [silent]⟩

theorem State.fmCommands_spec (sends : List FmSend) (routed : ∀ x ∈ sends, x.route ≠ []) {s : State} (manages : s.Manages devices) :
    (sends.foldl State.fmCommand s).Manages devices ∧
    (sends.foldl State.fmCommand s).fabWait.map (fun w => w.pkt.body) = s.fabWait.map (fun w => w.pkt.body) ++
      (sends.filter (fmSends devices)).map (fun x => FabBody.scribe Config.eui (x.writes.flatMap (fun w => bytesOfWord w.1 ++ bytesOfWord w.2))) := by
  induction sends generalizing s with
  | nil => exact ⟨manages, (List.append_nil _).symm⟩
  | cons x sends ih =>
    obtain ⟨kept, one⟩ := State.fmCommand_spec manages (routed x List.mem_cons_self)
    obtain ⟨kept', rest⟩ := ih (fun y later => routed y (List.mem_cons_of_mem _ later)) kept
    refine ⟨kept', rest.trans ?_⟩
    rw [one, List.append_assoc, ← List.map_append, ← List.filter_append, List.singleton_append]

end

theorem exec_fmEnable {s : State} {devices : List Nat} {sends : List FmSend} (serving : s.serving = true) (asked : s.asked 0x40 = true)
    (valid : s.fld fFabIdValid = 1) (agree : Agrees (fun a => decide (a = fFabIdValid.off)) s) : exec (.fmEnable devices sends) s =
      .next ((sends.foldl State.fmCommand (({ s with scribe := { s.scribe with managed := devices } } : State).setFld fScrStatusFmRole 1)).answer 0x40 0 []) := by
  unfold Agrees at agree
  show execFmEnable devices sends s = _
  simp only [execFmEnable, asked, serving, agree, valid, Bool.not_true, Bool.or_self, Bool.false_eq_true, if_false]
  rfl

theorem exec_fmTrust {s : State} {p : List Byte} (serving : s.serving = true) (payload : s.payload 0x41 = some p) (eight : p.length = 8) :
    exec .fmTrust s = .next (((s.setReg fScrFmEuiEui.off (BitVec.ofNat 64 (numAt p 0 8))).setFld fScrStatusFmNamed
      (bit (BitVec.ofNat 64 (numAt p 0 8) != 0))).answer 0x41 0 []) := by
  have good : badPayload p 8 [(0, 8, true)] = none := by simp [badPayload, badField, eight]
  show execFmTrust s = _
  simp only [execFmTrust, payload, serving, good, Bool.not_true, Bool.false_eq_true, if_false]

/-- The flag of a fabric manager that is named: a payload of zero names none. -/
theorem named_flag (v : Word) : bit (v != 0) % 2 ^ fScrStatusFmNamed.width = if v = 0 then 0 else 1 := by
  by_cases zero : v = 0
  · simp [zero, bit]
  · rw [if_neg zero, bit, if_pos (bne_iff_ne.mpr zero)]
    rfl

/-! ## What a reset of the device leaves (R386 to R390) -/

theorem State.cutShort_rest (s : State) : s.cutShort.dev = s.dev ∧ s.cutShort.life = s.life := by
  simp only [State.cutShort]
  split <;> exact ⟨rfl, rfl⟩

theorem State.logCause_spec (s : State) (cause : Nat) (small : cause < 16) : (s.logCause cause).dev = s.dev ∧ (s.logCause cause).life = s.life ∧
    (s.logCause cause).fld fAoiCauseLast = cause := by
  have last := (s.setFld fAoiCausePrevious (s.fld fAoiCauseLast)).fld_setFld_same fAoiCauseLast cause (by decide)
  refine ⟨rfl, rfl, Eq.trans ?_ (last.trans (Nat.mod_eq_of_lt small))⟩
  exact State.fld_of_rim rfl _

/-- A device that runs or is frozen goes into reset, its lifecycle's fuses as they are, and the cause is kept. -/
theorem State.deviceReset_spec {s : State} (live : s.dev = .up ∨ s.dev = .frozen) {cause : Nat} (small : cause < 16) :
    (s.deviceReset cause).dev = .inReset ∧ (s.deviceReset cause).life = s.life ∧ (s.deviceReset cause).fld fAoiCauseLast = cause := by
  obtain ⟨dev, life⟩ := s.cutShort_rest
  obtain ⟨dev', life', last⟩ := ((s.cutShort.clearDevice.bump fAoiCauseResets 1).setFld fAoiStartTimerRunning 0).logCause_spec cause small
  have resets : s.deviceReset cause = ((s.cutShort.clearDevice.bump fAoiCauseResets 1).setFld fAoiStartTimerRunning 0).logCause cause := by
    rcases live with up | frozen
    · simp only [State.deviceReset, dev, up]
    · simp only [State.deviceReset, dev, frozen]
  rw [resets]
  exact ⟨dev', life'.trans life, last⟩

theorem State.sendReply_rest (s : State) (r : Reply) : (s.sendReply r).dev = s.dev ∧ (s.sendReply r).life = s.life := by
  have kept (t : State) (iface n : Nat) (x : Session) : (t.setSession iface n x).dev = t.dev ∧ (t.setSession iface n x).life = t.life := by
    simp only [State.setSession]
    split <;> exact ⟨rfl, rfl⟩
  simp only [State.sendReply]
  split
  · exact kept ..
  · split
    · exact ⟨rfl, rfl⟩
    · split
      · exact ⟨rfl, rfl⟩
      · exact kept ..

theorem State.answerHead_rest (s : State) (op status : Nat) (payload : List Byte) : (s.answerHead op status payload).dev = s.dev ∧
    (s.answerHead op status payload).life = s.life := by
  simp only [State.answerHead]
  split
  · exact ⟨rfl, rfl⟩
  · split
    · exact State.sendReply_rest ..
    · exact ⟨rfl, rfl⟩

section
variable {s : State} (live : s.dev = .up ∨ s.dev = .frozen)
include live

theorem deviceReset_comes (asked : s.asked 0x50 = true) : (!s.asked 0x50 || (s.dev != .up && s.dev != .frozen)) = false := by
  rcases live with up | frozen
  · simp [asked, up]
  · simp [asked, frozen]

theorem exec_deviceReset_plain (asked : s.asked 0x50 = true) {eui : Option Word} : exec (.deviceReset none eui) s =
    .next ((s.answerHead 0x50 0 []).keepSent ((s.answerHead 0x50 0 []).deviceReset 2)) := by
  show execDeviceReset none eui s = _
  simp only [execDeviceReset, deviceReset_comes live asked, Bool.false_eq_true, if_false]

/-- A change of the lifecycle state that is allowed comes with the reset. -/
theorem exec_deviceReset_changes (asked : s.asked 0x50 = true) {g : Fin 5} {eui : Option Word} {v : Nat} (target : s.lifeTo g.val eui = some v) :
    exec (.deviceReset (some g) eui) s = .next ((s.answerHead 0x50 0 []).keepSent ((s.answerHead 0x50 0 []).changeLife v)) := by
  show execDeviceReset (some g) eui s = _
  simp only [execDeviceReset, deviceReset_comes live asked, target, Bool.false_eq_true, if_false]

theorem exec_deviceReset_refused (asked : s.asked 0x50 = true) {g : Fin 5} {eui : Option Word} (stays : s.lifeTo g.val eui = none) :
    exec (.deviceReset (some g) eui) s = .next (s.answer 0x50 5 (detailWord s.lifecycle)) := by
  show execDeviceReset (some g) eui s = _
  simp only [execDeviceReset, deviceReset_comes live asked, stays, Bool.false_eq_true, if_false]

/-- What the reset of the device that a request asks for leaves, once the request has been answered. -/
theorem State.deviceReset_answered : let t := (s.answerHead 0x50 0 []).deviceReset 2
    t.dev = .inReset ∧ t.life = s.life ∧ t.fld fAoiCauseLast = 2 := by
  obtain ⟨dev, life⟩ := s.answerHead_rest 0x50 0 []
  obtain ⟨reset, kept, last⟩ := State.deviceReset_spec (s := s.answerHead 0x50 0 []) (by rwa [dev]) (cause := 2) (by decide)
  exact ⟨reset, kept.trans life, last⟩

end

/-! ## Commands and resets from other devices (R337, R340) -/

/-- The state with a message taken from the receive space. -/
def State.received (s : State) (idx : Nat) : State := { s with scribe := { s.scribe with escape := s.scribe.escape.eraseIdx idx } }

theorem exec_fmCommandArrival {s : State} {idx : Nat} {x : FabPkt} {source : Word} {bytes : List Byte} {writes : List (Word × Word)} {reset : Bool}
    (serving : s.serving = true) (here : s.scribe.escape[idx]? = some x) (kind : x.kind = 8) (body : x.body = .scribe source bytes) :
    exec (.fmCommandArrival idx writes reset) s = if s.trusts source = false then .next ((s.received idx).bump fScrAuthFailCount 1)
      else if reset then .next ((s.received idx).deviceReset 7) else .next (writes.foldl State.fabricWrite (s.received idx)) := by
  have comes : (!s.serving || x.kind != 8) = false := by simp [serving, kind]
  show execFmCommandArrival idx writes reset s = _
  simp only [execFmCommandArrival, here, body, comes, Bool.false_eq_true, if_false]
  cases s.trusts source <;> rfl

/-- The state once a forwarded reset from device `dev` for region `r` has been taken and is to be acknowledged. -/
def State.acknowledged (s : State) (idx dev r : Nat) : State :=
  { s with scribe := { s.scribe with escape := s.scribe.escape.eraseIdx idx, acked := s.scribe.acked ++ [(dev, r)] } }

/-- A forwarded reset is acknowledged, and resets the region's job where the generation is its own. -/
theorem exec_jobResetArrival {s : State} {idx : Nat} {x : FabPkt} {source : Word} (serving : s.serving = true) (here : s.scribe.escape[idx]? = some x)
    (body : x.body = .jobReset source) : ∃ t, State.SameButEscape (s.acknowledged idx x.srcDev (x.dstRegion % 64)) t ∧
      exec (.jobResetArrival idx) s = .next (if s.rgn (x.dstRegion % 64) fRgnCfgEnable = 1 ∧ s.rgn (x.dstRegion % 64) fRgnStatusGeneration = x.gen then
        t.resetJob (x.dstRegion % 64) else t) := by
  have region : x.dstRegion % 64 < 64 := Nat.mod_lt _ (by decide)
  have sent := (s.acknowledged idx x.srcDev (x.dstRegion % 64)).escapeSend_sameButEscape 7 x.srcDev x.srcRegion 0
    (Config.escRoute x.srcDev s.mono) 2 (.scribe Config.eui (bytesOfNat 2 0))
  generalize escaped : (s.acknowledged idx x.srcDev (x.dstRegion % 64)).escapeSend 7 x.srcDev x.srcRegion 0 (Config.escRoute x.srcDev s.mono) 2
    (.scribe Config.eui (bytesOfNat 2 0)) = t at sent
  have runs : exec (.jobResetArrival idx) s = .next (if (decide (t.rgn (x.dstRegion % 64) fRgnCfgEnable = 1) &&
      decide (t.rgn (x.dstRegion % 64) fRgnStatusGeneration = x.gen)) = true then t.resetJob (x.dstRegion % 64) else t) := by
    rw [← escaped]
    show execJobResetArrival idx s = _
    simp only [execJobResetArrival, here, body, serving, Bool.not_true, Bool.false_eq_true, if_false]
    rfl
  refine ⟨t, sent, runs.trans (congrArg Host.Outcome.next (if_congr ?_ rfl rfl))⟩
  rw [sent.rgn _ region fRgnCfgEnable (by decide), sent.rgn _ region fRgnStatusGeneration (by decide), Bool.and_eq_true, decide_eq_true_iff,
    decide_eq_true_iff]
  exact Iff.rfl

/-- What a forwarded reset leaves: the acknowledgement, and the state of its region where it is reset. -/
theorem exec_jobResetArrival_spec {s : State} {idx : Nat} {x : FabPkt} {source : Word} (serving : s.serving = true) (here : s.scribe.escape[idx]? = some x)
    (body : x.body = .jobReset source) : let r := x.dstRegion % 64
    ∃ t, exec (.jobResetArrival idx) s = .next t ∧ t.scribe.acked = s.scribe.acked ++ [(x.srcDev, r)] ∧
      (s.rgn r fRgnCfgEnable = 0 ∨ s.rgn r fRgnStatusGeneration ≠ x.gen → t.cores = s.cores ∧ t.rgns = s.rgns) ∧
      (s.rgn r fRgnCfgEnable = 1 → s.rgn r fRgnStatusGeneration = x.gen → s.rgn r fRgnStatusState = 1 ∨ s.rgn r fRgnStatusState = 2 →
        t.rgn r fRgnStatusState = (if s.rgn r fRgnStatusState = 1 then 5 else 3)) := by
  intro r
  obtain ⟨t, sent, arrives⟩ := exec_jobResetArrival serving here body
  by_cases own : s.rgn r fRgnCfgEnable = 1 ∧ s.rgn r fRgnStatusGeneration = x.gen
  · have region : r < 64 := Nat.mod_lt _ (by decide)
    have on : t.rgn r fRgnCfgEnable = 1 := (sent.rgn r region _ (by decide)).trans own.1
    have state : t.rgn r fRgnStatusState = s.rgn r fRgnStatusState := sent.rgn r region _ (by decide)
    rw [if_pos own] at arrives
    refine ⟨_, arrives, (t.resetJob_acked r).trans sent.acked, fun other => absurd own (by omega), fun _ _ st => ?_⟩
    rw [State.state_resetJob t region on, state, afterReset]
    rcases st with ready | running
    · simp [ready]
    · simp [running]
  · rw [if_neg own] at arrives
    exact ⟨_, arrives, sent.acked, fun _ => ⟨sent.cores, sent.rgns⟩, fun on gen => absurd ⟨on, gen⟩ own⟩

/-! ## Frames (R307, R338) -/

theorem State.port_mapPort_same (s : State) (p : Nat) (f : PortSt → PortSt) : (s.mapPort p f).port p = f (s.port p) := Tbl.look_put_same _ _ _ _

/-- A frame taken is counted, and leaves the ports, the work and what registers of ports and drops hold. -/
theorem State.takeFrame_spec {s : State} {f : ScrFrame} {rest : List ScrFrame} (frames : s.scrFrames = f :: rest) : s.takeFrame.scrFrames = rest ∧
    s.takeFrame.ports = s.ports ∧ s.takeFrame.scribe = s.scribe ∧ s.takeFrame.fld fScrFramesInCount = (s.fld fScrFramesInCount + 1) % 2 ^ 64 ∧
    ∀ g : Fld, g.off ≠ fScrFramesInCount.off → s.takeFrame.fld g = s.fld g :=
  ⟨congrArg (List.drop 1) frames, rfl, rfl, State.fld_setFld_same _ _ _ (by decide), fun g other => State.fld_setFld_other _ _ _ _ other⟩

/-- The count of frames is no register of a port. -/
theorem State.etherUp_takeFrame (s : State) (p link : Nat) : s.takeFrame.etherUp p link = s.etherUp p link := by
  have same {f : Fld} (port : 0x2d0000 ≤ f.off) (d : Nat) : s.takeFrame.fld (fldAt f d) = s.fld (fldAt f d) := by
    have low : fScrFramesInCount.off < f.off := Nat.lt_of_lt_of_le (by decide) port
    exact State.fld_setFld_other _ _ _ _ (Nat.ne_of_gt (Nat.lt_of_lt_of_le low (Nat.le_add_right f.off d)))
  have mode : s.takeFrame.port p = s.port p := rfl
  simp only [State.etherUp, State.pfld, mode, same (f := fPortEthStatusLinkUp) (by decide), same (f := fPortEthMacEnable) (by decide)]

theorem State.wireFrame_of_rim {s t : State} (h : t.rim = s.rim) (p : Nat) (bs : List Byte) : t.wireFrame p bs = s.wireFrame p bs := by
  simp only [State.wireFrame, State.pfld, State.fld_of_rim h]
  rfl

/-- A frame of the Scribe's own for a link that is down waits at its port. -/
theorem State.scribeSend_down {s : State} {p link : Nat} (bs : List Byte) (tag : Option (Nat × Nat)) (idle : (s.port p).scribeQ = [])
    (down : s.etherUp p link = false) : s.scribeSend p link bs tag = s.mapPort p (fun q => { q with scribeQ := q.scribeQ ++ [⟨link, bs, tag⟩] }) := by
  generalize queued : s.mapPort p (fun q => { q with scribeQ := q.scribeQ ++ [⟨link, bs, tag⟩] }) = t
  have port : (t.port p) = { s.port p with scribeQ := [⟨link, bs, tag⟩] } := by rw [← queued, State.port_mapPort_same, idle, List.nil_append]
  have rim : t.rim = s.rim := by rw [← queued]; rfl
  have down' : t.etherUp p link = false := by
    rw [← down]
    simp only [State.etherUp, State.pfld, port, State.fld_of_rim rim]
  simp only [State.scribeSend, queued, State.drainScribe, port, List.length_singleton, State.drainQueue, down', Bool.not_false, if_true]

/-- One for a link that is up leaves at once. -/
theorem State.scribeSend_up {s : State} {p link : Nat} (bs : List Byte) (idle : (s.port p).scribeQ = []) (up : s.etherUp p link = true) :
    let t := s.scribeSend p link bs none
    t.scrFrames = s.scrFrames ∧ (t.port p).scribeQ = [] ∧ (t.port p).sentFrame = some (link, s.wireFrame p bs) := by
  generalize queued : s.mapPort p (fun q => { q with scribeQ := q.scribeQ ++ [⟨link, bs, none⟩] }) = t
  have port : (t.port p) = { s.port p with scribeQ := [⟨link, bs, none⟩] } := by rw [← queued, State.port_mapPort_same, idle, List.nil_append]
  have rim : t.rim = s.rim := by rw [← queued]; rfl
  have frames : t.scrFrames = s.scrFrames := by rw [← queued]; rfl
  have up' : t.etherUp p link = true := by
    rw [← up]
    simp only [State.etherUp, State.pfld, port, State.fld_of_rim rim]
  have wire : t.wireFrame p bs = s.wireFrame p bs := State.wireFrame_of_rim rim p bs
  simp only [State.scribeSend, queued, State.drainScribe, port, List.length_singleton, State.drainQueue, up', Bool.not_true, Bool.false_eq_true, if_false,
    wire, State.port_mapPort_same]
  exact ⟨frames, trivial, trivial⟩

section
variable {s : State} (up : s.dev = .up)
include up

section
variable {f : ScrFrame} {rest : List ScrFrame} (frames : s.scrFrames = f :: rest)
include frames

theorem exec_scribeFrameReceive_discard : exec (.scribeFrameReceive .discard) s = .next (s.takeFrame.bump fScrFramesDropCount 1) := by
  show execScribeFrameReceive .discard s = _
  simp only [execScribeFrameReceive, up, frames]
  rfl

theorem exec_scribeFrameReceive_answer {link : Fin 8} {bytes : List Byte} {tag : Option (Fin 65536 × Fin 40)} :
    exec (.scribeFrameReceive (.answer link bytes tag)) s =
      .next (s.takeFrame.scribeSend f.port link.val bytes (tag.map (fun t => (t.1.val, t.2.val)))) := by
  show execScribeFrameReceive _ s = _
  simp only [execScribeFrameReceive, up, frames]
  rfl

theorem exec_scribeFrameReceive_pass {k : Fin 1024} (valid : s.cli k.val fCliCfgValid = 1) : exec (.scribeFrameReceive (.pass k)) s =
    .next (s.takeFrame.scrQueue ⟨s.cli k.val fCliCfgRegion, s.mono,
      .pass f.port ⟨k.val, s.cli k.val fCliCfgRegion, 2, f.bytes, f.time / 4, s.mono, none⟩⟩) := by
  show execScribeFrameReceive _ s = _
  simp only [execScribeFrameReceive, up, frames, valid]
  rfl

end

theorem exec_scribeFrameReceive_own {port : Fin 16} {link : Fin 8} {bytes : List Byte} :
    exec (.scribeFrameReceive (.own port link bytes none)) s = .next (s.scribeSend port.val link.val bytes none) := by
  show execScribeFrameReceive (.own port link bytes none) s = _
  simp only [execScribeFrameReceive, up]
  rfl

/-- Without work nothing is served. -/
theorem exec_scribeFrameReceive_serve {b : Option (Fin 64)} (idle : s.scribe.work = []) : exec (.scribeFrameReceive (.serve b)) s = .next s := by
  have served : s.serveWork (b.map (·.val)) = s := by
    simp only [State.serveWork, idle, List.find?_nil]
    split <;> rfl
  show execScribeFrameReceive (.serve b) s = _
  simp only [execScribeFrameReceive, up, served]
  rfl

end

/-! ## Watchdogs (R344, R394) -/

theorem State.wdog_mapWdog_same (s : State) (n : Nat) (f : Wdog → Wdog) : (s.mapWdog n f).wdog n = f (s.wdog n) := Tbl.look_put_same _ _ _ _

/-- The block reset of a core disables its watchdog and takes the core from those that run, and nothing else of the Scribe's counts. -/
theorem State.coreDown_spec (s : State) {n : Nat} (inside : n < 16) : (s.coreDown n).dev = s.dev ∧ (s.coreDown n).scribe.irqs = s.scribe.irqs ∧
    (s.coreDown n).fld fScrWdogExpiredCount = s.fld fScrWdogExpiredCount ∧ ((s.coreDown n).wdog n).resetting = none ∧
    (s.coreDown n).fld (fldAt fScrWdogCtrlArmed (8 * n)) = 0 ∧ ((s.coreDown n).fld fScrStatusCoresUp).testBit n = false := by
  generalize released : s.mapWdog n (fun w => { w with resetting := none }) = t
  have disarmed : s.coreDown n = (t.setFld (fldAt fScrWdogCtrlArmed (8 * n)) 0).setFld fScrStatusCoresUp
      ((t.setFld (fldAt fScrWdogCtrlArmed (8 * n)) 0).fld fScrStatusCoresUp &&& (65535 - 2 ^ n)) := by
    rw [← released]
    rfl
  have off : (fldAt fScrWdogCtrlArmed (8 * n)).off = 0x100 + 8 * n := rfl
  have wdog : t.wdog n = { s.wdog n with resetting := none } := by rw [← released, State.wdog_mapWdog_same]
  have clear : (65535 - 2 ^ n).testBit n = false := by
    have every : ∀ n : Fin 16, (65535 - 2 ^ n.val).testBit n.val = false := by decide
    exact every ⟨n, inside⟩
  rw [disarmed]
  refine ⟨?_, ?_, ?_, congrArg Wdog.resetting wdog, ?_, ?_⟩
  · rw [← released]
    rfl
  · rw [← released]
    rfl
  · rw [State.fld_setFld_other _ _ _ _ (by decide), State.fld_setFld_other _ _ _ _ (by rw [off]; show 0x200 ≠ 0x100 + 8 * n; omega)]
    exact State.fld_of_rim (by rw [← released]; rfl) _
  · rw [State.fld_setFld_other _ _ _ _ (by rw [off]; show 0x100 + 8 * n ≠ 0; omega), State.fld_setFld_same _ _ _ (show 4 + 1 ≤ 64 by decide)]
    rfl
  · rw [State.fld_setFld_same _ _ _ (by decide), Nat.testBit_mod_two_pow, Nat.testBit_and, clear, Bool.and_false, Bool.and_false]

/-- The state once the watchdog of core `n` has begun its core's block reset. -/
def State.wdogFired (s : State) (n : Nat) : State :=
  let t := (s.mapWdog n (fun w => { w with expired := [s.mono], resetting := some s.mono })).bump fScrWdogExpiredCount 1
  { t with scribe := { t.scribe with irqs := t.scribe.irqs ++ [n] } }

theorem State.wdogFired_spec (s : State) (n : Nat) : (s.wdogFired n).dev = s.dev ∧ (s.wdogFired n).scribe.irqs = s.scribe.irqs ++ [n] ∧
    (s.wdogFired n).fld fScrWdogExpiredCount = (s.fld fScrWdogExpiredCount + 1) % 2 ^ 64 ∧ ((s.wdogFired n).wdog n).resetting = some s.mono :=
  ⟨rfl, rfl, State.fld_setFld_same _ _ _ (by decide),
    congrArg Wdog.resetting (s.wdog_mapWdog_same n (fun w => { w with expired := [s.mono], resetting := some s.mono }))⟩

section
variable {n : Fin 16} {s : State} (up : s.dev = .up)
include up

theorem exec_watchdogExpiry {acks : Bool} (armed : s.fld (fldAt fScrWdogCtrlArmed (8 * n.val)) = 1) (idle : (s.wdog n.val).resetting = none)
    (late : (s.wdog n.val).kicked + 1000000 * 2 ^ s.fld (fldAt fScrWdogCtrlTimeout (8 * n.val)) ≤ s.mono) : exec (.watchdogExpiry n acks) s =
      if n.val = 0 ∨ ∃ t ∈ (s.wdog n.val).expired, s.mono ≤ t + 10000000000 then .next (s.deviceReset 3)
      else .next (if acks then (s.wdogFired n.val).coreDown n.val else s.wdogFired n.val) := by
  have comes : (s.dev != .up || decide (s.fld (fldAt fScrWdogCtrlArmed (8 * n.val)) = 0) || (s.wdog n.val).resetting.isSome ||
      decide (s.mono < (s.wdog n.val).kicked + 1000000 * 2 ^ s.fld (fldAt fScrWdogCtrlTimeout (8 * n.val)))) = false := by
    simp [up, armed, idle, late]
  show execWatchdogExpiry n acks s = _
  simp only [execWatchdogExpiry, comes, Bool.false_eq_true, if_false]
  refine if_congr ?_ rfl rfl
  simp

theorem exec_scribeCoreBlockResetTimeout {since : Nat} (resetting : (s.wdog n.val).resetting = some since) (late : since + 1000000 ≤ s.mono) :
    exec (.scribeCoreBlockResetTimeout n) s = .next (s.coreDown n.val) := by
  show execScribeCoreBlockResetTimeout n s = _
  simp only [execScribeCoreBlockResetTimeout, resetting, up, late, decide_true, Bool.and_self, if_true]

end

/-- A watchdog that expires resets its core, or the device (R344). -/
theorem exec_watchdogExpiry_spec {n : Fin 16} {s : State} (up : s.dev = .up) {acks : Bool} (armed : s.fld (fldAt fScrWdogCtrlArmed (8 * n.val)) = 1)
    (idle : (s.wdog n.val).resetting = none)
    (late : (s.wdog n.val).kicked + 1000000 * 2 ^ s.fld (fldAt fScrWdogCtrlTimeout (8 * n.val)) ≤ s.mono) :
    let twice := n.val = 0 ∨ ∃ t ∈ (s.wdog n.val).expired, s.mono ≤ t + 10000000000
    (twice → ∃ t, exec (.watchdogExpiry n acks) s = .next t ∧ t.dev = .inReset ∧ t.fld fAoiCauseLast = 3) ∧
    (¬twice → ∃ t, exec (.watchdogExpiry n acks) s = .next t ∧ t.dev = .up ∧ t.scribe.irqs = s.scribe.irqs ++ [n.val] ∧
      t.fld fScrWdogExpiredCount = (s.fld fScrWdogExpiredCount + 1) % 2 ^ 64 ∧ (t.wdog n.val).resetting = (if acks then none else some s.mono)) := by
  intro twice
  have expires := exec_watchdogExpiry (acks := acks) up armed idle late
  refine ⟨fun again => ?_, fun first => ?_⟩
  · obtain ⟨dev, -, last⟩ := State.deviceReset_spec (s := s) (.inl up) (cause := 3) (by decide)
    exact ⟨_, expires.trans (if_pos again), dev, last⟩
  · obtain ⟨dev, irqs, count, resetting⟩ := s.wdogFired_spec n.val
    obtain ⟨dev', irqs', count', done, -, -⟩ := (s.wdogFired n.val).coreDown_spec n.isLt
    refine ⟨_, expires.trans (if_neg first), ?_⟩
    cases acks
    · exact ⟨dev.trans up, irqs, count, resetting⟩
    · exact ⟨dev'.trans (dev.trans up), irqs'.trans irqs, count'.trans count, done⟩

/-- Settles O54: each command and each act of the firmware by what it makes of the state. -/
theorem scribeWork : Obligations.ScribeWork := by
  unfold Obligations.ScribeWork
  refine ⟨fun s serving => ⟨fun f region binding dev rgn gen x y ep cls asked agree turn => ?_, fun devices sends asked valid agree routed => ?_,
      fun p payload eight => ?_, fun idx x source bytes writes reset here kind body => ?_, fun idx x source here body => exec_jobResetArrival_spec serving here body⟩,
    fun s asked live => ⟨fun eui => ?_, fun g eui v target => ?_, fun g eui stays => exec_deviceReset_refused live asked stays⟩,
    fun s up => ⟨fun f rest frames => ?_, fun port link bytes linkUp idle => ?_, fun b idle => exec_scribeFrameReceive_serve up idle⟩,
    fun n s up => ?_⟩
  · intro c
    refine ⟨fun other => exec_bindingSet_notReady serving asked agree turn other, fun ready => ⟨fun refused => ?_, fun cls_ valid range => ?_⟩⟩
    · exact (exec_bindingSet_ready serving asked agree turn ready).trans (if_pos refused)
    · obtain ⟨set, others⟩ := (s.scrServed f).withBinding_spec (256 * region.val + binding.val) ⟨dev.val, rgn.val, gen.val, x.val, y.val, ep.val, cls.val⟩
      refine ⟨_, (exec_bindingSet_ready serving asked agree turn ready).trans (if_neg ?_), set, others, rfl⟩
      rintro (outside | unset | far)
      · omega
      · omega
      · simp [range] at far
  · intro sent
    have manages : (({ s with scribe := { s.scribe with managed := devices } } : State).setFld fScrStatusFmRole 1).Manages devices :=
      ⟨State.fld_setFld_same _ _ _ (by decide), rfl⟩
    obtain ⟨kept, waits⟩ := State.fmCommands_spec sends routed manages
    exact ⟨_, exec_fmEnable serving asked valid agree, kept.role, kept.managed, waits⟩
  · refine ⟨_, exec_fmTrust serving payload eight, (State.reg_setReg_ne _ _ (by decide)).trans (State.reg_setReg_same ..), ?_⟩
    exact (State.fld_setFld_same _ _ _ (by decide)).trans (named_flag _)
  · have arrives := exec_fmCommandArrival (writes := writes) (reset := reset) serving here kind body
    have up : s.dev = .up := by simpa using (Bool.and_eq_true_iff.mp serving).1
    refine ⟨fun stranger => ?_, fun trusted resets => ?_, fun trusted keeps none_ => ?_⟩
    · rw [if_pos stranger] at arrives
      exact ⟨_, arrives, State.fld_setFld_same _ _ _ (by decide), rfl, rfl⟩
    · rw [if_neg (by simp [trusted]), if_pos resets] at arrives
      obtain ⟨dev, -, last⟩ := State.deviceReset_spec (s := s.received idx) (.inl up) (cause := 7) (by decide)
      exact ⟨_, arrives, dev, last⟩
    · rw [if_neg (by simp [trusted]), if_neg (by simp [keeps])] at arrives
      subst none_
      exact ⟨_, arrives, rfl, rfl⟩
  · obtain ⟨dev, life, last⟩ := State.deviceReset_answered live
    exact ⟨_, exec_deviceReset_plain live asked, dev, life, last⟩
  · obtain ⟨dev, life, last⟩ := State.deviceReset_answered live
    exact ⟨_, exec_deviceReset_changes live asked target, dev, life, rfl, last⟩
  · intro taken
    obtain ⟨left, ports, scribe, count, other⟩ := State.takeFrame_spec frames
    refine ⟨⟨_, exec_scribeFrameReceive_discard up frames, left, ?_, ?_⟩, fun link bytes tag _ down idle => ?_, fun k valid => ?_⟩
    · exact (State.fld_setFld_other _ _ _ _ (by decide)).trans count
    · refine (State.fld_setFld_same _ _ _ (by decide)).trans ?_
      rw [other _ (by decide)]
      rfl
    · have idle' : (s.takeFrame.port f.port).scribeQ = [] := by rw [State.port, ports, ← State.port, idle]
      have waits := State.scribeSend_down (s := s.takeFrame) bytes (tag.map (fun t => (t.1.val, t.2.val))) idle' ((s.etherUp_takeFrame ..).trans down)
      refine ⟨_, exec_scribeFrameReceive_answer up frames, ?_⟩
      rw [waits, State.port_mapPort_same, idle']
      exact ⟨left, count, rfl⟩
    · exact ⟨_, exec_scribeFrameReceive_pass up frames valid, left, count, rfl⟩
  · obtain ⟨kept, empty, sentFrame⟩ := State.scribeSend_up bytes idle linkUp
    exact ⟨_, exec_scribeFrameReceive_own up, kept, empty, sentFrame⟩
  · refine ⟨fun acks armed idle late => exec_watchdogExpiry_spec up armed idle late, fun since resetting late => ?_⟩
    obtain ⟨-, -, -, done, disarmed, down⟩ := s.coreDown_spec n.isLt
    exact ⟨_, exec_scribeCoreBlockResetTimeout up resetting late, done, disarmed, down⟩

end Sys2Proof.Machine

/-! SUPPORT. The ligatures of a cluster: its registers, what each operation makes of a ligature, and a unit that applies one operation. -/

namespace Sys2Proof.Machine

/-! ## A cluster and its registers -/

theorem State.cluster_mapCluster_same (s : State) (n : Nat) (f : Cluster → Cluster) : (s.mapCluster n f).cluster n = f (s.cluster n) :=
  State.cluster_setCluster_same ..

@[simp] theorem State.cluster_setCore (s : State) (i n : Nat) (c : Core) : (s.setCore i c).cluster n = s.cluster n := rfl

/-- What `f` makes of every cluster holds of each once `f` has changed one, where a cluster itself has it. -/
theorem State.mapCluster_related {R : Cluster → Cluster → Prop} (refl : ∀ k, R k k) {f : Cluster → Cluster} (made : ∀ k, R k (f k)) (s : State)
    (n m : Nat) : R (s.cluster m) ((s.mapCluster n f).cluster m) := by
  by_cases same : m = n
  · subst same
    rw [State.cluster_mapCluster_same]
    exact made _
  · rw [State.mapCluster, State.cluster_setCluster_ne _ _ same]
    exact refl _

theorem Cluster.reg_setReg_same (k : Cluster) (off : Nat) (w : Word) : (k.setReg off w).reg off = w := Tbl.look_put_same _ _ _ _

theorem Cluster.reg_setReg_ne (k : Cluster) {off p : Nat} (w : Word) (other : p ≠ off) : (k.setReg off w).reg p = k.reg p :=
  Tbl.look_put_ne _ other _ _ _

/-- A counter counts modulo its width. -/
theorem Cluster.fld_bump_same (k : Cluster) (f : Fld) (n : Nat) (fits : f.lo + f.width ≤ 64) : (k.bump f n).fld f = (k.fld f + n) % 2 ^ f.width := by
  rw [Cluster.fld, Cluster.bump, Cluster.setFld, Cluster.reg_setReg_same, fieldOf_putField _ _ _ _ fits]

theorem Cluster.fld_setReg_ne (k : Cluster) {off : Nat} (w : Word) {f : Fld} (other : f.off ≠ off) : (k.setReg off w).fld f = k.fld f := by
  rw [Cluster.fld, Cluster.reg_setReg_ne k w other, Cluster.fld]

theorem Cluster.fld_bump_ne (k : Cluster) {f g : Fld} (n : Nat) (other : g.off ≠ f.off) : (k.bump f n).fld g = k.fld g := k.fld_setReg_ne _ other

/-! ## What a ligature reads as (R215) -/

/-- `k'` has the ligatures of `k` and the registers that configure them. -/
structure Cluster.SameLigs (k k' : Cluster) : Prop where
  ligs : k'.ligs = k.ligs
  cfg : ∀ off, 0x1000 ≤ off → k'.reg off = k.reg off

theorem Cluster.SameLigs.refl (k : Cluster) : Cluster.SameLigs k k := ⟨rfl, fun _ _ => rfl⟩

theorem Cluster.SameLigs.trans {k l m : Cluster} (h : Cluster.SameLigs k l) (h' : Cluster.SameLigs l m) : Cluster.SameLigs k m :=
  ⟨h'.ligs.trans h.ligs, fun off high => (h'.cfg off high).trans (h.cfg off high)⟩

/-- The counters and the status of a unit configure no ligature. -/
theorem Cluster.setFld_sameLigs (k : Cluster) {f : Fld} (low : f.off < 0x1000) (v : Nat) : Cluster.SameLigs k (k.setFld f v) :=
  ⟨rfl, fun off high => k.reg_setReg_ne _ (by omega)⟩

theorem Cluster.bump_sameLigs (k : Cluster) {f : Fld} (low : f.off < 0x1000) (n : Nat) : Cluster.SameLigs k (k.bump f n) := k.setFld_sameLigs low _

theorem Cluster.SameLigs.fld {k k' : Cluster} (h : Cluster.SameLigs k k') {f : Fld} (high : 0x1000 ≤ f.off) (d : Nat) :
    k'.fld (fldAt f d) = k.fld (fldAt f d) := by
  simp only [Cluster.fld, h.cfg (fldAt f d).off (Nat.le_add_right_of_le high)]

theorem Cluster.SameLigs.ligOn {k k' : Cluster} (h : Cluster.SameLigs k k') (l : Nat) : k'.ligOn l = k.ligOn l := by
  rw [Cluster.ligOn, h.fld (f := fLigCfgEnable) (by decide), Cluster.ligOn]

theorem Cluster.SameLigs.lig {k k' : Cluster} (h : Cluster.SameLigs k k') (l : Nat) : k'.lig l = k.lig l := by
  rw [Cluster.lig, h.ligs, h.ligOn, h.fld (f := fLigCfgExpect) (by decide), Cluster.lig]

theorem Cluster.lig_setLig_ne (k : Cluster) {l m : Nat} (y : LigSt) (other : m ≠ l) : (k.setLig l y).lig m = k.lig m := by
  unfold Cluster.lig
  rw [show (k.setLig l y).ligs.look m ligZero = k.ligs.look m ligZero from Tbl.look_put_ne _ other _ _ _]
  rfl

/-- A ligature reads as it was set, where its expect is a new one or the one that it had. -/
theorem Cluster.lig_setLig_same (k : Cluster) {l : Nat} {y : LigSt} (expect : y.expect = (k.lig l).expect ∨ y.expect ≠ 0) :
    (k.setLig l y).lig l = y := by
  have image : (k.setLig l y).lig l = if y.expect = 0 && k.ligOn l then { y with expect := k.fld (fldAt fLigCfgExpect (8 * l)) } else y := by
    unfold Cluster.lig
    rw [show (k.setLig l y).ligs.look l ligZero = y from Tbl.look_put_same _ _ _ _]
    rfl
  rw [image]
  split
  next zero =>
    simp only [Bool.and_eq_true, decide_eq_true_eq] at zero
    obtain ⟨zero, on⟩ := zero
    have none_given : (k.lig l).expect = 0 := by
      rw [← expect.resolve_right (not_not_intro zero), zero]
    have config : k.fld (fldAt fLigCfgExpect (8 * l)) = 0 := by
      simp only [Cluster.lig, on, Bool.and_true] at none_given
      split at none_given
      · exact none_given
      next held => simp [none_given] at held
    rw [config, ← zero]
  next => rfl

/-! ## What an operation makes of a ligature (R216, R219) -/

/-- `k'` has ligature `l` in state `y` and every other one as `k` has it. -/
structure Cluster.SetsLig (l : Nat) (y : LigSt) (k k' : Cluster) : Prop where
  own : k'.lig l = y
  others : ∀ m, m ≠ l → k'.lig m = k.lig m

theorem Cluster.SameLigs.setsLig {k k' : Cluster} (h : Cluster.SameLigs k k') (l : Nat) : Cluster.SetsLig l (k.lig l) k k' := ⟨h.lig l, fun m _ => h.lig m⟩

theorem Cluster.SetsLig.after {l : Nat} {y : LigSt} {k m k' : Cluster} (h : Cluster.SetsLig l y m k') (before : Cluster.SameLigs k m) :
    Cluster.SetsLig l y k k' := ⟨h.own, fun j other => (h.others j other).trans (before.lig j)⟩

theorem Cluster.SetsLig.andThen {l : Nat} {y : LigSt} {k m k' : Cluster} (h : Cluster.SetsLig l y k m) (after : Cluster.SameLigs m k') :
    Cluster.SetsLig l y k k' := ⟨(after.lig l).trans h.own, fun j other => (after.lig j).trans (h.others j other)⟩

theorem Cluster.setLig_setsLig (k : Cluster) {l : Nat} {y : LigSt} (expect : y.expect = (k.lig l).expect ∨ y.expect ≠ 0) :
    Cluster.SetsLig l y k (k.setLig l y) := ⟨k.lig_setLig_same expect, fun _ other => k.lig_setLig_ne y other⟩

/-- A ligature that fires. -/
def LigSt.fired (x : LigSt) : LigSt := ⟨(x.phase + 1) % 2 ^ 16, 0, x.expect⟩

/-- A ligature at which one more has arrived. -/
def LigSt.arrived (x : LigSt) : LigSt := if x.count + 1 = x.expect then x.fired else ⟨x.phase, (x.count + 1) % 2 ^ 16, x.expect⟩

theorem Cluster.fire_setsLig (l : Nat) (k : Cluster) : Cluster.SetsLig l (k.lig l).fired k (k.fire l) :=
  (k.setLig_setsLig (y := (k.lig l).fired) (.inl rfl)).andThen (Cluster.bump_sameLigs _ (f := fLigFiresCount) (by decide) 1)

theorem Cluster.arrive_setsLig (l : Nat) (k : Cluster) : Cluster.SetsLig l (k.lig l).arrived k (k.arrive l) := by
  simp only [Cluster.arrive, LigSt.arrived]
  split
  · exact k.fire_setsLig l
  · exact k.setLig_setsLig (.inl rfl)

theorem Cluster.resetLig_setsLig (l expect : Nat) (k : Cluster) :
    Cluster.SetsLig l ⟨0, 0, if expect = 0 then (k.lig l).expect else expect⟩ k (k.resetLig l expect) := by
  refine k.setLig_setsLig ?_
  by_cases kept : expect = 0
  · exact .inl (if_pos kept)
  · exact .inr (by simp [kept])

theorem Cluster.test_sameLigs (k : Cluster) : Cluster.SameLigs k k.test := ⟨rfl, fun _ _ => rfl⟩

theorem Cluster.wait_sameLigs (x : Waiter) (k : Cluster) : Cluster.SameLigs k (k.wait x) := by
  unfold Cluster.wait
  split
  · exact ⟨rfl, fun _ _ => rfl⟩
  · split
    · exact ⟨rfl, fun _ _ => rfl⟩
    · exact Cluster.SameLigs.trans (l := { k with waitQ := k.waitQ ++ [x] }) ⟨rfl, fun _ _ => rfl⟩ (Cluster.setFld_sameLigs _ (by decide) 1)

/-- A wait is released where its phase has come, and else recorded or queued for a record (R219, R222). -/
theorem Cluster.wait_placed (x : Waiter) (k : Cluster) :
    if ligMet (k.lig x.lig).phase x.target then x.core ∈ (k.wait x).releases else x ∈ (k.wait x).waiters ++ (k.wait x).waitQ := by
  unfold Cluster.wait
  split
  · simp
  · split
    · simp
    · simp [Cluster.setFld, Cluster.setReg]

/-! ## A unit applies one operation (R220) -/

/-- A ligature once its unit has applied an operation. -/
def LigSt.after (op arg : Nat) (x : LigSt) : LigSt :=
  if op = 0xE0 then x.arrived else if op = 0xE1 then x.fired else if op = 0xE3 then ⟨0, 0, if arg = 0 then x.expect else arg⟩ else x

theorem Cluster.ligEffect_idle {x : LigOp} (arrives : x.op ≠ 0xE0) (signals : x.op ≠ 0xE1) (resets : x.op ≠ 0xE3) (pass : Nat) (k : Cluster) :
    k.ligEffect pass x = k := by
  unfold Cluster.ligEffect
  split
  next op => exact absurd op resets
  next op => exact absurd op arrives
  next op => exact absurd op signals
  next => rfl

/-- What a unit makes of itself with one operation before it tests its waiters: it counts the operation and makes its three passes. -/
def LigOp.effect (x : LigOp) (k : Cluster) : Cluster := [0, 1, 2].foldl (fun (k : Cluster) pass => k.ligEffect pass x) (k.bump fLigOpsCount 1)

/-- Of the three passes the one of the operation's kind acts. -/
theorem LigOp.effect_setsLig (x : LigOp) (k : Cluster) : Cluster.SetsLig x.lig ((k.lig x.lig).after x.op x.arg) k (x.effect k) := by
  have counted := k.bump_sameLigs (f := fLigOpsCount) (by decide) 1
  refine .after ?_ counted
  rw [← counted.lig]
  obtain ⟨core, op, lig, operand, arg, src, slot⟩ := x
  simp only [LigOp.effect, List.foldl_cons, List.foldl_nil, LigSt.after]
  by_cases arrives : op = 0xE0
  · subst arrives
    exact Cluster.arrive_setsLig lig _
  by_cases signals : op = 0xE1
  · subst signals
    exact Cluster.fire_setsLig lig _
  by_cases resets : op = 0xE3
  · subst resets
    exact Cluster.resetLig_setsLig lig arg _
  simp only [arrives, signals, resets, if_false, Cluster.ligEffect_idle (x := ⟨core, op, lig, operand, arg, src, slot⟩) arrives signals resets]
  exact (Cluster.SameLigs.refl _).setsLig lig

/-- The waiter that a lig.wait becomes at its unit. -/
def LigOp.waiter (now : Nat) (x : LigOp) : Waiter := ⟨x.core, x.lig, x.arg, x.operand, (x.src.map (·.pc)).getD 0, now⟩

/-- The unit tests its waiters, and then applies a wait. -/
def LigOp.settle (now : Nat) (x : LigOp) (k : Cluster) : Cluster := if x.op = 0xE2 then k.test.wait (x.waiter now) else k.test

theorem LigOp.settle_sameLigs (now : Nat) (x : LigOp) (k : Cluster) : Cluster.SameLigs k (x.settle now k) := by
  unfold LigOp.settle
  split
  · exact k.test_sameLigs.trans (Cluster.wait_sameLigs _ _)
  · exact k.test_sameLigs

theorem State.ligHold_clusters (s : State) (x : LigOp) (v : Word) : (s.ligHold x v).clusters = s.clusters := by
  unfold State.ligHold
  split
  · rfl
  · split <;> rfl

theorem State.cluster_of_clusters {s t : State} (h : t.clusters = s.clusters) (n : Nat) : t.cluster n = s.cluster n := by
  simp only [State.cluster, h]

/-- The value that an operation reads of its ligature (R219). -/
def LigOp.value (x : LigOp) (y : LigSt) : Word :=
  if x.op = 0xE4 then BitVec.ofNat 64 (y.phase % 2 ^ 16 + y.count % 2 ^ 16 * 2 ^ 16 + y.expect % 2 ^ 16 * 2 ^ 32) else 0

/-- A core that has an operation applied at its unit, with the value that it reads; a wait is at its unit alone. -/
def Core.ligHeld (o : EngOp) (v : Word) (c : Core) : Core :=
  if opOf o.w = 0xE2 then c else { c with lig := { c.lig with applied := c.lig.applied ++ [⟨o, v⟩] } }

theorem State.core_ligHold (s : State) {x : LigOp} {o : EngOp} (src : x.src = some o) (op : x.op = opOf o.w) (v : Word) :
    (s.ligHold x v).core x.core = (s.core x.core).ligHeld o v := by
  simp only [State.ligHold, src, Core.ligHeld, op]
  split
  · rfl
  · exact State.core_mapCore_same ..

theorem State.applyOps_one_eq (s : State) (n : Nat) {x : LigOp} (on : (s.cluster n).ligOn x.lig = true) :
    let k := x.effect (s.cluster n)
    let u := (s.setCluster n k).ligHold x (if x.op = 0xE4 then k.readLig x.lig else 0)
    s.applyOps n [x] = u.mapCluster n (x.settle (u.timeAt n)) := by
  simp only [State.applyOps, List.filter, on, Bool.not_true, List.foldl_nil]
  rfl

/-- A unit applies one instruction on an enabled ligature: what becomes of the ligature, of the core, and of a wait (R216, R219, R220). -/
theorem State.applyOps_one (s : State) (n : Nat) {x : LigOp} {o : EngOp} (on : (s.cluster n).ligOn x.lig = true) (src : x.src = some o)
    (op : x.op = opOf o.w) : let t := s.applyOps n [x]
    let y := (s.cluster n).lig x.lig
    Cluster.SetsLig x.lig (y.after x.op x.arg) (s.cluster n) (t.cluster n) ∧ t.core x.core = (s.core x.core).ligHeld o (x.value y) ∧
      (x.op = 0xE2 → ∃ now, if ligMet y.phase x.arg then x.core ∈ (t.cluster n).releases
        else x.waiter now ∈ (t.cluster n).waiters ++ (t.cluster n).waitQ) := by
  intro t y
  have effect := x.effect_setsLig (s.cluster n)
  have applied : t = _ := s.applyOps_one_eq n on
  generalize x.effect (s.cluster n) = k at effect applied
  have read : (if x.op = 0xE4 then k.readLig x.lig else 0) = x.value y := by
    unfold LigOp.value
    split
    next reads => rw [Cluster.readLig, effect.own, reads]; rfl
    next => rfl
  rw [read] at applied
  generalize unit : (s.setCluster n k).ligHold x (x.value y) = u at applied
  have core : u.core x.core = (s.core x.core).ligHeld o (x.value y) := by rw [← unit, State.core_ligHold _ src op]; rfl
  have before : u.cluster n = k := by
    rw [← unit, State.cluster_of_clusters (State.ligHold_clusters ..), State.cluster_setCluster_same]
  have settled : t.cluster n = x.settle (u.timeAt n) k := by rw [applied, State.cluster_mapCluster_same, before]
  refine ⟨settled ▸ effect.andThen (x.settle_sameLigs _ k), by rw [applied, State.core_mapCluster, core], fun waits => ⟨u.timeAt n, ?_⟩⟩
  have same : k.test.lig x.lig = y := by rw [k.test_sameLigs.lig, effect.own, waits]; rfl
  have placed := Cluster.wait_placed (x.waiter (u.timeAt n)) k.test
  rw [settled, LigOp.settle, if_pos waits]
  rwa [show (x.waiter (u.timeAt n)).lig = x.lig from rfl, same] at placed

/-! ## An operation on its way to a unit (R220, R254, R356) -/

theorem State.hubWay_self (s : State) (n : Nat) : s.hubWay n n = [] := by simp [State.hubWay, State.hubRoute]

/-- Within its cluster a packet crosses no link. -/
theorem State.send_self (s : State) (n : Nat) : s.send n n = (true, s) := by
  simp [State.send, State.hubWay_self, State.hairline]

theorem State.hubWaits_self (s : State) (n : Nat) : s.hubWaits n n = false := by
  simp [State.hubWaits, State.waitsAt, State.hubWay_self]

/-- An instruction of a core as its unit takes it. -/
def EngOp.ligOp (i : Nat) (o : EngOp) : LigOp := ⟨i, opOf o.w, o.sa.toNat % 512, o.sa.toNat, fieldOf o.sb 0 16, some o, 0⟩

/-- What `applyOps_one` says of an instruction of core `i`. -/
theorem State.applyOps_ligOp (s : State) (n i : Nat) (o : EngOp) : let l := o.sa.toNat % 512
    let y := (s.cluster n).lig l
    let arg := fieldOf o.sb 0 16
    let t := s.applyOps n [o.ligOp i]
    (s.cluster n).ligOn l = true → Cluster.SetsLig l (y.after (opOf o.w) arg) (s.cluster n) (t.cluster n) ∧
      t.core i = (s.core i).ligHeld o ((o.ligOp i).value y) ∧
      (opOf o.w = 0xE2 → ∃ now, if ligMet y.phase arg then i ∈ (t.cluster n).releases
        else (o.ligOp i).waiter now ∈ (t.cluster n).waiters ++ (t.cluster n).waitQ) :=
  fun on => s.applyOps_one n (x := o.ligOp i) on rfl rfl

/-- A unit that takes the operation at the head of a queue of its own cluster applies it. -/
theorem exec_ligatureOpApplied_own {i : CoreId} {n : ClusterId} {s : State} {o : EngOp} {q : List EngOp} (runs : s.alive n.val = true)
    (alive : (s.env i.val).alive = true) (own : clusterOfCore i.val = n.val) (none_stray : (s.core i.val).lig.strays = [])
    (queue : (s.core i.val).lig.queue = o :: q) (cluster : ligCluster (s.env i.val) o.sa.toNat = some n.val) (row : opOf o.w ≠ 0xE5) :
    exec (.ligatureOpApplied n [(i, false)]) s = .next ((s.ligLeave (o.ligOp i.val)).applyOps n.val [o.ligOp i.val]) := by
  have up : ((s.env i.val).alive && !s.hubWaits (clusterOfCore i.val) n.val) = true := by rw [alive, own, State.hubWaits_self]; rfl
  have stray : s.ligStray n.val i.val = none := by simp only [State.ligStray, none_stray]
  have head : s.ligHead n.val (i, false) = some (o.ligOp i.val) := by simp [State.ligHead, queue, row, cluster, EngOp.ligOp]
  have sent : (s.ligLeave (o.ligOp i.val)).send (clusterOfCore (o.ligOp i.val).core) n.val = (true, s.ligLeave (o.ligOp i.val)) := by
    rw [show clusterOfCore (o.ligOp i.val).core = n.val from own, State.send_self]
  have takes : s.ligTake n.val [(i, false)] [] = (s.ligLeave (o.ligOp i.val), [o.ligOp i.val]) := by
    simp only [State.ligTake, up, stray, head, sent, if_true, List.reverse_singleton]
  have single : [(i, false)].eraseDups = [(i, false)] := by simp [List.eraseDups_cons]
  show execLigatureOpApplied n [(i, false)] s = _
  simp [execLigatureOpApplied, runs, takes, single]

/-- Settles O18: the unit takes the operation, its kind says what it makes of the ligature, and the core holds it unless it waits. -/
theorem ligatureOperation : Obligations.LigatureOperation := by
  unfold Obligations.LigatureOperation
  intro i n s o q c k l x arg runs alive own none_stray queue cluster on low high
  have left : (s.ligLeave (o.ligOp i.val)).core i.val = { c with lig := { c.lig with queue := q } } := by
    refine (State.core_mapCore_same ..).trans ?_
    simp [EngOp.ligOp, queue, c]
  have executes := exec_ligatureOpApplied_own runs alive own none_stray queue cluster (by omega)
  obtain ⟨effect, core, waits⟩ := (s.ligLeave (o.ligOp i.val)).applyOps_ligOp n.val i.val o on
  rw [left] at core
  refine ⟨_, executes, ?_, effect.others, effect.own, fun held => ?_, fun isWait => ?_⟩
  · rw [core, Core.ligHeld]
    split <;> rfl
  · rw [core, Core.ligHeld, if_neg held]
    rfl
  · obtain ⟨now, placed⟩ := waits isWait
    have met : ligMet x.phase arg = decide ((x.phase + 2 ^ 16 - arg) % 2 ^ 16 < 2 ^ 15) := by
      rw [ligMet, Nat.mod_eq_of_lt (show arg < 2 ^ 16 from fieldOf_lt o.sb 0 16)]
    split
    next early => exact (if_pos (met.trans (decide_eq_true early))).mp placed
    next late => exact ⟨_, (if_neg fun early => late (of_decide_eq_true (met.symm.trans early))).mp placed, rfl, rfl, rfl⟩

end Sys2Proof.Machine

/-! SUPPORT. What crosses the hairline network leaves of a ligature unit, the end of a lig.wait, and the completion of ligature operations. -/

namespace Sys2Proof.Machine

/-! ## A packet of the hairline network and the units on its way (R254, R258) -/

/-- `t` has the links of the hairline network as `s` has them, up or down. -/
def State.SameLinks (s t : State) : Prop := ∀ n, (t.cluster n).reg 0x200 = (s.cluster n).reg 0x200

theorem State.mapCluster_sameLinks (s : State) (n : Nat) {f : Cluster → Cluster} (same : ∀ k, (f k).reg 0x200 = k.reg 0x200) :
    s.SameLinks (s.mapCluster n f) :=
  State.mapCluster_related (R := fun k k' => k'.reg 0x200 = k.reg 0x200) (fun _ => rfl) same s n

section
variable {s t : State} (h : s.SameLinks t)
include h

theorem State.SameLinks.hubCut (n d : Nat) : t.hubCut n d = s.hubCut n d := by
  simp only [State.hubCut, Cluster.fld, show fLigHlStatusLinkDown.off = 0x200 from rfl, h n]

theorem State.SameLinks.hubWay (a b : Nat) : t.hubWay a b = s.hubWay a b := by
  have route (n : Nat) (turn : Option Nat) (a : Nat) : t.hubRoute b n turn a = s.hubRoute b n turn a := by
    induction n generalizing turn a with
    | zero => rfl
    | succ n ih =>
      simp only [State.hubRoute, State.hubDir, h.hubCut, ih, Cluster.fld, show fLigHlStatusDetour.off = 0x200 from rfl, h a]
  exact route ..

end

/-- A packet comes through where no link on its way is down. -/
theorem State.hairline_fst (l : List (Nat × Nat)) (s : State) : (s.hairline l).1 = l.all (fun x => !s.hubCut x.1 x.2) := by
  induction l generalizing s with
  | nil => rfl
  | cons x l ih =>
    simp only [State.hairline, List.all_cons]
    cases down : s.hubCut x.1 x.2
    · have same : s.SameLinks (s.mapCluster x.1 fun k => k.bump fLigHlPacketsCount 1) :=
        s.mapCluster_sameLinks x.1 fun k => k.reg_setReg_ne _ (by decide)
      simp only [Bool.false_eq_true, if_false, ih, same.hubCut]
      rfl
    · rfl

theorem State.SameLinks.send {s t : State} (h : s.SameLinks t) (a b : Nat) : (t.send a b).1 = (s.send a b).1 := by
  simp only [State.send, State.hairline_fst, h.hubWay, h.hubCut]

/-- `k'` has of `k` what its unit works on, and the unit's counters: all but its last fault and its hub's registers. -/
structure Cluster.SameUnit (k k' : Cluster) : Prop where
  ligs : k'.ligs = k.ligs
  waiters : k'.waiters = k.waiters
  low : ∀ off, off < 0x180 → k'.reg off = k.reg off

theorem Cluster.SameUnit.refl (k : Cluster) : Cluster.SameUnit k k := ⟨rfl, rfl, fun _ _ => rfl⟩

theorem Cluster.SameUnit.trans {k l m : Cluster} (h : Cluster.SameUnit k l) (h' : Cluster.SameUnit l m) : Cluster.SameUnit k m :=
  ⟨h'.ligs.trans h.ligs, h'.waiters.trans h.waiters, fun off low => (h'.low off low).trans (h.low off low)⟩

theorem Cluster.SameUnit.fld {k k' : Cluster} (h : Cluster.SameUnit k k') {f : Fld} (low : f.off < 0x180) : k'.fld f = k.fld f := by
  rw [Cluster.fld, h.low _ low, Cluster.fld]

theorem Cluster.setReg_sameUnit (k : Cluster) {off : Nat} (high : 0x180 ≤ off) (w : Word) : Cluster.SameUnit k (k.setReg off w) :=
  ⟨rfl, rfl, fun _ low => k.reg_setReg_ne w (by omega)⟩

theorem Cluster.bump_sameUnit (k : Cluster) {f : Fld} (high : 0x180 ≤ f.off) (n : Nat) : Cluster.SameUnit k (k.bump f n) := k.setReg_sameUnit high _

theorem Cluster.recordFault_sameUnit (code info gen : Nat) (k : Cluster) : Cluster.SameUnit k (k.recordFault code info gen) := by
  unfold Cluster.recordFault
  split
  · exact .refl k
  · exact k.setReg_sameUnit (by decide) _

theorem State.mapCluster_sameUnit {f : Cluster → Cluster} (same : ∀ k, Cluster.SameUnit k (f k)) (s : State) (n m : Nat) :
    Cluster.SameUnit (s.cluster m) ((s.mapCluster n f).cluster m) := State.mapCluster_related .refl same s n m

theorem State.hairline_sameUnit (l : List (Nat × Nat)) (s : State) (m : Nat) : Cluster.SameUnit (s.cluster m) ((s.hairline l).2.cluster m) := by
  induction l generalizing s with
  | nil => exact .refl _
  | cons x l ih =>
    simp only [State.hairline]
    split
    · exact s.mapCluster_sameUnit (fun k => k.bump_sameUnit (by decide) 1) x.1 m
    · exact (s.mapCluster_sameUnit (fun k => k.bump_sameUnit (by decide) 1) x.1 m).trans (ih _)

/-- The core that a unit tells of a fault, once the fault has come through (R225). -/
def Core.told (code info gen : Nat) (c : Core) : Core := { c with inbound := c.inbound ++ [⟨3, code, info, gen⟩] }

/-- A fault that a unit sends to a core: the units keep their ligatures and waiters, and the core is told unless a link on the way is down (R225, R258). -/
theorem State.unitFault_spec (s : State) (n i code info gen : Nat) : let t := s.unitFault n i code info gen
    (∀ m, Cluster.SameUnit (s.cluster m) (t.cluster m)) ∧ t.farOps = s.farOps ∧
      t.core i = if (s.send n (clusterOfCore i)).1 then (s.core i).told code info gen else s.core i := by
  intro t
  generalize recorded : s.mapCluster n (Cluster.recordFault code info gen) = u
  have links : s.SameLinks u := recorded ▸ s.mapCluster_sameLinks n fun k => by
    unfold Cluster.recordFault
    split
    · rfl
    · exact k.reg_setReg_ne _ (by decide)
  have core : (u.send n (clusterOfCore i)).2.core i = s.core i := (State.core_of_cores (State.hairline_cores _ u) i).trans (recorded ▸ rfl)
  have units (m : Nat) : Cluster.SameUnit (s.cluster m) ((u.send n (clusterOfCore i)).2.cluster m) := by
    refine .trans ?_ (State.hairline_sameUnit _ u m)
    exact recorded ▸ s.mapCluster_sameUnit (Cluster.recordFault_sameUnit code info gen) n m
  have far : (u.send n (clusterOfCore i)).2.farOps = s.farOps := by
    obtain ⟨_, same⟩ := State.hairline_withHub (u.hubWay n (clusterOfCore i)) u
    exact (congrArg State.farOps same).trans (recorded ▸ rfl)
  have result : t = if (u.send n (clusterOfCore i)).1 then (u.send n (clusterOfCore i)).2.mapCore i (Core.told code info gen)
      else (u.send n (clusterOfCore i)).2 := by
    subst recorded
    rfl
  rw [links.send] at result
  rw [result]
  split
  · exact ⟨units, far, (State.core_mapCore_same ..).trans (congrArg _ core)⟩
  · exact ⟨units, far, core⟩

/-! ## Releases, waits tried again and timeouts (R221, R222, R224) -/

theorem State.waitAt_eq {s : State} {i n : Nat} {o : EngOp} (waits : (s.core i).ctl.ligWait = some o)
    (cluster : ligCluster (s.env i) o.sa.toNat = some n) : s.waitAt i = some n := by
  rw [State.waitAt, waits, Option.bind_some, cluster]

theorem Core.past_room (e : Env) {idx : Nat} {c : Core} (room : (afterIndex idx c.ctl.loops).2 < 8192) :
    c.past e idx = { c with ctl := c.ctl.advance idx } := if_pos room

/-- The control unit once its lig.wait has completed and issue has moved past it (R54, R58, R221). -/
def Ctl.waited (o : EngOp) (k : Ctl) : Ctl := { k with cc := ccAfter o.w k, ligWait := none }.advance k.pc

theorem Core.endWait_room (e : Env) {c : Core} {o : EngOp} (waits : c.ctl.ligWait = some o) (room : (afterIndex c.ctl.pc c.ctl.loops).2 < 8192) :
    c.endWait e = { c with ctl := c.ctl.waited o } := by
  simp only [Core.endWait, waits, Core.complete_eq]
  exact Core.past_room e room

/-- A unit whose release has reached core `i`. -/
def Cluster.released (i : Nat) (k : Cluster) : Cluster := { k with releases := k.releases.filter (fun c => c != i) }

theorem exec_waiterRelease_own {i : CoreId} {s : State} {o : EngOp} (waits : (s.core i.val).ctl.ligWait = some o)
    (cluster : ligCluster (s.env i.val) o.sa.toNat = some (clusterOfCore i.val)) (alive : (s.env i.val).alive = true)
    (released : i.val ∈ (s.cluster (clusterOfCore i.val)).releases) (room : Room i s) : exec (.waiterRelease i) s =
      .next ((s.mapCluster (clusterOfCore i.val) (Cluster.released i.val)).setCore i.val { s.core i.val with ctl := (s.core i.val).ctl.waited o }) := by
  have ends := Core.endWait_room (s.env i.val) waits room
  show execWaiterRelease i s = _
  have comes : (!(s.env i.val).alive || !(s.cluster (clusterOfCore i.val)).releases.contains i.val ||
      s.hubWaits (clusterOfCore i.val) (clusterOfCore i.val)) = false := by simp [alive, released, State.hubWaits_self]
  simp only [execWaiterRelease, State.waitAt_eq waits cluster, comes, Bool.false_eq_true, if_false, State.send_self, if_true]
  rw [show State.core (State.setCluster s _ _) i.val = s.core i.val from rfl, ends]
  exact congrArg Host.Outcome.next (State.putCore_eq _ _ _ id)

/-- A wait that is applied again (R222). -/
theorem Cluster.reapply_room {now : Nat} {k : Cluster} {x : Waiter} {q : List Waiter} (queue : k.waitQ = x :: q) (room : k.waiters.length < 1024) :
    k.reapply now = if ligMet (k.lig x.lig).phase x.target then { k with waitQ := q, releases := k.releases ++ [x.core] }
      else { k with waitQ := q, waiters := k.waiters ++ [{ x with since := now }] } := by
  simp only [Cluster.reapply, queue, Nat.not_le.mpr room, if_false]

/-- A unit that has removed the waiter of core `i` at its timeout. -/
def Cluster.timedOut (i : Nat) (k : Cluster) : Cluster := { k with waiters := k.waiters.filter (fun y => y.core != i) }.bump fLigTimeoutsCount 1

theorem exec_ligatureWaitTimeout {i : CoreId} {n : Nat} {s : State} {x : Waiter} (waits : s.waitAt i.val = some n)
    (recorded : (s.cluster n).waiters.find? (fun y => y.core = i.val) = some x) (runs : s.alive n = true)
    (limited : (s.cluster n).fld (fldAt fLigCfgTimeout (8 * x.lig)) ≠ 0) (goes : s.hubWaits n (clusterOfCore i.val) = false)
    (late : x.since + 1000 * 2 ^ ((s.cluster n).fld (fldAt fLigCfgTimeout (8 * x.lig)) - 1) ≤ s.timeAt n) :
    exec (.ligatureWaitTimeout i) s =
      .next ((s.mapCluster n (Cluster.timedOut i.val)).unitFault n i.val 3 (ligInfo x.operand 0 x.pc) (s.env i.val).gen) := by
  have comes : (!s.alive n || decide ((s.cluster n).fld (fldAt fLigCfgTimeout (8 * x.lig)) = 0) || s.hubWaits n (clusterOfCore i.val) ||
      decide (s.timeAt n < x.since + 1000 * 2 ^ ((s.cluster n).fld (fldAt fLigCfgTimeout (8 * x.lig)) - 1))) = false := by
    simp [runs, limited, goes, late]
  show execLigatureWaitTimeout i s = _
  simp only [execLigatureWaitTimeout, waits, recorded, comes, Bool.false_eq_true, if_false]
  rfl

/-! ## Completion (R58, R219, R221) -/

/-- A core whose applied operation at a place has completed. -/
def Core.ligDone (idx : Nat) (d : LigDone) (c : Core) : Core :=
  { c with
    lig := { c.lig with applied := c.lig.applied.eraseIdx idx }
    ctl := { (if opOf d.op.w = 0xE4 then c.ctl.land (eSb d.op.w) d.value false else c.ctl) with cc := ccAfter d.op.w c.ctl } }

theorem exec_ligatureOpCompletion_applied {i : CoreId} {idx : Nat} {s : State} {d : LigDone} (alive : (s.env i.val).alive = true)
    (here : (s.core i.val).lig.applied[idx]? = some d)
    (accepted : bitOf d.op.w 0 = true → opOf d.op.w ≤ 0xE1 → s.farWaits (s.env i.val) d.value.toNat = false) :
    exec (.ligatureOpCompletion i idx) s = .next (s.putCore i.val ((s.core i.val).ligDone idx d)) := by
  have goes : (bitOf d.op.w 0 && decide (opOf d.op.w ≤ 0xE1) && s.farWaits (s.env i.val) d.value.toNat) = false := by
    simpa using accepted
  show execLigatureOpCompletion i idx s = _
  simp only [execLigatureOpCompletion, alive, here, goes, Bool.not_true, Bool.false_eq_true, if_false, Core.complete_eq, Core.ligDone]
  split
  · rw [ccAfter_congr (k := (s.core i.val).ctl) (Ctl.land_cc ..)]
  · rfl

theorem Ctl.s_land_eSb (k : Ctl) {w : Word} (v : Word) (poison : Bool) (real : eSb w ≠ 0) :
    (k.land (eSb w) v poison).s (eSb w) = v ∧ (k.land (eSb w) v poison).sp (eSb w) = poison := by
  refine k.s_land v poison ?_
  rwa [Nat.mod_eq_of_lt (show eSb w < 32 from fieldOf_lt w 38 5)]

/-- The word of a slot reads as the slot's flags and its lateness (R232). -/
theorem TimedSlot.word_fields (t : TimedSlot) : bitOf t.word 0 = t.armed ∧ bitOf t.word 1 = t.executed ∧ bitOf t.word 2 = t.late ∧
    bitOf t.word 3 = t.cancelled ∧ fieldOf t.word 32 32 = t.lateness % 2 ^ 32 := by
  have := bit_le_one t.armed
  have := bit_le_one t.executed
  have := bit_le_one t.late
  have := bit_le_one t.cancelled
  refine ⟨bitOf_ofNat ?_ ?_, bitOf_ofNat ?_ ?_, bitOf_ofNat ?_ ?_, bitOf_ofNat ?_ ?_, (fieldOf_ofNat ?_ _ _).trans ?_⟩ <;> omega

/-- A core whose lig.tstat has written its slot's word, the slots that are due having acted (R69, R219). -/
def Core.slotRead (e : Env) (o : EngOp) (q : List EngOp) (c : Core) : Core :=
  let d := c.timedDue e
  Core.complete o.w { d with
    lig := { d.lig with queue := q }
    ctl := d.ctl.land (eSa o.w) (d.ctl.slots[fieldOf o.w 0 3]!).word false }

theorem exec_ligatureOpCompletion_slot {i : CoreId} {idx : Nat} {s : State} {o : EngOp} {q : List EngOp} (alive : (s.env i.val).alive = true)
    (none_applied : (s.core i.val).lig.applied[idx]? = none) (queue : (s.core i.val).lig.queue = o :: q) (row : opOf o.w = 0xE5) :
    exec (.ligatureOpCompletion i idx) s = .next (s.putCore i.val ((s.core i.val).slotRead (s.env i.val) o q)) := by
  show execLigatureOpCompletion i idx s = _
  simp only [execLigatureOpCompletion, alive, none_applied, queue, row, Bool.not_true, Bool.false_eq_true, if_false, if_true]
  rfl

/-- Settles O19: a release, a wait tried again and a timeout by what they make of the unit, and each completion by what it makes of the core. -/
theorem ligatureCompletion : Obligations.LigatureCompletion := by
  unfold Obligations.LigatureCompletion
  refine ⟨fun i s o waits cluster alive released room => ?_, fun n s x q runs queue room => ?_, fun i s x => ?_,
    fun i idx s d alive here accepted => ?_, fun i idx s o q alive none_applied queue row real waits => ?_⟩
  · refine ⟨_, exec_waiterRelease_own waits cluster alive released room, ?_⟩
    rw [State.core_setCore_same, State.cluster_setCore, State.cluster_mapCluster_same]
    exact ⟨rfl, by simp [Cluster.released], rfl⟩
  · refine ⟨_, if_pos runs, ?_⟩
    rw [State.cluster_mapCluster_same, Cluster.reapply_room queue room]
    split <;> exact ⟨rfl, rfl⟩
  · intro n waits recorded runs v limited goes comes late
    obtain ⟨units, -, told⟩ := (s.mapCluster n (Cluster.timedOut i.val)).unitFault_spec n i.val 3 (ligInfo x.operand 0 x.pc) (s.env i.val).gen
    have links : s.SameLinks (s.mapCluster n (Cluster.timedOut i.val)) := s.mapCluster_sameLinks n fun k => Cluster.reg_setReg_ne _ _ (by decide)
    refine ⟨_, exec_ligatureWaitTimeout waits recorded runs limited goes late, (units n).waiters.trans ?_, ?_⟩
    · rw [State.cluster_mapCluster_same]
      rfl
    · rw [told, links.send, if_pos comes]
      rfl
  · refine ⟨_, exec_ligatureOpCompletion_applied alive here accepted, ?_⟩
    rw [State.core_putCore_same]
    refine ⟨rfl, rfl, fun reads real => ?_⟩
    have landed : ((s.core i.val).ligDone idx d).ctl = { (s.core i.val).ctl.land (eSb d.op.w) d.value false with cc := ccAfter d.op.w (s.core i.val).ctl } := by
      simp only [Core.ligDone, reads, if_true]
    rw [landed]
    obtain ⟨value, clean⟩ := (s.core i.val).ctl.s_land_eSb d.value false real
    exact ⟨value, clean, Ctl.land_busy ..⟩
  · refine ⟨_, exec_ligatureOpCompletion_slot alive none_applied queue row, ?_⟩
    obtain ⟨-, slots⟩ := (s.core i.val).timedDue_spec (s.env i.val)
    have slot := slots _ (fieldOf_lt o.w 0 3)
    rw [if_neg (by simp [Core.slotDue, waits])] at slot
    rw [State.core_putCore_same, Core.slotRead, Core.complete_eq, slot]
    obtain ⟨value, -⟩ := ((s.core i.val).timedDue (s.env i.val)).ctl.s_land_eSa ((s.core i.val).ctl.slots[fieldOf o.w 0 3]!).word false real
    refine ⟨rfl, Ctl.land_busy .., ?_⟩
    intro x v
    rw [show v = x.word from value]
    exact x.word_fields

end Sys2Proof.Machine

/-! SUPPORT. Far operations by what their unit makes of them, and the timed slot that acts. -/

namespace Sys2Proof.Machine

/-! ## Far operations (R226, R227, R274) -/

/-- The state once the far operation at a place has come to unit `n` and counts there. -/
def State.farCame (idx n : Nat) (s : State) : State := { s with farOps := s.farOps.eraseIdx idx }.mapCluster n (fun k => k.bump fLigFarInCount 1)

/-- What a far arrive or signal makes of its unit (R216). -/
def FarOp.act (x : FarOp) (k : Cluster) : Cluster :=
  let m := k.bump fLigOpsCount 1
  (if x.signal then m.fire (x.operand % 512) else m.arrive (x.operand % 512)).test

theorem State.cluster_farCame (s : State) (idx n : Nat) : (s.farCame idx n).cluster n = (s.cluster n).bump fLigFarInCount 1 :=
  State.cluster_mapCluster_same ..

/-- A far operation is stale, comes while its region is wiped, is dropped with a fault, or acts. -/
theorem exec_farLigatureArrival {idx n : Nat} {x : FarOp} {s : State} (up : s.dev = .up) (here : s.farOps[idx]? = some x)
    (young : s.tooOld x.injectUs = false) (enabled : s.rgn x.region fRgnCfgEnable = 1) (unit : farUnit (s.regionEnv x.region) x.operand = n) :
    exec (.farLigatureArrival idx) s =
      if x.gen != s.rgn x.region fRgnStatusGeneration then .next ((s.farCame idx n).mapCluster n (fun k => k.bump fLigStaleCount 1))
      else if s.rgn x.region fRgnStatusState = 5 then .next (s.farCame idx n)
      else if (ligCluster (s.regionEnv x.region) x.operand).isNone || !(s.cluster n).ligOn (x.operand % 512) then
        .next (((s.farCame idx n).mapCluster n (fun k => k.bump fLigFarDropCount 1)).unitFault n (s.regionEnv x.region).core 6
          (ligInfo x.operand x.binding x.pc) x.gen)
      else .next ((s.farCame idx n).mapCluster n x.act) := by
  have on : ((s.farCame idx n).cluster n).ligOn (x.operand % 512) = (s.cluster n).ligOn (x.operand % 512) := by
    rw [State.cluster_farCame, (Cluster.bump_sameLigs _ (by decide) 1).ligOn]
  have region : s.rgn x.region fRgnCfgEnable ≠ 0 := by rw [enabled]; decide
  show execFarLigatureArrival idx s = _
  subst unit
  rw [← on, execFarLigatureArrival, if_neg (by simp [up]), here]
  exact (if_neg (Bool.eq_false_iff.mp young)).trans (if_neg region)

section
variable (s : State) (idx n : Nat) {f : Fld} (other : f.off ≠ fLigFarInCount.off)
include other

/-- A far operation that comes leaves its unit's ligatures and other counters. -/
theorem State.farCame_frame : (s.farCame idx n).farOps = s.farOps.eraseIdx idx ∧ ((s.farCame idx n).cluster n).ligs = (s.cluster n).ligs ∧
    ((s.farCame idx n).cluster n).fld f = (s.cluster n).fld f := by
  rw [State.cluster_farCame]
  exact ⟨rfl, rfl, Cluster.fld_bump_ne _ 1 other⟩

/-- One that another counter counts besides changes no ligature either. -/
theorem State.farCame_counted (fits : f.lo + f.width ≤ 64) : let t := (s.farCame idx n).mapCluster n (fun k => k.bump f 1)
    t.farOps = s.farOps.eraseIdx idx ∧ (t.cluster n).ligs = (s.cluster n).ligs ∧ (t.cluster n).fld f = ((s.cluster n).fld f + 1) % 2 ^ f.width := by
  obtain ⟨left, ligs, count⟩ := s.farCame_frame idx n other
  intro t
  rw [State.cluster_mapCluster_same, Cluster.fld_bump_same _ _ _ fits, count]
  exact ⟨left, ligs, rfl⟩

end

theorem FarOp.act_lig (x : FarOp) (k : Cluster) : let y := k.lig (x.operand % 512)
    (x.act k).lig (x.operand % 512) = if x.signal = true ∨ y.count + 1 = y.expect then y.fired else ⟨y.phase, (y.count + 1) % 2 ^ 16, y.expect⟩ := by
  intro y
  have counted := k.bump_sameLigs (f := fLigOpsCount) (by decide) 1
  have same : (k.bump fLigOpsCount 1).lig (x.operand % 512) = y := counted.lig _
  simp only [FarOp.act, (Cluster.test_sameLigs _).lig]
  cases signals : x.signal
  · simp only [Bool.false_eq_true, if_false, false_or, (Cluster.arrive_setsLig _ _).own, same, LigSt.arrived]
  · simp only [if_true, true_or, (Cluster.fire_setsLig _ _).own, same]

/-! ## Timed slots (R228 to R230) -/

/-- The slot that is due before every other that is due acts next. -/
theorem Core.nextDue_first {now n : Nat} {c : Core} (slot : n < 8) (due : (c.ctl.slots[n]!).due now = true)
    (first : ∀ j, j < 8 → j ≠ n → (c.ctl.slots[j]!).due now = false ∨ (c.ctl.slots[n]!).tick < (c.ctl.slots[j]!).tick ∨
      ((c.ctl.slots[n]!).tick = (c.ctl.slots[j]!).tick ∧ n < j)) : c.nextDue now = some n := by
  obtain ⟨m, next⟩ := Option.isSome_iff_exists.mp (Core.nextDue_isSome slot due)
  obtain ⟨slot_m, due_m⟩ := Core.slotDue_of_nextDue next
  have found := List.find?_some next
  simp only [Bool.and_eq_true, List.all_eq_true, List.mem_range, Bool.or_eq_true, Bool.not_eq_true', decide_eq_true_eq] at found
  by_cases same : m = n
  · exact same ▸ next
  · rw [Core.slotDue] at due_m
    have before := found.2 n slot
    have after := first m slot_m same
    simp only [due, due_m, Bool.true_eq_false, false_or] at before after
    omega

theorem exec_timedActionExecute {i : CoreId} {m : Fin 8} {s : State} (alive : (s.env i.val).alive = true)
    (next : (s.core i.val).nextDue (s.env i.val).now = some m.val) :
    exec (.timedActionExecute i m) s = .next (s.putCore i.val ((s.core i.val).timedExec (s.env i.val) m.val)) := by
  show execTimedActionExecute i m s = _
  simp only [execTimedActionExecute, alive, next, decide_true, Bool.and_self, if_true]

section
variable {e : Env} {n : Nat} {c : Core}

/-- A slot that is cancelled sends nothing and counts nothing: its core takes the ligature fault (R230). -/
theorem Core.timedExec_cancelled (past : (c.ctl.slots[n]!).past = true) (strict : (c.ctl.slots[n]!).strict = true) (plain : e.compat = false) :
    c.timedExec e n = (c.putSlot n ((c.ctl.slots[n]!).acted e.compat)).ligFault e 4 (slotInfo (c.ctl.slots[n]!).operand.toNat n) := by
  simp [Core.timedExec, TimedSlot.acted, Core.putSlot, past, strict, plain]

theorem Core.timedExec_acts (acts : ((c.ctl.slots[n]!).past && (c.ctl.slots[n]!).strict && !e.compat) = false) :
    c.timedExec e n = Core.timedAct e n (c.ctl.slots[n]!) (c.putSlot n ((c.ctl.slots[n]!).acted e.compat)) := by
  simp [Core.timedExec, TimedSlot.acted, Core.putSlot, acts]

/-- The fault of a cancelled slot enters the queue at once where no ligature fault is on its way (R30, R230). -/
theorem Core.ligFault_enqueued {info : Nat} (none_coming : ∀ z ∈ c.inbound, z.cls ≠ 3) (room : c.ctl.evq.length < 31) :
    (c.ligFault e 4 info).ctl.evq = c.ctl.evq ++ [eventRecord 3 4 info e.gen] := by
  have quiet : c.inbound.any (fun m => decide (m.cls = 3)) = false := by simpa using none_coming
  simp only [Core.ligFault, if_true, quiet, Bool.false_eq_true, if_false, Core.enqueue_room _ room]

variable {t : TimedSlot}

theorem Core.timedAct_event (kind : t.kind = 0) : c.timedAct e n t = c.enqueue (eventRecord 5 1 (n * 2 ^ 40 + t.tag % 2 ^ 32) e.gen) := by
  simp [Core.timedAct, kind]

theorem Core.timedAct_counter (kind : t.kind = 3) : c.timedAct e n t = c.count t.counter := by
  simp [Core.timedAct, kind]

theorem Core.timedAct_operation (kind : t.kind = 1 ∨ t.kind = 2) (inside : (ligCluster e t.operand.toNat).isSome) : c.timedAct e n t =
    { c with lig := { c.lig with timed := c.lig.timed ++ [⟨if t.kind = 1 then 0xE1 else 0xE0, t.operand.toNat, n⟩] } } := by
  obtain ⟨k, cluster⟩ := Option.isSome_iff_exists.mp inside
  obtain kind | kind := kind <;> simp [Core.timedAct, kind, cluster]

end

/-- Settles O20: a far operation by its generation, its region's state and its ligature, and a slot by whether it is cancelled. -/
theorem farAndTimedLigatureActions : Obligations.FarAndTimedLigatureActions := by
  unfold Obligations.FarAndTimedLigatureActions
  refine ⟨⟨fun idx n x s up here young enabled live gen cluster on => ?_, fun idx x s up here young enabled => ?_⟩, fun i m s => ?_⟩
  · have unit : farUnit (s.regionEnv x.region) x.operand = n := by rw [farUnit, cluster, Option.getD_some]
    have arrives := exec_farLigatureArrival up here young enabled unit
    simp only [gen, live, cluster, on, bne_self_eq_false, if_false, Option.isNone_some, Bool.not_true, Bool.or_self, Bool.false_eq_true] at arrives
    refine ⟨_, arrives, rfl, ?_⟩
    rw [State.cluster_mapCluster_same, x.act_lig, State.cluster_farCame, (Cluster.bump_sameLigs _ (by decide) 1).lig]
    rfl
  · intro n bad
    have arrives := exec_farLigatureArrival up here young enabled (n := n) rfl
    refine ⟨fun stale => ?_, fun gen wiping => ?_, fun gen live dropped => ?_⟩
    · exact ⟨_, arrives.trans (if_pos (by simpa using stale)), s.farCame_counted idx n (by decide) (by decide)⟩
    · exact ⟨_, arrives.trans ((if_neg (by simp [gen])).trans (if_pos wiping)), s.farCame_frame idx n (by decide)⟩
    · replace arrives := arrives.trans ((if_neg (by simp [gen])).trans ((if_neg live).trans (if_pos dropped)))
      obtain ⟨left, ligs, count⟩ := s.farCame_counted idx n (f := fLigFarDropCount) (by decide) (by decide)
      obtain ⟨units, far, -⟩ := ((s.farCame idx n).mapCluster n (fun k => k.bump fLigFarDropCount 1)).unitFault_spec n (s.regionEnv x.region).core 6
        (ligInfo x.operand x.binding x.pc) x.gen
      exact ⟨_, arrives, far.trans left, (units n).ligs.trans ligs, ((units n).fld (by decide)).trans count⟩
  · intro e c x alive due first
    refine ⟨_, exec_timedActionExecute alive (Core.nextDue_first m.isLt due first), ?_⟩
    have slot : ((c.timedExec e m.val).ctl.slots[m.val]!) = x.acted e.compat := by
      rw [(c.timedExec_sameProgram e m.val).2, getElem!_set!_same _ _ m.isLt]
    rw [State.core_putCore_same, slot]
    intro y
    refine ⟨x.acted_armed _, fun past strict plain => ?_, fun acts => ?_⟩
    · have acted : y = { x with armed := false, cancelled := true, late := true, lateness := x.delay } := by
        simp [y, TimedSlot.acted, past, strict, plain]
      rw [acted, Core.timedExec_cancelled past strict plain]
      refine ⟨rfl, rfl, rfl, rfl, congrArg _ (Core.ligFault_lig ..), (Core.ligFault_sameWork ..).cc, fun none_coming room => ?_⟩
      rw [Core.ligFault_enqueued (c := c.putSlot _ _) none_coming room, slotInfo, Nat.mod_eq_of_lt m.isLt]
      rfl
    · have acts : (x.past && x.strict && !e.compat) = false := by simpa using acts
      have acted : y = { x with armed := false, executed := true, late := x.past, lateness := if x.past then x.delay else 0 } := by
        simp [y, TimedSlot.acted, acts]
      rw [acted, Core.timedExec_acts acts]
      refine ⟨rfl, rfl, rfl, fun kind room => ?_, fun kind => ?_, fun kind inside => ?_⟩
      · rw [Core.timedAct_event kind, Core.enqueue_room (c := c.putSlot _ _) _ room]
        rfl
      · rw [Core.timedAct_counter kind]
        rfl
      · rw [Core.timedAct_operation kind inside]
        rfl

end Sys2Proof.Machine

/-! SUPPORT. A write of CORE_MESH_CFG over the hairline, and the hop of a flit: where it stands, what its move leaves of its packet, and what a way that is cut
discards. -/

namespace Sys2Proof.Machine

/-! ## A write of CORE_MESH_CFG (R244, R254, R258) -/

/-- A packet of the hairline network changes the clusters alone. -/
theorem State.send_cores_mesh (s : State) (a b : Nat) : (s.send a b).2.cores = s.cores ∧ (s.send a b).2.mesh = s.mesh := by
  obtain ⟨clusters, sent⟩ : ∃ clusters, (s.send a b).2 = s.withHub s.cores clusters s.hubHeld s.notes := State.hairline_withHub _ s
  rw [sent]
  exact ⟨rfl, rfl⟩

section
variable {i : CoreId} {v : Word} {s : State}

theorem exec_coreMeshCfgWrite_waits (waits : s.hubWaits (scribeHub (clusterOfCore i.val)) (clusterOfCore i.val) = true) :
    exec (.coreMeshCfgWrite i v) s = .next s := by
  show execCoreMeshCfgWrite i v s = _
  simp [execCoreMeshCfgWrite, waits]

theorem exec_coreMeshCfgWrite_crosses (up : s.dev = .up) (goes : s.hubWaits (scribeHub (clusterOfCore i.val)) (clusterOfCore i.val) = false) :
    let x := s.send (scribeHub (clusterOfCore i.val)) (clusterOfCore i.val)
    exec (.coreMeshCfgWrite i v) s =
      .next (if x.1 then x.2.mapCore i.val (fun c => c.setReg fCoreMeshCfgXpSel.off (BitVec.ofNat 64 (v.toNat % 2 ^ 9))) else x.2) := by
  show execCoreMeshCfgWrite i v s = _
  simp only [execCoreMeshCfgWrite, up, goes]
  rfl

end

/-! ## Where a flit stands -/

/-- A flit that has an output has not come to its packet's end. -/
theorem State.lt_last_of_outOf {s : State} {p : Packet} {f : Nat} {o : (Nat × Nat) × Nat} (out : s.outOf p f = some o) : f < p.last := by
  have ahead : p.path.length ≤ p.last := Nat.le_add_right ..
  cases next : p.path[f]? with
  | some b => exact lt_of_lt_of_le (List.getElem?_eq_some_iff.mp next).1 ahead
  | none =>
    simp only [State.outOf, next] at out
    cases here : p.here f with
    | none => simp [here] at out
    | some a =>
      simp only [here, Option.ite_none_right_eq_some] at out
      have entered : f ≠ 0 := fun zero => by simp [Packet.here, zero] at here
      rw [Packet.here, if_neg entered] at here
      have := (List.getElem?_eq_some_iff.mp here).1
      rw [Packet.last, if_pos out.1]
      omega

/-! ## A flit that moves (R243, R252) -/

theorem bodySpoil_nil (b : Body) : bodySpoil [] b = b := by
  cases b <;> simp [bodySpoil]

theorem State.spoil_mesh (s : State) (idx : Nat) (bad : List Nat) (p : Packet) :
    ∃ b, (s.spoil idx bad p).mesh = s.mesh.set idx { p with body := b } ∧ (bad = [] → b = p.body) := by
  unfold State.spoil
  split
  · exact ⟨p.body, rfl, fun _ => rfl⟩
  · exact ⟨_, rfl, fun clean => by rw [clean, bodySpoil_nil]⟩

theorem State.checkFlit_mesh (s : State) (idx j : Nat) (a b : Nat × Nat) (ce ue : List Nat) (p : Packet) :
    ∃ x, (s.checkFlit idx j a b ce ue p).mesh = s.mesh.set idx { p with body := x } ∧ (ue = [] → x = p.body) := by
  obtain ⟨x, mesh, clean⟩ := State.spoil_mesh (s.mapCore (s.physical b.1 b.2) (Core.checked
    ((bodyFlitWords p.headWords (s.cargo p) j ce).filter (fun k => !(bodyFlitWords p.headWords (s.cargo p) j ue).contains k)).length
    (bodyFlitWords p.headWords (s.cargo p) j ue).length p.region p.gen (s.physical a.1 a.2))) idx (bodyFlitWords p.headWords (s.cargo p) j ue) p
  exact ⟨x, mesh, fun none_bad => clean (by rw [none_bad]; rfl)⟩

/-- A packet whose flit `n` has come to `f`. -/
structure Packet.Moved (n f : Nat) (p q : Packet) : Prop where
  flits : q.flits = p.flits.set n f
  path : q.path = p.path
  vc : q.vc = p.vc
  region : q.region = p.region
  gen : q.gen = p.gen

theorem State.hop_moves (s : State) (idx n f : Nat) (p : Packet) (ce ue : List Nat) : ∃ q, (s.hop idx n p f ce ue).mesh = s.mesh.set idx q ∧
    Packet.Moved n (f + 1) p q ∧ (p.path[f]? = none ∨ ue = [] → q.body = p.body) := by
  unfold State.hop
  extract_lets q u
  have mesh : u.mesh = s.mesh := by
    simp only [u]
    split
    · split <;> rfl
    · rfl
  clear_value u
  rw [← mesh]
  split
  next a b _ next_ =>
    obtain ⟨x, checked, clean⟩ := u.checkFlit_mesh idx n a b ce ue q
    exact ⟨_, checked, ⟨rfl, rfl, rfl, rfl, rfl⟩, fun plain => clean (plain.resolve_left (by simp [next_]))⟩
  next => exact ⟨q, rfl, ⟨rfl, rfl, rfl, rfl, rfl⟩, fun _ => rfl⟩

/-! ## A packet whose way is cut (R244, R253) -/

theorem State.sweepGates_frame (s : State) : s.sweepGates.mesh = s.mesh ∧ s.sweepGates.cores = s.cores := by
  unfold State.sweepGates
  exact List.foldlRecOn _ _ (motive := fun t : State => t.mesh = s.mesh ∧ t.cores = s.cores) ⟨rfl, rfl⟩ fun _ same _ _ => same

theorem State.misroute_spec (s : State) (idx : Nat) (a : Nat × Nat) (n : Nat) : let t := s.misroute idx a n
    t.mesh = s.mesh.eraseIdx idx ∧ (t.core (s.physical a.1 a.2)).fld fCoreMeshMisrouteCount =
      ((s.core (s.physical a.1 a.2)).fld fCoreMeshMisrouteCount + n) % 2 ^ fCoreMeshMisrouteCount.width := by
  obtain ⟨mesh, cores⟩ := (s.dropPacket idx).sweepGates_frame
  refine ⟨mesh, ?_⟩
  rw [State.misroute, State.core_mapCore_same, State.core_of_cores (s := s) cores]
  exact Core.fld_bump_same _ _ _ (by decide)

theorem State.gateArrive_plain {p : Packet} (gate : ∀ k g, p.body ≠ .gate k g) (back : ∀ a b c d e, p.body ≠ .back a b c d e) (s : State) (idx : Nat) :
    s.gateArrive idx p = s := by
  unfold State.gateArrive
  split
  next body => exact absurd body (gate 1 _)
  next body => exact absurd body (gate 2 _)
  next body => exact absurd body (gate 3 _)
  next body => exact absurd body (back _ _ _ _ _)
  next => rfl

/-! ## The hop of a flit (R243 to R250) -/

section
variable {idx n f : Nat} {ce ue : List Nat} {p : Packet} {s : State} (here : s.mesh[idx]? = some p) (flit : p.flits[n]? = some f)
include here flit

theorem exec_meshFlitHop_held (held : s.hopMoves n p f = false) : exec (.meshFlitHop idx n ce ue) s = .next s := by
  show execMeshFlitHop idx n ce ue s = _
  simp [execMeshFlitHop, here, flit, held]

theorem exec_meshFlitHop_full (moves : s.hopMoves n p f = true) (clear : s.hopCut n p f = false)
    (full : s.hopRoom idx n p f = false ∨ s.mayHop n p f = false) : exec (.meshFlitHop idx n ce ue) s = .next s := by
  show execMeshFlitHop idx n ce ue s = _
  rcases full with full | full <;> simp [execMeshFlitHop, here, flit, moves, clear, full]

variable {o : (Nat × Nat) × Nat} (up : s.dev = .up) (out : s.outOf p f = some o)
include up out

theorem exec_meshFlitHop_cut (moves : s.hopMoves n p f = true) (cut : s.hopCut n p f = true) : exec (.meshFlitHop idx n ce ue) s =
    .next (s.misroute idx ((p.here f).getD (0, 0)) ((p.flits.filter (fun g => decide (g ≤ f))).length)) := by
  show execMeshFlitHop idx n ce ue s = _
  simp [execMeshFlitHop, up, here, flit, out, moves, cut]

/-- The last flit of a packet that is neither a tree's nor an exchange with a gateway leaves the mesh as any flit does: the packet stays for its receiver. -/
theorem exec_meshFlitHop_hops (moves : s.hopMoves n p f = true) (clear : s.hopCut n p f = false) (room : s.hopRoom idx n p f = true)
    (granted : s.mayHop n p f = true) (plain : f + 1 = p.last → n + 1 = p.flits.length →
      p.group = none ∧ (∀ k g, p.body ≠ .gate k g) ∧ ∀ a b c d e, p.body ≠ .back a b c d e) :
    exec (.meshFlitHop idx n ce ue) s = .next (s.hop idx n p f ce ue) := by
  show execMeshFlitHop idx n ce ue s = _
  simp only [execMeshFlitHop, up, here, flit, out, moves, clear, room, granted, bne_self_eq_false, Option.isNone_some, Bool.not_true, Bool.or_self,
    Bool.false_eq_true, if_false]
  split
  next => rfl
  next last =>
    simp only [Bool.or_eq_true, decide_eq_true_eq, not_or, not_lt] at last
    have ends := State.lt_last_of_outOf out
    have flits := (List.getElem?_eq_some_iff.mp flit).1
    obtain ⟨group, gate, back⟩ := plain (by omega) (by omega)
    rw [group]
    exact congrArg _ (State.gateArrive_plain gate back _ idx)

end

/-- Settles O32: a selection by the way of its write, and a flit by whether it moves, its way is cut, and it finds room and grant. -/
theorem meshHops : Obligations.MeshHops := by
  unfold Obligations.MeshHops
  constructor
  · intro i v s n up
    refine ⟨exec_coreMeshCfgWrite_waits, fun goes => ?_⟩
    obtain ⟨cores, mesh⟩ := s.send_cores_mesh (scribeHub n) n
    refine ⟨_, exec_coreMeshCfgWrite_crosses up goes, ?_⟩
    split
    · refine ⟨mesh, fun j other => ?_, ?_⟩
      · rw [State.core_mapCore_ne _ _ other, State.core_of_cores cores]
      · rw [State.core_mapCore_same, Core.reg_setReg_same]
    · exact ⟨mesh, fun j _ => State.core_of_cores cores j, by rw [State.core_of_cores cores]⟩
  · intro idx n f o ce ue p s up here flit out
    refine ⟨fun held => exec_meshFlitHop_held here flit held, fun moves clear => ⟨fun full => exec_meshFlitHop_full here flit moves clear full,
      fun room granted plain => ?_⟩, fun a at_ moves cut => ?_⟩
    · obtain ⟨q, mesh, moved, body⟩ := s.hop_moves idx n f p ce ue
      exact ⟨_, q, exec_meshFlitHop_hops here flit up out moves clear room granted plain, mesh,
        moved.flits, moved.path, moved.vc, moved.region, moved.gen, body⟩
    · have cuts := exec_meshFlitHop_cut (ce := ce) (ue := ue) here flit up out moves cut
      rw [at_, Option.getD_some] at cuts
      exact ⟨_, cuts, s.misroute_spec idx a _⟩

end Sys2Proof.Machine

/-! SUPPORT. A hub link that is marked down beside a ready region. -/

namespace Sys2Proof.Machine

/-- The sixteenth replay in a row that fails on a hub link marks the link down and stops what lies across it (R258). -/
theorem exec_hairlineReplay_sixteenth {c : ClusterId} {d : Fin 4} {s : State} (runs : s.alive c.val = true) (link : hubHas c.val d.val = true)
    (up : ((s.cluster c.val).fld fLigHlStatusLinkDown).testBit d.val = false) (row : (s.cluster c.val).replays.look d.val 0 = 15) :
    exec (.hairlineReplay c d false) s = .next (((s.setCluster c.val { (s.cluster c.val).bump fLigHlRetryCount 1 with
      replays := (s.cluster c.val).replays.put d.val 0 0 }).hubDown c.val d.val).stopAcross c.val (hubStep c.val d.val)) := by
  show execHairlineReplay c d false s = _
  simp [execHairlineReplay, runs, link, up, row]

/-- A cluster after fifteen failed replays on its +x link, whose register file lists LIG_HL_STATUS twice, both times as zero: a file that is not canonical. -/
def twiceListed : Cluster := { Cluster.reset with regs := [(fLigHlStatusDetour.off, 0), (fLigHlStatusDetour.off, 0)], replays := [(0, 15)] }

/-- A device whose ready region 0 holds clusters 0 and 1, cluster 0 being as above. -/
def readyPair : State :=
  (((({ State.reset with dev := .up }.setFld fClkClStatusLocked 1).setRgn 0 fRgnCfgEnable 1).setRgn 0 fRgnCfgWidth 1).setRgn 0 fRgnStatusState 1).setCluster 0
    twiceListed

/-- That device with the +x link of hub 0 marked down by a sixteenth failed replay. -/
def readyPairDown : State :=
  (readyPair.setCluster 0 { twiceListed.bump fLigHlRetryCount 1 with replays := [] }).hubDown 0 0

/-- The sixteenth failure marks the link down and stops region 0, which lies across it. -/
theorem exec_readyPair : exec (.hairlineReplay 0 0 false) readyPair = .next (readyPairDown.stopAcross 0 1) :=
  exec_hairlineReplay_sixteenth (c := 0) (d := 0) (s := readyPair) (by decide +kernel) (by decide) (by decide +kernel) (by decide +kernel)

/-- The detour that the failure sets is in the first entry of the register; the wipe of region 0 writes the file anew in its order, and the second entry comes
last. -/
theorem readyPair_detour : (readyPairDown.cluster 0).fld fLigHlStatusDetour = 1 ∧
    ((readyPairDown.stopAcross 0 1).cluster 0).fld fLigHlStatusDetour = 0 := by decide +kernel

/-- Refutes O33: the statement is of every State, and where a cluster's register file is not canonical the reset of its region (R258, R261, R274), which the
sixteenth failed replay of a hub link brings, can undo the detour around that link. -/
theorem not_linkReplaysAndBeacons : ¬ Obligations.LinkReplaysAndBeacons := by
  unfold Obligations.LinkReplaysAndBeacons
  rintro ⟨-, hub, -⟩
  obtain ⟨t, replayed, -, down⟩ := hub 0 0 readyPair (by decide +kernel) (by decide) (by decide +kernel)
  obtain ⟨-, detours⟩ := down (by decide +kernel)
  rw [← Host.Outcome.next.inj (exec_readyPair.symm.trans replayed)] at detours
  exact absurd (readyPair_detour.2.symm.trans detours) (by decide)

end Sys2Proof.Machine

/-! SUPPORT. Counter snaps: what a shadow holds of its register file, what the copying of every unit leaves of the cores and clusters, what the end of a
snap and the arming of one set; and the log with room for an entry. -/

namespace Sys2Proof.Machine

/-! ## Shadows (R438, R439) -/

theorem Tbl.look_filter {α : Type} {p : Nat → Bool} {k : Nat} (kept : p k = true) (d : α) (t : Tbl α) :
    Tbl.look (t.filter (fun x => p x.1)) k d = t.look k d := by
  induction t with
  | nil => rfl
  | cons x r ih =>
    obtain ⟨j, v⟩ := x
    cases here : p j
    · have other : j ≠ k := fun same => by simp [same, kept] at here
      simp [here, Tbl.look, other, ih]
    · simp [here, Tbl.look, ih]

/-- Every counter of a table is zero after a reset (R16, R438). -/
def countersZero (rows : List RegRow) (first : List Nat) : Bool := rows.all (fun r => !first.contains r.base || decide (r.resetWord = 0))

theorem countersZero_core : countersZero coreRegs coreCounters = true := by decide +kernel
theorem countersZero_cluster : countersZero clusterRegs clusterCounters = true := by decide +kernel
theorem countersZero_rim : countersZero rimRegs rimCounters = true := by decide +kernel

theorem isCounter_row {rows : List RegRow} {first : List Nat} {a : Nat} (counter : isCounter rows first a = true) :
    ∃ r ∈ rows, findReg rows a = some r ∧ r.holds a = true ∧ first.contains r.base = true := by
  obtain ⟨r, found, base⟩ := (Option.any_eq_true _ _).mp counter
  exact ⟨r, List.mem_of_find?_eq_some found, found, List.find?_some (p := fun r : RegRow => r.holds a) found, base⟩

theorem resetAt_counter {rows : List RegRow} {first : List Nat} (zero : countersZero rows first = true) {a : Nat} (counter : isCounter rows first a = true) :
    resetAt rows a = 0 := by
  obtain ⟨r, row, found, -, base⟩ := isCounter_row counter
  have reset := List.all_eq_true.mp zero r row
  rw [base, Bool.not_true, Bool.false_or, decide_eq_true_eq] at reset
  rw [resetAt, found]
  exact reset

/-- A shadow holds a counter as the register file does, where no snap tag stands in its place. -/
theorem snapped_look {rows : List RegRow} {first views : List Nat} (zero : countersZero rows first = true) {a : Nat}
    (counter : isCounter rows first a = true) (plain : a ∉ views) (seq : Nat) (t : Tbl Word) :
    (snapped rows first views seq t).look a 0 = t.look a (resetAt rows a) := by
  have tags (u : Tbl Word) : (views.foldl (fun (u : Tbl Word) v => u.put v (BitVec.ofNat 64 (seq % 2 ^ 32 + 2 ^ 32)) 0) u).look a 0 = u.look a 0 :=
    List.foldlRecOn _ _ (motive := fun w : Tbl Word => w.look a 0 = u.look a 0) rfl fun w same v member =>
      (Tbl.look_put_ne w (ne_of_mem_of_not_mem member plain).symm _ _ _).trans same
  rw [resetAt_counter zero counter]
  exact (tags _).trans (Tbl.look_filter (p := isCounter rows first) counter 0 t)

theorem Core.snap_look (c : Core) (seq : Nat) {o : Nat} (counter : isCounter coreRegs coreCounters o = true) (plain : o ∉ coreViews)
    (other : o ≠ fCoreEvtStaleCount.off) : (c.snap seq).shadow.look o 0 = c.reg o :=
  (Tbl.look_put_ne _ other _ _ _).trans (snapped_look countersZero_core counter plain seq c.regs)

theorem Cluster.snap_look (k : Cluster) (seq : Nat) {o : Nat} (counter : isCounter clusterRegs clusterCounters o = true) (plain : o ≠ 0) :
    (k.snap seq).shadow.look o 0 = k.reg o := by
  rw [Cluster.snap, Cluster.reg, snapped_look countersZero_cluster counter (by simpa using plain)]

/-! ## Every unit that a snap reaches copies (R256, R439) -/

/-- Cluster `n` and its cores copy. -/
def State.snapCluster (seq : Nat) (s : State) (n : Nat) : State :=
  (clusterCores n).foldl (fun (s : State) i => s.mapCore i (Core.snap seq)) (s.mapCluster n (Cluster.snap seq))

/-- Every cluster that the flood has reached and whose clock runs copies, with its cores. -/
def State.copyClusters (s : State) (seq : Nat) : State := (s.dbg.reach.filter s.alive).foldl (State.snapCluster seq) s

theorem State.copyAll_eq (s : State) (seq : Nat) :
    s.copyAll seq = { s.copyClusters seq with rimShadow := snapped rimRegs rimCounters rimViews seq (s.copyClusters seq).rim } := by
  unfold State.copyAll State.copyClusters State.snapCluster
  with_reducible rfl

/-- `t` has the rim of `s`, and the cores and clusters of `s` with other shadows: those of the clusters `ns` have copied under number `seq`. -/
structure State.Copied (seq : Nat) (ns : List Nat) (s t : State) : Prop where
  rim : t.rim = s.rim
  core : ∀ i, t.core i = if i ∈ ns.flatMap clusterCores then (s.core i).snap seq else s.core i
  cluster : ∀ n, t.cluster n = if n ∈ ns then (s.cluster n).snap seq else s.cluster n

/-- Cores changed one after another in a way that a second change leaves. -/
theorem State.core_foldl_mapCore {f : Core → Core} (idem : ∀ c, f (f c) = f c) (l : List Nat) (s : State) (j : Nat) :
    (l.foldl (fun (s : State) i => s.mapCore i f) s).core j = if j ∈ l then f (s.core j) else s.core j := by
  induction l generalizing s with
  | nil => rfl
  | cons i l ih =>
    rw [List.foldl_cons, ih]
    by_cases here : j = i
    · subst here
      simp [State.core_mapCore_same, idem]
    · simp [State.core_mapCore_ne s f here, here]

/-- A core's shadows depend on its registers and its count of discarded events alone. -/
theorem Core.snap_eq (seq : Nat) : ∃ copy : Tbl Word → Nat → Tbl Word, ∀ c : Core, c.snap seq = { c with shadow := copy c.regs c.ctl.evtStale } :=
  ⟨fun regs stale => (snapped coreRegs coreCounters coreViews seq regs).put fCoreEvtStaleCount.off (BitVec.ofNat 64 (stale % 2 ^ 32)) 0, fun _ => rfl⟩

theorem Core.snap_snap (seq : Nat) (c : Core) : (c.snap seq).snap seq = c.snap seq := by
  obtain ⟨copy, eq⟩ := Core.snap_eq seq
  rw [eq (c.snap seq), eq c]

theorem Cluster.snap_eq (seq : Nat) : ∃ copy : Tbl Word → Tbl Word, ∀ k : Cluster, k.snap seq = { k with shadow := copy k.regs } :=
  ⟨snapped clusterRegs clusterCounters [0] seq, fun _ => rfl⟩

theorem Cluster.snap_snap (seq : Nat) (k : Cluster) : (k.snap seq).snap seq = k.snap seq := by
  obtain ⟨copy, eq⟩ := Cluster.snap_eq seq
  rw [eq (k.snap seq), eq k]

theorem State.snapCluster_copied (seq : Nat) (s : State) (n : Nat) : State.Copied seq [n] s (s.snapCluster seq n) := by
  have frame : (s.snapCluster seq n).rim = s.rim ∧ (s.snapCluster seq n).clusters = (s.mapCluster n (Cluster.snap seq)).clusters :=
    List.foldlRecOn _ _ (motive := fun t : State => t.rim = s.rim ∧ t.clusters = (s.mapCluster n (Cluster.snap seq)).clusters) ⟨rfl, rfl⟩
      fun _ same _ _ => same
  refine ⟨frame.1, fun i => ?_, fun m => ?_⟩
  · rw [List.flatMap_singleton]
    exact State.core_foldl_mapCore (Core.snap_snap seq) ..
  · rw [State.cluster_of_clusters frame.2]
    by_cases here : m = n
    · subst here
      simp [State.cluster_mapCluster_same]
    · simp [here, State.mapCluster, State.cluster_setCluster_ne]

/-- A unit that copies twice under one number holds what it held after the first time. -/
theorem State.foldl_snapCluster_copied (seq : Nat) (ns : List Nat) (s : State) : State.Copied seq ns s (ns.foldl (State.snapCluster seq) s) := by
  induction ns generalizing s with
  | nil => exact ⟨rfl, fun _ => rfl, fun _ => rfl⟩
  | cons n ns ih =>
    obtain ⟨rim, core, cluster⟩ := s.snapCluster_copied seq n
    obtain ⟨rims, cores, clusters⟩ := ih (s.snapCluster seq n)
    rw [List.foldl_cons]
    refine ⟨rims.trans rim, fun i => ?_, fun m => ?_⟩
    · rw [cores, core, List.flatMap_singleton]
      by_cases first : i ∈ clusterCores n <;>
        simp only [first, if_true, if_false, List.flatMap_cons, List.mem_append, true_or, false_or, ite_self, Core.snap_snap]
    · rw [clusters, cluster]
      by_cases first : m = n <;>
        simp only [first, if_true, if_false, List.mem_cons, List.not_mem_nil, true_or, false_or, ite_self, Cluster.snap_snap]

theorem State.Copied.withRimShadow {seq : Nat} {ns : List Nat} {s u : State} (h : State.Copied seq ns s u) (shadow : Tbl Word) :
    State.Copied seq ns s { u with rimShadow := shadow } := ⟨h.rim, h.core, h.cluster⟩

theorem State.copyClusters_copied (s : State) (seq : Nat) : State.Copied seq (s.dbg.reach.filter s.alive) s (s.copyClusters seq) :=
  s.foldl_snapCluster_copied seq _

theorem State.copyAll_copied (s : State) (seq : Nat) : State.Copied seq (s.dbg.reach.filter s.alive) s (s.copyAll seq) := by
  rw [State.copyAll_eq]
  exact (s.copyClusters_copied seq).withRimShadow _

theorem State.copyAll_rimShadow (s : State) (seq : Nat) : (s.copyAll seq).rimShadow = snapped rimRegs rimCounters rimViews seq s.rim := by
  rw [State.copyAll_eq, ← (s.copyClusters_copied seq).rim]

/-! ## The end of a snap (R439, R440) -/

/-- The state once every unit has copied under number `seq` for the snap of time `at_`. -/
def State.endSnap (s : State) (seq at_ : Nat) : State :=
  let s := (s.setFld fDbgSnapStatusSeq seq).setFld fDbgSnapStatusPending 0
  { s.setReg fDbgSnapTimeTime.off (BitVec.ofNat 64 at_) with dbg := { s.dbg with snap := none } }

theorem State.takeSnap_eq (s : State) (at_ : Nat) :
    s.takeSnap at_ = (s.copyAll ((s.fld fDbgSnapStatusSeq + 1) % 2 ^ 32)).endSnap ((s.fld fDbgSnapStatusSeq + 1) % 2 ^ 32) at_ := by
  unfold State.takeSnap State.endSnap
  with_reducible rfl

section
variable (s : State) (seq at_ : Nat)

theorem State.endSnap_frame : (s.endSnap seq at_).cores = s.cores ∧ (s.endSnap seq at_).clusters = s.clusters ∧
    (s.endSnap seq at_).rimShadow = s.rimShadow ∧ (s.endSnap seq at_).dbg.snap = none := by
  simp only [State.endSnap, State.setReg_frame, State.setFld_frame, and_self]

/-- The status and the time of the last snap are the only registers that its end sets. -/
theorem State.endSnap_reg {a : Nat} (status : a ≠ fDbgSnapStatusSeq.off) (time : a ≠ fDbgSnapTimeTime.off) : (s.endSnap seq at_).reg a = s.reg a :=
  (State.reg_setReg_ne _ _ time).trans ((State.reg_setReg_ne _ _ status).trans (State.reg_setReg_ne _ _ status))

theorem State.endSnap_status : (s.endSnap seq at_).fld fDbgSnapStatusPending = 0 ∧ (s.endSnap seq at_).fld fDbgSnapStatusSeq = seq % 2 ^ 32 ∧
    (s.endSnap seq at_).reg fDbgSnapTimeTime.off = BitVec.ofNat 64 at_ := by
  have status {f : Fld} (here : f.off ≠ fDbgSnapTimeTime.off) :
      (s.endSnap seq at_).fld f = ((s.setFld fDbgSnapStatusSeq seq).setFld fDbgSnapStatusPending 0).fld f :=
    congrArg (fieldOf · f.lo f.width) (State.reg_setReg_ne _ _ here)
  refine ⟨?_, ?_, State.reg_setReg_same _ _ _⟩
  · rw [status (by decide), State.fld_setFld_same _ _ _ (by decide)]
    rfl
  · rw [status (by decide), State.fld_setFld_apart _ _ (by decide), State.fld_setFld_same _ _ _ (by decide)]
    rfl

end

/-- The registers that the end of a snap sets, DBG_SNAP_STATUS and DBG_SNAP_TIME, are no counters. -/
theorem snap_registers_plain : rimRegs.all (fun r => !rimCounters.contains r.base || !r.holds 0x2ca008 && !r.holds 0x2ca010) = true := by
  decide +kernel

theorem ne_snap_registers {a : Nat} (counter : isCounter rimRegs rimCounters a = true) : a ≠ fDbgSnapStatusSeq.off ∧ a ≠ fDbgSnapTimeTime.off := by
  obtain ⟨r, row, -, holds, base⟩ := isCounter_row counter
  have apart := List.all_eq_true.mp snap_registers_plain r row
  rw [base, Bool.not_true, Bool.false_or, Bool.and_eq_true, Bool.not_eq_true', Bool.not_eq_true'] at apart
  constructor
  · rintro rfl
    exact Bool.false_ne_true (apart.1.symm.trans holds)
  · rintro rfl
    exact Bool.false_ne_true (apart.2.symm.trans holds)

/-! ## A snap armed (R256, R439) -/

theorem State.flooded_congr {s t : State} (clusters : t.clusters = s.clusters) (clocks : t.clocks = s.clocks) : t.flooded = s.flooded := by
  have links : t.hubLinks = s.hubLinks := by
    funext n
    simp only [State.hubLinks, State.hubCut, State.cluster_of_clusters clusters]
  have held : t.heldOver = s.heldOver := by
    funext n
    simp only [State.heldOver, clocks]
  have from_ (n : Nat) (seen edge : List Nat) : t.floodFrom n seen edge = s.floodFrom n seen edge := by
    induction n generalizing seen edge with
    | zero => rfl
    | succ n ih => simp only [State.floodFrom, links, held, ih]
  simp only [State.flooded, from_, clusters, clocks]

theorem State.time_congr {s t : State} (seconds : t.reg fTimeSecSec.off = s.reg fTimeSecSec.off) (nanoseconds : t.reg fTimeNsNs.off = s.reg fTimeNsNs.off) :
    t.time = s.time := by
  simp only [State.time, State.fld, seconds, nanoseconds]

/-- The state with what an armed snap marks in DBG_SNAP_STATUS before its flood: late, and one replaced. -/
def State.markSnap (s : State) (soon : Bool) : State :=
  let s := if soon then s.setFld fDbgSnapStatusLate 1 else s
  if s.fld fDbgSnapStatusPending = 1 then s.setFld fDbgSnapStatusReplaced 1 else s

/-- The state with a snap pending for a time, for the clusters `reach`. -/
def State.setSnap (s : State) (at_ : Nat) (reach : List Nat) : State :=
  { s with dbg := { s.dbg with snap := some at_, reach := reach } }.setFld fDbgSnapStatusPending 1

theorem State.armSnap_eq (s : State) (time : Nat) : let soon := decide (time < s.time + 10000)
    let u := (s.markSnap soon).flood
    s.armSnap time = u.setSnap (if soon then u.tickIn 10000 else time) u.flooded := by
  unfold State.armSnap State.markSnap State.setSnap
  with_reducible rfl

section
variable (s : State) (at_ : Nat) (reach : List Nat)

theorem State.setSnap_spec : (s.setSnap at_ reach).fld fDbgSnapStatusPending = 1 ∧ (s.setSnap at_ reach).dbg.snap = some at_ ∧
    (s.setSnap at_ reach).dbg.reach = reach ∧ (s.setSnap at_ reach).flooded = s.flooded :=
  ⟨State.fld_setFld_same _ _ _ (by decide), rfl, rfl, State.flooded_congr rfl rfl⟩

theorem State.setSnap_fld {f : Fld} (other : 33 ≤ f.lo) : (s.setSnap at_ reach).fld f = s.fld f :=
  State.fld_setFld_apart { s with dbg := { s.dbg with snap := some at_, reach := reach } } 1 (.inr (.inr other))

end

theorem State.markSnap_status (s : State) (soon : Bool) : let t := s.markSnap soon
    t.fld fDbgSnapStatusLate = (if soon then 1 else s.fld fDbgSnapStatusLate) ∧
    t.fld fDbgSnapStatusReplaced = (if s.fld fDbgSnapStatusPending = 1 then 1 else s.fld fDbgSnapStatusReplaced) ∧ t.time = s.time := by
  have marks (u : State) : (u.setFld fDbgSnapStatusReplaced 1).fld fDbgSnapStatusLate = u.fld fDbgSnapStatusLate ∧
      (u.setFld fDbgSnapStatusReplaced 1).fld fDbgSnapStatusReplaced = 1 ∧ (u.setFld fDbgSnapStatusReplaced 1).time = u.time :=
    ⟨State.fld_setFld_apart _ _ (by decide), State.fld_setFld_same _ _ _ (by decide),
      State.time_congr (State.reg_setReg_ne _ _ (by decide)) (State.reg_setReg_ne _ _ (by decide))⟩
  have late : (s.setFld fDbgSnapStatusLate 1).fld fDbgSnapStatusLate = 1 ∧
      (s.setFld fDbgSnapStatusLate 1).fld fDbgSnapStatusPending = s.fld fDbgSnapStatusPending ∧
      (s.setFld fDbgSnapStatusLate 1).fld fDbgSnapStatusReplaced = s.fld fDbgSnapStatusReplaced ∧ (s.setFld fDbgSnapStatusLate 1).time = s.time :=
    ⟨State.fld_setFld_same _ _ _ (by decide), State.fld_setFld_apart _ _ (by decide), State.fld_setFld_apart _ _ (by decide),
      State.time_congr (State.reg_setReg_ne _ _ (by decide)) (State.reg_setReg_ne _ _ (by decide))⟩
  cases soon <;> by_cases pending : s.fld fDbgSnapStatusPending = 1 <;> simp [State.markSnap, pending, marks, late]

theorem State.time_of_rim {s t : State} (rim : t.rim = s.rim) : t.time = s.time := by
  simp only [State.time, State.fld_of_rim rim]

/-- A flood changes the clusters alone: the counts of their hubs. -/
theorem State.flood_eq (s : State) : ∃ clusters, s.flood = { s with clusters := clusters } := by
  unfold State.flood State.floodOn
  exact ⟨_, rfl⟩

theorem State.flood_rim (s : State) : s.flood.rim = s.rim := by
  obtain ⟨clusters, eq⟩ := s.flood_eq
  rw [eq]

theorem State.armSnap_spec (s : State) (time : Nat) : let t := s.armSnap time
    t.fld fDbgSnapStatusPending = 1 ∧ t.dbg.snap = some (if time < s.time + 10000 then s.tickIn 10000 else time) ∧ t.dbg.reach = t.flooded ∧
    t.fld fDbgSnapStatusLate = (if time < s.time + 10000 then 1 else s.fld fDbgSnapStatusLate) ∧
    t.fld fDbgSnapStatusReplaced = (if s.fld fDbgSnapStatusPending = 1 then 1 else s.fld fDbgSnapStatusReplaced) := by
  obtain ⟨late, replaced, now⟩ := s.markSnap_status (decide (time < s.time + 10000))
  rw [← State.fld_of_rim (State.flood_rim _)] at late replaced
  rw [← State.time_of_rim (State.flood_rim _)] at now
  rw [State.armSnap_eq]
  generalize (s.markSnap (decide (time < s.time + 10000))).flood = u at late replaced now
  have tick : u.tickIn 10000 = s.tickIn 10000 := by rw [State.tickIn, now, State.tickIn]
  simp only [decide_eq_true_eq] at late
  simp only [tick, decide_eq_true_eq]
  obtain ⟨pending, snap, reach, flooded⟩ := u.setSnap_spec (if time < s.time + 10000 then s.tickIn 10000 else time) u.flooded
  exact ⟨pending, snap, reach.trans flooded.symm, (u.setSnap_fld _ _ (by decide)).trans late, (u.setSnap_fld _ _ (by decide)).trans replaced⟩

/-! ## The log with room for an entry (R436, R442, R443) -/

/-- The entry that an event makes. -/
def State.logEntry (s : State) (code severity cluster : Nat) (region : Option Nat) (detail : Word) : LogEntry :=
  ⟨s.fld fAoiLogHeadNextSeq, code, severity, cluster, region, s.time, s.fld fAoiCauseResets, detail⟩

/-- The state with a critical entry in the last-gasp register. -/
def State.lastGasp (s : State) (e : LogEntry) : State :=
  if e.severity = 2 then e.words.zipIdx.foldl (fun (t : State) x => t.setReg (fAoiLastGaspWord.off + 8 * x.2) x.1) s else s

/-- The state with one more entry in its log, which is then `l`. -/
def State.appendLog (s : State) (l : List LogEntry) : State := ({ s with log := l }.bump fAoiLogHeadNextSeq 1).setFld fAoiLogHeadHeld l.length

/-- The entries of a log that holds no more than the last 8,192. -/
def lastEntries (l : List LogEntry) : List LogEntry := if 8192 < l.length then l.drop (l.length - 8192) else l

theorem State.logEvent_eq (s : State) (code severity cluster : Nat) (region : Option Nat) (detail : Word) : s.logEvent code severity cluster region detail =
    let e := s.logEntry code severity cluster region detail
    let u := s.lastGasp e
    let t := u.appendLog (lastEntries (u.log ++ [e]))
    if u.fld fAoiLogStatusLogLost = 1 then u.setFld fAoiLogStatusLostEntries (min 65535 (u.fld fAoiLogStatusLostEntries + 1))
    else if t.logBad.look (logPlace e.seq) false then t.loseLog else t := rfl

theorem State.lastGasp_frame (s : State) (e : LogEntry) : (s.lastGasp e).log = s.log ∧ (s.lastGasp e).logBad = s.logBad ∧
    ∀ f : Fld, f.off < fAoiLastGaspWord.off → (s.lastGasp e).fld f = s.fld f := by
  unfold State.lastGasp
  split
  · refine List.foldlRecOn _ _
      (motive := fun t : State => t.log = s.log ∧ t.logBad = s.logBad ∧ ∀ f : Fld, f.off < fAoiLastGaspWord.off → t.fld f = s.fld f)
      ⟨rfl, rfl, fun _ _ => rfl⟩ fun t ⟨log, bad, same⟩ x _ => ⟨log, bad, fun f low => ?_⟩
    exact (congrArg (fieldOf · f.lo f.width) (t.reg_setReg_ne _ (by omega))).trans (same f low)
  · exact ⟨rfl, rfl, fun _ _ => rfl⟩

theorem State.logEvent_room {s : State} (code severity cluster : Nat) (region : Option Nat) (detail : Word) (kept : s.fld fAoiLogStatusLogLost = 0)
    (room : s.log.length < 8192) : let e := s.logEntry code severity cluster region detail
    let t := (s.lastGasp e).appendLog (s.log ++ [e])
    s.logEvent code severity cluster region detail = if s.logBad.look (s.fld fAoiLogHeadNextSeq % 8192) false then t.loseLog else t := by
  intro e t
  obtain ⟨log, bad, fld⟩ := s.lastGasp_frame e
  have open_ : ¬(s.lastGasp e).fld fAoiLogStatusLogLost = 1 := by rw [fld _ (by decide), kept]; decide
  have fits : lastEntries (s.log ++ [e]) = s.log ++ [e] := if_neg (by rw [List.length_append, List.length_singleton]; omega)
  have same : t.logBad = s.logBad := bad
  rw [State.logEvent_eq]
  simp only [open_, if_false, log, fits, e, t, same]
  rfl

theorem State.appendLog_spec (s : State) (l : List LogEntry) : (s.appendLog l).log = l ∧
    (s.appendLog l).fld fAoiLogHeadNextSeq = (s.fld fAoiLogHeadNextSeq + 1) % 2 ^ 32 ∧
    (s.appendLog l).fld fAoiLogStatusLogLost = s.fld fAoiLogStatusLogLost := by
  refine ⟨rfl, ?_, ?_⟩
  · rw [State.appendLog, State.fld_setFld_apart _ _ (by decide)]
    exact State.fld_setFld_same _ _ _ (by decide)
  · rw [State.appendLog, State.fld_setFld_apart _ _ (by decide)]
    exact State.fld_setFld_apart _ _ (by decide)

theorem State.loseLog_spec (s : State) : s.loseLog.log = s.log ∧ s.loseLog.fld fAoiLogStatusLogLost = 1 ∧
    s.loseLog.fld fAoiLogHeadNextSeq = s.fld fAoiLogHeadNextSeq := by
  have registers (f : Fld) : s.loseLog.fld f = (s.setFld fAoiLogStatusLogLost 1).fld f := State.fld_of_rim rfl f
  exact ⟨rfl, (registers _).trans (State.fld_setFld_same _ _ _ (by decide)), (registers _).trans (State.fld_setFld_apart _ _ (by decide))⟩

/-- An event that a log with room takes (R442, R443, R436): its entry comes last, under the next number, and the log takes no more after one that is written
where an upset has struck. -/
theorem State.logEvent_appends {s : State} (code severity cluster : Nat) (region : Option Nat) (detail : Word) (kept : s.fld fAoiLogStatusLogLost = 0)
    (room : s.log.length < 8192) : let t := s.logEvent code severity cluster region detail
    t.log = s.log ++ [s.logEntry code severity cluster region detail] ∧ t.fld fAoiLogHeadNextSeq = (s.fld fAoiLogHeadNextSeq + 1) % 2 ^ 32 ∧
    t.fld fAoiLogStatusLogLost = if s.logBad.look (s.fld fAoiLogHeadNextSeq % 8192) false then 1 else 0 := by
  rw [State.logEvent_room code severity cluster region detail kept room]
  generalize s.logEntry code severity cluster region detail = e
  obtain ⟨-, -, fld⟩ := s.lastGasp_frame e
  obtain ⟨log, next, lost⟩ := (s.lastGasp e).appendLog_spec (s.log ++ [e])
  rw [fld _ (by decide)] at next lost
  split
  · obtain ⟨same, set, keeps⟩ := ((s.lastGasp e).appendLog (s.log ++ [e])).loseLog_spec
    exact ⟨same.trans log, keeps.trans next, set⟩
  · exact ⟨log, next, lost.trans kept⟩

/-! ## Requests of eight bytes -/

theorem badPayload_eight {p : List Byte} {fields : List (Nat × Nat × Bool)} (eight : p.length = 8)
    (good : fields.all (fun f => decide (f.1 + f.2.1 ≤ 8) && f.2.2)) :
    badPayload p 8 fields = none := by
  have none_bad : badField p fields = none := by
    rw [badField, List.find?_eq_none.mpr, Option.map_none]
    intro f member
    have := List.all_eq_true.mp good f member
    simp only [Bool.and_eq_true, decide_eq_true_eq] at this
    simp [eight, this]
  rw [badPayload, none_bad, Option.orElse_none, if_pos (Nat.le_of_eq eight)]

/-! ## The commands (R439 to R443, R450) -/

section
variable {s : State} (up : s.dev = .up)
include up

theorem exec_snapAtWrite (time : Word) : exec (.snapAtWrite time) s = .next (s.armSnap time.toNat) := by
  show execSnapAtWrite time s = _
  rw [execSnapAtWrite, if_pos up]

theorem exec_snapCopy {at_ : Nat} (pending : s.dbg.snap = some at_) (due : at_ ≤ s.time) : exec .snapCopy s = .next (s.takeSnap at_) := by
  show execSnapCopy s = _
  simp [execSnapCopy, pending, up, due]

theorem exec_counterSnap {p : List Byte} (payload : s.payload 0x30 = some p) (eight : p.length = 8) :
    exec .counterSnap s = .next ((s.armSnap (numAt p 0 8)).answer 0x30 0 []) := by
  show execCounterSnap s = _
  have good : badPayload p 8 [(0, 8, true)] = none := badPayload_eight eight rfl
  simp [execCounterSnap, payload, up, good]

theorem exec_firmwareLogWrite (v : Word) : exec (.firmwareLogWrite v false) s =
    .next (if v.toNat % 256 < 0x80 then s
      else s.logEvent (v.toNat % 256) (v.toNat / 256 % 4) 0xFF none (s.reg fAoiLogWrDetailDetail.off)) := by
  have code : fieldOf v 0 8 = v.toNat % 256 := rfl
  have severity : fieldOf v 8 2 = v.toNat / 256 % 4 := congrArg (· % 4) (Nat.shiftRight_eq_div_pow v.toNat 8)
  show execFirmwareLogWrite v false s = _
  simp only [execFirmwareLogWrite, up, if_true, State.firmwareLog, code, severity, Bool.false_and, Bool.false_eq_true, if_false]

theorem exec_logRead {p : List Byte} (payload : s.payload 0x31 = some p) (eight : p.length = 8) (count : numAt p 4 4 ≤ 250)
    (clean : s.logSpoiled (numAt p 0 4) (numAt p 4 4) = false) :
    exec (.logRead false) s = .next (s.answer 0x31 0 (logBytes (numAt p 0 4) (numAt p 4 4) s.log)) := by
  show execLogRead false s = _
  have good : badPayload p 8 [(0, 4, true), (4, 4, decide (numAt p 4 4 ≤ 250))] = none := badPayload_eight eight (by simp [count])
  simp only [execLogRead, payload, up, good, clean]
  rfl

end

/-- Settles O59: a snap by what arms it and what its end copies, and the log by its room. -/
theorem snapsAndLog : Obligations.SnapsAndLog := by
  unfold Obligations.SnapsAndLog
  intro s up
  refine ⟨fun time => ?_, fun at_ pending due => ?_, fun p payload eight => ?_, fun v => ⟨fun low => ?_, fun high kept room => ?_⟩,
    fun p payload eight count clean => exec_logRead up payload eight count clean⟩
  · obtain ⟨armed, snap, reach, late, replaced⟩ := s.armSnap_spec time.toNat
    exact ⟨_, exec_snapAtWrite up time, armed, snap, reach, late, replaced⟩
  · generalize seq : (s.fld fDbgSnapStatusSeq + 1) % 2 ^ 32 = n
    have ends : s.takeSnap at_ = (s.copyAll n).endSnap n at_ := by rw [State.takeSnap_eq, seq]
    have copied := s.copyAll_copied n
    have shadow := s.copyAll_rimShadow n
    generalize s.copyAll n = u at ends copied shadow
    obtain ⟨cores, clusters, rimShadow, ended⟩ := u.endSnap_frame n at_
    obtain ⟨idle, number, time⟩ := u.endSnap_status n at_
    have core (i : Nat) := (State.core_of_cores cores i).trans (copied.core i)
    refine ⟨_, exec_snapCopy up pending due, ?_⟩
    rw [ends]
    refine ⟨ended, idle, ?_, time, fun a counter plain => ⟨?_, ?_⟩, fun i => ?_,
      fun m reached _ runs => ⟨fun o counter plain => ?_, fun i own o counter plain other => ?_⟩⟩
    · rw [number, ← seq, Nat.mod_mod]
    · rw [rimShadow, shadow, snapped_look countersZero_rim counter plain]
      rfl
    · obtain ⟨status, time⟩ := ne_snap_registers counter
      rw [u.endSnap_reg n at_ status time, State.reg, copied.rim, State.reg]
    · rw [core]
      split <;> exact ⟨rfl, rfl, rfl, rfl⟩
    · rw [State.cluster_of_clusters clusters, copied.cluster, if_pos (List.mem_filter.mpr ⟨reached, runs⟩), Cluster.snap_look _ _ counter plain]
    · rw [core, if_pos (List.mem_flatMap.mpr ⟨m, List.mem_filter.mpr ⟨reached, runs⟩, own⟩), Core.snap_look _ _ counter plain other]
  · exact ⟨_, exec_counterSnap up payload eight, (s.armSnap_spec (numAt p 0 8)).2.1⟩
  · rw [exec_firmwareLogWrite up, if_pos low]
  · obtain ⟨log, next, lost⟩ := State.logEvent_appends (v.toNat % 256) (v.toNat / 256 % 4) 0xFF none (s.reg fAoiLogWrDetailDetail.off) kept room
    rw [exec_firmwareLogWrite up, if_neg (Nat.not_lt.mpr high)]
    exact ⟨_, _, rfl, lost, log, rfl, rfl, rfl, rfl, next⟩

end Sys2Proof.Machine

/-! SUPPORT. A client past the table of 1,024 whose counter is a register of the repair map. -/

namespace Sys2Proof.Machine

/-- A frame of no bytes for client 2208 of region 28. -/
def strayFrame : IngFrame := ⟨2208, 28, 0, [], 0, 0, none⟩

/-- A device whose region 28 runs, its origin in cluster column 4 of row 0. Port 1 holds the frame above, and has promoted its client, which the table of 1,024
does not hold: the CLI_CFG of a client 2208 would be 0x80 * 2208 past the first, where the repair map begins, and its CLI_ING_FRAMES is the map's register of
cluster column 4 of row 0, here with 63, which names no failed core. Core 28, at the region's origin, has the client's ring, its first granule written. -/
def strayClient : State :=
  (((((({ State.reset with dev := .up }.setRgn 28 fRgnStatusState 2).setRgn 28 fRgnCfgCx0 4).setCli 2208 fCliCfgValid 1).setCli 2208 fCliIngX 0).setCli 2208
    fCliIngFramesCount 63).mapPort 1 (fun q => { q with ingress := [strayFrame], promoted := [2208] })).mapCore 28
    (fun c => { c with well := { c.well with mem := c.well.mem.mark 0 } })

/-- The frame is delivered, and counted in CLI_ING_FRAMES: the repair map then has the row short, its first core failed, and the doorbell is not core 28's. -/
theorem exec_strayClient : ∃ t, exec (.ingressDelivery 1) strayClient = .next t ∧ (t.core 28).inbound = [] :=
  ⟨_, rfl, by decide +kernel⟩

/-- Refutes O37: the statement is of every State, and so of one in which a port has promoted a client past the table's 1,024 entries (R275). Where the counter of
that client's frames is a register of the repair map, counting a delivery moves the region's control core, and the doorbell of R269 goes elsewhere. -/
theorem not_portClientTraffic : ¬ Obligations.PortClientTraffic := by
  unfold Obligations.PortClientTraffic
  rintro ⟨⟨deliver, -⟩, -⟩
  obtain ⟨t, delivered, -, -, rings⟩ := deliver 1 2208 [] strayFrame strayClient (by decide +kernel) (by decide +kernel) (by decide +kernel) (by decide +kernel)
  have filled := rings (by decide +kernel) (by decide +kernel) (by decide +kernel) (by decide +kernel) (by decide +kernel) (by decide +kernel) (by decide +kernel)
    (by decide +kernel) (by decide +kernel)
  rw [if_neg (by decide +kernel)] at filled
  obtain ⟨-, -, -, -, -, -, -, doorbell⟩ := filled
  have rung := doorbell (.inl (by decide +kernel))
  obtain ⟨u, same, silent⟩ := exec_strayClient
  rw [Host.Outcome.next.inj (delivered.symm.trans same)] at rung
  have core : strayClient.regionCore (strayClient.cli 2208 fCliCfgRegion) 0 0 = 28 := by decide +kernel
  rw [core, silent, if_pos (by decide +kernel)] at rung
  exact List.append_ne_nil_of_right_ne_nil _ (List.cons_ne_nil _ _) rung.symm

end Sys2Proof.Machine

/-! SUPPORT. The client table: what an admission that is not refused names, the entry that it fills, makes valid or clears, and from them the rows of clients. -/

namespace Sys2Proof.Machine

/-! ## An admission that is not refused (R335, R477) -/

theorem badPayload_none {p : List Byte} {n : Nat} {fields : List (Nat × Nat × Bool)} (good : badPayload p n fields = none) : ∀ f ∈ fields, f.2.2 = true := by
  have none_bad : badField p fields = none := by
    rw [badPayload] at good
    cases first : badField p fields with
    | none => rfl
    | some d => rw [first, Option.orElse_some] at good; exact absurd good (Option.some_ne_none d)
  intro f member
  have := List.find?_eq_none.mp (Option.map_eq_none_iff.mp none_bad) f member
  simp only [Bool.or_eq_true, not_or, Bool.not_eq_true', Bool.not_eq_false] at this
  exact this.2

theorem State.admitRefused_none {s : State} {p : List Byte} (admits : s.admitRefused p = none) : admitBad p = none ∧
    (s.rgn (admitRegion p) fRgnStatusState = 1 ∨ s.rgn (admitRegion p) fRgnStatusState = 2) := by
  simp only [State.admitRefused] at admits
  split at admits
  · cases admits
  · split at admits
    · cases admits
    next layout =>
      refine ⟨layout, ?_⟩
      by_contra other
      rw [admitRegion, not_or] at other
      simp [ite_eq_iff, other] at admits

/-- The payload names an entry of the table or any entry, and gives valid as 0. -/
theorem admitBad_none {p : List Byte} (good : admitBad p = none) :
    (fieldOf (payWord p 0) 0 16 = 0xFFFF ∨ fieldOf (payWord p 0) 0 16 < 1024) ∧ bitOf (payWord p 8) 0 = false := by
  have fields := badPayload_none good
  simpa using And.intro (fields _ (.head _)) (fields _ (.tail _ (.tail _ (.head _))))

theorem State.admitEntry_lt (s : State) {id : Nat} (named : id = 0xFFFF ∨ id < 1024) : s.admitEntry id < 1024 := by
  rw [State.admitEntry]
  split
  · cases free : (List.range 1024).find? (fun k => decide (s.cli k fCliCfgValid = 0)) with
    | none => decide
    | some k => exact List.mem_range.mp (List.mem_of_find?_eq_some free)
  · omega

/-! ## The entry (R335) -/

theorem State.reg_of_rim {s t : State} (h : t.rim = s.rim) (a : Nat) : t.reg a = s.reg a := by rw [State.reg, h, State.reg]

/-- A field of a word cut to its low bits is the word's own. -/
theorem fieldOf_low (w : Word) {n lo len : Nat} (within : lo + len ≤ n) (fits : n ≤ 64) :
    fieldOf (BitVec.ofNat 64 (fieldOf w 0 n)) lo len = fieldOf w lo len := by
  have small : fieldOf w 0 n < 2 ^ 64 := (fieldOf_lt w 0 n).trans_le (Nat.pow_le_pow_right (by decide) fits)
  rw [fieldOf_ofNat small, fieldOf, fieldOf, Nat.shiftRight_zero, Nat.shiftRight_eq_div_pow]
  refine Nat.eq_of_testBit_eq fun i => ?_
  simp only [Nat.testBit_mod_two_pow, Nat.testBit_div_two_pow]
  by_cases inside : i < len <;> simp [inside, show i < len → i + lo < n by omega]

/-- The entry that an admission fills: its registers by the payload, and no register outside it. -/
theorem State.fillEntry_spec (s : State) (k : Nat) (p : List Byte) : let t := s.fillEntry k p
    t.cli k fCliCfgRegion = fieldOf (payWord p 8) 1 6 ∧ t.reg (fCliSeedSeed.off + 0x80 * k) = payWord p 16 ∧
    ∀ f : Fld, fCliEgrX.off + 0x80 * k < f.off → t.fld f = s.fld f := by
  have rim : (s.fillEntry k p).rim = _ := (State.zeroRings_sameControl _ k).rim
  have reg := State.reg_of_rim rim
  refine ⟨?_, ?_, fun f above => ?_⟩
  · show fieldOf ((s.fillEntry k p).reg (fCliCfgValid.off + 0x80 * k)) 1 6 = _
    rw [reg, State.reg_setReg_ne _ _ (by simp [fCliCfgValid, fCliEgrX]), State.reg_setReg_ne _ _ (by simp [fCliCfgValid, fCliIngX]),
      State.reg_setReg_ne _ _ (by simp [fCliCfgValid, fCliSeedSeed]), State.reg_setReg_same, fieldOf_low _ (by decide) (by decide)]
  · rw [reg, State.reg_setReg_ne _ _ (by simp [fCliSeedSeed, fCliEgrX]), State.reg_setReg_ne _ _ (by simp [fCliSeedSeed, fCliIngX]), State.reg_setReg_same]
  · simp only [fCliEgrX] at above
    rw [State.fld, reg, State.reg_setReg_ne _ _ (by simp only [fCliEgrX]; omega), State.reg_setReg_ne _ _ (by simp only [fCliIngX]; omega),
      State.reg_setReg_ne _ _ (by simp only [fCliSeedSeed]; omega), State.reg_setReg_ne _ _ (by simp only [fCliCfgValid]; omega), State.fld]

theorem State.rgn_fillEntry (s : State) {k : Nat} (entry : k < 1024) (p : List Byte) (r : Nat) {f : Fld} (region : 0x2c0000 ≤ f.off) :
    (s.fillEntry k p).rgn r f = s.rgn r f := by
  obtain ⟨-, -, outside⟩ := s.fillEntry_spec k p
  exact outside _ (by simp only [fCliEgrX, fldAt]; omega)

/-- A client made valid, without classification entries. -/
theorem State.enrol_spec (s : State) (k : Nat) : let t := s.enrol k []
    t.cli k fCliCfgValid = 1 ∧ t.cli k fCliCfgRegion = s.cli k fCliCfgRegion ∧
    t.reg (fCliSeedSeed.off + 0x80 * k) = s.reg (fCliSeedSeed.off + 0x80 * k) ∧ t.removing.look k 0 = 0 := by
  have rim : (s.enrol k []).rim = (s.setCli k fCliCfgValid 1).rim := rfl
  refine ⟨?_, ?_, ?_, Tbl.look_put_same s.removing k 0 0⟩
  · exact (State.fld_of_rim rim _).trans (State.fld_setFld_same s (fldAt fCliCfgValid (0x80 * k)) 1 (by decide : (0 : Nat) + 1 ≤ 64))
  · exact (State.fld_of_rim rim _).trans (State.fld_setFld_apart s (f := fldAt fCliCfgValid (0x80 * k)) 1 (.inr (.inr (by decide : (0 : Nat) + 1 ≤ 1))))
  · exact (State.reg_of_rim rim _).trans (State.reg_setReg_ne s _ (by simp [fldAt, fCliSeedSeed, fCliCfgValid]))

theorem State.clearEntry_valid (s : State) (k : Nat) : (s.clearEntry k).cli k fCliCfgValid = 0 := by
  have cleared : (s.clearEntry k).reg (fCliCfgValid.off + 0x80 * k) = 0 := by
    rw [State.clearEntry, State.reg_setReg_ne _ _ (by simp [fCliCfgValid, fCliEgrX]), State.reg_setReg_ne _ _ (by simp [fCliCfgValid, fCliIngX]),
      State.reg_setReg_ne _ _ (by simp [fCliCfgValid, fCliSeedSeed]), State.reg_setReg_same]
  rw [State.cli, State.fld, fldAt, cleared]
  rfl

/-! ## The rows of clients -/

section
variable {p : List Byte} {f : Scribe → Scribe} {s : State}

theorem exec_clientAdmit_turn (up : s.serving = true) (agree : Agrees (fun a => cliCfg a || decide (a = fRgnCfgEnable.off + 0x40 * admitRegion p)) s)
    (turn : s.enrolTurn (some p) = some f) (mid : Bool) :
    exec (.clientAdmit (some p) [] [] mid) s = .next ((s.scrServed f).admitClient true mid p []) := by
  show execClientAdmit (some p) [] [] mid s = _
  rw [Agrees] at agree
  simp [execClientAdmit, up, agree, turn]

theorem exec_clientAdmit_waits (up : s.serving = true) (agree : Agrees (fun a => cliCfg a || decide (a = fRgnCfgEnable.off + 0x40 * admitRegion p)) s)
    (turn : s.enrolTurn (some p) = none) (mid : Bool) :
    exec (.clientAdmit (some p) [] [] mid) s = .next (s.scrQueue ⟨admitRegion p, s.mono, .enrolOwn p []⟩) := by
  show execClientAdmit (some p) [] [] mid s = _
  rw [Agrees] at agree
  simp [execClientAdmit, up, agree, turn]

/-- Once the entry is filled, an admission that is not refused is carried out or cleared by its region's state (R335). -/
theorem State.admitClient_eq {mid : Bool} {k : Nat} {t : State} (admits : s.admitRefused p = none) (fills : s.admitEntry (fieldOf (payWord p 0) 0 16) = k)
    (filled : (if mid then (s.fillEntry k p).resetJob (admitRegion p) else s.fillEntry k p) = t) :
    s.admitClient true mid p [] = if t.rgn (admitRegion p) fRgnStatusState = 1 ∨ t.rgn (admitRegion p) fRgnStatusState = 2 then
      (t.enrol k []).tell true 0x24 0 (some k) else (t.clearEntry k).tell true 0x24 0x12 (some (admitRegion p)) := by
  have swap (a b : State) : (if (t.rgn (admitRegion p) fRgnStatusState != 1 && t.rgn (admitRegion p) fRgnStatusState != 2) = true then a else b) =
      if t.rgn (admitRegion p) fRgnStatusState = 1 ∨ t.rgn (admitRegion p) fRgnStatusState = 2 then b else a := by
    by_cases live : t.rgn (admitRegion p) fRgnStatusState = 1 ∨ t.rgn (admitRegion p) fRgnStatusState = 2
    · rw [if_pos live, if_neg (by simpa [or_iff_not_imp_left] using live)]
    · rw [if_neg live, if_pos (by simpa using live)]
  subst fills filled
  rw [State.admitClient, admits]
  exact swap _ _

theorem State.admitClient_done (admits : s.admitRefused p = none) : let k := s.admitEntry (fieldOf (payWord p 0) 0 16)
    s.admitClient true false p [] = ((s.fillEntry k p).enrol k []).tell true 0x24 0 (some k) := by
  intro k
  obtain ⟨layout, live⟩ := State.admitRefused_none admits
  have entry : k < 1024 := s.admitEntry_lt (admitBad_none layout).1
  rw [← s.rgn_fillEntry entry p _ (by decide)] at live
  exact (State.admitClient_eq (mid := false) admits rfl (if_neg Bool.false_ne_true)).trans (if_pos live)

/-- A reset on the way takes the region out of ready and running. -/
theorem State.admitClient_reset (admits : s.admitRefused p = none) (on : s.rgn (admitRegion p) fRgnCfgEnable = 1) :
    let k := s.admitEntry (fieldOf (payWord p 0) 0 16)
    s.admitClient true true p [] = (((s.fillEntry k p).resetJob (admitRegion p)).clearEntry k).tell true 0x24 0x12 (some (admitRegion p)) := by
  intro k
  obtain ⟨layout, live⟩ := State.admitRefused_none admits
  have entry : k < 1024 := s.admitEntry_lt (admitBad_none layout).1
  have reset : ((s.fillEntry k p).resetJob (admitRegion p)).rgn (admitRegion p) fRgnStatusState = afterReset (s.rgn (admitRegion p) fRgnStatusState) := by
    rw [State.state_resetJob _ (fieldOf_lt ..) ((s.rgn_fillEntry entry p _ (by decide)).trans on), s.rgn_fillEntry entry p _ (by decide)]
  refine (State.admitClient_eq (mid := true) admits rfl (if_pos rfl)).trans (if_neg ?_)
  rw [reset]
  rcases live with st | st <;> rw [st] <;> decide

theorem State.tell_own (s : State) (op st : Nat) (d : Option Nat) : (s.tell true op st d).rim = s.rim ∧ (s.tell true op st d).removing = s.removing ∧
    (s.tell true op st d).scribe.own = some (op, st, detailOf d) := ⟨rfl, rfl, rfl⟩

theorem State.admitClient_done_spec (admits : s.admitRefused p = none) : let k := s.admitEntry (fieldOf (payWord p 0) 0 16)
    let t := s.admitClient true false p []
    t.cli k fCliCfgValid = 1 ∧ t.cli k fCliCfgRegion = admitRegion p ∧ t.reg (fCliSeedSeed.off + 0x80 * k) = payWord p 16 ∧ t.removing.look k 0 = 0 ∧
    t.scribe.own = some (0x24, 0, detailWord k) := by
  intro k t
  obtain ⟨region, seed, -⟩ := s.fillEntry_spec k p
  obtain ⟨valid, sameRegion, sameSeed, removing⟩ := (s.fillEntry k p).enrol_spec k
  have done : t = ((s.fillEntry k p).enrol k []).tell true 0x24 0 (some k) := State.admitClient_done admits
  obtain ⟨rim, leaving, own⟩ := ((s.fillEntry k p).enrol k []).tell_own 0x24 0 (some k)
  rw [← done] at rim leaving own
  exact ⟨(State.fld_of_rim rim _).trans valid, (State.fld_of_rim rim _).trans (sameRegion.trans region), (State.reg_of_rim rim _).trans (sameSeed.trans seed),
    leaving ▸ removing, own⟩

theorem State.admitClient_reset_spec (admits : s.admitRefused p = none) (on : s.rgn (admitRegion p) fRgnCfgEnable = 1) :
    let t := s.admitClient true true p []
    t.cli (s.admitEntry (fieldOf (payWord p 0) 0 16)) fCliCfgValid = 0 ∧ t.scribe.own = some (0x24, 0x12, detailWord (admitRegion p)) := by
  intro t
  have done : t = _ := State.admitClient_reset admits on
  obtain ⟨rim, -, own⟩ := (((s.fillEntry (s.admitEntry (fieldOf (payWord p 0) 0 16)) p).resetJob (admitRegion p)).clearEntry
    (s.admitEntry (fieldOf (payWord p 0) 0 16))).tell_own 0x24 0x12 (some (admitRegion p))
  rw [← done] at rim own
  exact ⟨(State.fld_of_rim rim _).trans (State.clearEntry_valid ..), own⟩

theorem removeBad_none (eight : p.length = 8) (named : fieldOf (payWord p 0) 0 16 < 1024) (zero : fieldOf (payWord p 0) 16 48 = 0) :
    removeBad p = none := badPayload_eight eight (by simp [named, zero])

theorem exec_clientRemove_begins (up : s.serving = true) (service : s.lifecycle = 2) (layout : removeBad p = none)
    (agree : Agrees (fun a => decide (a = fCliCfgValid.off + 0x80 * fieldOf (payWord p 0) 0 16)) s)
    (valid : s.cli (fieldOf (payWord p 0) 0 16) fCliCfgValid = 1) (stays : s.removing.look (fieldOf (payWord p 0) 0 16) 0 = 0) :
    exec (.clientRemove (some p)) s = .next { s.withdrawCls (fieldOf (payWord p 0) 0 16) with
      removing := s.removing.put (fieldOf (payWord p 0) 0 16) (s.mono + 1) 0 } := by
  show execClientRemove (some p) s = _
  rw [Agrees] at agree
  simp [execClientRemove, up, service, layout, agree, valid, stays]

theorem State.cls_withdrawCls (s : State) (k : Nat) : ∀ x ∈ (s.withdrawCls k).cls, ¬(x.2.f fPortClsStage0Action = 0 ∧ x.2.f fPortClsStage0Client = k) := by
  intro x kept
  simpa [or_iff_not_imp_left] using (List.mem_filter.mp kept).2

theorem exec_clientRemoveComplete_ends {k : Fin 1024} (up : s.dev = .up) (leaves : s.removing.look k.val 0 ≠ 0)
    (ended : s.clientDrained k.val = true ∨ s.removing.look k.val 0 - 1 + 1000000 ≤ s.mono) (idle : s.scribe.reqs = []) :
    exec (.clientRemoveComplete k) s = .next ({ s.setCli k.val fCliCfgValid 0 with removing := s.removing.put k.val 0 0 }.tell true 0x25 0 none) := by
  show execClientRemoveComplete k s = _
  have ends : (s.removing.look k.val 0 != 0 && (s.clientDrained k.val || decide (s.removing.look k.val 0 - 1 + 1000000 ≤ s.mono))) = true := by
    simpa [leaves] using ended
  have same : (s.setCli k.val fCliCfgValid 0).scribe.reqs = [] := idle
  simp only [execClientRemoveComplete, up, ends, same]
  rfl

theorem exec_cliSeedWrite (up : s.dev = .up) (k : Fin 1024) (v : Word) : exec (.cliSeedWrite k v) s =
    .next (if s.cli k.val fCliCfgValid = 0 then s.setReg (fCliSeedSeed.off + 0x80 * k.val) v else s) := if_pos up

end

/-- Settles O36: an admission in its turn by whether a reset comes on the way, one out of turn, a removal and its end, and a seed by its entry. -/
theorem clientEntries : Obligations.ClientEntries := by
  unfold Obligations.ClientEntries
  refine ⟨?_, fun p mid s up agree turn => exec_clientAdmit_waits up agree turn mid, ?_, ?_, ?_⟩
  · intro p mid f s k r up agree turn admits
    have served : (s.scrServed f).admitRefused p = none := admits
    have entry : (s.scrServed f).admitEntry (fieldOf (payWord p 0) 0 16) = k := rfl
    constructor
    · rintro rfl
      exact ⟨_, exec_clientAdmit_turn up agree turn false, entry ▸ State.admitClient_done_spec served⟩
    · rintro rfl on
      exact ⟨_, exec_clientAdmit_turn up agree turn true, entry ▸ State.admitClient_reset_spec served on⟩
  · intro p s k up service named zero eight valid stays agree
    rw [exec_clientRemove_begins up service (removeBad_none eight named zero) agree valid stays]
    exact ⟨_, rfl, Tbl.look_put_same s.removing k (s.mono + 1) 0, s.cls_withdrawCls k⟩
  · intro k s up leaves ended idle
    rw [exec_clientRemoveComplete_ends up leaves ended idle]
    exact ⟨_, rfl, State.fld_setFld_same s (fldAt fCliCfgValid (0x80 * k.val)) 0 (by decide : (0 : Nat) + 1 ≤ 64), Tbl.look_put_same s.removing k.val 0 0⟩
  · intro k v s up
    rw [exec_cliSeedWrite up]
    refine ⟨fun unused => ?_, fun used => by rw [if_neg used]⟩
    rw [if_pos unused]
    exact ⟨_, rfl, State.reg_setReg_same .., fun a other => State.reg_setReg_ne s v other⟩

end Sys2Proof.Machine

/-! SUPPORT. Regions on their way to the next generation: what changes of cores and clusters leave of the rim and of the records of regions, what forcing and
wiping do, and a force that a failing cluster holds up. -/

namespace Sys2Proof.Machine

/-! ## What changes of units alone leave unchanged -/

/-- `t` differs from `s` in the cores and clusters, what waits at a crossing of the hairline, the reports and the upsets of words alone. -/
def State.OnlyUnits (s t : State) : Prop :=
  t = { s with cores := t.cores, clusters := t.clusters, hubHeld := t.hubHeld, notes := t.notes, wordErrs := t.wordErrs }

theorem State.OnlyUnits.refl (s : State) : s.OnlyUnits s := rfl

theorem State.OnlyUnits.trans {s t u : State} (h : s.OnlyUnits t) (h' : t.OnlyUnits u) : s.OnlyUnits u := by
  rw [State.OnlyUnits] at h
  exact Eq.trans h' (by rw [h])

theorem State.OnlyUnits.foldl {α : Type} {g : State → α → State} (h : ∀ t a, State.OnlyUnits t (g t a)) (l : List α) (s : State) :
    s.OnlyUnits (l.foldl g s) :=
  List.foldlRecOn _ _ (motive := s.OnlyUnits) (.refl s) fun t ht a _ => ht.trans (h t a)

theorem State.OnlyUnits.rim {s t : State} (h : s.OnlyUnits t) : t.rim = s.rim := by
  rw [State.OnlyUnits] at h
  rw [h]

theorem State.OnlyUnits.rgns {s t : State} (h : s.OnlyUnits t) : t.rgns = s.rgns := by
  rw [State.OnlyUnits] at h
  rw [h]

theorem State.mapCore_onlyUnits (s : State) (i : Nat) (f : Core → Core) : s.OnlyUnits (s.mapCore i f) := rfl

theorem State.mapCluster_onlyUnits (s : State) (n : Nat) (f : Cluster → Cluster) : s.OnlyUnits (s.mapCluster n f) := rfl

theorem State.note_onlyUnits (s : State) (x : Note) : s.OnlyUnits (s.note x) := rfl

theorem State.hubSend_onlyUnits (s : State) (m : HubMsg) : s.OnlyUnits (s.hubSend m) := by
  obtain ⟨_, _, _, _, sent⟩ := s.hubSend_withHub m
  rw [sent]
  rfl

theorem State.putCore_onlyUnits (s : State) (i : Nat) (c : Core) : s.OnlyUnits (s.putCore i c) := by
  have placed : s.OnlyUnits (s.setCore i c) := rfl
  rw [State.putCore]
  split
  · exact placed.trans (State.hubSend_onlyUnits ..)
  · exact placed

theorem State.wordCheck_onlyUnits (s : State) (i w : Nat) (a b : Nat × Nat) : s.OnlyUnits (s.wordCheck i w a b).2 := by
  simp only [State.wordCheck]
  split
  · exact .refl s
  · rfl

theorem State.cross_onlyUnits (i n w d : Nat) : ∀ (p : List (Nat × Nat)) (s : State) (inp : Nat), s.OnlyUnits (s.cross i n w d inp p).2
  | [], s, _ => .refl s
  | [_], s, _ => s.mapCore_onlyUnits _ _
  | a :: b :: r, s, inp => by
    simp only [State.cross]
    split
    · rfl
    · exact ((s.mapCore_onlyUnits _ _).trans (State.wordCheck_onlyUnits ..)).trans (State.cross_onlyUnits i n w d (b :: r) _ _)

theorem State.access_onlyUnits (s : State) (a b : Nat × Nat) (out back w : Nat) : s.OnlyUnits (s.access a b out back w).2 := by
  simp only [State.access]
  split
  · exact State.cross_onlyUnits ..
  · split
    · exact (State.cross_onlyUnits ..).trans (State.cross_onlyUnits ..)
    · exact State.cross_onlyUnits ..

theorem State.portRead_onlyUnits (s : State) (port i a : Nat) : s.OnlyUnits (s.portRead port i a).2 := by
  have crossed := s.access_onlyUnits (s.gateOf port i) (s.placeOf i) 1 1 1
  rw [State.portRead]
  generalize s.access (s.gateOf port i) (s.placeOf i) 1 1 1 = x at crossed ⊢
  simp only
  split
  · exact crossed.trans (x.2.putCore_onlyUnits i _)
  · exact crossed

theorem State.portWrite_onlyUnits (s : State) (port i : Nat) (ws : List WordWrite) : s.OnlyUnits (s.portWrite port i ws) := by
  have crossed := s.access_onlyUnits (s.gateOf port i) (s.placeOf i) (flitsOf ws.length) 0 ws.length
  rw [State.portWrite]
  generalize s.access (s.gateOf port i) (s.placeOf i) (flitsOf ws.length) 0 ws.length = x at crossed ⊢
  simp only
  split
  · exact crossed.trans (x.2.putCore_onlyUnits i _)
  · exact crossed

/-- A dropped frame is counted in the rim; the rest of it is in the ring (R269). -/
theorem State.dropIngress_onlyUnits (s : State) (port k : Nat) : (s.bumpCli k fCliIngDropCount 1).OnlyUnits (s.dropIngress port k) := by
  simp only [State.dropIngress]
  split
  · exact .refl _
  · have read := State.portRead_onlyUnits (s.bumpCli k fCliIngDropCount 1) port (s.ingCore k) (s.cli k fCliIngBase)
    split <;> rename_i heq <;> rw [heq] at read
    · exact read
    · exact read.trans (State.portWrite_onlyUnits ..)

theorem State.mapCores_onlyUnits (s : State) (r : Nat) (f : Core → Core) : s.OnlyUnits (s.mapCores r f) := .foldl (fun t i => t.mapCore_onlyUnits i f) _ s

theorem State.mapClusters_onlyUnits (s : State) (r : Nat) (f : Cluster → Cluster) : s.OnlyUnits (s.mapClusters r f) :=
  .foldl (fun t n => t.mapCluster_onlyUnits n f) _ s

theorem State.dissolve_onlyUnits (s : State) (r : Nat) : s.OnlyUnits (s.dissolve r) :=
  .foldl (fun t _ => .foldl (fun u m => u.mapCore_onlyUnits m _) _ t) _ s

theorem State.wipeUnits_onlyUnits (s : State) (r : Nat) (f : Core → Core) : s.OnlyUnits (s.wipeUnits r f) :=
  ((s.mapCores_onlyUnits r f).trans (State.mapClusters_onlyUnits ..)).trans
    (.foldl (fun t n => (t.mapCluster_onlyUnits n _).trans (.foldl (fun u i => u.mapCore_onlyUnits i f) _ _)) _ _)

/-! ## A region on its way to wiping (R263, R271 to R274) -/

/-- On its way from forcing to wiping a region keeps its generation (R263). -/
theorem State.generation_enterWiping_kept (s : State) (r : Nat) :
    (s.enterWiping r false).rgn r fRgnStatusGeneration = s.rgn r fRgnStatusGeneration := by
  rw [State.rgn_enterWiping_apart _ _ _ _ (by decide) (by decide)]
  exact State.rgn_of_rim (s.dissolve_rim r) ..

theorem State.dropTraffic_frame (s : State) (r : Nat) : (s.dropTraffic r).rim = s.rim ∧ (s.dropTraffic r).cores = s.cores ∧
    (s.dropTraffic r).mesh = s.mesh.filter (fun p => p.region != r) := by
  have ports (l : List Nat) (f : PortSt → PortSt) : (l.foldl (fun s p => s.mapPort p f) s).rim = s.rim ∧
      (l.foldl (fun s p => s.mapPort p f) s).cores = s.cores ∧ (l.foldl (fun s p => s.mapPort p f) s).mesh = s.mesh :=
    List.foldlRecOn _ _ (motive := fun t : State => t.rim = s.rim ∧ t.cores = s.cores ∧ t.mesh = s.mesh) ⟨rfl, rfl, rfl⟩ fun _ h _ _ => h
  simp only [State.dropTraffic]
  split
  · obtain ⟨rim, cores, mesh⟩ := ports (s.ports.map (·.1)) (fun q => q.dropBound (s.fld fFabIdDeviceId) r)
    exact ⟨rim, cores, congrArg _ mesh⟩
  · exact ⟨rfl, rfl, rfl⟩

/-- A region that is forced (R273). -/
theorem State.forceRegion_spec (s : State) (r : Nat) : let t := s.forceRegion r
    t.rgn r fRgnStatusState = 4 ∧ t.rgn r fRgnStatusForced = 1 ∧
    t.rgn r fRgnStatusGeneration = (s.rgn r fRgnStatusGeneration + 1) % 2 ^ fRgnStatusGeneration.width ∧
    (∀ i ∈ s.rectCores r, (t.core i).ctl.stopped = true ∧ (t.core i).ctl.running = false) ∧ ∀ p ∈ t.mesh, p.region ≠ r := by
  have rect : (s.advance r).rectCores r = s.rectCores r := State.rectCores_congr fun f hf => s.rgn_advance_apart r r (by revert f; decide)
  have forced := (State.foldl_mapCore (f := fun _ _ => Core.force) (I := fun _ => True) (P := fun _ c => c.ctl.stopped = true ∧ c.ctl.running = false)
    (s := s.advance r) trivial (fun _ _ _ => trivial) (fun _ _ _ => ⟨rfl, rfl⟩) ((s.advance r).rectCores r)).2
  let u := ((s.advance r).mapCores r Core.force).mapClusters r (fun k => { k with waiters := [], waitQ := [], releases := [] })
  obtain ⟨rim, cores, mesh⟩ := u.dropTraffic_frame r
  have advanced : u.rim = (s.advance r).rim := ((State.mapCores_onlyUnits ..).trans (State.mapClusters_onlyUnits ..)).rim
  refine ⟨State.rgn_enter .., ?_, ?_, fun i hi => ?_, fun p hp => ?_⟩
  · exact (State.rgn_enter_apart _ _ _ _ (by decide)).trans (State.rgn_setRgn_same _ _ _ (by decide))
  · refine (State.rgn_enter_apart _ _ _ _ (by decide)).trans ((State.rgn_setRgn_apart _ _ _ _ (by decide)).trans ?_)
    rw [State.rgn_of_rim (rim.trans advanced), State.rgn_advance_same]
  · have same : ((s.forceRegion r).core i) = ((s.advance r).mapCores r Core.force).core i :=
      State.core_of_cores (cores.trans (State.mapClusters_cores ..)) i
    rw [same]
    exact forced i (rect ▸ hi)
  · have left : p ∈ u.mesh.filter (fun p => p.region != r) := mesh ▸ hp
    simpa using (List.mem_filter.mp left).2

/-- A region whose wipes are done (R263). -/
theorem State.wiped_spec (s : State) (r : Nat) :
    let t := ((s.mirrorClusters r).foldl (fun s n => (clusterCores n).foldl (fun s i => s.mapCore i Core.wiped) s) (s.mapCores r Core.wiped)).enter r 1
    t.rgn r fRgnStatusState = 1 ∧ ∀ i ∈ s.rectCores r, (t.core i).well.wiping = false ∧ (t.core i).rsv.wiping = false := by
  refine ⟨State.rgn_enter .., fun i hi => ?_⟩
  have own := (State.foldl_mapCore (f := fun _ _ => Core.wiped) (I := fun _ => True) (P := fun _ c => c.well.wiping = false ∧ c.rsv.wiping = false)
    (s := s) trivial (fun _ _ _ => trivial) (fun _ _ _ => ⟨rfl, rfl⟩) (s.rectCores r)).2 i hi
  exact List.foldlRecOn _ _ (motive := fun t : State => (t.core i).well.wiping = false ∧ (t.core i).rsv.wiping = false) own fun _ h _ _ =>
    List.foldlRecOn _ _ (motive := fun t : State => (t.core i).well.wiping = false ∧ (t.core i).rsv.wiping = false) h fun _ h j _ =>
      State.keeps_mapCore (P := fun c => c.well.wiping = false ∧ c.rsv.wiping = false) (fun _ _ => ⟨rfl, rfl⟩) j h

/-! ## A force that overruns (R264, R394) -/

/-- `t` has the record of region `r` and the marks of failed clusters of `s`. -/
structure State.Spares (r : Nat) (s t : State) : Prop where
  record : t.rgnSt r = s.rgnSt r
  failed : ∀ n, t.fld (fldAt fClkClStatusFailed (0x100 * n)) = s.fld (fldAt fClkClStatusFailed (0x100 * n))

section
variable {r q : Nat}

theorem State.Spares.trans {s t u : State} (h : State.Spares r s t) (h' : State.Spares r t u) : State.Spares r s u :=
  ⟨h'.record.trans h.record, fun n => (h'.failed n).trans (h.failed n)⟩

theorem State.Spares.foldl {α : Type} {g : State → α → State} (h : ∀ t a, State.Spares r t (g t a)) (l : List α) (s : State) :
    State.Spares r s (l.foldl g s) :=
  List.foldlRecOn _ _ (motive := State.Spares r s) ⟨rfl, fun _ => rfl⟩ fun t ht a _ => ht.trans (h t a)

theorem State.spares_of_same {s t : State} (rgns : t.rgns = s.rgns) (rim : t.rim = s.rim) : State.Spares r s t :=
  ⟨by rw [State.rgnSt, rgns, State.rgnSt], fun _ => State.fld_of_rim rim _⟩

theorem State.OnlyUnits.spares {s t : State} (h : s.OnlyUnits t) : State.Spares r s t := State.spares_of_same h.rgns h.rim

theorem State.mapRgn_spares (s : State) (f : RgnSt → RgnSt) (other : r ≠ q) : State.Spares r s (s.mapRgn q f) :=
  ⟨Tbl.look_put_ne _ other _ _ _, fun _ => rfl⟩

/-- No register of a region lies where a cluster is marked failed. -/
theorem State.setRgn_spares (s : State) (v : Nat) {f : Fld} (aligned : f.off % 0x40 ≠ 8) : State.Spares r s (s.setRgn q f v) :=
  ⟨rfl, fun n => State.fld_setFld_other s _ _ v (by simp only [fldAt, fClkClStatusFailed]; omega)⟩

theorem State.enter_spares (s : State) (st : Nat) (other : r ≠ q) : State.Spares r s (s.enter q st) :=
  (s.setRgn_spares (q := q) (f := fRgnStatusState) st (by decide)).trans (State.mapRgn_spares _ _ other)

theorem State.closeGeneration_spares (s : State) (adv : Bool) (other : r ≠ q) : State.Spares r s (s.closeGeneration q adv) := by
  rw [State.closeGeneration]
  split
  · rw [State.advance]
    exact ((s.dissolve_onlyUnits q).spares.trans (State.setRgn_spares _ _ (by decide))).trans (State.mapRgn_spares _ _ other)
  · exact (s.dissolve_onlyUnits q).spares

theorem State.enterWiping_spares (s : State) (adv : Bool) (other : r ≠ q) : State.Spares r s (s.enterWiping q adv) := by
  rw [State.enterWiping_eq]
  have wiped := (s.closeGeneration_spares adv other).trans (State.wipeUnits_onlyUnits _ q Core.wipe).spares
  have forgot (t : State) : State.Spares r t (t.forgetImage q) := State.spares_of_same rfl rfl
  exact (((wiped.trans (forgot _)).trans (State.enter_spares _ 5 other)).trans (State.setRgn_spares _ 0 (by decide))).trans (State.mapRgn_spares _ _ other)

/-- A client's counter lies on no cluster's mark, whatever the client's number. -/
theorem State.dropIngress_spares (s : State) (port k : Nat) : State.Spares r s (s.dropIngress port k) := by
  have counted : State.Spares r s (s.bumpCli k fCliIngDropCount 1) :=
    ⟨rfl, fun n => State.fld_setFld_other s _ _ _ (by simp only [fldAt, fClkClStatusFailed, fCliIngDropCount]; omega)⟩
  exact counted.trans (s.dropIngress_onlyUnits port k).spares

theorem State.endIngress_spares (s : State) : State.Spares r s (s.endIngress q) := by
  have drop (p : Nat) (t : State) (f : IngFrame) : State.Spares r t (t.dropIngress p f.client) := t.dropIngress_spares p f.client
  have waiting (t : State) (p : Nat) : State.Spares r t (t.dropWaiting q p) := by
    simp only [State.dropWaiting]
    refine .trans ?_ (.foldl (drop p) _ _)
    exact State.spares_of_same rfl rfl
  have passed (t : State) : State.Spares r t (t.dropPassed q) := by
    simp only [State.dropPassed]
    refine .trans ?_ (.foldl (drop 16) _ _)
    exact State.spares_of_same rfl rfl
  exact (State.Spares.foldl waiting _ s).trans (passed _)

theorem State.stopRequest_onlyUnits (s : State) : s.OnlyUnits (s.stopRequest q) := by
  rw [State.stopRequest, State.eventTo]
  exact s.hubSend_onlyUnits _

end

/-- Region `r` is held up in forcing by cluster `c`, which is marked failed. -/
structure State.HeldUp (r c : Nat) (t : State) : Prop where
  forcing : t.rgn r fRgnStatusState = 4
  overrun : (t.rgnSt r).overrun = true
  failed : t.fld (fldAt fClkClStatusFailed (0x100 * c)) = 1

theorem State.HeldUp.spared {r c : Nat} {s t : State} (h : s.HeldUp r c) (forcing : t.rgn r fRgnStatusState = 4) (spares : State.Spares r s t) : t.HeldUp r c :=
  ⟨forcing, spares.record ▸ h.overrun, (spares.failed c).trans h.failed⟩

/-- A reset of any region, as one of the same job, leaves a region in forcing as it is (R261, R264). -/
theorem State.HeldUp.resetRegion {r c : Nat} {s : State} (h : s.HeldUp r c) (q : Nat) : (s.resetRegion q).HeldUp r c := by
  have forcing : (s.resetRegion q).rgn r fRgnStatusState = 4 := by
    rw [State.state_resetRegion, h.forcing]
    split <;> rfl
  refine h.spared forcing ?_
  have other (live : s.rgn q fRgnStatusState ≠ 4) : r ≠ q := by rintro rfl; exact live h.forcing
  rw [State.resetRegion]
  split <;> rename_i state
  · exact s.enterWiping_spares true (other (by rw [state]; decide))
  · exact ((s.enter_spares 3 (other (by rw [state]; decide))).trans (State.endIngress_spares _)).trans (State.stopRequest_onlyUnits _).spares
  · exact ⟨rfl, fun _ => rfl⟩

theorem State.HeldUp.resetJob {r c : Nat} {s : State} (h : s.HeldUp r c) (q : Nat) : (s.resetJob q).HeldUp r c := by
  have reset (l : List Nat) : (l.foldl State.resetRegion s).HeldUp r c := List.foldlRecOn _ _ (motive := State.HeldUp r c) h fun _ ht q _ => ht.resetRegion q
  exact (reset _).spared (reset _).forcing (State.spares_of_same rfl rfl)

/-- The log's registers are those of the island from AOI_LOG_STATUS on (R442, R443). -/
theorem State.logEvent_below (s : State) (code severity cluster : Nat) (region : Option Nat) (detail : Word) {f : Fld} (below : f.off < fAoiLogStatusLogLost.off) :
    (s.logEvent code severity cluster region detail).fld f = s.fld f := by
  have apart (t : State) {g : Fld} (v : Nat) (above : fAoiLogStatusLogLost.off ≤ g.off) : (t.setFld g v).fld f = t.fld f :=
    State.fld_setFld_other t g f v (by omega)
  rw [State.logEvent_eq]
  generalize s.logEntry code severity cluster region detail = e
  have gasp : (s.lastGasp e).fld f = s.fld f := (s.lastGasp_frame e).2.2 f (below.trans (by decide))
  have appended (l : List LogEntry) : ((s.lastGasp e).appendLog l).fld f = s.fld f :=
    (apart _ _ (by decide)).trans ((apart _ _ (by decide)).trans gasp)
  simp only
  split
  · exact (apart _ _ (by decide)).trans gasp
  · split
    · exact (apart _ 1 (g := fAoiLogStatusLogLost) (by decide)).trans (appended _)
    · exact appended _

theorem State.logEvent_rgns (s : State) (code severity cluster : Nat) (region : Option Nat) (detail : Word) :
    (s.logEvent code severity cluster region detail).rgns = s.rgns := by
  have gasp (e : LogEntry) : (s.lastGasp e).rgns = s.rgns := by
    rw [State.lastGasp]
    split
    · exact List.foldlRecOn _ _ (motive := fun t : State => t.rgns = s.rgns) rfl fun _ h _ _ => h
    · rfl
  rw [State.logEvent_eq]
  simp only
  split
  · exact gasp _
  · split <;> exact gasp _

theorem State.needMapping_onlyUnits (s : State) (n : Nat) : s.OnlyUnits (s.needMapping n) := .foldl (fun t _ => t.note_onlyUnits _) _ s

/-- The cluster that fails leaves a region that it holds up in forcing (R394, R422). -/
theorem State.failCluster_heldUp {s : State} {r c : Nat} (cluster : c < 144) (region : r < 64) (forcing : s.rgn r fRgnStatusState = 4)
    (overrun : (s.rgnSt r).overrun = true) : (s.failCluster c).HeldUp r c := by
  simp only [State.failCluster]
  split
  next failed => exact ⟨forcing, overrun, failed⟩
  · refine List.foldlRecOn _ _ (motive := State.HeldUp r c) ?_ fun _ ht q _ => ht.resetJob q
    have marked : (s.setFld (fldAt fClkClStatusFailed (0x100 * c)) 1).HeldUp r c := by
      refine ⟨?_, overrun, State.fld_setFld_same _ _ _ (by decide : (3 : Nat) + 1 ≤ 64)⟩
      exact (State.fld_setFld_other s _ _ _ (by simp only [fldAt, fClkClStatusFailed, fRgnStatusState]; omega)).trans forcing
    have logged (t : State) (x : Option Nat) (e : Word) (h : t.HeldUp r c) : (t.logEvent 0x0A 2 c x e).HeldUp r c := by
      refine ⟨?_, ?_, ?_⟩
      · exact (t.logEvent_below _ _ _ _ _ (by simp only [fldAt, fRgnStatusState, fAoiLogStatusLogLost]; omega)).trans h.forcing
      · rw [State.rgnSt, State.logEvent_rgns]
        exact h.overrun
      · exact (t.logEvent_below _ _ _ _ _ (by simp only [fldAt, fClkClStatusFailed, fAoiLogStatusLogLost]; omega)).trans h.failed
    have units {t u : State} (h : t.HeldUp r c) (only : t.OnlyUnits u) : u.HeldUp r c :=
      h.spared ((State.rgn_of_rim only.rim r _).trans h.forcing) only.spares
    exact units (units (units (logged _ _ _ marked) (State.note_onlyUnits ..)) (State.note_onlyUnits ..)) (State.needMapping_onlyUnits ..)

/-! ## The rows -/

/-- Settles O35: each way on for the region, by the state that it enters. -/
theorem regionStops : Obligations.RegionStops := by
  unfold Obligations.RegionStops
  intro r s up gen
  refine ⟨fun stopping idle => ?_, fun stopping late => ?_, fun forcing free => ?_, fun c forcing first late holds => ?_, fun wiping late => ?_⟩
  · refine ⟨s.enterWiping r.val true, ?_, s.state_enterWiping_same r.val true, s.generation_enterWiping r.val⟩
    show execRegionIdle r s = _
    simp [execRegionIdle, up, stopping, idle]
  · refine ⟨s.forceRegion r.val, ?_, s.forceRegion_spec r.val⟩
    show execIdleTimeout r s = _
    simp [execIdleTimeout, up, stopping, late]
  · refine ⟨s.enterWiping r.val false, ?_, s.state_enterWiping_same r.val false, s.generation_enterWiping_kept r.val⟩
    show execForceComplete r s = _
    simp [execForceComplete, up, forcing, free]
  · have held := State.failCluster_heldUp (s := s.mapRgn r.val (fun y => { y with overrun := true })) c.isLt r.isLt forcing
      (congrArg RgnSt.overrun (s.rgnSt_mapRgn r.val _))
    refine ⟨_, ?_, held.overrun, held.failed, held.forcing⟩
    show execForceOverrun r c s = _
    simp [execForceOverrun, up, forcing, first, late, holds]
  · refine ⟨_, ?_, s.wiped_spec r.val⟩
    show execWipingDone r s = _
    simp [execWipingDone, up, wiping, late]

end Sys2Proof.Machine

/-! SUPPORT. Energy: a counter with what is kept beside it, what the energy of cores leaves of the block, and the readings of the rim's rails. -/

namespace Sys2Proof.Machine

/-! ## Energy added to a counter (R279) -/

/-- The femtojoules of a counter of microjoules, with what is kept of one more. -/
def State.energy (s : State) (f : Fld) : Nat := s.fld f * 10 ^ 9 + s.power.rest.look f.off 0

theorem State.addEnergy_reg (s : State) (f : Fld) (fj : Nat) {a : Nat} (other : a ≠ f.off) : (s.addEnergy f fj).reg a = s.reg a :=
  State.reg_setReg_ne s _ other

/-- No energy is lost where the counter does not wrap. -/
theorem State.energy_addEnergy_same (s : State) {f : Fld} (whole : f.lo = 0 ∧ f.width = 64) {fj : Nat} (fits : s.energy f + fj < 2 ^ 64 * 10 ^ 9) :
    (s.addEnergy f fj).energy f = s.energy f + fj := by
  obtain ⟨lo, width⟩ := whole
  have count : (s.addEnergy f fj).fld f = (s.fld f + (s.power.rest.look f.off 0 + fj) / 10 ^ 9) % 2 ^ 64 :=
    (State.fld_setFld_same s f _ (by omega)).trans (by rw [width])
  have rest : (s.addEnergy f fj).power.rest.look f.off 0 = (s.power.rest.look f.off 0 + fj) % 10 ^ 9 := Tbl.look_put_same ..
  rw [State.energy] at fits ⊢
  rw [State.energy, count, rest, Nat.mod_eq_of_lt (by omega)]
  omega

theorem State.energy_addEnergy_ne (s : State) {f g : Fld} (fj : Nat) (other : g.off ≠ f.off) : (s.addEnergy f fj).energy g = s.energy g := by
  have count : (s.addEnergy f fj).fld g = s.fld g := State.fld_setFld_other s f g _ other
  have rest : (s.addEnergy f fj).power.rest.look g.off 0 = s.power.rest.look g.off 0 := Tbl.look_put_ne _ other _ _ _
  rw [State.energy, count, rest, State.energy]

/-! ## The energy of cores (R279, R383) -/

/-- Whether an address is that of an energy counter: the device's, the free one, a region's or a client's. -/
def energyReg (a : Nat) : Prop :=
  a = fPwrEnergyDevCount.off ∨ a = fPwrEnergyFreeCount.off ∨ (0x2c1000 ≤ a ∧ a < 0x2c2000 ∧ a % 0x40 = 0x30) ∨ (a < 0x2a0000)

/-- `t` has the cores, the clusters' power and every register but energy counters and client entries of `s`. -/
structure State.SameButEnergy (s t : State) : Prop where
  cores : t.cores = s.cores
  cl : t.power.cl = s.power.cl
  reg : ∀ a, ¬energyReg a → t.reg a = s.reg a

theorem State.SameButEnergy.refl (s : State) : State.SameButEnergy s s := ⟨rfl, rfl, fun _ _ => rfl⟩

theorem State.SameButEnergy.trans {s t u : State} (h : State.SameButEnergy s t) (h' : State.SameButEnergy t u) : State.SameButEnergy s u :=
  ⟨h'.cores.trans h.cores, h'.cl.trans h.cl, fun a other => (h'.reg a other).trans (h.reg a other)⟩

theorem State.addEnergy_sameButEnergy (s : State) {f : Fld} (counter : energyReg f.off) (fj : Nat) : State.SameButEnergy s (s.addEnergy f fj) :=
  ⟨rfl, rfl, fun _ other => s.addEnergy_reg f fj (by rintro rfl; exact other counter)⟩

section
variable {s t : State} (h : State.SameButEnergy s t)
include h

theorem State.SameButEnergy.fld {f : Fld} (other : ¬energyReg f.off) : t.fld f = s.fld f := by rw [State.fld, h.reg _ other, State.fld]

/-- What a region's own registers hold but its energy. -/
theorem State.SameButEnergy.rgn (r : Nat) {f : Fld} (region : 0x2c1000 ≤ f.off) (other : f.off % 0x40 ≠ 0x30) : t.rgn r f = s.rgn r f :=
  h.fld (by simp only [energyReg, fldAt, fPwrEnergyDevCount, fPwrEnergyFreeCount]; omega)

theorem State.SameButEnergy.pw (n : Nat) : t.pw n fPwrClCalFactor = s.pw n fPwrClCalFactor :=
  h.fld (by simp only [energyReg, fldAt, fPwrEnergyDevCount, fPwrEnergyFreeCount, fPwrClCalFactor]; omega)

theorem State.SameButEnergy.row (cx y : Nat) {f : Fld} (row : f.off = 0x2c5000) : t.fld (fldAt f (rowOffset cx y)) = s.fld (fldAt f (rowOffset cx y)) :=
  h.fld (by simp only [energyReg, fldAt, row, fPwrEnergyDevCount, fPwrEnergyFreeCount]; omega)

theorem State.SameButEnergy.physical (x y : Nat) : t.physical x y = s.physical x y := by
  simp only [State.physical, h.row (f := fRstRowmapFailQx) _ _ rfl]

theorem State.SameButEnergy.spareOf (cx py : Nat) : t.spareOf cx py = s.spareOf cx py := by
  simp only [State.spareOf, h.row (f := fRstRowmapFailQx) _ _ rfl, h.row (f := fRstRowmapShort) _ _ rfl]

theorem State.SameButEnergy.checkGroups (r : Nat) : t.checkGroups r = s.checkGroups r := by
  have rect : t.rectClusters r = s.rectClusters r := State.rectClusters_congr fun f hf => h.rgn r (by revert f; decide) (by revert f; decide)
  simp only [State.checkGroups, State.share, h.rgn r (f := fRgnStatusGeneration) (by decide) (by decide), h.rgn r (f := fRgnCheckShare) (by decide) (by decide),
    h.rgn r (f := fRgnCheckMx0) (by decide) (by decide), h.rgn r (f := fRgnCheckMy0) (by decide) (by decide),
    h.rgn r (f := fRgnCfgCx0) (by decide) (by decide), h.rgn r (f := fRgnCfgCy0) (by decide) (by decide), rect, h.physical, h.spareOf]

theorem State.SameButEnergy.regionsOn : t.regionsOn = s.regionsOn := by
  simp only [State.regionsOn, fun r => h.rgn r (f := fRgnCfgEnable) (by decide) (by decide)]

/-- Every core stands as it stood. -/
theorem State.SameButEnergy.view (i : Nat) : t.view i = s.view i := by
  simp only [State.view, State.core_of_cores h.cores, State.primaryOf, h.regionsOn, h.checkGroups]

end

theorem State.ownerOf_lt {s : State} {n r : Nat} (owner : s.ownerOf n = some r) : r < 64 := by
  rw [State.ownerOf] at owner
  split at owner
  next q region =>
    rw [← Option.some.inj owner]
    exact List.mem_range.mp (List.mem_of_find?_eq_some region)
  · exact (State.mem_regionsOn.mp (List.mem_of_find?_eq_some owner)).1

/-- `t` is `s` with `fj` femtojoules more in the device's counter, and nothing but energy counters changed. -/
structure State.Adds (fj : Nat) (s t : State) : Prop extends State.SameButEnergy s t where
  dev : t.energy fPwrEnergyDevCount = s.energy fPwrEnergyDevCount + fj

theorem State.Adds.trans {a b : Nat} {s t u : State} (h : State.Adds a s t) (h' : State.Adds b t u) : State.Adds (a + b) s u :=
  ⟨h.toSameButEnergy.trans h'.toSameButEnergy, by rw [h'.dev, h.dev, Nat.add_assoc]⟩

theorem State.addEnergy_dev (s : State) {fj : Nat} (fits : s.energy fPwrEnergyDevCount + fj < 2 ^ 64 * 10 ^ 9) :
    State.Adds fj s (s.addEnergy fPwrEnergyDevCount fj) :=
  ⟨s.addEnergy_sameButEnergy (.inl rfl) fj, s.energy_addEnergy_same ⟨rfl, rfl⟩ fits⟩

theorem State.addEnergy_other (s : State) {f : Fld} (counter : energyReg f.off) (other : f.off ≠ fPwrEnergyDevCount.off) (fj : Nat) :
    State.Adds 0 s (s.addEnergy f fj) :=
  ⟨s.addEnergy_sameButEnergy counter fj, (s.energy_addEnergy_ne fj (Ne.symm other)).trans (Nat.add_zero _).symm⟩

/-- What a core has used goes once to the device's counter, whichever others take it besides. -/
theorem State.addCore_adds {s : State} {n i raw : Nat} (client : (s.view i).ctl.cliSel < 1024)
    (fits : s.energy fPwrEnergyDevCount + raw * s.pw n fPwrClCalFactor / 2 ^ 14 < 2 ^ 64 * 10 ^ 9) :
    State.Adds (raw * s.pw n fPwrClCalFactor / 2 ^ 14) s (s.addCore n i raw) := by
  have own := s.addEnergy_dev fits
  simp only [State.addCore]
  generalize raw * s.pw n fPwrClCalFactor / 2 ^ 14 = fj at own ⊢
  split
  · exact own.trans (State.addEnergy_other _ (.inr (.inl rfl)) (by decide) fj)
  next r owner =>
    have region : r < 64 := State.ownerOf_lt owner
    have shared := own.trans (State.addEnergy_other _ (f := fldAt fRgnEnergyCount (0x40 * r)) (by simp only [energyReg, fldAt, fRgnEnergyCount]; omega)
      (by simp only [fldAt, fRgnEnergyCount, fPwrEnergyDevCount]; omega) fj)
    have spent (t : State) (x : Tbl Nat) : State.Adds 0 t { t with power := { t.power with rgnSpent := x } } := ⟨⟨rfl, rfl, fun _ _ => rfl⟩, (Nat.add_zero _).symm⟩
    have inner := own.toSameButEnergy.view i
    split
    · refine (shared.trans (spent _ _)).trans (State.addEnergy_other _ ?_ ?_ fj)
      · rw [inner]
        simp only [energyReg, fldAt, fCliEnergyCount]
        omega
      · rw [inner]
        simp only [fldAt, fCliEnergyCount, fPwrEnergyDevCount]
        omega
    · exact shared.trans (spent _ _)

theorem State.foldl_addCore_adds {n : Nat} (l : List (Nat × Nat)) {s : State} (clients : ∀ x ∈ l, (s.view x.1).ctl.cliSel < 1024)
    (fits : s.energy fPwrEnergyDevCount + (l.map (fun x => x.2 * s.pw n fPwrClCalFactor / 2 ^ 14)).sum < 2 ^ 64 * 10 ^ 9) :
    State.Adds (l.map (fun x => x.2 * s.pw n fPwrClCalFactor / 2 ^ 14)).sum s (l.foldl (fun s x => s.addCore n x.1 x.2) s) := by
  induction l generalizing s with
  | nil => exact ⟨.refl s, (Nat.add_zero _).symm⟩
  | cons x l ih =>
    rw [List.map_cons, List.sum_cons] at fits ⊢
    have first := State.addCore_adds (clients x (.head _)) (by omega : s.energy fPwrEnergyDevCount + x.2 * s.pw n fPwrClCalFactor / 2 ^ 14 < _)
    have factor : (s.addCore n x.1 x.2).pw n fPwrClCalFactor = s.pw n fPwrClCalFactor := first.toSameButEnergy.pw n
    have rest := ih (s := s.addCore n x.1 x.2) (fun y hy => by rw [first.toSameButEnergy.view]; exact clients y (.tail _ hy))
      (by rw [factor, first.dev]; omega)
    rw [factor] at rest
    exact first.trans rest

theorem State.clPower_mapPower (s : State) (n : Nat) (f : ClPower → ClPower) : (s.mapPower n f).clPower n = f (s.clPower n) := Tbl.look_put_same ..

/-- Each core's counts with the core, in physical order. -/
theorem zip_rawEnergy (s : State) (n : Nat) (counts : List (List Nat)) : let l := (clusterCores n).zip (counts.map (s.rawEnergy n))
    l.map (·.2) = ((clusterCores n).zip counts).map (fun x => s.rawEnergy n x.2) ∧ ∀ x ∈ l, x.1 ∈ clusterCores n := by
  refine ⟨?_, fun x hx => (List.of_mem_zip hx).1⟩
  rw [List.zip_map_right, List.map_map]
  rfl

/-- The cluster's own account of a microsecond's energy, of which `raw` is the estimate before correction. -/
def State.account (s : State) (n raw : Nat) : State :=
  s.mapPower n (fun k => { k with spent := k.spent + raw, lastFj := raw * s.pw n fPwrClCalFactor / 2 ^ 14, both := 0 })

/-- An estimate: the cores' energy added one after another, the cluster's account, and at a region's origin the clocks that pacing withheld. -/
theorem exec_energyEstimate {c : ClusterId} {s : State} (runs : s.alive c.val = true) (counts : List (List Nat)) :
    let l := (clusterCores c.val).zip (counts.map (s.rawEnergy c.val))
    let u := (l.foldl (fun s x => s.addCore c.val x.1 x.2) s).account c.val (l.foldl (fun t x => t + x.2) 0)
    exec (.energyEstimate c counts) s = .next u ∨ ∃ r paced, exec (.energyEstimate c counts) s = .next (u.bump (fldAt fRgnPacedCount (0x40 * r)) paced) := by
  intro l u
  have row : exec (.energyEstimate c counts) s = execEnergyEstimate c counts s := rfl
  simp only [execEnergyEstimate, runs, Bool.not_true, Bool.false_eq_true, if_false] at row
  split at row
  · exact .inl row
  · split at row
    · exact .inr ⟨_, _, row⟩
    · exact .inl row

theorem State.bump_paced (s : State) (r n : Nat) : let t := s.bump (fldAt fRgnPacedCount (0x40 * r)) n
    t.energy fPwrEnergyDevCount = s.energy fPwrEnergyDevCount ∧ t.power = s.power ∧ t.cores = s.cores := by
  have count : (s.bump (fldAt fRgnPacedCount (0x40 * r)) n).fld fPwrEnergyDevCount = s.fld fPwrEnergyDevCount :=
    State.fld_setFld_other s _ _ _ (by simp only [fldAt, fRgnPacedCount, fPwrEnergyDevCount]; omega)
  exact ⟨congrArg (· * 10 ^ 9 + s.power.rest.look fPwrEnergyDevCount.off 0) count, rfl, rfl⟩

theorem State.account_spec (s : State) (n raw : Nat) : let t := s.account n raw
    t.energy fPwrEnergyDevCount = s.energy fPwrEnergyDevCount ∧ t.cores = s.cores ∧ (t.clPower n).spent = (s.clPower n).spent + raw ∧
    (t.clPower n).lastFj = raw * s.pw n fPwrClCalFactor / 2 ^ 14 := by
  refine ⟨rfl, rfl, ?_, ?_⟩ <;> rw [State.account, State.clPower_mapPower]

theorem exec_energyEstimate_spec {c : ClusterId} {s : State} (runs : s.alive c.val = true) (counts : List (List Nat))
    (clients : ∀ i ∈ clusterCores c.val, (s.view i).ctl.cliSel < 1024) :
    let raws := ((clusterCores c.val).zip counts).map (fun x => s.rawEnergy c.val x.2)
    let used := (raws.map (fun r => r * s.pw c.val fPwrClCalFactor / 2 ^ 14)).sum
    s.energy fPwrEnergyDevCount + used < 2 ^ 64 * 10 ^ 9 → ∃ t, exec (.energyEstimate c counts) s = .next t ∧
      t.energy fPwrEnergyDevCount = s.energy fPwrEnergyDevCount + used ∧ (t.clPower c.val).spent = (s.clPower c.val).spent + raws.sum ∧
      (t.clPower c.val).lastFj = raws.sum * s.pw c.val fPwrClCalFactor / 2 ^ 14 ∧ t.cores = s.cores := by
  intro raws used fits
  obtain ⟨same, cores⟩ := zip_rawEnergy s c.val counts
  have each : ((clusterCores c.val).zip (counts.map (s.rawEnergy c.val))).map (fun x => x.2 * s.pw c.val fPwrClCalFactor / 2 ^ 14) =
      raws.map (fun r => r * s.pw c.val fPwrClCalFactor / 2 ^ 14) := by
    rw [show raws = _ from same.symm, List.map_map]
    rfl
  have sum : ((clusterCores c.val).zip (counts.map (s.rawEnergy c.val))).foldl (fun t x => t + x.2) 0 = raws.sum := by
    rw [show raws = _ from same.symm, List.sum_eq_foldl, List.foldl_map]
  have added := State.foldl_addCore_adds (n := c.val) ((clusterCores c.val).zip (counts.map (s.rawEnergy c.val))) (s := s)
    (fun x hx => clients x.1 (cores x hx)) (by rwa [each])
  have rows := exec_energyEstimate runs counts
  simp only [each, sum] at added rows
  generalize ((clusterCores c.val).zip (counts.map (s.rawEnergy c.val))).foldl (fun s x => s.addCore c.val x.1 x.2) s = t at added rows
  obtain ⟨energy, accounted, spent, last⟩ := t.account_spec c.val raws.sum
  have own : t.clPower c.val = s.clPower c.val := by rw [State.clPower, added.cl, State.clPower]
  rw [own] at spent
  rw [added.toSameButEnergy.pw] at last
  rcases rows with row | ⟨r, paced, row⟩
  · exact ⟨_, row, energy.trans added.dev, spent, last, accounted.trans added.cores⟩
  · obtain ⟨kept, power, untouched⟩ := (t.account c.val raws.sum).bump_paced r paced
    have cl : ((t.account c.val raws.sum).bump (fldAt fRgnPacedCount (0x40 * r)) paced).clPower c.val = (t.account c.val raws.sum).clPower c.val := by
      rw [State.clPower, power, State.clPower]
    exact ⟨_, row, kept.trans (energy.trans added.dev), cl ▸ spent, cl ▸ last, untouched.trans (accounted.trans added.cores)⟩

theorem exec_energyReconcile_spec {c : ClusterId} {s : State} (runs : s.alive c.val = true) : ∃ t, exec (.energyReconcile c) s = .next t ∧
    (t.clPower c.val).spent = 0 ∧ (t.clPower c.val).readFj = 0 ∧ t.pw c.val fPwrClCalFactor = (if (s.clPower c.val).spent = 0 then s.pw c.val fPwrClCalFactor
      else max 0x3000 (min 0x5000 ((s.clPower c.val).readFj * 2 ^ 14 / (s.clPower c.val).spent))) ∧ t.cores = s.cores := by
  have row : exec (.energyReconcile c) s = execEnergyReconcile c s := rfl
  simp only [execEnergyReconcile, runs, Bool.not_true, Bool.false_eq_true, if_false] at row
  refine ⟨_, row, by rw [State.clPower_mapPower], by rw [State.clPower_mapPower], ?_, ?_⟩
  · split
    · rfl
    · refine (State.fld_setFld_same s (fldAt fPwrClCalFactor (0x100 * c.val)) _ (by decide : (0 : Nat) + 16 ≤ 64)).trans (Nat.mod_eq_of_lt ?_)
      simp only [fldAt, fPwrClCalFactor]
      omega
  · split <;> rfl

/-! ## The energy of the rim (R369, R383) -/

/-- The four rails read in turn, each on its own. -/
def Power.readRims (p : Power) (mv amps : Nat → Option Nat) : Power := (List.range 4).foldl (fun p j => p.readRim j (mv j) (amps j)) p

theorem Power.readRims_eq (p : Power) (mv amps : Nat → Option Nat) : p.readRims mv amps =
    (((p.readRim 0 (mv 0) (amps 0)).readRim 1 (mv 1) (amps 1)).readRim 2 (mv 2) (amps 2)).readRim 3 (mv 3) (amps 3) := rfl

theorem Power.rail_readRims (p : Power) (mv amps : Nat → Option Nat) (j : Fin 4) :
    (p.readRims mv amps).rail j.val = (mv j.val).getD (p.rimMv.look j.val 0) * (amps j.val).getD (p.rimA.look j.val 0) := by
  rw [Power.readRims_eq]
  fin_cases j <;> simp [Power.rail, Power.readRim, Tbl.look_put_same, Tbl.look_put_ne]

theorem Power.rest_readRim (p : Power) (j : Nat) (mv amps : Option Nat) : (p.readRim j mv amps).rest = p.rest := rfl

theorem Power.rest_readRims (p : Power) (mv amps : Nat → Option Nat) : (p.readRims mv amps).rest = p.rest := by
  simp only [Power.readRims_eq, Power.rest_readRim]

/-- The block with the rails' readings. -/
def State.withPower (s : State) (p : Power) : State := { s with power := p }

theorem State.power_withPower (s : State) (p : Power) : (s.withPower p).power = p := rfl

theorem State.rim_withPower (s : State) (p : Power) : (s.withPower p).rim = s.rim := rfl

theorem State.energy_withPower (s : State) {p : Power} (rest : p.rest = s.power.rest) (f : Fld) : (s.withPower p).energy f = s.energy f := by
  rw [State.energy, State.fld_of_rim (s.rim_withPower p), State.power_withPower, rest, State.energy]

theorem State.rimFrame_withPower (s : State) (p : Power) : (s.withPower p).rimFrame = (p.rail 0 + p.rail 1) * 10 ^ 8 := rfl

theorem State.dramFrame_withPower (s : State) (p : Power) : (s.withPower p).dramFrame = (p.rail 2 + p.rail 3) * 10 ^ 8 := rfl

theorem exec_avsFrame_rim {bus : Fin 13} {s u : State} (up : s.dev = .up) (rim : bus.val = 12) (amps volts : List (Option Nat)) (answered : List Bool)
    (read : s.withPower (s.power.readRims (fun j => volts.getD j none) (fun j => amps.getD j none)) = u) :
    exec (.avsFrame bus amps volts answered) s =
      .next (((u.addEnergy fPwrEnergyRimCount u.rimFrame).addEnergy fPwrEnergyDevCount (u.rimFrame + u.dramFrame)).setFld fPwrEstReadW u.readWatts) := by
  show execAvsFrame bus amps volts answered s = _
  rw [execAvsFrame, if_neg (by simp [up]), if_neg (by omega)]
  subst read
  rfl

theorem State.setFld_energy (s : State) {f g : Fld} (v : Nat) (other : g.off ≠ f.off) : (s.setFld f v).energy g = s.energy g := by
  rw [State.energy, State.fld_setFld_other _ _ _ _ other, State.energy, (s.setFld_frame f v).2.2.2.2.2.2.2.2.2.2.2.2.2.2.2.2.1]

theorem State.rimEnergy_spec (s : State) (watts : Nat) (fitsRim : s.energy fPwrEnergyRimCount + s.rimFrame < 2 ^ 64 * 10 ^ 9)
    (fitsDev : s.energy fPwrEnergyDevCount + s.rimFrame + s.dramFrame < 2 ^ 64 * 10 ^ 9) :
    let t := ((s.addEnergy fPwrEnergyRimCount s.rimFrame).addEnergy fPwrEnergyDevCount (s.rimFrame + s.dramFrame)).setFld fPwrEstReadW watts
    t.energy fPwrEnergyRimCount = s.energy fPwrEnergyRimCount + s.rimFrame ∧
    t.energy fPwrEnergyDevCount = s.energy fPwrEnergyDevCount + s.rimFrame + s.dramFrame := by
  have before : (s.addEnergy fPwrEnergyRimCount s.rimFrame).energy fPwrEnergyDevCount = s.energy fPwrEnergyDevCount :=
    s.energy_addEnergy_ne _ (by decide)
  refine ⟨?_, ?_⟩
  · rw [State.setFld_energy _ _ (by decide), State.energy_addEnergy_ne _ _ (by decide), State.energy_addEnergy_same _ ⟨rfl, rfl⟩ fitsRim]
  · rw [State.setFld_energy _ _ (by decide), State.energy_addEnergy_same _ ⟨rfl, rfl⟩ (by rw [before]; omega), before, Nat.add_assoc]

/-- Settles O44: an estimate by the energy of its cores, a reconciliation by its ratio, and a frame of the rim's rails by their readings. -/
theorem energyAccounts : Obligations.EnergyAccounts := by
  unfold Obligations.EnergyAccounts
  refine ⟨?_, ?_⟩
  · intro c s n runs
    exact ⟨fun counts => exec_energyEstimate_spec runs counts, exec_energyReconcile_spec runs⟩
  · intro bus amps volts answered s rail fj dram up twelfth fitsRim fitsDev
    obtain ⟨p, read⟩ : ∃ p, s.power.readRims (fun j => volts.getD j none) (fun j => amps.getD j none) = p := ⟨_, rfl⟩
    have rails (j : Fin 4) : p.rail j.val = rail j.val := read ▸ s.power.rail_readRims _ _ j
    have rest : p.rest = s.power.rest := read ▸ s.power.rest_readRims _ _
    have rimFrame : (s.withPower p).rimFrame = fj := by
      rw [State.rimFrame_withPower, show p.rail 0 = rail 0 from rails 0, show p.rail 1 = rail 1 from rails 1]
    have dramFrame : (s.withPower p).dramFrame = dram := by
      rw [State.dramFrame_withPower, show p.rail 2 = rail 2 from rails 2, show p.rail 3 = rail 3 from rails 3]
    have energy := s.energy_withPower rest
    have row := exec_avsFrame_rim up twelfth amps volts answered (congrArg s.withPower read)
    have counted := (s.withPower p).rimEnergy_spec (s.withPower p).readWatts (by rw [energy, rimFrame]; exact fitsRim)
      (by rw [energy, rimFrame, dramFrame]; exact fitsDev)
    simp only [energy] at counted
    rw [rimFrame, dramFrame] at row counted
    exact ⟨_, row, counted⟩

end Sys2Proof.Machine

/-! SUPPORT. Ports: what a field of a port's registers reads as once another is set, what a change at one port leaves of the rest of the block, what the loss of a partner,
the start of training and the end of a block reset do, and what a link's sending leaves of its port. -/

namespace Sys2Proof.Machine

/-! ## Registers of ports -/

/-- Two fields share no bit. -/
abbrev Fld.Apart (f g : Fld) : Prop := g.off ≠ f.off ∨ g.lo + g.width ≤ f.lo ∨ f.lo + f.width ≤ g.lo

theorem State.pfld_setP_same (s : State) (p v : Nat) {f : Fld} (fits : f.lo + f.width ≤ 64) : (s.setP p f v).pfld p f = v % 2 ^ f.width :=
  State.fld_setFld_same s (fldAt f (0x1000 * p)) v fits

theorem State.pfld_setP_apart (s : State) (p v : Nat) {f g : Fld} (apart : f.Apart g) : (s.setP p f v).pfld p g = s.pfld p g :=
  State.fld_setFld_apart s v (apart.imp_left fun other => by simpa only [fldAt, ne_eq, Nat.add_right_cancel_iff] using other)

theorem State.pfld_setReg_ne (s : State) (p a : Nat) (w : Word) {g : Fld} (other : g.off ≠ a) : (s.setReg (a + 0x1000 * p) w).pfld p g = s.pfld p g := by
  rw [State.pfld, State.fld, State.reg_setReg_ne s w (by simpa only [fldAt, ne_eq, Nat.add_right_cancel_iff] using other), State.pfld, State.fld]

theorem State.pfld_bumpP_same (s : State) (p n : Nat) {f : Fld} (fits : f.lo + f.width ≤ 64) : (s.bumpP p f n).pfld p f = (s.pfld p f + n) % 2 ^ f.width :=
  s.pfld_setP_same p _ fits

theorem State.pfld_bumpP_apart (s : State) (p n : Nat) {f g : Fld} (apart : f.Apart g) : (s.bumpP p f n).pfld p g = s.pfld p g :=
  s.pfld_setP_apart p _ apart

theorem State.pfld_mapPort (s : State) (p q : Nat) (f : PortSt → PortSt) (g : Fld) : (s.mapPort p f).pfld q g = s.pfld q g := rfl

theorem State.port_setP (s : State) (p q v : Nat) (f : Fld) : (s.setP p f v).port q = s.port q := rfl

theorem State.port_bumpP (s : State) (p q n : Nat) (f : Fld) : (s.bumpP p f n).port q = s.port q := rfl

theorem State.port_setReg (s : State) (q a : Nat) (w : Word) : (s.setReg a w).port q = s.port q := rfl

theorem State.port_mapPort_ne (s : State) {p q : Nat} (other : q ≠ p) (f : PortSt → PortSt) : (s.mapPort p f).port q = s.port q := Tbl.look_put_ne _ other _ _ _

theorem State.setActive_port (s : State) (p : Nat) (gs : List Nat) : (s.setActive p gs).port p = { s.port p with active := gs } := by
  rw [State.setActive, State.port_setP, State.port_mapPort_same]

theorem State.pfld_setActive (s : State) (p : Nat) (gs : List Nat) {g : Fld} (apart : fPortStatusWidth.Apart g) : (s.setActive p gs).pfld p g = s.pfld p g :=
  (s.mapPort p _).pfld_setP_apart p _ apart

section
variable (s : State) (p : Nat)

theorem State.mono_setP (f : Fld) (v : Nat) : (s.setP p f v).mono = s.mono := rfl
theorem State.notes_setP (f : Fld) (v : Nat) : (s.setP p f v).notes = s.notes := rfl
theorem State.notes_setReg (a : Nat) (w : Word) : (s.setReg a w).notes = s.notes := rfl
theorem State.notes_mapPort (f : PortSt → PortSt) : (s.mapPort p f).notes = s.notes := rfl

theorem State.mono_setActive (gs : List Nat) : (s.setActive p gs).mono = s.mono := rfl
theorem State.notes_setActive (gs : List Nat) : (s.setActive p gs).notes = s.notes := rfl

end

/-! ## What a change at one port leaves alone -/

/-- `t` has the cores and the timers of `s`, and its other ports with every register that is not in the page of port `p`. -/
structure State.OnlyPort (p : Nat) (s t : State) : Prop where
  cores : t.cores = s.cores
  mono : t.mono = s.mono
  reg : ∀ a, a / 0x1000 ≠ 0x2d0 + p → t.reg a = s.reg a
  port : ∀ q, q ≠ p → t.port q = s.port q

section
variable {p : Nat} {s t u : State}

theorem State.OnlyPort.refl (s : State) : State.OnlyPort p s s := ⟨rfl, rfl, fun _ _ => rfl, fun _ _ => rfl⟩

theorem State.OnlyPort.trans (h : State.OnlyPort p s t) (h' : State.OnlyPort p t u) : State.OnlyPort p s u :=
  ⟨h'.cores.trans h.cores, h'.mono.trans h.mono, fun a other => (h'.reg a other).trans (h.reg a other),
    fun q other => (h'.port q other).trans (h.port q other)⟩

theorem State.setReg_onlyPort (s : State) {a : Nat} (page : a / 0x1000 = 0x2d0) (w : Word) : State.OnlyPort p s (s.setReg (a + 0x1000 * p) w) :=
  ⟨rfl, rfl, fun b other => s.reg_setReg_ne w (by omega), fun _ _ => rfl⟩

theorem State.setP_onlyPort (s : State) {f : Fld} (page : f.off / 0x1000 = 0x2d0) (v : Nat) : State.OnlyPort p s (s.setP p f v) := s.setReg_onlyPort page _

theorem State.bumpP_onlyPort (s : State) {f : Fld} (page : f.off / 0x1000 = 0x2d0) (n : Nat) : State.OnlyPort p s (s.bumpP p f n) := s.setP_onlyPort page _

theorem State.mapPort_onlyPort (s : State) (f : PortSt → PortSt) : State.OnlyPort p s (s.mapPort p f) :=
  ⟨rfl, rfl, fun _ _ => rfl, fun _ other => s.port_mapPort_ne other f⟩

/-- The other ports that run in Ethernet mode do not depend on the port itself. -/
theorem State.OnlyPort.etherPorts (h : State.OnlyPort p s t) : t.etherPorts p = s.etherPorts p := by
  refine List.filter_congr fun q _ => ?_
  by_cases own : q = p
  · simp [own]
  · have state : t.portState q = s.portState q := by
      simp only [State.portState, State.pfld, State.fld]
      rw [h.reg _ (by simp only [fldAt, fPortStatusState]; omega)]
    rw [h.port q own, state]

end

/-! ## The loss of a partner (R297) -/

/-- The fields that the loss of a partner clears. -/
def partnerFields : List Fld := [fPortStatusPeerValid, fPortCtrlAdmit, fPortStatusLoopback]

section
variable (s : State) (p : Nat)

theorem State.losePeer_rim : (s.losePeer p).rim = (((s.setP p fPortStatusPeerValid 0).setP p fPortCtrlAdmit 0).setP p fPortStatusLoopback 0).rim := by
  simp only [State.losePeer]
  split <;> rfl

/-- The loss of a partner touches registers and reports alone. -/
theorem State.losePeer_frame : (s.losePeer p).ports = s.ports ∧ (s.losePeer p).cores = s.cores ∧ (s.losePeer p).mono = s.mono := by
  simp only [State.losePeer]
  split <;> simp only [State.note_frame, State.setP, State.setFld_frame, and_self]

theorem State.losePeer_port (q : Nat) : (s.losePeer p).port q = s.port q := by
  rw [State.port, (s.losePeer_frame p).1, State.port]

theorem State.losePeer_onlyPort : State.OnlyPort p s (s.losePeer p) := by
  have cleared := ((s.setP_onlyPort (p := p) (f := fPortStatusPeerValid) (by decide) 0).trans
    (State.setP_onlyPort _ (f := fPortCtrlAdmit) (by decide) 0)).trans (State.setP_onlyPort _ (f := fPortStatusLoopback) (by decide) 0)
  refine ⟨(s.losePeer_frame p).2.1, (s.losePeer_frame p).2.2, fun a other => ?_, fun q _ => s.losePeer_port p q⟩
  rw [← cleared.reg a other, State.reg, s.losePeer_rim, State.reg]

theorem State.pfld_losePeer {g : Fld} (apart : ∀ f ∈ partnerFields, f.Apart g) : (s.losePeer p).pfld p g = s.pfld p g := by
  simp only [partnerFields, List.forall_mem_cons] at apart
  obtain ⟨valid, admission, loopback, -⟩ := apart
  rw [State.pfld, State.fld_of_rim (s.losePeer_rim p)]
  exact ((State.pfld_setP_apart _ p _ loopback).trans (State.pfld_setP_apart _ p _ admission)).trans (State.pfld_setP_apart _ p _ valid)

/-- The partner and its admission are gone, and the loss of one that was there is reported. -/
theorem State.losePeer_spec : let t := s.losePeer p
    t.pfld p fPortStatusPeerValid = 0 ∧ t.pfld p fPortCtrlAdmit = 0 ∧ (s.pfld p fPortStatusPeerValid = 1 → Note.peer p false ∈ t.notes) := by
  refine ⟨?_, ?_, fun was => ?_⟩
  · rw [State.pfld, State.fld_of_rim (s.losePeer_rim p)]
    exact ((State.pfld_setP_apart _ p _ (by decide)).trans (State.pfld_setP_apart _ p _ (by decide))).trans (s.pfld_setP_same p 0 (by decide))
  · rw [State.pfld, State.fld_of_rim (s.losePeer_rim p)]
    exact (State.pfld_setP_apart _ p _ (by decide)).trans (State.pfld_setP_same _ p 0 (by decide))
  · simp only [State.losePeer, if_pos was]
    exact List.mem_append_right _ (List.mem_singleton_self _)

/-! ## The start of training (R285, R286, R308) -/

/-- The fields that the start of training sets. -/
def trainingFields : List Fld := [fPortStatusModeErr, fPortStatusGroupsFailed, fPortStatusWidth, fPortStatusState]

/-- A port whose training starts, with its receive allocation. -/
def PortSt.trainedAnew (q : PortSt) (now : Nat) (alloc : List Nat) : PortSt :=
  { q with
    trainAt := now, eq := q.eqStored, trained := [], retrain := [], symbols := [], windows := [], leaving := [], coming := [], asked := false
    heard := false, linked := false, greeted := false, tx := [], unacked := [], wire := [], credits := [], freed := [], rxAlloc := alloc, rxPart := []
    txSeq := 0, rxSeq := 0, nak := false, awaiting := false, peerReq := false, replays := 0 }

/-- The state in which a port of a mode begins: off, or in training. -/
def modeState (m : Nat) : Nat := if m = 0 then 0 else 2

theorem modeState_fits (m : Nat) : modeState m % 2 ^ 3 = modeState m := by
  rw [modeState]
  split <;> rfl

/-- A receive allocation past the buffer sets mode_err. -/
def State.checkAlloc (s : State) (p : Nat) : State := if 16384 < (s.allocOf p).foldl (· + ·) 0 then s.setP p fPortStatusModeErr 1 else s

theorem State.checkAlloc_port (q : Nat) : (s.checkAlloc p).port q = s.port q := by
  rw [State.checkAlloc]
  split <;> rfl

theorem State.checkAlloc_onlyPort : State.OnlyPort p s (s.checkAlloc p) := by
  rw [State.checkAlloc]
  split
  · exact s.setP_onlyPort (by decide) 1
  · exact .refl s

theorem State.pfld_checkAlloc {g : Fld} (apart : fPortStatusModeErr.Apart g) : (s.checkAlloc p).pfld p g = s.pfld p g := by
  rw [State.checkAlloc]
  split
  · exact s.pfld_setP_apart p 1 apart
  · rfl

/-- A port in training, before the state that it enters. -/
def State.trainAnew (s : State) (p : Nat) : State :=
  let t := ((s.checkAlloc p).setP p fPortStatusGroupsFailed 0).setActive p []
  t.mapPort p (fun q => q.trainedAnew t.mono (s.allocOf p))

theorem State.trainAnew_port : (s.trainAnew p).port p = { s.port p with active := [] }.trainedAnew s.mono (s.allocOf p) := by
  rw [State.trainAnew, State.port_mapPort_same, State.setActive_port, State.port_setP, State.checkAlloc_port, State.mono_setActive,
    State.mono_setP, (s.checkAlloc_onlyPort p).mono]

theorem State.startTraining_eq : s.startTraining p = (s.trainAnew p).setP p fPortStatusState (modeState (s.port p).mode) := by
  have mode : ((s.trainAnew p).port p).mode = (s.port p).mode := by
    rw [s.trainAnew_port]
    rfl
  rw [← mode]
  delta State.startTraining State.trainAnew State.checkAlloc PortSt.trainedAnew modeState
  rfl

theorem State.startTraining_port : (s.startTraining p).port p = { s.port p with active := [] }.trainedAnew s.mono (s.allocOf p) := by
  rw [s.startTraining_eq, State.port_setP, s.trainAnew_port]

theorem State.startTraining_state : (s.startTraining p).portState p = modeState (s.port p).mode := by
  rw [s.startTraining_eq]
  exact ((s.trainAnew p).pfld_setP_same p _ (by decide)).trans (modeState_fits _)

theorem State.checkAlloc_notes : (s.checkAlloc p).notes = s.notes := by
  rw [State.checkAlloc]
  split
  · exact s.notes_setP p _ 1
  · rfl

theorem State.startTraining_notes : (s.startTraining p).notes = s.notes := by
  rw [s.startTraining_eq, State.notes_setP, State.trainAnew, State.notes_mapPort, State.notes_setActive, State.notes_setP, State.checkAlloc_notes]

theorem State.setActive_onlyPort (gs : List Nat) : State.OnlyPort p s (s.setActive p gs) :=
  (s.mapPort_onlyPort _).trans (State.setP_onlyPort _ (by decide) _)

theorem State.startTraining_onlyPort : State.OnlyPort p s (s.startTraining p) := by
  rw [s.startTraining_eq, State.trainAnew]
  have cleared := (s.checkAlloc_onlyPort p).trans (State.setP_onlyPort _ (f := fPortStatusGroupsFailed) (by decide) 0)
  exact ((cleared.trans (State.setActive_onlyPort _ p [])).trans (State.mapPort_onlyPort _ _)).trans (State.setP_onlyPort _ (by decide) _)

theorem State.pfld_startTraining {g : Fld} (apart : ∀ f ∈ trainingFields, f.Apart g) : (s.startTraining p).pfld p g = s.pfld p g := by
  simp only [trainingFields, List.forall_mem_cons] at apart
  obtain ⟨modeErr, failed, width, state, -⟩ := apart
  rw [s.startTraining_eq, State.pfld_setP_apart _ p _ state, State.trainAnew, State.pfld_mapPort, State.pfld_setActive _ p [] width,
    State.pfld_setP_apart _ p 0 failed, s.pfld_checkAlloc p modeErr]

/-! ## The end of a block reset (R283, R289) -/

/-- The mode that a port takes when its reset completes. -/
def State.nextMode (s : State) (p : Nat) : Nat := if s.pfld p fPortCtrlMode = 2 ∧ 4 ≤ (s.etherPorts p).length then 0 else s.pfld p fPortCtrlMode

theorem State.modeOf_snd : (s.modeOf p).2 = s.nextMode p := by
  simp only [State.modeOf, State.nextMode, Bool.and_eq_true, decide_eq_true_eq]
  split <;> rfl

theorem State.modeOf_port (q : Nat) : (s.modeOf p).1.port q = s.port q := by
  simp only [State.modeOf]
  split <;> rfl

theorem State.modeOf_notes : (s.modeOf p).1.notes = s.notes := by
  simp only [State.modeOf]
  split <;> rfl

theorem State.modeOf_onlyPort : State.OnlyPort p s (s.modeOf p).1 := by
  simp only [State.modeOf]
  split
  · exact (s.setP_onlyPort (by decide) 0).trans (State.setP_onlyPort _ (by decide) 1)
  · exact .refl s

theorem State.pfld_modeOf {g : Fld} (mode : fPortCtrlMode.Apart g) (modeErr : fPortStatusModeErr.Apart g) : (s.modeOf p).1.pfld p g = s.pfld p g := by
  simp only [State.modeOf]
  split
  · exact (State.pfld_setP_apart _ p 1 modeErr).trans (s.pfld_setP_apart p 0 mode)
  · rfl

/-- A port whose partner is lost and whose record of it is cleared. -/
def State.unplugged (s : State) (p : Nat) : State :=
  (((s.losePeer p).setReg (fPortPeerEuiEui.off + 0x1000 * p) 0).setReg (fPortPeerDeviceId.off + 0x1000 * p) 0).setP p fPortEthStatusLinkUp 0

theorem State.unplugged_port (q : Nat) : (s.unplugged p).port q = s.port q := by
  rw [State.unplugged, State.port_setP, State.port_setReg, State.port_setReg, s.losePeer_port]

theorem State.unplugged_onlyPort : State.OnlyPort p s (s.unplugged p) :=
  (((s.losePeer_onlyPort p).trans (State.setReg_onlyPort _ (by decide) 0)).trans (State.setReg_onlyPort _ (by decide) 0)).trans
    (State.setP_onlyPort _ (by decide) 0)

theorem State.pfld_unplugged {g : Fld} (eui : g.off ≠ fPortPeerEuiEui.off) (device : g.off ≠ fPortPeerDeviceId.off)
    (link : g.off ≠ fPortEthStatusLinkUp.off) : (s.unplugged p).pfld p g = (s.losePeer p).pfld p g :=
  ((State.pfld_setP_apart _ p 0 (.inl link)).trans (State.pfld_setReg_ne _ p _ 0 device)).trans (State.pfld_setReg_ne _ p _ 0 eui)

theorem State.nextMode_congr {s t : State} (mode : t.pfld p fPortCtrlMode = s.pfld p fPortCtrlMode) (others : State.OnlyPort p s t) :
    t.nextMode p = s.nextMode p := by
  rw [State.nextMode, mode, others.etherPorts, State.nextMode]

/-- A port as its reset completes, in a mode. -/
def PortSt.rested (q : PortSt) (m : Nat) : PortSt :=
  { q with mode := m, resetAt := none, arrived := [], ttCame := [], helloAt := 0, helloTx := 0, ttLast := none, ttAt := 0 }

/-- A port whose reset completes, before its training starts. -/
def State.rested (s : State) (p : Nat) : State := ((s.unplugged p).modeOf p).1.mapPort p (fun q => q.rested (s.nextMode p))

theorem State.finishReset_eq : s.finishReset p = (s.rested p).startTraining p := by
  have mode : ((s.unplugged p).modeOf p).2 = s.nextMode p := by
    rw [State.modeOf_snd]
    exact State.nextMode_congr p ((s.pfld_unplugged p (by decide) (by decide) (by decide)).trans (s.pfld_losePeer p (by decide))) (s.unplugged_onlyPort p)
  rw [State.rested, ← mode]
  rfl

theorem State.rested_port : (s.rested p).port p = (s.port p).rested (s.nextMode p) := by
  rw [State.rested, State.port_mapPort_same, State.modeOf_port, s.unplugged_port]

theorem State.rested_onlyPort : State.OnlyPort p s (s.rested p) :=
  ((s.unplugged_onlyPort p).trans (State.modeOf_onlyPort _ p)).trans (State.mapPort_onlyPort _ _)

theorem State.rested_notes : (s.rested p).notes = (s.losePeer p).notes := by
  rw [State.rested, State.notes_mapPort, State.modeOf_notes, State.unplugged, State.notes_setP, State.notes_setReg, State.notes_setReg]

/-- The registers of a port that record its partner and its Ethernet links, which the end of a block reset clears. -/
def recordOffs : List Nat := [fPortPeerEuiEui.off, fPortPeerDeviceId.off, fPortEthStatusLinkUp.off]

theorem State.finishReset_onlyPort : State.OnlyPort p s (s.finishReset p) := by
  rw [s.finishReset_eq]
  exact (s.rested_onlyPort p).trans (State.startTraining_onlyPort _ p)

/-- A field that neither training nor the end of a reset sets is as the loss of the partner leaves it. -/
theorem State.pfld_finishReset {g : Fld} (mode : fPortCtrlMode.Apart g) (training : ∀ f ∈ trainingFields, f.Apart g) (records : g.off ∉ recordOffs) :
    (s.finishReset p).pfld p g = (s.losePeer p).pfld p g := by
  simp only [recordOffs, List.mem_cons, not_or] at records
  obtain ⟨eui, device, link, -⟩ := records
  rw [s.finishReset_eq, State.pfld_startTraining _ p training, State.rested, State.pfld_mapPort,
    State.pfld_modeOf _ p mode (training _ (List.mem_cons_self ..)), s.pfld_unplugged p eui device link]

/-- A block reset that completes: the port in its next mode, without partner or admission, and in training unless it is off. -/
theorem State.finishReset_spec : let t := s.finishReset p
    (t.port p).mode = s.nextMode p ∧ (t.port p).resetAt = none ∧ (t.port p).gw = (s.port p).gw ∧ t.portState p = (if s.nextMode p = 0 then 0 else 2) ∧
    t.pfld p fPortCtrlAdmit = 0 ∧ t.pfld p fPortStatusPeerValid = 0 ∧ (s.pfld p fPortStatusPeerValid = 1 → Note.peer p false ∈ t.notes) := by
  obtain ⟨valid, unadmitted, lost⟩ := s.losePeer_spec p
  have port : (s.finishReset p).port p = { (s.port p).rested (s.nextMode p) with active := [] }.trainedAnew (s.rested p).mono ((s.rested p).allocOf p) := by
    rw [s.finishReset_eq, State.startTraining_port, s.rested_port]
  refine ⟨by rw [port]; rfl, by rw [port]; rfl, by rw [port]; rfl, ?_, ?_, ?_, fun was => ?_⟩
  · rw [s.finishReset_eq, State.startTraining_state, s.rested_port]
    rfl
  · exact (s.pfld_finishReset p (by decide) (by decide) (by decide)).trans unadmitted
  · exact (s.pfld_finishReset p (by decide) (by decide) (by decide)).trans valid
  · rw [s.finishReset_eq, State.startTraining_notes, s.rested_notes]
    exact lost was

end

/-! ## A gateway that discards what it holds (R294) -/

section
variable (s : State) (p : Nat)

theorem State.dropGateway_port : (s.dropGateway p).port p = { s.port p with gw := [], tx := [] } := by
  have all (l : List GwPkt) : l.filter (fun _ => !true) = [] := List.filter_false l
  rw [State.dropGateway, State.port_bumpP, State.port_mapPort_same, State.gwDiscard, State.port_bumpP, State.port_mapPort_same]
  simp only [all]

theorem State.gwDiscard_onlyPort (drop : GwPkt → Bool) : State.OnlyPort p s (s.gwDiscard p drop) :=
  (s.mapPort_onlyPort _).trans (State.bumpP_onlyPort _ (by decide) _)

theorem State.dropGateway_onlyPort : State.OnlyPort p s (s.dropGateway p) :=
  ((s.gwDiscard_onlyPort p _).trans (State.mapPort_onlyPort _ _)).trans (State.bumpP_onlyPort _ (by decide) _)

theorem State.pfld_dropGateway {g : Fld} (apart : fPortGwDropCount.Apart g) : (s.dropGateway p).pfld p g = s.pfld p g := by
  rw [State.dropGateway, State.pfld_bumpP_apart _ p _ apart, State.pfld_mapPort, State.gwDiscard, State.pfld_bumpP_apart _ p _ apart, State.pfld_mapPort]

theorem State.dropGateway_counts : (s.dropGateway p).pfld p fPortGwDropCount =
    (s.pfld p fPortGwDropCount + gwFlits (s.port p).gw + (s.port p).tx.length) % 2 ^ 64 := by
  have tx : ((s.gwDiscard p (fun _ => true)).port p).tx = (s.port p).tx := by
    rw [State.gwDiscard, State.port_bumpP, State.port_mapPort_same]
  have all : (s.port p).gw.filter (fun _ => true) = (s.port p).gw := List.filter_true _
  rw [State.dropGateway, State.pfld_bumpP_same _ p _ (by decide), State.pfld_mapPort, tx, State.gwDiscard, State.pfld_bumpP_same _ p _ (by decide),
    State.pfld_mapPort, all]
  exact Nat.mod_add_mod ..

end

/-! ## What a link's sending leaves of its port (R276, R290 to R292) -/

/-- A port but for what sending changes: the gateway with its round, the flits that leave, what the link layer has sent, the credits, and the request for a width. -/
def PortSt.unsent (q : PortSt) : PortSt :=
  { q with gw := [], gwTurn := 0, gwAges := [], deficit := [], tx := [], credits := [], freed := [], nak := false, txSeq := 0, unacked := [], wire := [], asked := false }

/-- `t` differs from `s` in what port `p` has sent and still holds to send and in the count of its blocks; a request for a width is not withdrawn. -/
structure State.Transmits (p : Nat) (s t : State) : Prop where
  mono : t.mono = s.mono
  unsent : (t.port p).unsent = (s.port p).unsent
  asked : (s.port p).asked = true → (t.port p).asked = true
  reg : ∀ a, a ≠ fPortBlocksTxCount.off + 0x1000 * p → t.reg a = s.reg a

section
variable {p : Nat} {s t u : State}

theorem State.Transmits.refl (s : State) : State.Transmits p s s := ⟨rfl, rfl, id, fun _ _ => rfl⟩

theorem State.Transmits.trans (h : State.Transmits p s t) (h' : State.Transmits p t u) : State.Transmits p s u :=
  ⟨h'.mono.trans h.mono, h'.unsent.trans h.unsent, h'.asked ∘ h.asked, fun a other => (h'.reg a other).trans (h.reg a other)⟩

theorem State.mapPort_transmits (s : State) {f : PortSt → PortSt} (unsent : (f (s.port p)).unsent = (s.port p).unsent)
    (asked : (s.port p).asked = true → (f (s.port p)).asked = true) : State.Transmits p s (s.mapPort p f) :=
  ⟨rfl, by rw [s.port_mapPort_same, unsent], by rw [s.port_mapPort_same]; exact asked, fun _ _ => rfl⟩

theorem State.countBlocks_transmits (s : State) (n : Nat) : State.Transmits p s (s.bumpP p fPortBlocksTxCount n) :=
  ⟨rfl, rfl, id, fun _ other => s.reg_setReg_ne _ other⟩

section
variable (h : State.Transmits p s t)
include h

/-- Fields of the port outside the count of its blocks. -/
theorem State.Transmits.pfld {g : Fld} (other : g.off ≠ fPortBlocksTxCount.off) : t.pfld p g = s.pfld p g := by
  rw [State.pfld, State.fld, h.reg _ (by simpa only [fldAt, ne_eq, Nat.add_right_cancel_iff] using other), State.pfld, State.fld]

/-- A part of the port that sending does not change. -/
theorem State.Transmits.kept {α : Type} (part : PortSt → α) (fixed : ∀ q, part q.unsent = part q := by exact fun _ => rfl) :
    part (t.port p) = part (s.port p) :=
  (fixed _).symm.trans ((congrArg part h.unsent).trans (fixed _))

end

/-! ### A packet is chosen, gathered and sent -/

/-- What the choice of a packet changes of a port is its round. -/
theorem State.pickPacket_unsent {i : Nat} {f : PortSt → PortSt} (picked : s.pickPacket p = some (i, f)) (q : PortSt) :
    (f q).unsent = q.unsent ∧ (f q).asked = q.asked := by
  simp only [State.pickPacket] at picked
  split at picked
  · obtain ⟨-, rfl⟩ := Prod.mk.inj (Option.some.inj picked)
    exact ⟨rfl, rfl⟩
  · split at picked
    · obtain ⟨x, -, chosen⟩ := Option.map_eq_some_iff.mp picked
      obtain ⟨-, rfl⟩ := Prod.mk.inj chosen
      exact ⟨rfl, rfl⟩
    · split at picked
      · exact absurd picked (Option.some_ne_none _).symm
      · obtain ⟨x, -, chosen⟩ := Option.map_eq_some_iff.mp picked
        obtain ⟨-, rfl⟩ := Prod.mk.inj chosen
        exact ⟨rfl, rfl⟩

theorem State.gather_transmits (fuel : Nat) (s : State) : State.Transmits p s (s.gather p fuel) := by
  induction fuel generalizing s with
  | zero => exact .refl s
  | succ fuel ih =>
    simp only [State.gather]
    split
    · exact .refl s
    · split
      · exact .refl s
      next i f picked =>
        split
        · exact .refl s
        · refine .trans (State.mapPort_transmits s ?_ ?_) (ih _)
          · exact (State.pickPacket_unsent picked _).1
          · exact fun asked => (State.pickPacket_unsent picked _).2.trans asked

theorem State.emit_transmits (s : State) : State.Transmits p s (s.emit p) := by
  refine .trans (State.mapPort_transmits s rfl fun asked => ?_) (State.countBlocks_transmits _ 1)
  show ((s.port p).asked || (s.port p).asks) = true
  rw [asked, Bool.true_or]

/-- A port that no block reset drains keeps all but what it sends. -/
theorem State.pump_transmits (fuel : Nat) (s : State) (stays : (s.port p).resetAt = none) : State.Transmits p s (s.pump p fuel) := by
  induction fuel generalizing s with
  | zero => exact .refl s
  | succ fuel ih =>
    simp only [State.pump, stays, Option.isSome_none, Bool.false_and, Bool.false_eq_true, if_false]
    have gathered := State.gather_transmits (p := p) 17 s
    split
    · exact .refl s
    · split
      · exact gathered
      · have sent := gathered.trans (State.emit_transmits _)
        exact sent.trans (ih _ ((sent.kept (·.resetAt)).trans stays))

theorem State.pumpLink_transmits (s : State) (stays : (s.port p).resetAt = none) : State.Transmits p s (s.pumpLink p) := State.pump_transmits _ s stays

theorem State.nakFull_transmits (s : State) : State.Transmits p s (s.nakFull p) := by
  simp only [State.nakFull]
  split
  · exact .refl s
  · exact .trans (State.mapPort_transmits s rfl id) (State.countBlocks_transmits _ 1)

theorem State.speak_transmits (s : State) (stays : (s.port p).resetAt = none) : State.Transmits p s (s.speak p) := by
  have pumped := State.pumpLink_transmits s stays
  simp only [State.speak]
  split
  · exact pumped
  · split
    · exact pumped.trans (State.emit_transmits _)
    · exact pumped.trans (State.nakFull_transmits _)

end

/-! ## Rows of the control of a port -/

section
variable {port : Fin 16} {s : State} (up : s.dev = .up)
include up

theorem exec_portModeWrite (mode : Fin 4) : exec (.portModeWrite port mode) s = .next (s.writeMode port.val mode.val) := by
  show execPortModeWrite port mode s = _
  rw [execPortModeWrite, if_pos up]

theorem exec_portBlockReset : exec (.portBlockReset port) s = .next (s.resetPort port.val) := by
  show execPortBlockReset port s = _
  rw [execPortBlockReset, if_pos up]

theorem exec_portResetTimeout {began : Nat} (draining : (s.port port.val).resetAt = some began)
    (late : began + 1000 * 2 ^ s.pfld port.val fPortCtrlResetTimeout ≤ s.mono) :
    exec (.portResetTimeout port) s = .next (((s.dropGateway port.val).setP port.val fPortStatusGwForced 1).finishReset port.val) := by
  show execPortResetTimeout port s = _
  simp only [execPortResetTimeout, up, bne_self_eq_false, Bool.false_eq_true, if_false, draining, late, if_true]

theorem exec_portAdmitWrite (on : Bool) : exec (.portAdmitWrite port on) s = .next (s.writeAdmit port.val on) := by
  show execPortAdmitWrite port on s = _
  rw [execPortAdmitWrite, if_pos up]

end

theorem exec_peerLoss {port : Fin 16} {s : State} (link : s.fabLink port.val = true) (known : s.pfld port.val fPortStatusPeerValid = 1)
    (silent : (s.port port.val).helloAt + 100000 * s.pfld port.val fPortHelloInterval * s.pfld port.val fPortHelloLossCount ≤ s.mono) :
    exec (.peerLoss port) s = .next (s.losePeer port.val) := by
  show execPeerLoss port s = _
  simp only [execPeerLoss, link, known, silent, decide_true, Bool.and_self, if_true]

section
variable {s : State} {p : Nat}

theorem State.modeRefused_iff (mode : Nat) : s.modeRefused p mode = true ↔
    mode = 3 ∨ mode = 2 ∧ (4 ≤ (s.etherHeld p).length ∨ s.lifecycle ≠ 2 ∧ s.lifecycle ≠ 3) := by
  simp only [State.modeRefused, State.etherLife, Bool.or_eq_true, Bool.and_eq_true, decide_eq_true_eq, Bool.not_eq_true', Bool.or_eq_false_iff,
    decide_eq_false_iff_not, ne_eq]

/-- A mode is staged, or mode_err set, and nothing else of the port's (R281, R283). -/
theorem State.writeMode_spec {mode : Nat} (small : mode < 4) : let t := s.writeMode p mode
    t.ports = s.ports ∧
    (s.modeRefused p mode = true → t.pfld p fPortStatusModeErr = 1 ∧ t.pfld p fPortCtrlMode = s.pfld p fPortCtrlMode) ∧
    (¬s.modeRefused p mode = true → t.pfld p fPortCtrlMode = mode ∧ t.pfld p fPortStatusModeErr = s.pfld p fPortStatusModeErr) := by
  rw [State.writeMode]
  split
  next refused =>
    exact ⟨rfl, fun _ => ⟨s.pfld_setP_same p 1 (by decide), s.pfld_setP_apart p 1 (by decide)⟩, fun taken => absurd refused taken⟩
  next taken =>
    exact ⟨rfl, fun refused => absurd refused taken,
      fun _ => ⟨(s.pfld_setP_same p mode (by decide)).trans (Nat.mod_eq_of_lt small), s.pfld_setP_apart p mode (by decide)⟩⟩

theorem State.resetPort_recovery (recovery : s.fld fRstStatusMrm = 1) : s.resetPort p = s := by
  rw [State.resetPort, if_pos (by rw [decide_eq_true recovery, Bool.or_true])]

section
variable (normal : s.fld fRstStatusMrm = 0) (idle : (s.port p).resetAt = none)
include normal idle

theorem State.resetPort_empty (gw : (s.port p).gw = []) (tx : (s.port p).tx = []) : s.resetPort p = s.finishReset p := by
  simp [State.resetPort, normal, idle, gw, tx]

theorem State.resetPort_drains (holds : ¬((s.port p).gw = [] ∧ (s.port p).tx = [])) :
    s.resetPort p = (s.mapPort p (fun q => { q with resetAt := some s.mono })).setState p 1 := by
  simp only [State.resetPort, normal, idle]
  rw [if_neg (by decide), if_neg (by simpa using holds)]

/-- A block reset: complete at once where the gateway is empty, and otherwise waiting until it is (R289). -/
theorem State.resetPort_spec : let t := s.resetPort p
    t.cores = s.cores ∧
    ((s.port p).gw = [] ∧ (s.port p).tx = [] → (t.port p).mode = s.nextMode p ∧ (t.port p).resetAt = none ∧ t.portState p = (if s.nextMode p = 0 then 0 else 2) ∧
      t.pfld p fPortCtrlAdmit = 0 ∧ t.pfld p fPortStatusPeerValid = 0 ∧ (s.pfld p fPortStatusPeerValid = 1 → Note.peer p false ∈ t.notes)) ∧
    (¬((s.port p).gw = [] ∧ (s.port p).tx = []) → t.portState p = 1 ∧ (t.port p).resetAt = some s.mono ∧ (t.port p).gw = (s.port p).gw) := by
  by_cases empty : (s.port p).gw = [] ∧ (s.port p).tx = []
  · obtain ⟨mode, done, -, rest⟩ := s.finishReset_spec p
    rw [State.resetPort_empty normal idle empty.1 empty.2]
    exact ⟨(s.finishReset_onlyPort p).cores, fun _ => ⟨mode, done, rest⟩, fun holds => absurd empty holds⟩
  · rw [State.resetPort_drains normal idle empty]
    refine ⟨rfl, fun none => absurd none empty, fun _ => ⟨State.pfld_setP_same _ p 1 (by decide), ?_⟩⟩
    rw [State.setState, State.port_setP, State.port_mapPort_same]
    exact ⟨rfl, rfl⟩

end

/-- A gateway out of time: emptied and counted, its reset completed in the mode that it would have taken when empty (R289, R294). -/
theorem State.forceReset_spec : let t := ((s.dropGateway p).setP p fPortStatusGwForced 1).finishReset p
    (t.port p).gw = [] ∧ (t.port p).resetAt = none ∧ t.pfld p fPortStatusGwForced = 1 ∧ (t.port p).mode = s.nextMode p ∧
    t.pfld p fPortGwDropCount = (s.pfld p fPortGwDropCount + gwFlits (s.port p).gw + (s.port p).tx.length) % 2 ^ 64 := by
  generalize forced : (s.dropGateway p).setP p fPortStatusGwForced 1 = u
  have port : u.port p = { s.port p with gw := [], tx := [] } := by rw [← forced, State.port_setP, s.dropGateway_port]
  have flag : u.pfld p fPortStatusGwForced = 1 := by rw [← forced]; exact (s.dropGateway p).pfld_setP_same p 1 (by decide)
  have count : u.pfld p fPortGwDropCount = (s.dropGateway p).pfld p fPortGwDropCount := by rw [← forced, State.pfld_setP_apart _ p 1 (by decide)]
  have staged : u.pfld p fPortCtrlMode = s.pfld p fPortCtrlMode := by
    rw [← forced, State.pfld_setP_apart _ p 1 (by decide), s.pfld_dropGateway p (by decide)]
  have others : State.OnlyPort p s u := by rw [← forced]; exact (s.dropGateway_onlyPort p).trans (State.setP_onlyPort _ (by decide) 1)
  obtain ⟨mode, done, gw, -⟩ := u.finishReset_spec p
  refine ⟨by rw [gw, port], done, ?_, by rw [mode, State.nextMode_congr p staged others], ?_⟩
  · rw [u.pfld_finishReset p (by decide) (by decide) (by decide), u.pfld_losePeer p (by decide), flag]
  · rw [u.pfld_finishReset p (by decide) (by decide) (by decide), u.pfld_losePeer p (by decide), count, s.dropGateway_counts]

theorem State.writeAdmit_refused {on : Bool} (refused : on = true ∧ (s.pfld p fPortStatusPeerValid = 0 ∨ s.pfld p fPortStatusLoopback = 1)) :
    s.writeAdmit p on = s := by
  rw [State.writeAdmit, if_pos (by simpa using refused)]

theorem State.writeAdmit_admits {on : Bool} (taken : ¬(on = true ∧ (s.pfld p fPortStatusPeerValid = 0 ∨ s.pfld p fPortStatusLoopback = 1)))
    (idle : (s.port p).resetAt = none) : (s.writeAdmit p on).pfld p fPortCtrlAdmit = (if on then 1 else 0) := by
  rw [State.writeAdmit, if_neg (by simpa using taken), (State.pumpLink_transmits (s.setP p fPortCtrlAdmit _) idle).pfld (by decide), s.pfld_setP_same p _ (by decide)]
  cases on <;> rfl

end

/-- Settles O45: each row by what it makes of the port. -/
theorem portControl : Obligations.PortControl := by
  unfold Obligations.PortControl
  intro port s p m
  refine ⟨?_, ?_, ?_, ?_, ?_, ?_⟩
  · intro mode up refused
    have written := State.writeMode_spec (s := s) (p := p) mode.isLt
    simp only [State.modeRefused_iff] at written
    exact ⟨_, exec_portModeWrite up mode, written⟩
  · intro up recovery
    rw [exec_portBlockReset up, State.resetPort_recovery recovery]
  · intro up normal idle
    exact ⟨_, exec_portBlockReset up, State.resetPort_spec normal idle⟩
  · intro began up draining late
    exact ⟨_, exec_portResetTimeout up draining late, State.forceReset_spec⟩
  · intro on up
    refine ⟨fun refused => ?_, fun taken idle => ⟨_, exec_portAdmitWrite up on, State.writeAdmit_admits taken idle⟩⟩
    rw [exec_portAdmitWrite up, State.writeAdmit_refused refused]
  · intro link known silent
    obtain ⟨valid, unadmitted, lost⟩ := s.losePeer_spec p
    exact ⟨_, exec_peerLoss link known silent, valid, unadmitted, lost known⟩

end Sys2Proof.Machine

/-! SUPPORT. Training and retraining of lane groups: which groups of a port are good, what a link that takes a new width keeps, what an agreed width change makes of the
groups that leave and come back, and the rows of training. -/

namespace Sys2Proof.Machine

/-! ## Tables written at several keys -/

theorem Tbl.look_foldl_put {α : Type} [DecidableEq α] (f : Nat → α) (d : α) (k : Nat) (l : List Nat) (t : Tbl α) :
    (l.foldl (fun (t : Tbl α) i => t.put i (f i) d) t).look k d = if k ∈ l then f k else t.look k d := by
  induction l generalizing t with
  | nil => rfl
  | cons i l ih =>
    rw [List.foldl_cons, ih]
    by_cases later : k ∈ l
    · rw [if_pos later, if_pos (.tail _ later)]
    · rw [if_neg later]
      by_cases own : k = i
      · rw [own, Tbl.look_put_same, if_pos (List.mem_cons_self ..)]
      · rw [Tbl.look_put_ne t own, if_neg (List.not_mem_cons_of_ne_of_not_mem own later)]

/-! ## Good and failed groups (R284, R287) -/

section
variable {s : State} {p : Nat}

theorem State.mem_failedGroups {g : Nat} : g ∈ s.failedGroups p ↔ g < 8 ∧ (s.pfld p fPortStatusGroupsFailed).testBit g = true := by
  simp only [State.failedGroups, List.mem_filter, List.mem_range]

theorem State.mem_goodGroups {g : Nat} : g ∈ s.goodGroups p ↔ g ∈ (s.port p).trained ∧ g ∉ s.failedGroups p ∧ (s.port p).retrain.look g 0 = 0 := by
  simp only [State.goodGroups, List.mem_filter, Bool.and_eq_true, Bool.not_eq_true', List.contains_eq_mem, decide_eq_false_iff_not, decide_eq_true_eq]

theorem State.failedGroups_congr {t : State} (same : t.pfld p fPortStatusGroupsFailed = s.pfld p fPortStatusGroupsFailed) :
    t.failedGroups p = s.failedGroups p := by
  simp only [State.failedGroups, same]

theorem State.goodGroups_congr {t : State} (failed : t.pfld p fPortStatusGroupsFailed = s.pfld p fPortStatusGroupsFailed)
    (trained : (t.port p).trained = (s.port p).trained) (retrain : (t.port p).retrain = (s.port p).retrain) : t.goodGroups p = s.goodGroups p := by
  simp only [State.goodGroups, State.failedGroups_congr failed, trained, retrain]

theorem State.Transmits.goodGroups {t : State} (h : State.Transmits p s t) : t.goodGroups p = s.goodGroups p :=
  State.goodGroups_congr (h.pfld (by decide)) (h.kept (·.trained)) (h.kept (·.retrain))

theorem State.failGroup_testBit (g j : Nat) : ((s.failGroup p g).pfld p fPortStatusGroupsFailed).testBit j =
    (decide (j < 8) && ((s.pfld p fPortStatusGroupsFailed).testBit j || decide (g = j))) := by
  rw [State.failGroup, s.pfld_setP_same p _ (by decide)]
  exact (Nat.testBit_mod_two_pow ..).trans (by rw [Nat.testBit_or, Nat.testBit_two_pow, fPortStatusGroupsFailed])

theorem State.mem_failedGroups_failGroup {g j : Nat} (inside : g < 8) : j ∈ (s.failGroup p g).failedGroups p ↔ j = g ∨ j ∈ s.failedGroups p := by
  simp only [State.mem_failedGroups, State.failGroup_testBit, Bool.and_eq_true, Bool.or_eq_true, decide_eq_true_eq]
  constructor
  · rintro ⟨small, -, failed | rfl⟩
    · exact .inr ⟨small, failed⟩
    · exact .inl rfl
  · rintro (rfl | ⟨small, failed⟩)
    · exact ⟨inside, inside, .inr rfl⟩
    · exact ⟨small, small, .inl failed⟩

theorem State.length_failedGroups_failGroup {g : Nat} (inside : g < 8) (good : g ∉ s.failedGroups p) :
    ((s.failGroup p g).failedGroups p).length = (s.failedGroups p).length + 1 := by
  have nodup (t : State) : (t.failedGroups p).Nodup := List.nodup_range.filter _
  have perm : ((s.failGroup p g).failedGroups p).Perm (g :: s.failedGroups p) :=
    (List.perm_ext_iff_of_nodup (nodup _) (List.nodup_cons.mpr ⟨good, nodup s⟩)).mpr fun j => by
      rw [State.mem_failedGroups_failGroup inside, List.mem_cons]
  exact perm.length_eq

theorem State.failGroup_state (g : Nat) : (s.failGroup p g).portState p = s.portState p := s.pfld_setP_apart p _ (by decide)

/-! ## A link that is up, and its width (R285, R287) -/

theorem State.settleUp_port (q : Nat) : (s.settleUp p).port q = s.port q := by
  simp only [State.settleUp]
  split <;> rfl

theorem State.pfld_settleUp {g : Fld} (apart : fPortStatusState.Apart g) : (s.settleUp p).pfld p g = s.pfld p g := by
  simp only [State.settleUp]
  split
  · exact s.pfld_setP_apart p _ apart
  · rfl

theorem State.settleUp_state (linked : (s.port p).linked = true) (greeted : (s.port p).greeted = true) (said : (s.port p).helloTx ≠ 0)
    (idle : (s.port p).resetAt = none) : (s.settleUp p).portState p = (if (s.port p).retrain.isEmpty then 3 else 4) := by
  simp only [State.settleUp]
  rw [if_pos (by simp [linked, greeted, said, idle])]
  refine (s.pfld_setP_same p _ (by decide)).trans ?_
  split <;> rfl

theorem widestOf_length_le (l : List Nat) : (widestOf l).length ≤ 8 :=
  (List.length_take_le' ..).trans (List.length_filter_le ..)

theorem State.setActive_width (l : List Nat) : (s.setActive p (widestOf l)).pfld p fPortStatusWidth = (widestOf l).length :=
  ((s.mapPort p _).pfld_setP_same p _ (by decide)).trans (Nat.mod_eq_of_lt (Nat.lt_of_le_of_lt (widestOf_length_le l) (by decide)))

/-- A link without block reset takes the width of its good groups and goes on sending; one whose every group has failed trains anew. -/
theorem State.rewidth_cases (idle : (s.port p).resetAt = none) :
    (s.goodGroups p = [] ∧ (s.port p).retrain = [] ∧ s.rewidth p = ((s.dropGateway p).losePeer p).startTraining p) ∨
    State.Transmits p ((s.setActive p (widestOf (s.goodGroups p))).settleUp p) (s.rewidth p) := by
  simp only [State.rewidth]
  split
  next dead =>
    simp only [Bool.and_eq_true, List.isEmpty_iff] at dead
    have stays : ((s.dropGateway p).port p).resetAt = none := by rw [s.dropGateway_port, idle]
    refine .inl ⟨dead.1, dead.2, ?_⟩
    simp only [State.goDown, stays, Option.isSome_none, Bool.false_eq_true, if_false]
  · refine .inr (State.pumpLink_transmits _ ?_)
    rw [State.settleUp_port, State.setActive_port, idle]

/-- No window of a group runs. -/
def PortSt.NoWindow (g : Nat) (q : PortSt) : Prop := q.windows.look g 0 = 0 ∧ q.symbols.look g 0 = 0

/-- A new width keeps which groups retrain; what leaves the link and the windows stay, or are cleared where training starts. -/
theorem State.rewidth_port (idle : (s.port p).resetAt = none) : let q := (s.rewidth p).port p
    q.retrain = (s.port p).retrain ∧ ((s.port p).leaving = [] → q.leaving = []) ∧ (∀ g, (s.port p).NoWindow g → q.NoWindow g) := by
  rcases State.rewidth_cases idle with ⟨-, steady, down⟩ | up
  · have port : (s.rewidth p).port p = _ := (congrArg (·.port p) down).trans (State.startTraining_port _ p)
    rw [port, steady]
    exact ⟨rfl, fun _ => rfl, fun _ _ => ⟨rfl, rfl⟩⟩
  · have width : ((s.setActive p (widestOf (s.goodGroups p))).settleUp p).port p = { s.port p with active := widestOf (s.goodGroups p) } := by
      rw [State.settleUp_port, State.setActive_port]
    refine ⟨?_, fun stay => ?_, fun g quiet => ?_⟩
    · rw [up.kept (·.retrain), width]
    · rw [up.kept (·.leaving), width, stay]
    · rw [PortSt.NoWindow, up.kept (·.windows), up.kept (·.symbols), width]
      exact quiet

/-! ## An agreed width change (R287) -/

/-- A port as its width changes: the groups of a list retrain from a time on, and those that were to come back do. -/
def PortSt.regrouped (q : PortSt) (out : List Nat) (now : Nat) : PortSt :=
  { q with
    leaving := [], coming := [], asked := false, heard := false, wire := q.wire ++ q.again
    retrain := out.foldl (fun (t : Tbl Nat) g => t.put g (now + 1) 0) (q.retrain.clear q.coming.contains) }

theorem State.agree_alone (alone : (s.port p).heard = false) : s.agree p = s := by
  simp only [State.agree, alone, Bool.and_false, Bool.not_false, if_true]

/-- What both ends have asked for is done, counted, and the link takes its new width. -/
theorem State.agree_both (asked : (s.port p).asked = true) (heard : (s.port p).heard = true) :
    ∃ t : State, s.agree p = t.rewidth p ∧ t.port p = (s.port p).regrouped ((s.port p).leaving.filter (s.goodGroups p).contains) s.mono := by
  simp only [State.agree, asked, heard, Bool.and_self, Bool.not_true, Bool.false_eq_true, if_false]
  refine ⟨_, rfl, ?_⟩
  split
  · rw [State.port_bumpP, State.port_mapPort_same]
    rfl
  · rw [State.port_bumpP, State.port_bumpP, State.port_bumpP, State.port_mapPort_same]
    rfl

theorem PortSt.retrain_regrouped (q : PortSt) (out : List Nat) (now g : Nat) :
    (q.regrouped out now).retrain.look g 0 = if g ∈ out then now + 1 else (q.retrain.clear q.coming.contains).look g 0 :=
  Tbl.look_foldl_put (fun _ => now + 1) 0 g out _

/-- The port after a change that both ends have asked for. -/
theorem State.agree_port (asked : (s.port p).asked = true) (heard : (s.port p).heard = true) (idle : (s.port p).resetAt = none) : let q := (s.agree p).port p
    q.leaving = [] ∧ (∀ g, (s.port p).NoWindow g → q.NoWindow g) ∧
    ∀ g, q.retrain.look g 0 = if g ∈ (s.port p).leaving ∧ g ∈ s.goodGroups p then s.mono + 1 else
      ((s.port p).retrain.clear (s.port p).coming.contains).look g 0 := by
  obtain ⟨t, agreed, port⟩ := State.agree_both asked heard
  obtain ⟨retrain, leaving, windows⟩ := State.rewidth_port (s := t) (p := p) (by rw [port]; exact idle)
  rw [agreed]
  refine ⟨leaving (by rw [port]; rfl), fun g quiet => windows g (by rw [port]; exact quiet), fun g => ?_⟩
  rw [retrain, port, PortSt.retrain_regrouped]
  simp only [List.mem_filter, List.contains_eq_mem, decide_eq_true_eq]

theorem State.agree_noWindow {g : Nat} (idle : (s.port p).resetAt = none) (quiet : (s.port p).NoWindow g) : ((s.agree p).port p).NoWindow g := by
  by_cases both : (s.port p).asked = true ∧ (s.port p).heard = true
  · exact (State.agree_port both.1 both.2 idle).2.1 g quiet
  · simp only [State.agree]
    rw [if_pos (by simpa only [Bool.not_eq_true', ← Bool.not_eq_true, Bool.and_eq_true] using both)]
    exact quiet

end

/-! ## This end asks for a change (R287) -/

section
variable {s : State} {p g : Nat} (idle : (s.port p).resetAt = none)
include idle

/-- The port after this end has asked for a group to leave the link and has sent what it can, and the change once both ends have asked. -/
theorem State.startRetrain_spec (link : s.fabLink p = true) (good : g ∈ s.goodGroups p) (stays : g ∉ (s.port p).leaving) : let t := s.startRetrain p g
    ((s.port p).NoWindow g → (t.port p).NoWindow g) ∧
    ((s.port p).heard = false → (t.port p).leaving = (s.port p).leaving ++ [g] ∧ (t.port p).retrain = (s.port p).retrain ∧ t.portState p = s.portState p) ∧
    ((s.port p).heard = true → (s.port p).asked = true → (t.port p).leaving = [] ∧ (t.port p).retrain.look g 0 = s.mono + 1) := by
  generalize marked : s.mapPort p (fun q => { q with leaving := q.leaving ++ [g] }) = u
  have port : u.port p = { s.port p with leaving := (s.port p).leaving ++ [g] } := by rw [← marked, State.port_mapPort_same]
  have status (f : Fld) : u.pfld p f = s.pfld p f := by rw [← marked, State.pfld_mapPort]
  have mono : u.mono = s.mono := by rw [← marked]; exact (s.mapPort_onlyPort (p := p) _).mono
  have spoken := u.speak_transmits (p := p) (by rw [port]; exact idle)
  have starts : s.startRetrain p g = (u.speak p).agree p := by
    rw [State.startRetrain, if_pos (by simp [link, good, stays]), marked]
  have stillIdle : ((u.speak p).port p).resetAt = none := by rw [spoken.kept (·.resetAt), port, idle]
  rw [starts]
  refine ⟨fun quiet => State.agree_noWindow stillIdle ?_, fun alone => ?_, fun heard asked => ?_⟩
  · rw [PortSt.NoWindow, spoken.kept (·.windows), spoken.kept (·.symbols), port]
    exact quiet
  · rw [State.agree_alone (by rw [spoken.kept (·.heard), port]; exact alone)]
    exact ⟨by rw [spoken.kept (·.leaving), port], by rw [spoken.kept (·.retrain), port], (spoken.pfld (by decide)).trans (status _)⟩
  · obtain ⟨leaving, -, retrain⟩ := State.agree_port (s := u.speak p) (p := p) (spoken.asked (by rw [port]; exact asked))
      (by rw [spoken.kept (·.heard), port]; exact heard) stillIdle
    have stillGood : (u.speak p).goodGroups p = s.goodGroups p :=
      spoken.goodGroups.trans (State.goodGroups_congr (status _) (by rw [port]) (by rw [port]))
    refine ⟨leaving, ?_⟩
    rw [retrain, if_pos, spoken.mono, mono]
    rw [spoken.kept (·.leaving), port, stillGood]
    exact ⟨List.mem_append_right _ (List.mem_singleton_self g), good⟩

end

/-! ## Rows of training -/

section
variable {port : Fin 16} {s : State}

section
variable (up : s.dev = .up) (fabric : (s.port port.val).mode = 1) (training : s.portState port.val = 2) (down : (s.port port.val).linked = false)
include up fabric training down

theorem exec_laneGroupTrainingTimeout {group : Fin 8} {stage : Fin 4} (good : group.val ∉ s.failedGroups port.val)
    (late : (s.port port.val).trainAt + 1000000 * stepLimit stage.val ≤ s.mono) : exec (.laneGroupTrainingTimeout port group stage) s =
      .next (if ((s.failGroup port.val group.val).failedGroups port.val).length = 8
        then ((s.failGroup port.val group.val).setState port.val 5).note (.portFailed port.val) else s.failGroup port.val group.val) := by
  show execLaneGroupTrainingTimeout port group stage s = _
  simp only [execLaneGroupTrainingTimeout, up, bne_self_eq_false, Bool.false_eq_true, if_false, fabric, training, down, late, List.contains_eq_mem, good,
    decide_true, decide_false, Bool.not_false, Bool.and_self, if_true]
  split <;> rfl

theorem exec_linkInitComplete_fails {good peer : List (Fin 8)} {alloc adapted : List Nat}
    (apart : ((good.map (·.val)).filter (fun g => !(s.failedGroups port.val).contains g)).filter (fun g => peer.any (fun h => h.val = g)) = []) :
    exec (.linkInitComplete port good peer alloc adapted) s = .next ((s.setState port.val 5).note (.portFailed port.val)) := by
  show execLinkInitComplete port good peer alloc adapted s = _
  simp only [execLinkInitComplete, up, fabric, training, down, apart, bne_self_eq_false, Bool.or_self, Bool.false_eq_true, if_false, List.isEmpty_nil, if_true]

end
end

theorem State.pfld_note (s : State) (x : Note) (p : Nat) (f : Fld) : (s.note x).pfld p f = s.pfld p f := rfl

/-- A port without a good group fails, and is reported (R285). -/
theorem State.failPort_spec (s : State) (p : Nat) : let t := (s.setState p 5).note (.portFailed p)
    t.portState p = 5 ∧ Note.portFailed p ∈ t.notes := by
  refine ⟨?_, List.mem_append_right _ (List.mem_singleton_self _)⟩
  rw [State.portState, State.pfld_note, State.setState, s.pfld_setP_same p 5 (by decide)]
  rfl

/-- A late group fails, and with the eighth the port, which is reported (R285). -/
theorem State.lateGroup_spec {s : State} {p g : Nat} (inside : g < 8) (good : g ∉ s.failedGroups p) (training : s.portState p = 2) : let u := s.failGroup p g
    let t := if (u.failedGroups p).length = 8 then (u.setState p 5).note (.portFailed p) else u
    (t.pfld p fPortStatusGroupsFailed).testBit g = true ∧ t.portState p = (if (s.failedGroups p).length = 7 then 5 else 2) ∧
    ((s.failedGroups p).length = 7 → Note.portFailed p ∈ t.notes) := by
  intro u
  have failed : (u.pfld p fPortStatusGroupsFailed).testBit g = true := by
    rw [State.failGroup_testBit]
    simp [inside]
  rw [State.length_failedGroups_failGroup inside good]
  by_cases last : (s.failedGroups p).length = 7
  · rw [if_pos (congrArg (· + 1) last), if_pos last]
    obtain ⟨state, told⟩ := u.failPort_spec p
    refine ⟨?_, state, fun _ => told⟩
    rw [State.pfld_note, State.setState, u.pfld_setP_apart p 5 (by decide), failed]
  · rw [if_neg fun all => last (Nat.succ_injective all), if_neg last]
    exact ⟨failed, (State.failGroup_state g).trans training, fun all => absurd all last⟩

/-- A port whose link has been initialised on the groups of a list, with the partner's allocation and the settings that its receivers have reached. -/
def PortSt.initialised (q : PortSt) (now : Nat) (common alloc adapted : List Nat) : PortSt :=
  { q with
    eq := adapted, trained := common, linked := true, txSeq := 0, rxSeq := 0, nak := false, awaiting := false, peerReq := false, replays := 0, unacked := []
    helloAt := now, helloTx := 0, cmapAt := now, cmapTx := now, ttTx := now, ttAt := now
    credits := (List.range 8).foldl (fun (t : Tbl Nat) i => t.put i (alloc.getD i 0) 0) [] }

theorem PortSt.credits_initialised (q : PortSt) (now : Nat) (common alloc adapted : List Nat) {i : Nat} (inside : i < 8) :
    (q.initialised now common alloc adapted).credits.look i 0 = alloc.getD i 0 :=
  (Tbl.look_foldl_put (fun i => alloc.getD i 0) 0 i _ _).trans (if_pos (List.mem_range.mpr inside))

section
variable {port : Fin 16} {s : State} {p : Nat}

theorem exec_linkInitComplete_links (up : s.dev = .up) (fabric : (s.port port.val).mode = 1) (training : s.portState port.val = 2)
    (down : (s.port port.val).linked = false) {good peer : List (Fin 8)} {alloc adapted common : List Nat}
    (both : ((good.map (·.val)).filter (fun g => !(s.failedGroups port.val).contains g)).filter (fun g => peer.any (fun h => h.val = g)) = common)
    (any : common ≠ []) : exec (.linkInitComplete port good peer alloc adapted) s =
      .next ((s.mapPort port.val (fun q => q.initialised s.mono common alloc adapted)).setActive port.val (widestOf common)) := by
  show execLinkInitComplete port good peer alloc adapted s = _
  simp only [execLinkInitComplete, up, fabric, training, down, both, bne_self_eq_false, Bool.or_self, Bool.false_eq_true, if_false, List.isEmpty_iff, any]
  rfl

/-- The port of a link that has been initialised. -/
theorem State.initialised_spec (common alloc adapted : List Nat) :
    let t := (s.mapPort p (fun q => q.initialised s.mono common alloc adapted)).setActive p (widestOf common)
    t.portState p = s.portState p ∧ (t.port p).linked = true ∧ (t.port p).active = widestOf common ∧ t.pfld p fPortStatusWidth = (widestOf common).length ∧
    (t.port p).txSeq = 0 ∧ (t.port p).rxSeq = 0 ∧ (t.port p).eq = adapted ∧ ∀ i < 8, (t.port p).credits.look i 0 = alloc.getD i 0 := by
  intro t
  have port : t.port p = { (s.port p).initialised s.mono common alloc adapted with active := widestOf common } := by
    rw [State.setActive_port, State.port_mapPort_same]
  refine ⟨State.pfld_setActive _ p _ (by decide), by rw [port]; rfl, by rw [port], State.setActive_width common, by rw [port]; rfl, by rw [port]; rfl,
    by rw [port]; rfl, fun i inside => ?_⟩
  rw [port]
  exact (s.port p).credits_initialised s.mono common alloc adapted inside

/-! ### Windows of corrected symbols (R287, R308) -/

/-- A port with a group's window closed. -/
def PortSt.closeWindow (q : PortSt) (g : Nat) : PortSt := { q with symbols := q.symbols.put g 0 0, windows := q.windows.put g 0 0 }

theorem PortSt.noWindow_closeWindow (q : PortSt) (g : Nat) : (q.closeWindow g).NoWindow g :=
  ⟨Tbl.look_put_same q.windows g 0 0, Tbl.look_put_same q.symbols g 0 0⟩

theorem exec_fecWindowCheck {group : Fin 8} {since : Nat} (window : (s.port port.val).windows.look group.val 0 = since + 1) (late : since + 1000000 ≤ s.mono)
    (link : s.fabLink port.val = true) : let t := s.mapPort port.val (fun q => q.closeWindow group.val)
    exec (.fecWindowCheck port group) s = .next (if 2 ^ (s.pfld port.val fPortCtrlBerLimit + 6) < (s.port port.val).symbols.look group.val 0
      then t.startRetrain port.val group.val else t) := by
  show execFecWindowCheck port group s = _
  have ends : ¬s.mono < since + 1 - 1 + 1000000 := by omega
  simp only [execFecWindowCheck, window, link, ends, Nat.add_one_ne_zero, Bool.not_true, decide_false, Bool.or_self, Bool.false_eq_true, if_false]
  split
  next high => exact (congrArg Host.Outcome.next (if_pos high)).symm
  next low => exact (congrArg Host.Outcome.next (if_neg low)).symm

/-- The end of a window: past the limit the group is to leave, or leaves where both ends have asked; otherwise the port keeps its groups (R287). -/
theorem State.windowEnds_spec {g : Nat} (idle : (s.port p).resetAt = none) (link : s.fabLink p = true) : let q := s.port p
    let closed := s.mapPort p (fun q => q.closeWindow g)
    let t := if 2 ^ (s.pfld p fPortCtrlBerLimit + 6) < q.symbols.look g 0 then closed.startRetrain p g else closed
    let past : Prop := 2 ^ (s.pfld p fPortCtrlBerLimit + 6) < q.symbols.look g 0 ∧ g ∈ s.goodGroups p ∧ g ∉ q.leaving
    (t.port p).windows.look g 0 = 0 ∧ (t.port p).symbols.look g 0 = 0 ∧
    (past → q.heard = false → (t.port p).leaving = q.leaving ++ [g] ∧ (t.port p).retrain = q.retrain ∧ t.portState p = s.portState p) ∧
    (past → q.heard = true → q.asked = true → (t.port p).leaving = [] ∧ (t.port p).retrain.look g 0 = s.mono + 1) ∧
    (q.symbols.look g 0 ≤ 2 ^ (s.pfld p fPortCtrlBerLimit + 6) → (t.port p).retrain = q.retrain ∧ (t.port p).leaving = q.leaving ∧ t.rim = s.rim) := by
  intro q closed
  have port : closed.port p = q.closeWindow g := s.port_mapPort_same p _
  have quiet : (closed.port p).NoWindow g := port ▸ q.noWindow_closeWindow g
  have groups : closed.goodGroups p = s.goodGroups p := State.goodGroups_congr rfl (by rw [port]; rfl) (by rw [port]; rfl)
  have linked : closed.fabLink p = true := by
    rw [← link, State.fabLink, port]
    rfl
  by_cases high : 2 ^ (s.pfld p fPortCtrlBerLimit + 6) < q.symbols.look g 0
  · simp only [if_pos high]
    by_cases retrains : g ∈ closed.goodGroups p ∧ g ∉ (closed.port p).leaving
    · obtain ⟨windows, alone, both⟩ := State.startRetrain_spec (s := closed) (by rw [port]; exact idle) linked retrains.1 retrains.2
      rw [port] at alone both
      exact ⟨(windows quiet).1, (windows quiet).2, fun _ => alone, fun _ => both, fun low => absurd high (Nat.not_lt.mpr low)⟩
    · have stays : closed.startRetrain p g = closed := by
        rw [State.startRetrain, if_neg (by simpa [linked] using retrains)]
      rw [groups, port] at retrains
      rw [stays]
      exact ⟨quiet.1, quiet.2, fun past => absurd past.2 retrains, fun past => absurd past.2 retrains, fun low => absurd high (Nat.not_lt.mpr low)⟩
  · simp only [if_neg high]
    refine ⟨quiet.1, quiet.2, fun past => absurd past.1 high, fun past => absurd past.1 high, fun _ => ?_⟩
    rw [port]
    exact ⟨rfl, rfl, rfl⟩

/-! ### Groups that have retrained, and that have not (R287) -/

section
variable {group : Fin 8} (up : s.dev = .up) (retraining : (s.port port.val).retrain.look group.val 0 ≠ 0) (waits : group.val ∉ (s.port port.val).coming)
include up retraining waits

theorem exec_groupRetrainComplete : exec (.groupRetrainComplete port group) s =
    .next (if (s.port port.val).active = [] then (s.mapPort port.val (fun q => { q with retrain := q.retrain.put group.val 0 0 })).rewidth port.val
      else ((s.mapPort port.val (fun q => { q with coming := q.coming ++ [group.val] })).speak port.val).agree port.val) := by
  show execGroupRetrainComplete port group s = _
  simp only [execGroupRetrainComplete, up, bne_self_eq_false, Bool.false_eq_true, if_false, retraining, List.contains_eq_mem, waits, decide_false, Bool.or_self,
    List.isEmpty_iff]
  split <;> rfl

theorem exec_groupRetrainTimeout (late : (s.port port.val).retrain.look group.val 0 + 50000000 ≤ s.mono + 1) :
    exec (.groupRetrainTimeout port group) s =
      .next (((s.mapPort port.val (fun q => { q with retrain := q.retrain.put group.val 0 0 })).failGroup port.val group.val).rewidth port.val) := by
  show execGroupRetrainTimeout port group s = _
  have past : ¬s.mono < (s.port port.val).retrain.look group.val 0 - 1 + 50000000 := by omega
  simp only [execGroupRetrainTimeout, up, bne_self_eq_false, Bool.false_eq_true, if_false, retraining, List.contains_eq_mem, waits, decide_false, Bool.or_self, past]

end

section
variable {g : Nat} (idle : (s.port p).resetAt = none)
include idle

/-- A link without a group in use takes one that is good again at once. -/
theorem State.returnAtOnce_retrain : (((s.mapPort p (fun q => { q with retrain := q.retrain.put g 0 0 })).rewidth p).port p).retrain.look g 0 = 0 := by
  generalize back : s.mapPort p (fun q => { q with retrain := q.retrain.put g 0 0 }) = u
  have port : u.port p = { s.port p with retrain := (s.port p).retrain.put g 0 0 } := by rw [← back, State.port_mapPort_same]
  rw [(State.rewidth_port (s := u) (p := p) (by rw [port]; exact idle)).1, port]
  exact Tbl.look_put_same (s.port p).retrain g 0 0

/-- A group that is good again comes back where both ends have asked, and waits where the partner has not. -/
theorem State.returnGroup_spec (retraining : (s.port p).retrain.look g 0 ≠ 0) :
    let t := ((s.mapPort p (fun q => { q with coming := q.coming ++ [g] })).speak p).agree p
    ((s.port p).heard = true → (s.port p).asked = true → (t.port p).retrain.look g 0 = 0) ∧
    ((s.port p).heard = false → (t.port p).coming = (s.port p).coming ++ [g] ∧ (t.port p).retrain = (s.port p).retrain) := by
  generalize marked : s.mapPort p (fun q => { q with coming := q.coming ++ [g] }) = u
  have port : u.port p = { s.port p with coming := (s.port p).coming ++ [g] } := by rw [← marked, State.port_mapPort_same]
  have spoken := u.speak_transmits (p := p) (by rw [port]; exact idle)
  have coming : ((u.speak p).port p).coming = (s.port p).coming ++ [g] := by rw [spoken.kept (·.coming), port]
  have retrain : ((u.speak p).port p).retrain = (s.port p).retrain := by rw [spoken.kept (·.retrain), port]
  refine ⟨fun heard asked => ?_, fun alone => ?_⟩
  · obtain ⟨-, -, groups⟩ := State.agree_port (s := u.speak p) (p := p) (spoken.asked (by rw [port]; exact asked))
      (by rw [spoken.kept (·.heard), port]; exact heard) (by rw [spoken.kept (·.resetAt), port, idle])
    have bad : g ∉ (u.speak p).goodGroups p := fun good => retraining (retrain ▸ (State.mem_goodGroups.mp good).2.2)
    rw [groups, if_neg fun both => bad both.2, coming]
    exact Tbl.look_clear_same _ (by simp) 0
  · rw [State.agree_alone (by rw [spoken.kept (·.heard), port]; exact alone)]
    exact ⟨coming, retrain⟩

/-- A group that has not come back fails, and a link with another good group stays up without it. -/
theorem State.retrainFails_spec (inside : g < 8) (retraining : (s.port p).retrain.look g 0 ≠ 0) (others : s.goodGroups p ≠ []) :
    let t := ((s.mapPort p (fun q => { q with retrain := q.retrain.put g 0 0 })).failGroup p g).rewidth p
    (t.port p).retrain = (s.port p).retrain.put g 0 0 ∧ (t.pfld p fPortStatusGroupsFailed).testBit g = true ∧
    ((s.port p).linked = true → (s.port p).greeted = true → (s.port p).helloTx ≠ 0 →
      t.portState p = (if ((s.port p).retrain.put g 0 0).isEmpty then 3 else 4)) := by
  generalize ended : s.mapPort p (fun q => { q with retrain := q.retrain.put g 0 0 }) = v
  generalize failing : v.failGroup p g = u
  have port : u.port p = { s.port p with retrain := (s.port p).retrain.put g 0 0 } := by
    rw [← failing, State.failGroup, State.port_setP, ← ended, State.port_mapPort_same]
  have groups : v.failedGroups p = s.failedGroups p := State.failedGroups_congr (by rw [← ended, State.pfld_mapPort])
  have failed : (u.pfld p fPortStatusGroupsFailed).testBit g = true := by
    rw [← failing, State.failGroup_testBit]
    simp [inside]
  have stillGood : u.goodGroups p ≠ [] := by
    obtain ⟨x, good⟩ := List.exists_mem_of_ne_nil _ others
    obtain ⟨trained, sound, steady⟩ := State.mem_goodGroups.mp good
    have other : x ≠ g := fun same => retraining (same ▸ steady)
    refine List.ne_nil_of_mem (a := x) (State.mem_goodGroups.mpr ⟨by rw [port]; exact trained, ?_, ?_⟩)
    · rw [← failing, State.mem_failedGroups_failGroup inside, groups]
      exact fun gone => gone.elim other sound
    · rw [port]
      exact (Tbl.look_put_ne _ other 0 0 0).trans steady
  have width := (State.rewidth_cases (s := u) (p := p) (by rw [port]; exact idle)).resolve_left fun dead => stillGood dead.1
  have active := u.setActive_port p (widestOf (u.goodGroups p))
  rw [port] at active
  refine ⟨?_, ?_, fun linked greeted said => ?_⟩
  · rw [width.kept (·.retrain), State.settleUp_port, active]
  · rw [width.pfld (by decide), State.pfld_settleUp (by decide), State.pfld_setActive _ p _ (by decide), failed]
  · have settled := State.settleUp_state (s := u.setActive p (widestOf (u.goodGroups p))) (p := p) (by rw [active]; exact linked) (by rw [active]; exact greeted)
      (by rw [active]; exact said) (by rw [active]; exact idle)
    rw [active] at settled
    exact (width.pfld (by decide)).trans settled

end
end

/-- Settles O46: each row by what it makes of the groups of the port. -/
theorem portTraining : Obligations.PortTraining := by
  unfold Obligations.PortTraining
  intro port s p q
  refine ⟨?_, ?_, ?_, ?_⟩
  · intro group stage up fabric training down good late
    exact ⟨_, exec_laneGroupTrainingTimeout up fabric training down good late, State.lateGroup_spec group.isLt good training⟩
  · intro good peer alloc adapted common up fabric training down
    by_cases apart : common = []
    · exact ⟨_, exec_linkInitComplete_fails up fabric training down apart, fun _ => s.failPort_spec p, fun any => absurd apart any⟩
    · have linked := State.initialised_spec (s := s) (p := p) common alloc adapted
      rw [training] at linked
      exact ⟨_, exec_linkInitComplete_links up fabric training down rfl apart, fun empty => absurd empty apart, fun _ => linked⟩
  · intro group since g past window late link idle
    exact ⟨_, exec_fecWindowCheck window late link, State.windowEnds_spec idle link⟩
  · intro group g up retraining idle waits
    refine ⟨⟨_, exec_groupRetrainComplete up retraining waits, ?_⟩, fun others late =>
      ⟨_, exec_groupRetrainTimeout up retraining waits late, State.retrainFails_spec idle group.isLt retraining others⟩⟩
    by_cases unused : q.active = []
    · rw [if_pos unused]
      exact ⟨fun _ => State.returnAtOnce_retrain idle, fun used => absurd unused used⟩
    · obtain ⟨both, alone⟩ := State.returnGroup_spec idle retraining
      rw [if_neg unused]
      exact ⟨fun agreed => agreed.elim (fun empty => absurd empty unused) fun said => both said.1 said.2, fun _ => alone⟩

end Sys2Proof.Machine

/-! SUPPORT. Fabric packets on their way: what leaves a port's receive buffer, what goes on to a gateway or is delivered over the mesh, the exchange of a waiting packet with
its gateway, and the rows of the fabric's traffic. -/

namespace Sys2Proof.Machine

/-! ## A packet leaves its receive buffer -/

section
variable {s : State} {p idx : Nat} {x : FabPkt}

theorem State.bump_fld (s : State) {f : Fld} (whole : f.lo = 0 ∧ f.width = 64) : (s.bump f 1).fld f = (s.fld f + 1) % 2 ^ 64 :=
  (State.fld_setFld_same s f _ (by omega)).trans (by rw [whole.2])

theorem State.takeArrived_arrived : ((s.takeArrived p idx x).port p).arrived = (s.port p).arrived.eraseIdx idx := by
  rw [State.takeArrived, State.port_mapPort_same]
  rfl

theorem State.takeArrived_rim : (s.takeArrived p idx x).rim = s.rim := rfl

/-- `t` is `s` without the packet at a place of a port's receive buffer, and with one more in a counter. -/
structure State.Discards (p idx : Nat) (f : Fld) (s t : State) : Prop where
  count : t.fld f = (s.fld f + 1) % 2 ^ 64
  arrived : (t.port p).arrived = (s.port p).arrived.eraseIdx idx
  fabWait : t.fabWait = s.fabWait

theorem State.takeArrived_bump {f : Fld} (whole : f.lo = 0 ∧ f.width = 64) : State.Discards p idx f s ((s.takeArrived p idx x).bump f 1) := by
  refine ⟨?_, s.takeArrived_arrived, rfl⟩
  rw [State.bump_fld _ whole, State.fld_of_rim s.takeArrived_rim]

/-! ## A packet goes on (R293, R312) -/

theorem State.forward_spent {q : Nat} {c : Bool} (spent : s.fld fFabCtrlHopLimit < x.hops + 1) :
    State.Discards p idx fFabHopDropCount s (s.forward p idx x q c) := by
  rw [State.forward, if_pos spent]
  exact State.takeArrived_bump ⟨rfl, rfl⟩

theorem State.forward_waits {q : Nat} {c : Bool} (left : x.hops + 1 ≤ s.fld fFabCtrlHopLimit) : let t := s.forward p idx x q c
    t.fld fFabTransitCount = (s.fld fFabTransitCount + 1) % 2 ^ 64 ∧ (t.port p).arrived = (s.port p).arrived.eraseIdx idx ∧
    t.fabWait = s.fabWait ++ [⟨x, p, q, c, 0, s.mono, s.fabTag⟩] := by
  rw [State.forward, if_neg (Nat.not_lt.mpr left)]
  refine ⟨?_, ?_, ?_⟩
  · exact (s.mapPort p (fun z => z.takeOut idx)).bump_fld ⟨rfl, rfl⟩
  · exact congrArg PortSt.arrived (s.port_mapPort_same p (fun z => z.takeOut idx))
  · simp only [State.await, State.bump, State.setFld_frame, State.mapPort_frame]

/-! ## Delivery (R312 to R314) -/

theorem State.physical_takeArrived (a b : Nat) : (s.takeArrived p idx x).physical a b = s.physical a b := by
  simp only [State.physical, State.fld_of_rim s.takeArrived_rim]

theorem State.rgn_takeArrived (r : Nat) (f : Fld) : (s.takeArrived p idx x).rgn r f = s.rgn r f := State.rgn_of_rim s.takeArrived_rim r f

theorem State.env_takeArrived (i : Nat) : (s.takeArrived p idx x).env i = s.env i := rfl

theorem State.farWay_takeArrived (operand : Nat) : (s.takeArrived p idx x).farWay p x operand = s.farWay p x operand := by
  simp only [State.farWay, State.regionEnv, State.physical_takeArrived, State.rgn_takeArrived, State.env_takeArrived]

theorem State.classFits_takeArrived (i : Nat) : (s.takeArrived p idx x).classFits x i = s.classFits x i := rfl

/-- A far operation joins those that have come where its flits cross the mesh to its unit. -/
theorem State.deliverHere_lig {sig : Bool} {operand tag binding pc : Nat} (body : x.body = .lig sig operand tag binding pc) :
    let w := s.cross (s.physical (s.farWay p x operand).2.1 (s.farWay p x operand).2.2) x.flits 0 4 4 (xFirst (s.farWay p x operand).1 (s.farWay p x operand).2)
    let t := s.deliverHere p x
    t.ports = s.ports ∧ t.farOps = (if w.1.ok then s.farOps ++ [⟨x.dstRegion, x.gen, sig, operand, x.injectUs, binding, pc⟩] else s.farOps) := by
  intro w
  have crossed : s.OnlyUnits w.2 := State.cross_onlyUnits ..
  have units : w.2.ports = s.ports ∧ w.2.farOps = s.farOps := by
    rw [State.OnlyUnits] at crossed
    rw [crossed]
    exact ⟨rfl, rfl⟩
  have delivered : s.deliverHere p x = if w.1.ok then { w.2 with farOps := w.2.farOps ++ [⟨x.dstRegion, x.gen, sig, operand, x.injectUs, binding, pc⟩] } else w.2 := by
    simp only [State.deliverHere, body]
    rfl
  rw [delivered]
  split
  · exact ⟨units.1, congrArg (· ++ _) units.2⟩
  · exact units

section
variable {b : Body} (body : x.body = .channel b)
  (inX : 6 * s.rgn x.dstRegion fRgnCfgCx0 + x.x < 72) (inY : 8 * s.rgn x.dstRegion fRgnCfgCy0 + x.y < 96)
include body inX inY

theorem State.deliverHere_misfit
    (misfit : s.classFits x (s.physical (6 * s.rgn x.dstRegion fRgnCfgCx0 + x.x) (8 * s.rgn x.dstRegion fRgnCfgCy0 + x.y)) = false) :
    s.deliverHere p x = s.bump fFabClassDropCount 1 := by
  simp only [State.deliverHere, body]
  rw [if_neg (by simp only [Bool.or_eq_true, decide_eq_true_eq]; omega), if_pos (by rw [misfit]; rfl)]

theorem State.deliverHere_enters (port : p < 16)
    (fits : s.classFits x (s.physical (6 * s.rgn x.dstRegion fRgnCfgCx0 + x.x) (8 * s.rgn x.dstRegion fRgnCfgCy0 + x.y)) = true) :
    let goal : Nat × Nat := (6 * s.rgn x.dstRegion fRgnCfgCx0 + x.x, 8 * s.rgn x.dstRegion fRgnCfgCy0 + x.y)
    let t := s.deliverHere p x
    t.ports = s.ports ∧ ∃ g : Packet, t.mesh = s.mesh ++ [g] ∧ g.vc = 3 ∧ g.body = b ∧ g.region = x.dstRegion ∧ g.gen = x.gen ∧
      g.path = xFirst (attach p goal) goal ∧ g.flits = List.replicate x.flits 0 := by
  intro goal
  simp only [State.deliverHere, body]
  rw [if_neg (by simp only [Bool.or_eq_true, decide_eq_true_eq]; omega), if_neg (by rw [fits]; decide), if_pos port]
  exact ⟨rfl, _, rfl, rfl, rfl, rfl, rfl, rfl, rfl⟩

end
end

section
variable {s : State} {p idx : Nat} {x : FabPkt}

theorem State.arrived_of_ports {t : State} (same : t.ports = (s.takeArrived p idx x).ports) : (t.port p).arrived = (s.port p).arrived.eraseIdx idx :=
  (congrArg (fun u : Tbl PortSt => (u.look p portNew).arrived) same).trans s.takeArrived_arrived

/-- A far operation taken out of its receive buffer and delivered. -/
theorem State.delivered_lig {sig : Bool} {operand tag binding pc : Nat} (body : x.body = .lig sig operand tag binding pc) :
    let way := s.farWay p x operand
    let crosses := ((s.takeArrived p idx x).cross (s.physical way.2.1 way.2.2) x.flits 0 4 4 (xFirst way.1 way.2)).1.ok
    let t := (s.takeArrived p idx x).deliverHere p x
    (t.port p).arrived = (s.port p).arrived.eraseIdx idx ∧
    t.farOps = (if crosses then s.farOps ++ [⟨x.dstRegion, x.gen, sig, operand, x.injectUs, binding, pc⟩] else s.farOps) := by
  obtain ⟨kept, ops⟩ := State.deliverHere_lig (s := s.takeArrived p idx x) (p := p) body
  rw [State.farWay_takeArrived, State.physical_takeArrived] at ops
  exact ⟨State.arrived_of_ports kept, ops⟩

/-- A channel's packet taken out of its receive buffer: discarded where its class does not fit its target, and otherwise on its way over the mesh. -/
theorem State.delivered_channel {b : Body} (port : p < 16) (body : x.body = .channel b) :
    let goal : Nat × Nat := (6 * s.rgn x.dstRegion fRgnCfgCx0 + x.x, 8 * s.rgn x.dstRegion fRgnCfgCy0 + x.y)
    let t := (s.takeArrived p idx x).deliverHere p x
    goal.1 < 72 → goal.2 < 96 → (t.port p).arrived = (s.port p).arrived.eraseIdx idx ∧
      (s.classFits x (s.physical goal.1 goal.2) = false → t.fld fFabClassDropCount = (s.fld fFabClassDropCount + 1) % 2 ^ 64 ∧ t.mesh = s.mesh) ∧
      (s.classFits x (s.physical goal.1 goal.2) = true → ∃ g : Packet, t.mesh = s.mesh ++ [g] ∧ g.vc = 3 ∧ g.body = b ∧ g.region = x.dstRegion ∧ g.gen = x.gen ∧
        g.path = xFirst (attach p goal) goal ∧ g.flits = List.replicate x.flits 0) := by
  intro goal t inX inY
  have same : (s.takeArrived p idx x).classFits x ((s.takeArrived p idx x).physical goal.1 goal.2) = s.classFits x (s.physical goal.1 goal.2) := by
    rw [State.classFits_takeArrived, State.physical_takeArrived]
  cases fits : s.classFits x (s.physical goal.1 goal.2) with
  | false =>
    have misfit : t = _ := State.deliverHere_misfit body inX inY (same.trans fits)
    rw [misfit]
    exact ⟨s.takeArrived_arrived, fun _ => ⟨(s.takeArrived p idx x).bump_fld ⟨rfl, rfl⟩, rfl⟩, nofun⟩
  | true =>
    obtain ⟨kept, sent⟩ := State.deliverHere_enters (s := s.takeArrived p idx x) body inX inY port (same.trans fits)
    exact ⟨State.arrived_of_ports kept, nofun, fun _ => sent⟩

end

/-! ## Arrival at a port (R312, R316, R317) -/

/-- What a port makes of the packet at a place of its receive buffer by where it goes next. -/
def State.takeHop (s : State) (p idx : Nat) (x : FabPkt) (h : Hop) : State :=
  match h with
  | .unreachable => (s.takeArrived p idx x).bump fFabUnreachCount 1
  | .disorder => (s.takeArrived p idx x).bump fFabOrderDropCount 1
  | .out q c => s.forward p idx x q c
  | .here => if s.readWaits p x then s else (s.takeArrived p idx x).deliverHere p x

section
variable {port : Fin 16} {idx : Nat} {x : FabPkt} {s : State} (up : s.dev = .up) (here : (s.port port.val).arrived[idx]? = some x)
  (first : s.firstOf port.val idx x = true)
include up here first

section
variable (data : x.cls ≠ 0) (plain : x.cls ≠ 5)
include data plain

theorem exec_fabricPacketArrival_old (old : s.tooOld x.injectUs = true) :
    exec (.fabricPacketArrival port idx) s = .next (s.takeArrived port.val idx x).ageDrop := by
  show execFabricPacketArrival port idx s = _
  simp [execFabricPacketArrival, up, here, first, data, plain, old]

theorem exec_fabricPacketArrival_young (young : s.tooOld x.injectUs = false) :
    exec (.fabricPacketArrival port idx) s = .next (s.takeHop port.val idx x (s.nextHop port.val x)) := by
  show execFabricPacketArrival port idx s = _
  simp only [execFabricPacketArrival, up, here, first, data, plain, young, bne_self_eq_false, decide_false, Bool.or_self, Bool.not_true, Bool.false_eq_true,
    if_false]
  cases s.nextHop port.val x with
  | here =>
    simp only [State.takeHop]
    split <;> rfl
  | out q c => rfl
  | unreachable => rfl
  | disorder => rfl

end

/-! ### Escape packets (R321 to R323) -/

section
variable (escape : x.cls = 0) (noHello : x.kind ≠ 9) (young : s.tooOld x.injectUs = false)
include escape noHello young

theorem exec_escapePacketArrival_routeless (routeless : x.route = []) :
    exec (.escapePacketArrival port idx) s = .next ((s.takeArrived port.val idx x).bump fFabEscDropCount 1) := by
  show execEscapePacketArrival port idx s = _
  simp [execEscapePacketArrival, up, here, first, escape, noHello, young, routeless]

theorem exec_escapePacketArrival_end (routed : x.route ≠ []) (short : x.route.length ≤ 24) (ends : x.routeIdx = x.route.length) :
    exec (.escapePacketArrival port idx) s = .next ((s.takeArrived port.val idx x).escapeHere x) := by
  show execEscapePacketArrival port idx s = _
  simp [execEscapePacketArrival, up, here, first, escape, noHello, young, routed, ends, Nat.not_lt.mpr short]

theorem exec_escapePacketArrival_hop {q : Nat} (short : x.route.length ≤ 24) (next : x.route[x.routeIdx]? = some q) :
    exec (.escapePacketArrival port idx) s =
      .next (if ((s.fld fFabEscDirUp).testBit q && x.downTaken || !s.fabUp q) = true then (s.takeArrived port.val idx x).bump fFabEscDropCount 1
        else s.forward port.val idx { x with routeIdx := x.routeIdx + 1, downTaken := x.downTaken || !(s.fld fFabEscDirUp).testBit q } q false) := by
  show execEscapePacketArrival port idx s = _
  have inside : x.routeIdx < x.route.length := (List.getElem?_eq_some_iff.mp next).1
  have routed : x.route.isEmpty = false := List.isEmpty_eq_false_iff.mpr (List.ne_nil_of_length_pos (Nat.zero_lt_of_lt inside))
  simp only [execEscapePacketArrival, up, here, first, escape, noHello, young, next, bne_self_eq_false, routed, Nat.not_lt.mpr short,
    Nat.not_lt_of_lt inside, decide_false, Bool.or_self, Bool.not_true, Bool.false_eq_true, if_false]
  split <;> rfl

end
end

theorem State.escapeHere_takes {s : State} {x : FabPkt} (room : s.scribe.escape.foldl (fun n y => n + 128 * y.flits) (128 * x.flits) ≤ 8388608) :
    (s.escapeHere x).scribe.escape = s.scribe.escape ++ [x] ∧ (s.escapeHere x).ports = s.ports := by
  rw [State.escapeHere, if_neg (Nat.not_lt.mpr room)]
  exact ⟨rfl, rfl⟩

/-! ## The exchange with a gateway (R293, R320) -/

theorem State.gateSend_spec (s : State) (x : FabWait) (kind n : Nat) : (s.gateSend x kind n).fabWait = s.fabWait ∧
    ∃ g : Packet, (s.gateSend x kind n).mesh = s.mesh ++ [g] ∧ g.body = .gate kind x.tag ∧ g.flits = List.replicate n 0 :=
  ⟨rfl, _, rfl, rfl, rfl⟩

/-- A reservation leaves as one flit. -/
theorem State.reserve_spec (s : State) (idx : Nat) (x : FabWait) : (s.reserve idx x).fabWait = s.fabWait.set idx { x with stage := 5 } ∧
    ∃ g : Packet, (s.reserve idx x).mesh = s.mesh ++ [g] ∧ g.body = .gate 0 x.tag ∧ g.flits = [0] :=
  State.gateSend_spec { s with fabWait := s.fabWait.set idx { x with stage := 5 } } x 0 1

theorem State.escapeOut_goes {s : State} {idx : Nat} {x : FabWait} {q : Nat} (first : x.pkt.route[0]? = some q) (short : x.pkt.route.length ≤ 24) (link : s.fabUp q = true) :
    s.escapeOut idx x = s.reserve idx { x with port := q, pkt := { x.pkt with routeIdx := 1, downTaken := !(s.fld fFabEscDirUp).testBit q } } := by
  simp [State.escapeOut, first, Nat.not_lt.mpr short, link]

theorem State.escapeOut_routeless {s : State} {idx : Nat} {x : FabWait} (routeless : x.pkt.route = []) :
    s.escapeOut idx x = { s with fabWait := s.fabWait.eraseIdx idx }.bump fFabEscDropCount 1 := by
  simp [State.escapeOut, routeless]

section
variable {idx : Nat} {x : FabWait} {s : State} (waits : s.fabWait[idx]? = some x) (up : s.dev = .up)
include waits up

section
variable (unmade : x.stage = 0)
include unmade

theorem exec_gatewayReservation_transit (routed : x.port < 16) : exec (.gatewayReservation idx) s = .next (s.reserve idx x) := by
  show execGatewayReservation idx s = _
  simp [execGatewayReservation, waits, up, unmade, routed]

section
variable (source : 16 ≤ x.port)
include source

theorem exec_gatewayReservation_unreachable (data : x.pkt.cls ≠ 0) (lost : s.nextHop 16 x.pkt = .unreachable) :
    exec (.gatewayReservation idx) s = .next ({ s with fabWait := s.fabWait.eraseIdx idx }.bump fFabUnreachCount 1) := by
  show execGatewayReservation idx s = _
  simp [execGatewayReservation, waits, up, unmade, Nat.not_lt.mpr source, data, lost]

theorem exec_gatewayReservation_out (data : x.pkt.cls ≠ 0) {q : Nat} {c : Bool} (out : s.nextHop 16 x.pkt = .out q c) :
    exec (.gatewayReservation idx) s = .next (s.reserve idx { x with port := q, continues := c }) := by
  show execGatewayReservation idx s = _
  simp [execGatewayReservation, waits, up, unmade, Nat.not_lt.mpr source, data, out]

theorem exec_gatewayReservation_escape (escape : x.pkt.cls = 0) : exec (.gatewayReservation idx) s = .next (s.escapeOut idx x) := by
  show execGatewayReservation idx s = _
  simp [execGatewayReservation, waits, up, unmade, Nat.not_lt.mpr source, escape]

end
end

section
variable {k : Nat} (onWay : x.stage = 5) (came : s.mesh.findIdx? (fun p => decide (p.body = .gate 0 x.tag) && p.atEnd) = some k)
include onWay came

/-- A reservation that finds the queue full, or a block reset begun, is answered by a retry. -/
theorem exec_gatewayReservation_full (full : 256 ≤ s.queued x ∨ (s.port x.port).resetAt ≠ none) : exec (.gatewayReservation idx) s =
    .next ({ s.dropPacket k with fabWait := s.fabWait.set idx { x with stage := 9 } }.gateSend x 2 1) := by
  have refuses : (decide (256 ≤ (s.dropPacket k).queued x) || ((s.dropPacket k).port x.port).resetAt.isSome) = true := by
    rw [Bool.or_eq_true, decide_eq_true_eq, Option.isSome_iff_ne_none]
    exact full
  show execGatewayReservation idx s = _
  simp only [execGatewayReservation, waits, up, onWay, came, refuses, bne_self_eq_false, Bool.false_eq_true, if_false, if_true]
  rfl

theorem exec_gatewayReservation_room (room : ¬(256 ≤ s.queued x ∨ (s.port x.port).resetAt ≠ none)) : exec (.gatewayReservation idx) s =
    .next { s.dropPacket k with fabWait := s.fabWait.eraseIdx idx ++ [{ x with stage := 1, since := s.mono }] } := by
  have takes : (decide (256 ≤ (s.dropPacket k).queued x) || ((s.dropPacket k).port x.port).resetAt.isSome) = false := by
    rw [← Bool.not_eq_true, Bool.or_eq_true, decide_eq_true_eq, Option.isSome_iff_ne_none]
    exact room
  show execGatewayReservation idx s = _
  simp only [execGatewayReservation, waits, up, onWay, came, takes, bne_self_eq_false, Bool.false_eq_true, if_false]
  rfl

end

theorem exec_enteringPromotion (queued : x.stage = 1) (entering : x.continues = false) (data : x.pkt.cls ≠ 0) (plain : x.pkt.cls ≠ 5)
    (ages : s.fld fFabCtrlPromoteAge ≠ 0) (due : x.since + 1000 * s.fld fFabCtrlPromoteAge ≤ s.mono) : exec (.enteringPromotion idx) s =
      .next ({ s with fabWait := s.fabWait.set idx { x with stage := 3 } }.bump fFabPromotedCount 1) := by
  show execEnteringPromotion idx s = _
  simp [execEnteringPromotion, waits, up, queued, entering, data, plain, ages, due]

end

/-- A read unit that came back presented again: at its source, none of its flits ahead. -/
def State.represent (s : State) (p idx : Nat) (x : Packet) : State :=
  { s.mapPort p (fun q => { q with units := q.units.eraseIdx idx }) with mesh := s.mesh ++ [{ x with flits := List.replicate x.flits.length 0, copy := false }] }

theorem State.represent_units (s : State) (p idx : Nat) (x : Packet) : ((s.represent p idx x).port p).units = (s.port p).units.eraseIdx idx :=
  congrArg PortSt.units (s.port_mapPort_same p (fun q => { q with units := q.units.eraseIdx idx }))

theorem exec_gatewayReadRepresent {port : Fin 16} {idx : Nat} {x : Packet} {since : Nat} {s : State}
    (kept : (s.port port.val).units[idx]? = some (x, since)) (up : s.dev = .up) (due : since + 1000 ≤ s.mono) :
    exec (.gatewayReadRepresent port idx) s = .next (s.represent port.val idx x) := by
  show execGatewayReadRepresent port idx s = _
  simp only [execGatewayReadRepresent, kept, up, due, decide_true, Bool.and_self, if_true]
  rfl

/-- Settles O48: an arrival by where its packet goes next, a waiting packet by how its reservation stands, and a read unit by its time. -/
theorem fabricRouting : Obligations.FabricRouting := by
  unfold Obligations.FabricRouting
  refine ⟨?_, ?_, ?_⟩
  · intro port idx x s p rest counted up here first
    have discarded {f : Fld} {t : State} (h : State.Discards p idx f s t) : counted f t := ⟨h.count, h.arrived, h.fabWait⟩
    refine ⟨fun data plain => ⟨fun old => ?_, fun young => ?_⟩, fun escape noHello young => ⟨?_, ?_, ?_⟩⟩
    · exact ⟨_, exec_fabricPacketArrival_old up here first data plain old, discarded (State.takeArrived_bump ⟨rfl, rfl⟩)⟩
    · have row := exec_fabricPacketArrival_young up here first data plain young
      refine ⟨?_, ?_, ?_, ?_, ?_, ?_, ?_⟩
      · intro lost
        rw [lost] at row
        exact ⟨_, row, discarded (State.takeArrived_bump ⟨rfl, rfl⟩)⟩
      · intro disordered
        rw [disordered] at row
        exact ⟨_, row, discarded (State.takeArrived_bump ⟨rfl, rfl⟩)⟩
      · intro q c out spent
        rw [out] at row
        exact ⟨_, row, discarded (State.forward_spent spent)⟩
      · intro q c out left
        rw [out] at row
        exact ⟨_, row, State.forward_waits left⟩
      · intro own waits
        rw [own, State.takeHop, if_pos waits] at row
        exact row
      · intro sig operand tag binding pc own goes body way crosses
        rw [own, State.takeHop, if_neg (by rw [goes]; decide)] at row
        exact ⟨_, row, State.delivered_lig body⟩
      · intro b own goes body goal inX inY
        rw [own, State.takeHop, if_neg (by rw [goes]; decide)] at row
        exact ⟨_, row, State.delivered_channel port.isLt body inX inY⟩
    · intro routeless
      exact ⟨_, exec_escapePacketArrival_routeless up here first escape noHello young routeless, discarded (State.takeArrived_bump ⟨rfl, rfl⟩)⟩
    · intro routed short ends room
      obtain ⟨taken, kept⟩ := State.escapeHere_takes (s := s.takeArrived p idx x) room
      exact ⟨_, exec_escapePacketArrival_end up here first escape noHello young routed short ends, taken, State.arrived_of_ports kept⟩
    · intro q short next upward
      have row := exec_escapePacketArrival_hop up here first escape noHello young short next
      refine ⟨fun cut => ?_, fun way link left => ?_⟩
      · rw [if_pos (by simpa using cut)] at row
        exact ⟨_, row, discarded (State.takeArrived_bump ⟨rfl, rfl⟩)⟩
      · rw [if_neg (by simpa [link] using way)] at row
        exact ⟨_, row, (State.forward_waits (s := s) (p := p) (idx := idx) (x := { x with routeIdx := x.routeIdx + 1, downTaken := x.downTaken || !upward })
          left).2.2⟩
  · intro idx x s waits up
    refine ⟨?_, ?_, ?_⟩
    · intro unmade sent
      refine ⟨fun routed => ?_, fun source data => ⟨fun lost => ?_, fun q c out => ?_⟩, fun source escape => ?_⟩
      · exact ⟨_, exec_gatewayReservation_transit waits up unmade routed, s.reserve_spec idx x⟩
      · exact ⟨_, exec_gatewayReservation_unreachable waits up unmade source data lost, rfl, State.bump_fld _ ⟨rfl, rfl⟩⟩
      · exact ⟨_, exec_gatewayReservation_out waits up unmade source data out, s.reserve_spec idx _⟩
      · have row := exec_gatewayReservation_escape waits up unmade source escape
        refine ⟨fun q next short link => ?_, fun routeless => ?_⟩
        · rw [State.escapeOut_goes next short link] at row
          exact ⟨_, row, s.reserve_spec idx _⟩
        · rw [State.escapeOut_routeless routeless] at row
          exact ⟨_, row, rfl, State.bump_fld _ ⟨rfl, rfl⟩⟩
    · intro k onWay came full
      by_cases stopped : full
      · exact ⟨_, exec_gatewayReservation_full waits up onWay came stopped, fun _ => ⟨rfl, _, rfl, rfl⟩, fun room => absurd stopped room⟩
      · exact ⟨_, exec_gatewayReservation_room waits up onWay came stopped, fun more => absurd more stopped, fun _ => ⟨rfl, rfl⟩⟩
    · intro queued entering data plain ages due
      exact ⟨_, exec_enteringPromotion waits up queued entering data plain ages due, rfl, State.bump_fld _ ⟨rfl, rfl⟩⟩
  · intro port idx x since s kept up due
    exact ⟨_, exec_gatewayReadRepresent kept up due, rfl, s.represent_units port.val idx x⟩

end Sys2Proof.Machine

/-! SUPPORT. The queue of waiting commands and the lifecycle (R411 to R413): what a step's parts leave alone of them. First, function by function, that all but
resets, stops and freezes keep the device's condition, the queue, and the lifecycle counter with its copies; then what resets, stops and changes of the
lifecycle do to these, and with both that every command keeps the queue and takes the lifecycle only forward. -/

namespace Sys2Proof.Machine

/-! ## What most of the model leaves alone -/

/-- What only resets, stops and freezes of the device change: its condition, the waiting commands, and the lifecycle counter with its copies and the change that waits. -/
def State.fixed (s : State) : DevState × List Instr × Nat × (Nat × Nat × Nat) × Option Nat :=
  (s.dev, s.pending, s.life, s.lifeCopies, s.blowing)

/-! A lemma that holds by unfolding is proved by `(rfl)`, in parentheses: `simp` then rewrites with it, where a lemma by bare `rfl` it would apply by
unfolding, and the kernel would evaluate the states. -/

@[simp] theorem State.fixed_eta (s : State) : (s.dev, s.pending, s.life, s.lifeCopies, s.blowing) = s.fixed := (rfl)

@[simp] theorem State.fixed_ite (c : Prop) [Decidable c] (s t : State) : (if c then s else t).fixed = if c then s.fixed else t.fixed := apply_ite ..

@[simp] theorem foldl_fixed {α : Type} {g : State → α → State} (h : ∀ t a, (g t a).fixed = t.fixed) (l : List α) (s : State) : (l.foldl g s).fixed = s.fixed := by
  induction l generalizing s with
  | nil => rfl
  | cons a l ih => rw [List.foldl_cons, ih, h]

@[simp] theorem State.fixed_mk (dev log notes cores clusters mesh fabWait fabTag bindings rim rimShadow copies logBad farOps hubHeld wordErrs beacon timeSteps mono clocks timeBase
    power island images repair dbg lastRead rgns heldClusters life lifeCopies blowing lic scribe ports cls epoch scrFrames removing pending) :
    (State.mk dev log notes cores clusters mesh fabWait fabTag bindings rim rimShadow copies logBad farOps hubHeld wordErrs beacon timeSteps mono clocks timeBase
      power island images repair dbg lastRead rgns heldClusters life lifeCopies blowing lic scribe ports cls epoch scrFrames removing pending).fixed =
      (dev, pending, life, lifeCopies, blowing) := (rfl)

/-- The state that an outcome leaves: the next one, or where there is none the one before. -/
def Out.after (o : Out) (s : State) : State := match o with
  | .next t => t
  | _ => s

@[simp] theorem Out.after_next (t s : State) : Out.after (.next t) s = t := (rfl)
@[simp] theorem Out.after_refused (r : Refusal) (s : State) : Out.after (.refused r) s = s := (rfl)
@[simp] theorem Out.after_ite (c : Prop) [Decidable c] (a b : Out) (s : State) :
    Out.after (if c then a else b) s = if c then Out.after a s else Out.after b s := by split <;> rfl

/-! ### Shared operations -/

@[simp] theorem State.setReg_fixed (s : State) (off : Nat) (w : Word) : (State.setReg s off w).fixed = s.fixed := (rfl)

@[simp] theorem State.setFld_fixed (s : State) (f : Fld) (v : Nat) : (State.setFld s f v).fixed = s.fixed := (rfl)

@[simp] theorem State.bump_fixed (s : State) (f : Fld) (n : Nat) : (State.bump s f n).fixed = s.fixed := (rfl)

@[simp] theorem State.setCore_fixed (s : State) (i : Nat) (c : Core) : (State.setCore s i c).fixed = s.fixed := (rfl)

@[simp] theorem State.mapCore_fixed (s : State) (i : Nat) (f : Core → Core) : (State.mapCore s i f).fixed = s.fixed := (rfl)

@[simp] theorem State.setCluster_fixed (s : State) (n : Nat) (k : Cluster) : (State.setCluster s n k).fixed = s.fixed := (rfl)

@[simp] theorem State.mapCluster_fixed (s : State) (n : Nat) (f : Cluster → Cluster) : (State.mapCluster s n f).fixed = s.fixed := (rfl)

@[simp] theorem State.setRgn_fixed (s : State) (r : Nat) (f : Fld) (v : Nat) : (State.setRgn s r f v).fixed = s.fixed := (rfl)

@[simp] theorem State.setCli_fixed (s : State) (k : Nat) (f : Fld) (v : Nat) : (State.setCli s k f v).fixed = s.fixed := (rfl)

@[simp] theorem State.faultOn_fixed (s : State) (f : FaultCause) : (State.faultOn s f).fixed = s.fixed := (rfl)

@[simp] theorem State.faultOff_fixed (s : State) (f : FaultCause) : (State.faultOff s f).fixed = s.fixed := by
  simp [State.faultOff]

@[simp] theorem State.loseLog_fixed (s : State) : (State.loseLog s).fixed = s.fixed := by
  simp [State.loseLog]

@[simp] theorem State.logEvent_fixed (s : State) (code severity cluster : Nat) (region : Option Nat) (detail : Word) :
    (s.logEvent code severity cluster region detail).fixed = s.fixed := by
  have gasp (l : List (Word × Nat)) : (l.foldl (fun (t : State) x => t.setReg (fAoiLastGaspWord.off + 8 * x.2) x.1) s).fixed = s.fixed :=
    foldl_fixed (fun _ _ => State.setReg_fixed ..) l s
  simp [State.logEvent, gasp]

@[simp] theorem State.note_fixed (s : State) (n : Note) : (State.note s n).fixed = s.fixed := by
  simp [State.note]

theorem State.hairline_fixed (s : State) (l : List (Nat × Nat)) : (s.hairline l).2.fixed = s.fixed := by
  induction l generalizing s with
  | nil => rfl
  | cons x r ih => simp only [State.hairline]; split <;> simp [ih]

@[simp] theorem State.send_fixed (s : State) (a b : Nat) : (s.send a b).2.fixed = s.fixed := s.hairline_fixed _

@[simp] theorem State.hubSend_fixed (s : State) (m : HubMsg) : (State.hubSend s m).fixed = s.fixed := by
  unfold State.hubSend
  split <;> simp

@[simp] theorem State.noteFrom_fixed (s : State) (cluster : Nat) (x : Note) : (State.noteFrom s cluster x).fixed = s.fixed := by
  simp [State.noteFrom]

@[simp] theorem State.eventTo_fixed (s : State) (i : Nat) (x : EventMsg) : (State.eventTo s i x).fixed = s.fixed := by
  simp [State.eventTo]

@[simp] theorem State.hubRelease_fixed (s : State) : (State.hubRelease s).fixed = s.fixed := by
  simp [State.hubRelease]

@[simp] theorem State.putCore_fixed (s : State) (i : Nat) (c : Core) : (State.putCore s i c).fixed = s.fixed := by
  simp [State.putCore]

@[simp] theorem State.upset_fixed (s : State) (x : Upset) : (State.upset s x).fixed = s.fixed := by
  unfold State.upset
  split <;> simp

@[simp] theorem State.voteReg_fixed (s : State) (a : Nat) : (s.voteReg a).2.fixed = s.fixed := by
  unfold State.voteReg
  split
  · split <;> simp
  · simp

@[simp] theorem foldl_snd_fixed {α β : Type} {g : β × State → α → β × State} (h : ∀ r a, (g r a).2.fixed = r.2.fixed) (l : List α) (r : β × State) :
    (l.foldl g r).2.fixed = r.2.fixed := by
  induction l generalizing r with
  | nil => rfl
  | cons a l ih => rw [List.foldl_cons, ih, h]

@[simp] theorem State.voteWhere_fixed (s : State) (p : Nat → Bool) : (s.voteWhere p).2.fixed = s.fixed := by
  refine foldl_snd_fixed (fun r a => ?_) _ _
  exact r.2.voteReg_fixed a

@[simp] theorem State.setPads_fixed (s : State) (gs : List Nat) (f : Nat → Pad) : (State.setPads s gs f).fixed = s.fixed := by
  simp [State.setPads]

@[simp] theorem State.fusePads_fixed (s : State) (gs : List Nat) : (State.fusePads s gs).fixed = s.fixed := by
  simp [State.fusePads]

@[simp] theorem State.setSession_fixed (s : State) (iface n : Nat) (x : Session) : (State.setSession s iface n x).fixed = s.fixed := by
  simp [State.setSession]

@[simp] theorem State.endSession_fixed (s : State) (n : Nat) : (State.endSession s n).fixed = s.fixed := by
  simp [State.endSession]

@[simp] theorem State.sendReply_fixed (s : State) (r : Reply) : (State.sendReply s r).fixed = s.fixed := by
  simp [State.sendReply]

@[simp] theorem State.drain_fixed (n : Nat) (s : State) : (s.drain n).fixed = s.fixed := by
  induction n generalizing s with
  | zero => rfl
  | succ n ih =>
    unfold State.drain
    split
    · rfl
    · split <;> simp [ih]

@[simp] theorem State.settle_fixed (s : State) : s.settle.fixed = s.fixed := s.drain_fixed _

@[simp] theorem State.answerHead_fixed (s : State) (op status : Nat) (payload : List Byte) : (State.answerHead s op status payload).fixed = s.fixed := by
  unfold State.answerHead
  split <;> simp

@[simp] theorem State.answer_fixed (s : State) (op status : Nat) (payload : List Byte) : (State.answer s op status payload).fixed = s.fixed := by
  simp [State.answer]

@[simp] theorem State.mapPort_fixed (s : State) (p : Nat) (f : PortSt → PortSt) : (State.mapPort s p f).fixed = s.fixed := by
  simp [State.mapPort]

@[simp] theorem State.setP_fixed (s : State) (p : Nat) (f : Fld) (v : Nat) : (State.setP s p f v).fixed = s.fixed := by
  simp [State.setP]

@[simp] theorem State.bumpP_fixed (s : State) (p : Nat) (f : Fld) (n : Nat) : (State.bumpP s p f n).fixed = s.fixed := by
  simp [State.bumpP]

@[simp] theorem State.bumpCli_fixed (s : State) (k : Nat) (f : Fld) (n : Nat) : (State.bumpCli s k f n).fixed = s.fixed := by
  simp [State.bumpCli]

@[simp] theorem State.mapRgn_fixed (s : State) (r : Nat) (f : RgnSt → RgnSt) : (State.mapRgn s r f).fixed = s.fixed := by
  simp [State.mapRgn]

/-! ### Frames -/

@[simp] theorem State.clsCommand_fixed (s : State) (index : Nat) : (State.clsCommand s index).fixed = s.fixed := by
  simp [State.clsCommand]

@[simp] theorem State.clsWrite_fixed (s : State) (e : Nat × Word × Word × Word) : (State.clsWrite s e).fixed = s.fixed := by
  simp [State.clsWrite]

/-! ### Operands -/

@[simp] theorem issueRow_fixed (op source : Nat) (bad : Word → Bool) (body : Env → Word → Core → Issue) (i : Nat) (w : Word) (s : State) :
    ((issueRow op source bad body i w s).after s).fixed = s.fixed := by
  simp [issueRow]

@[simp] theorem issueEngine_fixed (op source : Nat) (bad : Word → Bool) (early : Word → Core → Bool) (body : Env → Word → Core → Issue) (i : Nat) (w : Word) (s : State) :
    ((issueEngine op source bad early body i w s).after s).fixed = s.fixed := by
  simp [issueEngine]

/-! ### The control unit -/

@[simp] theorem execBr_fixed (i : CoreId) (w : Word) (s : State) : ((execBr i w s).after s).fixed = s.fixed := by
  simp [execBr]

@[simp] theorem execJl_fixed (i : CoreId) (w : Word) (s : State) : ((execJl i w s).after s).fixed = s.fixed := by
  simp [execJl]

@[simp] theorem execJr_fixed (i : CoreId) (w : Word) (s : State) : ((execJr i w s).after s).fixed = s.fixed := by
  simp [execJr]

@[simp] theorem execLoop_fixed (i : CoreId) (w : Word) (s : State) : ((execLoop i w s).after s).fixed = s.fixed := by
  simp [execLoop]

@[simp] theorem execCcWait_fixed (i : CoreId) (w : Word) (s : State) : ((execCcWait i w s).after s).fixed = s.fixed := by
  simp [execCcWait]

@[simp] theorem execCcSet_fixed (i : CoreId) (w : Word) (s : State) : ((execCcSet i w s).after s).fixed = s.fixed := by
  simp [execCcSet]

@[simp] theorem execCcRd_fixed (i : CoreId) (w : Word) (s : State) : ((execCcRd i w s).after s).fixed = s.fixed := by
  simp [execCcRd]

@[simp] theorem execFence_fixed (i : CoreId) (w : Word) (s : State) : ((execFence i w s).after s).fixed = s.fixed := by
  simp [execFence]

@[simp] theorem execWaitLimitBreach_fixed (i : CoreId) (s : State) : ((execWaitLimitBreach i s).after s).fixed = s.fixed := by
  simp [execWaitLimitBreach]

@[simp] theorem execEvPop_fixed (i : CoreId) (w : Word) (s : State) : ((execEvPop i w s).after s).fixed = s.fixed := by
  simp [execEvPop]

@[simp] theorem execEvWait_fixed (i : CoreId) (w : Word) (s : State) : ((execEvWait i w s).after s).fixed = s.fixed := by
  simp [execEvWait]

@[simp] theorem execEvRet_fixed (i : CoreId) (w : Word) (s : State) : ((execEvRet i w s).after s).fixed = s.fixed := by
  simp [execEvRet]

@[simp] theorem execEvCtl_fixed (i : CoreId) (w : Word) (s : State) : ((execEvCtl i w s).after s).fixed = s.fixed := by
  simp [execEvCtl]

@[simp] theorem execEventArrival_fixed (i : CoreId) (cls : Fin 7) (s : State) : ((execEventArrival i cls s).after s).fixed = s.fixed := by
  simp only [execEventArrival]
  split
  · simp
  · split <;> simp

@[simp] theorem execHandlerEntry_fixed (i : CoreId) (s : State) : ((execHandlerEntry i s).after s).fixed = s.fixed := by
  simp only [execHandlerEntry]
  split
  · split
    · simp
    · split <;> simp
  · rfl

@[simp] theorem execTNow_fixed (i : CoreId) (w : Word) (s : State) : ((execTNow i w s).after s).fixed = s.fixed := by
  simp [execTNow]

@[simp] theorem execTArm_fixed (i : CoreId) (w : Word) (s : State) : ((execTArm i w s).after s).fixed = s.fixed := by
  simp [execTArm]

@[simp] theorem execTCancel_fixed (i : CoreId) (w : Word) (s : State) : ((execTCancel i w s).after s).fixed = s.fixed := by
  simp [execTCancel]

@[simp] theorem execHintPress_fixed (i : CoreId) (w : Word) (s : State) : ((execHintPress i w s).after s).fixed = s.fixed := by
  simp [execHintPress]

/-! ### The hairline -/

@[simp] theorem State.detour_fixed (s : State) (m n : Nat) : (State.detour s m n).fixed = s.fixed := by
  simp [State.detour]

@[simp] theorem State.hubDown_fixed (s : State) (n d : Nat) : (State.hubDown s n d).fixed = s.fixed := by
  simp [State.hubDown]

@[simp] theorem State.floodOn_fixed (s : State) (on : List Nat) : (State.floodOn s on).fixed = s.fixed := by
  simp [State.floodOn]

@[simp] theorem State.flood_fixed (s : State) : (State.flood s).fixed = s.fixed := by
  simp [State.flood]

@[simp] theorem State.refresh_fixed (s : State) : (State.refresh s).fixed = s.fixed := by
  simp [State.refresh]

@[simp] theorem execTimeBeacon_fixed (s : State) : ((execTimeBeacon s).after s).fixed = s.fixed := by
  simp [execTimeBeacon]

@[simp] theorem execBeaconArrival_fixed (cluster : ClusterId) (s : State) : ((execBeaconArrival cluster s).after s).fixed = s.fixed := by
  simp [execBeaconArrival]

/-! ### Packets -/

@[simp] theorem State.inject_fixed (s : State) (e : Env) (vc : Nat) (path : List (Nat × Nat)) (f : Nat) (b : Body) :
    (State.inject s e vc path f b).fixed = s.fixed := by
  simp [State.inject]

@[simp] theorem State.injectTree_fixed (s : State) (e : Env) (g f : Nat) (b : Body) : (State.injectTree s e g f b).fixed = s.fixed := by
  simp [State.injectTree]

@[simp] theorem State.await_fixed (s : State) (x : FabPkt) (inPort port : Nat) (continues : Bool) (stage : Nat) :
    (State.await s x inPort port continues stage).fixed = s.fixed := by
  simp [State.await]

@[simp] theorem State.injectFabric_fixed (s : State) (e : Env) (b : Binding) (cls kind bytes : Nat) (body : Body) :
    (State.injectFabric s e b cls kind bytes body).fixed = s.fixed := by
  simp [State.injectFabric]

@[simp] theorem State.returnFar_fixed (s : State) (e : Env) (d : Nat × Nat) (kind x y : Nat) (body : Body) :
    (State.returnFar s e d kind x y body).fixed = s.fixed := by
  simp only [State.returnFar]
  split <;> simp

@[simp] theorem State.sendBack_fixed (s : State) (e : Env) (n : Nat) (body : Body) : (State.sendBack s e n body).fixed = s.fixed := by
  simp only [State.sendBack]
  split <;> simp

@[simp] theorem State.sendCredit_fixed (s : State) (e : Env) (n units : Nat) : (State.sendCredit s e n units).fixed = s.fixed := by
  simp [State.sendCredit]

@[simp] theorem State.sendTokens_fixed (s : State) (e : Env) (n k : Nat) : (s.sendTokens e n k).fixed = s.fixed := by
  induction k generalizing s with
  | zero => rfl
  | succ k ih => simp [State.sendTokens, ih]

@[simp] theorem State.returnPort_fixed (s : State) (e : Env) (target : Nat) (get : Core → Port) (set : Core → Port → Core) :
    (s.returnPort e target get set).fixed = s.fixed := by
  simp only [State.returnPort]
  split
  · rfl
  · simp

@[simp] theorem State.returnPorts_fixed (s : State) (i : Nat) : (State.returnPorts s i).fixed = s.fixed := by
  simp [State.returnPorts]

@[simp] theorem State.ageDrop_fixed (s : State) : (State.ageDrop s).fixed = s.fixed := by
  simp [State.ageDrop]

@[simp] theorem State.launch_fixed (s : State) (e : Env) (ep off : Nat) (ws : List (Word × Bool)) : (s.launch e ep off ws).fixed = s.fixed := by
  simp only [State.launch]
  split
  · simp
  · split <;> simp
  · simp

@[simp] theorem State.launchMember_fixed (s : State) (e : Env) (ep off : Nat) (ws : List (Word × Bool)) (m : Nat) :
    (State.launchMember s e ep off ws m).fixed = s.fixed := by
  simp [State.launchMember]

/-! ### Ligatures -/

@[simp] theorem State.farOut_fixed (before : State) (i : Nat) (s : State) : (State.farOut before i s).fixed = s.fixed := by
  simp only [State.farOut]
  split
  · rfl
  · split
    · rfl
    · split <;> simp

@[simp] theorem ligFire_fixed (op : Nat) (i : CoreId) (w : Word) (s : State) : ((ligFire op i w s).after s).fixed = s.fixed := by
  have issued := issueRow_fixed op 5 resvLigFire (workLig false false (s.bound i.val)) i.val w s
  unfold ligFire
  split
  next t h =>
    rw [h] at issued
    simpa using issued
  · rfl
  · rfl

@[simp] theorem execLigArrive_fixed (i : CoreId) (w : Word) (s : State) : ((execLigArrive i w s).after s).fixed = s.fixed := by
  simp [execLigArrive]

@[simp] theorem execLigSignal_fixed (i : CoreId) (w : Word) (s : State) : ((execLigSignal i w s).after s).fixed = s.fixed := by
  simp [execLigSignal]

@[simp] theorem execLigWait_fixed (i : CoreId) (w : Word) (s : State) : ((execLigWait i w s).after s).fixed = s.fixed := by
  simp [execLigWait]

@[simp] theorem execLigReset_fixed (i : CoreId) (w : Word) (s : State) : ((execLigReset i w s).after s).fixed = s.fixed := by
  simp [execLigReset]

@[simp] theorem execLigRead_fixed (i : CoreId) (w : Word) (s : State) : ((execLigRead i w s).after s).fixed = s.fixed := by
  simp [execLigRead]

@[simp] theorem execLigTstat_fixed (i : CoreId) (w : Word) (s : State) : ((execLigTstat i w s).after s).fixed = s.fixed := by
  simp [execLigTstat]

@[simp] theorem State.unitFault_fixed (s : State) (n i code info gen : Nat) : (State.unitFault s n i code info gen).fixed = s.fixed := by
  simp [State.unitFault]

@[simp] theorem State.ligLeave_fixed (s : State) (x : LigOp) : (State.ligLeave s x).fixed = s.fixed := by
  simp [State.ligLeave]

@[simp] theorem State.ligHold_fixed (s : State) (x : LigOp) (v : Word) : (State.ligHold s x v).fixed = s.fixed := by
  unfold State.ligHold
  split <;> simp

@[simp] theorem State.applyOps_fixed (s : State) (n : Nat) (xs : List LigOp) : (State.applyOps s n xs).fixed = s.fixed := by
  simp [State.applyOps]

theorem State.ligStray_fixed {s t : State} {n i : Nat} (h : s.ligStray n i = some t) : t.fixed = s.fixed := by
  unfold State.ligStray at h
  split at h
  · cases h
  next r _ =>
    split at h
    · cases h
      have sent := (s.mapCore i (fun c => { c with lig := { c.lig with strays := r } })).send_fixed (clusterOfCore i) n
      split
      · exact (State.mapCluster_fixed ..).trans sent
      · exact sent
    · cases h

@[simp] theorem State.ligTake_fixed (s : State) (n : Nat) (l : List (CoreId × Bool)) (acc : List LigOp) : (s.ligTake n l acc).1.fixed = s.fixed := by
  induction l generalizing s acc with
  | nil => rfl
  | cons x r ih =>
    simp only [State.ligTake]
    split
    next t _ h =>
      rw [ih]
      exact State.ligStray_fixed (by split at h; exact h; cases h)
    · exact ih ..
    · simp [ih]

@[simp] theorem execLigatureOpApplied_fixed (cluster : ClusterId) (ops : List (CoreId × Bool)) (s : State) :
    ((execLigatureOpApplied cluster ops s).after s).fixed = s.fixed := by
  simp [execLigatureOpApplied]

@[simp] theorem execWaiterRelease_fixed (i : CoreId) (s : State) : ((execWaiterRelease i s).after s).fixed = s.fixed := by
  unfold execWaiterRelease
  split <;> simp

@[simp] theorem execWaitReapply_fixed (cluster : ClusterId) (s : State) : ((execWaitReapply cluster s).after s).fixed = s.fixed := by
  simp [execWaitReapply]

@[simp] theorem execLigatureWaitTimeout_fixed (i : CoreId) (s : State) : ((execLigatureWaitTimeout i s).after s).fixed = s.fixed := by
  simp only [execLigatureWaitTimeout]
  split
  · simp
  · split <;> simp

@[simp] theorem execLigatureOpCompletion_fixed (i : CoreId) (idx : Nat) (s : State) : ((execLigatureOpCompletion i idx s).after s).fixed = s.fixed := by
  simp only [execLigatureOpCompletion]
  split
  · simp
  · split
    · simp
    · split <;> simp

@[simp] theorem execFarLigatureArrival_fixed (idx : Nat) (s : State) : ((execFarLigatureArrival idx s).after s).fixed = s.fixed := by
  simp only [execFarLigatureArrival]
  split
  · simp
  · split <;> simp

@[simp] theorem execTimedActionExecute_fixed (i : CoreId) (slot : Fin 8) (s : State) : ((execTimedActionExecute i slot s).after s).fixed = s.fixed := by
  simp [execTimedActionExecute]

/-! ### Moves and ports -/

@[simp] theorem execCpFetch_fixed (i : CoreId) (w : Word) (s : State) : ((execCpFetch i w s).after s).fixed = s.fixed := by
  simp [execCpFetch]

@[simp] theorem execCpStore_fixed (i : CoreId) (w : Word) (s : State) : ((execCpStore i w s).after s).fixed = s.fixed := by
  simp [execCpStore]

@[simp] theorem execCpMove_fixed (i : CoreId) (w : Word) (s : State) : ((execCpMove i w s).after s).fixed = s.fixed := by
  simp [execCpMove]

@[simp] theorem execCpFeed_fixed (i : CoreId) (w : Word) (s : State) : ((execCpFeed i w s).after s).fixed = s.fixed := by
  simp [execCpFeed]

@[simp] theorem execCpFill_fixed (i : CoreId) (w : Word) (s : State) : ((execCpFill i w s).after s).fixed = s.fixed := by
  simp [execCpFill]

@[simp] theorem execCpRput_fixed (i : CoreId) (w : Word) (s : State) : ((execCpRput i w s).after s).fixed = s.fixed := by
  simp [execCpRput]

@[simp] theorem execCpRget_fixed (i : CoreId) (w : Word) (s : State) : ((execCpRget i w s).after s).fixed = s.fixed := by
  simp [execCpRget]

@[simp] theorem execCpSwap_fixed (i : CoreId) (w : Word) (s : State) : ((execCpSwap i w s).after s).fixed = s.fixed := by
  simp [execCpSwap]

@[simp] theorem State.pumpPut_fixed (e : Env) (k : Nat) (l : List (Nat × Nat × Nat)) (s : State) : (State.pumpPut e k l s).fixed = s.fixed := by
  induction l generalizing s with
  | nil => rfl
  | cons m r ih =>
    simp only [State.pumpPut]
    split
    · rfl
    · split
      · simp [ih]
      · rfl

@[simp] theorem State.pumpPuts_fixed (s : State) (i : Nat) : (s.pumpPuts i).fixed = s.fixed := by
  refine foldl_fixed (fun t k => ?_) _ s
  split
  · split <;> simp
  · rfl

@[simp] theorem State.sendGets_fixed (s : State) (e : Env) (r : CpRun) : (s.sendGets e r).fixed = s.fixed := by
  refine foldl_fixed (fun t k => ?_) _ s
  dsimp only
  rw [State.mapCore_fixed]
  split
  · split <;> simp
  · simp

@[simp] theorem execCopyStart_fixed (i : CoreId) (clk : Nat) (s : State) : ((execCopyStart i clk s).after s).fixed = s.fixed := by
  simp only [execCopyStart]
  split <;> simp

@[simp] theorem execReservoirLineGrant_fixed (i : CoreId) (channel : Fin 16) (clk : Nat) (s : State) :
    ((execReservoirLineGrant i channel clk s).after s).fixed = s.fixed := by
  simp [execReservoirLineGrant]

@[simp] theorem execBackgroundPromotion_fixed (i : CoreId) (slot : Fin 8) (channel : Fin 16) (s : State) :
    ((execBackgroundPromotion i slot channel s).after s).fixed = s.fixed := by
  simp [execBackgroundPromotion]

@[simp] theorem execReservoirLineDelivery_fixed (i : CoreId) (slot : Fin 8) (line : Nat) (s : State) :
    ((execReservoirLineDelivery i slot line s).after s).fixed = s.fixed := by
  simp [execReservoirLineDelivery]

@[simp] theorem execCopyCompletion_fixed (i : CoreId) (idx : Nat) (s : State) : ((execCopyCompletion i idx s).after s).fixed = s.fixed := by
  unfold execCopyCompletion
  split <;> simp

@[simp] theorem execReservoirRefresh_fixed (i : CoreId) (channel bank : Fin 16) (postpone : Bool) (s : State) :
    ((execReservoirRefresh i channel bank postpone s).after s).fixed = s.fixed := by
  simp [execReservoirRefresh]

@[simp] theorem execReservoirScrub_fixed (i : CoreId) (upset : List (Nat × Bool)) (s : State) : ((execReservoirScrub i upset s).after s).fixed = s.fixed := by
  simp [execReservoirScrub]

@[simp] theorem execReservoirRowSpare_fixed (i : CoreId) (channel bank : Fin 16) (row : Fin 320) (s : State) :
    ((execReservoirRowSpare i channel bank row s).after s).fixed = s.fixed := by
  simp [execReservoirRowSpare]

/-! ### The matrix engine -/

@[simp] theorem execMxHand_fixed (i : CoreId) (w : Word) (s : State) : ((execMxHand i w s).after s).fixed = s.fixed := by
  simp [execMxHand]

@[simp] theorem execMxLoad_fixed (i : CoreId) (w : Word) (s : State) : ((execMxLoad i w s).after s).fixed = s.fixed := by
  simp [execMxLoad]

@[simp] theorem execMxAnchor_fixed (i : CoreId) (w : Word) (s : State) : ((execMxAnchor i w s).after s).fixed = s.fixed := by
  simp [execMxAnchor]

@[simp] theorem execMxStream_fixed (i : CoreId) (w : Word) (s : State) : ((execMxStream i w s).after s).fixed = s.fixed := by
  simp [execMxStream]

@[simp] theorem execMxDrain_fixed (i : CoreId) (w : Word) (s : State) : ((execMxDrain i w s).after s).fixed = s.fixed := by
  simp [execMxDrain]

@[simp] theorem execMxFlags_fixed (i : CoreId) (w : Word) (s : State) : ((execMxFlags i w s).after s).fixed = s.fixed := by
  simp [execMxFlags]

@[simp] theorem execMxLdacc_fixed (i : CoreId) (w : Word) (s : State) : ((execMxLdacc i w s).after s).fixed = s.fixed := by
  simp [execMxLdacc]

@[simp] theorem execMatrixStart_fixed (i : CoreId) (s : State) : ((execMatrixStart i s).after s).fixed = s.fixed := by
  simp [execMatrixStart]

@[simp] theorem execStrokeEntry_fixed (i : CoreId) (s : State) : ((execStrokeEntry i s).after s).fixed = s.fixed := by
  simp [execStrokeEntry]

@[simp] theorem execStreamFeedTimeout_fixed (i : CoreId) (s : State) : ((execStreamFeedTimeout i s).after s).fixed = s.fixed := by
  simp [execStreamFeedTimeout]

@[simp] theorem execMatrixCompletion_fixed (i : CoreId) (idx : RunAt) (s : State) : ((execMatrixCompletion i idx s).after s).fixed = s.fixed := by
  simp [execMatrixCompletion]

/-! ### Channels -/

@[simp] theorem execChSend_fixed (i : CoreId) (w : Word) (s : State) : ((execChSend i w s).after s).fixed = s.fixed := by
  simp [execChSend]

@[simp] theorem execChCredit_fixed (i : CoreId) (w : Word) (s : State) : ((execChCredit i w s).after s).fixed = s.fixed := by
  simp [execChCredit]

@[simp] theorem execChCount_fixed (i : CoreId) (w : Word) (s : State) : ((execChCount i w s).after s).fixed = s.fixed := by
  simp [execChCount]

@[simp] theorem execChFlags_fixed (i : CoreId) (w : Word) (s : State) : ((execChFlags i w s).after s).fixed = s.fixed := by
  simp [execChFlags]

@[simp] theorem State.creditStart_fixed (s : State) (e : Env) (o : EngOp) : (s.creditStart e o).fixed = s.fixed := by
  simp [State.creditStart]

@[simp] theorem State.abandonSend_fixed (s : State) (e : Env) (o : EngOp) : (State.abandonSend s e o).fixed = s.fixed := by
  simp [State.abandonSend]

@[simp] theorem State.sendStart_fixed (s : State) (e : Env) (o : EngOp) : (State.sendStart s e o).fixed = s.fixed := by
  simp [State.sendStart]

@[simp] theorem State.chStart_fixed (s : State) (e : Env) : (State.chStart s e).fixed = s.fixed := by
  simp only [State.chStart]
  split <;> simp

@[simp] theorem execChannelStart_fixed (i : CoreId) (s : State) : ((execChannelStart i s).after s).fixed = s.fixed := by
  simp [execChannelStart]

@[simp] theorem execSendCreditAbandon_fixed (i : CoreId) (put : Option Nat) (s : State) : ((execSendCreditAbandon i put s).after s).fixed = s.fixed := by
  simp only [execSendCreditAbandon]
  split
  · simp
  · split
    · split <;> simp
    · split <;> simp

@[simp] theorem execChannelCompletion_fixed (i : CoreId) (idx : Nat) (s : State) : ((execChannelCompletion i idx s).after s).fixed = s.fixed := by
  simp only [execChannelCompletion]
  split <;> simp

@[simp] theorem State.dropPacket_fixed (s : State) (k : Nat) : (State.dropPacket s k).fixed = s.fixed := by
  simp [State.dropPacket]

@[simp] theorem State.stale_fixed (s : State) (i : Nat) : (State.stale s i).fixed = s.fixed := by
  simp [State.stale]

@[simp] theorem execMulticastBranchAdmit_fixed (idx : Nat) (dir : Fin 5) (s : State) : ((execMulticastBranchAdmit idx dir s).after s).fixed = s.fixed := by
  simp only [execMulticastBranchAdmit]
  split
  · simp
  · split <;> simp

@[simp] theorem execMessageArrival_fixed (idx : Nat) (s : State) : ((execMessageArrival idx s).after s).fixed = s.fixed := by
  simp only [execMessageArrival]
  split
  · simp
  · split <;> simp

@[simp] theorem State.cqEnd_fixed (s : State) (e : Env) (q : Nat) : (State.cqEnd s e q).fixed = s.fixed := by
  simp [State.cqEnd]

@[simp] theorem State.cqForward_fixed (e : Env) (q n : Nat) (s : State) : (State.cqForward e q n s).fixed = s.fixed := by
  induction n generalizing s with
  | zero => rfl
  | succ n ih =>
    unfold State.cqForward
    simp [ih]

@[simp] theorem execCombiningRoundClose_fixed (i : CoreId) (queue : Fin 16) (s : State) : ((execCombiningRoundClose i queue s).after s).fixed = s.fixed := by
  simp [execCombiningRoundClose]

@[simp] theorem execCreditReturnArrival_fixed (idx : Nat) (s : State) : ((execCreditReturnArrival idx s).after s).fixed = s.fixed := by
  simp only [execCreditReturnArrival]
  split
  · simp
  · split <;> simp

@[simp] theorem execBatchTokenArrival_fixed (idx : Nat) (s : State) : ((execBatchTokenArrival idx s).after s).fixed = s.fixed := by
  simp only [execBatchTokenArrival]
  split
  · simp
  · split <;> simp

@[simp] theorem execCombiningGrantArrival_fixed (idx : Nat) (s : State) : ((execCombiningGrantArrival idx s).after s).fixed = s.fixed := by
  simp only [execCombiningGrantArrival]
  split
  · simp
  · split <;> simp

@[simp] theorem State.reply_fixed (s : State) (e : Env) (r : ReadFrom) (ws : List (Nat × Word × Bool)) : (State.reply s e r ws).fixed = s.fixed := by
  unfold State.reply
  split <;> simp

@[simp] theorem State.returnUnits_fixed (s : State) (g : Nat) (p : Packet) (ep srcEp slot gen base : Nat) (ws : List (Nat × Nat)) :
    (State.returnUnits s g p ep srcEp slot gen base ws).fixed = s.fixed := by
  simp [State.returnUnits]

@[simp] theorem execReadRequestArrival_fixed (idx : Nat) (s : State) : ((execReadRequestArrival idx s).after s).fixed = s.fixed := by
  simp only [execReadRequestArrival]
  split
  · rfl
  · split
    · iterate 5 (split; · simp)
      split <;> split
      · simp
      · split <;> simp
      · simp
      · split <;> simp
    · rfl

@[simp] theorem State.markRequests_fixed (rs : List ReadFrom) (s : State) : (State.markRequests rs s).fixed = s.fixed := by
  simp [State.markRequests]

@[simp] theorem State.serveUnit_fixed (s : State) (e : Env) (u : ReadUnit) : (State.serveUnit s e u).fixed = s.fixed := by
  simp [State.serveUnit]

@[simp] theorem execReadUnitService_fixed (i : CoreId) (s : State) : ((execReadUnitService i s).after s).fixed = s.fixed := by
  unfold execReadUnitService
  split <;> simp

@[simp] theorem execReadReplyArrival_fixed (idx : Nat) (s : State) : ((execReadReplyArrival idx s).after s).fixed = s.fixed := by
  simp only [execReadReplyArrival]
  split
  · rfl
  · split
    · iterate 3 (split; · simp)
      split
      · simp
      · split <;> simp
    · rfl

/-! ### The mesh -/

@[simp] theorem execCoreMeshCfgWrite_fixed (i : CoreId) (value : Word) (s : State) : ((execCoreMeshCfgWrite i value s).after s).fixed = s.fixed := by
  simp [execCoreMeshCfgWrite]

@[simp] theorem State.spoil_fixed (s : State) (idx : Nat) (bad : List Nat) (p : Packet) : (State.spoil s idx bad p).fixed = s.fixed := by
  unfold State.spoil
  split <;> simp

@[simp] theorem State.checkFlit_fixed (s : State) (idx j : Nat) (from_ here : Nat × Nat) (ce ue : List Nat) (p : Packet) :
    (State.checkFlit s idx j from_ here ce ue p).fixed = s.fixed := by
  simp [State.checkFlit]

@[simp] theorem State.sweepGates_fixed (s : State) : (State.sweepGates s).fixed = s.fixed := by
  simp [State.sweepGates]

@[simp] theorem State.misroute_fixed (s : State) (idx : Nat) (here : Nat × Nat) (n : Nat) : (State.misroute s idx here n).fixed = s.fixed := by
  simp [State.misroute]

@[simp] theorem State.hop_fixed (s : State) (idx j : Nat) (p : Packet) (f : Nat) (ce ue : List Nat) : (s.hop idx j p f ce ue).fixed = s.fixed := by
  simp only [State.hop]
  split
  · rw [State.checkFlit_fixed]
    split <;> simp
  · split <;> simp

@[simp] theorem State.wordCheck_fixed (s : State) (i w : Nat) (a b : Nat × Nat) : (State.wordCheck s i w a b).2.fixed = s.fixed := by
  simp only [State.wordCheck]
  split <;> simp

@[simp] theorem State.cross_fixed (i n w d : Nat) : ∀ (p : List (Nat × Nat)) (s : State) (inp : Nat), (s.cross i n w d inp p).2.fixed = s.fixed
  | [], _, _ => rfl
  | [_], _, _ => State.mapCore_fixed ..
  | a :: b :: r, s, inp => by
    simp only [State.cross]
    split
    · simp
    · simp [State.cross_fixed i n w d (b :: r)]

@[simp] theorem State.access_fixed (s : State) (a b : Nat × Nat) (out back w : Nat) : (s.access a b out back w).2.fixed = s.fixed := by
  simp only [State.access]
  split
  · simp
  · split <;> simp

@[simp] theorem State.meshDown_fixed (s : State) (i dir : Nat) (a b : Nat × Nat) : (State.meshDown s i dir a b).fixed = s.fixed := by
  simp [State.meshDown]

/-! ### Regions -/

@[simp] theorem State.mapCores_fixed (s : State) (r : Nat) (f : Core → Core) : (State.mapCores s r f).fixed = s.fixed := by
  simp [State.mapCores]

@[simp] theorem State.mapClusters_fixed (s : State) (r : Nat) (f : Cluster → Cluster) : (State.mapClusters s r f).fixed = s.fixed := by
  simp [State.mapClusters]

@[simp] theorem State.formGroups_fixed (s : State) (r : Nat) : (State.formGroups s r).fixed = s.fixed := by
  simp [State.formGroups]

@[simp] theorem State.dissolve_fixed (s : State) (r : Nat) : (State.dissolve s r).fixed = s.fixed := by
  simp [State.dissolve]

@[simp] theorem State.enter_fixed (s : State) (r st : Nat) : (State.enter s r st).fixed = s.fixed := by
  simp [State.enter]

@[simp] theorem State.advance_fixed (s : State) (r : Nat) : (State.advance s r).fixed = s.fixed := by
  simp [State.advance]

@[simp] theorem State.enterWiping_fixed (s : State) (r : Nat) (adv : Bool) : (State.enterWiping s r adv).fixed = s.fixed := by
  simp [State.enterWiping]

@[simp] theorem execWipingDone_fixed (region : Fin 64) (s : State) : ((execWipingDone region s).after s).fixed = s.fixed := by
  simp [execWipingDone]

@[simp] theorem State.portRead_fixed (s : State) (port i a : Nat) : (s.portRead port i a).2.fixed = s.fixed := by
  simp only [State.portRead]
  split <;> simp

theorem State.fixed_of_portRead {s t : State} {port i a : Nat} {w : Option Word} (h : s.portRead port i a = (w, t)) : t.fixed = s.fixed := by
  rw [← s.portRead_fixed port i a, h]

@[simp] theorem State.portWrite_fixed (s : State) (port i : Nat) (ws : List WordWrite) : (State.portWrite s port i ws).fixed = s.fixed := by
  simp [State.portWrite]

@[simp] theorem State.dropIngress_fixed (s : State) (port k : Nat) : (s.dropIngress port k).fixed = s.fixed := by
  simp only [State.dropIngress]
  split
  · simp
  · split
    next h => simpa using State.fixed_of_portRead h
    next h => simpa using State.fixed_of_portRead h

@[simp] theorem State.dropWaiting_fixed (s : State) (r p : Nat) : (State.dropWaiting s r p).fixed = s.fixed := by
  simp [State.dropWaiting]

@[simp] theorem State.dropPassed_fixed (s : State) (r : Nat) : (State.dropPassed s r).fixed = s.fixed := by
  simp [State.dropPassed]

@[simp] theorem State.endIngress_fixed (s : State) (r : Nat) : (State.endIngress s r).fixed = s.fixed := by
  simp [State.endIngress]

@[simp] theorem State.rgnRefuse_fixed (s : State) (r : Nat) : (State.rgnRefuse s r).fixed = s.fixed := by
  simp [State.rgnRefuse]

@[simp] theorem State.rgnDone_fixed (s : State) (req : Bool) : (State.rgnDone s req).fixed = s.fixed := by
  simp [State.rgnDone]

@[simp] theorem State.rgnError_fixed (s : State) (r : Nat) (req : Bool) : (State.rgnError s r req).fixed = s.fixed := by
  simp [State.rgnError]

@[simp] theorem State.withVotes_fixed {f : State → State} (h : ∀ t, (f t).fixed = t.fixed) (s : State) (r : Nat) (rows : Bool) :
    (s.withVotes r rows f).fixed = s.fixed := by
  simp [State.withVotes, h]

@[simp] theorem State.createRegion_fixed (s : State) (r : Nat) (req : Bool) : (s.createRegion r req).fixed = s.fixed := by
  unfold State.createRegion
  split
  · rfl
  · exact State.withVotes_fixed (fun t => by simp) ..

@[simp] theorem execRegionCreate_fixed (region : Fin 64) (req : Bool) (upset : List Upset) (s : State) :
    ((execRegionCreate region req upset s).after s).fixed = s.fixed := by
  simp [execRegionCreate]

@[simp] theorem State.stopRequest_fixed (s : State) (r : Nat) : (State.stopRequest s r).fixed = s.fixed := by
  simp [State.stopRequest]

@[simp] theorem State.resetRegion_fixed (s : State) (r : Nat) : (State.resetRegion s r).fixed = s.fixed := by
  unfold State.resetRegion
  split <;> simp

@[simp] theorem State.resetJob_fixed (s : State) (r : Nat) : (State.resetJob s r).fixed = s.fixed := by
  simp [State.resetJob]

@[simp] theorem State.resetCommand_fixed (s : State) (r : Nat) (req : Bool) : (s.resetCommand r req).fixed = s.fixed := by
  unfold State.resetCommand
  split
  · rfl
  · exact State.withVotes_fixed (fun t => by simp) ..

@[simp] theorem execRegionReset_fixed (region : Fin 64) (req : Bool) (s : State) : ((execRegionReset region req s).after s).fixed = s.fixed := by
  simp [execRegionReset]

@[simp] theorem State.zeroRings_fixed (s : State) (k : Nat) : (State.zeroRings s k).fixed = s.fixed := by
  simp [State.zeroRings]

@[simp] theorem State.startRegion_fixed (s : State) (r : Nat) : (State.startRegion s r).fixed = s.fixed := by
  simp [State.startRegion]

@[simp] theorem State.releaseRegion_fixed (s : State) (r : Nat) (req : Bool) : (s.releaseRegion r req).fixed = s.fixed := by
  unfold State.releaseRegion
  split
  · rfl
  · exact State.withVotes_fixed (fun t => by simp) ..

@[simp] theorem execRegionRelease_fixed (region : Fin 64) (req : Bool) (s : State) : ((execRegionRelease region req s).after s).fixed = s.fixed := by
  simp [execRegionRelease]

@[simp] theorem State.deleteRegion_fixed (s : State) (r : Nat) (req : Bool) : (s.deleteRegion r req).fixed = s.fixed := by
  unfold State.deleteRegion
  split
  · rfl
  · exact State.withVotes_fixed (fun t => by simp) ..

@[simp] theorem execRegionDelete_fixed (region : Fin 64) (req : Bool) (s : State) : ((execRegionDelete region req s).after s).fixed = s.fixed := by
  simp [execRegionDelete]

@[simp] theorem execRegionIdle_fixed (region : Fin 64) (s : State) : ((execRegionIdle region s).after s).fixed = s.fixed := by
  simp [execRegionIdle]

@[simp] theorem State.dropTraffic_fixed (s : State) (r : Nat) : (State.dropTraffic s r).fixed = s.fixed := by
  simp [State.dropTraffic]

@[simp] theorem State.forceRegion_fixed (s : State) (r : Nat) : (State.forceRegion s r).fixed = s.fixed := by
  simp [State.forceRegion]

@[simp] theorem execIdleTimeout_fixed (region : Fin 64) (s : State) : ((execIdleTimeout region s).after s).fixed = s.fixed := by
  simp [execIdleTimeout]

@[simp] theorem State.needMapping_fixed (s : State) (n : Nat) : (State.needMapping s n).fixed = s.fixed := by
  simp [State.needMapping]

@[simp] theorem State.failCluster_fixed (s : State) (n : Nat) : (State.failCluster s n).fixed = s.fixed := by
  simp [State.failCluster]

@[simp] theorem execForceComplete_fixed (region : Fin 64) (s : State) : ((execForceComplete region s).after s).fixed = s.fixed := by
  simp [execForceComplete]

@[simp] theorem execForceOverrun_fixed (region : Fin 64) (cluster : ClusterId) (s : State) :
    ((execForceOverrun region cluster s).after s).fixed = s.fixed := by
  simp [execForceOverrun]

/-! ### Ports -/

@[simp] theorem State.setState_fixed (s : State) (p v : Nat) : (State.setState s p v).fixed = s.fixed := by
  simp [State.setState]

@[simp] theorem State.setActive_fixed (s : State) (p : Nat) (gs : List Nat) : (State.setActive s p gs).fixed = s.fixed := by
  simp [State.setActive]

@[simp] theorem State.writeMode_fixed (s : State) (p mode : Nat) : (State.writeMode s p mode).fixed = s.fixed := by
  simp [State.writeMode]

@[simp] theorem execPortModeWrite_fixed (port : Fin 16) (mode : Fin 4) (s : State) : ((execPortModeWrite port mode s).after s).fixed = s.fixed := by
  simp [execPortModeWrite]

@[simp] theorem State.gwDiscard_fixed (s : State) (p : Nat) (drop : GwPkt → Bool) : (State.gwDiscard s p drop).fixed = s.fixed := by
  simp [State.gwDiscard]

@[simp] theorem State.losePeer_fixed (s : State) (p : Nat) : (State.losePeer s p).fixed = s.fixed := by
  simp [State.losePeer]

@[simp] theorem State.startTraining_fixed (s : State) (p : Nat) : (State.startTraining s p).fixed = s.fixed := by
  simp [State.startTraining]

@[simp] theorem State.modeOf_fixed (s : State) (p : Nat) : (State.modeOf s p).1.fixed = s.fixed := by
  simp only [State.modeOf]
  split <;> simp

@[simp] theorem State.finishReset_fixed (s : State) (p : Nat) : (State.finishReset s p).fixed = s.fixed := by
  simp [State.finishReset]

@[simp] theorem State.dropGateway_fixed (s : State) (p : Nat) : (State.dropGateway s p).fixed = s.fixed := by
  simp [State.dropGateway]

@[simp] theorem State.goDown_fixed (s : State) (p : Nat) : (State.goDown s p).fixed = s.fixed := by
  simp [State.goDown]

@[simp] theorem State.gather_fixed (s : State) (p n : Nat) : (s.gather p n).fixed = s.fixed := by
  induction n generalizing s with
  | zero => rfl
  | succ n ih =>
    unfold State.gather
    simp only []
    split
    · rfl
    · split
      · rfl
      · split <;> simp [ih]

@[simp] theorem State.emit_fixed (s : State) (p : Nat) : (State.emit s p).fixed = s.fixed := by
  simp [State.emit]

@[simp] theorem State.pump_fixed (s : State) (p n : Nat) : (s.pump p n).fixed = s.fixed := by
  induction n generalizing s with
  | zero => rfl
  | succ n ih => simp [State.pump, ih]

@[simp] theorem State.pumpLink_fixed (s : State) (p : Nat) : (s.pumpLink p).fixed = s.fixed := s.pump_fixed _ _

@[simp] theorem State.nakFull_fixed (s : State) (p : Nat) : (State.nakFull s p).fixed = s.fixed := by
  simp [State.nakFull]

@[simp] theorem State.speak_fixed (s : State) (p : Nat) : (State.speak s p).fixed = s.fixed := by
  simp [State.speak]

@[simp] theorem State.toGateway_fixed (s : State) (p : Nat) (x : FabPkt) : (State.toGateway s p x).fixed = s.fixed := by
  simp [State.toGateway]

@[simp] theorem State.resetPort_fixed (s : State) (p : Nat) : (State.resetPort s p).fixed = s.fixed := by
  simp [State.resetPort]

@[simp] theorem execPortBlockReset_fixed (port : Fin 16) (s : State) : ((execPortBlockReset port s).after s).fixed = s.fixed := by
  simp [execPortBlockReset]

@[simp] theorem execPortResetTimeout_fixed (port : Fin 16) (s : State) : ((execPortResetTimeout port s).after s).fixed = s.fixed := by
  simp only [execPortResetTimeout]
  split
  · simp
  · split <;> simp

@[simp] theorem State.writeAdmit_fixed (s : State) (p : Nat) (on : Bool) : (State.writeAdmit s p on).fixed = s.fixed := by
  simp [State.writeAdmit]

@[simp] theorem execPortAdmitWrite_fixed (port : Fin 16) (on : Bool) (s : State) : ((execPortAdmitWrite port on s).after s).fixed = s.fixed := by
  simp [execPortAdmitWrite]

@[simp] theorem State.failGroup_fixed (s : State) (p g : Nat) : (State.failGroup s p g).fixed = s.fixed := by
  simp [State.failGroup]

@[simp] theorem execLaneGroupTrainingTimeout_fixed (port : Fin 16) (group : Fin 8) (stage : Fin 4) (s : State) :
    ((execLaneGroupTrainingTimeout port group stage s).after s).fixed = s.fixed := by
  simp [execLaneGroupTrainingTimeout]

@[simp] theorem execLinkInitComplete_fixed (port : Fin 16) (good peer : List (Fin 8)) (alloc adapted : List Nat) (s : State) :
    ((execLinkInitComplete port good peer alloc adapted s).after s).fixed = s.fixed := by
  simp [execLinkInitComplete]

@[simp] theorem State.settleUp_fixed (s : State) (p : Nat) : (State.settleUp s p).fixed = s.fixed := by
  simp [State.settleUp]

@[simp] theorem State.rewidth_fixed (s : State) (p : Nat) : (State.rewidth s p).fixed = s.fixed := by
  simp [State.rewidth]

@[simp] theorem State.agree_fixed (s : State) (p : Nat) : (State.agree s p).fixed = s.fixed := by
  simp [State.agree]

@[simp] theorem State.startRetrain_fixed (s : State) (p g : Nat) : (State.startRetrain s p g).fixed = s.fixed := by
  simp [State.startRetrain]

@[simp] theorem execFecWindowCheck_fixed (port : Fin 16) (group : Fin 8) (s : State) : ((execFecWindowCheck port group s).after s).fixed = s.fixed := by
  simp [execFecWindowCheck]

@[simp] theorem execGroupRetrainComplete_fixed (port : Fin 16) (group : Fin 8) (s : State) :
    ((execGroupRetrainComplete port group s).after s).fixed = s.fixed := by
  simp [execGroupRetrainComplete]

@[simp] theorem execGroupRetrainTimeout_fixed (port : Fin 16) (group : Fin 8) (s : State) :
    ((execGroupRetrainTimeout port group s).after s).fixed = s.fixed := by
  simp [execGroupRetrainTimeout]

@[simp] theorem State.takeSlot_fixed (s : State) (p : Nat) (f : Flit) : (State.takeSlot s p f).fixed = s.fixed := by
  simp [State.takeSlot]

@[simp] theorem State.takeAck_fixed (s : State) (p : Nat) (b : LinkBlock) : (State.takeAck s p b).fixed = s.fixed := by
  simp [State.takeAck]

@[simp] theorem State.takeTrailer_fixed (s : State) (p : Nat) (b : LinkBlock) : (State.takeTrailer s p b).fixed = s.fixed := by
  simp [State.takeTrailer]

@[simp] theorem State.takeFec_fixed (s : State) (p : Nat) (b : LinkBlock) : (State.takeFec s p b).fixed = s.fixed := by
  simp [State.takeFec]

@[simp] theorem State.takeWidth_fixed (s : State) (p : Nat) (b : LinkBlock) : (State.takeWidth s p b).fixed = s.fixed := by
  simp [State.takeWidth]

@[simp] theorem execLinkBlockReceive_fixed (port : Fin 16) (block : LinkBlock) (s : State) :
    ((execLinkBlockReceive port block s).after s).fixed = s.fixed := by
  simp only [execLinkBlockReceive]
  iterate 2 (split; · rfl)
  split
  · simp
  · simp only [Out.after_next, State.agree_fixed, State.speak_fixed, State.takeWidth_fixed, State.takeTrailer_fixed]
    rw [foldl_fixed fun t x => by cases x <;> simp]
    simp

@[simp] theorem execGatewayHoldLimit_fixed (port : Fin 16) (s : State) : ((execGatewayHoldLimit port s).after s).fixed = s.fixed := by
  simp [execGatewayHoldLimit]

@[simp] theorem execHelloSend_fixed (port : Fin 16) (s : State) : ((execHelloSend port s).after s).fixed = s.fixed := by
  simp [execHelloSend]

@[simp] theorem State.takeArrived_fixed (s : State) (p idx : Nat) (x : FabPkt) : (State.takeArrived s p idx x).fixed = s.fixed := by
  simp [State.takeArrived]

@[simp] theorem State.hear_fixed (s : State) (p : Nat) (h : Hello) : (State.hear s p h).fixed = s.fixed := by
  simp [State.hear]

@[simp] theorem State.admitManaged_fixed (s : State) (p : Nat) (h : Hello) : (State.admitManaged s p h).fixed = s.fixed := by
  simp [State.admitManaged]

@[simp] theorem execHelloReceive_fixed (port : Fin 16) (idx : Nat) (s : State) : ((execHelloReceive port idx s).after s).fixed = s.fixed := by
  simp only [execHelloReceive]
  split
  · simp
  · split <;> simp

@[simp] theorem execPeerLoss_fixed (port : Fin 16) (s : State) : ((execPeerLoss port s).after s).fixed = s.fixed := by
  simp [execPeerLoss]

@[simp] theorem State.drainQueue_fixed (s : State) (p n : Nat) : (s.drainQueue p n).fixed = s.fixed := by
  induction n generalizing s with
  | zero => rfl
  | succ n ih =>
    simp only [State.drainQueue]
    split
    · rfl
    · split
      · rfl
      · rw [ih]
        split <;> simp

@[simp] theorem State.drainScribe_fixed (s : State) (p : Nat) : (State.drainScribe s p).fixed = s.fixed := by
  simp [State.drainScribe]

@[simp] theorem State.setLink_fixed (s : State) (p g : Nat) (up cr4 : Bool) : (State.setLink s p g up cr4).fixed = s.fixed := by
  simp [State.setLink]

@[simp] theorem State.dropLink_fixed (s : State) (p g : Nat) : (State.dropLink s p g).fixed = s.fixed := by
  simp [State.dropLink]

@[simp] theorem State.toScribe_fixed (s : State) (p link : Nat) (bs : List Byte) (t : Nat) : (State.toScribe s p link bs t).fixed = s.fixed := by
  simp [State.toScribe]

@[simp] theorem State.toClient_fixed (s : State) (p k : Nat) (bs : List Byte) (t : Nat) : (State.toClient s p k bs t).fixed = s.fixed := by
  simp [State.toClient]

@[simp] theorem State.sortFrame_fixed (s : State) (p link : Nat) (bs : List Byte) (t : Nat) : (State.sortFrame s p link bs t).fixed = s.fixed := by
  simp only [State.sortFrame]
  split
  · simp
  · split
    · simp
    · split <;> simp

@[simp] theorem execEthFrameReceive_fixed (port : Fin 16) (link : Fin 8) (bytes : List Byte) (fcsOk : Bool) (sub : Fin 40) (s : State) :
    ((execEthFrameReceive port link bytes fcsOk sub s).after s).fixed = s.fixed := by
  simp [execEthFrameReceive]

@[simp] theorem execEthLinkStateChange_fixed (port : Fin 16) (link : Fin 8) (up : Bool) (found : EthFound) (s : State) :
    ((execEthLinkStateChange port link up found s).after s).fixed = s.fixed := by
  simp [execEthLinkStateChange]

@[simp] theorem execPortClsCmdWrite_fixed (value : Word) (s : State) : ((execPortClsCmdWrite value s).after s).fixed = s.fixed := by
  simp [execPortClsCmdWrite]

@[simp] theorem State.popTag_fixed (s : State) (p : Nat) : (State.popTag s p).fixed = s.fixed := by
  unfold State.popTag
  split <;> simp

@[simp] theorem execPtpTxTagRead_fixed (port : Fin 16) (s : State) : ((execPtpTxTagRead port s).after s).fixed = s.fixed := by
  simp [execPtpTxTagRead]

/-! ### Clients -/

@[simp] theorem State.tell_fixed (s : State) (own : Bool) (op st : Nat) (d : Option Nat) : (State.tell s own op st d).fixed = s.fixed := by
  simp [State.tell]

@[simp] theorem State.fillEntry_fixed (s : State) (k : Nat) (p : List Byte) : (State.fillEntry s k p).fixed = s.fixed := by
  simp [State.fillEntry]

@[simp] theorem State.enrol_fixed (s : State) (k : Nat) (entries : List (Nat × Word × Word × Word)) : (State.enrol s k entries).fixed = s.fixed := by
  simp [State.enrol]

@[simp] theorem State.clearEntry_fixed (s : State) (k : Nat) : (State.clearEntry s k).fixed = s.fixed := by
  simp [State.clearEntry]

@[simp] theorem State.admitClient_fixed (s : State) (own mid : Bool) (p : List Byte) (entries : List (Nat × Word × Word × Word)) :
    (State.admitClient s own mid p entries).fixed = s.fixed := by
  unfold State.admitClient
  split <;> simp

@[simp] theorem State.scrQueue_fixed (s : State) (x : ScrWork) : (State.scrQueue s x).fixed = s.fixed := by
  simp [State.scrQueue]

@[simp] theorem State.scrServed_fixed (s : State) (f : Scribe → Scribe) : (State.scrServed s f).fixed = s.fixed := by
  simp [State.scrServed]

@[simp] theorem execClientAdmit_fixed (own : Option (List Byte)) (entries : List (Nat × Word × Word × Word)) (upset : List Upset) (mid : Bool) (s : State) :
    ((execClientAdmit own entries upset mid s).after s).fixed = s.fixed := by
  simp only [execClientAdmit]
  split
  · rfl
  · iterate 2 (split; · simp)
    split <;> simp

@[simp] theorem State.withdrawCls_fixed (s : State) (k : Nat) : (State.withdrawCls s k).fixed = s.fixed := by
  simp [State.withdrawCls]

@[simp] theorem execClientRemove_fixed (own : Option (List Byte)) (s : State) : ((execClientRemove own s).after s).fixed = s.fixed := by
  simp only [execClientRemove]
  split
  · rfl
  · iterate 2 (split; · simp)
    split <;> simp

@[simp] theorem execClientRemoveComplete_fixed (client : Fin 1024) (s : State) : ((execClientRemoveComplete client s).after s).fixed = s.fixed := by
  simp only [execClientRemoveComplete]
  split
  · rfl
  · split
    · split <;> simp
    · rfl

@[simp] theorem State.writeSeed_fixed (s : State) (k : Nat) (seed : Word) : (State.writeSeed s k seed).fixed = s.fixed := by
  simp [State.writeSeed]

@[simp] theorem execCliSeedWrite_fixed (client : Fin 1024) (seed : Word) (s : State) : ((execCliSeedWrite client seed s).after s).fixed = s.fixed := by
  simp [execCliSeedWrite]

@[simp] theorem State.doorbell_fixed (s : State) (i r k count : Nat) : (State.doorbell s i r k count).fixed = s.fixed := by
  simp only [State.doorbell]
  split <;> simp

@[simp] theorem State.fillSlot_fixed (s : State) (port : Nat) (f : IngFrame) (pw : Word) : (s.fillSlot port f pw).fixed = s.fixed := by
  simp only [State.fillSlot]
  split
  next h => split <;> simpa using State.fixed_of_portRead h
  next h => simpa using State.fixed_of_portRead h

@[simp] theorem State.deliver_fixed (s : State) (port : Nat) (f : IngFrame) : (s.deliver port f).fixed = s.fixed := by
  simp only [State.deliver]
  split
  next h => exact State.fixed_of_portRead h
  next h =>
    split
    next h' => rw [State.fixed_of_portRead h', State.fixed_of_portRead h]
    next h' => split <;> simp [State.fixed_of_portRead h', State.fixed_of_portRead h]

@[simp] theorem State.handIngress_fixed (s : State) (port : Nat) (f : IngFrame) : (State.handIngress s port f).fixed = s.fixed := by
  simp [State.handIngress]

@[simp] theorem execIngressDelivery_fixed (port : Fin 16) (s : State) : ((execIngressDelivery port s).after s).fixed = s.fixed := by
  simp only [execIngressDelivery]
  split
  · simp
  · split
    · simp
    · split <;> simp

@[simp] theorem execIngressPromotion_fixed (port : Fin 16) (client : Fin 1024) (s : State) :
    ((execIngressPromotion port client s).after s).fixed = s.fixed := by
  simp only [execIngressPromotion]
  split <;> simp

@[simp] theorem State.pollTail_fixed (s : State) (k : Nat) : (s.pollTail k).fixed = s.fixed := by
  simp only [State.pollTail]
  split
  next h => exact State.fixed_of_portRead h
  next h => simpa using State.fixed_of_portRead h

@[simp] theorem execEgressPoll_fixed (client : Fin 1024) (s : State) : ((execEgressPoll client s).after s).fixed = s.fixed := by
  simp [execEgressPoll]

@[simp] theorem State.sendEgress_fixed (s : State) (k link : Nat) : (s.sendEgress k link).fixed = s.fixed := by
  simp only [State.sendEgress]
  split
  next h => exact State.fixed_of_portRead h
  next h => simp [State.fixed_of_portRead h]

@[simp] theorem execEgressFrameSend_fixed (client : Fin 1024) (s : State) : ((execEgressFrameSend client s).after s).fixed = s.fixed := by
  simp only [execEgressFrameSend]
  split
  · simp
  · split <;> simp

/-! ### The gateway -/

@[simp] theorem State.gateSend_fixed (s : State) (x : FabWait) (kind n : Nat) : (State.gateSend s x kind n).fixed = s.fixed := by
  simp [State.gateSend]

@[simp] theorem State.mapWait_fixed (s : State) (tag : Nat) (f : FabWait → FabWait) : (State.mapWait s tag f).fixed = s.fixed := by
  simp [State.mapWait]

@[simp] theorem State.gateArrive_fixed (s : State) (idx : Nat) (p : Packet) : (s.gateArrive idx p).fixed = s.fixed := by
  simp only [State.gateArrive]
  split
  · split <;> simp
  · simp
  · split <;> simp
  · split <;> simp
  · rfl

@[simp] theorem execMeshFlitHop_fixed (idx flit : Nat) (ce ue : List Nat) (s : State) : ((execMeshFlitHop idx flit ce ue s).after s).fixed = s.fixed := by
  simp only [execMeshFlitHop]
  iterate 3 (split; · rfl)
  iterate 4 (split; · simp)
  split <;> simp

@[simp] theorem execGatewayGrant_fixed (idx : Nat) (s : State) : ((execGatewayGrant idx s).after s).fixed = s.fixed := by
  unfold execGatewayGrant
  split <;> simp

@[simp] theorem execReservationRetry_fixed (idx : Nat) (s : State) : ((execReservationRetry idx s).after s).fixed = s.fixed := by
  simp only [execReservationRetry]
  split
  · simp
  · split <;> simp

/-! ### The fabric -/

@[simp] theorem State.deliverHere_fixed (s : State) (inPort : Nat) (x : FabPkt) : (State.deliverHere s inPort x).fixed = s.fixed := by
  unfold State.deliverHere
  split <;> simp

@[simp] theorem State.forward_fixed (s : State) (p idx : Nat) (x : FabPkt) (port : Nat) (continues : Bool) :
    (State.forward s p idx x port continues).fixed = s.fixed := by
  simp [State.forward]

@[simp] theorem execFabricPacketArrival_fixed (port : Fin 16) (idx : Nat) (s : State) : ((execFabricPacketArrival port idx s).after s).fixed = s.fixed := by
  simp only [execFabricPacketArrival]
  split
  · rfl
  · split
    · rfl
    · iterate 2 (split; · simp)
      split <;> simp

@[simp] theorem State.reserve_fixed (s : State) (idx : Nat) (x : FabWait) : (State.reserve s idx x).fixed = s.fixed := by
  simp [State.reserve]

@[simp] theorem State.escapeOut_fixed (s : State) (idx : Nat) (x : FabWait) : (State.escapeOut s idx x).fixed = s.fixed := by
  unfold State.escapeOut
  split <;> simp

@[simp] theorem execGatewayReservation_fixed (idx : Nat) (s : State) : ((execGatewayReservation idx s).after s).fixed = s.fixed := by
  simp only [execGatewayReservation]
  split
  · rfl
  · split
    · rfl
    · split
      · iterate 2 (split; · simp)
        split <;> simp
      · split <;> simp
      · rfl

@[simp] theorem execEnteringPromotion_fixed (idx : Nat) (s : State) : ((execEnteringPromotion idx s).after s).fixed = s.fixed := by
  simp only [execEnteringPromotion]
  split
  · simp
  · split <;> simp

@[simp] theorem execGatewayReadRepresent_fixed (port : Fin 16) (idx : Nat) (s : State) : ((execGatewayReadRepresent port idx s).after s).fixed = s.fixed := by
  simp only [execGatewayReadRepresent]
  split <;> simp

@[simp] theorem State.escapeHere_fixed (s : State) (x : FabPkt) : (State.escapeHere s x).fixed = s.fixed := by
  simp [State.escapeHere]

@[simp] theorem execEscapePacketArrival_fixed (port : Fin 16) (idx : Nat) (s : State) : ((execEscapePacketArrival port idx s).after s).fixed = s.fixed := by
  simp only [execEscapePacketArrival]
  iterate 2 (split; · rfl)
  iterate 3 (split; · simp)
  split <;> simp

@[simp] theorem State.writeRoute_fixed (s : State) (d : Nat) (value : Word) : (State.writeRoute s d value).fixed = s.fixed := by
  simp [State.writeRoute]

@[simp] theorem execFabRtWrite_fixed (version : Fin 2) (dim : Fin 4) (coord : Fin 4096) (value : Word) (s : State) :
    ((execFabRtWrite version dim coord value s).after s).fixed = s.fixed := by
  simp [execFabRtWrite]

@[simp] theorem State.armEpoch_fixed (s : State) (time : Word) : (State.armEpoch s time).fixed = s.fixed := by
  simp [State.armEpoch]

@[simp] theorem execFabEpochAtWrite_fixed (time : Word) (s : State) : ((execFabEpochAtWrite time s).after s).fixed = s.fixed := by
  simp [execFabEpochAtWrite]

@[simp] theorem execEpochSwitch_fixed (s : State) : ((execEpochSwitch s).after s).fixed = s.fixed := by
  unfold execEpochSwitch
  split <;> simp

@[simp] theorem execEpochIdle_fixed (s : State) : ((execEpochIdle s).after s).fixed = s.fixed := by
  simp [execEpochIdle]

@[simp] theorem execCmapSend_fixed (port : Fin 16) (s : State) : ((execCmapSend port s).after s).fixed = s.fixed := by
  simp [execCmapSend]

@[simp] theorem State.setPartner_fixed (s : State) (p v : Nat) : (State.setPartner s p v).fixed = s.fixed := by
  simp [State.setPartner]

@[simp] theorem execCmapReceive_fixed (port : Fin 16) (idx : Nat) (s : State) : ((execCmapReceive port idx s).after s).fixed = s.fixed := by
  simp only [execCmapReceive]
  iterate 2 (split; · rfl)
  split
  · split
    · simp
    · split <;> simp
  · rfl

@[simp] theorem execCmapStale_fixed (port : Fin 16) (s : State) : ((execCmapStale port s).after s).fixed = s.fixed := by
  simp [execCmapStale]

@[simp] theorem State.steer_fixed (s : State) (err : Int) : (State.steer s err).fixed = s.fixed := by
  simp [State.steer]

@[simp] theorem execTimeTransferSend_fixed (port : Fin 16) (sub : Fin 40) (s : State) : ((execTimeTransferSend port sub s).after s).fixed = s.fixed := by
  simp [execTimeTransferSend]

@[simp] theorem State.exchange_fixed (s : State) (p : Nat) (t1 t2 t3 t4 : Int) : (State.exchange s p t1 t2 t3 t4).fixed = s.fixed := by
  simp [State.exchange]

@[simp] theorem execTimeTransferReceive_fixed (port : Fin 16) (idx : Nat) (sub : Fin 40) (s : State) :
    ((execTimeTransferReceive port idx sub s).after s).fixed = s.fixed := by
  simp only [execTimeTransferReceive]
  iterate 2 (split; · rfl)
  split
  · split
    · simp
    · split <;> simp
  · rfl

@[simp] theorem execTimeParentLoss_fixed (s : State) : ((execTimeParentLoss s).after s).fixed = s.fixed := by
  simp [execTimeParentLoss]

/-! ### The device as a whole -/

@[simp] theorem State.clearRim_fixed (s : State) : (State.clearRim s).fixed = s.fixed := by
  simp [State.clearRim]

@[simp] theorem State.logCause_fixed (s : State) (cause : Nat) : (State.logCause s cause).fixed = s.fixed := by
  simp [State.logCause]

/-! ### Power and temperature -/

@[simp] theorem State.mapPower_fixed (s : State) (n : Nat) (f : ClPower → ClPower) : (State.mapPower s n f).fixed = s.fixed := by
  simp [State.mapPower]

@[simp] theorem State.setPw_fixed (s : State) (n : Nat) (f : Fld) (v : Nat) : (State.setPw s n f v).fixed = s.fixed := by
  simp [State.setPw]

@[simp] theorem State.recordPoint_fixed (s : State) (n v : Nat) : (State.recordPoint s n v).fixed = s.fixed := by
  simp [State.recordPoint]

@[simp] theorem State.writeRail_fixed (s : State) (n v : Nat) (ok : Bool) : (State.writeRail s n v ok).fixed = s.fixed := by
  simp [State.writeRail]

@[simp] theorem State.askRails_fixed (s : State) (v : Nat → Nat) : (State.askRails s v).fixed = s.fixed := by
  simp [State.askRails]

@[simp] theorem State.fixRails_fixed (s : State) : (State.fixRails s).fixed = s.fixed := by
  simp [State.fixRails]

@[simp] theorem State.armFreq_fixed (s : State) (mhz : Nat) : (State.armFreq s mhz).fixed = s.fixed := by
  simp [State.armFreq]

@[simp] theorem State.startRaise_fixed (s : State) (mhz : Nat) : (State.startRaise s mhz).fixed = s.fixed := by
  simp [State.startRaise]

@[simp] theorem State.dropRaise_fixed (s : State) : (State.dropRaise s).fixed = s.fixed := by
  simp [State.dropRaise]

@[simp] theorem State.addEnergy_fixed (s : State) (f : Fld) (fj : Nat) : (State.addEnergy s f fj).fixed = s.fixed := by
  simp [State.addEnergy]

@[simp] theorem State.serveRail_fixed (s : State) (n : Nat) (ok : Bool) : (State.serveRail s n ok).fixed = s.fixed := by
  simp only [State.serveRail]
  split <;> simp

@[simp] theorem State.readRail_fixed (s : State) (n : Nat) (a : Option Nat) : (State.readRail s n a).fixed = s.fixed := by
  unfold State.readRail
  split <;> simp

@[simp] theorem execAvsFrame_fixed (bus : Fin 13) (amps volts : List (Option Nat)) (answered : List Bool) (s : State) :
    ((execAvsFrame bus amps volts answered s).after s).fixed = s.fixed := by
  simp [execAvsFrame]

@[simp] theorem execVoltageLoopDecision_fixed (cluster : ClusterId) (slack : Nat) (lowerOk : Bool) (s : State) :
    ((execVoltageLoopDecision cluster slack lowerOk s).after s).fixed = s.fixed := by
  simp [execVoltageLoopDecision]

@[simp] theorem execDroopDetect_fixed (cluster : ClusterId) (below : Int) (negative : Bool) (clocks : Nat) (paced : Bool) (s : State) :
    ((execDroopDetect cluster below negative clocks paced s).after s).fixed = s.fixed := by
  simp [execDroopDetect]

@[simp] theorem execHintRailRaise_fixed (cluster : ClusterId) (activity : Fin 17) (answered : Bool) (s : State) :
    ((execHintRailRaise cluster activity answered s).after s).fixed = s.fixed := by
  simp [execHintRailRaise]

@[simp] theorem execBoostPrecharge_fixed (cluster : ClusterId) (activity : Fin 17) (s : State) :
    ((execBoostPrecharge cluster activity s).after s).fixed = s.fixed := by
  simp [execBoostPrecharge]

@[simp] theorem execHintRailReturn_fixed (cluster : ClusterId) (answered : Bool) (s : State) :
    ((execHintRailReturn cluster answered s).after s).fixed = s.fixed := by
  simp only [execHintRailReturn]
  split <;> simp

@[simp] theorem State.writePowerMode_fixed (s : State) (mode : Nat) : (State.writePowerMode s mode).fixed = s.fixed := by
  simp [State.writePowerMode]

@[simp] theorem execPwrModeWrite_fixed (mode : Fin 4) (s : State) : ((execPwrModeWrite mode s).after s).fixed = s.fixed := by
  simp [execPwrModeWrite]

@[simp] theorem State.takeMode_fixed (s : State) (mode : Nat) : (State.takeMode s mode).fixed = s.fixed := by
  simp [State.takeMode]

@[simp] theorem State.govern_fixed (s : State) (f : Nat) : (State.govern s f).fixed = s.fixed := by
  simp [State.govern]

@[simp] theorem execGovernorPeriod_fixed (s : State) : ((execGovernorPeriod s).after s).fixed = s.fixed := by
  unfold execGovernorPeriod
  extract_lets period hot caps power s₁ s₂ s₃ s₄
  have h₂ : s₂.fixed = s.fixed := by simp [s₂, s₁]
  have h₃ : s₃.fixed = s.fixed := by simp [s₃, h₂]
  have h₄ : s₄.fixed = s.fixed := by simp [s₄, h₃]
  split
  · rfl
  · split
    · exact h₄
    · split <;> simp [h₄]

@[simp] theorem execRaiseSettleElapsed_fixed (s : State) : ((execRaiseSettleElapsed s).after s).fixed = s.fixed := by
  unfold execRaiseSettleElapsed
  split <;> simp

@[simp] theorem execPeakLimiter_fixed (rest : Nat) (eighths : Fin 8) (s : State) : ((execPeakLimiter rest eighths s).after s).fixed = s.fixed := by
  simp [execPeakLimiter]

@[simp] theorem execClusterCurrentLimit_fixed (cluster : ClusterId) (u : Unit) (eighths : Fin 8) (s : State) :
    ((execClusterCurrentLimit cluster u eighths s).after s).fixed = s.fixed := by
  simp [execClusterCurrentLimit]

@[simp] theorem State.addCore_fixed (s : State) (n i raw : Nat) : (State.addCore s n i raw).fixed = s.fixed := by
  simp only [State.addCore]
  split <;> simp

@[simp] theorem execEnergyEstimate_fixed (cluster : ClusterId) (counts : List (List Nat)) (s : State) :
    ((execEnergyEstimate cluster counts s).after s).fixed = s.fixed := by
  simp only [execEnergyEstimate]
  split
  · simp
  · split <;> simp

@[simp] theorem execEnergyReconcile_fixed (cluster : ClusterId) (s : State) : ((execEnergyReconcile cluster s).after s).fixed = s.fixed := by
  simp [execEnergyReconcile]

/-! ### Clocks and time -/

@[simp] theorem State.setXf_fixed (s : State) (n side : Nat) (f : Fld) (v : Nat) : (State.setXf s n side f v).fixed = s.fixed := by
  simp [State.setXf]

@[simp] theorem State.setCk_fixed (s : State) (n : Nat) (f : Fld) (v : Nat) : (State.setCk s n f v).fixed = s.fixed := by
  simp [State.setCk]

@[simp] theorem State.setCrossing_fixed (s : State) (n side : Nat) (x : Crossing) : (State.setCrossing s n side x).fixed = s.fixed := by
  simp [State.setCrossing]

@[simp] theorem State.retrainXing_fixed (s : State) (n side : Nat) (w : Int × Int) : (State.retrainXing s n side w).fixed = s.fixed := by
  simp [State.retrainXing]

@[simp] theorem State.stopAcross_fixed (s : State) (m n : Nat) : (State.stopAcross s m n).fixed = s.fixed := by
  simp [State.stopAcross]

@[simp] theorem State.failXing_fixed (s : State) (n side : Nat) : (State.failXing s n side).fixed = s.fixed := by
  simp [State.failXing]

@[simp] theorem State.retrainNow_fixed (s : State) (n side : Nat) (w : Int × Int) : (State.retrainNow s n side w).fixed = s.fixed := by
  simp [State.retrainNow]

@[simp] theorem execCrossingSweep_fixed (cluster : ClusterId) (side : Fin 4) (a b : Fin 512) (s : State) :
    ((execCrossingSweep cluster side a b s).after s).fixed = s.fixed := by
  simp [execCrossingSweep]

@[simp] theorem State.retrainBundle_fixed (s : State) (n side : Nat) : (State.retrainBundle s n side).fixed = s.fixed := by
  simp [State.retrainBundle]

@[simp] theorem execMeshLinkReplay_fixed (i : CoreId) (dir : Fin 4) (clears : Bool) (s : State) :
    ((execMeshLinkReplay i dir clears s).after s).fixed = s.fixed := by
  unfold execMeshLinkReplay
  split <;> simp

@[simp] theorem execHairlineReplay_fixed (cluster : ClusterId) (dir : Fin 4) (clears : Bool) (s : State) :
    ((execHairlineReplay cluster dir clears s).after s).fixed = s.fixed := by
  simp [execHairlineReplay]

@[simp] theorem State.setCrossings_fixed (s : State) (mhz : Nat) : (State.setCrossings s mhz).fixed = s.fixed := by
  simp [State.setCrossings]

@[simp] theorem State.armSlew_fixed (s : State) (value : Word) : (State.armSlew s value).fixed = s.fixed := by
  simp [State.armSlew]

@[simp] theorem execClkFreqAtWrite_fixed (value : Word) (s : State) : ((execClkFreqAtWrite value s).after s).fixed = s.fixed := by
  simp [execClkFreqAtWrite]

@[simp] theorem State.writeTarget_fixed (s : State) (v : Nat) : (State.writeTarget s v).fixed = s.fixed := by
  simp [State.writeTarget]

@[simp] theorem execClkFreqTargetWrite_fixed (value : Word) (s : State) : ((execClkFreqTargetWrite value s).after s).fixed = s.fixed := by
  simp [execClkFreqTargetWrite]

@[simp] theorem execFrequencySlewStart_fixed (s : State) : ((execFrequencySlewStart s).after s).fixed = s.fixed := by
  unfold execFrequencySlewStart
  split <;> simp

@[simp] theorem execFrequencySlewEnd_fixed (s : State) : ((execFrequencySlewEnd s).after s).fixed = s.fixed := by
  unfold execFrequencySlewEnd
  split <;> simp

@[simp] theorem execReferenceLoss_fixed (cluster : ClusterId) (s : State) : ((execReferenceLoss cluster s).after s).fixed = s.fixed := by
  simp [execReferenceLoss]

@[simp] theorem execPllRelock_fixed (cluster : ClusterId) (sweeps : List (ClusterId × Fin 4 × Fin 512 × Fin 512)) (s : State) :
    ((execPllRelock cluster sweeps s).after s).fixed = s.fixed := by
  simp [execPllRelock]

@[simp] theorem execHoldoverTimeout_fixed (cluster : ClusterId) (s : State) : ((execHoldoverTimeout cluster s).after s).fixed = s.fixed := by
  simp [execHoldoverTimeout]

@[simp] theorem execRefclkLoss_fixed (s : State) : ((execRefclkLoss s).after s).fixed = s.fixed := by
  simp [execRefclkLoss]

@[simp] theorem execRefclkReturn_fixed (s : State) : ((execRefclkReturn s).after s).fixed = s.fixed := by
  simp [execRefclkReturn]

@[simp] theorem State.readTimeNs_fixed (s : State) (reader : Nat) : (State.readTimeNs s reader).fixed = s.fixed := by
  simp [State.readTimeNs]

@[simp] theorem execTimeNsRead_fixed (reader : Fin 18) (s : State) : ((execTimeNsRead reader s).after s).fixed = s.fixed := by
  simp [execTimeNsRead]

@[simp] theorem State.stepTime_fixed (s : State) (sec ns : Nat) : (s.stepTime sec ns).fixed = s.fixed := by
  unfold State.stepTime
  extract_lets old r₁ s₁ now d s₂ move s₃ r₂ _ s₄ r₃ _ s₅
  have h₁ : s₁.fixed = s.fixed := by simp only [s₁, r₁, State.fixed_mk, State.fixed_eta, State.setFld_fixed]
  have h₂ : s₂.fixed = s.fixed := (foldl_fixed (fun t n => State.mapCluster_fixed ..) _ s₁).trans h₁
  have h₃ : s₃.fixed = s.fixed := (foldl_fixed (fun t x => State.setCore_fixed ..) _ s₂).trans h₂
  have h₄ : s₄.fixed = s.fixed := by
    unfold s₄
    split
    · simp only [r₂, State.fixed_mk, State.fixed_eta, State.setFld_fixed, h₃]
    · exact h₃
  have h₅ : s₅.fixed = s.fixed := by
    unfold s₅
    split
    · simp only [r₃, State.fixed_mk, State.fixed_eta, State.setFld_fixed, State.setReg_fixed, h₄]
    · exact h₄
  simp only [State.fixed_mk, State.fixed_eta, h₅]

@[simp] theorem State.advanceTime_fixed (s : State) : (State.advanceTime s).fixed = s.fixed := by
  unfold State.advanceTime
  split <;> simp

@[simp] theorem execTimeBaseTick_fixed (s : State) : ((execTimeBaseTick s).after s).fixed = s.fixed := by
  simp [execTimeBaseTick]

@[simp] theorem State.armStage_fixed (s : State) (v : Word) : (State.armStage s v).fixed = s.fixed := by
  simp [State.armStage]

@[simp] theorem execTimeStageArm_fixed (value : Word) (s : State) : ((execTimeStageArm value s).after s).fixed = s.fixed := by
  simp [execTimeStageArm]

@[simp] theorem execTimeCommit_fixed (s : State) : ((execTimeCommit s).after s).fixed = s.fixed := by
  simp [execTimeCommit]

@[simp] theorem execPpsInEdge_fixed (sub : Fin 40) (s : State) : ((execPpsInEdge sub s).after s).fixed = s.fixed := by
  unfold execPpsInEdge
  split
  · rfl
  · split
    · simp
    · extract_lets ns err r _ t _ u
      have ht : t.fixed = s.fixed := by simp only [t, r, State.fixed_mk, State.fixed_eta, State.setReg_fixed]
      have hu : u.fixed = s.fixed := by
        unfold u
        split <;> simp [ht]
      split
      · exact ht
      · split <;> simp [hu]

@[simp] theorem execPpsInLoss_fixed (s : State) : ((execPpsInLoss s).after s).fixed = s.fixed := by
  simp [execPpsInLoss]

@[simp] theorem execPpsOutPulse_fixed (s : State) : ((execPpsOutPulse s).after s).fixed = s.fixed := by
  simp [execPpsOutPulse]

@[simp] theorem execPpsOutEnd_fixed (s : State) : ((execPpsOutEnd s).after s).fixed = s.fixed := by
  simp [execPpsOutEnd]

/-! ### Rows of the map -/

@[simp] theorem State.setRow_fixed (s : State) (row : Nat) (failed : List Nat) (field : Bool) : (State.setRow s row failed field).fixed = s.fixed := by
  simp [State.setRow]

@[simp] theorem State.writeMesh_fixed (s : State) (cores : List Nat) : (State.writeMesh s cores).fixed = s.fixed := by
  simp [State.writeMesh]

@[simp] theorem State.mapOut_fixed (s : State) (i : Nat) : (State.mapOut s i).fixed = s.fixed := by
  simp [State.mapOut]

@[simp] theorem State.formMap_fixed (s : State) (found : List Nat) : (State.formMap s found).fixed = s.fixed := by
  simp [State.formMap]

/-! ### Resets and the start -/

@[simp] theorem execCoolantOkHigh_fixed (s : State) : ((execCoolantOkHigh s).after s).fixed = s.fixed := by
  unfold execCoolantOkHigh
  split <;> simp

@[simp] theorem execResetNHeld_fixed (s : State) : ((execResetNHeld s).after s).fixed = s.fixed := by
  simp [execResetNHeld]

@[simp] theorem State.findFailed_fixed (s : State) (n : Nat) : (State.findFailed s n).fixed = s.fixed := by
  simp [State.findFailed]

@[simp] theorem State.alignXing_fixed (s : State) (x : XingFit) : (State.alignXing s x).fixed = s.fixed := by
  simp only [State.alignXing]
  split
  · simp
  · split <;> simp

@[simp] theorem State.setPoints_fixed (s : State) (n : Nat) (ps : List (Nat × Nat)) : (State.setPoints s n ps).fixed = s.fixed := by
  simp [State.setPoints]

@[simp] theorem State.alignOne_fixed (s : State) (found : List XingFit) (n side : Nat) : (State.alignOne s found n side).fixed = s.fixed := by
  unfold State.alignOne
  split <;> simp

@[simp] theorem State.startWave_fixed (s : State) (bad : List Nat) : (State.startWave s bad).fixed = s.fixed := by
  simp [State.startWave]

@[simp] theorem State.startPorts_fixed (s : State) (b : Bringup) : (s.startPorts b).fixed = s.fixed := by
  refine foldl_fixed (fun t p => ?_) _ s
  split
  · simp
  · simp

@[simp] theorem State.idlePass_fixed (s : State) (reached : List (Nat × List Nat)) : (State.idlePass s reached).fixed = s.fixed := by
  simp [State.idlePass]

@[simp] theorem State.stressPass_fixed (s : State) (reached : List (Nat × List Nat)) : (State.stressPass s reached).fixed = s.fixed := by
  simp [State.stressPass]

@[simp] theorem State.setInterfaces_fixed (s : State) (found : List (Nat × (Nat × Nat) × (Nat × Nat))) : (s.setInterfaces found).fixed = s.fixed := by
  refine foldl_fixed (fun t x => ?_) _ s
  split
  · simp
  · rfl

@[simp] theorem State.endPhase_fixed (s : State) (phase : Nat) (b : Bringup) : (State.endPhase s phase b).fixed = s.fixed := by
  unfold State.endPhase
  split <;> simp

@[simp] theorem State.logFailed_fixed (old new : State) : (State.logFailed old new).fixed = new.fixed :=
  foldl_fixed (fun _ _ => by simp) _ new

@[simp] theorem State.freezeAt_fixed (s : State) (t source : Nat) : (State.freezeAt s t source).fixed = s.fixed := by
  simp [State.freezeAt]

@[simp] theorem execBringupPhaseComplete_fixed (found : Bringup) (s : State) : ((execBringupPhaseComplete found s).after s).fixed = s.fixed := by
  simp [execBringupPhaseComplete]

@[simp] theorem execPhaseLimitExceeded_fixed (s : State) : ((execPhaseLimitExceeded s).after s).fixed = s.fixed := by
  simp [execPhaseLimitExceeded]

@[simp] theorem execStartTimerExpiry_fixed (s : State) : ((execStartTimerExpiry s).after s).fixed = s.fixed := by
  simp [execStartTimerExpiry]

@[simp] theorem State.declareStart_fixed (s : State) : (State.declareStart s).fixed = s.fixed := by
  simp [State.declareStart]

@[simp] theorem execStartOk_fixed (s : State) : ((execStartOk s).after s).fixed = s.fixed := by
  simp [execStartOk]

/-! ### Images -/

@[simp] theorem State.loadSection_fixed (s : State) (t : Site) (x : Section) : (State.loadSection s t x).fixed = s.fixed := by
  unfold State.loadSection
  split <;> simp

@[simp] theorem State.loadAll_fixed (s : State) (t : Site) (c : Container) : (State.loadAll s t c).fixed = s.fixed := by
  simp [State.loadAll]

@[simp] theorem State.stage_fixed (s : State) (target off : Nat) (bs : List Byte) : (State.stage s target off bs).fixed = s.fixed := by
  simp [State.stage]

/-- What resets alone change, of a state that comes with something else. A name of its own keeps the kernel from evaluating the pair. -/
def fixedOfPair {β : Type} (r : β × State) : DevState × List Instr × Nat × (Nat × Nat × Nat) × Option Nat := r.2.fixed

theorem foldl_fixedOfPair {α β : Type} {g : β × State → α → β × State} (h : ∀ r a, fixedOfPair (g r a) = fixedOfPair r) (l : List α) (r : β × State) :
    (l.foldl g r).2.fixed = r.2.fixed := foldl_snd_fixed h l r

@[simp] theorem State.stageRead_fixed (s : State) (target n : Nat) : (s.stageRead target n).2.fixed = s.fixed := by
  rw [State.stageRead]
  split
  · rfl
  · refine foldl_fixedOfPair (fun r j => ?_) _ _
    extract_lets t i m
    have accessed : fixedOfPair (t.access (0, pyOf i) (t.placeOf i) 1 (flitsOf (ceilDiv m 8)) (ceilDiv m 8)) = fixedOfPair r := State.access_fixed ..
    split
    next y u h =>
      rw [h] at accessed
      split
      · exact (u.setCore_fixed ..).trans accessed
      · exact accessed

@[simp] theorem State.stageClear_fixed (s : State) (target n : Nat) : (State.stageClear s target n).fixed = s.fixed := by
  simp [State.stageClear]

@[simp] theorem State.setLoad_fixed (s : State) (target : Nat) (l : Option Load) : (State.setLoad s target l).fixed = s.fixed := by
  simp [State.setLoad]

@[simp] theorem State.dropLoad_fixed (s : State) (target : Nat) : (State.dropLoad s target).fixed = s.fixed := by
  simp [State.dropLoad]

@[simp] theorem execImageChunk_fixed (s : State) : ((execImageChunk s).after s).fixed = s.fixed := by
  simp only [execImageChunk]
  split
  · rfl
  · split
    · rfl
    · iterate 2 (split; · simp)
      iterate 2 (split; · simp)
      split <;> simp

@[simp] theorem State.reject_fixed (s : State) (target : Nat) (f : Failure) : (State.reject s target f).fixed = s.fixed := by
  simp [State.reject]

@[simp] theorem State.loadScribe_fixed (s : State) (c : Container) : (State.loadScribe s c).fixed = s.fixed := by
  simp [State.loadScribe]

@[simp] theorem State.takeDevice_fixed (s : State) : (State.takeDevice s).fixed = s.fixed := by
  simp [State.takeDevice]

@[simp] theorem State.markWindows_fixed (s : State) (t : Site) : (State.markWindows s t).fixed = s.fixed := by
  simp [State.markWindows]

@[simp] theorem State.loadMirrors_fixed (s : State) (r : Nat) : (State.loadMirrors s r).fixed = s.fixed := by
  simp [State.loadMirrors]

@[simp] theorem State.broadcast_fixed (s : State) (r : Nat) (c : Container) : (State.broadcast s r c).fixed = s.fixed := by
  simp [State.broadcast]

@[simp] theorem State.takeRegion_fixed (s : State) (r : Nat) (c : Container) : (State.takeRegion s r c).fixed = s.fixed := by
  simp [State.takeRegion]

@[simp] theorem execImageCommit_fixed (s : State) : ((execImageCommit s).after s).fixed = s.fixed := by
  simp only [execImageCommit]
  split
  · rfl
  · split
    · rfl
    · split
      · simp
      · split
        · simp
        · iterate 2 (split; · simp)
          split <;> simp

@[simp] theorem execImageAbort_fixed (s : State) : ((execImageAbort s).after s).fixed = s.fixed := by
  simp only [execImageAbort]
  split
  · simp
  · split
    · simp
    · split <;> simp

@[simp] theorem execColophon_fixed (s : State) : ((execColophon s).after s).fixed = s.fixed := by
  simp only [execColophon]
  split
  · rfl
  · split
    · rfl
    · split
      · simp
      · iterate 2 (split; · simp)
        split <;> simp

@[simp] theorem execRepairList_fixed (s : State) : ((execRepairList s).after s).fixed = s.fixed := by
  simp only [execRepairList]
  split
  · rfl
  · iterate 2 (split; · simp)
    split <;> simp

/-! ### Repair -/

@[simp] theorem State.failCore_fixed (s : State) (i : Nat) : (State.failCore s i).fixed = s.fixed := by
  simp [State.failCore]

@[simp] theorem State.judge_fixed (s : State) (i : Nat) : (State.judge s i).fixed = s.fixed := by
  simp [State.judge]

@[simp] theorem State.score_fixed (s : State) (i : Nat) : (State.score s i).fixed = s.fixed := by
  simp [State.score]

@[simp] theorem execDetectedErrorReport_fixed (i : CoreId) (s : State) : ((execDetectedErrorReport i s).after s).fixed = s.fixed := by
  unfold execDetectedErrorReport
  split <;> simp

@[simp] theorem execSuspectScoreHalving_fixed (s : State) : ((execSuspectScoreHalving s).after s).fixed = s.fixed := by
  simp [execSuspectScoreHalving]

@[simp] theorem State.leaveGroup_fixed (s : State) (m : Nat) : (State.leaveGroup s m).fixed = s.fixed := by
  unfold State.leaveGroup
  split <;> simp

@[simp] theorem State.release_fixed (s : State) (fab : Bool) (idx : Nat) (poison : Bool) : (State.release s fab idx poison).fixed = s.fixed := by
  simp only [State.release]
  split
  · split <;> simp
  · split <;> simp

@[simp] theorem State.vote_fixed (s : State) (r i : Nat) (fab : Bool) (idx : Nat) (v : Verdict) : (State.vote s r i fab idx v).fixed = s.fixed := by
  unfold State.vote
  split <;> simp

@[simp] theorem execCheckVote_fixed (fab : Bool) (idx : Nat) (u : Unit) (digests : List Digest) (s : State) :
    ((execCheckVote fab idx u digests s).after s).fixed = s.fixed := by
  unfold execCheckVote
  split <;> simp

@[simp] theorem execVoteDigestTimeout_fixed (fab : Bool) (idx : Nat) (u : Unit) (digests : List (Option Digest)) (s : State) :
    ((execVoteDigestTimeout fab idx u digests s).after s).fixed = s.fixed := by
  unfold execVoteDigestTimeout
  split <;> simp

@[simp] theorem execFailedCoreProcedure_fixed (i : CoreId) (s : State) : ((execFailedCoreProcedure i s).after s).fixed = s.fixed := by
  simp only [execFailedCoreProcedure]
  split
  · simp
  · split
    · simp
    · split <;> simp

@[simp] theorem State.reload_fixed (s : State) (r : Nat) : (State.reload s r).fixed = s.fixed := by
  simp [State.reload]

@[simp] theorem execRepairRemap_fixed (i : CoreId) (s : State) : ((execRepairRemap i s).after s).fixed = s.fixed := by
  simp [execRepairRemap]

@[simp] theorem State.setExemplars_fixed (s : State) (l : List Exemplar) : (State.setExemplars s l).fixed = s.fixed := by
  simp [State.setExemplars]

@[simp] theorem State.commitExemplar_fixed (s : State) : (State.commitExemplar s).fixed = s.fixed := by
  simp [State.commitExemplar]

@[simp] theorem execExemplarCommit_fixed (s : State) : ((execExemplarCommit s).after s).fixed = s.fixed := by
  simp [execExemplarCommit]

@[simp] theorem execExemplarClearAll_fixed (s : State) : ((execExemplarClearAll s).after s).fixed = s.fixed := by
  simp [execExemplarClearAll]

@[simp] theorem State.exStart_fixed (s : State) (c : Container) (i : Nat) : (State.exStart s c i).fixed = s.fixed := by
  simp [State.exStart]

@[simp] theorem State.exLigs_fixed (s : State) (c : Container) (n : Nat) : (State.exLigs s c n).fixed = s.fixed := by
  simp [State.exLigs]

@[simp] theorem State.exBegin_fixed (s : State) (y : Exemplar) (is : List Nat) : (State.exBegin s y is).fixed = s.fixed := by
  simp [State.exBegin]

@[simp] theorem State.exStop_fixed (s : State) (x : ExRun) : (State.exStop s x).fixed = s.fixed := by
  simp [State.exStop]

@[simp] theorem execExemplarRun_fixed (id : Word) (cores : List CoreId) (region : Option (Fin 64)) (s : State) :
    ((execExemplarRun id cores region s).after s).fixed = s.fixed := by
  simp only [execExemplarRun]
  split <;> simp

@[simp] theorem State.pass_fixed (s : State) (again : Bool) (i : Nat) : (State.pass s again i).fixed = s.fixed := by
  simp [State.pass]

@[simp] theorem State.settleOverdue_fixed (s : State) (r : Nat) : (State.settleOverdue s r).fixed = s.fixed := by
  simp [State.settleOverdue]

@[simp] theorem execExemplarRunEnd_fixed (idx : Nat) (u v : Unit) (s : State) : ((execExemplarRunEnd idx u v s).after s).fixed = s.fixed := by
  unfold execExemplarRunEnd
  split
  · rfl
  next x _ =>
    split
    · simp
    next y _ =>
      split
      · rfl
      · extract_lets pass done is s₁ report s₂ s₃ s₄
        have hdone (t : State) : (done t).fixed = t.fixed := by
          simp only [done]
          split
          · split <;> simp
          · simp
        have hreport (t : State) : (report t).fixed = t.fixed := by simp [report]
        split
        · simp [hdone]
        · split <;> simp [hdone, hreport, s₄, s₃, s₂, s₁]

@[simp] theorem execExemplarOverdue_fixed (i : CoreId) (s : State) : ((execExemplarOverdue i s).after s).fixed = s.fixed := by
  unfold execExemplarOverdue
  split <;> simp

/-! ### The log, freezes and the blotter -/

@[simp] theorem State.copyAll_fixed (s : State) (seq : Nat) : (s.copyAll seq).fixed = s.fixed := by
  have copied (l : List Nat) (t : State) :
      (l.foldl (fun s n => (clusterCores n).foldl (fun s i => s.mapCore i (Core.snap seq)) (s.mapCluster n (Cluster.snap seq))) t).fixed = t.fixed :=
    foldl_fixed (fun u n => by simp) l t
  simp [State.copyAll, copied]

@[simp] theorem State.armSnap_fixed (s : State) (t : Nat) : (State.armSnap s t).fixed = s.fixed := by
  simp only [State.armSnap]
  split <;> simp

@[simp] theorem State.takeSnap_fixed (s : State) (t : Nat) : (State.takeSnap s t).fixed = s.fixed := by
  simp [State.takeSnap]

@[simp] theorem execSnapAtWrite_fixed (time : Word) (s : State) : ((execSnapAtWrite time s).after s).fixed = s.fixed := by
  simp [execSnapAtWrite]

@[simp] theorem execSnapCopy_fixed (s : State) : ((execSnapCopy s).after s).fixed = s.fixed := by
  unfold execSnapCopy
  split <;> simp

@[simp] theorem execCounterSnap_fixed (s : State) : ((execCounterSnap s).after s).fixed = s.fixed := by
  unfold execCounterSnap
  split
  · rfl
  next p _ =>
    split
    · rfl
    · split
      · simp
      · rw [Out.after_next, State.answer_fixed, State.armSnap_fixed]

@[simp] theorem State.firmwareLog_fixed (s : State) (v : Word) (bad : Bool) : (State.firmwareLog s v bad).fixed = s.fixed := by
  simp [State.firmwareLog]

@[simp] theorem execFirmwareLogWrite_fixed (value : Word) (bad : Bool) (s : State) : ((execFirmwareLogWrite value bad s).after s).fixed = s.fixed := by
  simp [execFirmwareLogWrite]

@[simp] theorem execLogRead_fixed (bad : Bool) (s : State) : ((execLogRead bad s).after s).fixed = s.fixed := by
  simp only [execLogRead]
  split
  · simp
  · split
    · simp
    · split <;> simp

@[simp] theorem State.armFreeze_fixed (s : State) (t : Nat) : (State.armFreeze s t).fixed = s.fixed := by
  simp [State.armFreeze]

@[simp] theorem execFreeze_fixed (s : State) : ((execFreeze s).after s).fixed = s.fixed := by
  simp only [execFreeze]
  split
  · simp
  · split
    · simp
    · split <;> simp

@[simp] theorem execFreezeNLow_fixed (s : State) : ((execFreezeNLow s).after s).fixed = s.fixed := by
  unfold execFreezeNLow
  split <;> simp

@[simp] theorem State.blotSelect_fixed (s : State) (v : Word) : (State.blotSelect s v).fixed = s.fixed := by
  simp [State.blotSelect]

@[simp] theorem execDbgBlotSelWrite_fixed (value : Word) (s : State) : ((execDbgBlotSelWrite value s).after s).fixed = s.fixed := by
  simp [execDbgBlotSelWrite]

@[simp] theorem State.blotRead_fixed (s : State) : (State.blotRead s).2.fixed = s.fixed := by
  unfold State.blotRead
  split <;> simp

@[simp] theorem execDbgBlotDataRead_fixed (s : State) : ((execDbgBlotDataRead s).after s).fixed = s.fixed := by
  simp [execDbgBlotDataRead]

@[simp] theorem State.tapPads_fixed (s : State) (ir : Nat) : (State.tapPads s ir).fixed = s.fixed := by
  simp [State.tapPads]

@[simp] theorem State.setTap_fixed (s : State) (ir : Nat) (dr : Word) : (State.setTap s ir dr).fixed = s.fixed := by
  simp [State.setTap]

@[simp] theorem State.bypass_fixed (s : State) : (State.bypass s).fixed = s.fixed := by
  simp [State.bypass]

@[simp] theorem State.boundary_fixed (s : State) (pins load : List Bool) : (State.boundary s pins load).fixed = s.fixed := by
  simp [State.boundary]

@[simp] theorem State.tapDrive_fixed (s : State) (ir : Nat) : (State.tapDrive s ir).fixed = s.fixed := by
  simp [State.tapDrive]

@[simp] theorem State.boundaryTest_fixed (s : State) (ir : Nat) (pins load : List Bool) : (State.boundaryTest s ir pins load).fixed = s.fixed := by
  simp [State.boundaryTest]

@[simp] theorem execExtest_fixed (pins load : List Bool) (s : State) : ((execExtest pins load s).after s).fixed = s.fixed := by
  simp [execExtest]

@[simp] theorem execExtestPulse_fixed (pins load : List Bool) (s : State) : ((execExtestPulse pins load s).after s).fixed = s.fixed := by
  simp [execExtestPulse]

@[simp] theorem execExtestTrain_fixed (pins load : List Bool) (s : State) : ((execExtestTrain pins load s).after s).fixed = s.fixed := by
  simp [execExtestTrain]

@[simp] theorem execSamplePreload_fixed (pins load : List Bool) (s : State) : ((execSamplePreload pins load s).after s).fixed = s.fixed := by
  simp [execSamplePreload]

@[simp] theorem execIdcode_fixed (s : State) : ((execIdcode s).after s).fixed = s.fixed := by
  simp [execIdcode]

@[simp] theorem execClamp_fixed (s : State) : ((execClamp s).after s).fixed = s.fixed := by
  simp [execClamp]

@[simp] theorem execHighz_fixed (s : State) : ((execHighz s).after s).fixed = s.fixed := by
  simp [execHighz]

@[simp] theorem execBlotter_fixed (s : State) : ((execBlotter s).after s).fixed = s.fixed := by
  simp [execBlotter]

@[simp] theorem execBypass_fixed (s : State) : ((execBypass s).after s).fixed = s.fixed := by
  simp [execBypass]

/-! ### The vector unit -/

@[simp] theorem execVxLd_fixed (i : CoreId) (w : Word) (s : State) : ((execVxLd i w s).after s).fixed = s.fixed := by
  simp [execVxLd]

@[simp] theorem execVxSt_fixed (i : CoreId) (w : Word) (s : State) : ((execVxSt i w s).after s).fixed = s.fixed := by
  simp [execVxSt]

@[simp] theorem execVxAdd_fixed (i : CoreId) (w : Word) (s : State) : ((execVxAdd i w s).after s).fixed = s.fixed := by
  simp [execVxAdd]

@[simp] theorem execVxSub_fixed (i : CoreId) (w : Word) (s : State) : ((execVxSub i w s).after s).fixed = s.fixed := by
  simp [execVxSub]

@[simp] theorem execVxMul_fixed (i : CoreId) (w : Word) (s : State) : ((execVxMul i w s).after s).fixed = s.fixed := by
  simp [execVxMul]

@[simp] theorem execVxFma_fixed (i : CoreId) (w : Word) (s : State) : ((execVxFma i w s).after s).fixed = s.fixed := by
  simp [execVxFma]

@[simp] theorem execVxMin_fixed (i : CoreId) (w : Word) (s : State) : ((execVxMin i w s).after s).fixed = s.fixed := by
  simp [execVxMin]

@[simp] theorem execVxMax_fixed (i : CoreId) (w : Word) (s : State) : ((execVxMax i w s).after s).fixed = s.fixed := by
  simp [execVxMax]

@[simp] theorem execVxFn_fixed (i : CoreId) (w : Word) (s : State) : ((execVxFn i w s).after s).fixed = s.fixed := by
  simp [execVxFn]

@[simp] theorem execVxCmp_fixed (i : CoreId) (w : Word) (s : State) : ((execVxCmp i w s).after s).fixed = s.fixed := by
  simp [execVxCmp]

@[simp] theorem execVxSel_fixed (i : CoreId) (w : Word) (s : State) : ((execVxSel i w s).after s).fixed = s.fixed := by
  simp [execVxSel]

@[simp] theorem execVxRed_fixed (i : CoreId) (w : Word) (s : State) : ((execVxRed i w s).after s).fixed = s.fixed := by
  simp [execVxRed]

@[simp] theorem execVxPerm_fixed (i : CoreId) (w : Word) (s : State) : ((execVxPerm i w s).after s).fixed = s.fixed := by
  simp [execVxPerm]

@[simp] theorem execVxBcast_fixed (i : CoreId) (w : Word) (s : State) : ((execVxBcast i w s).after s).fixed = s.fixed := by
  simp [execVxBcast]

@[simp] theorem execVxMask_fixed (i : CoreId) (w : Word) (s : State) : ((execVxMask i w s).after s).fixed = s.fixed := by
  simp [execVxMask]

@[simp] theorem execVxFlags_fixed (i : CoreId) (w : Word) (s : State) : ((execVxFlags i w s).after s).fixed = s.fixed := by
  simp [execVxFlags]

@[simp] theorem execVectorStart_fixed (i : CoreId) (s : State) : ((execVectorStart i s).after s).fixed = s.fixed := by
  simp [execVectorStart]

@[simp] theorem execVectorCompletion_fixed (i : CoreId) (idx : RunAt) (s : State) : ((execVectorCompletion i idx s).after s).fixed = s.fixed := by
  simp [execVectorCompletion]

@[simp] theorem execVxPortLoadTimeout_fixed (i : CoreId) (s : State) : ((execVxPortLoadTimeout i s).after s).fixed = s.fixed := by
  simp [execVxPortLoadTimeout]

/-! ### Access to registers and memories -/

@[simp] theorem State.readRim_fixed (s : State) (reader a : Nat) : (State.readRim s reader a).2.fixed = s.fixed := by
  simp only [State.readRim]
  split
  · simp
  · split
    · simp
    · split <;> simp

@[simp] theorem State.reach_fixed (s : State) (p : Place) (out back : Nat) : (s.reach p out back).2.fixed = s.fixed := by
  rw [State.reach.eq_def]
  split
  · rfl
  · split
    · extract_lets i
      split
      · exact State.access_fixed ..
      · rfl
    next n _ _ =>
      have sent := s.send_fixed (scribeHub n) n
      split
      next ok t h =>
        rw [h] at sent
        split
        next ok' u h' =>
          split at h'
          · have sent' := t.send_fixed n (scribeHub n)
            rw [h'] at sent'
            exact sent'.trans sent
          · cases h'
            exact sent

@[simp] theorem State.peek_fixed (s : State) (reader : Nat) (p : Place) : (s.peek reader p).2.fixed = s.fixed := by
  have reached : fixedOfPair (if s.reachable p then s.reach p 1 1 else (⟨false, []⟩, s)) = s.fixed := by
    split
    · exact State.reach_fixed ..
    · rfl
  rw [State.peek.eq_def]
  split
  next x t h =>
    rw [h] at reached
    replace reached : t.fixed = s.fixed := reached
    split
    · exact reached
    · split
      · rw [State.readRim_fixed, reached]
      · exact reached
      · exact reached
      · exact reached
      · exact reached
      · exact reached
      · simp [reached]
      · simp [reached]

@[simp] theorem State.logLock_fixed (s : State) (p : Place) : (State.logLock s p).fixed = s.fixed := by
  simp [State.logLock]

@[simp] theorem State.writeKey_fixed (s : State) (k : Nat) (v : Word) : (State.writeKey s k v).fixed = s.fixed := by
  simp [State.writeKey]

@[simp] theorem State.mapWdog_fixed (s : State) (n : Nat) (f : Wdog → Wdog) : (State.mapWdog s n f).fixed = s.fixed := by
  simp [State.mapWdog]

@[simp] theorem State.kick_fixed (s : State) (n : Nat) (v : Word) : (State.kick s n v).fixed = s.fixed := by
  simp [State.kick]

@[simp] theorem State.writeCommand_fixed (s : State) (r : Nat) (v : Word) : (State.writeCommand s r v).fixed = s.fixed := by
  unfold State.writeCommand
  split <;> simp

@[simp] theorem State.writePortCtrl_fixed (s : State) (p : Nat) (v : Word) : (State.writePortCtrl s p v).fixed = s.fixed := by
  simp [State.writePortCtrl]

@[simp] theorem State.writeExCmd_fixed (s : State) (v : Word) : (State.writeExCmd s v).fixed = s.fixed := by
  simp [State.writeExCmd]

@[simp] theorem State.logIf_fixed (s : State) (bad : Bool) (p : Place) : (State.logIf s bad p).fixed = s.fixed := by
  simp [State.logIf]

@[simp] theorem State.restartLock_fixed (s : State) : s.restartLock.fixed = s.fixed :=
  foldl_fixed (fun t p => by split <;> simp) _ s

@[simp] theorem State.peekVoted_fixed (s : State) (p : Place) : (State.peekVoted s p).2.fixed = s.fixed := by
  simp only [State.peekVoted]
  split
  · split <;> simp
  · simp

@[simp] theorem State.peekAll_fixed (s : State) (l : List Place) : (s.peekAll l).2.fixed = s.fixed := by
  induction l generalizing s with
  | nil => rfl
  | cons p ps ih =>
    simp only [State.peekAll]
    split <;> simp [ih]

@[simp] theorem execRegRead_fixed (slow : Option Nat) (upset : List Upset) (s : State) : ((execRegRead slow upset s).after s).fixed = s.fixed := by
  simp only [execRegRead]
  split
  · simp
  · split
    · simp
    · split <;> simp

@[simp] theorem execScrMcKeyWrite_fixed (word : Fin 12) (value : Word) (s : State) : ((execScrMcKeyWrite word value s).after s).fixed = s.fixed := by
  simp [execScrMcKeyWrite]

@[simp] theorem execWatchdogKick_fixed (core : Fin 16) (value : Word) (s : State) : ((execWatchdogKick core value s).after s).fixed = s.fixed := by
  simp [execWatchdogKick]

/-! ### Scalar instructions -/

@[simp] theorem execNop_fixed (i : CoreId) (w : Word) (s : State) : ((execNop i w s).after s).fixed = s.fixed := by
  simp [execNop]

@[simp] theorem execCapRead_fixed (i : CoreId) (w : Word) (s : State) : ((execCapRead i w s).after s).fixed = s.fixed := by
  simp [execCapRead]

@[simp] theorem execSrRd_fixed (i : CoreId) (w : Word) (s : State) : ((execSrRd i w s).after s).fixed = s.fixed := by
  simp [execSrRd]

@[simp] theorem execSrWr_fixed (i : CoreId) (w : Word) (s : State) : ((execSrWr i w s).after s).fixed = s.fixed := by
  simp [execSrWr]

@[simp] theorem execStop_fixed (i : CoreId) (w : Word) (s : State) : ((execStop i w s).after s).fixed = s.fixed := by
  simp [execStop]

@[simp] theorem execSAdd_fixed (i : CoreId) (w : Word) (s : State) : ((execSAdd i w s).after s).fixed = s.fixed := by
  simp [execSAdd]

@[simp] theorem execSSub_fixed (i : CoreId) (w : Word) (s : State) : ((execSSub i w s).after s).fixed = s.fixed := by
  simp [execSSub]

@[simp] theorem execSAnd_fixed (i : CoreId) (w : Word) (s : State) : ((execSAnd i w s).after s).fixed = s.fixed := by
  simp [execSAnd]

@[simp] theorem execSOr_fixed (i : CoreId) (w : Word) (s : State) : ((execSOr i w s).after s).fixed = s.fixed := by
  simp [execSOr]

@[simp] theorem execSXor_fixed (i : CoreId) (w : Word) (s : State) : ((execSXor i w s).after s).fixed = s.fixed := by
  simp [execSXor]

@[simp] theorem execSSll_fixed (i : CoreId) (w : Word) (s : State) : ((execSSll i w s).after s).fixed = s.fixed := by
  simp [execSSll]

@[simp] theorem execSSrl_fixed (i : CoreId) (w : Word) (s : State) : ((execSSrl i w s).after s).fixed = s.fixed := by
  simp [execSSrl]

@[simp] theorem execSSra_fixed (i : CoreId) (w : Word) (s : State) : ((execSSra i w s).after s).fixed = s.fixed := by
  simp [execSSra]

@[simp] theorem execSMul_fixed (i : CoreId) (w : Word) (s : State) : ((execSMul i w s).after s).fixed = s.fixed := by
  simp [execSMul]

@[simp] theorem execSMulhu_fixed (i : CoreId) (w : Word) (s : State) : ((execSMulhu i w s).after s).fixed = s.fixed := by
  simp [execSMulhu]

@[simp] theorem execSDivu_fixed (i : CoreId) (w : Word) (s : State) : ((execSDivu i w s).after s).fixed = s.fixed := by
  simp [execSDivu]

@[simp] theorem execSRemu_fixed (i : CoreId) (w : Word) (s : State) : ((execSRemu i w s).after s).fixed = s.fixed := by
  simp [execSRemu]

@[simp] theorem execSMin_fixed (i : CoreId) (w : Word) (s : State) : ((execSMin i w s).after s).fixed = s.fixed := by
  simp [execSMin]

@[simp] theorem execSMax_fixed (i : CoreId) (w : Word) (s : State) : ((execSMax i w s).after s).fixed = s.fixed := by
  simp [execSMax]

@[simp] theorem execSMinu_fixed (i : CoreId) (w : Word) (s : State) : ((execSMinu i w s).after s).fixed = s.fixed := by
  simp [execSMinu]

@[simp] theorem execSMaxu_fixed (i : CoreId) (w : Word) (s : State) : ((execSMaxu i w s).after s).fixed = s.fixed := by
  simp [execSMaxu]

@[simp] theorem execSAddi_fixed (i : CoreId) (w : Word) (s : State) : ((execSAddi i w s).after s).fixed = s.fixed := by
  simp [execSAddi]

@[simp] theorem execSAndi_fixed (i : CoreId) (w : Word) (s : State) : ((execSAndi i w s).after s).fixed = s.fixed := by
  simp [execSAndi]

@[simp] theorem execSOri_fixed (i : CoreId) (w : Word) (s : State) : ((execSOri i w s).after s).fixed = s.fixed := by
  simp [execSOri]

@[simp] theorem execSXori_fixed (i : CoreId) (w : Word) (s : State) : ((execSXori i w s).after s).fixed = s.fixed := by
  simp [execSXori]

@[simp] theorem execSSlli_fixed (i : CoreId) (w : Word) (s : State) : ((execSSlli i w s).after s).fixed = s.fixed := by
  simp [execSSlli]

@[simp] theorem execSSrli_fixed (i : CoreId) (w : Word) (s : State) : ((execSSrli i w s).after s).fixed = s.fixed := by
  simp [execSSrli]

@[simp] theorem execSSrai_fixed (i : CoreId) (w : Word) (s : State) : ((execSSrai i w s).after s).fixed = s.fixed := by
  simp [execSSrai]

@[simp] theorem execSLih_fixed (i : CoreId) (w : Word) (s : State) : ((execSLih i w s).after s).fixed = s.fixed := by
  simp [execSLih]

@[simp] theorem execAAddi_fixed (i : CoreId) (w : Word) (s : State) : ((execAAddi i w s).after s).fixed = s.fixed := by
  simp [execAAddi]

@[simp] theorem execAMv_fixed (i : CoreId) (w : Word) (s : State) : ((execAMv i w s).after s).fixed = s.fixed := by
  simp [execAMv]

@[simp] theorem execARd_fixed (i : CoreId) (w : Word) (s : State) : ((execARd i w s).after s).fixed = s.fixed := by
  simp [execARd]

@[simp] theorem execSLd_fixed (i : CoreId) (w : Word) (s : State) : ((execSLd i w s).after s).fixed = s.fixed := by
  simp [execSLd]

@[simp] theorem execSSt_fixed (i : CoreId) (w : Word) (s : State) : ((execSSt i w s).after s).fixed = s.fixed := by
  simp [execSSt]

@[simp] theorem execPEq_fixed (i : CoreId) (w : Word) (s : State) : ((execPEq i w s).after s).fixed = s.fixed := by
  simp [execPEq]

@[simp] theorem execPNe_fixed (i : CoreId) (w : Word) (s : State) : ((execPNe i w s).after s).fixed = s.fixed := by
  simp [execPNe]

@[simp] theorem execPLt_fixed (i : CoreId) (w : Word) (s : State) : ((execPLt i w s).after s).fixed = s.fixed := by
  simp [execPLt]

@[simp] theorem execPLtu_fixed (i : CoreId) (w : Word) (s : State) : ((execPLtu i w s).after s).fixed = s.fixed := by
  simp [execPLtu]

@[simp] theorem execPGe_fixed (i : CoreId) (w : Word) (s : State) : ((execPGe i w s).after s).fixed = s.fixed := by
  simp [execPGe]

@[simp] theorem execPGeu_fixed (i : CoreId) (w : Word) (s : State) : ((execPGeu i w s).after s).fixed = s.fixed := by
  simp [execPGeu]

@[simp] theorem execPAnd_fixed (i : CoreId) (w : Word) (s : State) : ((execPAnd i w s).after s).fixed = s.fixed := by
  simp [execPAnd]

@[simp] theorem execPOr_fixed (i : CoreId) (w : Word) (s : State) : ((execPOr i w s).after s).fixed = s.fixed := by
  simp [execPOr]

@[simp] theorem execPXor_fixed (i : CoreId) (w : Word) (s : State) : ((execPXor i w s).after s).fixed = s.fixed := by
  simp [execPXor]

@[simp] theorem execPAndn_fixed (i : CoreId) (w : Word) (s : State) : ((execPAndn i w s).after s).fixed = s.fixed := by
  simp [execPAndn]

/-! ### The Scribe -/

@[simp] theorem State.replyNow_fixed (s : State) (iface : Nat) (h : FrameHead) (status : Nat) (payload : List Byte) :
    (State.replyNow s iface h status payload).fixed = s.fixed := by
  simp [State.replyNow]

@[simp] theorem State.accept_fixed (s : State) (r : MReq) : (State.accept s r).fixed = s.fixed := by
  simp only [State.accept]
  split <;> simp

@[simp] theorem State.islandAnswer_fixed (s : State) (iface : Nat) (h : FrameHead) (p : List Byte) : (State.islandAnswer s iface h p).fixed = s.fixed := by
  simp [State.islandAnswer]

@[simp] theorem State.receiveFrame_fixed (s : State) (iface : Nat) (bs : List Byte) : (s.receiveFrame iface bs).fixed = s.fixed := by
  simp only [State.receiveFrame]
  split
  · rfl
  · iterate 2 (split; · simp)
    split
    · simp
    · split <;> simp

@[simp] theorem State.i3cTransfer_fixed (s : State) (addr : Nat) (bs : List Byte) : (State.i3cTransfer s addr bs).fixed = s.fixed := by
  simp only [State.i3cTransfer]
  split
  · simp
  · split <;> simp

@[simp] theorem execMgmtFrameReceive_fixed (iface : Fin 2) (addr : Fin 65536) (bytes : List Byte) (s : State) :
    ((execMgmtFrameReceive iface addr bytes s).after s).fixed = s.fixed := by
  simp [execMgmtFrameReceive]

@[simp] theorem execSequenceGapTimeout_fixed (iface : Fin 2) (session : Fin 5) (s : State) :
    ((execSequenceGapTimeout iface session s).after s).fixed = s.fixed := by
  simp [execSequenceGapTimeout]

@[simp] theorem execSessionOpen_fixed (fresh : Nat) (s : State) : ((execSessionOpen fresh s).after s).fixed = s.fixed := by
  simp only [execSessionOpen]
  split
  · rfl
  · split
    · rfl
    · split
      · simp
      · split
        · simp
        · split <;> simp

@[simp] theorem execSessionClose_fixed (s : State) : ((execSessionClose s).after s).fixed = s.fixed := by
  unfold execSessionClose
  split <;> simp

@[simp] theorem execStatus_fixed (s : State) : ((execStatus s).after s).fixed = s.fixed := by
  simp [execStatus]

@[simp] theorem execBindingSet_fixed (region : Fin 64) (binding : Fin 256) (dev : Fin 262144) (rgn : Fin 64) (gen : Fin 256) (x y : Fin 128) (ep : Fin 64) (cls : Fin 8) (s : State) :
    ((execBindingSet region binding dev rgn gen x y ep cls s).after s).fixed = s.fixed := by
  simp only [execBindingSet]
  split
  · simp
  · split
    · simp
    · split <;> simp

@[simp] theorem State.escapeSend_fixed (s : State) (kind dev region gen : Nat) (route : List Nat) (bytes : Nat) (b : FabBody) :
    (State.escapeSend s kind dev region gen route bytes b).fixed = s.fixed := by
  simp [State.escapeSend]

@[simp] theorem execJobResetArrival_fixed (idx : Nat) (s : State) : ((execJobResetArrival idx s).after s).fixed = s.fixed := by
  simp only [execJobResetArrival]
  split
  · simp
  · split <;> simp

@[simp] theorem State.keepSent_fixed (s t : State) : (s.keepSent t).fixed = t.fixed := rfl

@[simp] theorem State.scribeSend_fixed (s : State) (p link : Nat) (bs : List Byte) (tag : Option (Nat × Nat)) :
    (State.scribeSend s p link bs tag).fixed = s.fixed := by
  simp [State.scribeSend]

@[simp] theorem State.takeFrame_fixed (s : State) : (State.takeFrame s).fixed = s.fixed := by
  simp [State.takeFrame]

@[simp] theorem State.doWork_fixed (s : State) (j : ScrJob) : (State.doWork s j).fixed = s.fixed := by
  unfold State.doWork
  split <;> simp

@[simp] theorem State.serveWork_fixed (s : State) (binding : Option Nat) : (State.serveWork s binding).fixed = s.fixed := by
  simp only [State.serveWork]
  split
  · simp
  · split <;> simp

@[simp] theorem State.coreDown_fixed (s : State) (n : Nat) : (State.coreDown s n).fixed = s.fixed := by
  simp [State.coreDown]

@[simp] theorem execScribeCoreBlockResetTimeout_fixed (core : Fin 16) (s : State) : ((execScribeCoreBlockResetTimeout core s).after s).fixed = s.fixed := by
  unfold execScribeCoreBlockResetTimeout
  split <;> simp

/-! ### Well accesses -/

@[simp] theorem execAsyncWordForced_fixed (i : CoreId) (port : Fin 16) (put : Bool) (run addr : Nat) (s : State) :
    ((execAsyncWordForced i port put run addr s).after s).fixed = s.fixed := by
  simp [execAsyncWordForced]

@[simp] theorem execWellScrubAccess_fixed (i : CoreId) (addr : Nat) (upset : List (Nat × Bool)) (s : State) :
    ((execWellScrubAccess i addr upset s).after s).fixed = s.fixed := by
  simp [execWellScrubAccess]

/-- A part of a step in which the queue is left as it is and the lifecycle only goes forward (R411, R412). -/
structure State.Forward (s t : State) : Prop where
  pending : t.pending = s.pending
  life : LifeInv s → LifeInv t ∧ s.life ≤ t.life ∧ (s.life = 0 → t.life = 0)

theorem State.Forward.refl (s : State) : s.Forward s := ⟨rfl, fun inv => ⟨inv, le_rfl, id⟩⟩

theorem State.Forward.trans {s t u : State} (h : s.Forward t) (k : t.Forward u) : s.Forward u where
  pending := k.pending.trans h.pending
  life inv := by
    obtain ⟨inv₁, up₁, blank₁⟩ := h.life inv
    obtain ⟨inv₂, up₂, blank₂⟩ := k.life inv₁
    exact ⟨inv₂, up₁.trans up₂, blank₂ ∘ blank₁⟩

theorem State.Forward.ite {s t u : State} {c : Prop} [Decidable c] (h : s.Forward t) (k : s.Forward u) : s.Forward (if c then t else u) := by
  split
  · exact h
  · exact k

theorem forward_foldl {α : Type} {g : State → α → State} (h : ∀ (t : State) a, t.Forward (g t a)) (l : List α) (s : State) : s.Forward (l.foldl g s) := by
  induction l generalizing s with
  | nil => exact .refl s
  | cons a l ih => exact (h s a).trans (ih _)

/-- Only a change of the lifecycle's own state can set it back: what keeps it, and the queue, is forward, whatever becomes of the device's condition. -/
theorem State.Forward.of_kept {s t : State} (h : t.fixed.2 = s.fixed.2) : s.Forward t := by
  obtain ⟨pending, life, copies, blowing⟩ : t.pending = s.pending ∧ t.life = s.life ∧ t.lifeCopies = s.lifeCopies ∧ t.blowing = s.blowing := by
    simpa only [State.fixed, Prod.mk.injEq] using h
  refine ⟨pending, fun inv => ⟨?_, life.ge, life.trans⟩⟩
  unfold LifeInv
  rw [life, copies, blowing]
  exact inv

theorem State.Forward.of_fixed {s t : State} (h : t.fixed = s.fixed) : s.Forward t := .of_kept (congrArg Prod.snd h)

theorem State.Forward.then_fixed {s t u : State} (h : s.Forward t) (k : u.fixed = t.fixed) : s.Forward u := h.trans (.of_fixed k)

/-! ## What resets and stops do -/

theorem State.kept_eta (s : State) : (s.pending, s.life, s.lifeCopies, s.blowing) = s.fixed.2 := (rfl)

theorem State.cutShort_life (s : State) : s.cutShort.life = s.life := by
  unfold State.cutShort
  split
  · rfl
  · rfl

theorem State.cutShort_pending (s : State) : s.cutShort.pending = s.pending := by
  unfold State.cutShort
  split
  · rfl
  · rfl

theorem State.cutShort_of_none {s : State} (h : s.blowing = none) : s.cutShort = s := by
  unfold State.cutShort
  rw [h]

theorem State.cutShort_copies {s : State} {v : Nat} (h : s.blowing = some v) :
    ∃ k : Nat, s.cutShort.lifeCopies = (if 1 ≤ k then v else s.lifeCopies.1, if 2 ≤ k then v else s.lifeCopies.2.1, if 3 ≤ k then v else s.lifeCopies.2.2) := by
  unfold State.cutShort
  rw [h]
  exact ⟨_, rfl⟩

theorem LifeInv.of_copies {t : State} {a b c : Nat} (held : t.lifeCopies = (a, b, c)) (top : t.life ≤ 255) (first : t.life ≤ a ∧ a ≤ 255)
    (second : t.life ≤ b ∧ b ≤ 255) (third : t.life ≤ c ∧ c ≤ 255) (waits : ∀ v, t.blowing = some v → t.life ≤ v ∧ v ≤ 255)
    (blank : t.life = 0 → t.lifeCopies = (0, 0, 0) ∧ t.blowing = none) : LifeInv t := by
  refine ⟨top, ?_, waits, blank⟩
  rw [held]
  simpa using ⟨first, second, third⟩

theorem LifeInv.copies {t : State} (inv : LifeInv t) : (t.life ≤ t.lifeCopies.1 ∧ t.lifeCopies.1 ≤ 255) ∧
    (t.life ≤ t.lifeCopies.2.1 ∧ t.lifeCopies.2.1 ≤ 255) ∧ t.life ≤ t.lifeCopies.2.2 ∧ t.lifeCopies.2.2 ≤ 255 := by
  simpa using inv.2.1

theorem State.cutShort_blowing (s : State) : s.cutShort.blowing = none := by
  unfold State.cutShort
  split
  · assumption
  · rfl

/-- A copy that the interrupted change has reached holds the new value, the others the old one. -/
theorem LifeInv.cutShort {s : State} (inv : LifeInv s) : LifeInv s.cutShort := by
  obtain ⟨first, second, third⟩ := inv.copies
  obtain ⟨top, -, waits, blank⟩ := id inv
  match change : s.blowing with
  | none => rwa [State.cutShort_of_none change]
  | some v =>
    obtain ⟨k, held⟩ := State.cutShort_copies change
    have new := waits v change
    rw [← s.cutShort_life] at top first second third new
    refine .of_copies held top ?_ ?_ ?_ (fun w h => absurd (s.cutShort_blowing.symm.trans h) (by simp)) (fun h => ?_)
    · split
      · exact new
      · exact first
    · split
      · exact new
      · exact second
    · split
      · exact new
      · exact third
    · exact absurd ((blank (s.cutShort_life.symm.trans h)).2.symm.trans change) (by simp)

theorem State.cutShort_forward (s : State) : s.Forward s.cutShort :=
  ⟨s.cutShort_pending, fun inv => ⟨inv.cutShort, s.cutShort_life.ge, s.cutShort_life.trans⟩⟩

@[simp] theorem State.clearDevice_kept (s : State) : s.clearDevice.fixed.2 = s.fixed.2 := by
  have fused : (s.clearRim.fusePads outerPads).fixed.2 = s.fixed.2 := by simp
  rw [State.clearDevice, State.fixed_mk]
  exact fused

theorem State.deviceReset_kept (s : State) (cause : Nat) : (s.deviceReset cause).fixed.2 = s.cutShort.fixed.2 := by
  simp only [State.deviceReset]
  split
  · rfl
  · rw [State.logCause_fixed]
  · rw [State.logCause_fixed]
  · rw [State.logCause_fixed, State.setFld_fixed, State.bump_fixed, State.clearDevice_kept]

theorem State.deviceReset_life (s : State) (cause : Nat) : (s.deviceReset cause).life = s.life :=
  (congrArg (fun kept => kept.2.1) (s.deviceReset_kept cause)).trans s.cutShort_life

theorem State.deviceReset_forward (s : State) (cause : Nat) : s.Forward (s.deviceReset cause) :=
  s.cutShort_forward.trans (.of_kept (s.deviceReset_kept cause))

theorem State.stopDevice_forward (s : State) (code : Nat) : s.Forward (s.stopDevice code) := by
  refine s.cutShort_forward.trans ?_
  simp only [State.stopDevice]
  split
  · exact .refl _
  · exact .ite (.refl _) (.of_kept (by simp only [State.fixed_mk, State.kept_eta, State.logCause_fixed, State.logEvent_fixed]))
  · refine .of_kept ?_
    simp only [State.note_fixed, State.fixed_mk, State.kept_eta, State.faultOn_fixed, State.setFld_fixed, State.logCause_fixed, State.fixed_ite]
    split
    · rw [State.logEvent_fixed]
    · rw [State.bump_fixed, State.clearDevice_kept, State.logEvent_fixed]

/-! ## Power-on, restart and reset exit (R385, R388, R390, R395) -/

theorem execPowerOn_forward (coolant resetN : Bool) (s : State) : s.Forward ((execPowerOn coolant resetN s).after s) := by
  unfold execPowerOn
  extract_lets c r i t u
  refine s.cutShort_forward.trans (State.Forward.trans (t := t) ⟨s.cutShort_pending.symm, fun inv => ?_⟩ (.of_fixed ?_))
  · have life : t.life = s.cutShort.life := s.cutShort_life.symm
    obtain ⟨top, copies, waits, blank⟩ := inv
    refine ⟨⟨?_, ?_, fun _ h => absurd h (by rw [show t.blowing = none from rfl]; simp), fun h => ⟨(blank (life.symm.trans h)).1, rfl⟩⟩, life.ge, life.trans⟩
    · exact life.le.trans top
    · rw [life]
      exact copies
  · rw [Out.after_next]
    split
    · rw [State.setPads_fixed, State.fusePads_fixed]
    · rw [State.fusePads_fixed]

theorem State.restart_forward (s : State) : s.Forward s.restart := by
  unfold State.restart
  refine .ite (.ite ?_ ?_) (.refl s)
  · exact .of_kept rfl
  · exact .of_fixed (by simp)

theorem State.voteLife_life (s : State) : s.voteLife.life = s.lifeCopies.1 ∨ s.voteLife.life = s.lifeCopies.2.1 := by
  dsimp only [State.voteLife]
  split
  · exact .inl rfl
  · split
    · exact .inl rfl
    · exact .inr rfl

/-- With no change that waits, what two copies give holds: it is no less than the counter, which a change that was cut short may have passed. -/
theorem State.voteLife_forward {s : State} (idle : s.blowing = none) : s.Forward s.voteLife := by
  refine ⟨rfl, fun inv => ?_⟩
  obtain ⟨first, second, -⟩ := inv.copies
  obtain ⟨top, -, waits, blank⟩ := id inv
  have new : s.life ≤ s.voteLife.life ∧ s.voteLife.life ≤ 255 := by
    obtain h | h := s.voteLife_life
    · exact h ▸ first
    · exact h ▸ second
  have kept (h : s.life = 0) : s.voteLife.life = 0 := by
    obtain ⟨copies, -⟩ := blank h
    obtain h | h := s.voteLife_life
    · rw [h, copies]
    · rw [h, copies]
  refine ⟨.of_copies rfl new.2 ⟨le_rfl, new.2⟩ ⟨le_rfl, new.2⟩ ⟨le_rfl, new.2⟩ (fun v waiting => ?_) (fun h => ?_), new.1, kept⟩
  · exact absurd (idle.symm.trans waiting) (by simp)
  · have old : s.life = 0 := Nat.le_zero.1 (h ▸ new.1)
    exact ⟨by rw [show s.voteLife.lifeCopies = (s.voteLife.life, s.voteLife.life, s.voteLife.life) from rfl, h], idle⟩

theorem State.Forward.of_blown {s t : State} {v : Nat} (waits : s.blowing = some v) (h : t.fixed.2 = (s.pending, s.life, (v, v, v), none)) : s.Forward t := by
  obtain ⟨pending, life, copies, blowing⟩ : t.pending = s.pending ∧ t.life = s.life ∧ t.lifeCopies = (v, v, v) ∧ t.blowing = none := by
    simpa only [State.fixed, Prod.mk.injEq] using h
  refine ⟨pending, fun inv => ?_⟩
  have new : t.life ≤ v ∧ v ≤ 255 := life ▸ inv.2.2.1 v waits
  refine ⟨.of_copies copies (life ▸ inv.1) new new new (fun w h => ?_) (fun h => ?_), life.ge, life.trans⟩
  · exact absurd (blowing.symm.trans h) (by simp)
  · exact absurd ((inv.2.2.2 (life.symm.trans h)).2.symm.trans waits) (by simp)

theorem State.blow_forward {s : State} {v : Nat} (waits : s.blowing = some v) : s.Forward (s.blow v) := by
  unfold State.blow
  extract_lets t
  have kept : t.fixed = s.fixed := foldl_fixed (fun t j => State.setReg_fixed ..) _ s
  simp only [State.fixed, Prod.mk.injEq] at kept
  obtain ⟨-, pending, life, -, -⟩ := kept
  refine (State.Forward.of_blown waits ?_).trans (State.deviceReset_forward ..)
  rw [State.setFld_fixed, State.fixed_mk, pending, life]

theorem execResetExit_forward (seen : ExitSeen) (bad : Bool) (s : State) : s.Forward ((execResetExit seen bad s).after s) := by
  unfold execResetExit
  extract_lets disagree t₁ t₂ t₃ mrm t₄ t₅ t₆ t₇ i
  split
  · exact .refl s
  · split
    next v waits => exact State.blow_forward waits
    next idle =>
      refine (State.voteLife_forward (Option.eq_none_iff_forall_ne_some.2 idle)).trans (.of_kept ?_)
      have h₂ : t₂.fixed = s.voteLife.fixed := foldl_fixed (fun t c => State.logEvent_fixed ..) _ _
      have h₃ : t₃.fixed = s.voteLife.fixed := (foldl_fixed (fun t c => State.logEvent_fixed ..) _ t₂).trans h₂
      have h₇ : t₇.fixed = s.voteLife.fixed := by simp [t₇, t₆, t₅, t₄, h₃]
      rw [Out.after_next, State.setPads_fixed, State.fixed_mk, State.kept_eta, h₇]

theorem lifecycleOf_eq_zero_iff (v : Nat) : lifecycleOf v = 0 ↔ v = 0 := by
  unfold lifecycleOf
  split_ifs <;> simp_all

theorem lifecycleOf_eq_four_iff (v : Nat) : lifecycleOf v = 4 ↔ 255 ≤ v := by
  unfold lifecycleOf
  split_ifs <;> simp <;> omega

/-- A change the lifecycle allows is to a later value within eight bits, and a blank device has none (R412). -/
theorem State.lifeTo_forward {s : State} {target v : Nat} {eui : Option Word} (h : s.lifeTo target eui = some v) :
    s.life ≤ v ∧ v ≤ 255 ∧ s.life ≠ 0 := by
  have blank : s.lifecycle = 0 ↔ s.life = 0 := lifecycleOf_eq_zero_iff s.life
  have retired : s.lifecycle = 4 ↔ 255 ≤ s.life := lifecycleOf_eq_four_iff s.life
  unfold State.lifeTo at h
  extract_lets life at h
  split at h
  next => cases h
  next => cases h
  next one =>
    cases h
    omega
  next two =>
    split at h
    · cases h
    · cases h
      omega
  next three =>
    cases h
    omega
  next _ _ notBlank notRetired =>
    split at h
    · cases h
      have := mt blank.2 notBlank
      have := mt retired.2 notRetired
      omega
    · cases h
  next => cases h

/-! ## Commands that reset or stop the device -/

theorem execRailFault_forward (bus : Fin 13) (rail : Fin 12) (reported : Bool) (s : State) : s.Forward ((execRailFault bus rail reported s).after s) := by
  simp only [execRailFault]
  split
  · exact .refl s
  · split
    · exact .of_fixed (by split <;> simp)
    · split
      · exact (State.Forward.of_fixed (by simp)).trans (State.stopDevice_forward ..)
      · exact .refl s

theorem State.stopDevice_if_forward {s t : State} {c : Prop} [Decidable c] (h : t.fixed = s.fixed) (code : Nat) :
    s.Forward (if c then t.stopDevice code else t) :=
  .ite ((State.Forward.of_fixed h).trans (t.stopDevice_forward code)) (.of_fixed h)

theorem execTemperatureRead_forward (cluster : Option ClusterId) (celsius : Fin 256) (s : State) :
    s.Forward ((execTemperatureRead cluster celsius s).after s) := by
  simp only [execTemperatureRead]
  split
  · exact .refl s
  · split
    · exact .refl s
    · rw [Out.after_next]
      exact State.stopDevice_if_forward (by simp) 2
  · rw [Out.after_next]
    refine State.stopDevice_if_forward ?_ 2
    split <;> simp

theorem execCoolantOkLow_forward (s : State) : s.Forward ((execCoolantOkLow s).after s) := by
  simp only [execCoolantOkLow]
  split
  · exact .refl s
  · rw [Out.after_next]
    exact State.stopDevice_if_forward (by simp) 1

theorem execRailRampTimeout_forward (bus : Fin 13) (rail : Fin 12) (s : State) : s.Forward ((execRailRampTimeout bus rail s).after s) := by
  simp only [execRailRampTimeout]
  split
  · exact (State.Forward.of_fixed (by simp)).trans (State.stopDevice_forward ..)
  · exact .refl s

theorem execResetNAssert_forward (s : State) : s.Forward ((execResetNAssert s).after s) := by
  simp only [execResetNAssert]
  split
  · exact .refl s
  · rw [Out.after_next]
    exact ((State.Forward.of_fixed (by simp)).trans (State.deviceReset_forward ..)).then_fixed (State.note_fixed ..)

theorem execRstDeviceReset_forward (s : State) : s.Forward ((execRstDeviceReset s).after s) := by
  simp only [execRstDeviceReset]
  split
  · exact s.deviceReset_forward 2
  · exact .refl s

theorem execWatchdogExpiry_forward (core : Fin 16) (acks : Bool) (s : State) : s.Forward ((execWatchdogExpiry core acks s).after s) := by
  simp only [execWatchdogExpiry]
  split
  · exact .refl s
  · split
    · exact s.deviceReset_forward 3
    · exact .of_fixed (by simp)

theorem execFreezeTick_forward (s : State) : s.Forward ((execFreezeTick s).after s) := by
  simp only [execFreezeTick]
  split
  · exact .refl s
  · split
    · refine .of_kept ?_
      rw [Out.after_next, State.settle_fixed, State.note_fixed, State.fusePads_fixed, State.fixed_mk, State.kept_eta, State.logEvent_fixed,
        State.faultOn_fixed, State.setFld_fixed]
      split
      · rw [State.fixed_ite, State.takeSnap_fixed, ite_self]
      · rfl
    · exact .refl s

/-! ## Writes of registers (R12 to R15) -/

theorem forward_of_ite_some {s t u : State} {c : Prop} [Decidable c] {o : Option State} (h : (if c then some t else o) = some u) (first : s.Forward t)
    (rest : o = some u → s.Forward u) : s.Forward u := by
  split at h
  · cases h
    exact first
  · exact rest h

theorem State.writeActs_forward {s t : State} {a : Nat} {v : Word} (h : s.writeActs a v = some t) : s.Forward t := by
  have started : s.Forward (if bitOf v 0 then s.declareStart else s) := .ite (.of_fixed s.declareStart_fixed) (.refl s)
  unfold State.writeActs at h
  extract_lets u at h
  iterate 11 refine forward_of_ite_some h (.of_fixed (by simp)) fun h => ?_
  refine forward_of_ite_some h (.ite (started.trans (State.deviceReset_forward ..)) started) fun h => ?_
  refine forward_of_ite_some h (.ite s.restart_forward (.refl s)) fun h => ?_
  iterate 7 refine forward_of_ite_some h (.of_fixed (by simp)) fun h => ?_
  exact nomatch h

@[simp] theorem State.settleReg_fixed (s : State) (a : Nat) : (s.settleReg a).fixed = s.fixed := by
  simp [State.settleReg]

theorem State.store_forward (s : State) (p : Place) (v : Word) (poison : Bool) : s.Forward (s.store p v poison) := by
  unfold State.store
  split
  · split
    next h => exact State.writeActs_forward h
    · exact .of_fixed (by simp)
  all_goals exact .of_fixed (by simp)

theorem State.pokeAt_forward (s : State) (p : Place) (v : Word) : s.Forward (s.pokeAt p v).2 := by
  have reached : fixedOfPair (if s.reachable p then s.reach p 1 0 else (⟨false, []⟩, s)) = s.fixed := by
    split
    · exact State.reach_fixed ..
    · rfl
  rw [State.pokeAt]
  split
  next x t h =>
    rw [h] at reached
    exact (State.Forward.of_fixed reached).trans (.ite (State.store_forward ..) (.refl t))

theorem State.poke_forward (s : State) (p : Place) (v : Word) : s.Forward (s.poke p v) := s.pokeAt_forward p v

theorem State.pokeAll_forward (s : State) (ws : List (Place × Word)) : s.Forward (s.pokeAll ws).2 := by
  induction ws generalizing s with
  | nil => exact .refl s
  | cons x ws ih =>
    simp only [State.pokeAll]
    split
    · exact .refl s
    · split
      · exact s.pokeAt_forward x.1 x.2
      · exact (s.pokeAt_forward x.1 x.2).trans (ih _)

theorem execRegWrite_forward (slow : Option Nat) (s : State) : s.Forward ((execRegWrite slow s).after s) := by
  unfold execRegWrite
  split
  · exact .refl s
  next p _ =>
    split
    · exact .refl s
    · split
      · exact .of_fixed (by simp)
      · extract_lets ps iface vs r
        split
        · exact .of_fixed (by simp)
        · split
          · exact .refl s
          · rw [Out.after_next]
            have written : s.Forward r.2 := s.pokeAll_forward _
            exact .ite (written.then_fixed (State.answer_fixed ..)) (written.then_fixed (State.answer_fixed ..))

theorem execRegisterWrite_forward (core : Fin 16) (addr value : Word) (s : State) : s.Forward ((execRegisterWrite core addr value s).after s) := by
  unfold execRegisterWrite
  split
  · exact .refl s
  · split
    · exact s.poke_forward ..
    · exact .refl s

theorem execDbgreg_forward (offset : Fin 65536) (value : Option Word) (s : State) : s.Forward ((execDbgreg offset value s).after s) := by
  unfold execDbgreg
  split
  · exact .refl s
  · split
    · exact .of_fixed (by simp)
    · exact .of_fixed (by simp)
    · split
      · exact (s.poke_forward ..).then_fixed (State.setTap_fixed ..)
      · exact .of_fixed (by simp)

/-! ## The fabric manager and the lifecycle's commands (R336, R390, R412) -/

@[simp] theorem State.fmCommand_fixed (s : State) (x : FmSend) : (s.fmCommand x).fixed = s.fixed := by
  simp [State.fmCommand]

@[simp] theorem execFmEnable_fixed (devices : List Nat) (sends : List FmSend) (s : State) : ((execFmEnable devices sends s).after s).fixed = s.fixed := by
  simp only [execFmEnable]
  split
  · rfl
  · split
    · simp
    · split <;> simp

@[simp] theorem execFmTrust_fixed (s : State) : ((execFmTrust s).after s).fixed = s.fixed := by
  simp only [execFmTrust]
  split
  · rfl
  · split
    · rfl
    · split <;> simp

@[simp] theorem execScribeFrameReceive_fixed (act : ScrAct) (s : State) : ((execScribeFrameReceive act s).after s).fixed = s.fixed := by
  simp only [execScribeFrameReceive]
  split
  · rfl
  · split
    · simp
    · simp
    · simp
    · rfl
    · simp
    · split <;> simp
    · simp

theorem State.fabricWrite_forward (s : State) (x : Word × Word) : s.Forward (s.fabricWrite x) := by
  unfold State.fabricWrite
  exact .ite (.refl s) (.ite (s.poke_forward ..) (.of_fixed (by simp)))

theorem execFmCommandArrival_forward (idx : Nat) (writes : List (Word × Word)) (reset : Bool) (s : State) :
    s.Forward ((execFmCommandArrival idx writes reset s).after s) := by
  simp only [execFmCommandArrival]
  split
  · exact .refl s
  · split
    · split
      · exact .refl s
      · split
        · exact .of_fixed (by simp)
        · split
          · exact (State.Forward.of_fixed (by simp)).trans (State.deviceReset_forward ..)
          · exact (State.Forward.of_fixed (by simp)).trans (forward_foldl State.fabricWrite_forward ..)
    · exact .refl s

/-- A change that is taken waits for the reset that it begins. -/
theorem State.changeLife_forward {s : State} {v : Nat} (ahead : s.life ≤ v ∧ v ≤ 255 ∧ s.life ≠ 0) : s.Forward (s.changeLife v) := by
  have reset := s.deviceReset_forward 2
  have life := s.deviceReset_life 2
  refine ⟨reset.pending, fun inv => ?_⟩
  obtain ⟨⟨top, copies, -, -⟩, -, -⟩ := reset.life inv
  refine ⟨⟨top, copies, fun w h => ?_, fun h => absurd (life.symm.trans h) ahead.2.2⟩, life.ge, life.trans⟩
  cases h
  exact ⟨life.le.trans ahead.1, ahead.2.1⟩

theorem execDeviceReset_forward (target : Option (Fin 5)) (eui : Option Word) (s : State) : s.Forward ((execDeviceReset target eui s).after s) := by
  simp only [execDeviceReset]
  split
  · exact .refl s
  · split
    · exact ((State.Forward.of_fixed (by simp)).trans (State.deviceReset_forward ..)).then_fixed (State.keepSent_fixed ..)
    · split
      · exact .of_fixed (by simp)
      next v change =>
        have life : (s.answerHead 0x50 0 []).life = s.life := by
          have h := s.answerHead_fixed 0x50 0 []
          simp only [State.fixed, Prod.mk.injEq] at h
          exact h.2.2.1
        exact ((State.Forward.of_fixed (by simp)).trans (State.changeLife_forward (life ▸ State.lifeTo_forward change))).then_fixed (State.keepSent_fixed ..)

/-- Every command keeps the queue of waiting commands and takes the lifecycle only forward: all but those that reset or stop the device leave both alone. -/
theorem exec_forward (c : Instr) (s : State) : s.Forward (Out.after (exec c s) s) := by
  cases c with
  | railFault bus rail reported => exact execRailFault_forward bus rail reported s
  | temperatureRead cluster celsius => exact execTemperatureRead_forward cluster celsius s
  | powerOn coolant resetN => exact execPowerOn_forward coolant resetN s
  | coolantOkLow => exact execCoolantOkLow_forward s
  | islandRestart => exact s.restart_forward
  | railRampTimeout bus rail => exact execRailRampTimeout_forward bus rail s
  | resetNAssert => exact execResetNAssert_forward s
  | resetExit seen bad => exact execResetExit_forward seen bad s
  | rstDeviceReset => exact execRstDeviceReset_forward s
  | freezeTick => exact execFreezeTick_forward s
  | regWrite slow => exact execRegWrite_forward slow s
  | registerWrite core addr value => exact execRegisterWrite_forward core addr value s
  | dbgreg offset value => exact execDbgreg_forward offset value s
  | fmCommandArrival idx writes reset => exact execFmCommandArrival_forward idx writes reset s
  | deviceReset target eui => exact execDeviceReset_forward target eui s
  | watchdogExpiry core acks => exact execWatchdogExpiry_forward core acks s
  | _ => exact .of_fixed (by simp [exec])

/-! ## The queue and the lifecycle in a step -/

theorem step_of_pending_cons {s : State} {c : Instr} {r : List Instr} (h : s.pending = c :: r) : step s = exec c { s with pending := r } := by
  simp only [step, h]

/-- Settles O1: by the queue's two shapes. -/
theorem stepRunsFrontCommand : Obligations.StepRunsFrontCommand := by
  unfold Obligations.StepRunsFrontCommand
  exact ⟨fun _ _ => step_of_pending_cons rfl, fun _ => step_of_pending_nil⟩

theorem exec_forward_of_next {c : Instr} {s t : State} (h : exec c s = .next t) : s.Forward t := by
  have forward := exec_forward c s
  rwa [h] at forward

/-- Settles O4: an empty queue stays, and a command of the front leaves the rest as it finds it. -/
theorem queueUntouched : Obligations.QueueUntouched := by
  unfold Obligations.QueueUntouched
  intro s t h
  match queue : s.pending with
  | [] =>
    cases (step_of_pending_nil queue).symm.trans h
    exact queue
  | c :: r => exact (exec_forward_of_next ((step_of_pending_cons queue).symm.trans h)).pending

theorem step_forward {s t : State} (h : step s = .next t) (inv : LifeInv s) : LifeInv t ∧ s.life ≤ t.life ∧ (s.life = 0 → t.life = 0) := by
  match queue : s.pending with
  | [] =>
    cases (step_of_pending_nil queue).symm.trans h
    exact ⟨inv, le_rfl, id⟩
  | c :: r => exact (exec_forward_of_next ((step_of_pending_cons queue).symm.trans h)).life inv

/-- Settles O5: the lifecycle is retired from the counter's last value on and blank at its first, and the counter only goes forward. -/
theorem lifecycleForward : Obligations.LifecycleForward := by
  unfold Obligations.LifecycleForward State.lifecycle
  intro s t inv h
  obtain ⟨inv', up, blank⟩ := step_forward h inv
  rw [lifecycleOf_eq_four_iff, lifecycleOf_eq_four_iff, lifecycleOf_eq_zero_iff, lifecycleOf_eq_zero_iff]
  exact ⟨inv', up, fun retired => retired.trans up, blank⟩

end Sys2Proof.Machine

/-! SUPPORT. Frequency changes, the Global Time Counter and PPS: what requests of the rails leave alone, what a step of the time writes, and from these what a
frequency change, a tick, a commit and an edge of PPS_IN do. -/

namespace Sys2Proof.Machine

/-! ## What requests of the rails leave alone -/

/-- `t` differs from `s` in the record of power alone. -/
def State.OnlyPower (s t : State) : Prop := t = { s with power := t.power }

theorem State.OnlyPower.refl (s : State) : s.OnlyPower s := rfl

theorem State.OnlyPower.trans {s t u : State} (h : s.OnlyPower t) (h' : t.OnlyPower u) : s.OnlyPower u := by
  rw [State.OnlyPower] at h
  exact Eq.trans h' (by rw [h])

theorem State.OnlyPower.foldl {α : Type} {g : State → α → State} (h : ∀ t a, State.OnlyPower t (g t a)) (l : List α) (s : State) :
    s.OnlyPower (l.foldl g s) :=
  List.foldlRecOn _ _ (motive := s.OnlyPower) (.refl s) fun t ht a _ => ht.trans (h t a)

theorem State.OnlyPower.ite {s t u : State} {c : Prop} [Decidable c] (h : s.OnlyPower t) (k : s.OnlyPower u) : s.OnlyPower (if c then t else u) := by
  split
  · exact h
  · exact k

theorem State.OnlyPower.rim {s t : State} (h : s.OnlyPower t) : t.rim = s.rim := by
  rw [State.OnlyPower] at h
  rw [h]

theorem State.OnlyPower.clocks {s t : State} (h : s.OnlyPower t) : t.clocks = s.clocks := by
  rw [State.OnlyPower] at h
  rw [h]

theorem State.OnlyPower.fld {s t : State} (h : s.OnlyPower t) (f : Fld) : t.fld f = s.fld f := State.fld_of_rim h.rim f

theorem State.mapPower_onlyPower (s : State) (n : Nat) (f : ClPower → ClPower) : s.OnlyPower (s.mapPower n f) := rfl

theorem State.askRails_onlyPower (s : State) (v : Nat → Nat) : s.OnlyPower (s.askRails v) :=
  .foldl (fun t n => .ite (.refl t) (t.mapPower_onlyPower n _)) _ s

theorem State.fixRails_onlyPower (s : State) : s.OnlyPower s.fixRails :=
  .foldl (fun t n => .ite (.refl t) (t.mapPower_onlyPower n _)) _ s

theorem State.startRaise_onlyPower (s : State) (mhz : Nat) : s.OnlyPower (s.startRaise mhz) :=
  (s.askRails_onlyPower _).trans rfl

theorem State.dropRaise_onlyPower (s : State) : s.OnlyPower s.dropRaise :=
  .ite (.refl s) (.trans (.foldl (fun t n => t.mapPower_onlyPower n _) _ s) rfl)

theorem State.startRaise_raise (s : State) (mhz : Nat) : (s.startRaise mhz).power.raise = some (mhz, s.mono) := by
  have asked := s.askRails_onlyPower (fun n => railMv (s.learned n mhz + s.fld fPwrGovRaiseMv))
  rw [State.OnlyPower] at asked
  rw [State.startRaise, asked]

theorem State.dropRaise_raise (s : State) : s.dropRaise.power.raise = none := by
  unfold State.dropRaise
  split
  · exact Option.isNone_iff_eq_none.1 ‹_›
  · rfl

/-! ## Frequency changes (R348, R350, R378) -/

/-- The state in which a write of CLK_FREQ_AT has armed its change, before what becomes of the rails. -/
def State.withFreqAt (s : State) (v : Word) : State :=
  { s with clocks := { s.clocks with freqAt := some ⟨s.fld fClkFreqTargetMhz, v.toNat, decide (v.toNat < s.time), s.mono⟩ } }

theorem State.armSlew_eq (s : State) (v : Word) :
    s.armSlew v = if s.fld fPwrStatusMode != 2 then s.withFreqAt v
      else if s.freqNow < s.fld fClkFreqTargetMhz then (s.withFreqAt v).startRaise (s.fld fClkFreqTargetMhz) else (s.withFreqAt v).dropRaise := rfl

theorem State.armSlew_onlyPower (s : State) (v : Word) : (s.withFreqAt v).OnlyPower (s.armSlew v) :=
  .ite (.refl _) (.ite (State.startRaise_onlyPower ..) (State.dropRaise_onlyPower _))

theorem State.armSlew_power_of_not_manual {s : State} (mode : s.fld fPwrStatusMode ≠ 2) (v : Word) : (s.armSlew v).power = s.power := by
  rw [State.armSlew_eq, if_pos (by simpa using mode)]
  rfl

theorem State.armSlew_raise_of_manual {s : State} (mode : s.fld fPwrStatusMode = 2) (v : Word) :
    (s.armSlew v).power.raise = if s.freqNow < s.fld fClkFreqTargetMhz then some (s.fld fClkFreqTargetMhz, s.mono) else none := by
  rw [State.armSlew_eq, if_neg (by simpa using mode)]
  split
  · exact State.startRaise_raise ..
  · exact State.dropRaise_raise _

theorem exec_clkFreqAtWrite {s : State} (up : s.dev = .up) (v : Word) : exec (.clkFreqAtWrite v) s = .next (s.armSlew v) := if_pos up

theorem exec_clkFreqTargetWrite {s : State} (up : s.dev = .up) (v : Word) : exec (.clkFreqTargetWrite v) s = .next (s.writeTarget (fieldOf v 0 11)) := if_pos up

theorem State.writeTarget_of_not_manual {s : State} (mode : s.fld fPwrStatusMode ≠ 2) (v : Nat) : s.writeTarget v = s := if_pos (by simpa using mode)

/-- The target that is taken of a written one: within 700 MHz and the ceiling. -/
def State.clamped (s : State) (v : Nat) : Nat := max 700 (min (s.fld fPwrStatusFCeilingMhz) v)

theorem State.writeTarget_of_manual {s : State} (mode : s.fld fPwrStatusMode = 2) (v : Nat) :
    s.writeTarget v = if s.clamped v = v then s.setFld fClkFreqTargetMhz (s.clamped v) else (s.setFld fClkFreqTargetMhz (s.clamped v)).setFld fClkStatusClamped 1 :=
  if_neg (by simpa using mode)

theorem State.clamped_lt {s : State} {v : Nat} (small : v < 2048) : s.clamped v < 2048 := by
  unfold State.clamped
  omega

theorem State.writeTarget_target {s : State} (mode : s.fld fPwrStatusMode = 2) {v : Nat} (small : v < 2048) :
    (s.writeTarget v).fld fClkFreqTargetMhz = s.clamped v := by
  have taken : (s.setFld fClkFreqTargetMhz (s.clamped v)).fld fClkFreqTargetMhz = s.clamped v :=
    (State.fld_setFld_same s fClkFreqTargetMhz _ (by decide)).trans (Nat.mod_eq_of_lt (State.clamped_lt small))
  rw [State.writeTarget_of_manual mode]
  split
  · exact taken
  · rw [State.fld_setFld_apart _ _ (by decide), taken]

theorem State.writeTarget_clamped {s : State} (mode : s.fld fPwrStatusMode = 2) (v : Nat) :
    (s.writeTarget v).fld fClkStatusClamped = if s.clamped v = v then s.fld fClkStatusClamped else 1 := by
  rw [State.writeTarget_of_manual mode]
  split
  · exact State.fld_setFld_apart _ _ (by decide)
  · exact State.fld_setFld_same _ fClkStatusClamped 1 (by decide)

theorem State.writeTarget_clocks (s : State) (v : Nat) : (s.writeTarget v).clocks = s.clocks := by
  unfold State.writeTarget
  split
  · rfl
  · extract_lets hi t u
    split
    · rfl
    · rfl

/-- The state in which a slew has begun, late or not, before the change that was armed is taken off. -/
def State.slewing (s : State) (late : Bool) : State :=
  let t := (s.setFld fClkStatusFreqMhz s.freqNow).setFld fClkStatusSlewing 1
  if late then t.setFld fClkStatusLate 1 else t

theorem exec_frequencySlewStart {s : State} {a : FreqArm} (up : s.dev = .up) (armed : s.clocks.freqAt = some a) (due : a.time ≤ s.time)
    (later : s.mono ≠ a.armedAt) (ready : s.power.raise = none) :
    exec .frequencySlewStart s = .next { s.slewing a.past with
      clocks := { (s.slewing a.past).clocks with freqAt := none, slew := some ⟨a.target, (s.slewing a.past).mono, (s.slewing a.past).fld fClkCtrlSlew⟩ } } := by
  change execFrequencySlewStart s = _
  rw [execFrequencySlewStart, armed]
  exact if_pos (by simp [up, due, later, ready])

theorem State.slewing_clocks (s : State) (late : Bool) : (s.slewing late).clocks = s.clocks ∧ (s.slewing late).mono = s.mono := by
  unfold State.slewing
  cases late <;> exact ⟨rfl, rfl⟩

theorem State.slewing_fld (s : State) (late : Bool) {f : Fld} (apart : ∀ g ∈ [fClkStatusFreqMhz, fClkStatusSlewing, fClkStatusLate],
    f.off ≠ g.off ∨ f.lo + f.width ≤ g.lo ∨ g.lo + g.width ≤ f.lo) : (s.slewing late).fld f = s.fld f := by
  simp only [List.forall_mem_cons] at apart
  obtain ⟨freq, slewing, lateness, -⟩ := apart
  unfold State.slewing
  cases late
  · exact (State.fld_setFld_apart _ _ slewing).trans (State.fld_setFld_apart _ _ freq)
  · exact ((State.fld_setFld_apart _ _ lateness).trans (State.fld_setFld_apart _ _ slewing)).trans (State.fld_setFld_apart _ _ freq)

theorem State.slewing_status (s : State) (late : Bool) :
    (s.slewing late).fld fClkStatusSlewing = 1 ∧ (s.slewing late).fld fClkStatusFreqMhz = s.freqNow % 2048 ∧
      (s.slewing late).fld fClkStatusLate = if late then 1 else s.fld fClkStatusLate := by
  have begun : ((s.setFld fClkStatusFreqMhz s.freqNow).setFld fClkStatusSlewing 1).fld fClkStatusSlewing = 1 := State.fld_setFld_same _ _ _ (by decide)
  have freq : ((s.setFld fClkStatusFreqMhz s.freqNow).setFld fClkStatusSlewing 1).fld fClkStatusFreqMhz = s.freqNow % 2048 :=
    (State.fld_setFld_apart _ _ (by decide)).trans (State.fld_setFld_same _ _ _ (by decide))
  unfold State.slewing
  cases late
  · exact ⟨begun, freq, (State.fld_setFld_apart _ _ (by decide)).trans (State.fld_setFld_apart _ _ (by decide))⟩
  · exact ⟨(State.fld_setFld_apart _ _ (by decide)).trans begun, (State.fld_setFld_apart _ _ (by decide)).trans freq, State.fld_setFld_same _ _ _ (by decide)⟩

/-- The state in which a slew has reached its target, before fixed mode asks for its voltage. -/
def State.slewDone (s : State) (target : Nat) : State :=
  ({ s with clocks := { s.clocks with slew := none } }.setFld fClkStatusFreqMhz target).setFld fClkStatusSlewing 0

theorem exec_frequencySlewEnd {s : State} {w : Slew} (up : s.dev = .up) (moving : s.clocks.slew = some w) (there : s.freqNow = w.target) :
    exec .frequencySlewEnd s = .next (if (s.slewDone w.target).fld fPwrStatusMode = 0 then (s.slewDone w.target).fixRails else s.slewDone w.target) := by
  change execFrequencySlewEnd s = _
  rw [execFrequencySlewEnd, moving]
  exact if_pos (by simp [up, there])

/-- Settles O38: a raise or its end touches the power's record alone, and the fields of the clock's registers lie apart. -/
theorem frequencyChange : Obligations.FrequencyChange := by
  unfold Obligations.FrequencyChange
  intro s up
  refine ⟨fun v => ?_, fun v => ⟨fun mode => ?_, fun mode => ?_⟩, fun a armed due later ready => ?_, fun w moving there => ?_⟩
  · have armed := s.armSlew_onlyPower v
    exact ⟨s.armSlew v, exec_clkFreqAtWrite up v, armed.clocks, armed.rim, fun mode => State.armSlew_power_of_not_manual mode v,
      fun mode => State.armSlew_raise_of_manual mode v⟩
  · rw [exec_clkFreqTargetWrite up, State.writeTarget_of_not_manual mode]
  · have low : fieldOf v 0 11 = v.toNat % 2048 := rfl
    have target := State.writeTarget_target mode (v := v.toNat % 2048) (Nat.mod_lt _ (by decide))
    refine ⟨_, exec_clkFreqTargetWrite up v, ?_, ?_, s.writeTarget_clocks _⟩
    · rw [low, target, State.clamped]
    · rw [low, target, State.writeTarget_clamped mode]
  · obtain ⟨clocks, mono⟩ := s.slewing_clocks a.past
    obtain ⟨begun, freq, late⟩ := s.slewing_status a.past
    refine ⟨_, exec_frequencySlewStart up armed due later ready, begun, freq, late, ?_⟩
    rw [clocks, mono, s.slewing_fld a.past (by decide)]
  · have done : ∀ t, (s.slewDone w.target).OnlyPower t → t.clocks.slew = none ∧ t.fld fClkStatusSlewing = 0 ∧ t.fld fClkStatusFreqMhz = w.target % 2048 := by
      intro t only
      rw [only.clocks, only.fld, only.fld]
      exact ⟨rfl, State.fld_setFld_same _ _ _ (by decide), (State.fld_setFld_apart _ _ (by decide)).trans (State.fld_setFld_same _ _ _ (by decide))⟩
    exact ⟨_, exec_frequencySlewEnd up moving there, done _ (.ite (State.fixRails_onlyPower _) (.refl _))⟩

/-! ## Fields that lie apart -/

theorem State.fld_setReg_ne (s : State) {f : Fld} {a : Nat} (w : Word) (h : f.off ≠ a) : (s.setReg a w).fld f = s.fld f := by
  rw [State.fld, State.reg_setReg_ne s w h, State.fld]

theorem State.fld_lt (s : State) (f : Fld) : s.fld f < 2 ^ f.width := fieldOf_lt ..

theorem State.setFld_reg_ne (s : State) {f : Fld} {a : Nat} (v : Nat) (h : a ≠ f.off) : (s.setFld f v).reg a = s.reg a := State.reg_setReg_ne s _ h

/-! ## A step of the time (R231, R360, R363, R440) -/

/-- The registers that a step of the time writes beside the counter's own: those of a snap and of a freeze that it passes. -/
def lateFields : List Fld := [fDbgSnapStatusLate, fDbgFreezeStatusLate, fDbgFreezeTimeTime]

/-- The counter's own fields as a step of the time sets them. -/
def State.steppedCounter (s : State) (sec ns : Nat) : State :=
  { (s.setFld fTimeSecSec sec).setFld fTimeNsNs (ns / 10 * 10) with timeSteps := s.timeSteps + 1 }

/-- The clusters keep their counters over a step of the time by `d`, and the armed slots of the cores act from then on. -/
def State.stepUnits (s : State) (now : Nat) (d : Int) : State :=
  let move (t : TimedSlot) : TimedSlot := if t.armed then { t with armedAt := now, stepped := true } else t
  let s := (List.range 144).foldl (fun s n => s.mapCluster n (fun k => { k with interp := k.interp + d })) s
  s.cores.foldl (fun s x => s.setCore x.1 { x.2 with ctl := { x.2.ctl with slots := x.2.ctl.slots.map move } }) s

/-- A snap that a step of the time has passed is late. -/
def State.lateSnap (s : State) (now : Nat) : State :=
  if s.dbg.snap.any (fun t => decide (t < now)) then { s.setFld fDbgSnapStatusLate 1 with dbg := { s.dbg with snap := some now } } else s

/-- A freeze that a step of the time has passed is late. -/
def State.lateFreeze (s : State) (now : Nat) : State :=
  if s.dbg.freeze.any (fun t => decide (t < now)) then
    { (s.setFld fDbgFreezeStatusLate 1).setReg fDbgFreezeTimeTime.off (BitVec.ofNat 64 now) with dbg := { s.dbg with freeze := some now } }
  else s

/-- A frequency change and an epoch that a step of the time has passed are late. -/
def State.lateChanges (s : State) (now : Nat) : State :=
  { s with
    clocks := { s.clocks with freqAt := s.clocks.freqAt.map (fun a => { a with past := a.past || decide (a.time < now) }) }
    epoch := { s.epoch with armed := s.epoch.armed.map (fun x => (x.1, x.2 || decide (x.1 < now))) } }

theorem State.stepTime_eq (s : State) (sec ns : Nat) :
    s.stepTime sec ns =
      let t := s.steppedCounter sec ns
      (((t.stepUnits t.time (Int.ofNat s.time - Int.ofNat t.time)).lateSnap t.time).lateFreeze t.time).lateChanges t.time := by
  delta State.stepTime State.lateChanges State.lateFreeze State.lateSnap State.stepUnits State.steppedCounter
  with_reducible rfl

/-- What a step of the time keeps of a state beside its registers, and what counts the steps. -/
def State.timing (s : State) : TimeBase × Nat × Nat × Option Slew := (s.timeBase, s.mono, s.timeSteps, s.clocks.slew)

theorem State.OnlyUnits.timing {s t : State} (h : s.OnlyUnits t) : t.timing = s.timing := by
  rw [State.OnlyUnits] at h
  rw [h]
  rfl

theorem State.stepUnits_onlyUnits (s : State) (now : Nat) (d : Int) : s.OnlyUnits (s.stepUnits now d) := by
  have moved (l : List Nat) (g : Cluster → Cluster) : s.OnlyUnits (l.foldl (fun t n => t.mapCluster n g) s) :=
    .foldl (fun t n => t.mapCluster_onlyUnits n g) l s
  refine (moved _ _).trans (.foldl (fun t x => ?_) _ _)
  exact rfl

theorem State.lateSnap_timing (s : State) (now : Nat) : (s.lateSnap now).timing = s.timing := by
  unfold State.lateSnap
  split
  · simp only [State.timing, State.setFld_frame]
  · rfl

theorem State.lateFreeze_timing (s : State) (now : Nat) : (s.lateFreeze now).timing = s.timing := by
  unfold State.lateFreeze
  split
  · simp only [State.timing, State.setReg_frame, State.setFld_frame]
  · rfl

theorem State.lateChanges_timing (s : State) (now : Nat) : (s.lateChanges now).timing = s.timing := by
  simp only [State.lateChanges, State.timing]

theorem State.lateSnap_fld (s : State) (now : Nat) {f : Fld} (apart : f.off ≠ fDbgSnapStatusLate.off) : (s.lateSnap now).fld f = s.fld f := by
  unfold State.lateSnap
  split
  · exact (State.fld_of_rim (s := s.setFld fDbgSnapStatusLate 1) rfl f).trans (State.fld_setFld_other _ _ _ _ apart)
  · rfl

theorem State.lateFreeze_fld (s : State) (now : Nat) {f : Fld} (apart : f.off ≠ fDbgFreezeStatusLate.off) (time : f.off ≠ fDbgFreezeTimeTime.off) :
    (s.lateFreeze now).fld f = s.fld f := by
  unfold State.lateFreeze
  generalize BitVec.ofNat 64 now = w
  split
  · exact ((State.fld_of_rim (s := (s.setFld fDbgFreezeStatusLate 1).setReg fDbgFreezeTimeTime.off w) rfl f).trans (State.fld_setReg_ne _ _ time)).trans
      (State.fld_setFld_other _ _ _ _ apart)
  · rfl

theorem State.lateChanges_fld (s : State) (now : Nat) (f : Fld) : (s.lateChanges now).fld f = s.fld f := State.fld_of_rim rfl f

theorem State.stepTime_timing (s : State) (sec ns : Nat) : (s.stepTime sec ns).timing = (s.timeBase, s.mono, s.timeSteps + 1, s.clocks.slew) := by
  rw [State.stepTime_eq]
  extract_lets t
  rw [State.lateChanges_timing, State.lateFreeze_timing, State.lateSnap_timing, (t.stepUnits_onlyUnits ..).timing]
  rfl

/-- A step of the time sets the counter's own fields, and else only those of a snap or freeze that it passes. -/
theorem State.stepTime_fld_counter (s : State) (sec ns : Nat) {f : Fld} (apart : ∀ g ∈ lateFields, f.off ≠ g.off) :
    (s.stepTime sec ns).fld f = ((s.setFld fTimeSecSec sec).setFld fTimeNsNs (ns / 10 * 10)).fld f := by
  simp only [lateFields, List.forall_mem_cons] at apart
  obtain ⟨snap, frozen, time, -⟩ := apart
  rw [State.stepTime_eq]
  extract_lets t
  rw [State.lateChanges_fld, State.lateFreeze_fld _ _ frozen time, State.lateSnap_fld _ _ snap, State.fld_of_rim (t.stepUnits_onlyUnits ..).rim]
  exact State.fld_of_rim rfl f

theorem State.stepTime_ns (s : State) (sec : Nat) {ns : Nat} (fits : ns < 2 ^ 30) : (s.stepTime sec ns).fld fTimeNsNs = ns / 10 * 10 := by
  rw [s.stepTime_fld_counter sec ns (by decide)]
  exact (State.fld_setFld_same _ fTimeNsNs _ (by decide)).trans (Nat.mod_eq_of_lt ((Nat.div_mul_le_self ns 10).trans_lt fits))

theorem State.stepTime_sec (s : State) {sec : Nat} (ns : Nat) (fits : sec < 2 ^ 48) : (s.stepTime sec ns).fld fTimeSecSec = sec := by
  rw [s.stepTime_fld_counter sec ns (by decide)]
  exact (State.fld_setFld_apart _ _ (by decide)).trans ((State.fld_setFld_same s fTimeSecSec sec (by decide)).trans (Nat.mod_eq_of_lt fits))

theorem State.stepTime_fld (s : State) (sec ns : Nat) {f : Fld} (apart : ∀ g ∈ fTimeSecSec :: fTimeNsNs :: lateFields, f.off ≠ g.off) :
    (s.stepTime sec ns).fld f = s.fld f := by
  rw [List.forall_mem_cons, List.forall_mem_cons] at apart
  obtain ⟨seconds, nanos, late⟩ := apart
  rw [s.stepTime_fld_counter sec ns late, State.fld_setFld_other _ _ _ _ nanos, State.fld_setFld_other _ _ _ _ seconds]

/-! ## Ticks (R359, R364) -/

/-- A crossing of the array lies in the clock registers of a cluster, and setting one reaches no other register. -/
theorem State.setCrossings_fld {s : State} (mhz : Nat) (array : ∀ x ∈ s.clocks.xings, x.1 < 576) {f : Fld} (beyond : 0x2AA000 ≤ f.off) :
    (s.setCrossings mhz).fld f = s.fld f := by
  refine List.foldlRecOn _ _ (motive := fun t : State => t.fld f = s.fld f) rfl fun t kept x mem => ?_
  have inside := array x mem
  have near (g : Fld) (at_ : g.off = 0x2a1010) : f.off ≠ (fldAt g (0x100 * (x.1 / 4) + 8 * (x.1 % 4))).off := by
    change f.off ≠ g.off + _
    omega
  exact (State.fld_setFld_other _ _ _ _ (near _ rfl)).trans ((State.fld_setFld_other _ _ _ _ (near _ rfl)).trans kept)

/-- The state at its next tick but for the counter: the island's clock and the device's have advanced. -/
def State.ticked (s : State) : State := { s with island := { s.island with ns := s.island.ns + 10 }, mono := s.mono + 10 }

theorem exec_timeBaseTick {s : State} (up : s.dev = .up) : exec .timeBaseTick s =
    .next (if s.ticked.advanceTime.clocks.slew.isNone || s.ticked.advanceTime.freqNow = s.freqNow then s.ticked.advanceTime
      else s.ticked.advanceTime.setCrossings s.ticked.advanceTime.freqNow) := by
  change execTimeBaseTick s = _
  unfold execTimeBaseTick
  have clock : (if s.dev = .off then s else { s with island := { s.island with ns := s.island.ns + 10 } }) =
      { s with island := { s.island with ns := s.island.ns + 10 } } := if_neg (by rw [up]; decide)
  rw [clock]
  exact if_neg (fun down => absurd up (by simpa using down))

/-- A tick in which no edge of PPS_IN asks for a step: what it keeps beside the registers. -/
theorem State.advanceTime_of_no_step {s : State} (none : s.timeBase.toStep = none) : s.advanceTime =
    if 10 ^ 9 ≤ s.fld fTimeNsNs + 10 then (s.setFld fTimeNsNs 0).bump fTimeSecSec 1 else s.setFld fTimeNsNs (s.fld fTimeNsNs + 10) := by
  rw [State.advanceTime, none]

theorem State.advanceTime_of_step {s : State} {v : Nat} (asked : s.timeBase.toStep = some v) : s.advanceTime =
    { s with timeBase := { s.timeBase with toStep := none } }.stepTime (s.fld fTimeSecSec) v := by
  rw [State.advanceTime, asked]

theorem State.advanceTime_kept {s : State} (none : s.timeBase.toStep = none) :
    s.advanceTime.mono = s.mono ∧ s.advanceTime.cores = s.cores ∧ s.advanceTime.island = s.island ∧ s.advanceTime.clocks = s.clocks := by
  rw [State.advanceTime_of_no_step none]
  split
  · exact ⟨rfl, rfl, rfl, rfl⟩
  · exact ⟨rfl, rfl, rfl, rfl⟩

theorem State.advanceTime_counts {s : State} (none : s.timeBase.toStep = none) (before : s.fld fTimeNsNs + 10 < 10 ^ 9) :
    s.advanceTime.fld fTimeNsNs = s.fld fTimeNsNs + 10 ∧ s.advanceTime.fld fTimeSecSec = s.fld fTimeSecSec := by
  rw [State.advanceTime_of_no_step none, if_neg (not_le.2 before)]
  refine ⟨(State.fld_setFld_same s fTimeNsNs _ (by decide)).trans (Nat.mod_eq_of_lt (before.trans (by decide))), State.fld_setFld_apart s _ (by decide)⟩

theorem State.advanceTime_rolls {s : State} (none : s.timeBase.toStep = none) (rolls : 10 ^ 9 ≤ s.fld fTimeNsNs + 10) :
    s.advanceTime.fld fTimeNsNs = 0 ∧ s.advanceTime.fld fTimeSecSec = (s.fld fTimeSecSec + 1) % 2 ^ 48 := by
  rw [State.advanceTime_of_no_step none, if_pos rolls]
  have sec : (s.setFld fTimeNsNs 0).fld fTimeSecSec = s.fld fTimeSecSec := State.fld_setFld_apart s _ (by decide)
  refine ⟨(State.fld_setFld_apart _ _ (by decide)).trans (State.fld_setFld_same s fTimeNsNs 0 (by decide)), ?_⟩
  rw [State.bump, sec]
  exact State.fld_setFld_same _ fTimeSecSec _ (by decide)

/-- Crossings are settings of their own, and what a slew does of them leaves the rest of the device. -/
theorem State.setCrossings_kept (s : State) (mhz : Nat) :
    (s.setCrossings mhz).mono = s.mono ∧ (s.setCrossings mhz).cores = s.cores ∧ (s.setCrossings mhz).island = s.island := by
  refine List.foldlRecOn _ _ (motive := fun t : State => t.mono = s.mono ∧ t.cores = s.cores ∧ t.island = s.island) ⟨rfl, rfl, rfl⟩ fun t kept x _ => ?_
  exact kept

/-! ## The staged commit (R361 to R363) -/

theorem exec_timeNsRead {s : State} (up : s.dev = .up) (q : Fin 18) :
    exec (.timeNsRead q) s = .next { s.readTimeNs q.val with lastRead := s.reg fTimeNsNs.off } := if_pos up

theorem exec_timeStageArm {s : State} (up : s.dev = .up) (v : Word) : exec (.timeStageArm v) s = .next (s.armStage v) := if_pos up

theorem State.armStage_of_refused {s : State} {v : Word} (refused : (v.getLsbD 0 && s.stageRefused v) = true) :
    s.armStage v = s.setFld fTimeStatusStageErr 1 := if_pos refused

/-- The state in which a commit has been armed, or taken off. -/
def State.stageArmed (s : State) (v : Word) : State :=
  let s := s.setReg fTimeStageCtrlArm.off (BitVec.ofNat 64 (fieldOf v 0 4))
  { s with timeBase := { s.timeBase with past := bitOf v 0 && !bitOf v 1 && decide (s.fld fTimeCommitAtTime < s.time), armedAt := s.mono } }

theorem State.stageArmed_rim (s : State) (v : Word) :
    (s.stageArmed v).rim = (s.setReg fTimeStageCtrlArm.off (BitVec.ofNat 64 (fieldOf v 0 4))).rim := rfl

theorem State.armStage_of_taken {s : State} {v : Word} (taken : (v.getLsbD 0 && s.stageRefused v) = false) : s.armStage v = s.stageArmed v :=
  if_neg (by rw [bitOf, taken]; decide)

theorem State.stageRefused_iff (s : State) (v : Word) : (v.getLsbD 0 && s.stageRefused v) = true ↔
    v.getLsbD 0 = true ∧ (v.getLsbD 2 = true ∧ 10 ^ 9 ≤ s.fld fTimeNsStageNs ∨ (v.getLsbD 2 = true ∨ v.getLsbD 3 = true) ∧ s.fld fFabTimeParentEn = 1 ∨
      v.getLsbD 3 = true ∧ s.fld fTimeCtrlPpsEn = 1) := by
  simp only [State.stageRefused, bitOf, Bool.and_eq_true, Bool.or_eq_true, decide_eq_true_eq, or_assoc]

/-- The state in which a commit has taken the staged rate, where it is asked for. -/
def State.withStagedRate (s : State) : State :=
  if s.fld fTimeStageCtrlWhatRate = 1 then s.setFld fTimeRateRate s.stagedRate else s

/-- The state in which a commit has taken the staged time, where it is asked for. -/
def State.withStagedTime (s : State) : State :=
  if s.fld fTimeStageCtrlWhatTime = 1 then (s.stepTime (s.fld fTimeSecStageSec) (s.fld fTimeNsStageNs)).setFld fTimeStatusValid 1 else s

/-- The state in which a commit is no longer armed, and late where it was armed for a time past. -/
def State.committed (s : State) : State := (if s.timeBase.past then s.setFld fTimeStatusLate 1 else s).setFld fTimeStageCtrlArm 0

theorem exec_timeCommit {s : State} (up : s.dev = .up) (armed : s.fld fTimeStageCtrlArm = 1) (later : s.mono ≠ s.timeBase.armedAt)
    (due : if s.fld fTimeStageCtrlMode = 0 then s.fld fTimeCommitAtTime ≤ s.time else s.fld fTimeNsNs = 0) :
    exec .timeCommit s = .next s.withStagedRate.withStagedTime.committed := by
  have isDue : (if s.fld fTimeStageCtrlMode = 0 then decide (s.fld fTimeCommitAtTime ≤ s.time) else decide (s.fld fTimeNsNs = 0)) = true := by
    split at due
    · rw [if_pos ‹_›]
      exact decide_eq_true due
    · rw [if_neg ‹_›]
      exact decide_eq_true due
  change execTimeCommit s = _
  unfold execTimeCommit
  rw [isDue]
  exact if_neg (by simp [up, armed, later])

theorem State.committed_fld (s : State) {f : Fld} (late : fTimeStatusLate.Apart f) (arm : fTimeStageCtrlArm.Apart f) : s.committed.fld f = s.fld f := by
  unfold State.committed
  rw [State.fld_setFld_apart _ _ arm]
  split
  · exact State.fld_setFld_apart _ _ late
  · rfl

theorem State.committed_timeSteps (s : State) : s.committed.timeSteps = s.timeSteps := by
  unfold State.committed
  split
  · rfl
  · rfl

theorem State.withStagedRate_fld (s : State) {f : Fld} (apart : f.off ≠ fTimeRateRate.off) : s.withStagedRate.fld f = s.fld f := by
  unfold State.withStagedRate
  split
  · exact State.fld_setFld_other _ _ _ _ apart
  · rfl

theorem State.withStagedRate_timeSteps (s : State) : s.withStagedRate.timeSteps = s.timeSteps := by
  unfold State.withStagedRate
  split
  · rfl
  · rfl

theorem State.stagedRate_lt (s : State) : s.stagedRate < 2 ^ 32 := by
  unfold State.stagedRate
  omega

theorem State.withStagedRate_rate (s : State) :
    s.withStagedRate.fld fTimeRateRate = if s.fld fTimeStageCtrlWhatRate = 1 then s.stagedRate else s.fld fTimeRateRate := by
  unfold State.withStagedRate
  split
  · exact (State.fld_setFld_same s fTimeRateRate _ (by decide)).trans (Nat.mod_eq_of_lt s.stagedRate_lt)
  · rfl

/-- A commit that takes the time steps the counter to what is staged, and the time is then valid. -/
theorem State.withStagedTime_taken {s : State} (what : s.fld fTimeStageCtrlWhatTime = 1) :
    s.withStagedTime.fld fTimeSecSec = s.fld fTimeSecStageSec ∧ s.withStagedTime.fld fTimeNsNs = s.fld fTimeNsStageNs / 10 * 10 ∧
      s.withStagedTime.fld fTimeStatusValid = 1 ∧ s.withStagedTime.timeSteps = s.timeSteps + 1 := by
  rw [State.withStagedTime, if_pos what]
  have steps := s.stepTime_timing (s.fld fTimeSecStageSec) (s.fld fTimeNsStageNs)
  simp only [State.timing, Prod.mk.injEq] at steps
  refine ⟨?_, ?_, State.fld_setFld_same _ fTimeStatusValid 1 (by decide), steps.2.2.1⟩
  · exact (State.fld_setFld_apart _ _ (by decide)).trans (State.stepTime_sec s _ (s.fld_lt fTimeSecStageSec))
  · exact (State.fld_setFld_apart _ _ (by decide)).trans (State.stepTime_ns s _ (s.fld_lt fTimeNsStageNs))

theorem State.withStagedTime_fld (s : State) {f : Fld} (apart : ∀ g ∈ fTimeStatusValid :: fTimeSecSec :: fTimeNsNs :: lateFields, f.off ≠ g.off) :
    s.withStagedTime.fld f = s.fld f := by
  rw [List.forall_mem_cons] at apart
  unfold State.withStagedTime
  split
  · exact (State.fld_setFld_other _ _ _ _ apart.1).trans (s.stepTime_fld _ _ apart.2)
  · rfl

/-- A commit clears the arming, and takes the time and the rate each where it is asked for. -/
theorem State.commit_spec (s : State) : let t := s.withStagedRate.withStagedTime.committed
    t.fld fTimeStageCtrlArm = 0 ∧
      (s.fld fTimeStageCtrlWhatTime = 1 → t.fld fTimeSecSec = s.fld fTimeSecStageSec ∧ t.fld fTimeNsNs = s.fld fTimeNsStageNs / 10 * 10 ∧
        t.fld fTimeStatusValid = 1 ∧ t.timeSteps = s.timeSteps + 1) ∧
      (s.fld fTimeStageCtrlWhatTime = 0 → t.fld fTimeSecSec = s.fld fTimeSecSec ∧ t.fld fTimeNsNs = s.fld fTimeNsNs ∧ t.timeSteps = s.timeSteps) ∧
      t.fld fTimeRateRate = (if s.fld fTimeStageCtrlWhatRate = 1 then s.stagedRate else s.fld fTimeRateRate) := by
  have kept {f : Fld} (apart : f.off ≠ fTimeRateRate.off) : s.withStagedRate.fld f = s.fld f := s.withStagedRate_fld apart
  have what : s.withStagedRate.fld fTimeStageCtrlWhatTime = s.fld fTimeStageCtrlWhatTime := kept (by decide)
  refine ⟨State.fld_setFld_same _ fTimeStageCtrlArm 0 (by decide), fun time => ?_, fun time => ?_, ?_⟩
  · obtain ⟨sec, ns, valid, steps⟩ := State.withStagedTime_taken (what.trans time)
    rw [State.committed_fld _ (by decide) (by decide), State.committed_fld _ (by decide) (by decide), State.committed_fld _ (by decide) (by decide),
      State.committed_timeSteps, sec, ns, valid, steps, kept (by decide), kept (by decide), State.withStagedRate_timeSteps]
    exact ⟨rfl, rfl, rfl, rfl⟩
  · have same : s.withStagedRate.withStagedTime = s.withStagedRate := if_neg (by rw [what, time]; decide)
    rw [same, State.committed_fld _ (by decide) (by decide), State.committed_fld _ (by decide) (by decide), State.committed_timeSteps,
      kept (by decide), kept (by decide), State.withStagedRate_timeSteps]
    exact ⟨rfl, rfl, rfl⟩
  · rw [State.committed_fld _ (by decide) (by decide), State.withStagedTime_fld _ (by decide), State.withStagedRate_rate]

/-! ## PPS (R364, R365) -/

/-- The error of an edge of PPS_IN in quarter nanoseconds, against the nearest second. -/
def ppsError (ns : Nat) : Int := if ns < 2 * 10 ^ 9 then (ns : Int) else (ns : Int) - 4 * 10 ^ 9

theorem ppsError_large {ns : Nat} (after : 4000 < ns) (before : ns + 4000 < 4 * 10 ^ 9) : 4000 < (ppsError ns).natAbs := by
  unfold ppsError
  split <;> omega

theorem ppsError_small {ns : Nat} (near : ns ≤ 4000 ∨ (4 * 10 ^ 9 ≤ ns + 4000 ∧ ns ≤ 4 * 10 ^ 9)) : ¬4000 < (ppsError ns).natAbs := by
  unfold ppsError
  split <;> omega

/-- The state in which an edge of PPS_IN is timestamped. -/
def State.edgeTaken (s : State) (sub : Nat) : State :=
  { s.setReg fTimePpsInValue.off (BitVec.ofNat 64 (4 * s.time + sub)) with timeBase := { s.timeBase with pps := some (4 * s.mono + sub), lost := false } }

/-- What an accepted edge steers: a step at the next tick, or the rate. -/
def State.edgeSteers (s : State) (sub : Nat) (err : Int) : State :=
  if 4000 < err.natAbs then { s with timeBase := { s.timeBase with toStep := some (if sub = 0 then 10 else 0) } } else (s.steer err).setFld fTimeStatusValid 1

/-- An edge ends the holdover of the time where REFCLK is there. -/
def State.endHoldover (s : State) : State := if s.island.refclk then s.setFld fTimeStatusHoldover 0 else s

theorem exec_ppsInEdge_glitch {s : State} (up : s.dev = .up) {sub : Fin 40} {last : Nat} (seen : s.timeBase.pps = some last)
    (soon : 4 * s.mono + sub.val < last + 3600000000) : exec (.ppsInEdge sub) s = .next (s.bump fTimePpsGlitchValue 1) := by
  have close : s.timeBase.pps.any (fun t => decide (4 * s.mono + sub.val < t + 3600000000)) = true := by
    rw [seen, Option.any_some, decide_eq_true_iff]
    exact soon
  change execPpsInEdge sub s = _
  rw [execPpsInEdge, if_neg (by simp [up]), if_pos close]

theorem exec_ppsInEdge_taken {s : State} (up : s.dev = .up) {sub : Fin 40} (apart : ∀ last, s.timeBase.pps = some last → last + 3600000000 ≤ 4 * s.mono + sub.val) :
    exec (.ppsInEdge sub) s =
      if (s.edgeTaken sub.val).fld fTimeCtrlPpsEn = 0 || (s.edgeTaken sub.val).fld fFabTimeParentEn = 1 then .next (s.edgeTaken sub.val)
      else .next ((s.edgeTaken sub.val).edgeSteers sub.val (ppsError (4 * s.fld fTimeNsNs + sub.val))).endHoldover := by
  have late : ¬s.timeBase.pps.any (fun t => decide (4 * s.mono + sub.val < t + 3600000000)) = true := by
    cases seen : s.timeBase.pps with
    | none => exact Bool.false_ne_true
    | some last =>
      rw [Option.any_some, decide_eq_true_iff, not_lt]
      exact apart last seen
  change execPpsInEdge sub s = _
  rw [execPpsInEdge, if_neg (by simp [up]), if_neg late]
  delta State.edgeTaken State.edgeSteers State.endHoldover ppsError
  with_reducible rfl

theorem State.edgeTaken_rim (s : State) (sub : Nat) : (s.edgeTaken sub).rim = (s.setReg fTimePpsInValue.off (BitVec.ofNat 64 (4 * s.time + sub))).rim := rfl

theorem State.edgeTaken_fld (s : State) (sub : Nat) {f : Fld} (apart : f.off ≠ fTimePpsInValue.off) : (s.edgeTaken sub).fld f = s.fld f := by
  rw [State.fld_of_rim (s.edgeTaken_rim sub), State.fld_setReg_ne s _ apart]

theorem State.edgeTaken_reg (s : State) (sub : Nat) : (s.edgeTaken sub).reg fTimePpsInValue.off = BitVec.ofNat 64 (4 * s.time + sub) := by
  rw [State.reg_of_rim (s.edgeTaken_rim sub), State.reg_setReg_same]

theorem State.steer_kept (s : State) (err : Int) : (s.steer err).timeBase = s.timeBase := by
  unfold State.steer
  split
  · rfl
  · rfl

theorem State.steer_reg (s : State) (err : Int) {a : Nat} (other : a ≠ fTimeRateRate.off) : (s.steer err).reg a = s.reg a := by
  unfold State.steer
  split
  · rfl
  · exact State.setFld_reg_ne s _ other

theorem State.endHoldover_kept (s : State) : s.endHoldover.timeBase = s.timeBase := by
  unfold State.endHoldover
  split
  · rfl
  · rfl

theorem State.endHoldover_fld (s : State) {f : Fld} (apart : fTimeStatusHoldover.Apart f) : s.endHoldover.fld f = s.fld f := by
  unfold State.endHoldover
  split
  · exact State.fld_setFld_apart s _ apart
  · rfl

theorem State.endHoldover_reg (s : State) {a : Nat} (other : a ≠ fTimeStatusHoldover.off) : s.endHoldover.reg a = s.reg a := by
  unfold State.endHoldover
  split
  · exact State.setFld_reg_ne s _ other
  · rfl

theorem State.edgeSteers_far (s : State) (sub : Nat) {err : Int} (far : 4000 < err.natAbs) :
    s.edgeSteers sub err = { s with timeBase := { s.timeBase with toStep := some (if sub = 0 then 10 else 0) } } := if_pos far

theorem State.edgeSteers_near (s : State) (sub : Nat) {err : Int} (near : ¬4000 < err.natAbs) :
    s.edgeSteers sub err = (s.steer err).setFld fTimeStatusValid 1 := if_neg near

theorem State.edgeSteers_reg (s : State) (sub : Nat) (err : Int) {a : Nat} (rate : a ≠ fTimeRateRate.off) (status : a ≠ fTimeStatusValid.off) :
    (s.edgeSteers sub err).reg a = s.reg a := by
  by_cases far : 4000 < err.natAbs
  · rw [State.edgeSteers_far s sub far]
    rfl
  · rw [State.edgeSteers_near s sub far, State.setFld_reg_ne _ _ status, State.steer_reg s err rate]

theorem State.edgeSteers_base (s : State) (sub : Nat) (err : Int) :
    (s.edgeSteers sub err).timeBase.pps = s.timeBase.pps ∧ (s.edgeSteers sub err).timeBase.lost = s.timeBase.lost := by
  by_cases far : 4000 < err.natAbs
  · rw [State.edgeSteers_far s sub far]
    exact ⟨rfl, rfl⟩
  · rw [State.edgeSteers_near s sub far]
    exact ⟨congrArg TimeBase.pps (s.steer_kept err), congrArg TimeBase.lost (s.steer_kept err)⟩

theorem State.edgeSteers_far_rim (s : State) (sub : Nat) {err : Int} (far : 4000 < err.natAbs) : (s.edgeSteers sub err).rim = s.rim := by
  rw [State.edgeSteers_far s sub far]

theorem State.edgeSteers_near_base (s : State) (sub : Nat) {err : Int} (near : ¬4000 < err.natAbs) : (s.edgeSteers sub err).timeBase = s.timeBase := by
  rw [State.edgeSteers_near s sub near]
  exact s.steer_kept err

theorem State.edgeTaken_base (s : State) (sub : Nat) : (s.edgeTaken sub).timeBase = { s.timeBase with pps := some (4 * s.mono + sub), lost := false } := by
  rw [State.edgeTaken]

/-- An edge that is accepted stamps its time and leaves the counter, whatever it steers. -/
theorem State.edge_kept (s : State) (sub : Nat) (err : Int) : let t := ((s.edgeTaken sub).edgeSteers sub err).endHoldover
    t.reg fTimePpsInValue.off = BitVec.ofNat 64 (4 * s.time + sub) ∧ t.timeBase.pps = some (4 * s.mono + sub) ∧ t.timeBase.lost = false ∧
      t.fld fTimeSecSec = s.fld fTimeSecSec ∧ t.fld fTimeNsNs = s.fld fTimeNsNs := by
  have base := (s.edgeTaken sub).edgeSteers_base sub err
  have fld {f : Fld} (own : f.off ≠ fTimePpsInValue.off) (rate : f.off ≠ fTimeRateRate.off) (status : f.off ≠ fTimeStatusValid.off) :
      ((s.edgeTaken sub).edgeSteers sub err).endHoldover.fld f = s.fld f := by
    rw [State.endHoldover_fld _ (.inl status), State.fld, State.edgeSteers_reg _ _ _ rate status, ← State.fld, State.edgeTaken_fld s sub own]
  refine ⟨?_, ?_, ?_, fld (by decide) (by decide) (by decide), fld (by decide) (by decide) (by decide)⟩
  · rw [State.endHoldover_reg _ (by decide), State.edgeSteers_reg _ _ _ (by decide) (by decide), State.edgeTaken_reg]
  · rw [State.endHoldover_kept, base.1, State.edgeTaken_base]
  · rw [State.endHoldover_kept, base.2, State.edgeTaken_base]

theorem State.edge_far (s : State) (sub : Nat) {err : Int} (far : 4000 < err.natAbs) : let t := ((s.edgeTaken sub).edgeSteers sub err).endHoldover
    t.fld fTimeRateRate = s.fld fTimeRateRate ∧ t.timeBase.toStep = some (if sub = 0 then 10 else 0) := by
  extract_lets t
  have stepped : t.timeBase.toStep = some (if sub = 0 then 10 else 0) := by
    rw [State.endHoldover_kept, State.edgeSteers_far _ sub far]
  refine ⟨?_, stepped⟩
  rw [State.endHoldover_fld _ (by decide), State.fld_of_rim (State.edgeSteers_far_rim _ sub far), s.edgeTaken_fld sub (by decide)]

theorem State.edge_near (s : State) (sub : Nat) {err : Int} (near : ¬4000 < err.natAbs) : let t := ((s.edgeTaken sub).edgeSteers sub err).endHoldover
    t.fld fTimeStatusValid = 1 ∧ t.timeBase.toStep = s.timeBase.toStep := by
  extract_lets t
  have kept : t.timeBase.toStep = s.timeBase.toStep := by
    rw [State.endHoldover_kept, State.edgeSteers_near_base _ sub near, State.edgeTaken_base]
  refine ⟨?_, kept⟩
  rw [State.endHoldover_fld _ (by decide), State.edgeSteers_near _ sub near]
  exact State.fld_setFld_same _ fTimeStatusValid 1 (by decide)

/-- The state that a tick leaves, once the crossings have followed a slew. -/
def State.tick (s : State) : State :=
  if s.ticked.advanceTime.clocks.slew.isNone || s.ticked.advanceTime.freqNow = s.freqNow then s.ticked.advanceTime
  else s.ticked.advanceTime.setCrossings s.ticked.advanceTime.freqNow

theorem State.tick_of_no_slew {s : State} (still : s.ticked.advanceTime.clocks.slew = none) : s.tick = s.ticked.advanceTime := if_pos (by rw [still]; rfl)

/-- Crossings that lie in the array follow a slew apart from the time and the cores. -/
theorem State.tick_kept {s : State} (array : s.ticked.advanceTime.clocks.slew = none ∨ ∀ x ∈ s.ticked.advanceTime.clocks.xings, x.1 < 576) :
    (s.tick.mono = s.ticked.advanceTime.mono ∧ s.tick.cores = s.ticked.advanceTime.cores ∧ s.tick.island = s.ticked.advanceTime.island) ∧
      ∀ f : Fld, 0x2AA000 ≤ f.off → s.tick.fld f = s.ticked.advanceTime.fld f := by
  obtain still | inside := array
  · rw [State.tick_of_no_slew still]
    exact ⟨⟨rfl, rfl, rfl⟩, fun _ _ => rfl⟩
  · unfold State.tick
    split
    · exact ⟨⟨rfl, rfl, rfl⟩, fun _ _ => rfl⟩
    · exact ⟨State.setCrossings_kept .., fun f beyond => State.setCrossings_fld _ inside beyond⟩

/-- The state in which the source of the time is lost, and the rate holds. -/
def State.ppsLost (s : State) : State :=
  { (s.setFld fTimeStatusPpsLost 1).setFld fTimeStatusHoldover 1 with timeBase := { s.timeBase with lost := true } }

theorem State.ppsLost_rim (s : State) : s.ppsLost.rim = ((s.setFld fTimeStatusPpsLost 1).setFld fTimeStatusHoldover 1).rim := rfl

theorem exec_ppsInLoss {s : State} (up : s.dev = .up) (steers : s.fld fTimeCtrlPpsEn = 1) (child : s.fld fFabTimeParentEn = 0) (held : s.timeBase.lost = false)
    (long : s.timeBase.pps.getD (4 * s.timeBase.began) + 8000000000 ≤ 4 * s.mono) :
    exec .ppsInLoss s = .next s.ppsLost := by
  change execPpsInLoss s = _
  rw [execPpsInLoss]
  refine if_pos ?_
  rw [up, steers, child, held, decide_eq_true long]
  rfl

/-- Settles O40: a tick, a commit and an edge of PPS_IN each write registers of their own, and a step of the time only the counter and what it makes late. -/
theorem timeCounterAndPps : Obligations.TimeCounterAndPps := by
  unfold Obligations.TimeCounterAndPps
  refine ⟨fun s up => ⟨fun none array => ?_, fun v small asked still => ?_, fun q => ?_, fun v => ⟨fun refused => ?_, fun taken => ?_⟩, fun armed later due => ?_⟩,
    fun s up => ⟨fun sub last seen soon => ?_, fun sub apart => ?_, fun steers child held long => ?_, fun out valid whole => ?_⟩, fun t s rising => ?_⟩
  · have calm : s.ticked.timeBase.toStep = Option.none := none
    obtain ⟨mono, cores, island, clocks⟩ := State.advanceTime_kept calm
    obtain ⟨⟨mono', cores', island'⟩, fld⟩ := State.tick_kept (s := s) (by rw [clocks]; exact array)
    refine ⟨s.tick, exec_timeBaseTick up, mono'.trans mono, cores'.trans cores, island'.trans island, fun before => ?_, fun rolls => ?_⟩
    · rw [fld _ (by decide), fld _ (by decide)]
      exact State.advanceTime_counts calm before
    · rw [fld _ (by decide), fld _ (by decide)]
      exact State.advanceTime_rolls calm rolls
  · have stepped := State.advanceTime_of_step (s := s.ticked) asked
    have timing := State.stepTime_timing { s.ticked with timeBase := { s.ticked.timeBase with toStep := none } } (s.ticked.fld fTimeSecSec) v
    rw [← stepped, State.timing, Prod.mk.injEq, Prod.mk.injEq, Prod.mk.injEq] at timing
    obtain ⟨base, mono, steps, slew⟩ := timing
    refine ⟨s.tick, exec_timeBaseTick up, ?_⟩
    rw [State.tick_of_no_slew (slew.trans still)]
    refine ⟨mono, ?_, ?_, congrArg TimeBase.toStep base, steps⟩
    · rw [stepped, State.stepTime_ns _ _ (small.trans (by decide))]
    · rw [stepped, State.stepTime_sec _ _ (State.fld_lt s.ticked fTimeSecSec)]
      rfl
  · refine ⟨_, exec_timeNsRead up q, rfl, Tbl.look_put_same .., fun q' other => Tbl.look_put_ne _ other _ _ _, rfl⟩
  · exact ⟨_, (exec_timeStageArm up v).trans (congrArg _ (State.armStage_of_refused ((s.stageRefused_iff v).2 refused))),
      State.fld_setFld_same s fTimeStatusStageErr 1 (by decide), State.setFld_reg_ne s _ (by decide), rfl⟩
  · have free : (v.getLsbD 0 && s.stageRefused v) = false := Bool.not_eq_true _ ▸ mt (s.stageRefused_iff v).1 taken
    refine ⟨_, (exec_timeStageArm up v).trans (congrArg _ (State.armStage_of_taken free)), ?_, ?_, rfl⟩
    · rw [State.fld_of_rim (s.stageArmed_rim v), State.fld_setReg_ne _ _ (by decide)]
    · rw [State.reg_of_rim (s.stageArmed_rim v), State.reg_setReg_same, BitVec.toNat_ofNat]
      have low : fieldOf v 0 4 = v.toNat % 16 := rfl
      omega
  · exact ⟨_, exec_timeCommit up armed later due, s.commit_spec⟩
  · exact ⟨_, exec_ppsInEdge_glitch up seen soon, State.bump_fld s ⟨rfl, rfl⟩, State.setFld_reg_ne s _ (by decide), rfl⟩
  · have row := exec_ppsInEdge_taken up apart
    rw [s.edgeTaken_fld _ (by decide), s.edgeTaken_fld _ (by decide)] at row
    by_cases steers : s.fld fTimeCtrlPpsEn = 0 ∨ s.fld fFabTimeParentEn = 1
    · rw [if_pos (by simpa using steers)] at row
      have base := s.edgeTaken_base sub.val
      refine ⟨_, row, s.edgeTaken_reg _, congrArg TimeBase.pps base, congrArg TimeBase.lost base, s.edgeTaken_fld _ (by decide), s.edgeTaken_fld _ (by decide),
        fun _ => ⟨s.edgeTaken_fld _ (by decide), by rw [base]⟩, fun on child => ?_⟩
      omega
    · rw [if_neg (by simpa using steers)] at row
      obtain ⟨stamp, pps, lost, sec, ns⟩ := s.edge_kept sub.val (ppsError (4 * s.fld fTimeNsNs + sub.val))
      exact ⟨_, row, stamp, pps, lost, sec, ns, fun idle => absurd idle steers, fun _ _ =>
        ⟨fun after before => s.edge_far _ (ppsError_large after before), fun near => s.edge_near _ (ppsError_small near)⟩⟩
  · refine ⟨s.ppsLost, exec_ppsInLoss up steers child held long, ?_, ?_, rfl, ?_⟩
    · rw [State.fld_of_rim s.ppsLost_rim, State.fld_setFld_apart _ _ (by decide)]
      exact State.fld_setFld_same s fTimeStatusPpsLost 1 (by decide)
    · rw [State.fld_of_rim s.ppsLost_rim]
      exact State.fld_setFld_same _ fTimeStatusHoldover 1 (by decide)
    · rw [State.fld_of_rim s.ppsLost_rim, State.fld_setFld_apart _ _ (by decide), State.fld_setFld_apart _ _ (by decide)]
  · change execPpsOutPulse s = _
    rw [execPpsOutPulse, if_pos (by simp [up, out, valid, whole])]
  · change execPpsOutEnd s = _
    rw [execPpsOutEnd, rising, Option.any_some]
    by_cases high : s.island.ns < t
    · rw [if_pos (decide_eq_true high), if_pos high]
    · rw [if_neg (by simpa using high), if_neg high]

end Sys2Proof.Machine

/-! SUPPORT. Resets, stops and the start: what an event of the log leaves of the island, what a reset clears and what a stop comes to, and from these power-on, the
island's sequences, reset exit, the bring-up phases and the start. -/

namespace Sys2Proof.Machine

theorem State.dev_of_fixed {s t : State} (h : t.fixed = s.fixed) : t.dev = s.dev := congrArg Prod.fst h

/-! ## What an event of the log leaves alone -/

/-- The island with FAULT_N asserted for one more cause. -/
def Island.faultFor (i : Island) (f : FaultCause) : Island := { i with faults := i.faults.filter (fun g => g != f) ++ [f] }

theorem Island.mem_faultFor (i : Island) (f : FaultCause) : f ∈ (i.faultFor f).faults := List.mem_append_right _ (.head _)

theorem Island.mem_faultFor_of_mem {i : Island} {f g : FaultCause} (h : g ∈ i.faults) : g ∈ (i.faultFor f).faults := by
  by_cases same : g = f
  · exact same ▸ i.mem_faultFor f
  · exact List.mem_append_left _ (List.mem_filter.2 ⟨h, by simpa using same⟩)

theorem State.lastGasp_island (s : State) (e : LogEntry) : (s.lastGasp e).island = s.island := by
  unfold State.lastGasp
  split
  · exact List.foldlRecOn _ _ (motive := fun t : State => t.island = s.island) rfl fun _ h _ _ => h
  · rfl

/-- An event leaves the island as it is, but for FAULT_N where the log memory has failed (R436). -/
theorem State.logEvent_island (s : State) (code severity cluster : Nat) (region : Option Nat) (detail : Word) :
    (s.logEvent code severity cluster region detail).island = s.island ∨ (s.logEvent code severity cluster region detail).island = s.island.faultFor .logLost := by
  rw [State.logEvent_eq]
  generalize s.logEntry code severity cluster region detail = e
  have gasp := s.lastGasp_island e
  simp only
  split
  · exact .inl gasp
  · split
    · exact .inr (congrArg (Island.faultFor · .logLost) gasp)
    · exact .inl gasp

theorem State.logEvent_fault (s : State) (code severity cluster : Nat) (region : Option Nat) (detail : Word) {f : FaultCause} (h : f ∈ s.island.faults) :
    f ∈ (s.logEvent code severity cluster region detail).island.faults := by
  obtain same | lost := s.logEvent_island code severity cluster region detail
  · rwa [same]
  · rw [lost]
    exact Island.mem_faultFor_of_mem h

theorem State.logEvent_dev (s : State) (code severity cluster : Nat) (region : Option Nat) (detail : Word) :
    (s.logEvent code severity cluster region detail).dev = s.dev := congrArg (·.1) (s.logEvent_fixed code severity cluster region detail)

/-! ## Causes (R388, R392) -/

theorem State.logCause_rim (s : State) (cause : Nat) :
    (s.logCause cause).rim = ((s.setFld fAoiCausePrevious (s.fld fAoiCauseLast)).setFld fAoiCauseLast cause).rim := rfl

theorem State.logCause_last (s : State) {cause : Nat} (small : cause < 16) : (s.logCause cause).fld fAoiCauseLast = cause := (s.logCause_spec cause small).2.2

theorem State.logCause_previous (s : State) (cause : Nat) : (s.logCause cause).fld fAoiCausePrevious = s.fld fAoiCauseLast := by
  rw [State.fld_of_rim (s.logCause_rim cause), State.fld_setFld_apart _ _ (by decide)]
  exact (State.fld_setFld_same s fAoiCausePrevious _ (by decide)).trans (Nat.mod_eq_of_lt (fieldOf_lt ..))

theorem State.logCause_fld (s : State) (cause : Nat) {f : Fld} (last : fAoiCauseLast.Apart f) (previous : fAoiCausePrevious.Apart f) :
    (s.logCause cause).fld f = s.fld f := by
  rw [State.fld_of_rim (s.logCause_rim cause), State.fld_setFld_apart _ _ last, State.fld_setFld_apart _ _ previous]

/-! ## Resets of the device (R388 to R392) -/

theorem Tbl.look_clear_other {α : Type} (t : Tbl α) {p : Nat → Bool} {k : Nat} (other : p k = false) (d : α) : (t.clear p).look k d = t.look k d := by
  induction t with
  | nil => rfl
  | cons x t ih =>
    obtain ⟨j, v⟩ := x
    by_cases keep : p j = true
    · have apart : j ≠ k := fun same => by simp [same ▸ keep] at other
      simpa [Tbl.clear, keep, Tbl.look, apart] using ih
    · simpa [Tbl.clear, keep, Tbl.look] using congrArg (fun x => if j = k then v else x) ih

theorem State.clearRim_fld (s : State) {f : Fld} (kept : keptAtReset f.off = true) (key : f.off ≠ fScrStatusMcKeyValid.off)
    (stop : f.off ≠ fPwrStatusStopCause.off) : s.clearRim.fld f = s.fld f := by
  rw [State.clearRim, State.fld_setFld_other _ _ _ _ stop, State.fld_setFld_other _ _ _ _ key]
  refine congrArg (fieldOf · f.lo f.width) (Tbl.look_clear_other s.rim (p := fun a => !keptAtReset a) ?_ _)
  rw [kept]
  rfl

theorem State.clearDevice_rim (s : State) : s.clearDevice.rim = s.clearRim.rim := rfl

theorem State.clearDevice_clears (s : State) : s.clearDevice.cores = [] ∧ s.clearDevice.clusters = [] ∧ s.clearDevice.mesh = [] := ⟨rfl, rfl, rfl⟩

theorem State.clearRim_log (s : State) : s.clearRim.log = s.log := by simp only [State.clearRim, State.setFld_frame]

theorem State.clearDevice_log (s : State) : s.clearDevice.log = s.log := by
  rw [State.clearDevice]
  exact s.clearRim_log

theorem State.clearDevice_resetLow (s : State) : s.clearDevice.island.resetLow = s.island.resetLow := by
  simp only [State.clearDevice, State.fusePads, State.setPads]

theorem State.logCause_kept (s : State) (cause : Nat) : (s.logCause cause).cores = s.cores ∧ (s.logCause cause).clusters = s.clusters ∧
    (s.logCause cause).mesh = s.mesh ∧ (s.logCause cause).log = s.log ∧ (s.logCause cause).island = { s.island with causes := s.island.causes ++ [cause] } :=
  ⟨rfl, rfl, rfl, rfl, rfl⟩

/-- A reset of a device that runs or is frozen, once a change of the lifecycle is cut short. -/
theorem State.deviceReset_running {s : State} (live : s.dev = .up ∨ s.dev = .frozen) (cause : Nat) :
    s.deviceReset cause = ((s.cutShort.clearDevice.bump fAoiCauseResets 1).setFld fAoiStartTimerRunning 0).logCause cause := by
  rcases live with up | frozen
  · simp only [State.deviceReset, s.cutShort_rest.1, up]
  · simp only [State.deviceReset, s.cutShort_rest.1, frozen]

theorem State.cutShort_kept (s : State) : s.cutShort.rim = s.rim ∧ s.cutShort.log = s.log ∧ s.cutShort.island = s.island := by
  unfold State.cutShort
  split
  · exact ⟨rfl, rfl, rfl⟩
  · exact ⟨rfl, rfl, rfl⟩

/-- What a reset clears and what it records: cores, clusters and mesh go, the log stays, and the cause before becomes the previous one. -/
theorem State.deviceReset_clears {s : State} (live : s.dev = .up ∨ s.dev = .frozen) (cause : Nat) : let t := s.deviceReset cause
    t.fld fAoiCausePrevious = s.fld fAoiCauseLast ∧ t.cores = [] ∧ t.clusters = [] ∧ t.mesh = [] ∧ t.log = s.log ∧ t.island.resetLow = s.island.resetLow := by
  obtain ⟨rim, log, island⟩ := s.cutShort_kept
  intro t
  have resets : t = _ := State.deviceReset_running live cause
  generalize cleared : (s.cutShort.clearDevice.bump fAoiCauseResets 1).setFld fAoiStartTimerRunning 0 = u at resets
  obtain ⟨cores, clusters, mesh, log', island'⟩ := u.logCause_kept cause
  rw [resets, cores, clusters, mesh, log', island', ← cleared]
  obtain ⟨noCores, noClusters, noMesh⟩ := s.cutShort.clearDevice_clears
  simp only [State.bump, State.setFld_frame, noCores, noClusters, noMesh, State.clearDevice_log, State.clearDevice_resetLow, log, island, and_true]
  rw [State.logCause_previous, State.fld_setFld_apart _ _ (by decide), State.fld_setFld_apart _ _ (by decide),
    State.fld_of_rim (State.clearDevice_rim _), State.clearRim_fld _ (by decide) (by decide) (by decide), State.fld_of_rim rim]

/-! ## Stops of the device (R385, R387, R392) -/

/-- The state once a device outside a reset has been reset for a stop. -/
def State.clearedForStop (s : State) (reset : Bool) : State := if reset then s else (s.clearDevice.bump fAoiCauseResets 1).setFld fAoiStartTimerRunning 0

/-- A device on its way to a stop, before the rails fall: its event and cause are logged, and FAULT_N is asserted. -/
def State.stopping (s : State) (code : Nat) : State :=
  ((((s.logEvent 0x04 2 0xFF none (BitVec.ofNat 64 code)).clearedForStop (s.dev = .inReset)).logCause (3 + code)).setFld fPwrStatusStopCause code).faultOn .stop

/-- The device once the rails have fallen. -/
def State.railsFallen (s : State) (code : Nat) : State :=
  { s with dev := .stopped, island := { s.island with pwrEn := 0, thermTrip := s.island.thermTrip || code = 2 } }

theorem State.stopDevice_on {s : State} (off : s.dev ≠ .off) (stopped : s.dev ≠ .stopped) (code : Nat) :
    s.stopDevice code = ((s.cutShort.stopping code).railsFallen code).note (.island .stop) := by
  have dev := s.cutShort_rest.1
  rw [← dev] at off stopped
  unfold State.stopDevice State.stopping State.railsFallen State.clearedForStop
  match h : s.cutShort.dev with
  | .off => exact absurd h off
  | .stopped => exact absurd h stopped
  | .inReset => simp only [h, decide_true, if_true]
  | .up => simp only [h, reduceCtorEq, decide_false, Bool.false_eq_true, if_false]
  | .frozen => simp only [h, reduceCtorEq, decide_false, Bool.false_eq_true, if_false]

theorem State.clearedForStop_island (s : State) (reset : Bool) : (s.clearedForStop reset).island.faults = s.island.faults := by
  unfold State.clearedForStop
  split
  · rfl
  · simp only [State.bump, State.setFld_frame, State.clearDevice, State.fusePads, State.setPads]

/-- What the stop of a running device comes to: the rails are off, the cause is kept, and FAULT_N is asserted for it and for what it was asserted before. -/
theorem State.stopDevice_spec {s : State} (off : s.dev ≠ .off) (stopped : s.dev ≠ .stopped) {code : Nat} (small : code < 8) : let t := s.stopDevice code
    t.dev = .stopped ∧ t.island.pwrEn = 0 ∧ (code = 2 → t.island.thermTrip = true) ∧ t.fld fPwrStatusStopCause = code ∧
      FaultCause.stop ∈ t.island.faults ∧ ∀ f ∈ s.island.faults, f ∈ t.island.faults := by
  intro t
  have eq : t = ((s.cutShort.stopping code).railsFallen code).note (.island .stop) := State.stopDevice_on off stopped code
  obtain ⟨-, -, island⟩ := s.cutShort_kept
  have rim : t.rim = (s.cutShort.stopping code).rim := by
    rw [eq]
    rfl
  have faults : t.island.faults = (s.cutShort.stopping code).island.faults := by
    rw [eq]
    rfl
  refine ⟨by rw [eq]; rfl, by rw [eq]; rfl, fun trip => ?_, ?_, ?_, fun f h => ?_⟩
  · rw [eq]
    exact Bool.or_eq_true_iff.2 (.inr (decide_eq_true trip))
  · rw [State.fld_of_rim rim]
    exact (State.fld_setFld_same _ fPwrStatusStopCause code (by decide)).trans (Nat.mod_eq_of_lt small)
  · rw [faults]
    exact Island.mem_faultFor _ _
  · rw [faults]
    refine Island.mem_faultFor_of_mem ?_
    change f ∈ (((s.cutShort.logEvent 0x04 2 0xFF none (BitVec.ofNat 64 code)).clearedForStop (s.cutShort.dev = .inReset)).logCause (3 + code)).island.faults
    rw [(State.logCause_kept ..).2.2.2.2, State.clearedForStop_island]
    exact State.logEvent_fault _ _ _ _ _ _ (island ▸ h)

/-! ## Power-on, coolant, rails and RESET_N (R385, R386, R388 to R390, R457, R458) -/

/-- The island's state as power-on finds its pins, before the fuses set the pads. -/
def islandAtPowerOn (coolant resetN : Bool) : Island :=
  { Island.off with coolant := coolant, resetLow := !resetN, pwrEn := if coolant then railsOn else 0, causes := [0] }

/-- The state after power-on with an island. -/
def State.poweredOn (s : State) (i : Island) : State :=
  { State.reset with dev := .inReset, life := s.life, lifeCopies := s.cutShort.lifeCopies, logBad := s.logBad, pending := s.pending, island := i }

theorem exec_powerOn (s : State) (coolant resetN : Bool) : ∃ pads : Tbl Pad,
    exec (.powerOn coolant resetN) s = .next (s.poweredOn { islandAtPowerOn coolant resetN with pads := pads }) := by
  cases coolant
  · exact ⟨_, rfl⟩
  · exact ⟨_, rfl⟩

/-- A device that stays, with COOLANT_OK high for a second, and in a reset its rails raised. -/
theorem exec_coolantOkHigh {s : State} (off : s.dev ≠ .off) : ∃ t, exec .coolantOkHigh s = .next t ∧ t.dev = s.dev ∧ t.island.coolantLong = true ∧
    t.island.pwrEn = (if s.dev = .inReset then 0x3FFF else s.island.pwrEn) := by
  change ∃ t, execCoolantOkHigh s = .next t ∧ _
  unfold execCoolantOkHigh
  split
  next gone => exact absurd gone off
  next d _ =>
    refine ⟨_, rfl, ?_⟩
    split
    · exact ⟨rfl, rfl, rfl⟩
    · exact ⟨rfl, rfl, rfl⟩

/-- The state in which COOLANT_OK is low. -/
def State.coolantGone (s : State) : State := { s with island := { s.island with coolant := false, coolantLong := false } }

theorem exec_coolantOkLow {s : State} (off : s.dev ≠ .off) :
    exec .coolantOkLow s = .next (if s.island.pwrEn.testBit 0 || s.dev = .stopped then s.coolantGone.stopDevice 1 else s.coolantGone) := by
  change execCoolantOkLow s = _
  unfold execCoolantOkLow
  split
  next gone => exact absurd gone off
  next => rfl

/-- A stop leaves what the coolant's pin gives. -/
theorem State.stopDevice_coolant {s : State} (off : s.dev ≠ .off) (stopped : s.dev ≠ .stopped) (code : Nat) :
    (s.stopDevice code).island.coolant = s.island.coolant := by
  have event (t : State) : (t.logEvent 0x04 2 0xFF none (BitVec.ofNat 64 code)).island.coolant = t.island.coolant := by
    obtain same | lost := t.logEvent_island 0x04 2 0xFF none (BitVec.ofNat 64 code)
    · rw [same]
    · rw [lost, Island.faultFor]
  have cleared (t : State) (reset : Bool) : (t.clearedForStop reset).island.coolant = t.island.coolant := by
    unfold State.clearedForStop
    split
    · rfl
    · simp only [State.bump, State.setFld_frame, State.clearDevice, State.fusePads, State.setPads]
  rw [State.stopDevice_on off stopped]
  change (((s.cutShort.logEvent 0x04 2 0xFF none (BitVec.ofNat 64 code)).clearedForStop (s.cutShort.dev = .inReset)).logCause (3 + code)).island.coolant = _
  rw [(State.logCause_kept ..).2.2.2.2, cleared, event, s.cutShort_kept.2.2]

/-- A further cause in a stop is logged beside the first. -/
theorem State.stopDevice_again {s : State} (stopped : s.dev = .stopped) {code : Nat} (new : 3 + code ∉ s.island.causes) (small : code < 8) :
    let t := s.stopDevice code
    t.dev = .stopped ∧ t.fld fAoiCauseLast = 3 + code ∧ t.fld fAoiCausePrevious = s.fld fAoiCauseLast ∧
      t.fld fPwrStatusStopCause = s.fld fPwrStatusStopCause := by
  intro t
  obtain ⟨rim, -, island⟩ := s.cutShort_kept
  have dev : s.cutShort.dev = .stopped := s.cutShort_rest.1.trans stopped
  generalize logged : (s.cutShort.logEvent 0x04 2 0xFF none (BitVec.ofNat 64 code)) = u
  have below {f : Fld} (low : f.off < fAoiLogStatusLogLost.off) : u.fld f = s.fld f := by
    rw [← logged, State.logEvent_below _ _ _ _ _ _ low, State.fld_of_rim rim]
  have eq : t = { u.logCause (3 + code) with
      island := { (u.logCause (3 + code)).island with thermTrip := (u.logCause (3 + code)).island.thermTrip || code = 2 } } := by
    change s.stopDevice code = _
    unfold State.stopDevice
    simp only [dev, island]
    rw [if_neg (by simpa using new), logged]
  have same : t.rim = (u.logCause (3 + code)).rim := by rw [eq]
  have devs : u.dev = .stopped := by rw [← logged, State.logEvent_dev, dev]
  refine ⟨by rw [eq]; exact devs, ?_, ?_, ?_⟩
  · rw [State.fld_of_rim same, State.logCause_last _ (by omega)]
  · rw [State.fld_of_rim same, State.logCause_previous, below (by decide)]
  · rw [State.fld_of_rim same, State.logCause_fld _ _ (by decide) (by decide), below (by decide)]

/-- Whether the coolant and the temperature permit a restart (R386). -/
def State.MayRestart (s : State) : Prop := s.island.coolantLong = true ∧ ∃ c, s.power.rimTemp = some c ∧ c + 10 < s.tripC

theorem State.mayRestart_iff (s : State) : (s.island.coolantLong && s.power.rimTemp.any (fun t => decide (t + 10 < s.tripC))) = true ↔ s.MayRestart := by
  simp [State.MayRestart, Option.any_eq_true]

/-- The state in which RESET_N is low. -/
def State.resetPinLow (s : State) : State := { s with island := { s.island with resetLow := true, heldDone := false } }

/-- The state in which ten seconds of RESET_N are latched and logged. -/
def State.heldLatched (s : State) : State :=
  (({ s with island := { s.island with heldDone := true } } : State).setFld fAoiCauseHeldLatched 1).logEvent 0x02 1 0xFF none 0

/-- Settles O57: what a reset or a stop keeps lies in the island, and each sequence is one step that the device's condition chooses. -/
theorem powerAndResets : Obligations.PowerAndResets := by
  unfold Obligations.PowerAndResets
  intro s
  refine ⟨fun coolant resetN => ?_, exec_coolantOkHigh, fun up => ?_, fun stopped new => ?_, fun stopped => ?_, fun bus rail reset rails real => ?_,
    fun live => ?_, fun reset low first => ?_, fun up => ?_⟩
  · obtain ⟨pads, row⟩ := exec_powerOn s coolant resetN
    exact ⟨_, row, rfl, rfl, rfl, .head _⟩
  · have off : s.dev ≠ .off := by simp [up]
    have stopped : s.dev ≠ .stopped := by simp [up]
    refine ⟨_, exec_coolantOkLow off, ?_, fun raised => ?_, fun lowered => ?_⟩
    · split
      · exact (State.stopDevice_coolant (s := s.coolantGone) off stopped 1).trans rfl
      · rfl
    · rw [if_pos (by simp [raised])]
      obtain ⟨dev, rails, -, cause, fault, -⟩ := State.stopDevice_spec (s := s.coolantGone) off stopped (code := 1) (by decide)
      exact ⟨dev, cause, rails, fault⟩
    · rw [if_neg (by simp [lowered, up])]
      exact up
  · refine ⟨_, exec_coolantOkLow (by simp [stopped]), ?_⟩
    rw [if_pos (by simp [stopped])]
    exact State.stopDevice_again (s := s.coolantGone) stopped (code := 1) new (by decide)
  · refine ⟨s.restart, rfl, fun may => ?_, fun not => ?_⟩
    · rw [State.restart, if_pos stopped, if_pos (s.mayRestart_iff.2 may)]
      exact ⟨rfl, rfl, rfl⟩
    · rw [State.restart, if_pos stopped, if_neg (mt s.mayRestart_iff.1 not)]
      exact ⟨stopped, rfl, List.mem_append_right _ (.head _)⟩
  · have row : exec (.railRampTimeout bus rail) s = .next (((s.bump fPwrAvsErrCount 1).faultOn .rail).stopDevice 3) := by
      change execRailRampTimeout bus rail s = _
      unfold execRailRampTimeout
      exact if_pos (by simpa [reset, rails, railsOn] using real)
    obtain ⟨dev, -, -, cause, -, faults⟩ := State.stopDevice_spec (s := (s.bump fPwrAvsErrCount 1).faultOn .rail) (show s.dev ≠ .off by simp [reset])
      (show s.dev ≠ .stopped by simp [reset]) (code := 3) (by decide)
    exact ⟨_, row, dev, cause, faults _ (Island.mem_faultFor _ _)⟩
  · have row : exec .resetNAssert s = .next ((s.resetPinLow.deviceReset 1).note .resetHeld) := by
      change execResetNAssert s = _
      unfold execResetNAssert
      split
      next off => exact absurd live (by simp [off])
      next => rfl
    obtain ⟨dev, life, last⟩ := State.deviceReset_spec (s := s.resetPinLow) live (cause := 1) (by decide)
    obtain ⟨previous, cores, clusters, mesh, log, low⟩ := State.deviceReset_clears (s := s.resetPinLow) live 1
    exact ⟨_, row, dev, low, last, previous, cores, clusters, mesh, log, life, List.mem_append_right _ (.head _)⟩
  · have row : exec .resetNHeld s = .next (s.heldLatched.note .resetHeld) := if_pos (by simp [reset, low, first])
    refine ⟨_, row, ?_, ?_, ?_, List.mem_append_right _ (.head _)⟩
    · change s.heldLatched.fld fAoiCauseHeldLatched = 1
      rw [State.heldLatched, State.logEvent_below _ _ _ _ _ _ (by decide)]
      exact State.fld_setFld_same _ fAoiCauseHeldLatched 1 (by decide)
    · change s.heldLatched.island.heldDone = true
      rw [State.heldLatched]
      obtain same | lost := State.logEvent_island (({ s with island := { s.island with heldDone := true } } : State).setFld fAoiCauseHeldLatched 1) 0x02 1 0xFF none 0
      · rw [same]
        rfl
      · rw [lost]
        rfl
    · exact (State.logEvent_dev ..).trans reset
  · have row : exec .rstDeviceReset s = .next (s.deviceReset 2) := if_pos up
    obtain ⟨dev, life, last⟩ := State.deviceReset_spec (.inl up) (cause := 2) (by decide)
    obtain ⟨previous, cores, clusters, mesh, log, -⟩ := State.deviceReset_clears (.inl up) 2
    exact ⟨_, row, dev, last, previous, cores, clusters, mesh, log, life⟩

/-! ## Reset exit (R400 to R402, R413) -/

theorem State.faultOff_faults (s : State) (f g : FaultCause) : g ∈ (s.faultOff f).island.faults ↔ g ∈ s.island.faults ∧ g ≠ f := by
  simp [State.faultOff]

theorem State.faultOff_fld (s : State) (f : FaultCause) (g : Fld) : (s.faultOff f).fld g = s.fld g := rfl

theorem State.note_fld (s : State) (n : Note) (f : Fld) : (s.note n).fld f = s.fld f := rfl

theorem State.note_island (s : State) (n : Note) : (s.note n).island = s.island := rfl

/-- The causes of the reset and the fuse words that disagree, logged at its exit. -/
def State.exitLogged (s : State) (disagree : List Nat) : State :=
  disagree.foldl (fun s w => s.logEvent 0x0F 1 0xFF none (BitVec.ofNat 64 w))
    (s.island.causes.foldl (fun s c => s.logEvent 0x01 0 0xFF none (BitVec.ofNat 64 c)) s)

/-- Whether a reset's exit leads to Minimal Recovery Mode (R402). -/
def State.exitMrm (s : State) (bad : Bool) : Bool := bad || s.fld fAoiStartFailedStarts = 3 || s.fld fAoiRecoverForceMrm = 1

/-- The status that a reset's exit sets. -/
def State.exitStatus (s : State) (bad disagree : Bool) : State :=
  let mrm := s.exitMrm bad
  let s := (s.setFld fFuseStatusVotedOk (bit !bad)).setFld fFuseStatusCopiesDisagree (bit disagree)
  ((s.setFld fAoiStartMrm (bit mrm)).setFld fRstStatusMrm (bit mrm)).setFld fAoiStartTimerRunning (bit !mrm)

/-- FAULT_N released of what a reset's exit ends. -/
def State.exitFaults (s : State) (bad : Bool) : State :=
  let s := ((s.faultOff .stop).faultOff .rail).faultOff .freeze
  if bad then s else s.faultOff .powerOn

/-- The device up, once its reset has ended. -/
def State.exited (s : State) (bad : Bool) : State :=
  { s with dev := .up, island := { s.island with causes := [], resetLow := false, badFuses := bad, startEnded := false } }.setPads
    [0, 1, 2, 3, 8, 12, 13, 15] (fun _ => .signal)

section
variable {s : State} {seen : ExitSeen} (reset : s.dev = .inReset) (rails : s.island.pwrEn = 0x3FFF) (high : seen.resetN = true) (good : seen.railsOut = [])
include reset rails high good

theorem exec_resetExit_blows (bad : Bool) {v : Nat} (waits : s.blowing = some v) : exec (.resetExit seen bad) s = .next (s.blow v) := by
  change execResetExit seen bad s = _
  unfold execResetExit
  rw [if_neg (by simp [reset, rails, railsOn, high, good])]
  split
  next w h =>
    cases waits.symm.trans h
    rfl
  next idle => exact absurd waits (idle v)

theorem exec_resetExit_starts (bad : Bool) (idle : s.blowing = none) : exec (.resetExit seen bad) s =
    .next ((((s.voteLife.exitLogged seen.disagree).exitStatus bad (!seen.disagree.isEmpty)).exitFaults bad).exited bad) := by
  change execResetExit seen bad s = _
  unfold execResetExit
  rw [if_neg (by simp [reset, rails, railsOn, high, good])]
  split
  next w h => exact absurd (idle.symm.trans h) (by simp)
  next => rfl

end

theorem State.exitLogged_fld (s : State) (disagree : List Nat) {f : Fld} (below : f.off < fAoiLogStatusLogLost.off) :
    (s.exitLogged disagree).fld f = s.fld f := by
  have events {α : Type} (g : α → State → State) (logs : ∀ a t, ∃ c sv d, g a t = t.logEvent c sv 0xFF none d) (l : List α) (t : State) :
      (l.foldl (fun t a => g a t) t).fld f = t.fld f := by
    refine List.foldlRecOn _ _ (motive := fun u : State => u.fld f = t.fld f) rfl fun u h a _ => ?_
    obtain ⟨c, sv, d, eq⟩ := logs a u
    rw [eq, State.logEvent_below _ _ _ _ _ _ below, h]
  rw [State.exitLogged, events _ (fun _ _ => ⟨_, _, _, rfl⟩), events _ (fun _ _ => ⟨_, _, _, rfl⟩)]

theorem State.exitLogged_fixed (s : State) (disagree : List Nat) : (s.exitLogged disagree).fixed = s.fixed := by
  simp [State.exitLogged]

theorem State.exitStatus_fixed (s : State) (bad disagree : Bool) : (s.exitStatus bad disagree).fixed = s.fixed := by
  simp [State.exitStatus]

theorem State.exitFaults_fixed (s : State) (bad : Bool) : (s.exitFaults bad).fixed = s.fixed := by
  simp [State.exitFaults]

theorem State.exitFaults_rim (s : State) (bad : Bool) : (s.exitFaults bad).rim = s.rim := by
  cases bad
  · rfl
  · rfl

theorem State.exited_spec (s : State) (bad : Bool) : let t := s.exited bad
    t.dev = .up ∧ t.rim = s.rim ∧ t.island.causes = [] ∧ t.island.faults = s.island.faults ∧ t.fixed.2 = s.fixed.2 := ⟨rfl, rfl, rfl, rfl, rfl⟩

theorem State.exitFaults_released (s : State) (bad : Bool) : FaultCause.stop ∉ (s.exitFaults bad).island.faults ∧
    FaultCause.freeze ∉ (s.exitFaults bad).island.faults := by
  cases bad
  · exact ⟨by simp [State.exitFaults, State.faultOff_faults], by simp [State.exitFaults, State.faultOff_faults]⟩
  · exact ⟨by simp [State.exitFaults, State.faultOff_faults], by simp [State.exitFaults, State.faultOff_faults]⟩

theorem bit_lt (b : Bool) : bit b < 2 := by cases b <;> decide

theorem State.exitStatus_spec (s : State) (bad disagree : Bool) : let t := s.exitStatus bad disagree
    t.fld fRstStatusMrm = bit (s.exitMrm bad) ∧ t.fld fAoiStartMrm = bit (s.exitMrm bad) ∧ t.fld fAoiStartTimerRunning = bit !s.exitMrm bad := by
  have one (b : Bool) : bit b % 2 ^ 1 = bit b := Nat.mod_eq_of_lt (bit_lt b)
  refine ⟨?_, ?_, (State.fld_setFld_same _ fAoiStartTimerRunning _ (by decide)).trans (one _)⟩
  · rw [State.exitStatus, State.fld_setFld_apart _ _ (by decide)]
    exact (State.fld_setFld_same _ fRstStatusMrm _ (by decide)).trans (one _)
  · rw [State.exitStatus, State.fld_setFld_apart _ _ (by decide), State.fld_setFld_apart _ _ (by decide)]
    exact (State.fld_setFld_same _ fAoiStartMrm _ (by decide)).trans (one _)

/-- The state in which the boot ROM has blown a lifecycle change, before it resets the device. -/
def State.blown (s : State) (v : Nat) : State :=
  let s := (List.range 4).foldl (fun (t : State) j => t.setReg (fAoiLastGaspWord.off + 8 * j) 0) s
  { s with log := [], lifeCopies := (v, v, v), blowing := none, dev := .up, island := { s.island with causes := [] } }.setFld fAoiLogHeadHeld 0

theorem State.blown_fixed (s : State) (v : Nat) : (s.blown v).fixed = (.up, s.pending, s.life, (v, v, v), none) := by
  have wiped : ((List.range 4).foldl (fun (t : State) j => t.setReg (fAoiLastGaspWord.off + 8 * j) 0) s).fixed = s.fixed :=
    foldl_fixed (fun _ _ => State.setReg_fixed ..) _ s
  simp only [State.fixed, Prod.mk.injEq] at wiped
  obtain ⟨-, pending, life, -, -⟩ := wiped
  rw [State.blown, State.setFld_fixed, State.fixed_mk, pending, life]

/-- A lifecycle change that waits is blown, and the device resets again. -/
theorem State.blow_spec (s : State) (v : Nat) : let t := s.blow v
    t.dev = .inReset ∧ t.lifeCopies = (v, v, v) ∧ t.blowing = none ∧ t.log = [] ∧ t.life = s.life := by
  have fixed := s.blown_fixed v
  have kept := (s.blown v).deviceReset_kept 2
  simp only [State.fixed, Prod.mk.injEq] at fixed
  obtain ⟨dev, -, life, copies, idle⟩ := fixed
  rw [State.cutShort_of_none idle] at kept
  simp only [State.fixed, Prod.mk.injEq] at kept
  obtain ⟨-, life', copies', idle'⟩ := kept
  obtain ⟨reset, -, -⟩ := State.deviceReset_spec (.inl dev) (cause := 2) (by decide)
  obtain ⟨-, -, -, -, log, -⟩ := State.deviceReset_clears (.inl dev) 2
  exact ⟨reset, copies'.trans copies, idle'.trans idle, log, life'.trans life⟩

/-! ## Bring-up and the start (R395, R399) -/

theorem State.phaseReady_le {s : State} {p : Nat} (ready : s.phaseReady p = true) : p ≤ 7 := by
  by_contra late
  rw [State.phaseReady] at ready
  · cases ready
  all_goals omega

theorem State.freezeAt_fld (s : State) (t source : Nat) {f : Fld} (status : f.off ≠ fDbgFreezeStatusArmed.off) (time : f.off ≠ fDbgFreezeTimeTime.off) :
    (s.freezeAt t source).fld f = s.fld f := by
  change (((s.flood.setFld fDbgFreezeStatusArmed 1).setFld fDbgFreezeStatusSource source).setReg fDbgFreezeTimeTime.off (BitVec.ofNat 64 t)).fld f = _
  rw [State.fld, State.reg_setReg_ne _ _ time, ← State.fld, State.fld_setFld_other _ fDbgFreezeStatusSource _ _ status,
    State.fld_setFld_other _ fDbgFreezeStatusArmed _ _ status, State.fld_of_rim s.flood_rim]

/-- The state in which a phase's work is done and the next phase has begun. -/
def State.phaseDone (s : State) (found : Bringup) : State :=
  (s.logFailed (s.endPhase (s.fld fRstStatusPhase) found)).setFld fRstStatusPhase (s.fld fRstStatusPhase + 1)

/-- The state in which a low of FREEZE_N takes effect. -/
def State.lowTaken (s : State) : State :=
  { s.freezeAt (s.tickIn 2000) 0 with island := { (s.freezeAt (s.tickIn 2000) 0).island with freezeLow := false } }

theorem State.lowTaken_rim (s : State) : s.lowTaken.rim = (s.freezeAt (s.tickIn 2000) 0).rim := rfl

theorem exec_bringupPhaseComplete {s : State} {found : Bringup} (up : s.dev = .up) (live : s.island.startEnded = false)
    (ready : s.phaseReady (s.fld fRstStatusPhase) = true) : exec (.bringupPhaseComplete found) s =
      if s.fld fRstStatusPhase = 1 && (s.phaseDone found).island.freezeLow then .next (s.phaseDone found).lowTaken else .next (s.phaseDone found) := by
  change execBringupPhaseComplete found s = _
  unfold execBringupPhaseComplete
  rw [if_neg (by simp [up, live, ready])]
  rfl

theorem State.phaseDone_spec {s : State} (ready : s.phaseReady (s.fld fRstStatusPhase) = true) (found : Bringup) :
    (s.phaseDone found).fld fRstStatusPhase = s.fld fRstStatusPhase + 1 ∧ (s.phaseDone found).fixed = s.fixed := by
  have small := State.phaseReady_le ready
  refine ⟨(State.fld_setFld_same _ fRstStatusPhase _ (by decide)).trans (Nat.mod_eq_of_lt (show s.fld fRstStatusPhase + 1 < 16 by omega)), ?_⟩
  rw [State.phaseDone, State.setFld_fixed, State.logFailed_fixed, State.endPhase_fixed]

theorem State.lowTaken_spec (s : State) : s.lowTaken.fld fRstStatusPhase = s.fld fRstStatusPhase ∧ s.lowTaken.fixed = s.fixed := by
  refine ⟨?_, ?_⟩
  · rw [State.fld_of_rim s.lowTaken_rim, State.freezeAt_fld _ _ _ (by decide) (by decide)]
  · rw [State.lowTaken, State.fixed_mk, State.fixed_eta, State.freezeAt_fixed]

theorem State.declareStart_of_late {s : State} (up : s.dev = .up) (late : 8 ≤ s.fld fRstStatusPhase) (live : s.island.startEnded = false) : s.declareStart =
    ((((s.setFld fRstStatusPhase 9).setFld fRstStatusStartOk 1).setFld fAoiStartTimerRunning 0).setFld fAoiStartFailedStarts 0).faultOff .failedStart :=
  if_pos (by simp [up, late, live])

theorem State.declareStart_of_early {s : State} (early : s.fld fRstStatusPhase < 8 ∨ s.island.startEnded = true) : s.declareStart = s :=
  if_neg (by
    obtain before | ended := early
    · simp [before]
    · simp [ended])

/-- The state in which a start has failed, before its event. -/
def State.startFailed (s : State) : State :=
  let s := ((s.setFld fAoiStartTimerRunning 0).setFld fAoiStartFailedStarts (min 3 (s.fld fAoiStartFailedStarts + 1))).faultOn .failedStart
  { s with island := { s.island with startEnded := true } }

theorem exec_startTimerExpiry {s : State} (live : s.dev = .up ∨ s.dev = .frozen) (runs : s.fld fAoiStartTimerRunning = 1) :
    exec .startTimerExpiry s = .next ((s.startFailed.logEvent 0x03 2 0xFF none (BitVec.ofNat 64 (min 3 (s.fld fAoiStartFailedStarts + 1)))).note
      (.island .failedStart)) := if_pos (by simpa [runs] using live)

theorem State.startFailed_rim (s : State) : s.startFailed.rim =
    ((s.setFld fAoiStartTimerRunning 0).setFld fAoiStartFailedStarts (min 3 (s.fld fAoiStartFailedStarts + 1))).rim := rfl

theorem State.startFailed_fault (s : State) : FaultCause.failedStart ∈ s.startFailed.island.faults := List.mem_append_right _ (.head _)

/-- Settles O58: reset exit and bring-up set their status last, and the start's fields lie below those of the log. -/
theorem startSequence : Obligations.StartSequence := by
  unfold Obligations.StartSequence
  intro s
  refine ⟨fun seen bad stays => ?_, fun seen bad v reset rails high good waits => ?_, fun seen bad reset rails high good idle => ?_,
    fun up => ⟨fun found live ready => ?_, fun limited => ?_, fun late live => ?_, fun early => ?_⟩, fun live runs => ?_⟩
  · change execResetExit seen bad s = _
    unfold execResetExit
    refine if_pos ?_
    obtain low | out := stays
    · simp [low]
    · simp [out]
  · exact ⟨_, exec_resetExit_blows reset rails high good bad waits, s.blow_spec v⟩
  · have logged {f : Fld} (below : f.off < fAoiLogStatusLogLost.off) : (s.voteLife.exitLogged seen.disagree).fld f = s.fld f :=
      (State.exitLogged_fld _ _ below).trans (State.fld_of_rim rfl f)
    have row := exec_resetExit_starts reset rails high good bad idle
    generalize status : (s.voteLife.exitLogged seen.disagree).exitStatus bad (!seen.disagree.isEmpty) = u at row
    obtain ⟨inMrm, startMrm, timer⟩ := (s.voteLife.exitLogged seen.disagree).exitStatus_spec bad (!seen.disagree.isEmpty)
    have mrm : (s.voteLife.exitLogged seen.disagree).exitMrm bad =
        decide (bad = true ∨ s.fld fAoiStartFailedStarts = 3 ∨ s.fld fAoiRecoverForceMrm = 1) := by
      rw [State.exitMrm, logged (by decide), logged (by decide)]
      simp [Bool.or_assoc]
    rw [status, mrm] at inMrm startMrm timer
    obtain ⟨dev, rim, causes, faults, kept⟩ := (u.exitFaults bad).exited_spec bad
    have fld (f : Fld) : ((u.exitFaults bad).exited bad).fld f = u.fld f := State.fld_of_rim (rim.trans (u.exitFaults_rim bad)) f
    rw [State.exitFaults_fixed, ← status, State.exitStatus_fixed, State.exitLogged_fixed] at kept
    simp only [State.fixed, Prod.mk.injEq, status] at kept
    obtain ⟨-, life, copies, -⟩ := kept
    obtain ⟨stop, freeze⟩ := u.exitFaults_released bad
    refine ⟨_, row, life, copies.trans (by rw [life]; rfl), dev, ?_, ?_, ?_, causes, faults ▸ stop, faults ▸ freeze⟩
    · rw [fld, inMrm, bit]
      simp only [decide_eq_true_eq]
    · rw [fld, startMrm, bit]
      simp only [decide_eq_true_eq]
    · rw [fld, timer, bit]
      simp only [Bool.not_eq_true', decide_eq_false_iff_not, ite_not]
  · obtain ⟨phase, kept⟩ := State.phaseDone_spec ready found
    have rest {t : State} (fixed : t.fixed = s.fixed) : t.dev = .up ∧ t.life = s.life := by
      simp only [State.fixed, Prod.mk.injEq] at fixed
      exact ⟨fixed.1.trans up, fixed.2.2.1⟩
    have row := exec_bringupPhaseComplete (found := found) up live ready
    split at row
    · obtain ⟨phase', kept'⟩ := (s.phaseDone found).lowTaken_spec
      exact ⟨_, row, phase'.trans phase, rest (kept'.trans kept)⟩
    · exact ⟨_, row, phase, rest kept⟩
  · exact if_pos (by simpa [up] using limited)
  · refine ⟨_, congrArg Host.Outcome.next (State.declareStart_of_late up late live), ?_, ?_, ?_, ?_, ?_⟩
    · rw [State.faultOff_fld, State.fld_setFld_apart _ _ (by decide), State.fld_setFld_apart _ _ (by decide)]
      exact State.fld_setFld_same _ fRstStatusStartOk 1 (by decide)
    · rw [State.faultOff_fld, State.fld_setFld_apart _ _ (by decide), State.fld_setFld_apart _ _ (by decide),
        State.fld_setFld_apart _ _ (by decide)]
      exact State.fld_setFld_same _ fRstStatusPhase 9 (by decide)
    · rw [State.faultOff_fld, State.fld_setFld_apart _ _ (by decide)]
      exact State.fld_setFld_same _ fAoiStartTimerRunning 0 (by decide)
    · rw [State.faultOff_fld]
      exact State.fld_setFld_same _ fAoiStartFailedStarts 0 (by decide)
    · simp [State.faultOff_faults]
  · exact congrArg Host.Outcome.next (State.declareStart_of_early early)
  · have logged {f : Fld} (below : f.off < fAoiLogStatusLogLost.off) :
        ((s.startFailed.logEvent 0x03 2 0xFF none (BitVec.ofNat 64 (min 3 (s.fld fAoiStartFailedStarts + 1)))).note (.island .failedStart)).fld f =
          s.startFailed.fld f := (State.note_fld ..).trans (State.logEvent_below _ _ _ _ _ _ below)
    refine ⟨_, exec_startTimerExpiry live runs, ?_, ?_, ?_, ?_⟩
    · rw [logged (by decide), State.fld_of_rim s.startFailed_rim, State.fld_setFld_apart _ _ (by decide)]
      exact State.fld_setFld_same _ fAoiStartTimerRunning 0 (by decide)
    · rw [logged (by decide), State.fld_of_rim s.startFailed_rim, State.fld_setFld_same _ _ _ (by decide)]
      exact Nat.mod_eq_of_lt (show _ < 4 by omega)
    · rw [State.note_island]
      obtain same | lost := s.startFailed.logEvent_island 0x03 2 0xFF none (BitVec.ofNat 64 (min 3 (s.fld fAoiStartFailedStarts + 1)))
      · rw [same]
        rfl
      · rw [lost]
        rfl
    · rw [State.note_island]
      exact s.startFailed.logEvent_fault 0x03 2 0xFF none (BitVec.ofNat 64 (min 3 (s.fld fAoiStartFailedStarts + 1))) s.startFailed_fault

end Sys2Proof.Machine

/-! SUPPORT. Power: a cluster's registers and rails, what the governor asks of the rails and the clock, and from these droops, hints, temperature, the governor's
period and the limits. -/

namespace Sys2Proof.Machine

/-! ## A cluster's power registers -/

theorem State.pw_of_rim {s t : State} (h : t.rim = s.rim) (n : Nat) (f : Fld) : t.pw n f = s.pw n f := State.fld_of_rim h _

theorem State.pw_setPw_same (s : State) (n v : Nat) {f : Fld} (fits : f.lo + f.width ≤ 64) : (s.setPw n f v).pw n f = v % 2 ^ f.width :=
  State.fld_setFld_same s (fldAt f (0x100 * n)) v fits

theorem State.pw_setPw_apart (s : State) (n v : Nat) {f g : Fld} (apart : f.Apart g) : (s.setPw n f v).pw n g = s.pw n g :=
  State.fld_setFld_apart s v (apart.imp_left fun other => by simpa only [fldAt, ne_eq, Nat.add_right_cancel_iff] using other)

/-! ## Droops (R375) -/

/-- A counter of a cluster's power registers advanced where what it counts has happened. -/
def State.counted (s : State) (n : Nat) (f : Fld) (c : Prop) [Decidable c] : State := if c then s.setPw n f (s.pw n f + 1) else s

theorem State.counted_same (s : State) (n : Nat) {f : Fld} (whole : f.lo = 0 ∧ f.width = 64) (c : Prop) [Decidable c] :
    (s.counted n f c).pw n f = (s.pw n f + if c then 1 else 0) % 2 ^ 64 := by
  unfold State.counted
  split
  · rw [State.pw_setPw_same _ _ _ (by omega), whole.2]
  · rw [Nat.add_zero, Nat.mod_eq_of_lt]
    exact (fieldOf_lt ..).trans_eq (congrArg (2 ^ ·) whole.2)

theorem State.counted_apart (s : State) (n : Nat) {f g : Fld} (apart : f.Apart g) (c : Prop) [Decidable c] : (s.counted n f c).pw n g = s.pw n g := by
  unfold State.counted
  split
  · exact s.pw_setPw_apart n _ apart
  · rfl

theorem State.setFld_rim_congr {s t : State} (h : t.rim = s.rim) (f : Fld) (v : Nat) : (t.setFld f v).rim = (s.setFld f v).rim := by
  simp only [State.setFld, State.setReg, State.reg_of_rim h, h]

theorem State.counted_rim {s t : State} (h : t.rim = s.rim) (n : Nat) (f : Fld) (c : Prop) [Decidable c] : (t.counted n f c).rim = (s.counted n f c).rim := by
  unfold State.counted
  rw [State.pw_of_rim h]
  split
  · exact State.setFld_rim_congr h _ _
  · exact h

/-- The registers after a droop: boosts, shunts, skips and the errors that skipping would have needed are counted, and no register else changes. -/
theorem exec_droopDetect {c : ClusterId} {s : State} (runs : s.alive c.val = true) (below : Int) (negative : Bool) (clocks : Nat) (paced : Bool) :
    let may := maySkip (((s.clPower c.val).skips.map (· + clocks)).filter (fun a => decide (a < 64)))
    ∃ t, exec (.droopDetect c below negative clocks paced) s = .next t ∧
      t.rim = ((((s.counted c.val fPwrClBoostCount (25 ≤ below)).counted c.val fPwrClShuntCount (below ≤ -30)).counted c.val fPwrClSkipCount
        ((45 ≤ below ∨ negative = true) ∧ may = true)).counted c.val fPwrClDroopErrCount (negative = true ∧ may = false)).rim := by
  intro may
  change ∃ t, execDroopDetect c below negative clocks paced s = .next t ∧ _
  unfold execDroopDetect
  rw [if_neg (by simp [runs])]
  extract_lets s₁ s₂ s₃ s₄ i
  have skips₁ : (s₁.clPower c.val).skips = ((s.clPower c.val).skips.map (· + clocks)).filter (fun a => decide (a < 64)) := by
    rw [State.clPower_mapPower]
  have rim₂ : s₂.rim = (s₁.counted c.val fPwrClBoostCount (25 ≤ below)).rim ∧ (s₂.clPower c.val).skips = (s₁.clPower c.val).skips := by
    unfold s₂ State.counted
    split
    · rw [State.clPower_mapPower]
      exact ⟨rfl, rfl⟩
    · exact ⟨rfl, rfl⟩
  have rim₃ : s₃.rim = (s₂.counted c.val fPwrClShuntCount (below ≤ -30)).rim ∧ (s₃.clPower c.val).skips = (s₂.clPower c.val).skips := by
    unfold s₃ State.counted
    split
    · exact ⟨rfl, rfl⟩
    · exact ⟨rfl, rfl⟩
  have rim : s₃.rim = ((s.counted c.val fPwrClBoostCount (25 ≤ below)).counted c.val fPwrClShuntCount (below ≤ -30)).rim :=
    rim₃.1.trans (State.counted_rim (rim₂.1.trans (State.counted_rim (s := s) (t := s₁) rfl _ _ _)) _ _ _)
  have skips : maySkip (s₃.clPower c.val).skips = may := by rw [rim₃.2, rim₂.2, skips₁]
  rw [skips]
  split
  next skipped =>
    obtain ⟨deep, able⟩ : (45 ≤ below ∨ negative = true) ∧ may = true := by simpa using skipped
    have counted : (s₃.counted c.val fPwrClSkipCount ((45 ≤ below ∨ negative = true) ∧ may = true)).counted c.val fPwrClDroopErrCount (negative = true ∧ may = false) =
        s₃.setPw c.val fPwrClSkipCount (s₃.pw c.val fPwrClSkipCount + 1) := by
      rw [State.counted, if_neg (by simp [able]), State.counted, if_pos ⟨deep, able⟩]
    refine ⟨_, rfl, Eq.trans ?_ (State.counted_rim (State.counted_rim rim _ _ _) _ _ _)⟩
    rw [counted]
    rfl
  next kept =>
    have idle : ¬((45 ≤ below ∨ negative = true) ∧ may = true) := by simpa using kept
    have same : s₃.counted c.val fPwrClSkipCount ((45 ≤ below ∨ negative = true) ∧ may = true) = s₃ := if_neg idle
    refine ⟨_, (apply_ite ..).symm, Eq.trans ?_ (State.counted_rim (State.counted_rim rim _ _ _) _ _ _)⟩
    rw [same, State.counted]
    split
    next bad =>
      rw [if_pos ⟨bad, by simpa [bad] using idle⟩]
      rfl
    next fine => rw [if_neg (fun h => fine h.1)]

/-! ## Hints (R376) -/

theorem State.writeRail_of_sound {s : State} {n : Nat} (sound : (s.clPower n).faulted = false) (v : Nat) (ok : Bool) :
    s.writeRail n v ok = (s.setPw n fPwrClStatusVMv v).mapPower n (fun k => { k.answered ok with written := s.mono }) := if_neg (by simp [sound])

/-- A rail that is written gives its command, and what is kept of the cluster is what its record then says. -/
theorem State.writeRail_mapPower {s : State} {n : Nat} (sound : (s.clPower n).faulted = false) (v : Nat) (ok : Bool) (f : ClPower → ClPower) :
    let t := (s.writeRail n v ok).mapPower n f
    t.pw n fPwrClStatusVMv = v % 2 ^ 10 ∧ ∃ k, t.clPower n = f k := by
  intro t
  refine ⟨?_, _, State.clPower_mapPower ..⟩
  change (s.writeRail n v ok).pw n fPwrClStatusVMv = _
  rw [State.writeRail_of_sound sound]
  exact s.pw_setPw_same n v (by decide)

theorem railMv_lt (v : Nat) : railMv v < 2 ^ 10 := by
  unfold railMv
  omega

/-- The voltage that a hint raises a rail above: what is asked of it, or what it has. -/
def State.railBase (s : State) (n : Nat) : Nat := (s.clPower n).want.getD (s.pw n fPwrClStatusVMv)

/-- The state in which a hint has raised its cluster's rail. -/
def State.hintRaised (s : State) (n : Nat) (answered : Bool) : State :=
  let up := railMv (s.railBase n + s.pw n fPwrClCtrlHintMv)
  let t := (s.writeRail n up answered).mapPower n (fun k => { k with hint := some (s.railBase n), want := if answered then none else some up })
  { t with power := { t.power with raise := t.power.raise.map (fun r => (r.1, t.mono)) } }

theorem exec_hintRailRaise {c : ClusterId} {s : State} {activity : Fin 17} (runs : s.alive c.val = true) (mode : s.fld fPwrStatusMode ≠ 0)
    (good : s.clFailed c.val = false) (sound : (s.clPower c.val).faulted = false) (free : (s.clPower c.val).hint = none)
    (rises : s.risesIn c.val activity.val 3000 3000 4000 = true) (answered : Bool) :
    exec (.hintRailRaise c activity answered) s = .next (s.hintRaised c.val answered) := if_pos (by simp [runs, mode, good, sound, free, rises])

theorem State.hintRaised_spec {s : State} {n : Nat} (sound : (s.clPower n).faulted = false) (answered : Bool) :
    ((s.hintRaised n answered).clPower n).hint = some (s.railBase n) ∧
      (s.hintRaised n answered).pw n fPwrClStatusVMv = max 600 (min 850 (s.railBase n + s.pw n fPwrClCtrlHintMv)) := by
  obtain ⟨volts, k, power⟩ := State.writeRail_mapPower sound (railMv (s.railBase n + s.pw n fPwrClCtrlHintMv)) answered
    (fun k => { k with hint := some (s.railBase n), want := if answered then none else some (railMv (s.railBase n + s.pw n fPwrClCtrlHintMv)) })
  refine ⟨congrArg ClPower.hint power, Eq.trans volts (Nat.mod_eq_of_lt (railMv_lt _))⟩

/-- The state in which a cluster's rail has returned from a hint. -/
def State.hintReturned (s : State) (n before : Nat) (answered : Bool) : State :=
  (s.writeRail n before answered).mapPower n (fun k => { k with hint := none, want := if answered then none else some before })

theorem exec_hintRailReturn {c : ClusterId} {s : State} {before : Nat} (runs : s.alive c.val = true) (held : (s.clPower c.val).hint = some before)
    (ended : s.hintsOver c.val = true) (answered : Bool) : exec (.hintRailReturn c answered) s = .next (s.hintReturned c.val before answered) := by
  change execHintRailReturn c answered s = _
  unfold execHintRailReturn
  simp only [held]
  exact if_pos (by simp [runs, ended])

/-! ## Temperatures (R384) -/

/-- The state in which a cluster's hottest sensor has been read. -/
def State.heated (s : State) (n t : Nat) : State :=
  (clusterCores n).foldl (fun s i => s.mapCore i (fun c => { c with rsv := { c.rsv with hot := decide (85 ≤ t) } })) (s.setPw n fPwrClStatusTempC t)

/-- The state once a temperature has been read, with the hottest one renewed. -/
def State.tempRead (s : State) (cluster : Option ClusterId) (t : Nat) : State :=
  let u := match cluster with
    | none => { s with power := { s.power with rimTemp := some t } }
    | some n => s.heated n.val t
  u.setFld fPwrEstTempMaxC (max u.hottest (u.power.rimTemp.getD 0))

theorem exec_temperatureRead {s : State} (up : s.dev = .up) (cluster : Option ClusterId) (celsius : Fin 256) :
    exec (.temperatureRead cluster celsius) s =
      .next (if (s.tempRead cluster celsius.val).tripC ≤ celsius.val then (s.tempRead cluster celsius.val).stopDevice 2 else s.tempRead cluster celsius.val) := by
  change execTemperatureRead cluster celsius s = _
  unfold execTemperatureRead
  split
  next off => exact absurd up (by simp [off])
  next stopped => exact absurd up (by simp [stopped])
  next => cases cluster <;> rfl

theorem State.heated_rim (s : State) (n t : Nat) : (s.heated n t).rim = (s.setPw n fPwrClStatusTempC t).rim :=
  State.OnlyUnits.rim (.foldl (fun u i => u.mapCore_onlyUnits i _) _ _)

theorem State.tempRead_fixed (s : State) (cluster : Option ClusterId) (t : Nat) : (s.tempRead cluster t).fixed = s.fixed := by
  cases cluster <;> simp [State.tempRead, State.heated]

theorem State.tempRead_tripC (s : State) (cluster : Option ClusterId) (t : Nat) : (s.tempRead cluster t).tripC = s.tripC := by
  have same : (s.tempRead cluster t).fld fPwrThermTripC = s.fld fPwrThermTripC := by
    rw [State.tempRead.eq_def, State.fld_setFld_apart _ _ (by decide)]
    cases cluster with
    | none => rfl
    | some n =>
      refine (State.fld_of_rim (State.heated_rim ..) _).trans (State.fld_setFld_other _ _ _ _ ?_)
      change 0x2b0020 ≠ 0x2b1000 + 0x100 * n.val
      omega
  rw [State.tripC, same, State.tripC]

/-- What a droop counts while the cluster is alive. -/
theorem State.droop_counts (s : State) (c : ClusterId) (runs : s.alive c.val = true) :
    ∀ (below : Int) (negative paced : Bool) (clocks : Nat),
      let may := maySkip (((s.clPower c.val).skips.map (fun a => a + clocks)).filter (fun a => decide (a < 64)))
      ∃ t, exec (.droopDetect c below negative clocks paced) s = .next t ∧
      t.pw c.val fPwrClBoostCount = (s.pw c.val fPwrClBoostCount + if 25 ≤ below then 1 else 0) % 2 ^ 64 ∧
      t.pw c.val fPwrClShuntCount = (s.pw c.val fPwrClShuntCount + if below ≤ -30 then 1 else 0) % 2 ^ 64 ∧
      t.pw c.val fPwrClSkipCount = (s.pw c.val fPwrClSkipCount + if (45 ≤ below ∨ negative = true) ∧ may = true then 1 else 0) % 2 ^ 64 ∧
      t.pw c.val fPwrClDroopErrCount = (s.pw c.val fPwrClDroopErrCount + if negative = true ∧ may = false then 1 else 0) % 2 ^ 64 := by
  intro below negative paced clocks may
  obtain ⟨t, row, rim⟩ := exec_droopDetect runs below negative clocks paced
  refine ⟨t, row, ?_, ?_, ?_, ?_⟩
  · rw [State.pw_of_rim rim, State.counted_apart _ _ (by decide), State.counted_apart _ _ (by decide), State.counted_apart _ _ (by decide)]
    exact s.counted_same c.val ⟨rfl, rfl⟩ _
  · rw [State.pw_of_rim rim, State.counted_apart _ _ (by decide), State.counted_apart _ _ (by decide), State.counted_same _ _ ⟨rfl, rfl⟩,
      State.counted_apart _ _ (by decide)]
  · rw [State.pw_of_rim rim, State.counted_apart _ _ (by decide), State.counted_same _ _ ⟨rfl, rfl⟩, State.counted_apart _ _ (by decide),
      State.counted_apart _ _ (by decide)]
  · rw [State.pw_of_rim rim, State.counted_same _ _ ⟨rfl, rfl⟩, State.counted_apart _ _ (by decide), State.counted_apart _ _ (by decide),
      State.counted_apart _ _ (by decide)]

theorem State.pw_setFld_low (s : State) (n v : Nat) {f g : Fld} (high : 0x2b1000 ≤ g.off) (low : f.off < 0x2b1000) : (s.setFld f v).pw n g = s.pw n g :=
  State.fld_setFld_other s _ _ v (Nat.ne_of_gt (low.trans_le (high.trans (Nat.le_add_right ..))))

theorem State.tempRead_stored (s : State) (c : ClusterId) (celsius : Fin 256) :
    (s.tempRead (some c) celsius.val).pw c.val fPwrClStatusTempC = celsius.val := by
  rw [State.tempRead.eq_def, State.pw_setFld_low _ _ _ (by decide) (by decide), State.pw_of_rim (State.heated_rim ..)]
  exact (s.pw_setPw_same c.val celsius.val (by decide)).trans (Nat.mod_eq_of_lt celsius.isLt)

/-- The core with the refresh of its reservoir at a temperature. -/
def Core.refreshed (t : Nat) (c : Core) : Core := { c with rsv := { c.rsv with hot := decide (85 ≤ t) } }

theorem State.heated_core (s : State) (n t : Nat) {i : Nat} (mem : i ∈ clusterCores n) : (s.heated n t).core i = (s.core i).refreshed t := by
  have read := State.core_foldl_mapCore (f := Core.refreshed t) (fun _ => rfl) (clusterCores n) (s.setPw n fPwrClStatusTempC t) i
  rw [if_pos mem] at read
  exact read

theorem State.tempRead_core (s : State) (c : ClusterId) (t i : Nat) : (s.tempRead (some c) t).core i = (s.heated c.val t).core i := by
  rw [State.tempRead.eq_def]
  exact congrArg (fun l : Tbl Core => l.look i Core.reset) (State.setFld_frame ..).2.2.2.1

/-- Settles O42: each event touches its own counters or the record of its cluster's rail. -/
theorem droopHintsTemperature : Obligations.DroopHintsTemperature := by
  unfold Obligations.DroopHintsTemperature
  refine ⟨?_, fun celsius s up cool => ?_, fun c celsius s up hot => ?_⟩
  · intro c s n v runs
    refine ⟨s.droop_counts c runs, fun activity answered mode good sound free rises => ?_, fun activity rises => ?_,
      fun before answered held ended sound => ?_, fun celsius cool => ?_⟩
    · exact ⟨_, exec_hintRailRaise runs mode good sound free rises answered, State.hintRaised_spec sound answered⟩
    · have row : exec (.boostPrecharge c activity) s = .next (s.mapPower c.val (fun k => { k with charged := true })) :=
        if_pos (Bool.and_eq_true_iff.2 ⟨runs, rises⟩)
      exact ⟨_, row, congrArg ClPower.charged (State.clPower_mapPower ..), rfl⟩
    · obtain ⟨volts, k, power⟩ := State.writeRail_mapPower sound before answered (fun k => { k with hint := none, want := if answered then none else some before })
      exact ⟨_, exec_hintRailReturn runs held ended answered, congrArg ClPower.hint power, volts⟩
    · have up : s.dev = .up := by
        rw [State.alive, Bool.and_eq_true] at runs
        exact of_decide_eq_true runs.1
      have row := exec_temperatureRead up (some c) celsius
      rw [State.tempRead_tripC, if_neg (not_le.2 cool)] at row
      refine ⟨_, row, (State.dev_of_fixed (s.tempRead_fixed (some c) celsius.val)).trans up, ?_, fun i mem => ?_⟩
      · exact s.tempRead_stored c celsius
      · rw [s.tempRead_core c, s.heated_core _ _ mem]
        rfl
  · have row := exec_temperatureRead up none celsius
    rw [State.tempRead_tripC, if_neg (not_le.2 cool)] at row
    exact ⟨_, row, (State.dev_of_fixed (s.tempRead_fixed none celsius.val)).trans up, rfl, rfl⟩
  · have row := exec_temperatureRead up c celsius
    rw [State.tempRead_tripC, if_pos hot] at row
    have dev : (s.tempRead c celsius.val).dev = .up := (State.dev_of_fixed (s.tempRead_fixed c celsius.val)).trans up
    obtain ⟨stopped, rails, trip, cause, -, -⟩ := State.stopDevice_spec (s := s.tempRead c celsius.val) (by simp [dev]) (by simp [dev]) (code := 2) (by decide)
    exact ⟨_, row, stopped, trip rfl, rails, cause⟩

/-! ## What the governor's requests leave alone -/

/-- `t` differs from `s` in what the rails are asked for, a raise on its way, an armed frequency change and its target alone. -/
structure State.OnlyRails (s t : State) : Prop where
  rest : t = { s with
    rim := t.rim, clocks := { s.clocks with freqAt := t.clocks.freqAt }, power := { s.power with cl := t.power.cl, raise := t.power.raise } }
  reg : ∀ a, a ≠ fClkFreqTargetMhz.off → t.reg a = s.reg a
  readMv : ∀ n, (t.clPower n).readMv = (s.clPower n).readMv

theorem State.OnlyRails.refl (s : State) : s.OnlyRails s := ⟨rfl, fun _ _ => rfl, fun _ => rfl⟩

theorem State.OnlyRails.trans {s t u : State} (h : s.OnlyRails t) (k : t.OnlyRails u) : s.OnlyRails u where
  rest := by
    have first := h.rest
    exact Eq.trans k.rest (by rw [first])
  reg a other := (k.reg a other).trans (h.reg a other)
  readMv n := (k.readMv n).trans (h.readMv n)

theorem State.OnlyRails.foldl {α : Type} {g : State → α → State} (h : ∀ t a, State.OnlyRails t (g t a)) (l : List α) (s : State) :
    s.OnlyRails (l.foldl g s) :=
  List.foldlRecOn _ _ (motive := s.OnlyRails) (.refl s) fun t ht a _ => ht.trans (h t a)

theorem State.OnlyRails.ite {s t u : State} {c : Prop} [Decidable c] (h : s.OnlyRails t) (k : s.OnlyRails u) : s.OnlyRails (if c then t else u) := by
  split
  · exact h
  · exact k

section
variable {s t : State} (h : s.OnlyRails t)
include h

theorem State.OnlyRails.fld {f : Fld} (other : f.off ≠ fClkFreqTargetMhz.off) : t.fld f = s.fld f := congrArg (fieldOf · f.lo f.width) (h.reg _ other)

theorem State.OnlyRails.pw (n : Nat) {f : Fld} (power : 0x2b1000 ≤ f.off) : t.pw n f = s.pw n f :=
  h.fld (Nat.ne_of_gt (lt_of_lt_of_le (by decide) (power.trans (Nat.le_add_right ..))))

theorem State.OnlyRails.mono : t.mono = s.mono := by rw [h.rest]

theorem State.OnlyRails.dev : t.dev = s.dev := by rw [h.rest]

theorem State.OnlyRails.cores : t.cores = s.cores := by rw [h.rest]

theorem State.OnlyRails.slew : t.clocks.slew = s.clocks.slew := by rw [h.rest]

theorem State.OnlyRails.governed : t.power.governed = s.power.governed := by rw [h.rest]

theorem State.OnlyRails.rail (j : Nat) : t.power.rail j = s.power.rail j := by rw [h.rest, Power.rail, Power.rail]

theorem State.OnlyRails.time : t.time = s.time := by rw [State.time, h.fld (by decide), h.fld (by decide), State.time]

theorem State.OnlyRails.freqNow : t.freqNow = s.freqNow := by rw [State.freqNow, h.fld (by decide), h.slew, h.mono, State.freqNow]

theorem State.OnlyRails.clFailed (n : Nat) : t.clFailed n = s.clFailed n := by
  have same : t.fld (fldAt fClkClStatusFailed (0x100 * n)) = s.fld (fldAt fClkClStatusFailed (0x100 * n)) :=
    h.fld (Nat.ne_of_gt (lt_of_lt_of_le (by decide) (Nat.le_add_right fClkClStatusFailed.off _)))
  rw [State.clFailed, same, State.clFailed]

theorem State.OnlyRails.steps : t.steps = s.steps := by
  have fits : t.fits = s.fits := funext fun mhz => by
    have learned (n : Nat) : t.learned n mhz = s.learned n mhz := h.pw n (Nat.le_add_right 0x2b1010 _ |>.trans' (by decide))
    simp only [State.fits, h.clFailed, learned, h.fld (f := fPwrGovRaiseMv) (by decide)]
  rw [State.steps, fits, State.steps]

theorem State.OnlyRails.readWatts : t.readWatts = s.readWatts := by
  have amps (n : Nat) : t.pw n fPwrClStatusIA = s.pw n fPwrClStatusIA := h.pw n (by decide)
  simp only [State.readWatts, h.rail, h.readMv, amps]

theorem State.OnlyRails.announced (n : Nat) : t.announced n = s.announced n := by
  have hints : t.hints n = s.hints n := by simp only [State.hints, State.core, h.cores]
  rw [State.announced, h.fld (by decide), hints, h.freqNow, h.mono, State.announced]

theorem State.OnlyRails.forecast (mhz : Nat) : t.forecast mhz = s.forecast mhz := by
  simp only [State.forecast, h.readWatts, h.announced, h.freqNow, h.fld (f := fPwrEstEstW) (by decide)]

theorem State.OnlyRails.freqGoal (same : t.clocks.freqAt = s.clocks.freqAt) : t.freqGoal = s.freqGoal := by
  rw [State.freqGoal, same, h.slew, h.freqNow, State.freqGoal]

/-- What the governor chooses depends on no request of the rails, once the same changes of frequency are on their way. -/
theorem State.OnlyRails.chooses (same : t.clocks.freqAt = s.clocks.freqAt) : t.chooses = s.chooses := by
  have sustain : t.sustainW = s.sustainW := by rw [State.sustainW, h.fld (by decide), State.sustainW]
  simp only [State.chooses, h.steps, h.fld (f := fPwrStatusThrottling) (by decide), h.freqNow, h.freqGoal same, h.forecast, sustain]

theorem State.OnlyRails.withClocks : s.OnlyRails { t with clocks := s.clocks } where
  rest := by
    have first := h.rest
    conv_lhs => rw [first]
  reg := h.reg
  readMv := h.readMv

end

theorem State.mapPower_onlyRails (s : State) (n : Nat) (f : ClPower → ClPower) (keeps : ∀ k, (f k).readMv = k.readMv) : s.OnlyRails (s.mapPower n f) where
  rest := rfl
  reg _ _ := rfl
  readMv m := by
    by_cases same : m = n
    · rw [same, State.clPower_mapPower, keeps]
    · rw [State.clPower, State.mapPower, Tbl.look_put_ne _ same, State.clPower]

theorem State.withRaise_onlyRails (s : State) (r : Option (Nat × Nat)) : s.OnlyRails { s with power := { s.power with raise := r } } := ⟨rfl, fun _ _ => rfl, fun _ => rfl⟩

theorem State.withFreqArm_onlyRails (s : State) (a : Option FreqArm) : s.OnlyRails { s with clocks := { s.clocks with freqAt := a } } :=
  ⟨rfl, fun _ _ => rfl, fun _ => rfl⟩

theorem State.setTarget_onlyRails (s : State) (mhz : Nat) : s.OnlyRails (s.setFld fClkFreqTargetMhz mhz) where
  rest := rfl
  reg _ other := s.setFld_reg_ne mhz other
  readMv _ := rfl

theorem State.armFreq_onlyRails (s : State) (mhz : Nat) : s.OnlyRails (s.armFreq mhz) := (s.setTarget_onlyRails mhz).trans (State.withFreqArm_onlyRails _ _)

theorem State.askRails_onlyRails (s : State) (v : Nat → Nat) : s.OnlyRails (s.askRails v) :=
  .foldl (fun t n => .ite (.refl t) (t.mapPower_onlyRails n _ (by intro; rfl))) _ s

theorem State.fixRails_onlyRails (s : State) : s.OnlyRails s.fixRails := .foldl (fun t n => .ite (.refl t) (t.mapPower_onlyRails n _ (by intro; rfl))) _ s

theorem State.startRaise_onlyRails (s : State) (mhz : Nat) : s.OnlyRails (s.startRaise mhz) := (s.askRails_onlyRails _).trans (State.withRaise_onlyRails _ _)

theorem State.dropRaise_onlyRails (s : State) : s.OnlyRails s.dropRaise :=
  .ite (.refl s) (.trans (.foldl (fun t n => t.mapPower_onlyRails n _ (by intro; rfl)) _ s) (State.withRaise_onlyRails _ _))

theorem State.govern_onlyRails (s : State) (f : Nat) : s.OnlyRails (s.govern f) :=
  .ite (s.dropRaise_onlyRails.trans (State.armFreq_onlyRails _ f)) <| .ite s.dropRaise_onlyRails <| .ite (.refl s) <|
    s.dropRaise_onlyRails.trans (State.startRaise_onlyRails _ f)

/-- The state in which fixed mode has been taken into force. -/
def State.fixMode (s : State) : State :=
  let s := { s.dropRaise with clocks := { s.dropRaise.clocks with freqAt := none } }
  let f := s.freqNow
  if 850 < f || s.clocks.slew.any (fun w => decide (850 < w.target)) then s.armFreq 850
  else
    let s := s.fixRails.setFld fClkFreqTargetMhz 850
    if f < 850 || s.clocks.slew.any (fun w => decide (w.target < 850)) then { s with power := { s.power with raise := some (850, s.mono) } } else s

theorem State.takeMode_eq (s : State) (mode : Nat) :
    s.takeMode mode = if mode != 0 then s.setFld fPwrStatusMode mode else (s.setFld fPwrStatusMode mode).fixMode := rfl

theorem State.fixMode_onlyRails (s : State) : s.OnlyRails s.fixMode :=
  (s.dropRaise_onlyRails.trans (State.withFreqArm_onlyRails _ none)).trans <| .ite (State.armFreq_onlyRails _ _) <|
    .trans ((State.fixRails_onlyRails _).trans (State.setTarget_onlyRails _ _)) (.ite (State.withRaise_onlyRails _ _) (.refl _))

theorem State.takeMode_onlyRails (s : State) (mode : Nat) : (s.setFld fPwrStatusMode mode).OnlyRails (s.takeMode mode) := by
  rw [State.takeMode_eq]
  exact .ite (.refl _) (State.fixMode_onlyRails _)

/-! ## The governor's period (R374, R377, R379, R380) -/

/-- The state whose regions have their caps' pacing and nothing spent in the new period. -/
def State.newPeriod (s : State) : State :=
  { s with power := { s.power with
      governed := s.mono, caps := (List.range 64).foldl (fun (t : Tbl Nat) r => t.put r (s.capAsks r) 0) [], rgnSpent := [] } }

/-- Whether the throttle acts in the mode that the next period takes. -/
def State.tooHot (s : State) : Bool := s.throttles && s.fld fPwrCtrlMode = 1

/-- The state whose ceiling and throttle a period has renewed, before the time of the throttle is counted. -/
def State.ceiled (s : State) : State := (s.newPeriod.setFld fPwrStatusFCeilingMhz s.newPeriod.ceiling).setFld fPwrStatusThrottling (bit s.tooHot)

/-- The state with the time of the throttle counted too. -/
def State.renewed (s : State) : State := if s.tooHot then s.ceiled.bump fPwrThrottleUsCount (max 10 (s.fld fPwrGovPeriodUs)) else s.ceiled

/-- The state with the mode that is staged in force. -/
def State.moded (s : State) : State := if s.fld fPwrStatusMode = s.fld fPwrCtrlMode then s else s.takeMode (s.fld fPwrCtrlMode)

/-- The state in which the governor has done what it chooses. -/
def State.governed (s : State) : State :=
  if s.fld fPwrStatusMode != 1 then s
  else
    match s.chooses with
    | none => s
    | some f => s.govern f

theorem State.newPeriod_fld (s : State) (f : Fld) : s.newPeriod.fld f = s.fld f := State.fld_of_rim (t := s.newPeriod) (s := s) rfl f

theorem State.ceiled_fld (s : State) {f : Fld} (ceiling : fPwrStatusFCeilingMhz.Apart f) (throttling : fPwrStatusThrottling.Apart f) :
    s.ceiled.fld f = s.fld f := by
  rw [State.ceiled, State.fld_setFld_apart _ _ throttling, State.fld_setFld_apart _ _ ceiling, State.newPeriod_fld]

theorem exec_governorPeriod {s : State} (up : s.dev = .up) (normal : s.fld fRstStatusMrm = 0)
    (due : s.power.governed + 1000 * max 10 (s.fld fPwrGovPeriodUs) ≤ s.mono) : exec .governorPeriod s = .next s.renewed.moded.governed := by
  change execGovernorPeriod s = _
  unfold execGovernorPeriod
  rw [if_neg (by simp [up, normal, due])]
  extract_lets period hot caps s₁ s₂ s₃ s₄
  have ceiled : s₂ = s.ceiled := by
    unfold s₂ State.ceiled State.tooHot
    rw [← s.newPeriod_fld fPwrCtrlMode]
    rfl
  have renewed : s₃ = s.renewed := by
    unfold s₃ State.renewed
    rw [ceiled, s.ceiled_fld (by decide) (by decide)]
    rfl
  have moded : s₄ = s.renewed.moded := by
    unfold s₄ State.moded
    rw [renewed]
  rw [moded, State.governed]
  split
  · rfl
  · split <;> simp only [*]

theorem State.ceiling_lt (s : State) : s.ceiling < 2 ^ 11 := by
  unfold State.ceiling
  rcases first : s.steps with _ | ⟨f, rest⟩
  · decide
  · have step : f ∈ s.steps := first ▸ List.mem_cons_self
    obtain ⟨j, -, rfl⟩ := List.mem_map.1 (List.mem_of_mem_filter step)
    exact lt_of_le_of_lt (Nat.sub_le ..) (by decide)

theorem State.renewed_fld (s : State) {f : Fld} (ceiling : fPwrStatusFCeilingMhz.Apart f) (throttling : fPwrStatusThrottling.Apart f)
    (count : fPwrThrottleUsCount.Apart f) : s.renewed.fld f = s.fld f := by
  rw [State.renewed]
  split
  · rw [State.bump, State.fld_setFld_apart _ _ count, s.ceiled_fld ceiling throttling]
  · exact s.ceiled_fld ceiling throttling

theorem State.renewed_rest (s : State) : s.renewed.mono = s.mono ∧ s.renewed.clocks = s.clocks ∧ s.renewed.power = s.newPeriod.power ∧ s.renewed.dev = s.dev := by
  rw [State.renewed]
  split
  · simp only [State.bump, State.ceiled, State.setFld_frame, true_and]
    exact ⟨rfl, rfl, rfl⟩
  · simp only [State.ceiled, State.setFld_frame, true_and]
    exact ⟨rfl, rfl, rfl⟩

theorem State.renewed_ceiling (s : State) : s.renewed.fld fPwrStatusFCeilingMhz = s.ceiling := by
  have ceiled : s.ceiled.fld fPwrStatusFCeilingMhz = s.ceiling := by
    have same : s.newPeriod.ceiling = s.ceiling := by rw [State.ceiling, State.ceiling]; rfl
    rw [State.ceiled, State.fld_setFld_apart _ _ (by decide), State.fld_setFld_same _ _ _ (by decide), same]
    exact Nat.mod_eq_of_lt s.ceiling_lt
  rw [State.renewed]
  split
  · rw [State.bump, State.fld_setFld_apart _ _ (by decide), ceiled]
  · exact ceiled

theorem State.renewed_throttling (s : State) : s.renewed.fld fPwrStatusThrottling = bit s.tooHot := by
  have ceiled : s.ceiled.fld fPwrStatusThrottling = bit s.tooHot := by
    rw [State.ceiled, State.fld_setFld_same _ _ _ (by decide)]
    exact Nat.mod_eq_of_lt (bit_lt _)
  rw [State.renewed]
  split
  · rw [State.bump, State.fld_setFld_apart _ _ (by decide), ceiled]
  · exact ceiled

theorem State.moded_mode (s : State) : s.moded.fld fPwrStatusMode = s.fld fPwrCtrlMode := by
  rw [State.moded]
  split
  · assumption
  · rw [(s.takeMode_onlyRails _).fld (by decide), State.fld_setFld_same _ _ _ (by decide)]
    exact Nat.mod_eq_of_lt (fieldOf_lt ..)

theorem State.moded_fld (s : State) {f : Fld} (mode : fPwrStatusMode.Apart f) (target : f.off ≠ fClkFreqTargetMhz.off) : s.moded.fld f = s.fld f := by
  rw [State.moded]
  split
  · rfl
  · rw [(s.takeMode_onlyRails _).fld target, State.fld_setFld_apart _ _ mode]

theorem State.moded_governed (s : State) : s.moded.power.governed = s.power.governed := by
  rw [State.moded]
  split
  · rfl
  · exact (s.takeMode_onlyRails _).governed

theorem State.governed_onlyRails (s : State) : s.OnlyRails s.governed := by
  rw [State.governed]
  split
  · exact .refl s
  · split
    · exact .refl s
    · exact s.govern_onlyRails _

theorem State.governed_of_chooses {s : State} (mode : s.fld fPwrStatusMode = 1) {f : Nat} (chosen : s.chooses = some f) : s.governed = s.govern f := by
  rw [State.governed, if_neg (by simp [mode]), chosen]

theorem State.govern_lower {s : State} {f : Nat} (lower : f < s.freqGoal) :
    (s.govern f).clocks.freqAt = some ⟨f, (s.time / 1000 + 1) * 1000, false, s.mono⟩ ∧ (s.govern f).power.raise = none := by
  have dropped := s.dropRaise_onlyRails
  rw [State.govern, if_pos lower, ← dropped.time, ← dropped.mono]
  exact ⟨rfl, s.dropRaise_raise⟩

theorem State.govern_same (s : State) : (s.govern s.freqGoal).clocks = s.clocks ∧ (s.govern s.freqGoal).power.raise = none := by
  rw [State.govern, if_neg (Nat.lt_irrefl _), if_pos rfl]
  exact ⟨s.dropRaise_onlyPower.clocks, s.dropRaise_raise⟩

theorem State.govern_higher {s : State} {f : Nat} (higher : s.freqGoal < f) : (s.govern f).clocks = s.clocks ∧
    ∃ last, (s.govern f).power.raise = some (f, last) ∧ (s.power.raise ≠ some (f, last) → last = s.mono) := by
  rw [State.govern, if_neg (Nat.lt_asymm higher), if_neg higher.ne']
  split
  next going =>
    obtain ⟨⟨g, last⟩, raise, same⟩ := (Option.any_eq_true ..).1 going
    obtain rfl : g = f := of_decide_eq_true same
    exact ⟨rfl, last, raise, fun other => absurd raise other⟩
  next =>
    refine ⟨(s.dropRaise.startRaise_onlyPower f).clocks.trans s.dropRaise_onlyPower.clocks, s.mono, ?_, fun _ => rfl⟩
    rw [State.startRaise_raise, s.dropRaise_onlyRails.mono]

/-! ## The end of a raise (R378, R380) -/

theorem exec_raiseSettleElapsed {s : State} {mhz last : Nat} (up : s.dev = .up) (raise : s.power.raise = some (mhz, last))
    (written : ∀ n < 144, s.clFailed n = true ∨ (s.clPower n).want = none) (settled : last + 1000 * s.fld fPwrGovSettleUs ≤ s.mono) :
    let t := { s with power := { s.power with raise := none } }
    exec .raiseSettleElapsed s = .next (if s.fld fPwrStatusMode = 2 then t else t.armFreq mhz) := by
  intro t
  change execRaiseSettleElapsed s = _
  rw [execRaiseSettleElapsed, raise]
  have all : (List.range 144).all (fun n => s.clFailed n || (s.clPower n).want.isNone) = true :=
    List.all_eq_true.2 fun n mem => by simpa using written n (List.mem_range.1 mem)
  exact if_pos (by simp [up, all, settled])

/-! ## The limits (R369, R381) -/

/-- Since when an estimate has lain above the sustained limit. -/
def State.excessSince (s : State) (est : Nat) : Option Nat := if s.sustainW < est then some (s.power.excess.getD s.mono) else none

/-- Whether the peak limiter acts on an estimate. -/
def State.peaks (s : State) (est : Nat) : Bool :=
  decide (s.peakW < est) || (s.excessSince est).any (fun t => decide (t + 1000000 * max 1 (min 10 (s.fld fPwrLimitPeakMs)) < s.mono))

theorem State.peaks_iff (s : State) (est : Nat) : s.peaks est = true ↔ s.peakW < est ∨ s.sustainW < est ∧
    ∃ a, s.power.excess = some a ∧ a + 1000000 * max 1 (min 10 (s.fld fPwrLimitPeakMs)) < s.mono := by
  rw [State.peaks, State.excessSince, Bool.or_eq_true, decide_eq_true_iff]
  refine or_congr_right ?_
  split
  next exceeds =>
    rcases s.power.excess with _ | a
    · simp
    · simp [exceeds]
  next fits => simp [fits]

/-- The state in which an estimate is recorded. -/
def State.estimated (s : State) (est : Nat) : State :=
  { s.setFld fPwrEstEstW (min est 65535) with power := { s.power with excess := s.excessSince est } }

/-- The state in which the peak limiter has done what the estimate asks, before its pacing is shown. -/
def State.peakLimited (s : State) (est eighths : Nat) : State :=
  let t := s.estimated est
  if s.peaks est then { t.bump fPwrPeakEventsCount 1 with power := { t.power with peak := max 1 eighths, peakMhz := t.freqNow, release := none } }
  else if t.power.peak != 0 && t.power.release.isNone && t.hasFallen then { t with power := { t.power with release := some t.mono } }
  else if t.peakPacing = 0 then { t with power := { t.power with peak := 0, release := none } }
  else t

/-- That state with the pacing shown. -/
def State.peakShown (s : State) (est eighths : Nat) : State :=
  (s.peakLimited est eighths).setFld fPwrStatusPeakActive (bit ((s.peakLimited est eighths).peakPacing != 0))

theorem exec_peakLimiter {s : State} (up : s.dev = .up) (rest : Nat) (eighths : Fin 8) :
    exec (.peakLimiter rest eighths) s = .next (s.peakShown (s.estimate rest) eighths.val) := if_neg (by simp [up])

theorem State.peakShown_power (s : State) (est eighths : Nat) : (s.peakShown est eighths).power = (s.peakLimited est eighths).power := rfl

theorem State.peakShown_active (s : State) (est eighths : Nat) :
    (s.peakShown est eighths).fld fPwrStatusPeakActive = if (s.peakLimited est eighths).peakPacing = 0 then 0 else 1 := by
  rw [State.peakShown, State.fld_setFld_same _ _ _ (by decide)]
  split
  next none => rw [none]; rfl
  next some => rw [bne_iff_ne.2 some]; rfl

theorem State.estimated_fld (s : State) (est : Nat) {f : Fld} (other : fPwrEstEstW.Apart f) : (s.estimated est).fld f = s.fld f :=
  (State.fld_of_rim (t := s.estimated est) (s := s.setFld fPwrEstEstW (min est 65535)) rfl f).trans (State.fld_setFld_apart _ _ other)

theorem State.estimated_estimate (s : State) (est : Nat) : (s.estimated est).fld fPwrEstEstW = min est 65535 :=
  (State.fld_of_rim (t := s.estimated est) (s := s.setFld fPwrEstEstW (min est 65535)) rfl _).trans <| (State.fld_setFld_same _ _ _ (by decide)).trans <|
    Nat.mod_eq_of_lt (lt_of_le_of_lt (Nat.min_le_right ..) (by decide))

theorem State.estimated_freqNow (s : State) (est : Nat) : (s.estimated est).freqNow = s.freqNow := by
  rw [State.freqNow, s.estimated_fld est (by decide), State.freqNow]
  rfl

theorem State.estimated_hasFallen (s : State) (est : Nat) : (s.estimated est).hasFallen = s.hasFallen := by
  rw [State.hasFallen, s.estimated_fld est (by decide), s.estimated_freqNow, State.hasFallen]
  rfl

theorem State.estimated_power (s : State) (est : Nat) : (s.estimated est).power = { s.power with excess := s.excessSince est } := rfl

theorem State.estimated_mono (s : State) (est : Nat) : (s.estimated est).mono = s.mono := rfl

/-- The state in which an estimate is recorded and counted where the peak limiter acts on it: its registers are those that the limiter leaves. -/
def State.peakCounted (s : State) (est : Nat) : State := if s.peaks est then (s.estimated est).bump fPwrPeakEventsCount 1 else s.estimated est

theorem State.peakLimited_rest (s : State) (est eighths : Nat) : (s.peakLimited est eighths).rim = (s.peakCounted est).rim ∧
    (s.peakLimited est eighths).mono = s.mono ∧ (s.peakLimited est eighths).power.excess = s.excessSince est := by
  rw [State.peakLimited, State.peakCounted]
  split
  · exact ⟨rfl, rfl, rfl⟩
  · split
    · exact ⟨rfl, rfl, rfl⟩
    · split
      · exact ⟨rfl, rfl, rfl⟩
      · exact ⟨rfl, rfl, rfl⟩

theorem State.peakLimited_fld (s : State) (est eighths : Nat) (f : Fld) : (s.peakLimited est eighths).fld f = (s.peakCounted est).fld f :=
  State.fld_of_rim (s.peakLimited_rest est eighths).1 f

theorem State.peakCounted_fld (s : State) (est : Nat) {f : Fld} (count : fPwrPeakEventsCount.Apart f) : (s.peakCounted est).fld f = (s.estimated est).fld f := by
  rw [State.peakCounted]
  split
  · exact State.fld_setFld_apart _ _ count
  · rfl

theorem State.peakCounted_count (s : State) (est : Nat) : (s.peakCounted est).fld fPwrPeakEventsCount =
    if s.peaks est then (s.fld fPwrPeakEventsCount + 1) % 2 ^ fPwrPeakEventsCount.width else s.fld fPwrPeakEventsCount := by
  rw [State.peakCounted]
  split
  · rw [State.bump, State.fld_setFld_same _ _ _ (by decide), s.estimated_fld est (by decide)]
  · exact s.estimated_fld est (by decide)

theorem State.peakLimited_of_peaks {s : State} {est : Nat} (acts : s.peaks est = true) (eighths : Nat) :
    (s.peakLimited est eighths).power = { s.power with
      excess := s.excessSince est, peak := max 1 eighths, peakMhz := s.freqNow, release := none } := by
  rw [State.peakLimited, if_pos acts, s.estimated_freqNow, s.estimated_power]

theorem ceilDiv_zero (b : Nat) : ceilDiv 0 (b + 1) = 0 := Nat.div_eq_of_lt (by omega)

theorem State.peakPacing_of_release_none {s : State} (going : s.power.release = none) : s.peakPacing = s.power.peak := by
  rw [State.peakPacing, going]

theorem State.peakPacing_of_released {s : State} {a : Nat} (released : s.power.release = some a) (past : a + 100000 ≤ s.mono) : s.peakPacing = 0 := by
  have spent : 100000 - (s.mono - a) = 0 := by omega
  rw [State.peakPacing, released]
  simp only [spent, Nat.mul_zero]
  exact ceilDiv_zero 99999

/-- Below both limits and not yet released, the limiter keeps what it withholds until the frequency has fallen. -/
theorem State.peakLimited_release {s : State} {est : Nat} (quiet : ¬s.peaks est = true) (withheld : s.power.peak ≠ 0) (going : s.power.release = none)
    (eighths : Nat) : (s.peakLimited est eighths).power = { s.power with
      excess := s.excessSince est, release := if s.hasFallen then some s.mono else none } := by
  have pacing : (s.estimated est).peakPacing ≠ 0 := by rwa [State.peakPacing_of_release_none (by exact going)]
  rw [State.peakLimited, if_neg quiet, s.estimated_power, s.estimated_hasFallen, if_neg pacing]
  split
  next fell =>
    have fallen : s.hasFallen = true := by simpa [withheld, going] using fell
    rw [if_pos fallen, s.estimated_mono]
  next kept =>
    have risen : ¬s.hasFallen = true := by simpa [withheld, going] using kept
    rw [if_neg risen, ← going, s.estimated_power]

theorem State.peakLimited_released {s : State} {est a : Nat} (quiet : ¬s.peaks est = true) (released : s.power.release = some a) (past : a + 100000 ≤ s.mono)
    (eighths : Nat) : (s.peakLimited est eighths).power = { s.power with excess := s.excessSince est, peak := 0, release := none } := by
  have pacing : (s.estimated est).peakPacing = 0 := State.peakPacing_of_released (s := s.estimated est) released past
  rw [State.peakLimited, if_neg quiet, if_neg (by simp [s.estimated_power, released]), if_pos pacing, s.estimated_power]

/-- Settles O43: what the governor asks of the rails and the clock touches no register but the target of the frequency, so its choice is the same before and
after it. -/
theorem governor : Obligations.Governor := by
  unfold Obligations.Governor
  intro s up
  refine ⟨fun mode => ⟨fun refused => ?_, fun allowed => ?_⟩, fun normal due => ?_, fun mhz last raise written settled => ?_, fun rest eighths => ?_,
    fun c eighths runs => ?_⟩
  · have row : exec (.pwrModeWrite mode) s = .next (s.setFld fPwrStatusModeErr 1) := (if_pos up).trans (by rw [State.writePowerMode, if_pos (by simpa using refused)])
    exact ⟨_, row, State.fld_setFld_same _ _ _ (by decide), State.fld_setFld_apart _ _ (by decide)⟩
  · have row : exec (.pwrModeWrite mode) s = .next (s.setFld fPwrCtrlMode mode.val) := (if_pos up).trans (by rw [State.writePowerMode, if_neg (by simpa using allowed)])
    exact ⟨_, row, (State.fld_setFld_same _ _ _ (by decide)).trans (Nat.mod_eq_of_lt mode.isLt), State.fld_setFld_apart _ _ (by decide)⟩
  · obtain ⟨mono, clocks, power, -⟩ := s.renewed_rest
    have only := s.renewed.moded.governed_onlyRails
    refine ⟨_, exec_governorPeriod up normal due, ?_, ?_, ?_, ?_, fun mode staged f chosen => ?_⟩
    · rw [only.governed, State.moded_governed, power]
      rfl
    · rw [only.fld (by decide), State.moded_fld _ (by decide) (by decide), s.renewed_ceiling]
    · rw [only.fld (by decide), State.moded_mode, s.renewed_fld (by decide) (by decide) (by decide)]
    · rw [only.fld (by decide), State.moded_fld _ (by decide) (by decide), s.renewed_throttling, State.tooHot, bit]
      simp only [Bool.and_eq_true, decide_eq_true_iff]
    · have mode' : s.renewed.fld fPwrStatusMode = 1 := (s.renewed_fld (by decide) (by decide) (by decide)).trans mode
      have staged' : s.renewed.fld fPwrCtrlMode = 1 := (s.renewed_fld (by decide) (by decide) (by decide)).trans staged
      have moded : s.renewed.moded = s.renewed := if_pos (mode'.trans staged'.symm)
      rw [moded] at only chosen ⊢
      have chooses : s.renewed.chooses = some f := by rw [← only.withClocks.chooses rfl, clocks, chosen]
      have freqNow : s.renewed.freqNow = s.freqNow := by
        rw [State.freqNow, s.renewed_fld (by decide) (by decide) (by decide), clocks, mono, State.freqNow]
      have goal : s.renewed.freqGoal = s.freqGoal := by rw [State.freqGoal, clocks, freqNow, State.freqGoal]
      have time : s.renewed.time = s.time := by
        rw [State.time, s.renewed_fld (by decide) (by decide) (by decide), s.renewed_fld (by decide) (by decide) (by decide), State.time]
      have raise : s.renewed.power.raise = s.power.raise := by
        rw [power]
        rfl
      rw [State.governed_of_chooses mode' chooses, ← goal, ← clocks, ← raise, ← mono, ← time]
      refine ⟨State.govern_lower, fun same => ?_, State.govern_higher⟩
      rw [same]
      exact s.renewed.govern_same
  · refine ⟨_, exec_raiseSettleElapsed up raise written settled, ?_, fun mode => ?_, fun mode => ?_⟩
    · split
      · rfl
      · rfl
    · rw [if_neg mode]
      exact ⟨State.fld_setFld_same { s with power := { s.power with raise := none } } fClkFreqTargetMhz mhz (by decide), rfl⟩
    · rw [if_pos mode]
      exact ⟨rfl, rfl⟩
  · intro est
    have kept {f : Fld} (active : fPwrStatusPeakActive.Apart f) : (s.peakShown est eighths.val).fld f = (s.peakCounted est).fld f :=
      (State.fld_setFld_apart _ _ active).trans (s.peakLimited_fld est eighths.val f)
    refine ⟨_, exec_peakLimiter up rest eighths, ?_, fun exceeds => ?_, fun sustained peak => ?_⟩
    · rw [kept (by decide), s.peakCounted_fld est (by decide), s.estimated_estimate]
    · have acts : s.peaks est = true := (s.peaks_iff est).2 exceeds
      have power := State.peakLimited_of_peaks acts eighths.val
      have withheld : (s.peakLimited est eighths.val).peakPacing ≠ 0 := by
        rw [State.peakPacing_of_release_none (by rw [power]), power]
        exact Nat.ne_of_gt (Nat.le_max_left ..)
      rw [kept (f := fPwrPeakEventsCount) (by decide), s.peakCounted_count, if_pos acts, s.peakShown_active, if_neg withheld, s.peakShown_power, power]
      exact ⟨rfl, rfl, rfl, rfl, rfl⟩
    · have quiet : ¬s.peaks est = true := by
        rw [s.peaks_iff est]
        exact fun exceeds => exceeds.elim (Nat.not_lt.2 peak) fun above => Nat.not_lt.2 sustained above.1
      refine ⟨?_, ?_, fun withheld going => ?_, fun a released past => ?_⟩
      · rw [s.peakShown_power, (s.peakLimited_rest est eighths.val).2.2, State.excessSince, if_neg (Nat.not_lt.2 sustained)]
      · rw [kept (by decide), s.peakCounted_count, if_neg quiet]
      · rw [s.peakShown_power, State.peakLimited_release quiet withheld going]
        exact ⟨rfl, rfl⟩
      · have power := State.peakLimited_released quiet released past eighths.val
        have ended : (s.peakLimited est eighths.val).peakPacing = 0 := by rw [State.peakPacing_of_release_none (by rw [power]), power]
        rw [s.peakShown_active, if_pos ended, s.peakShown_power, power]
        exact ⟨rfl, rfl, rfl⟩
  · have row : exec (.clusterCurrentLimit c () eighths) s = .next (s.mapPower c.val (fun k => { k with
        paced := if min 145 (s.pw c.val fPwrClCtrlIlimA) < s.pw c.val fPwrClStatusIA then max 1 eighths.val else 0 })) := if_neg (by simp [runs])
    refine ⟨_, row, ?_, rfl⟩
    rw [State.clPower_mapPower]

end Sys2Proof.Machine

/-! SUPPORT. Crossings, references and freezes: what keeps the reports that have arrived, what a message over the hairline and an event of the log leave alone, and
from these sweeps, the loss of references, freezes, the blotter and the TAP. -/

namespace Sys2Proof.Machine

/-! ## Reports that have arrived stay -/

/-- Every report that has arrived in `s` has arrived in `t`. -/
def State.KeepsNotes (s t : State) : Prop := s.notes ⊆ t.notes

theorem State.KeepsNotes.refl (s : State) : s.KeepsNotes s := List.Subset.refl _

theorem State.KeepsNotes.of_eq {s t : State} (h : t.notes = s.notes) : s.KeepsNotes t := fun _ => (h ▸ ·)

theorem State.KeepsNotes.trans {s t u : State} (h : s.KeepsNotes t) (k : t.KeepsNotes u) : s.KeepsNotes u := List.Subset.trans h k

theorem State.KeepsNotes.foldl {α : Type} {g : State → α → State} (h : ∀ t a, State.KeepsNotes t (g t a)) (l : List α) (s : State) :
    s.KeepsNotes (l.foldl g s) :=
  List.foldlRecOn _ _ (motive := s.KeepsNotes) (.refl s) fun t ht a _ => ht.trans (h t a)

theorem State.KeepsNotes.ite {s t u : State} {c : Prop} [Decidable c] (h : s.KeepsNotes t) (k : s.KeepsNotes u) : s.KeepsNotes (if c then t else u) := by
  split
  · exact h
  · exact k

theorem State.note_keepsNotes (s : State) (x : Note) : s.KeepsNotes (s.note x) := List.subset_append_left _ _

theorem State.mem_note (s : State) (n : Note) : n ∈ (s.note n).notes := List.mem_append_right _ (List.mem_singleton.2 rfl)

theorem State.mapCore_keepsNotes (s : State) (i : Nat) (f : Core → Core) : s.KeepsNotes (s.mapCore i f) := .refl s

theorem State.mapCluster_keepsNotes (s : State) (n : Nat) (f : Cluster → Cluster) : s.KeepsNotes (s.mapCluster n f) := .refl s

theorem State.send_notes (s : State) (a b : Nat) : (s.send a b).2.notes = s.notes := State.hairline_notes _ s

theorem State.hubSend_keepsNotes (s : State) (m : HubMsg) : s.KeepsNotes (s.hubSend m) := by
  have sent (a b : Nat) : s.KeepsNotes (s.send a b).2 := .of_eq (s.send_notes a b)
  cases m with
  | report a b x =>
    simp only [State.hubSend]
    exact .ite (.refl s) (.ite ((sent a b).trans (State.note_keepsNotes _ x)) (sent a b))
  | event a b i x =>
    simp only [State.hubSend]
    exact .ite (.refl s) (.ite (sent a b) (sent a b))

theorem State.putCore_keepsNotes (s : State) (i : Nat) (c : Core) : s.KeepsNotes (s.putCore i c) :=
  .ite (State.hubSend_keepsNotes (s.setCore i c) _) (.refl s)

theorem State.wordCheck_keepsNotes (s : State) (i w : Nat) (a b : Nat × Nat) : s.KeepsNotes (s.wordCheck i w a b).2 := by
  simp only [State.wordCheck]
  split
  · exact .refl s
  · exact .refl s

theorem State.cross_keepsNotes (i n w d : Nat) : ∀ (p : List (Nat × Nat)) (s : State) (inp : Nat), s.KeepsNotes (s.cross i n w d inp p).2
  | [], s, _ => .refl s
  | [_], s, _ => .refl s
  | a :: b :: r, s, inp => by
    simp only [State.cross]
    split
    · exact .refl s
    · exact (State.wordCheck_keepsNotes (s.mapCore _ _) ..).trans (State.cross_keepsNotes i n w d (b :: r) _ _)

theorem State.access_keepsNotes (s : State) (a b : Nat × Nat) (out back w : Nat) : s.KeepsNotes (s.access a b out back w).2 := by
  simp only [State.access]
  split
  · exact State.cross_keepsNotes ..
  · split
    · exact (State.cross_keepsNotes ..).trans (State.cross_keepsNotes ..)
    · exact State.cross_keepsNotes ..

theorem State.portRead_keepsNotes (s : State) (port i a : Nat) : s.KeepsNotes (s.portRead port i a).2 := by
  have crossed := s.access_keepsNotes (s.gateOf port i) (s.placeOf i) 1 1 1
  rw [State.portRead]
  generalize s.access (s.gateOf port i) (s.placeOf i) 1 1 1 = x at crossed ⊢
  simp only
  split
  · exact crossed.trans (x.2.putCore_keepsNotes i _)
  · exact crossed

theorem State.portWrite_keepsNotes (s : State) (port i : Nat) (ws : List WordWrite) : s.KeepsNotes (s.portWrite port i ws) := by
  have crossed := s.access_keepsNotes (s.gateOf port i) (s.placeOf i) (flitsOf ws.length) 0 ws.length
  rw [State.portWrite]
  generalize s.access (s.gateOf port i) (s.placeOf i) (flitsOf ws.length) 0 ws.length = x at crossed ⊢
  simp only
  split
  · exact crossed.trans (x.2.putCore_keepsNotes i _)
  · exact crossed

theorem State.dropIngress_keepsNotes (s : State) (port k : Nat) : s.KeepsNotes (s.dropIngress port k) := by
  have counted : s.KeepsNotes (s.bumpCli k fCliIngDropCount 1) := .refl s
  simp only [State.dropIngress]
  split
  · exact counted
  · have read := State.portRead_keepsNotes (s.bumpCli k fCliIngDropCount 1) port (s.ingCore k) (s.cli k fCliIngBase)
    split <;> rename_i heq <;> rw [heq] at read
    · exact counted.trans read
    · exact (counted.trans read).trans (State.portWrite_keepsNotes ..)

theorem State.endIngress_keepsNotes (s : State) (r : Nat) : s.KeepsNotes (s.endIngress r) := by
  have drop (p : Nat) (t : State) (f : IngFrame) : t.KeepsNotes (t.dropIngress p f.client) := t.dropIngress_keepsNotes p f.client
  have waiting (t : State) (p : Nat) : t.KeepsNotes (t.dropWaiting r p) := by
    rw [State.dropWaiting]
    refine .trans ?_ (.foldl (drop p) _ _)
    exact .of_eq rfl
  have passed (t : State) : t.KeepsNotes (t.dropPassed r) := by
    rw [State.dropPassed]
    refine .trans ?_ (.foldl (drop 16) _ _)
    exact .of_eq rfl
  exact (State.KeepsNotes.foldl waiting _ s).trans (passed _)

theorem State.mapCores_keepsNotes (s : State) (r : Nat) (f : Core → Core) : s.KeepsNotes (s.mapCores r f) := .foldl (fun t i => t.mapCore_keepsNotes i f) _ s

theorem State.wipeUnits_keepsNotes (s : State) (r : Nat) (f : Core → Core) : s.KeepsNotes (s.wipeUnits r f) :=
  ((s.mapCores_keepsNotes r f).trans (.foldl (fun t n => t.mapCluster_keepsNotes n _) _ _)).trans <|
    .foldl (fun t n => (t.mapCluster_keepsNotes n _).trans (.foldl (fun u i => u.mapCore_keepsNotes i f) _ _)) _ _

theorem State.dissolve_keepsNotes (s : State) (r : Nat) : s.KeepsNotes (s.dissolve r) :=
  .foldl (fun t _ => .foldl (fun u m => u.mapCore_keepsNotes m _) _ t) _ s

theorem State.enterWiping_keepsNotes (s : State) (r : Nat) (adv : Bool) : s.KeepsNotes (s.enterWiping r adv) := by
  have closed : s.KeepsNotes (s.closeGeneration r adv) := by
    rw [State.closeGeneration]
    exact .ite (s.dissolve_keepsNotes r) (s.dissolve_keepsNotes r)
  rw [State.enterWiping_eq]
  refine (closed.trans (State.wipeUnits_keepsNotes _ r Core.wipe)).trans ?_
  generalize (s.closeGeneration r adv).wipeUnits r Core.wipe = t
  exact .of_eq rfl

theorem State.resetRegion_keepsNotes (s : State) (r : Nat) : s.KeepsNotes (s.resetRegion r) := by
  rw [State.resetRegion]
  split
  · exact s.enterWiping_keepsNotes r true
  · have entered : s.KeepsNotes (s.enter r 3) := .refl s
    exact (entered.trans (State.endIngress_keepsNotes _ r)).trans (State.hubSend_keepsNotes _ _)
  · exact .refl s

theorem State.resetJob_keepsNotes (s : State) (r : Nat) : s.KeepsNotes (s.resetJob r) := by
  rw [State.resetJob]
  exact .foldl State.resetRegion_keepsNotes _ s

theorem State.needMapping_keepsNotes (s : State) (n : Nat) : s.KeepsNotes (s.needMapping n) := .foldl (fun t _ => t.note_keepsNotes _) _ s

theorem State.hubRelease_keepsNotes (s : State) : s.KeepsNotes s.hubRelease := by
  have taken : s.KeepsNotes { s with hubHeld := [] } := .refl s
  exact taken.trans (.foldl State.hubSend_keepsNotes _ _)

/-- A cluster not yet failed is reported failed. -/
theorem State.failCluster_reports {s : State} {n : Nat} (sound : s.fld (fldAt fClkClStatusFailed (0x100 * n)) ≠ 1) :
    Note.clusterFailed n ∈ (s.failCluster n).notes := by
  rw [State.failCluster, if_neg sound]
  refine List.Subset.trans (State.needMapping_keepsNotes _ n) (State.KeepsNotes.foldl State.resetJob_keepsNotes _ _) ?_
  exact State.note_keepsNotes _ _ (State.mem_note _ _)

/-! ## Messages that go on, and a snap's flood, reach the cores by their inbound events alone -/

/-- Every core of `t` is that of `s` but for the events on their way to it. -/
def State.SameButInbound (s t : State) : Prop := ∀ i, t.core i = { s.core i with inbound := (t.core i).inbound }

theorem State.SameButInbound.of_eq {s t : State} (h : t.cores = s.cores) : s.SameButInbound t := fun i => by rw [State.core_of_cores h]

theorem State.SameButInbound.trans {s t u : State} (h : s.SameButInbound t) (k : t.SameButInbound u) : s.SameButInbound u := fun i => by
  rw [k i, h i]

theorem State.SameButInbound.foldl {α : Type} {g : State → α → State} (h : ∀ t a, State.SameButInbound t (g t a)) (l : List α) (s : State) :
    s.SameButInbound (l.foldl g s) :=
  List.foldlRecOn _ _ (motive := s.SameButInbound) (.of_eq rfl) fun t ht a _ => ht.trans (h t a)

theorem State.hubSend_sameButInbound (s : State) (m : HubMsg) : s.SameButInbound (s.hubSend m) := by
  have sent (a b : Nat) : (s.send a b).2.cores = s.cores := State.hairline_cores _ s
  cases m with
  | report a b x =>
    simp only [State.hubSend]
    split
    · exact .of_eq rfl
    · split
      · exact .of_eq (sent a b)
      · exact .of_eq (sent a b)
  | event a b i x =>
    simp only [State.hubSend]
    split
    · exact .of_eq rfl
    · split
      · refine (State.SameButInbound.of_eq (sent a b)).trans fun j => ?_
        by_cases same : j = i
        · rw [same, State.core_mapCore_same]
        · rw [State.core_mapCore_ne _ _ same]
      · exact .of_eq (sent a b)

theorem State.hubRelease_sameButInbound (s : State) : s.SameButInbound s.hubRelease := by
  have taken : s.SameButInbound { s with hubHeld := [] } := .of_eq rfl
  exact taken.trans (.foldl State.hubSend_sameButInbound _ _)

theorem State.hubRelease_onlyUnits (s : State) : s.OnlyUnits s.hubRelease := by
  have taken : s.OnlyUnits { s with hubHeld := [] } := rfl
  exact taken.trans (.foldl State.hubSend_onlyUnits _ _)

theorem State.OnlyUnits.clocks {s t : State} (h : s.OnlyUnits t) : t.clocks = s.clocks := by
  rw [State.OnlyUnits] at h
  rw [h]

theorem State.refresh_rest (s : State) : s.refresh.rim = s.rim ∧ s.refresh.clocks = s.clocks ∧ s.refresh.cores = s.cores ∧ s.refresh.notes = s.notes := by
  rw [State.refresh]
  split
  · exact ⟨rfl, rfl, rfl, rfl⟩
  · exact ⟨rfl, rfl, rfl, rfl⟩

/-- What a change of the crossings' credits sets going leaves the registers and the clocks as they are. -/
theorem State.refresh_hubRelease (s : State) : s.refresh.hubRelease.rim = s.rim ∧ s.refresh.hubRelease.clocks = s.clocks ∧
    s.SameButInbound s.refresh.hubRelease ∧ s.KeepsNotes s.refresh.hubRelease := by
  obtain ⟨rim, clocks, cores, notes⟩ := s.refresh_rest
  have released := s.refresh.hubRelease_onlyUnits
  exact ⟨released.rim.trans rim, released.clocks.trans clocks, (State.SameButInbound.of_eq cores).trans s.refresh.hubRelease_sameButInbound,
    (State.KeepsNotes.of_eq notes).trans s.refresh.hubRelease_keepsNotes⟩

/-! ## The registers of a cluster's clock and of its crossings -/

theorem State.xf_of_rim {s t : State} (h : t.rim = s.rim) (n side : Nat) (f : Fld) : t.xf n side f = s.xf n side f := State.fld_of_rim h _

theorem State.ck_of_rim {s t : State} (h : t.rim = s.rim) (n : Nat) (f : Fld) : t.ck n f = s.ck n f := State.fld_of_rim h _

theorem State.xf_setXf_same (s : State) (n side v : Nat) {f : Fld} (fits : f.lo + f.width ≤ 64) : (s.setXf n side f v).xf n side f = v % 2 ^ f.width :=
  State.fld_setFld_same s (fldAt f (0x100 * n + 8 * side)) v fits

theorem State.xf_setXf_apart (s : State) (n side v : Nat) {f g : Fld} (apart : f.Apart g) : (s.setXf n side f v).xf n side g = s.xf n side g :=
  State.fld_setFld_apart s v (apart.imp_left fun other => by simpa only [fldAt, ne_eq, Nat.add_right_cancel_iff] using other)

theorem State.ck_setCk_same (s : State) (n v : Nat) {f : Fld} (fits : f.lo + f.width ≤ 64) : (s.setCk n f v).ck n f = v % 2 ^ f.width :=
  State.fld_setFld_same s (fldAt f (0x100 * n)) v fits

theorem State.ck_setCk_apart (s : State) (n v : Nat) {f g : Fld} (apart : f.Apart g) : (s.setCk n f v).ck n g = s.ck n g :=
  State.fld_setFld_apart s v (apart.imp_left fun other => by simpa only [fldAt, ne_eq, Nat.add_right_cancel_iff] using other)

/-- The registers of the crossings lie apart from those of the clusters' state and counters. -/
theorem xf_off_ne_ck_off {f g : Fld} {side : Nat} (low : side < 4) (xing : f.off = fClkXingSetting.off)
    (clock : g.off = fClkClStatusHoldover.off ∨ g.off = fClkRetrainCount.off) (n m : Nat) :
    (fldAt f (0x100 * n + 8 * side)).off ≠ (fldAt g (0x100 * m)).off := by
  simp only [fldAt, xing, fClkXingSetting, fClkClStatusHoldover, fClkRetrainCount] at clock ⊢
  omega

theorem State.xf_setCk (s : State) (n m side v : Nat) {f g : Fld} (low : side < 4) (xing : f.off = fClkXingSetting.off)
    (clock : g.off = fClkClStatusHoldover.off ∨ g.off = fClkRetrainCount.off) : (s.setCk m g v).xf n side f = s.xf n side f :=
  State.fld_setFld_other s _ _ v (xf_off_ne_ck_off low xing clock n m)

theorem State.ck_setXf (s : State) (n m side v : Nat) {f g : Fld} (low : side < 4) (xing : f.off = fClkXingSetting.off)
    (clock : g.off = fClkClStatusHoldover.off ∨ g.off = fClkRetrainCount.off) : (s.setXf n side f v).ck m g = s.ck m g :=
  State.fld_setFld_other s _ _ v (xf_off_ne_ck_off low xing clock n m).symm

/-! ## Sweeps and retrains (R352 to R354) -/

/-- The setting that a retrain on a window gives a crossing. -/
def State.retrained (s : State) (n side : Nat) (w : Int × Int) : Nat :=
  ((centreOf w + s.xf n side fClkXingSetting - s.xf n side fClkXingRefCentre) % 512).toNat

theorem toNat_emod_lt (a : Int) : (a % 512).toNat < 2 ^ 9 := by omega

theorem State.retrainXing_xf (s : State) {n side : Nat} (low : side < 4) (w : Int × Int) : let t := s.retrainXing n side w
    t.xf n side fClkXingSetting = s.retrained n side w ∧ t.xf n side fClkXingRefCentre = (centreOf w % 512).toNat ∧
    t.xf n side fClkXingMarginMin = s.xf n side fClkXingMarginMin ∧ t.xf n side fClkXingFailed = s.xf n side fClkXingFailed := by
  intro t
  have counted (f : Fld) (xing : f.off = fClkXingSetting.off) : t.xf n side f =
      ((s.setXf n side fClkXingSetting (s.retrained n side w)).setXf n side fClkXingRefCentre (centreOf w % 512).toNat).xf n side f :=
    State.xf_setCk _ n n side _ low xing (.inr rfl)
  refine ⟨?_, ?_, ?_, ?_⟩
  · rw [counted fClkXingSetting rfl, State.xf_setXf_apart _ _ _ _ (by decide), State.xf_setXf_same _ _ _ _ (by decide)]
    exact Nat.mod_eq_of_lt (toNat_emod_lt _)
  · rw [counted fClkXingRefCentre rfl, State.xf_setXf_same _ _ _ _ (by decide)]
    exact Nat.mod_eq_of_lt (toNat_emod_lt _)
  · rw [counted fClkXingMarginMin rfl, State.xf_setXf_apart _ _ _ _ (by decide), State.xf_setXf_apart _ _ _ _ (by decide)]
  · rw [counted fClkXingFailed rfl, State.xf_setXf_apart _ _ _ _ (by decide), State.xf_setXf_apart _ _ _ _ (by decide)]

theorem State.retrainXing_frame (s : State) (n side : Nat) (w : Int × Int) :
    (s.retrainXing n side w).cores = s.cores ∧ (s.retrainXing n side w).mesh = s.mesh ∧ (s.retrainXing n side w).clocks = s.clocks := by
  simp only [State.retrainXing, State.setXf, State.setCk, State.setFld_frame, true_and]

theorem State.retrainXing_holdover (s : State) {side : Nat} (low : side < 4) (n m : Nat) (w : Int × Int) :
    (s.retrainXing n side w).ck m fClkClStatusHoldover = s.ck m fClkClStatusHoldover := by
  have counted (t : State) (v : Nat) : (t.setCk n fClkRetrainCount v).ck m fClkClStatusHoldover = t.ck m fClkClStatusHoldover :=
    State.fld_setFld_other t _ _ v (by simp only [fldAt, fClkClStatusHoldover, fClkRetrainCount]; omega)
  simp only [State.retrainXing, counted]
  rw [State.ck_setXf (f := fClkXingRefCentre) _ _ _ _ _ low rfl (.inl rfl), State.ck_setXf (f := fClkXingSetting) _ _ _ _ _ low rfl (.inl rfl)]

/-- The state in which a sweep's window is kept and its margin recorded. -/
def State.swept (s : State) (n side : Nat) (w : Int × Int) : State :=
  (s.setCrossing n side { s.crossing n side with window := some w }).setXf n side fClkXingMarginMin
    (min (s.xf n side fClkXingMarginMin) (max 0 (marginOf (s.xf n side fClkXingSetting) w)).toNat)

theorem State.swept_xf (s : State) (n side : Nat) (w : Int × Int) {f : Fld} (apart : fClkXingMarginMin.Apart f) : (s.swept n side w).xf n side f = s.xf n side f :=
  (State.xf_setXf_apart _ n side _ apart).trans (State.xf_of_rim rfl ..)

theorem State.swept_margin (s : State) (n side : Nat) (w : Int × Int) : (s.swept n side w).xf n side fClkXingMarginMin =
    min (s.xf n side fClkXingMarginMin) (max 0 (marginOf (s.xf n side fClkXingSetting) w)).toNat :=
  (State.xf_setXf_same _ n side _ (by decide)).trans (Nat.mod_eq_of_lt (lt_of_le_of_lt (Nat.min_le_left ..) (fieldOf_lt ..)))

theorem State.swept_retrained (s : State) (n side : Nat) (w : Int × Int) : (s.swept n side w).retrained n side w = s.retrained n side w := by
  rw [State.retrained, s.swept_xf n side w (by decide), s.swept_xf n side w (by decide), State.retrained]

theorem State.swept_fld (s : State) (n side : Nat) (w : Int × Int) {f : Fld} (low : f.off < fClkXingSetting.off) : (s.swept n side w).fld f = s.fld f :=
  (State.fld_setFld_other _ _ f _ (Nat.ne_of_lt (low.trans_le (Nat.le_add_right _ _)))).trans <|
    State.fld_of_rim (t := s.setCrossing n side { s.crossing n side with window := some w }) (s := s) rfl f

theorem exec_crossingSweep {c : ClusterId} {side : Fin 4} {s : State} (runs : s.alive c.val = true) (present : sidePresent c.val side.val = true)
    (sound : s.xf c.val side.val fClkXingFailed = 0) (a b : Fin 512) : let n := c.val
    let w : Int × Int := (a.val, b.val)
    let m := marginOf (s.xf n side.val fClkXingSetting) w
    exec (.crossingSweep c side a b) s = .next (if m < s.fld fClkCtrlMarginFail then (s.swept n side.val w).retrainNow n side.val w
      else if m < s.fld fClkCtrlMarginWarn then (s.swept n side.val w).retrainXing n side.val w else s.swept n side.val w) := by
  intro n w m
  change execCrossingSweep c side a b s = _
  unfold execCrossingSweep
  rw [if_neg (by simp [runs, present, sound])]
  extract_lets margin kept opened t
  have swept : t = s.swept n side.val w := rfl
  rw [swept, s.swept_fld n side.val w (by decide), s.swept_fld n side.val w (by decide)]
  split
  · rfl
  · split
    · rfl
    · rfl

theorem State.crossingSwept (s : State) (c : ClusterId) (side : Fin 4) (a b : Fin 512) (runs : s.alive c.val = true)
    (present : sidePresent c.val side.val = true) (sound : s.xf c.val side.val fClkXingFailed = 0) :
    let n := c.val
    let w : Int × Int := (a.val, b.val)
    let old := s.xf n side.val fClkXingSetting
    let m := marginOf old w
    let new := s.retrained n side.val w
    ∃ u : State, u.xf n side.val fClkXingMarginMin = min (s.xf n side.val fClkXingMarginMin) (max 0 m).toNat ∧ u.xf n side.val fClkXingFailed = 0 ∧
      u.xf n side.val fClkXingSetting = (if m < s.fld fClkCtrlMarginFail ∨ m < s.fld fClkCtrlMarginWarn then new else old) ∧
      u.xf n side.val fClkXingRefCentre = (if m < s.fld fClkCtrlMarginFail ∨ m < s.fld fClkCtrlMarginWarn then (centreOf w % 512).toNat
        else s.xf n side.val fClkXingRefCentre) ∧ u.cores = s.cores ∧ u.mesh = s.mesh ∧
      exec (.crossingSweep c side a b) s = .next (if m < s.fld fClkCtrlMarginFail ∧ marginOf new w < 8 then u.failXing n side.val else u) := by
  intro n w old m new
  have row := exec_crossingSweep runs present sound a b
  have frame : (s.swept n side.val w).cores = s.cores ∧ (s.swept n side.val w).mesh = s.mesh := ⟨rfl, rfl⟩
  by_cases moved : m < s.fld fClkCtrlMarginFail ∨ m < s.fld fClkCtrlMarginWarn
  · obtain ⟨setting, centre, margin, failed⟩ := (s.swept n side.val w).retrainXing_xf side.isLt w
    obtain ⟨cores, mesh, -⟩ := (s.swept n side.val w).retrainXing_frame n side.val w
    rw [s.swept_retrained] at setting
    refine ⟨(s.swept n side.val w).retrainXing n side.val w, margin.trans (s.swept_margin n side.val w),
      failed.trans ((s.swept_xf n side.val w (by decide)).trans sound), by rw [if_pos moved, setting], by rw [if_pos moved, centre],
      cores.trans frame.1, mesh.trans frame.2, row.trans ?_⟩
    by_cases fails : m < s.fld fClkCtrlMarginFail
    · rw [if_pos fails, State.retrainNow, setting]
      simp only [fails, true_and]
      rfl
    · rw [if_neg fails, if_pos (moved.resolve_left fails), if_neg fun both => fails both.1]
  · obtain ⟨stays, holds⟩ := not_or.1 moved
    refine ⟨s.swept n side.val w, s.swept_margin n side.val w, (s.swept_xf n side.val w (by decide)).trans sound, ?_, ?_, frame.1, frame.2, row.trans ?_⟩
    · rw [if_neg moved, s.swept_xf n side.val w (by decide)]
    · rw [if_neg moved, s.swept_xf n side.val w (by decide)]
    · rw [if_neg stays, if_neg holds, if_neg fun both => stays both.1]

/-! ## References (R355 to R357) -/

/-- The state in which a cluster begins to hold over. -/
def State.holding (s : State) (n : Nat) : State :=
  { s.setCk n fClkClStatusHoldover 1 with clocks := { s.clocks with held := s.clocks.held.put n (s.mono + 1) 0 } }

theorem State.holding_ck (s : State) (n : Nat) (f : Fld) : (s.holding n).ck n f = (s.setCk n fClkClStatusHoldover 1).ck n f := State.ck_of_rim rfl n f

theorem exec_referenceLoss {c : ClusterId} {s : State} (runs : s.alive c.val = true) (notSeed : c.val ≠ 60) (locked : s.ck c.val fClkClStatusHoldover = 0) :
    let t := s.holding c.val
    exec (.referenceLoss c) s = .next (if s.altUsable c.val then
      (t.setCk c.val fClkClStatusOnAlt 1).setCk c.val fClkRefSwitchCount ((t.setCk c.val fClkClStatusOnAlt 1).ck c.val fClkRefSwitchCount + 1)
      else t.setCk c.val fClkClStatusOnAlt 0) := by
  intro t
  have count : (t.setCk c.val fClkClStatusOnAlt 1).ck c.val fClkRefSwitchCount = t.ck c.val fClkRefSwitchCount := State.ck_setCk_apart _ _ _ (by decide)
  rw [count]
  change execReferenceLoss c s = _
  unfold execReferenceLoss
  rw [if_neg (by simp [runs, notSeed, locked])]
  split
  · rw [if_pos ‹_›]
    rfl
  · rw [if_neg ‹_›]
    rfl

theorem State.referenceLost (s : State) (c : ClusterId) (runs : s.alive c.val = true) (notSeed : c.val ≠ 60) (locked : s.ck c.val fClkClStatusHoldover = 0) :
    let n := c.val
    ∃ t, exec (.referenceLoss c) s = .next t ∧ t.ck n fClkClStatusHoldover = 1 ∧
      t.clocks.held.look n 0 = s.mono + 1 ∧ t.ck n fClkClStatusOnAlt = (if s.altUsable n then 1 else 0) ∧
      t.ck n fClkRefSwitchCount = (s.ck n fClkRefSwitchCount + if s.altUsable n then 1 else 0) % 2 ^ 64 := by
  intro n
  have holds : (s.holding n).ck n fClkClStatusHoldover = 1 := (s.holding_ck n _).trans (State.ck_setCk_same _ _ _ (by decide))
  have count : (s.holding n).ck n fClkRefSwitchCount = s.ck n fClkRefSwitchCount := (s.holding_ck n _).trans (State.ck_setCk_apart _ _ _ (by decide))
  have since : (s.holding n).clocks.held.look n 0 = s.mono + 1 := s.clocks.held.look_put_same n (s.mono + 1) 0
  refine ⟨_, exec_referenceLoss runs notSeed locked, ?_⟩
  split
  · refine ⟨?_, since, ?_, ?_⟩
    · rw [State.ck_setCk_apart _ _ _ (by decide), State.ck_setCk_apart _ _ _ (by decide), holds]
    · rw [State.ck_setCk_apart _ _ _ (by decide), State.ck_setCk_same _ _ _ (by decide)]
      rfl
    · rw [State.ck_setCk_same _ _ _ (by decide), State.ck_setCk_apart _ _ _ (by decide), count]
      rfl
  · refine ⟨?_, since, ?_, ?_⟩
    · rw [State.ck_setCk_apart _ _ _ (by decide), holds]
    · exact State.ck_setCk_same _ _ _ (by decide)
    · rw [State.ck_setCk_apart _ _ _ (by decide), count]
      exact (Nat.mod_eq_of_lt (fieldOf_lt ..)).symm

/-- A crossing that is present and sound retrained, on a window that is given or else free. -/
def State.resweep (s : State) (sweeps : List (ClusterId × Fin 4 × Fin 512 × Fin 512)) (x : Nat × Nat) : State :=
  if sidePresent x.1 x.2 && s.xf x.1 x.2 fClkXingFailed = 0 then
    let fresh := (sweeps.find? (fun y => decide (y.1.val = x.1) && decide (y.2.1.val = x.2))).map (fun y => ((y.2.2.1.val : Int), (y.2.2.2.val : Int)))
    let t := s.setCrossing x.1 x.2 { s.crossing x.1 x.2 with window := fresh }
    t.retrainXing x.1 x.2 (t.windowOf x.1 x.2)
  else s

theorem flipSide_lt : ∀ side : Nat, flipSide side < 4
  | 0 => by decide
  | 1 => by decide
  | 2 => by decide
  | _ + 3 => (by decide : 2 < 4)

theorem crossingsOf_low {n : Nat} {x : Nat × Nat} (mem : x ∈ crossingsOf n) : x.2 < 4 := by
  rcases List.mem_append.1 mem with own | next
  · obtain ⟨side, low, rfl⟩ := List.mem_map.1 own
    exact List.mem_range.1 low
  · obtain ⟨side, low, rfl⟩ := List.mem_map.1 next
    exact flipSide_lt side

theorem State.resweep_rest (s : State) (sweeps : List (ClusterId × Fin 4 × Fin 512 × Fin 512)) {x : Nat × Nat} (low : x.2 < 4) (n : Nat) :
    (s.resweep sweeps x).ck n fClkClStatusHoldover = s.ck n fClkClStatusHoldover ∧ (s.resweep sweeps x).clocks.held = s.clocks.held ∧
      (s.resweep sweeps x).cores = s.cores := by
  rw [State.resweep]
  split
  · extract_lets fresh kept t
    obtain ⟨cores, -, clocks⟩ := t.retrainXing_frame x.1 x.2 (t.windowOf x.1 x.2)
    refine ⟨(t.retrainXing_holdover low x.1 n _).trans (State.ck_of_rim rfl ..), by rw [clocks]; rfl, by rw [cores]; rfl⟩
  · exact ⟨rfl, rfl, rfl⟩

/-- The state in which a cluster has left holdover, its crossings still to be retrained. -/
def State.locking (s : State) (n : Nat) : State := { s.setCk n fClkClStatusHoldover 0 with clocks := { s.clocks with held := s.clocks.held.put n 0 0 } }

theorem exec_pllRelock {c : ClusterId} {s : State} (runs : s.alive c.val = true) (holds : s.ck c.val fClkClStatusHoldover = 1)
    (alt : s.ck c.val fClkClStatusOnAlt = 1) (held : s.clocks.held.look c.val 0 ≠ 0) (sweeps : List (ClusterId × Fin 4 × Fin 512 × Fin 512)) :
    exec (.pllRelock c sweeps) s = .next ((crossingsOf c.val).foldl (fun (t : State) x => t.resweep sweeps x) (s.locking c.val)).refresh.hubRelease := by
  change execPllRelock c sweeps s = _
  unfold execPllRelock
  rw [if_neg (by simp only [runs, holds, alt, Bool.not_true, Bool.false_or, Bool.or_eq_true, decide_eq_true_eq, held]; decide)]
  rfl

/-- Cluster `n` is locked again and no reference is held for it, and the cores are those of `s`. -/
structure State.Relocked (s : State) (n : Nat) (t : State) : Prop where
  locked : t.ck n fClkClStatusHoldover = 0
  none : t.clocks.held.look n 0 = 0
  cores : t.cores = s.cores

theorem State.locking_relocked (s : State) (n : Nat) : s.Relocked n (s.locking n) where
  locked := (State.ck_of_rim (t := s.locking n) (s := s.setCk n fClkClStatusHoldover 0) rfl n _).trans (State.ck_setCk_same s n 0 (by decide))
  none := s.clocks.held.look_put_same n 0 0
  cores := rfl

theorem State.Relocked.resweep {s t : State} {n : Nat} (h : s.Relocked n t) (sweeps : List (ClusterId × Fin 4 × Fin 512 × Fin 512)) {x : Nat × Nat}
    (low : x.2 < 4) : s.Relocked n (t.resweep sweeps x) := by
  obtain ⟨locked, none, cores⟩ := t.resweep_rest sweeps low n
  exact ⟨locked.trans h.locked, none ▸ h.none, cores.trans h.cores⟩

theorem State.relocked (s : State) (c : ClusterId) (runs : s.alive c.val = true) (holds : s.ck c.val fClkClStatusHoldover = 1)
    (alt : s.ck c.val fClkClStatusOnAlt = 1) (held : s.clocks.held.look c.val 0 ≠ 0) (sweeps : List (ClusterId × Fin 4 × Fin 512 × Fin 512)) :
    ∃ t, exec (.pllRelock c sweeps) s = .next t ∧ t.ck c.val fClkClStatusHoldover = 0 ∧ t.clocks.held.look c.val 0 = 0 ∧
      ∀ i, t.core i = { s.core i with inbound := (t.core i).inbound } := by
  have swept : s.Relocked c.val ((crossingsOf c.val).foldl (fun (t : State) x => t.resweep sweeps x) (s.locking c.val)) :=
    List.foldlRecOn _ _ (motive := s.Relocked c.val) (s.locking_relocked c.val) fun _ kept _ mem => kept.resweep sweeps (crossingsOf_low mem)
  obtain ⟨rim, clocks, inbound, -⟩ := State.refresh_hubRelease ((crossingsOf c.val).foldl (fun (t : State) x => t.resweep sweeps x) (s.locking c.val))
  exact ⟨_, exec_pllRelock runs holds alt held sweeps, (State.ck_of_rim rim ..).trans swept.locked, by rw [clocks, swept.none],
    fun i => State.core_of_cores swept.cores i ▸ inbound i⟩

theorem State.heldTooLong (s : State) (c : ClusterId) (runs : s.alive c.val = true) {since : Nat} (held : s.clocks.held.look c.val 0 = since + 1)
    (late : since + 1000000 ≤ s.mono) (sound : s.ck c.val fClkClStatusFailed = 0) :
    ∃ t, exec (.holdoverTimeout c) s = .next t ∧ Note.clusterFailed c.val ∈ t.notes := by
  have row : exec (.holdoverTimeout c) s =
      .next ({ s with clocks := { s.clocks with held := s.clocks.held.put c.val 0 0 } }.failCluster c.val).refresh.hubRelease :=
    if_pos (by simp [runs, held, late])
  refine ⟨_, row, (State.refresh_hubRelease _).2.2.2 (State.failCluster_reports fun failed => ?_)⟩
  exact absurd (sound.symm.trans failed) (by decide)

theorem State.note_dev (s : State) (n : Note) : (s.note n).dev = s.dev := rfl

/-- The state in which the island has seen the loss of REFCLK. -/
def State.refclkLost (s : State) : State :=
  (({ s with island := { s.island with refclk := false } }.faultOn .refclk).logEvent 0x0B 2 0xFF none 0).note (.island .refclk)

theorem State.refclkLost_spec (s : State) : s.refclkLost.dev = s.dev ∧ s.refclkLost.island.refclk = false ∧ FaultCause.refclk ∈ s.refclkLost.island.faults ∧
    Note.island .refclk ∈ s.refclkLost.notes := by
  rw [State.refclkLost]
  generalize seen : { s with island := { s.island with refclk := false } }.faultOn .refclk = t
  have start : t.dev = s.dev ∧ t.island.refclk = false ∧ FaultCause.refclk ∈ t.island.faults := by
    subst seen
    exact ⟨rfl, rfl, List.mem_append_right _ (List.mem_singleton.2 rfl)⟩
  obtain ⟨dev, lost, fault⟩ := start
  rw [State.note_dev, t.logEvent_dev, State.note_island]
  refine ⟨dev, ?_, t.logEvent_fault _ _ _ _ _ fault, State.mem_note _ _⟩
  obtain same | full := t.logEvent_island 0x0B 2 0xFF none 0
  · rw [same, lost]
  · rw [full, Island.faultFor, lost]

/-- The state in which the seed and the time hold over. -/
def State.seedHolding (s : State) : State :=
  (((s.setFld fClkStatusRefclkLost 1).setFld fClkStatusSeedLocked 0).setFld fTimeStatusHoldover 1).setCk 60 fClkClStatusHoldover 1

theorem State.seedHolding_spec (s : State) : s.seedHolding.fld fClkStatusRefclkLost = 1 ∧ s.seedHolding.fld fClkStatusSeedLocked = 0 ∧
    s.seedHolding.fld fTimeStatusHoldover = 1 ∧ s.seedHolding.ck 60 fClkClStatusHoldover = 1 := by
  have own {f : Fld} (apart : (fldAt fClkClStatusHoldover (0x100 * 60)).Apart f) : s.seedHolding.fld f =
      (((s.setFld fClkStatusRefclkLost 1).setFld fClkStatusSeedLocked 0).setFld fTimeStatusHoldover 1).fld f := State.fld_setFld_apart _ _ apart
  refine ⟨?_, ?_, ?_, State.ck_setCk_same _ 60 1 (by decide)⟩
  · rw [own (by decide), State.fld_setFld_apart _ _ (by decide), State.fld_setFld_apart _ _ (by decide), State.fld_setFld_same _ _ _ (by decide)]
    rfl
  · rw [own (by decide), State.fld_setFld_apart _ _ (by decide), State.fld_setFld_same _ _ _ (by decide)]
    rfl
  · rw [own (by decide), State.fld_setFld_same _ _ _ (by decide)]
    rfl

theorem State.seedHolding_frame (s : State) : s.seedHolding.island = s.island ∧ s.seedHolding.notes = s.notes := by
  simp only [State.seedHolding, State.setCk, State.setFld_frame, true_and]

theorem exec_refclkLoss {s : State} (up : s.dev = .up) (clock : s.island.refclk = true) : exec .refclkLoss s = .next s.refclkLost.seedHolding := by
  have dev : s.refclkLost.dev = .up := s.refclkLost_spec.1.trans up
  change execRefclkLoss s = _
  unfold execRefclkLoss
  rw [if_neg (by simp [up, clock])]
  extract_lets island t
  have seen : t = s.refclkLost := rfl
  rw [seen, if_neg (by simp [dev])]
  rfl

/-- The state in which the island has seen the return of REFCLK, and the seed's holdover has ended. -/
def State.refclkBack (s : State) : State := ({ s with island := { s.island with refclk := true } }.faultOff .refclk).setCk 60 fClkClStatusHoldover 0

/-- The state in which the seed is locked where it may be. -/
def State.seedRelocked (s : State) : State :=
  if 5 ≤ s.fld fRstStatusPhase && s.ck 60 fClkClStatusFailed = 0 then s.setFld fClkStatusSeedLocked 1 else s

theorem exec_refclkReturn {s : State} (up : s.dev = .up) (lost : s.island.refclk = false) :
    exec .refclkReturn s = .next (if s.refclkBack.seedRelocked.sourceLost then s.refclkBack.seedRelocked
      else s.refclkBack.seedRelocked.setFld fTimeStatusHoldover 0) := by
  change execRefclkReturn s = _
  unfold execRefclkReturn
  rw [if_neg (by simp [up, lost])]
  exact if_neg (by simp [State.faultOff, up])

theorem State.refclkBack_fld (s : State) {f : Fld} (apart : (fldAt fClkClStatusHoldover (0x100 * 60)).Apart f) : s.refclkBack.fld f = s.fld f :=
  (State.fld_setFld_apart _ _ apart).trans (State.faultOff_fld ..)

theorem State.seedRelocked_fld (s : State) {f : Fld} (apart : fClkStatusSeedLocked.Apart f) : s.seedRelocked.fld f = s.fld f := by
  rw [State.seedRelocked]
  split
  · exact State.fld_setFld_apart _ _ apart
  · rfl

theorem State.seedRelocked_island (s : State) : s.seedRelocked.island = s.island := by
  rw [State.seedRelocked]
  split
  · rfl
  · rfl

/-- Settles O39: sweeps by the fields of one crossing's register, references by what the release of held messages leaves alone. -/
theorem crossingsAndReferences : Obligations.CrossingsAndReferences := by
  unfold Obligations.CrossingsAndReferences
  refine ⟨fun c side a b s runs present sound => s.crossingSwept c side a b runs present sound,
    fun c s runs => ⟨s.referenceLost c runs, fun sweeps holds alt held => s.relocked c runs holds alt held sweeps, fun since => s.heldTooLong c runs⟩,
    fun s up => ⟨fun clock => ?_, fun lost => ?_⟩⟩
  · obtain ⟨-, lost, fault, told⟩ := s.refclkLost_spec
    obtain ⟨island, notes⟩ := s.refclkLost.seedHolding_frame
    refine ⟨_, exec_refclkLoss up clock, ?_⟩
    rw [island, notes]
    exact ⟨lost, fault, told, s.refclkLost.seedHolding_spec⟩
  · refine ⟨_, exec_refclkReturn up lost, ?_⟩
    have island : s.refclkBack.seedRelocked.island = s.refclkBack.island := s.refclkBack.seedRelocked_island
    have kept {f : Fld} (apart : fTimeStatusHoldover.Apart f) : (if s.refclkBack.seedRelocked.sourceLost then s.refclkBack.seedRelocked
        else s.refclkBack.seedRelocked.setFld fTimeStatusHoldover 0).fld f = s.refclkBack.seedRelocked.fld f := by
      split
      · rfl
      · exact State.fld_setFld_apart _ _ apart
    have same : (if s.refclkBack.seedRelocked.sourceLost then s.refclkBack.seedRelocked
        else s.refclkBack.seedRelocked.setFld fTimeStatusHoldover 0).island = s.refclkBack.island := by
      split
      · exact island
      · exact island
    refine ⟨by rw [same]; rfl, ?_, ?_, ?_, fun phase sound => ?_⟩
    · rw [same]
      exact fun held => ((State.faultOff_faults _ .refclk .refclk).1 held).2 rfl
    · rw [kept (by decide), State.seedRelocked_fld _ (by decide), s.refclkBack_fld (by decide)]
    · rw [State.ck, kept (by decide), State.seedRelocked_fld _ (by decide)]
      exact State.ck_setCk_same _ 60 0 (by decide)
    · have may : (5 ≤ s.refclkBack.fld fRstStatusPhase && s.refclkBack.ck 60 fClkClStatusFailed = 0) = true := by
        rw [s.refclkBack_fld (by decide), State.ck, s.refclkBack_fld (by decide)]
        simpa using ⟨phase, sound⟩
      rw [kept (by decide), State.seedRelocked, if_pos may]
      exact State.fld_setFld_same _ _ _ (by decide)

/-! ## What an event of the log leaves alone (R442, R443) -/

/-- `t` differs from `s` in the rim's registers with their copies, the log and the island alone. -/
def State.OnlyLog (s t : State) : Prop := t = { s with rim := t.rim, copies := t.copies, log := t.log, island := t.island }

theorem State.OnlyLog.cores {s t : State} (h : s.OnlyLog t) : t.cores = s.cores := by
  rw [State.OnlyLog] at h
  rw [h]

theorem State.OnlyLog.trans {s t u : State} (h : s.OnlyLog t) (k : t.OnlyLog u) : s.OnlyLog u := by
  rw [State.OnlyLog] at h
  exact Eq.trans k (by rw [h])

theorem State.setReg_onlyLog (s : State) (a : Nat) (w : Word) : s.OnlyLog (s.setReg a w) := rfl

theorem State.appendLog_onlyLog (s : State) (l : List LogEntry) : s.OnlyLog (s.appendLog l) := rfl

theorem State.loseLog_onlyLog (s : State) : s.OnlyLog s.loseLog := rfl

theorem State.lastGasp_onlyLog (s : State) (e : LogEntry) : s.OnlyLog (s.lastGasp e) := by
  rw [State.lastGasp]
  split
  · exact List.foldlRecOn _ _ (motive := s.OnlyLog) rfl fun t same x _ => same.trans (t.setReg_onlyLog _ _)
  · rfl

theorem State.logEvent_onlyLog (s : State) (code severity cluster : Nat) (region : Option Nat) (detail : Word) :
    s.OnlyLog (s.logEvent code severity cluster region detail) := by
  have gasp := s.lastGasp_onlyLog (s.logEntry code severity cluster region detail)
  rw [State.logEvent_eq]
  simp only
  split
  · exact gasp.trans (State.setReg_onlyLog ..)
  · split
    · exact (gasp.trans (State.appendLog_onlyLog ..)).trans (State.loseLog_onlyLog _)
    · exact gasp.trans (State.appendLog_onlyLog ..)

/-- The registers past the last-gasp register are no registers of the log. -/
theorem State.logEvent_above (s : State) (code severity cluster : Nat) (region : Option Nat) (detail : Word) {f : Fld} (above : fAoiLastGaspWord.off + 32 ≤ f.off) :
    (s.logEvent code severity cluster region detail).fld f = s.fld f := by
  have gasp (e : LogEntry) : (s.lastGasp e).fld f = s.fld f := by
    rw [State.lastGasp]
    split
    · refine List.foldlRecOn _ _ (motive := fun t : State => t.fld f = s.fld f) rfl fun t same x mem => ?_
      have place : x.2 < 4 := List.snd_lt_of_mem_zipIdx mem
      rw [State.fld_setReg_ne _ _ (by omega), same]
    · rfl
  rw [State.logEvent_eq]
  generalize s.logEntry code severity cluster region detail = e
  have set (t : State) {g : Fld} (v : Nat) (low : g.off < fAoiLastGaspWord.off) : (t.setFld g v).fld f = t.fld f := State.fld_setFld_other t g f v (by omega)
  have appended (l : List LogEntry) : ((s.lastGasp e).appendLog l).fld f = s.fld f := by
    rw [State.appendLog, set _ _ (by decide), State.bump, set _ _ (by decide)]
    exact gasp e
  simp only
  split
  · exact (set _ _ (by decide)).trans (gasp e)
  · split
    · exact (set _ 1 (g := fAoiLogStatusLogLost) (by decide)).trans (appended _)
    · exact appended _

/-! ## Freezes (R444, R445) -/

theorem State.freezeAt_status (s : State) (t source : Nat) : (s.freezeAt t source).fld fDbgFreezeStatusArmed = 1 ∧
    (s.freezeAt t source).fld fDbgFreezeStatusSource = source % 2 ^ fDbgFreezeStatusSource.width ∧ (s.freezeAt t source).dbg.freeze = some t := by
  have status {f : Fld} (other : f.off ≠ fDbgFreezeTimeTime.off) :
      (s.freezeAt t source).fld f = ((s.flood.setFld fDbgFreezeStatusArmed 1).setFld fDbgFreezeStatusSource source).fld f := State.fld_setReg_ne _ _ other
  refine ⟨?_, ?_, rfl⟩
  · rw [status (by decide), State.fld_setFld_apart _ _ (by decide), State.fld_setFld_same _ _ _ (by decide)]
    rfl
  · rw [status (by decide), State.fld_setFld_same _ _ _ (by decide)]

theorem State.armFreeze_spec (s : State) (t : Nat) : (s.armFreeze t).fld fDbgFreezeStatusArmed = 1 ∧
    (s.armFreeze t).dbg.freeze = some (if t < s.time + 2000 then s.tickIn 2000 else t) ∧ (s.armFreeze t).fld fDbgFreezeStatusSource = 1 := by
  obtain ⟨armed, source, freeze⟩ := s.freezeAt_status (if decide (t < s.time + 2000) then s.tickIn 2000 else t) 1
  rw [State.armFreeze, State.fld_setFld_apart _ _ (by decide), State.fld_setFld_apart _ _ (by decide)]
  refine ⟨armed, ?_, source⟩
  exact freeze.trans (by simp only [decide_eq_true_eq])

theorem exec_freeze {s : State} (up : s.dev = .up) {p : List Byte} (asked : s.payload 0x51 = some p) (eight : p.length = 8) :
    exec .freeze s = .next ((s.armFreeze (numAt p 0 8)).answer 0x51 0 []) := by
  change execFreeze s = _
  unfold execFreeze
  rw [asked]
  simp only
  rw [if_neg (by simp [up]), badPayload_eight eight (by decide)]

theorem exec_freezeNLow {s : State} (up : s.dev = .up) (phase : 2 ≤ s.fld fRstStatusPhase) :
    exec .freezeNLow s = .next ((s.freezeAt (s.tickIn 2000) 0).setFld fDbgFreezeStatusLate 0) := by
  change execFreezeNLow s = _
  unfold execFreezeNLow
  rw [up]
  exact if_neg (Nat.not_lt.2 phase)

/-- The state in which a snap that is due has been taken. -/
def State.snapTaken (s : State) : State :=
  match s.dbg.snap with
  | some t => if t ≤ s.time then s.takeSnap t else s
  | none => s

/-- The state in which the island has logged a freeze. -/
def State.freezeLogged (s : State) : State :=
  ((s.snapTaken.setFld fDbgFreezeStatusFrozen 1).faultOn .freeze).logEvent 0x0E 2 0xFF none
    (((s.snapTaken.setFld fDbgFreezeStatusFrozen 1).faultOn .freeze).reg fDbgFreezeStatusArmed.off)

/-- The frozen state, its lanes released. -/
def State.frozenNow (s : State) : State := ({ s.freezeLogged with dev := .frozen }.fusePads ((List.range 32).drop 16)).note (.island .freeze)

theorem exec_freezeTick {s : State} (up : s.dev = .up) {f : Nat} (armed : s.dbg.freeze = some f) (due : f ≤ s.time) :
    exec .freezeTick s = .next s.frozenNow.settle := by
  change execFreezeTick s = _
  unfold execFreezeTick
  rw [armed]
  simp only
  rw [if_pos (by simp [up, due])]
  rfl

theorem State.takeSnap_ctl (s : State) (t i : Nat) : ((s.takeSnap t).core i).ctl = (s.core i).ctl := by
  rw [State.takeSnap_eq, State.core_of_cores (State.endSnap_frame ..).1, (s.copyAll_copied _).core]
  split
  · rfl
  · rfl

theorem State.snapTaken_ctl (s : State) (i : Nat) : (s.snapTaken.core i).ctl = (s.core i).ctl := by
  rw [State.snapTaken]
  split
  · split
    · exact s.takeSnap_ctl _ i
    · rfl
  · rfl

theorem State.freezeLogged_spec (s : State) : s.freezeLogged.fld fDbgFreezeStatusFrozen = 1 ∧ FaultCause.freeze ∈ s.freezeLogged.island.faults ∧
    s.freezeLogged.cores = s.snapTaken.cores := by
  rw [State.freezeLogged]
  generalize shown : (s.snapTaken.setFld fDbgFreezeStatusFrozen 1).faultOn .freeze = t
  have start : t.fld fDbgFreezeStatusFrozen = 1 ∧ FaultCause.freeze ∈ t.island.faults ∧ t.cores = s.snapTaken.cores := by
    subst shown
    refine ⟨?_, List.mem_append_right _ (List.mem_singleton.2 rfl), rfl⟩
    exact (State.fld_of_rim (t := State.faultOn _ _) (s := s.snapTaken.setFld fDbgFreezeStatusFrozen 1) rfl _).trans (State.fld_setFld_same _ _ _ (by decide))
  obtain ⟨frozen, fault, cores⟩ := start
  exact ⟨(t.logEvent_above _ _ _ _ _ (by decide)).trans frozen, t.logEvent_fault _ _ _ _ _ fault, (t.logEvent_onlyLog ..).cores.trans cores⟩

theorem State.fusePads_rest (s : State) (gs : List Nat) : (s.fusePads gs).dev = s.dev ∧ (s.fusePads gs).rim = s.rim ∧ (s.fusePads gs).cores = s.cores ∧
    (s.fusePads gs).island.faults = s.island.faults ∧ (s.fusePads gs).dbg = s.dbg := ⟨rfl, rfl, rfl, rfl, rfl⟩

theorem State.frozenNow_spec (s : State) : s.frozenNow.dev = .frozen ∧ s.frozenNow.fld fDbgFreezeStatusFrozen = 1 ∧
    FaultCause.freeze ∈ s.frozenNow.island.faults ∧ Note.island .freeze ∈ s.frozenNow.notes ∧ ∀ i, (s.frozenNow.core i).ctl = (s.core i).ctl := by
  obtain ⟨frozen, fault, cores⟩ := s.freezeLogged_spec
  have ctl (i : Nat) : (s.freezeLogged.core i).ctl = (s.core i).ctl := by rw [State.core_of_cores cores, s.snapTaken_ctl]
  rw [State.frozenNow]
  obtain ⟨dev, rim, kept, faults, -⟩ := State.fusePads_rest { s.freezeLogged with dev := .frozen } ((List.range 32).drop 16)
  generalize State.fusePads { s.freezeLogged with dev := .frozen } ((List.range 32).drop 16) = u at dev rim kept faults ⊢
  dsimp only at rim kept faults
  have same (i : Nat) : u.core i = s.freezeLogged.core i := State.core_of_cores kept i
  rw [State.note_dev, State.note_fld, State.note_island, State.fld_of_rim (t := u) (s := s.freezeLogged) rim, faults]
  exact ⟨dev, frozen, fault, State.mem_note _ _, fun i => (congrArg Core.ctl (same i)).trans (ctl i)⟩

/-! ## The blotter (R447, R448) -/

theorem State.fld_setReg_ofNat (s : State) {f : Fld} {v : Nat} (whole : f.lo = 0) (fits : v < 2 ^ f.width) (width : f.width ≤ 64) :
    (s.setReg f.off (BitVec.ofNat 64 v)).fld f = v := by
  rw [State.fld, State.reg_setReg_same, fieldOf_ofNat (fits.trans_le (Nat.pow_le_pow_right (by decide) width)), whole, Nat.pow_zero, Nat.div_one,
    Nat.mod_eq_of_lt fits]

theorem State.blotSelect_spec (s : State) (v : Word) : (s.blotSelect v).fld fDbgBlotSelChain = v.toNat % 256 ∧ (s.blotSelect v).fld fDbgBlotPosPosition = 0 := by
  refine ⟨?_, State.fld_setReg_ofNat (v := 0) _ rfl (by decide) (by decide)⟩
  rw [State.blotSelect, State.fld_setReg_ne _ _ (by decide)]
  exact State.fld_setReg_ofNat (f := fDbgBlotSelChain) s rfl (fieldOf_lt v 0 8) (by decide)

theorem State.blotRead_closed {s : State} (closed : s.blotClosed = true ∨ s.dev ≠ .frozen) : s.blotRead = (0, s) :=
  if_pos (by simpa using closed)

theorem State.blotRead_position {s : State} (opened : s.blotClosed = false) (frozen : s.dev = .frozen) :
    s.blotRead.2.fld fDbgBlotPosPosition = (s.fld fDbgBlotPosPosition + 64) % 2 ^ 32 := by
  rw [State.blotRead, if_neg (by simp [opened, frozen])]
  simp only
  exact State.fld_setReg_ofNat (f := fDbgBlotPosPosition) s rfl (Nat.mod_lt _ (by decide)) (by decide)

/-! ## The TAP (R448, R449) -/

theorem State.setPads_rest (s : State) (gs : List Nat) (f : Nat → Pad) : (s.setPads gs f).rim = s.rim ∧ (s.setPads gs f).dbg = s.dbg := ⟨rfl, rfl⟩

theorem State.tapPads_rest (s : State) (ir : Nat) : (s.tapPads ir).rim = s.rim ∧ (s.tapPads ir).dbg = s.dbg := by
  unfold State.tapPads
  split
  · exact s.setPads_rest ..
  · split
    · exact s.setPads_rest ..
    · split
      · simp only
        split
        · exact s.setPads_rest ..
        · exact ⟨(State.setPads_rest ..).1.trans (s.setPads_rest ..).1, (State.setPads_rest ..).2.trans (s.setPads_rest ..).2⟩
      · exact ⟨rfl, rfl⟩

theorem State.setTap_spec (s : State) (ir : Nat) (dr : Word) : (s.setTap ir dr).rim = s.rim ∧ (s.setTap ir dr).dbg.tap = { s.dbg.tap with ir := ir, dr := dr } := by
  obtain ⟨rim, dbg⟩ := s.tapPads_rest ir
  rw [State.setTap, ← dbg]
  exact ⟨rim, rfl⟩

theorem State.boundary_spec (s : State) (pins load : List Bool) : (s.boundary pins load).rim = s.rim ∧
    (s.boundary pins load).dbg.tap = { s.dbg.tap with captured := pins, boundary := load } := ⟨rfl, rfl⟩

/-- An instruction that drives pins is refused, and acts as BYPASS. -/
theorem State.tapDrive_refused {s : State} (idle : s.tapDrives = false) (ir : Nat) : (s.tapDrive ir).fld fDbgStatusJtagRefused = 1 ∧
    (s.tapDrive ir).dbg.tap.ir = 0x1F ∧ (s.tapDrive ir).dbg.tap.boundary = s.dbg.tap.boundary := by
  obtain ⟨rim, tap⟩ := (s.setFld fDbgStatusJtagRefused 1).setTap_spec 0x1F 0
  rw [State.tapDrive, if_neg (by simp [idle]), State.bypass, tap, State.fld_of_rim rim]
  exact ⟨State.fld_setFld_same _ _ _ (by decide), rfl, rfl⟩

theorem State.tapDrive_driven {s : State} (drives : s.tapDrives = true) (ir : Nat) : (s.tapDrive ir).rim = s.rim ∧
    (s.tapDrive ir).dbg.tap = { s.dbg.tap with ir := ir, dr := 0 } := by
  rw [State.tapDrive, if_pos drives]
  exact s.setTap_spec ir 0

theorem State.tapDrives_iff (s : State) : s.tapDrives = true ↔ s.dev = .frozen ∨ s.dev = .inReset ∧ s.island.resetLow = true := by
  simp [State.tapDrives]

section
variable {s : State} (powered : s.tapOn = true)
include powered

theorem State.boundaryTest_driven (drives : s.tapDrives = true) (ir : Nat) (pins load : List Bool) :
    (s.boundaryTest ir pins load).dbg.tap = ⟨ir, 0, pins, load⟩ ∧ (s.boundaryTest ir pins load).rim = s.rim := by
  obtain ⟨rim, tap⟩ := State.tapDrive_driven drives ir
  obtain ⟨kept, captured⟩ := (s.tapDrive ir).boundary_spec pins load
  rw [State.boundaryTest, if_neg (by simp [powered])]
  simp only
  rw [if_pos drives, captured, tap, kept, rim]
  exact ⟨rfl, rfl⟩

theorem State.boundaryTest_refused (idle : s.tapDrives = false) (ir : Nat) (pins load : List Bool) : s.boundaryTest ir pins load = s.tapDrive ir := by
  rw [State.boundaryTest, if_neg (by simp [powered])]
  simp only
  rw [if_neg (by simp [idle])]

theorem exec_clamp : exec .clamp s = .next (s.tapDrive 3) := if_pos powered

theorem exec_highz : exec .highz s = .next (s.tapDrive 4) := if_pos powered

theorem exec_samplePreload (pins load : List Bool) : exec (.samplePreload pins load) s = .next ((s.setTap 1 0).boundary pins load) := if_pos powered

theorem exec_idcode : exec .idcode s = .next (s.setTap 2 idcode) := if_pos powered

theorem exec_bypass : exec .bypass s = .next (s.setTap 0x1F 0) := if_pos powered

theorem exec_blotter_closed (closed : s.blotClosed = true) : exec .blotter s = .next (s.setTap 0x1F 0) :=
  (if_neg (by simp [powered])).trans (if_pos closed)

theorem exec_blotter_open (opened : s.blotClosed = false) : exec .blotter s = .next (s.blotRead.2.setTap 0x11 s.blotRead.1) :=
  (if_neg (by simp [powered])).trans (if_neg (by simp [opened]))

/-- Whatever DBGREG reads or writes, it is the instruction in force, and a write while the device is up changes no register. -/
theorem exec_dbgreg (offset : Fin 65536) (v : Option Word) : ∃ t, exec (.dbgreg offset v) s = .next t ∧ t.dbg.tap.ir = 0x10 ∧
    (s.dev = .up → v ≠ none → t.rim = s.rim) := by
  change ∃ t, execDbgreg offset v s = .next t ∧ _
  unfold execDbgreg
  rw [if_neg (by simp [powered])]
  have set (t : State) (dr : Word) : (t.setTap 0x10 dr).dbg.tap.ir = 0x10 := by rw [(t.setTap_spec 0x10 dr).2]
  split
  · exact ⟨_, rfl, set s 0, fun _ _ => (s.setTap_spec 0x10 0).1⟩
  · exact ⟨_, rfl, set _ _, fun _ read => absurd rfl read⟩
  · split
    next writes => exact ⟨_, rfl, set _ 0, fun up => by simp [up] at writes⟩
    · exact ⟨_, rfl, set s 0, fun _ _ => (s.setTap_spec 0x10 0).1⟩

end

theorem State.blotClosed_iff (s : State) : s.blotClosed = true ↔ s.lifecycle = 2 ∨ s.lifecycle = 4 := by
  simp [State.blotClosed]

theorem exec_dbgBlotSelWrite {s : State} (live : s.dev = .up ∨ s.dev = .frozen) (v : Word) : exec (.dbgBlotSelWrite v) s = .next (s.blotSelect v) :=
  if_pos (by simpa using live)

theorem exec_dbgBlotDataRead {s : State} (live : s.dev = .up ∨ s.dev = .frozen) :
    exec .dbgBlotDataRead s = .next { s.blotRead.2 with lastRead := s.blotRead.1 } :=
  if_pos (by simpa using live)

/-- Settles O60: freezes by the registers that neither a flood nor the log touches, the TAP by the pads that its instructions drive. -/
theorem freezeAndTap : Obligations.FreezeAndTap := by
  unfold Obligations.FreezeAndTap
  refine ⟨fun s up => ⟨fun p asked eight => ?_, fun phase => ?_, fun f armed due => ?_⟩, fun s live => ⟨fun v => ?_, fun closed => ?_, fun frozen service retired => ?_⟩,
    fun s on running => ?_⟩
  · exact ⟨s.armFreeze (numAt p 0 8), exec_freeze up asked eight, s.armFreeze_spec _⟩
  · obtain ⟨armed, source, freeze⟩ := s.freezeAt_status (s.tickIn 2000) 0
    exact ⟨_, exec_freezeNLow up phase, freeze, (State.fld_setFld_apart _ _ (by decide)).trans armed, (State.fld_setFld_apart _ _ (by decide)).trans source⟩
  · exact ⟨s.frozenNow, exec_freezeTick up armed due, s.frozenNow_spec⟩
  · exact ⟨s.blotSelect v, exec_dbgBlotSelWrite live v, s.blotSelect_spec v⟩
  · have zero : s.blotRead = (0, s) := State.blotRead_closed (closed.elim (fun up => .inr (by simp [up])) fun kept => .inl (s.blotClosed_iff.2 kept))
    rw [exec_dbgBlotDataRead live, zero]
  · have opened : s.blotClosed = false := Bool.eq_false_iff.2 fun closed => (s.blotClosed_iff.1 closed).elim service retired
    exact ⟨_, exec_dbgBlotDataRead live, State.blotRead_position opened frozen⟩
  · intro drives refused driven
    have powered : s.tapOn = true := by simp [State.tapOn, on, running]
    have tests (ir : Nat) (pins load : List Bool) : (drives → driven ir pins load (s.boundaryTest ir pins load)) ∧ (¬drives → refused (s.boundaryTest ir pins load)) := by
      refine ⟨fun may => State.boundaryTest_driven powered (s.tapDrives_iff.2 may) ir pins load, fun idle => ?_⟩
      have idle' := Bool.eq_false_iff.2 fun may => idle (s.tapDrives_iff.1 may)
      rw [State.boundaryTest_refused powered idle']
      exact State.tapDrive_refused idle' ir
    have drive (ir : Nat) : (drives → driven ir s.dbg.tap.captured s.dbg.tap.boundary (s.tapDrive ir)) ∧ (¬drives → refused (s.tapDrive ir)) := by
      refine ⟨fun may => ?_, fun idle => State.tapDrive_refused (Bool.eq_false_iff.2 fun may => idle (s.tapDrives_iff.1 may)) ir⟩
      obtain ⟨rim, tap⟩ := State.tapDrive_driven (s.tapDrives_iff.2 may) ir
      exact ⟨tap, rim⟩
    refine ⟨fun c ir pins load mem => ?_, fun c ir mem => ?_, fun pins load => ?_, ?_, ?_, fun closed => ?_, fun service retired => ?_, exec_dbgreg powered⟩
    · have row : exec c s = .next (s.boundaryTest ir pins load) := by
        simp only [List.mem_cons, Prod.mk.injEq, List.not_mem_nil, or_false] at mem
        obtain ⟨rfl, rfl⟩ | ⟨rfl, rfl⟩ | ⟨rfl, rfl⟩ := mem <;> rfl
      exact ⟨fun may => ⟨_, row, (tests ir pins load).1 may⟩, fun idle => ⟨_, row, (tests ir pins load).2 idle⟩⟩
    · have row : exec c s = .next (s.tapDrive ir) := by
        simp only [List.mem_cons, Prod.mk.injEq, List.not_mem_nil, or_false] at mem
        obtain ⟨rfl, rfl⟩ | ⟨rfl, rfl⟩ := mem
        · exact exec_clamp powered
        · exact exec_highz powered
      exact ⟨fun may => ⟨_, row, (drive ir).1 may⟩, fun idle => ⟨_, row, (drive ir).2 idle⟩⟩
    · obtain ⟨rim, tap⟩ := s.setTap_spec 1 0
      obtain ⟨kept, captured⟩ := (s.setTap 1 0).boundary_spec pins load
      exact ⟨_, exec_samplePreload powered pins load, by rw [captured, tap], kept.trans rim⟩
    · obtain ⟨rim, tap⟩ := s.setTap_spec 2 idcode
      exact ⟨_, exec_idcode powered, by rw [tap], by rw [tap], rim⟩
    · obtain ⟨rim, tap⟩ := s.setTap_spec 0x1F 0
      exact ⟨_, exec_bypass powered, by rw [tap], rim⟩
    · obtain ⟨rim, tap⟩ := s.setTap_spec 0x1F 0
      exact ⟨_, exec_blotter_closed powered (s.blotClosed_iff.2 closed), by rw [tap], rim⟩
    · obtain ⟨-, tap⟩ := s.blotRead.2.setTap_spec 0x11 s.blotRead.1
      refine ⟨_, exec_blotter_open powered (Bool.eq_false_iff.2 fun closed => (s.blotClosed_iff.1 closed).elim service retired), ?_⟩
      rw [tap]
      exact ⟨rfl, rfl⟩

end Sys2Proof.Machine

/-! SUPPORT. Routes and management: the port that a packet takes, and the frames, sessions and requests of the management controller. -/

namespace Sys2Proof.Machine

/-! ## Coordinates and entries (R309, R316) -/

theorem State.dimBase_eq_sum (s : State) (i : Nat) : s.dimBase i = ((List.range i).map s.dimWidth).sum := by
  rw [State.dimBase, List.sum_eq_foldl, List.foldl_map]

/-- The dimension in which a packet's destination first differs from the device. -/
def State.firstApart (s : State) (x : FabPkt) : Option Nat :=
  (List.range s.dims).find? (fun i => s.coord x.dstDev i != s.coord (s.fld fFabIdDeviceId) i)

/-- A packet's routing entry in a dimension. -/
def State.entryOf (s : State) (x : FabPkt) (i : Nat) : Word := s.route (bit x.epoch) i (s.coord x.dstDev i)

/-- The ports that an entry permits in its dimension and direction. -/
def State.permitted (s : State) (w : Word) (i : Nat) : List Nat := (s.portsOf i (fieldOf w 0 2 - 1)).filter (fun p => bitOf w (2 + p))

theorem State.firstApart_eq_none {s : State} {x : FabPkt} (agrees : ∀ i ≤ s.fld fFabDimsNdims, s.coord x.dstDev i = s.coord (s.fld fFabIdDeviceId) i) :
    s.firstApart x = none :=
  List.find?_eq_none.2 fun i mem => by simp [agrees i (Nat.lt_succ_iff.1 (List.mem_range.1 mem))]

theorem State.firstApart_eq_some {s : State} {x : FabPkt} {i : Nat} (within : i ≤ s.fld fFabDimsNdims)
    (differs : s.coord x.dstDev i ≠ s.coord (s.fld fFabIdDeviceId) i) (agrees : ∀ j < i, s.coord x.dstDev j = s.coord (s.fld fFabIdDeviceId) j) :
    s.firstApart x = some i :=
  List.find?_range_eq_some.2 ⟨by simpa using differs, List.mem_range.2 (Nat.lt_succ_of_le within), fun j low => by simpa using agrees j low⟩

theorem State.nextHop_invalid {s : State} (invalid : s.fld fFabIdValid = 0) (inPort : Nat) (x : FabPkt) : s.nextHop inPort x = .unreachable := if_pos invalid

theorem State.nextHop_eq {s : State} (valid : s.fld fFabIdValid = 1) (inPort : Nat) (x : FabPkt) : s.nextHop inPort x =
    match s.firstApart x with
    | none => .here
    | some i =>
      if !s.idInRange (s.fld fFabIdDeviceId) then .unreachable
      else if fieldOf (s.entryOf x i) 0 2 = 0 || fieldOf (s.entryOf x i) 0 2 = 3 then .unreachable
      else if (s.permitted (s.entryOf x i) i).isEmpty then .unreachable
      else match s.travels inPort with
        | none => .out (s.cheapest x (s.permitted (s.entryOf x i) i)) false
        | some (j, d) =>
          if i < j || (i = j && d != fieldOf (s.entryOf x i) 0 2 - 1) then .disorder
          else .out (s.cheapest x (s.permitted (s.entryOf x i) i)) (i = j) := by
  rw [State.nextHop, if_neg (by simp [valid]), State.routed, valid]
  rfl

/-! ## The least cost (R318) -/

/-- The cost of a port for a packet. -/
def State.portCost (s : State) (x : FabPkt) (p : Nat) : Nat := 2 * s.level p x.cls + s.partnerLevel p x.cls

theorem levelOf_le (n : Nat) : levelOf n ≤ 3 := by
  unfold levelOf
  split_ifs <;> decide

theorem State.portCost_le (s : State) (x : FabPkt) (p : Nat) : s.portCost x p ≤ 9 := by
  have own : s.level p x.cls ≤ 3 := levelOf_le _
  have partner : s.partnerLevel p x.cls < 4 := fieldOf_lt ..
  unfold State.portCost
  omega

/-- The least of costs that are at most 9. -/
theorem foldl_min_spec {cost : Nat → Nat} (l : List Nat) (b : Nat) : l.foldl (fun n p => min n (cost p)) b ≤ b ∧
    (∀ p ∈ l, l.foldl (fun n p => min n (cost p)) b ≤ cost p) ∧
    (l.foldl (fun n p => min n (cost p)) b = b ∨ ∃ p ∈ l, cost p = l.foldl (fun n p => min n (cost p)) b) := by
  induction l generalizing b with
  | nil => exact ⟨Nat.le_refl b, by simp, .inl rfl⟩
  | cons p l ih =>
    obtain ⟨below, least, attained⟩ := ih (min b (cost p))
    simp only [List.foldl_cons, List.forall_mem_cons]
    refine ⟨below.trans (Nat.min_le_left ..), ⟨below.trans (Nat.min_le_right ..), least⟩, ?_⟩
    obtain first | ⟨q, mem, same⟩ := attained
    · obtain lower | higher := Nat.le_total b (cost p)
      · exact .inl (first.trans (Nat.min_eq_left lower))
      · exact .inr ⟨p, List.mem_cons_self, (first.trans (Nat.min_eq_right higher)).symm⟩
    · exact .inr ⟨q, List.mem_cons_of_mem p mem, same⟩

/-- The ports of least cost. -/
def State.tiedPorts (s : State) (x : FabPkt) (ps : List Nat) : List Nat := ps.filter (fun p => ps.all (fun q => decide (s.portCost x p ≤ s.portCost x q)))

theorem State.cheapest_eq (s : State) (x : FabPkt) (ps : List Nat) :
    s.cheapest x ps = (s.tiedPorts x ps).getD ((Nat.xor x.srcDev x.dstDev) % (s.tiedPorts x ps).length) 0 := by
  obtain ⟨-, least, attained⟩ := foldl_min_spec (cost := s.portCost x) ps 9
  have tied : ps.filter (fun p => decide (s.portCost x p = ps.foldl (fun n p => min n (s.portCost x p)) 9)) = s.tiedPorts x ps := by
    refine List.filter_congr fun p mem => ?_
    rw [Bool.eq_iff_iff, decide_eq_true_iff, List.all_eq_true]
    refine ⟨fun same q mem => decide_eq_true (same ▸ least q mem), fun below => Nat.le_antisymm ?_ (least p mem)⟩
    obtain start | ⟨q, mem, same⟩ := attained
    · exact (s.portCost_le x p).trans_eq start.symm
    · exact same ▸ of_decide_eq_true (below q mem)
  rw [← tied]
  rfl

theorem State.cheapest_of_tied {s : State} {x : FabPkt} {ps : List Nat} {q : Nat}
    (turn : (s.tiedPorts x ps)[(Nat.xor x.srcDev x.dstDev) % (s.tiedPorts x ps).length]? = some q) : s.cheapest x ps = q := by
  rw [State.cheapest_eq, List.getD_eq_getElem?_getD, turn, Option.getD_some]

theorem State.tiedPorts_ne_nil (s : State) (x : FabPkt) {ps : List Nat} (some : ps ≠ []) : s.tiedPorts x ps ≠ [] := by
  obtain ⟨p, mem, least⟩ := ps.toFinset.exists_min_image (s.portCost x) (List.toFinset_nonempty_iff _ |>.2 some)
  refine List.ne_nil_of_mem (a := p) (List.mem_filter.2 ⟨List.mem_toFinset.1 mem, List.all_eq_true.2 fun q other => ?_⟩)
  exact decide_eq_true (least q (List.mem_toFinset.2 other))

/-! ## The ports of an entry (R310, R316) -/

theorem State.portDim_eq_some (s : State) (p i d : Nat) : s.portDim p = some (i, d) ↔
    (fieldOf (s.reg fFabPortmapPort.off) (4 * p) 4).testBit 3 = true ∧ fieldOf (s.reg fFabPortmapPort.off) (4 * p) 4 % 4 = i ∧
      fieldOf (s.reg fFabPortmapPort.off) (4 * p) 4 / 4 % 2 = d := by
  rw [State.portDim]
  split
  next used => simp [used]
  next idle => simp [idle]

theorem State.permitted_unique (s : State) (w : Word) (i : Nat) {ports : List Nat} (ordered : ports.Sublist (List.range 16))
    (mem : ∀ p, p ∈ ports ↔ p < 16 ∧ s.fabUp p = true ∧ w.getLsbD (2 + p) = true ∧ s.portDim p = some (i, fieldOf w 0 2 - 1)) : s.permitted w i = ports := by
  have range : (List.range 16).Pairwise (· < ·) := List.pairwise_lt_range
  have own : (s.permitted w i).Sublist (List.range 16) := List.filter_sublist.trans List.filter_sublist
  refine List.Pairwise.eq_of_mem_iff (range.sublist own) (range.sublist ordered) fun p => ?_
  rw [mem, State.permitted, State.portsOf, List.mem_filter, List.mem_filter, List.mem_range, Bool.and_eq_true, decide_eq_true_iff, bitOf]
  tauto

theorem State.travels_none {s : State} {inPort : Nat} (source : 16 ≤ inPort ∨ (fieldOf (s.reg fFabPortmapPort.off) (4 * inPort) 4).testBit 3 = false) :
    s.travels inPort = none := by
  rw [State.travels]
  split
  next port =>
    have idle := source.resolve_left (Nat.not_le.2 port)
    rw [State.portDim, if_neg (by simp [idle]), Option.map_none]
  · rfl

theorem State.travels_some {s : State} {inPort j d : Nat} (port : inPort < 16) (mapped : s.portDim inPort = some (j, d)) :
    s.travels inPort = some (j, 1 - d) := by
  rw [State.travels, if_pos port, mapped, Option.map_some]

/-- Of two directions, one is not the opposite of the other where they are the same. -/
theorem opposite_ne : ∀ d < 2, ∀ e < 2, (1 - d != e) = decide (d = e) := by decide

/-- Settles O49: the first dimension apart gives the entry, the entry its ports, and the direction in which the packet came its order. -/
theorem routeChoice : Obligations.RouteChoice := by
  unfold Obligations.RouteChoice
  intro inPort x s width coord agrees entry mapped
  have coord_eq (v i : Nat) : coord v i = s.coord v i := by
    rw [State.coord, State.dimBase_eq_sum]
    rfl
  have entry_eq (i : Nat) : entry i = s.entryOf x i := by
    unfold entry
    rw [coord_eq, State.entryOf, State.route, bit]
    congr 1
    omega
  have mapped_iff (p i d : Nat) : mapped p i d ↔ s.portDim p = some (i, d) := (s.portDim_eq_some p i d).symm
  simp only [agrees, coord_eq, entry_eq, mapped_iff]
  refine ⟨fun invalid => State.nextHop_invalid invalid inPort x, fun valid same => ?_, fun i within valid differs same => ?_⟩
  · rw [State.nextHop_eq valid, State.firstApart_eq_none same]
  · have apart := State.firstApart_eq_some within differs same
    have field : (s.entryOf x i).toNat % 4 = fieldOf (s.entryOf x i) 0 2 := rfl
    have hop := State.nextHop_eq valid inPort x
    rw [field]
    simp only [apart] at hop
    generalize s.entryOf x i = w at hop ⊢
    refine ⟨fun lost => ?_, fun ranged forth ports ordered mem => ?_⟩
    · rw [hop]
      obtain out | idle := lost
      · rw [if_pos (by simp [out])]
      · split
        · rfl
        · rw [if_pos (by simp [idle])]
    · rw [if_neg (by simp [ranged]), if_neg (by rcases forth with h | h <;> simp [h]), s.permitted_unique w i ordered mem] at hop
      have some {q : Nat} (turn : (s.tiedPorts x ports)[(Nat.xor x.srcDev x.dstDev) % (s.tiedPorts x ports).length]? = some q) : ports ≠ [] := by
        rintro rfl
        exact absurd turn (by simp [State.tiedPorts])
      refine ⟨fun none => ?_, fun q turn => ⟨fun source => ?_, fun j d port from_ => ?_⟩, s.tiedPorts_ne_nil x⟩
      · rw [hop, none]
        rfl
      · rw [hop, if_neg (by simp [some turn]), State.travels_none source, State.cheapest_of_tied turn]
      · rw [hop, if_neg (by simp [some turn]), State.travels_some port from_]
        simp only [State.cheapest_of_tied turn]
        have backwards : (1 - d != fieldOf w 0 2 - 1) = decide (d = fieldOf w 0 2 - 1) := by
          have bit : d < 2 := by
            obtain ⟨-, -, rfl⟩ := (s.portDim_eq_some inPort j d).1 from_
            exact Nat.mod_lt _ (by decide)
          exact opposite_ne d bit _ (by omega)
        rw [backwards]
        simp only [Bool.or_eq_true, Bool.and_eq_true, decide_eq_true_eq]

/-! ## Frames that arrive (R341, R343) -/

/-- Whether a transfer is a frame for the Scribe: one to the UDP port, or to the dynamic address on I3C. -/
def State.Frames (s : State) (iface : Fin 2) (udp : Fin 65536) : Prop :=
  iface.val = 1 ∧ udp.val = s.island.i3c ∧ udp.val ≠ 0 ∨ iface.val = 0 ∧ udp.val = s.fld fScrMgmtCtrlUdpPort

theorem exec_mgmtFrameReceive_i3c {iface : Fin 2} (i3c : iface.val = 1) (udp : Fin 65536) (bytes : List Byte) (s : State) :
    exec (.mgmtFrameReceive iface udp bytes) s = .next (s.i3cTransfer udp.val bytes) := if_pos i3c

theorem exec_mgmtFrameReceive_elsewhere {iface : Fin 2} (port : iface.val = 0) {udp : Fin 65536} {s : State} (other : udp.val ≠ s.fld fScrMgmtCtrlUdpPort)
    (bytes : List Byte) : exec (.mgmtFrameReceive iface udp bytes) s = .next s := (if_neg (by omega)).trans (if_pos (by simpa using other))

theorem State.i3cTransfer_frame {s : State} (on : s.dev ≠ .off) {bytes : List Byte} (long : bytes.length ≠ 1) (addr : Nat) :
    s.i3cTransfer addr bytes = if addr = s.island.i3c && addr != 0 then s.receiveFrame 1 bytes else s := by
  rw [State.i3cTransfer, if_neg on]
  rintro b rfl
  exact long rfl

theorem State.i3cTransfer_elsewhere {s : State} {bytes : List Byte} (long : bytes.length ≠ 1) {addr : Nat} (other : addr ≠ s.island.i3c) :
    s.i3cTransfer addr bytes = s := by
  by_cases on : s.dev = .off
  · exact if_pos on
  · rw [State.i3cTransfer_frame on long, if_neg (by simp [other])]

theorem exec_mgmtFrameReceive {s : State} {iface : Fin 2} {udp : Fin 65536} {bytes : List Byte} (frame : s.Frames iface udp) (long : 16 ≤ bytes.length)
    (up : s.dev = .up) : exec (.mgmtFrameReceive iface udp bytes) s = .next (s.receiveFrame iface.val bytes) := by
  obtain ⟨i3c, addressed, given⟩ | ⟨port, addressed⟩ := frame
  · rw [exec_mgmtFrameReceive_i3c i3c, State.i3cTransfer_frame (by simp [up]) (by omega), if_pos (by rw [Bool.and_eq_true, decide_eq_true_iff, bne_iff_ne]; exact ⟨addressed, given⟩), i3c]
  · have row : exec (.mgmtFrameReceive iface udp bytes) s = .next (s.receiveFrame 0 bytes) := (if_neg (by omega)).trans (if_neg (by simpa using addressed))
    rw [row, port]

/-- What becomes of a frame whose payload `p` is clear. -/
def State.takeClear (s : State) (iface : Nat) (h : FrameHead) (p : List Byte) : State :=
  match headBad h p with
  | some o => s.replyNow iface h 2 (detailWord o)
  | none => s.accept ⟨iface, h.session, h.seq, h.opcode, p, s.mono⟩

/-- What becomes of a frame, its payload given where it could be opened. -/
def State.takeOpened (s : State) (iface : Nat) (h : FrameHead) : Option (List Byte) → State
  | none => s.bump fScrAuthFailCount 1
  | some p => s.takeClear iface h p

theorem State.takeClear_bad {h : FrameHead} {p : List Byte} {o : Nat} (bad : headBad h p = some o) (s : State) (iface : Nat) :
    s.takeClear iface h p = s.replyNow iface h 2 (detailWord o) := by
  simp only [State.takeClear, bad]

theorem State.takeClear_good {h : FrameHead} {p : List Byte} (good : headBad h p = none) (s : State) (iface : Nat) :
    s.takeClear iface h p = s.accept ⟨iface, h.session, h.seq, h.opcode, p, s.mono⟩ := by
  simp only [State.takeClear, good]

section
variable {s : State} {bytes : List Byte} (long : 16 ≤ bytes.length) (up : s.dev = .up) (phase : 2 ≤ s.fld fRstStatusPhase) (iface : Nat)
include long up phase

theorem State.receiveFrame_opened (within : (frameHead bytes).session ≤ 4) :
    s.receiveFrame iface bytes = s.takeOpened iface (frameHead bytes) (s.openFrame (frameHead bytes) bytes) := by
  have answers : s.answers = true := by simp [State.answers, up, phase]
  rw [State.receiveFrame, if_neg (by simp [up, long]), if_neg (by simp [answers]), if_neg (Nat.not_lt.2 within)]
  rfl

theorem State.receiveFrame_closed (within : (frameHead bytes).session ≤ 4) (other : (frameHead bytes).session ≠ 0)
    (closed : s.scribe.sessions.look (frameHead bytes).session none = none) : s.receiveFrame iface bytes = s.bump fScrAuthFailCount 1 := by
  have unread : s.openFrame (frameHead bytes) bytes = none := by rw [State.openFrame, if_neg other, closed]
  rw [State.receiveFrame_opened long up phase iface within, unread, State.takeOpened]

theorem State.receiveFrame_zero (zero : (frameHead bytes).session = 0) : s.receiveFrame iface bytes = s.takeClear iface (frameHead bytes) (bytes.drop 16) := by
  have clear : s.openFrame (frameHead bytes) bytes = some (bytes.drop 16) := if_pos zero
  rw [State.receiveFrame_opened long up phase iface (zero ▸ Nat.zero_le 4), clear, State.takeOpened]

end

theorem State.replyNow_zero {h : FrameHead} (zero : h.session = 0) (s : State) (iface status : Nat) (detail : List Byte) :
    s.replyNow iface h status detail = { s with scribe := { s.scribe with sent := some ⟨iface, 0, h.seq, h.opcode, status, detail⟩ } } := by
  rw [State.replyNow, zero]

/-! ## A request by its sequence number (R343) -/

theorem State.accept_repeated {s : State} {r : MReq} {k : Reply} (kept : (s.session r.iface r.session).kept.find? (fun k => k.seq = r.seq) = some k) :
    s.accept r = { s with scribe := { s.scribe with sent := some k } } := by
  rw [State.accept, kept]

theorem State.accept_late {s : State} {r : MReq} (fresh : (s.session r.iface r.session).kept.find? (fun k => k.seq = r.seq) = none)
    (past : (s.session r.iface r.session).last + 64 < r.seq) (next : (s.session r.iface r.session).next ≤ r.seq) :
    s.accept r = { s with scribe := { s.scribe with
      sent := some ⟨r.iface, r.session, r.seq, r.opcode, 4, detailWord (s.session r.iface r.session).last⟩ } } := by
  rw [State.accept, fresh]
  simp only
  rw [if_neg (by simp; omega), if_neg (by simp; omega), if_neg (by simp; omega)]

/-- The session of a request that is the next in sequence, with none waiting for it. -/
def State.advanced (s : State) (r : MReq) : State :=
  s.setSession r.iface r.session { s.session r.iface r.session with next := (s.session r.iface r.session).next + 1 }

/-- The state in which such a request is the only one that is queued. -/
def State.requestQueued (s : State) (r : MReq) : State := { s.advanced r with scribe := { (s.advanced r).scribe with reqs := [r] } }

theorem State.setSession_rest (s : State) (iface n : Nat) (x : Session) : (s.setSession iface n x).rim = s.rim ∧ (s.setSession iface n x).dev = s.dev ∧
    (s.setSession iface n x).life = s.life ∧ (s.setSession iface n x).scribe.reqs = s.scribe.reqs ∧ (s.setSession iface n x).scribe.sent = s.scribe.sent := by
  rw [State.setSession]
  split
  · exact ⟨rfl, rfl, rfl, rfl, rfl⟩
  · exact ⟨rfl, rfl, rfl, rfl, rfl⟩

theorem State.barred_congr {s t : State} (rim : t.rim = s.rim) (dev : t.dev = s.dev) (life : t.life = s.life) (r : MReq) : t.barred r = s.barred r := by
  have lifecycle : t.lifecycle = s.lifecycle := by rw [State.lifecycle, life, State.lifecycle]
  simp only [State.barred, State.openOpcodes, State.fld_of_rim rim, dev, lifecycle]
  rfl

theorem State.settle_of_allowed {s : State} {r : MReq} (only : s.scribe.reqs = [r]) (allowed : s.barred r = none) : s.settle = s := by
  rw [State.settle, only]
  simp only [List.length_singleton, State.drain, only, allowed]

theorem State.requestQueued_rest (s : State) (r : MReq) : (s.requestQueued r).rim = s.rim ∧ (s.requestQueued r).dev = s.dev ∧ (s.requestQueued r).life = s.life :=
  ⟨(s.setSession_rest ..).1, (s.setSession_rest ..).2.1, (s.setSession_rest ..).2.2.1⟩

theorem State.accept_next {s : State} {r : MReq} (fresh : (s.session r.iface r.session).kept.find? (fun k => k.seq = r.seq) = none)
    (next : r.seq = (s.session r.iface r.session).next) (within : r.seq ≤ (s.session r.iface r.session).last + 64)
    (none_ : (s.session r.iface r.session).waiting = []) (idle : s.scribe.reqs = []) (allowed : s.barred r = none) : s.accept r = s.requestQueued r := by
  obtain ⟨rim, dev, life⟩ := s.requestQueued_rest r
  have settled : (s.requestQueued r).settle = s.requestQueued r := State.settle_of_allowed rfl ((State.barred_congr rim dev life r).trans allowed)
  have pulled (y : Session) : Session.pull (s.session r.iface r.session).waiting.length y [r] = (y, [r]) := by rw [none_]; rfl
  have reqs : (s.advanced r).scribe.reqs = [] := (s.setSession_rest ..).2.2.2.1.trans idle
  rw [State.accept, fresh]
  simp only
  rw [if_pos (by rw [Bool.and_eq_true, decide_eq_true_iff, decide_eq_true_iff]; exact ⟨next, within⟩), pulled]
  simp only
  rw [← State.advanced, reqs]
  exact settled

theorem State.requestQueued_session {s : State} {r : MReq} (zero : r.session = 0) : ((s.requestQueued r).session r.iface 0).next = (s.session r.iface 0).next + 1 := by
  rw [State.requestQueued, State.advanced, zero]
  exact congrArg Session.next (Tbl.look_put_same ..)

/-! ## Sessions (R342) -/

theorem exec_sequenceGapTimeout {iface : Fin 2} {n : Fin 5} {s : State} (up : s.dev = .up)
    (held : ∃ w ∈ (s.session iface.val n.val).waiting, w.1 + 100000000 ≤ s.mono) :
    exec (.sequenceGapTimeout iface n) s = .next (s.setSession iface.val n.val { s.session iface.val n.val with waiting := [] }) :=
  (if_neg (by simp [up])).trans (if_pos (by simpa using held))

/-- The state in which SCR_MC_KEY is locked. -/
def State.keyLock (s : State) : State := { s with scribe := { s.scribe with keyLocked := true } }

/-- The state in which a session has opened, its number not yet counted in SCR_STATUS. -/
def State.opened (s : State) (n fresh : Nat) (p : List Byte) : State :=
  s.keyLock.setSession 0 n { sessionNew with key := Config.sessionKey (p.take 96) fresh }

/-- The state with the sessions that are open counted. -/
def State.sessionsCounted (s : State) : State := s.setFld fScrStatusSessions s.scribe.sessions.length

section
variable {s : State} {p : List Byte} (asked : s.payload 0x01 = some p) (up : s.dev = .up) (fresh : Nat)
include asked up

theorem exec_sessionOpen_full (full : s.freeSession = none) : exec (.sessionOpen fresh) s = .next (s.keyLock.answer 0x01 1 []) := by
  change execSessionOpen fresh s = _
  rw [execSessionOpen, asked]
  refine (if_neg (by simp [up])).trans ?_
  extract_lets scribe t
  have same : t.freeSession = s.freeSession := rfl
  rw [same, full]
  rfl

variable {n : Nat} (free : s.freeSession = some n) (length : p.length = 192)
include free length

theorem exec_sessionOpen_free : exec (.sessionOpen fresh) s = .next (
    if s.fld fScrStatusMcKeyValid = 0 || !Config.verifies 0 s.mcKey (p.take 96) (p.drop 96) then (s.keyLock.bump fScrAuthFailCount 1).answer 0x01 3 []
    else (s.opened n fresh p).sessionsCounted.answer 0x01 0 (detailWord n ++ Config.openReply (p.take 96) fresh)) := by
  have good : badPayload p 192 [(0, 96, true), (96, 96, true)] = none := by simp [badPayload, badField, length]
  change execSessionOpen fresh s = _
  rw [execSessionOpen, asked]
  refine (if_neg (by simp [up])).trans ?_
  extract_lets scribe t
  have same : t.freeSession = s.freeSession := rfl
  rw [same, free, good]
  simp only
  split
  · rw [if_pos ‹_›]
    rfl
  · rw [if_neg ‹_›]
    rfl

theorem exec_sessionOpen_refused (bad : s.fld fScrStatusMcKeyValid = 0 ∨ Config.verifies 0 s.mcKey (p.take 96) (p.drop 96) = false) :
    exec (.sessionOpen fresh) s = .next ((s.keyLock.bump fScrAuthFailCount 1).answer 0x01 3 []) := by
  rw [exec_sessionOpen_free asked up fresh free length, if_pos (by simpa using bad)]

theorem exec_sessionOpen_opens (valid : s.fld fScrStatusMcKeyValid = 1) (good : Config.verifies 0 s.mcKey (p.take 96) (p.drop 96) = true) :
    exec (.sessionOpen fresh) s =
      .next ((s.opened n fresh p).sessionsCounted.answer 0x01 0 (detailWord n ++ Config.openReply (p.take 96) fresh)) := by
  rw [exec_sessionOpen_free asked up fresh free length, if_neg (by simp [valid, good])]

end

theorem State.freeSession_pos {s : State} {n : Nat} (free : s.freeSession = some n) : n ≠ 0 := by
  have mem := List.mem_of_find?_eq_some free
  rintro rfl
  exact absurd mem (by decide)

theorem State.opened_spec {s : State} {n : Nat} (other : n ≠ 0) (fresh : Nat) (p : List Byte) : let u := (s.opened n fresh p).sessionsCounted
    u.scribe.keyLocked = true ∧ u.scribe.sessions.look n none = some ⟨Config.sessionKey (p.take 96) fresh, 0, 1, [], []⟩ ∧
    u.fld fScrStatusSessions = u.scribe.sessions.length % 8 := by
  intro u
  have scribe : u.scribe = (s.opened n fresh p).scribe := rfl
  have opened : s.opened n fresh p = { s.keyLock with scribe := { s.keyLock.scribe with
      sessions := s.keyLock.scribe.sessions.put n (some { sessionNew with key := Config.sessionKey (p.take 96) fresh }) none } } := if_neg other
  refine ⟨?_, ?_, State.fld_setFld_same _ _ _ (by decide)⟩
  · rw [scribe, opened]
    rfl
  · rw [scribe, opened]
    exact s.keyLock.scribe.sessions.look_put_same n (some { sessionNew with key := Config.sessionKey (p.take 96) fresh }) none

/-- A session has ended: it is not open, the requests queued are those of `rest` of other sessions, and `k` was the last reply. -/
structure State.Ended (t : State) (n : Nat) (rest : List MReq) (k : Reply) : Prop where
  reqs : t.scribe.reqs.filter (fun q => q.session != n) = rest.filter (fun q => q.session != n)
  sent : t.scribe.sent = some k

theorem State.sendReply_reqs (s : State) (k : Reply) : (s.sendReply k).Ended k.session s.scribe.reqs k := by
  unfold State.sendReply
  extract_lets x scribe t
  have start : t.Ended k.session s.scribe.reqs k := ⟨rfl, rfl⟩
  have kept (iface n : Nat) (y : Session) : (t.setSession iface n y).Ended k.session s.scribe.reqs k := by
    obtain ⟨-, -, -, reqs, sent⟩ := t.setSession_rest iface n y
    exact ⟨by rw [reqs, start.reqs], by rw [sent, start.sent]⟩
  split
  · exact kept ..
  · split
    · exact start
    · split
      · refine ⟨?_, start.sent⟩
        have filtered : (t.endSession k.session).scribe.reqs = t.scribe.reqs.filter (fun q => q.session != k.session) := rfl
        rw [filtered, List.filter_filter]
        simp only [Bool.and_self]
        exact start.reqs
      · exact kept ..

theorem State.endSession_spec (s : State) (n : Nat) : (s.endSession n).scribe.sessions.look n none = none ∧
    (s.endSession n).scribe.reqs = s.scribe.reqs.filter (fun r => r.session != n) ∧ (s.endSession n).scribe.sent = s.scribe.sent :=
  ⟨s.scribe.sessions.look_put_same n none none, rfl, rfl⟩

theorem exec_sessionClose {r : MReq} {rest : List MReq} {s : State} (head : s.scribe.reqs = r :: rest) (up : s.dev = .up) (close : r.opcode = 0x02) :
    exec .sessionClose s = .next ((s.answerHead 0x02 0 []).endSession r.session).settle := by
  change execSessionClose s = _
  rw [execSessionClose, head]
  exact if_pos (by simp [up, close])

theorem State.answerHead_head {r : MReq} {rest : List MReq} {s : State} (head : s.scribe.reqs = r :: rest) (op : Nat) (same : r.opcode = op) (status : Nat)
    (detail : List Byte) : s.answerHead op status detail =
      { s with scribe := { s.scribe with reqs := rest } }.sendReply ⟨r.iface, r.session, r.seq, op, status, detail⟩ := by
  rw [State.answerHead, head]
  exact if_pos same

/-- Settles O51: each frame by its header, each request by its number, sessions by what their table holds. -/
theorem managementFrames : Obligations.ManagementFrames := by
  unfold Obligations.ManagementFrames
  refine ⟨fun iface udp bytes s => ?_, fun iface n s up held => exec_sequenceGapTimeout up held, fun fresh p s asked up => ⟨fun full => ?_, fun n free length => ⟨fun bad => ?_,
    fun valid good => ?_⟩⟩, fun r rest s head up close => ?_, fun s asked live => if_pos (by simpa [asked] using live)⟩
  · intro h p
    refine ⟨fun port other => exec_mgmtFrameReceive_elsewhere port other bytes, fun i3c short other => ?_, fun b i3c setdasa single on => ?_, fun frame long up phase => ?_⟩
    · rw [exec_mgmtFrameReceive_i3c i3c, State.i3cTransfer_elsewhere short other]
    · rw [exec_mgmtFrameReceive_i3c i3c, single, State.i3cTransfer, if_neg on]
      exact congrArg _ (if_pos setdasa)
    · rw [exec_mgmtFrameReceive frame long up]
      refine ⟨fun other within closed => ?_, fun zero => ?_⟩
      · rw [State.receiveFrame_closed long up phase iface.val within other closed]
        exact ⟨_, rfl, State.fld_setFld_same _ _ _ (by decide), rfl⟩
      · intro x reply
        rw [State.receiveFrame_zero long up phase iface.val zero]
        refine ⟨fun o bad => ?_, fun good => ?_⟩
        · exact congrArg _ ((State.takeClear_bad bad s iface.val).trans (State.replyNow_zero zero s iface.val 2 (detailWord o)))
        · have accepted := State.takeClear_good good s iface.val
          rw [zero] at accepted
          rw [accepted]
          let r : MReq := ⟨iface.val, 0, h.seq, h.opcode, p, s.mono⟩
          refine ⟨fun k kept => ?_, fun fresh => ⟨fun past next => ?_, fun next within none_ idle allowed => ?_⟩⟩
          · exact congrArg _ (State.accept_repeated (r := r) kept)
          · exact congrArg _ (State.accept_late (r := r) fresh past next)
          · refine ⟨_, congrArg _ (State.accept_next (r := r) fresh next within none_ idle allowed), rfl, State.requestQueued_session (r := r) rfl, ?_⟩
            exact (s.requestQueued_rest r).1
  · exact ⟨s.keyLock, exec_sessionOpen_full asked up fresh full, rfl⟩
  · exact ⟨_, exec_sessionOpen_refused asked up fresh free length bad, State.fld_setFld_same _ _ _ (by decide), rfl, rfl⟩
  · exact ⟨_, exec_sessionOpen_opens asked up fresh free length valid good, State.opened_spec (State.freeSession_pos free) fresh p⟩
  · have ended := State.sendReply_reqs { s with scribe := { s.scribe with reqs := rest } } ⟨r.iface, r.session, r.seq, 0x02, 0, []⟩
    obtain ⟨closed, reqs, sent⟩ := (s.answerHead 0x02 0 []).endSession_spec r.session
    rw [State.answerHead_head head 2 close] at reqs sent
    exact ⟨_, exec_sessionClose head up close, closed, by rw [State.answerHead_head head 2 close, reqs, ended.reqs], by rw [State.answerHead_head head 2 close, sent, ended.sent]⟩

end Sys2Proof.Machine

/-! SUPPORT. Repair and votes: what a failing core's mark, a region that is loaded again and a row of the repair map leave alone, and from these scores, remaps and
verdicts. -/

namespace Sys2Proof.Machine

theorem State.OnlyLog.mono {s t : State} (h : s.OnlyLog t) : t.mono = s.mono := by
  rw [State.OnlyLog] at h
  rw [h]

/-! ## Scores (R419) -/

/-- A core that fails is marked, and nothing else of any core changes. -/
theorem State.failCore_core (s : State) (i j : Nat) : (s.failCore i).core j =
    if j = i ∧ (s.core i).fld fCoreSuspectFailed ≠ 1 then (s.core i).setFld fCoreSuspectFailed 1 else s.core j := by
  rw [State.failCore]
  split
  next failed => rw [if_neg fun both => both.2 failed]
  next sound =>
    extract_lets t
    have logged : t.cores = (s.mapCore i (fun c => c.setFld fCoreSuspectFailed 1)).cores := (State.logEvent_onlyLog ..).cores
    clear_value t
    have read : (State.note { t with repair := { t.repair with failed := t.repair.failed ++ [i] } } (.coreFailed i)).core j =
        (s.mapCore i (fun c => c.setFld fCoreSuspectFailed 1)).core j := State.core_of_cores logged j
    rw [read]
    by_cases same : j = i
    · rw [if_pos ⟨same, sound⟩, same, State.core_mapCore_same]
    · rw [if_neg fun both => same both.1, State.core_mapCore_ne _ _ same]

theorem State.failCore_mono (s : State) (i : Nat) : (s.failCore i).mono = s.mono := by
  rw [State.failCore]
  split
  · rfl
  · extract_lets t
    have logged : t.mono = (s.mapCore i (fun c => c.setFld fCoreSuspectFailed 1)).mono := State.OnlyLog.mono (State.logEvent_onlyLog ..)
    clear_value t
    exact logged

theorem State.failCore_fails (s : State) (i : Nat) : ((s.failCore i).core i).fld fCoreSuspectFailed = 1 := by
  rw [State.failCore_core]
  split
  · exact Core.fld_setFld_same _ _ _ (by decide)
  next stays => exact of_not_not fun sound => stays ⟨rfl, sound⟩

theorem State.failCore_score (s : State) (i j : Nat) : ((s.failCore i).core j).fld fCoreSuspectScore = (s.core j).fld fCoreSuspectScore := by
  rw [State.failCore_core]
  split
  next fails => rw [fails.1, Core.fld_setFld_apart _ _ (by decide)]
  · rfl

theorem State.failCore_reports (s : State) (i j : Nat) : ((s.failCore i).core j).reports = (s.core j).reports := by
  rw [State.failCore_core]
  split
  next fails => rw [fails.1]; rfl
  · rfl

theorem State.judge_score (s : State) (i j : Nat) : ((s.judge i).core j).fld fCoreSuspectScore = (s.core j).fld fCoreSuspectScore := by
  rw [State.judge]
  split
  · exact s.failCore_score i j
  · rfl

theorem State.judge_reports (s : State) (i j : Nat) : ((s.judge i).core j).reports = (s.core j).reports := by
  rw [State.judge]
  split
  · exact s.failCore_reports i j
  · rfl

theorem State.score_reports (s : State) (i j : Nat) : ((s.score i).core j).reports = (s.core j).reports := by
  rw [State.score, State.judge_reports]
  by_cases same : j = i
  · rw [same, State.core_mapCore_same]
    rfl
  · rw [State.core_mapCore_ne _ _ same]

theorem State.score_score (s : State) (i : Nat) : ((s.score i).core i).fld fCoreSuspectScore = min 15 ((s.core i).fld fCoreSuspectScore + 1) := by
  rw [State.score, State.judge_score, State.core_mapCore_same, Core.fld_setFld_same _ _ _ (by decide)]
  exact Nat.mod_eq_of_lt (lt_of_le_of_lt (Nat.min_le_left ..) (by decide))

theorem State.score_fails {s : State} {i : Nat} (limit : s.fld fRstRepairCtrlSuspectLimit ≤ min 15 ((s.core i).fld fCoreSuspectScore + 1)) :
    ((s.score i).core i).fld fCoreSuspectFailed = 1 := by
  have raised : ((s.mapCore i (fun c => c.setFld fCoreSuspectScore (min 15 (c.fld fCoreSuspectScore + 1)))).core i).fld fCoreSuspectScore =
      min 15 ((s.core i).fld fCoreSuspectScore + 1) := by
    rw [State.core_mapCore_same, Core.fld_setFld_same _ _ _ (by decide)]
    exact Nat.mod_eq_of_lt (lt_of_le_of_lt (Nat.min_le_left ..) (by decide))
  rw [State.score, State.judge, raised, if_pos (by exact limit)]
  exact State.failCore_fails ..

/-! ## Reports (R419) -/

/-- The state in which a report has left its core and gone to the Scribe Complex. -/
def State.reported (s : State) (i : Nat) (rest : List Report) : State :=
  ((s.mapCore i (fun c => { c with reports := rest })).send (clusterOfCore i) (scribeHub (clusterOfCore i))).2

/-- The state in which it has been logged. -/
def State.reportLogged (s : State) (i : Nat) (r : Report) (rest : List Report) : State :=
  (s.reported i rest).logEvent 0x08 1 (clusterOfCore i) (some r.region) (BitVec.ofNat 64 (i + r.kind.code * 2 ^ 16))

theorem exec_detectedErrorReport {i : CoreId} {s : State} {r : Report} {rest : List Report} (up : s.dev = .up) (first : (s.core i.val).reports = r :: rest)
    (goes : s.hubWaits (clusterOfCore i.val) (scribeHub (clusterOfCore i.val)) = false) : exec (.detectedErrorReport i) s =
      .next (if (s.send (clusterOfCore i.val) (scribeHub (clusterOfCore i.val))).1 = true
        then ((s.reportLogged i.val r rest).scored i.val r).foldl State.score (s.reportLogged i.val r rest) else s.reported i.val rest) := by
  have arrives : ((s.mapCore i.val (fun c => { c with reports := rest })).send (clusterOfCore i.val) (scribeHub (clusterOfCore i.val))).1 =
      (s.send (clusterOfCore i.val) (scribeHub (clusterOfCore i.val))).1 := s.send_setCore ..
  change execDetectedErrorReport i s = _
  rw [execDetectedErrorReport, first]
  simp only
  rw [if_neg (by simp [up, goes]), ← arrives]
  split
  next lost => rw [if_neg (by simpa using lost)]; rfl
  next kept => rw [if_pos (by simpa using kept)]; rfl

theorem State.reported_cores (s : State) (i : Nat) (rest : List Report) : (s.reported i rest).cores = (s.mapCore i (fun c => { c with reports := rest })).cores :=
  State.hairline_cores _ _

theorem State.reported_core (s : State) (i : Nat) (rest : List Report) : (s.reported i rest).core i = { s.core i with reports := rest } := by
  rw [State.core_of_cores (s.reported_cores i rest), State.core_mapCore_same]

theorem State.reportLogged_core (s : State) (i : Nat) (r : Report) (rest : List Report) :
    (s.reportLogged i r rest).core i = { s.core i with reports := rest } := by
  have logged : (s.reportLogged i r rest).cores = (s.reported i rest).cores := (State.logEvent_onlyLog ..).cores
  rw [State.core_of_cores logged, s.reported_core]

theorem State.reportLogged_limit (s : State) (i : Nat) (r : Report) (rest : List Report) :
    (s.reportLogged i r rest).fld fRstRepairCtrlSuspectLimit = s.fld fRstRepairCtrlSuspectLimit := by
  rw [State.reportLogged, State.logEvent_below _ _ _ _ _ _ (by decide), State.reported, State.fld_of_rim (State.send_rim ..)]
  exact State.fld_of_rim rfl _

theorem State.scored_checksum (s : State) (i : Nat) {r : Report} (checksum : r.kind = .checksum) : s.scored i r = [i] := by
  rw [State.scored, checksum]
  split
  · rfl
  · rfl

theorem State.foldl_score_reports (l : List Nat) (s : State) (j : Nat) : ((l.foldl State.score s).core j).reports = (s.core j).reports :=
  List.foldlRecOn _ _ (motive := fun t : State => (t.core j).reports = (s.core j).reports) rfl fun t kept i _ => (t.score_reports i j).trans kept

/-! ## The halving of scores (R419) -/

theorem insertBy_perm {α : Type} (key : α → Nat) (x : α) : ∀ l : List α, (insertBy key x l).Perm (x :: l)
  | [] => .refl _
  | y :: l => by
    rw [insertBy]
    split
    · exact .refl _
    · exact ((insertBy_perm key x l).cons y).trans (.swap x y l)

theorem sortBy_perm {α : Type} (key : α → Nat) : ∀ l : List α, (sortBy key l).Perm l
  | [] => .refl _
  | x :: l => (insertBy_perm key x (sortBy key l)).trans ((sortBy_perm key l).cons x)

theorem nodup_eraseDups : ∀ l : List Nat, l.eraseDups.Nodup
  | [] => by simp
  | a :: l => by
    rw [List.eraseDups_cons]
    exact List.nodup_cons.2 ⟨by simp [List.mem_eraseDups], nodup_eraseDups _⟩
termination_by l => l.length
decreasing_by exact Nat.lt_succ_of_le (List.length_filter_le ..)

theorem Tbl.look_of_not_mem {α : Type} {k : Nat} (d : α) : ∀ {t : Tbl α}, k ∉ t.map (·.1) → t.look k d = d
  | [], _ => rfl
  | (k', v) :: t, other => by
    rw [List.map_cons, List.mem_cons, not_or] at other
    rw [Tbl.look, if_neg (Ne.symm other.1), Tbl.look_of_not_mem d other.2]

/-- Cores changed one after another, each once. -/
theorem State.core_foldl_mapCore_nodup (f : Core → Core) {l : List Nat} (once : l.Nodup) (s : State) (j : Nat) :
    (l.foldl (fun (s : State) i => s.mapCore i f) s).core j = if j ∈ l then f (s.core j) else s.core j := by
  induction l generalizing s with
  | nil => rfl
  | cons i l ih =>
    obtain ⟨apart, once⟩ := List.nodup_cons.1 once
    rw [List.foldl_cons, ih once]
    by_cases here : j = i
    · subst here
      rw [if_neg apart, if_pos List.mem_cons_self, State.core_mapCore_same]
    · simp only [State.core_mapCore_ne s f here, List.mem_cons, here, false_or]

/-- The cores that have a record, each once. -/
def State.recorded (s : State) : List Nat := sortBy clusterOfCore ((s.cores.map (fun x => x.1)).eraseDups)

/-- A core with half its score. -/
def Core.halved (c : Core) : Core := c.setFld fCoreSuspectScore (c.fld fCoreSuspectScore / 2)

/-- The state in which each score is halved. -/
def State.scoresHalved (s : State) : State := s.recorded.foldl (fun (s : State) i => s.mapCore i Core.halved) s

/-- The state in which each core left with a score is judged. -/
def State.scoresJudged (s : State) (l : List Nat) : State := l.foldl (fun (s : State) i => if (s.core i).fld fCoreSuspectScore = 0 then s else s.judge i) s

theorem Core.halved_score (c : Core) : c.halved.fld fCoreSuspectScore = c.fld fCoreSuspectScore / 2 :=
  (Core.fld_setFld_same c _ _ (by decide)).trans (Nat.mod_eq_of_lt (lt_of_le_of_lt (Nat.div_le_self ..) (fieldOf_lt ..)))

theorem State.scoresHalved_score (s : State) (i : Nat) : (s.scoresHalved.core i).fld fCoreSuspectScore = (s.core i).fld fCoreSuspectScore / 2 := by
  have once : s.recorded.Nodup := (sortBy_perm _ _).nodup_iff.2 (nodup_eraseDups _)
  rw [State.scoresHalved, State.core_foldl_mapCore_nodup _ once]
  split
  · exact (s.core i).halved_score
  next other =>
    have fresh : s.core i = Core.reset := Tbl.look_of_not_mem _ fun mem => other ((sortBy_perm _ _).mem_iff.2 (List.mem_eraseDups.2 mem))
    rw [fresh]
    decide

theorem State.scoresJudged_score (s : State) (l : List Nat) (i : Nat) :
    ((s.scoresJudged l).core i).fld fCoreSuspectScore = (s.core i).fld fCoreSuspectScore :=
  List.foldlRecOn _ _ (motive := fun t : State => (t.core i).fld fCoreSuspectScore = (s.core i).fld fCoreSuspectScore) rfl fun t kept j _ => by
    split
    · exact kept
    · exact (t.judge_score j i).trans kept

theorem State.scoresJudged_mono (s : State) (l : List Nat) : (s.scoresJudged l).mono = s.mono :=
  List.foldlRecOn _ _ (motive := fun t : State => t.mono = s.mono) rfl fun t kept j _ => by
    split
    · exact kept
    · rw [State.judge]
      split
      · exact (t.failCore_mono j).trans kept
      · exact kept

theorem State.scoresHalved_mono (s : State) : s.scoresHalved.mono = s.mono :=
  List.foldlRecOn _ _ (motive := fun t : State => t.mono = s.mono) rfl fun _ kept _ _ => kept

theorem exec_suspectScoreHalving {s : State} (up : s.dev = .up) (due : s.repair.halved + s.fld fRstRepairCtrlWindowH * 3600 * 10 ^ 9 ≤ s.mono) :
    exec .suspectScoreHalving s = .next { s.scoresHalved.scoresJudged s.recorded with
      repair := { (s.scoresHalved.scoresJudged s.recorded).repair with halved := (s.scoresHalved.scoresJudged s.recorded).mono } } := by
  change execSuspectScoreHalving s = _
  unfold execSuspectScoreHalving
  rw [if_pos (by rw [Bool.and_eq_true, decide_eq_true_iff, decide_eq_true_iff]; exact ⟨up, due⟩)]
  rfl

/-! ## A failed core's region and its map (R421 to R423) -/

theorem State.failCore_of_failed {s : State} {i : Nat} (failed : (s.core i).fld fCoreSuspectFailed = 1) : s.failCore i = s := if_pos failed

theorem exec_failedCoreProcedure {i : CoreId} {s : State} {r x : Nat} (up : s.dev = .up) (failed : (s.core i.val).fld fCoreSuspectFailed = 1)
    (own : (s.core i.val).fld fCoreCheckRole ≠ 2) (region : s.regionOf (clusterOfCore i.val) = some r) (mapped : s.logicalX i.val = some x)
    (running : s.rgn r fRgnStatusState = 2) : exec (.failedCoreProcedure i) s = .next (s.resetJob r) := by
  change execFailedCoreProcedure i s = _
  unfold execFailedCoreProcedure
  rw [if_neg (by simp [up, failed]), State.failCore_of_failed failed]
  simp only
  rw [if_neg own, region, mapped]
  exact if_pos (by simp [running])

/-- The region that holds a cluster is enabled. -/
theorem State.regionOf_on {s : State} {n r : Nat} (region : s.regionOf n = some r) : r < 64 ∧ s.rgn r fRgnCfgEnable = 1 := by
  have holds := List.find?_some region
  simp only [State.holds, Bool.and_eq_true, decide_eq_true_eq] at holds
  exact ⟨List.mem_range.1 (List.mem_of_find?_eq_some region), holds.1.1.1.1⟩

/-- The state in which the map records a failed core, the links are written again, and the core is done with. -/
def State.mappedOut (s : State) (i : Nat) : State :=
  let t := (s.mapOut i).writeMesh (repairCores (rowOf i))
  { t with repair := { t.repair with failed := t.repair.failed.filter (fun j => j != i) } }

/-- The state in which the regions that use the core's cluster are loaded again. -/
def State.remapDone (s : State) (i : Nat) : State :=
  (((s.mapOut i).writeMesh (repairCores (rowOf i))).regionsUsing (clusterOfCore i)).foldl State.reload (s.mappedOut i)

/-- Whether a remap has left a core's row short, or its cluster is out of service. -/
def State.leftShort (s : State) (i : Nat) : Bool := s.fld (rowReg (rowOf i) fRstRowmapShort) = 1 || s.outOfService (clusterOfCore i)

theorem exec_repairRemap {i : CoreId} {s : State} (up : s.dev = .up) (failed : i.val ∈ s.repair.failed)
    (ready : ∀ r ∈ s.regionsUsing (clusterOfCore i.val), s.rgn r fRgnStatusState = 1)
    (agree : Agrees (fun a => (repairCores (rowOf i.val)).any (fun j => decide (a = (rowReg (rowOf j) fRstRowmapFailQx).off))) s) :
    let t := (s.remapDone i.val).note (.repairEntry (coreEntry i.val) ((s.remapDone i.val).leftShort i.val))
    exec (.repairRemap i) s = .next (if (s.remapDone i.val).leftShort i.val then t.needMapping (clusterOfCore i.val) else t) := by
  intro t
  rw [Agrees] at agree
  have may : (s.dev = .up && s.repair.failed.contains i.val && (s.regionsUsing (clusterOfCore i.val)).all (fun r => decide (s.rgn r fRgnStatusState = 1))) = true := by
    simpa [up, failed] using ready
  change execRepairRemap i s = _
  unfold execRepairRemap
  rw [if_pos may, agree]
  rfl

theorem State.writeMesh_onlyUnits (s : State) (l : List Nat) : s.OnlyUnits (s.writeMesh l) := by
  rw [State.writeMesh]
  exact .foldl (fun (t : State) (x : Nat × Nat) => t.mapCore_onlyUnits x.1 _) _ s

theorem State.OnlyUnits.repair {s t : State} (h : s.OnlyUnits t) : t.repair = s.repair := by
  rw [State.OnlyUnits] at h
  rw [h]

theorem State.setRgn_above (s : State) {r : Nat} (region : r < 64) (v : Nat) {f g : Fld} (low : g.off < 0x2c2000) (above : 0x2c5000 ≤ f.off) :
    (s.setRgn r g v).fld f = s.fld f := State.fld_setFld_other s _ _ v (by simp only [fldAt]; omega)

/-- `t` has the list of failed cores, and the registers of the repair map, of `s`. -/
structure State.SameMap (s t : State) : Prop where
  repair : t.repair = s.repair
  fld : ∀ f : Fld, 0x2c5000 ≤ f.off → t.fld f = s.fld f

theorem State.SameMap.trans {s t u : State} (h : s.SameMap t) (k : t.SameMap u) : s.SameMap u :=
  ⟨k.repair.trans h.repair, fun f above => (k.fld f above).trans (h.fld f above)⟩

theorem State.OnlyUnits.sameMap {s t : State} (h : s.OnlyUnits t) : s.SameMap t := ⟨h.repair, fun f _ => State.fld_of_rim h.rim f⟩

theorem State.setRgn_sameMap (s : State) {r : Nat} (region : r < 64) (v : Nat) {g : Fld} (low : g.off < 0x2c2000) : s.SameMap (s.setRgn r g v) :=
  ⟨rfl, fun _ above => s.setRgn_above region v low above⟩

theorem State.mapRgn_sameMap (s : State) (r : Nat) (f : RgnSt → RgnSt) : s.SameMap (s.mapRgn r f) := ⟨rfl, fun _ _ => rfl⟩

theorem State.forgetImage_sameMap (s : State) (r : Nat) : s.SameMap (s.forgetImage r) := ⟨rfl, fun _ _ => rfl⟩

theorem State.enterWiping_sameMap (s : State) {r : Nat} (region : r < 64) (adv : Bool) : s.SameMap (s.enterWiping r adv) := by
  have parted := (s.dissolve_onlyUnits r).sameMap
  have closed : s.SameMap (s.closeGeneration r adv) := by
    rw [State.closeGeneration]
    split
    · exact (parted.trans (State.setRgn_sameMap _ region _ (by decide))).trans (State.mapRgn_sameMap ..)
    · exact parted
  rw [State.enterWiping_eq, State.enter]
  refine .trans ?_ (State.mapRgn_sameMap ..)
  refine .trans ?_ (State.setRgn_sameMap _ region 0 (by decide))
  refine .trans ?_ (State.mapRgn_sameMap ..)
  refine .trans ?_ (State.setRgn_sameMap _ region 5 (by decide))
  exact (closed.trans (State.wipeUnits_onlyUnits ..).sameMap).trans (State.forgetImage_sameMap ..)

theorem State.reload_sameMap (s : State) {r : Nat} (region : r < 64) : s.SameMap (s.reload r) := by
  rw [State.reload]
  split
  · exact s.enterWiping_sameMap region true
  · exact ⟨rfl, fun _ _ => rfl⟩

theorem State.regionsUsing_lt {s : State} {n r : Nat} (mem : r ∈ s.regionsUsing n) : r < 64 := (State.mem_regionsOn.1 (List.mem_of_mem_filter mem)).1

theorem State.remapDone_sameMap (s : State) (i : Nat) : (s.mappedOut i).SameMap (s.remapDone i) :=
  List.foldlRecOn _ _ (motive := (s.mappedOut i).SameMap) ⟨rfl, fun _ _ => rfl⟩ fun t kept _ mem =>
    kept.trans (t.reload_sameMap (State.regionsUsing_lt mem))

theorem State.not_mem_mappedOut (s : State) (i : Nat) : i ∉ (s.mappedOut i).repair.failed := fun mem => by
  have other := (List.mem_filter.1 mem).2
  simp at other

theorem State.setRow_fld (s : State) (row : Nat) (failed : List Nat) (field : Bool) :
    (s.setRow row failed field).fld (rowReg row fRstRowmapFailQx) = failed.eraseDups.headD 7 % 2 ^ 3 := by
  rw [State.setRow, State.fld_setFld_apart _ _ (.inr (.inl (by decide : 3 + 3 ≤ 7))), State.fld_setFld_apart _ _ (.inr (.inl (by decide : 3 + 3 ≤ 6)))]
  exact State.fld_setFld_same s (rowReg row fRstRowmapFailQx) _ (by decide : 3 + 3 ≤ 64)

theorem State.mapOut_fld {s : State} {i : Nat} (whole : s.fld (rowReg (rowOf i) fRstRowmapFailQx) = 7) :
    (s.mapOut i).fld (rowReg (rowOf i) fRstRowmapFailQx) = pxOf i % 7 := by
  have first : s.rowFailed (rowOf i) = [] := if_pos whole
  have set : (s.setRow (rowOf i) (s.rowFailed (rowOf i) ++ [pxOf i % 7]) true).fld (rowReg (rowOf i) fRstRowmapFailQx) = pxOf i % 7 := by
    rw [State.setRow_fld, first, List.nil_append, List.eraseDups_cons, List.headD_cons]
    exact Nat.mod_eq_of_lt (lt_trans (Nat.mod_lt _ (by decide)) (by decide))
  rw [State.mapOut]
  split
  · rw [State.fld_setFld_apart _ _ (.inr (.inl (by decide : 3 + 3 ≤ 6))), set]
  · exact set

theorem State.mappedOut_rim (s : State) (i : Nat) : (s.mappedOut i).rim = (s.mapOut i).rim := by
  have only := ((s.mapOut i).writeMesh_onlyUnits (repairCores (rowOf i))).rim
  rw [State.mappedOut]
  generalize (s.mapOut i).writeMesh (repairCores (rowOf i)) = t at only ⊢
  exact only

theorem State.remapped (s : State) (i : CoreId) (up : s.dev = .up) (failed : i.val ∈ s.repair.failed)
    (ready : ∀ r ∈ s.regionsUsing (clusterOfCore i.val), s.rgn r fRgnStatusState = 1)
    (agree : Agrees (fun a => (repairCores (rowOf i.val)).any (fun j => decide (a = (rowReg (rowOf j) fRstRowmapFailQx).off))) s) :
    ∃ t, exec (.repairRemap i) s = .next t ∧ i.val ∉ t.repair.failed ∧ (∃ short, Note.repairEntry (coreEntry i.val) short ∈ t.notes) ∧
      (s.fld (rowReg (rowOf i.val) fRstRowmapFailQx) = 7 → t.fld (rowReg (rowOf i.val) fRstRowmapFailQx) = pxOf i.val % 7) := by
  have mapped := s.remapDone_sameMap i.val
  refine ⟨_, exec_repairRemap up failed ready agree, ?_⟩
  generalize (s.remapDone i.val).leftShort i.val = short
  have told : (s.remapDone i.val).OnlyUnits ((s.remapDone i.val).note (.repairEntry (coreEntry i.val) short)) := State.note_onlyUnits ..
  have units : ∀ t, (s.remapDone i.val).OnlyUnits t → Note.repairEntry (coreEntry i.val) short ∈ t.notes → i.val ∉ t.repair.failed ∧
      (∃ short, Note.repairEntry (coreEntry i.val) short ∈ t.notes) ∧
      (s.fld (rowReg (rowOf i.val) fRstRowmapFailQx) = 7 → t.fld (rowReg (rowOf i.val) fRstRowmapFailQx) = pxOf i.val % 7) := by
    refine fun t only note => ⟨?_, ⟨short, note⟩, fun whole => ?_⟩
    · rw [only.repair, mapped.repair]
      exact s.not_mem_mappedOut i.val
    · rw [State.fld_of_rim only.rim, mapped.fld _ (Nat.le_add_right 0x2c5000 _), State.fld_of_rim (s.mappedOut_rim i.val), State.mapOut_fld whole]
  split
  · exact units _ (told.trans (State.needMapping_onlyUnits ..)) (State.needMapping_keepsNotes _ _ (State.mem_note _ _))
  · exact units _ told (State.mem_note _ _)

/-! ## Votes (R423, R427) -/

/-- The mirrors whose copy differs from the primary's. -/
def dissenting (own : Digest) (votes : List (Nat × Option Digest)) : List Nat := (votes.filter (fun v => v.2 != some own)).map (·.1)

theorem verdict_agree_iff (own : Digest) (votes : List (Nat × Option Digest)) : verdict own votes = .agree ↔ ∀ v ∈ votes, v.2 = some own := by
  have none_ : (dissenting own votes).isEmpty = true ↔ ∀ v ∈ votes, v.2 = some own := by
    rw [dissenting, List.isEmpty_iff, List.map_eq_nil_iff, List.filter_eq_nil_iff]
    simp
  unfold verdict
  rw [← none_]
  change (if (dissenting own votes).isEmpty = true then _ else _) = _ ↔ _
  split
  next all => exact iff_of_true rfl all
  next some =>
    refine iff_of_false ?_ some
    split
    · split_ifs <;> simp
    · simp

theorem verdict_pair (own : Digest) (m n : Nat) {d : Option Digest} (differs : d ≠ some own) :
    verdict own [(m, some own), (n, d)] = .corrected [n] ∧ verdict own [(m, d), (n, some own)] = .corrected [m] ∧ verdict own [(m, d)] = .noMajority := by
  simp [verdict, differs]

theorem verdict_outvoted {own d e : Digest} (m n : Nat) (first : d ≠ own) (second : e ≠ own) :
    verdict own [(m, some d), (n, some e)] = if d = e then .primaryFails else .noMajority := by
  simp [verdict, first, second]

section
variable {fab : Bool} {idx r i since : Nat} {own : Digest} {s : State} (up : s.dev = .up) (held : s.heldPacket fab idx = some (r, i, since))
  (digest : s.heldDigest fab idx = some own)
include up held digest

theorem exec_checkVote {digests : List Digest} (all : digests.length = (s.mirrorsOf r i).length)
    (same : ∀ d ∈ digests, d.kind = own.kind ∧ d.ep = own.ep ∧ d.seq = own.seq) :
    exec (.checkVote fab idx () digests) s = .next (s.vote r i fab idx (verdict own ((s.mirrorsOf r i).zip (digests.map some)))) := by
  have fit : digests.all (fun d => digestFor own d) = true := List.all_eq_true.2 fun d mem => by
    obtain ⟨kind, ep, seq⟩ := same d mem
    simp [digestFor, kind, ep, seq]
  change execCheckVote fab idx () digests s = _
  rw [execCheckVote, held, digest]
  exact if_neg (by simp [up, all, fit])

theorem exec_voteDigestTimeout {digests : List (Option Digest)} (all : digests.length = (s.mirrorsOf r i).length) (missing : none ∈ digests)
    (same : ∀ d, some d ∈ digests → d.kind = own.kind ∧ d.ep = own.ep ∧ d.seq = own.seq) (late : since + 1000 * s.rgn r fRgnCheckVoteLimit ≤ s.mono) :
    exec (.voteDigestTimeout fab idx () digests) s = .next (s.vote r i fab idx (verdict own ((s.mirrorsOf r i).zip digests))) := by
  have fit : digests.map (fun d => d.filter (fun d => digestFor own d)) = digests := List.map_congr_left (fun d mem => by
    rcases d with _ | d
    · rfl
    · obtain ⟨kind, ep, seq⟩ := same d mem
      simp [digestFor, kind, ep, seq]) |>.trans (List.map_id _)
  have short : digests.all (fun d => d.isSome) = false := List.all_eq_false.2 ⟨none, missing, by simp⟩
  change execVoteDigestTimeout fab idx () digests s = _
  rw [execVoteDigestTimeout, held, digest]
  simp only [fit]
  exact if_neg (by simp [up, all, short, late])

end

theorem State.vote_agree (s : State) (r i : Nat) (fab : Bool) (idx : Nat) :
    (s.vote r i fab idx .agree).rgn r fRgnVotesAgreeCount = (s.rgn r fRgnVotesAgreeCount + 1) % 2 ^ fRgnVotesAgreeCount.width :=
  State.rgn_setRgn_same _ _ _ (by decide)

theorem exec_exemplarOverdue {i : CoreId} {s : State} {r x : Nat} (up : s.dev = .up) (region : s.regionOf (clusterOfCore i.val) = some r)
    (mapped : s.logicalX i.val = some x) (missed : s.passedWithin (3600 * s.fld fScrExCtrlCadenceH) i.val = false)
    (late : s.timeBase.began + 3600 * s.fld fScrExCtrlCadenceH * 10 ^ 9 ≤ s.mono) (first : s.rgn r fRgnCheckStatusExOverdue = 0) :
    exec (.exemplarOverdue i) s = .next ((s.setRgn r fRgnCheckStatusExOverdue 1).note (.regionOverdue r)) := by
  change execExemplarOverdue i s = _
  rw [execExemplarOverdue, region, mapped]
  exact if_pos (by simp only [up, missed, first, decide_true, Bool.not_false, Bool.true_and, Bool.and_true, decide_eq_true_eq]; exact late)

/-- Settles O55: scores and reports by what a failing core's mark leaves of the cores, the map by what a region that is loaded again leaves of it, and the verdicts by
the copies that differ. -/
theorem repairAndVotes : Obligations.RepairAndVotes := by
  unfold Obligations.RepairAndVotes
  refine ⟨fun i s up => ⟨fun r rest first goes => ?_, fun r x failed own region mapped running => ?_, s.remapped i up, fun r x region mapped missed late first => ?_⟩,
    fun s up due => ?_, fun fab idx r i since own s up held digest => ⟨fun _ => exec_checkVote up held digest, fun _ => exec_voteDigestTimeout up held digest,
      s.vote_agree r i fab idx⟩,
    fun own votes => ⟨verdict_agree_iff own votes, fun m n _ => verdict_pair own m n, fun m n _ _ => verdict_outvoted m n⟩⟩
  · refine ⟨_, exec_detectedErrorReport up first goes, ?_, fun checksum arrives => ?_⟩
    · split
      · rw [State.foldl_score_reports, s.reportLogged_core]
      · rw [s.reported_core]
    · rw [if_pos arrives, State.scored_checksum _ _ checksum, List.foldl_cons, List.foldl_nil]
      have before : ((s.reportLogged i.val r rest).core i.val).fld fCoreSuspectScore = (s.core i.val).fld fCoreSuspectScore := by
        rw [s.reportLogged_core]
        exact Core.fld_of_regs rfl _
      refine ⟨by rw [State.score_score, before], fun limit => State.score_fails ?_⟩
      rwa [s.reportLogged_limit, before]
  · obtain ⟨within, on⟩ := State.regionOf_on region
    refine ⟨_, exec_failedCoreProcedure up failed own region mapped running, ?_⟩
    rw [State.state_resetJob s within on, running]
    rfl
  · exact ⟨_, exec_exemplarOverdue up region mapped missed late first, State.rgn_setRgn_same s r 1 (by decide), State.mem_note _ _⟩
  · refine ⟨_, exec_suspectScoreHalving up due, ?_, fun i => ?_⟩
    · exact (State.scoresJudged_mono ..).trans s.scoresHalved_mono
    · exact (s.scoresHalved.scoresJudged_score s.recorded i).trans (s.scoresHalved_score i)

end Sys2Proof.Machine
